-- ==== Sys2Proof/Word.lean ====
section
/-! DEFINITION. Word types, names of registers and the small closed sets of names that instruction fields carry. -/
namespace Sys2Proof

/-- A scalar register's contents (R50). -/
abbrev Word := BitVec 64
abbrev Byte := BitVec 8
/-- A vector register: 256 byte lanes, lane k in bits [8k+7:8k] (R200). -/
abbrev VWord := BitVec 2048
/-- A mask register: one bit per byte lane (R50). -/
abbrev MWord := BitVec 256
/-- A 128-bit bundle (R33). -/
abbrev Bundle := BitVec 128

abbrev SReg := BitVec 6
abbrev VReg := BitVec 5
abbrev PReg := BitVec 3
abbrev MReg := BitVec 3
/-- One of the eight cubes of the package (R18). -/
abbrev CubeId := Fin 8
/-- One of the sixteen shelves of a cube (R240). -/
abbrev ShelfId := Fin 16

/-- A slot's guard (R39): the sense bit and the predicate it names. -/
structure Guard where
  /-- true: execute the slot if the predicate is false. -/
  neg : Bool
  pred : PReg
deriving DecidableEq, Repr, Inhabited

/-- A scalar source operand (R36): a register, or one of the latches b1 to b7. -/
inductive Src where
  | reg (r : SReg)
  | latch (n : BitVec 3)
deriving DecidableEq, Repr, Inhabited

/-- A source operand of the vector format, whose register field has five bits: a vector register, or one of s0 to s31
where the description names a scalar (R202), or a latch. -/
inductive VSrc where
  | reg (r : BitVec 5)
  | latch (n : BitVec 3)
deriving DecidableEq, Repr, Inhabited

/-- The result modifiers of an extension byte (R36). -/
structure Mods where
  nw : Bool
  tv : Bool
deriving DecidableEq, Repr, Inhabited

/-- The eight element types of the vector format, in code order (R46, R200). -/
inductive ElemT where
  | b8 | b16 | b32 | f16 | bf16 | f32 | e4 | e5
deriving DecidableEq, Repr, Inhabited

/-- The combine of a scalar compare (R177) or of a replay tag (R154). -/
inductive Comb where
  | plain | and | or
deriving DecidableEq, Repr, Inhabited

/-- Scopes 0 to 3 (R53, R114). -/
inductive Scope where
  | cube | pkg | fab | sys
deriving DecidableEq, Repr, Inhabited

/-- The size field of a scalar access (R45). -/
inductive Size where
  | b | h | w | d
deriving DecidableEq, Repr, Inhabited

/-- The kind of a `fence` (R196). -/
inductive FenceKind where
  | full | storeStore | loadLoad
deriving DecidableEq, Repr, Inhabited

namespace ElemT
/-- The element width in bytes (R200). -/
def bytes : ElemT → Nat
  | b8 | e4 | e5 => 1
  | b16 | f16 | bf16 => 2
  | b32 | f32 => 4
def isInt : ElemT → Bool
  | b8 | b16 | b32 => true
  | _ => false
def isInt16 : ElemT → Bool
  | b16 | b32 => true
  | _ => false
def isFloat : ElemT → Bool
  | f16 | bf16 | f32 => true
  | _ => false
def isSfu : ElemT → Bool
  | bf16 | f32 => true
  | _ => false
end ElemT

/-- The bytes a scalar access moves (R45). -/
def Size.bytes : Size → Nat
  | .b => 1 | .h => 2 | .w => 4 | .d => 8

end Sys2Proof
end

