-- ==== Sys2Proof/Syntax.lean ====
section
/-! DEFINITION. The instruction set: one constructor for every row of the opcode table, in the table's order.
The 306 slot instructions carry the fields of their encoding (guard, modifiers, operands; chapter 02). The 111 steps with
no encoding, which the part or its surroundings take by themselves (chapter 95), carry what the surroundings supply. -/
namespace Sys2Proof

/-- The bounds of a context's code, as gesso sets them (R134). -/
structure CodeBounds where
  lo : Word
  hi : Word
deriving DecidableEq, Repr, Inhabited
/-- The entries of the handlers of the runtime and of the secure context (R146). -/
structure HandlerEntries where
  rt : Word
  sec : Word
deriving DecidableEq, Repr, Inhabited
/-- A read that its home serves, and whether the home has room for the watch that it asks for (R190). -/
structure ReadServe where
  read : Nat
  room : Bool
deriving DecidableEq, Repr, Inhabited
/-- The bridge die through which a packet comes in (the second one, if true), and the package that sent it (R366, R371). -/
structure PeerPath where
  bridge : Bool
  peer : BitVec 10
deriving DecidableEq, Repr, Inhabited

/-- What a request of a peer says of its line (R359): the strand, the line, and its number in the sequence. -/
structure PeerSeq where
  strand : Nat
  line : BitVec 3
  seq : Nat
deriving DecidableEq, Repr, Inhabited
/-- What a peer's request brings: its data, its transaction tag (R360), and what it says of its line. -/
structure PeerMsg where
  data : List Byte
  tag : Word
  src : PeerSeq
deriving DecidableEq, Repr, Inhabited

/-- An access whose answer does not come in time (R124), and, for a command, which has several out, its home. -/
structure LostAccess where
  id : Nat
  home : Nat
deriving DecidableEq, Repr, Inhabited
/-- What the sensors of a cube say (R388): the four sensors of each layer's die, those of the die of the inactive position, and those
of the base die. -/
structure Temps where
  layers : List (List (BitVec 8))
  inactive : List (BitVec 8)
  base : List (BitVec 8)
deriving DecidableEq, Repr, Inhabited
/-- A bridge die, and the temperature below which it has not fallen for 1 ms (R388). -/
structure BridgeHeat where
  bridge : Bool
  temp : BitVec 8
deriving DecidableEq, Repr, Inhabited
/-- A firmware image as its verifier finds it (R400): whether each of its two signatures verifies against its fused key hash, its
security version and its SHA-384 digest. -/
structure FirmwareImage where
  rsa : Bool
  slh : Bool
  version : BitVec 16
  digest : BitVec 384
deriving DecidableEq, Repr, Inhabited
/-- The two flash slots of gesso (R400). -/
structure FlashSlots where
  a : FirmwareImage
  b : FirmwareImage
deriving DecidableEq, Repr, Inhabited
/-- A face bank that failed its test: the position of its die, its face (B if true), and its number (R15, R379). -/
structure FailedBank where
  pos : Nat
  faceB : Bool
  bank : Nat
deriving DecidableEq, Repr, Inhabited
/-- What gesso's tests of one cube found (R379, R385): the capability classes that pass, the array positions 1 to 9 whose die fails, the
face banks that fail, and the current ratings of the power vias of the base die (0) and of the dies at P1 to P9, in the units of
PWR_CUBEAMPS. -/
structure BootResult where
  classes : BitVec 29
  positions : List Nat
  banks : List FailedBank
  vias : List (BitVec 16)
deriving DecidableEq, Repr, Inhabited
/-- A step of gesso's tests: they begin, or they are done with a result for each cube (R400, R401). -/
inductive BootStep where
  | begin
  | done (results : List BootResult)
deriving DecidableEq, Repr, Inhabited
/-- A request of the host (R399): through BAR2 a read, a write of some bytes, or one of the counter operations; or a read of BAR0. -/
inductive HostOp where
  | read
  | write (data : List Byte)
  | add
  | max
  | bar0
deriving DecidableEq, Repr, Inhabited
/-- An HDM decoder: the bridge die, the downstream port and the number of the decoder in it (R409). -/
structure DecoderPlace where
  bridge : Fin 2
  port : Fin 16
  index : Nat
deriving DecidableEq, Repr, Inhabited
/-- The interleave of a decoder, as its control register codes it, and its target list (R409). -/
structure Interleave where
  ways : BitVec 4
  granularity : BitVec 4
  targets : Word
deriving DecidableEq, Repr, Inhabited

/-- Every row of the opcode table. -/
inductive Instr where
  /-- NOP (R43): Does nothing; the only legal form is 0x0000_0001. -/
  | nop
  /-- HALT (R158): Ends the strand, the runtime handler or the secure context once its bundle commits. -/
  | halt (g : Guard)
  /-- YIELD (R159): Moves the strand behind the other ready strands of its priority and switches to one if any is ready. -/
  | yield (g : Guard)
  /-- TRAP (R160): Raises a post-commit TRAP_INSN with the imm6 as the cause code. -/
  | trap (g : Guard) (code : BitVec 6)
  /-- ERET (R161): Resumes the trapped strand or the runtime context at SEQ_TPC. -/
  | eret (g : Guard)
  /-- IFLUSH (R162): Invalidates the cube instruction cache lines of the address space and discards fetched-ahead bundles. -/
  | iflush (g : Guard)
  /-- TLBI (R163): Starts invalidation of translations of an address space, page or all spaces. -/
  | tlbi (g : Guard) (d : SReg) (a : Src) (code : BitVec 6)
  /-- NOISE (R164): Pops the oldest noise-queue word into a scalar register. -/
  | noise (g : Guard) (d : SReg)
  /-- CYC (R164): Writes the package cycle count. -/
  | cyc (g : Guard) (d : SReg)
  /-- SELF (R164): Writes the launch-local task index. -/
  | self (g : Guard) (d : SReg)
  /-- BRK (R160): Raises BREAK, or halts the core for debug when BRKHALT is set. -/
  | brk (g : Guard)
  /-- SYSRD (R165): Reads a system register into a scalar register, performing any read side effect. -/
  | sysrd (g : Guard) (d : SReg) (n : BitVec 12)
  /-- SYSWR (R165): Writes a scalar register into the writable fields of a system register. -/
  | syswr (g : Guard) (s : SReg) (n : BitVec 12)
  /-- ADD (R169): Integer add, low 64 bits. -/
  | add (g : Guard) (m : Mods) (d : SReg) (a : Src) (b : Src)
  /-- SUB (R169): Integer subtract. -/
  | sub (g : Guard) (m : Mods) (d : SReg) (a : Src) (b : Src)
  /-- AND (R169): Bitwise AND. -/
  | and (g : Guard) (m : Mods) (d : SReg) (a : Src) (b : Src)
  /-- OR (R169): Bitwise OR. -/
  | or (g : Guard) (m : Mods) (d : SReg) (a : Src) (b : Src)
  /-- XOR (R169): Bitwise XOR. -/
  | xor (g : Guard) (m : Mods) (d : SReg) (a : Src) (b : Src)
  /-- ANDN (R169): a AND NOT b. -/
  | andn (g : Guard) (m : Mods) (d : SReg) (a : Src) (b : Src)
  /-- ORN (R169): a OR NOT b. -/
  | orn (g : Guard) (m : Mods) (d : SReg) (a : Src) (b : Src)
  /-- SHL (R169): Shift left by b[5:0]. -/
  | shl (g : Guard) (m : Mods) (d : SReg) (a : Src) (b : Src)
  /-- SHR (R169): Logical shift right by b[5:0]. -/
  | shr (g : Guard) (m : Mods) (d : SReg) (a : Src) (b : Src)
  /-- SAR (R169): Arithmetic shift right by b[5:0]. -/
  | sar (g : Guard) (m : Mods) (d : SReg) (a : Src) (b : Src)
  /-- ROL (R169): Rotate left by b[5:0]. -/
  | rol (g : Guard) (m : Mods) (d : SReg) (a : Src) (b : Src)
  /-- MIN (R169): Signed minimum. -/
  | min (g : Guard) (m : Mods) (d : SReg) (a : Src) (b : Src)
  /-- MAX (R169): Signed maximum. -/
  | max (g : Guard) (m : Mods) (d : SReg) (a : Src) (b : Src)
  /-- MINN (R169): Unsigned minimum. -/
  | minn (g : Guard) (m : Mods) (d : SReg) (a : Src) (b : Src)
  /-- MAXN (R169): Unsigned maximum. -/
  | maxn (g : Guard) (m : Mods) (d : SReg) (a : Src) (b : Src)
  /-- ROR (R169): Rotate right by b[5:0]. -/
  | ror (g : Guard) (m : Mods) (d : SReg) (a : Src) (b : Src)
  /-- MUL (R172): Low 64 bits of the product. -/
  | mul (g : Guard) (m : Mods) (d : SReg) (a : Src) (b : Src)
  /-- MULH (R172): High 64 bits of the signed product. -/
  | mulh (g : Guard) (m : Mods) (d : SReg) (a : Src) (b : Src)
  /-- MULHN (R172): High 64 bits of the unsigned product. -/
  | mulhn (g : Guard) (m : Mods) (d : SReg) (a : Src) (b : Src)
  /-- DIV (R172): Signed quotient toward zero, interlocked. -/
  | div (g : Guard) (m : Mods) (d : SReg) (a : Src) (b : Src)
  /-- DIVN (R172): Unsigned quotient, interlocked. -/
  | divn (g : Guard) (m : Mods) (d : SReg) (a : Src) (b : Src)
  /-- REM (R172): Signed remainder, interlocked. -/
  | rem (g : Guard) (m : Mods) (d : SReg) (a : Src) (b : Src)
  /-- REMN (R172): Unsigned remainder, interlocked. -/
  | remn (g : Guard) (m : Mods) (d : SReg) (a : Src) (b : Src)
  /-- POPC (R172): Counts set bits. -/
  | popc (g : Guard) (m : Mods) (d : SReg) (a : Src)
  /-- CLZ (R172): Counts leading zeros. -/
  | clz (g : Guard) (m : Mods) (d : SReg) (a : Src)
  /-- CTZ (R172): Counts trailing zeros. -/
  | ctz (g : Guard) (m : Mods) (d : SReg) (a : Src)
  /-- BREV (R172): Reverses bit order. -/
  | brev (g : Guard) (m : Mods) (d : SReg) (a : Src)
  /-- BSWAP (R172): Reverses byte order. -/
  | bswap (g : Guard) (m : Mods) (d : SReg) (a : Src)
  /-- ABS (R172): Signed absolute value. -/
  | abs (g : Guard) (m : Mods) (d : SReg) (a : Src)
  /-- SEXT (R172): Sign-extends from bit b[5:0]. -/
  | sext (g : Guard) (m : Mods) (d : SReg) (a : Src) (b : Src)
  /-- ZEXT (R172): Zero-extends from bit b[5:0]. -/
  | zext (g : Guard) (m : Mods) (d : SReg) (a : Src) (b : Src)
  /-- BFXS (R173): Signed bit-field extract. -/
  | bfxs (g : Guard) (m : Mods) (d : SReg) (a : Src) (b : Src)
  /-- BFXN (R173): Unsigned bit-field extract. -/
  | bfxn (g : Guard) (m : Mods) (d : SReg) (a : Src) (b : Src)
  /-- BFI (R173): Bit-field insert into d. -/
  | bfi (g : Guard) (m : Mods) (d : SReg) (a : Src) (b : Src)
  /-- FSHL (R173): Funnel shift left of a:b by d[5:0]. -/
  | fshl (g : Guard) (m : Mods) (d : SReg) (a : Src) (b : Src)
  /-- FSHR (R173): Funnel shift right of a:b by d[5:0]. -/
  | fshr (g : Guard) (m : Mods) (d : SReg) (a : Src) (b : Src)
  /-- FADD (R175): F32 add. -/
  | fadd (g : Guard) (m : Mods) (d : SReg) (a : Src) (b : Src)
  /-- FSUB (R175): F32 subtract. -/
  | fsub (g : Guard) (m : Mods) (d : SReg) (a : Src) (b : Src)
  /-- FMUL (R175): F32 multiply. -/
  | fmul (g : Guard) (m : Mods) (d : SReg) (a : Src) (b : Src)
  /-- FFMA (R175): F32 fused multiply-add into d. -/
  | ffma (g : Guard) (m : Mods) (d : SReg) (a : Src) (b : Src)
  /-- FMIN (R175): F32 minimum. -/
  | fmin (g : Guard) (m : Mods) (d : SReg) (a : Src) (b : Src)
  /-- FMAX (R175): F32 maximum. -/
  | fmax (g : Guard) (m : Mods) (d : SReg) (a : Src) (b : Src)
  /-- FABS (R175): Clears the F32 sign bit. -/
  | fabs (g : Guard) (m : Mods) (d : SReg) (a : Src)
  /-- FNEG (R175): Inverts the F32 sign bit. -/
  | fneg (g : Guard) (m : Mods) (d : SReg) (a : Src)
  /-- FCVTIF (R175): Signed 64-bit integer to F32. -/
  | fcvtif (g : Guard) (m : Mods) (d : SReg) (a : Src)
  /-- FCVTNF (R175): Unsigned 64-bit integer to F32. -/
  | fcvtnf (g : Guard) (m : Mods) (d : SReg) (a : Src)
  /-- FCVTFI (R175): F32 to saturated signed 64-bit integer. -/
  | fcvtfi (g : Guard) (m : Mods) (d : SReg) (a : Src)
  /-- FCVTFN (R175): F32 to saturated unsigned 64-bit integer. -/
  | fcvtfn (g : Guard) (m : Mods) (d : SReg) (a : Src)
  /-- FSQRT (R175): F32 square root. -/
  | fsqrt (g : Guard) (m : Mods) (d : SReg) (a : Src)
  /-- ADDI (R170): Adds a signed immediate. -/
  | addi (g : Guard) (m : Mods) (d : SReg) (a : Src) (imm : BitVec 14)
  /-- ANDI (R170): ANDs a signed immediate. -/
  | andi (g : Guard) (m : Mods) (d : SReg) (a : Src) (imm : BitVec 14)
  /-- ORI (R170): ORs a signed immediate. -/
  | ori (g : Guard) (m : Mods) (d : SReg) (a : Src) (imm : BitVec 14)
  /-- XORI (R170): XORs a signed immediate. -/
  | xori (g : Guard) (m : Mods) (d : SReg) (a : Src) (imm : BitVec 14)
  /-- SHLI (R170): Shift left by immediate mod 64. -/
  | shli (g : Guard) (m : Mods) (d : SReg) (a : Src) (imm : BitVec 14)
  /-- SHRI (R170): Logical shift right by immediate. -/
  | shri (g : Guard) (m : Mods) (d : SReg) (a : Src) (imm : BitVec 14)
  /-- SARI (R170): Arithmetic shift right by immediate. -/
  | sari (g : Guard) (m : Mods) (d : SReg) (a : Src) (imm : BitVec 14)
  /-- MULI (R170): Multiplies by a signed immediate. -/
  | muli (g : Guard) (m : Mods) (d : SReg) (a : Src) (imm : BitVec 14)
  /-- MOVI (R171): Sets d to the sign-extended immediate. -/
  | movi (g : Guard) (m : Mods) (d : SReg) (imm : BitVec 23)
  /-- MOVHI (R171): Shifts d left 16 and ORs in the immediate. -/
  | movhi (g : Guard) (m : Mods) (d : SReg) (imm : BitVec 23)
  /-- CMPEQ (R176): Compares registers for equality into predicates. -/
  | cmpeq (g : Guard) (tv : Bool) (ct : Comb) (p : PReg) (q : PReg) (a : Src) (b : Src)
  /-- CMPEQ_IMM (R176): Compares a register with a signed imm6 for equality. -/
  | cmpeqImm (g : Guard) (tv : Bool) (ct : Comb) (p : PReg) (q : PReg) (a : Src) (imm : BitVec 13)
  /-- CMPNE (R176): Compares registers for inequality. -/
  | cmpne (g : Guard) (tv : Bool) (ct : Comb) (p : PReg) (q : PReg) (a : Src) (b : Src)
  /-- CMPNE_IMM (R176): Compares with a signed imm6 for inequality. -/
  | cmpneImm (g : Guard) (tv : Bool) (ct : Comb) (p : PReg) (q : PReg) (a : Src) (imm : BitVec 13)
  /-- CMPLT (R176): Signed less-than compare. -/
  | cmplt (g : Guard) (tv : Bool) (ct : Comb) (p : PReg) (q : PReg) (a : Src) (b : Src)
  /-- CMPLT_IMM (R176): Signed less-than compare with imm6. -/
  | cmpltImm (g : Guard) (tv : Bool) (ct : Comb) (p : PReg) (q : PReg) (a : Src) (imm : BitVec 13)
  /-- CMPLE (R176): Signed less-or-equal compare. -/
  | cmple (g : Guard) (tv : Bool) (ct : Comb) (p : PReg) (q : PReg) (a : Src) (b : Src)
  /-- CMPLE_IMM (R176): Signed less-or-equal compare with imm6. -/
  | cmpleImm (g : Guard) (tv : Bool) (ct : Comb) (p : PReg) (q : PReg) (a : Src) (imm : BitVec 13)
  /-- CMPLTN (R176): Unsigned less-than compare. -/
  | cmpltn (g : Guard) (tv : Bool) (ct : Comb) (p : PReg) (q : PReg) (a : Src) (b : Src)
  /-- CMPLTN_IMM (R176): Unsigned less-than compare with unsigned imm6. -/
  | cmpltnImm (g : Guard) (tv : Bool) (ct : Comb) (p : PReg) (q : PReg) (a : Src) (imm : BitVec 13)
  /-- CMPLEN (R176): Unsigned less-or-equal compare. -/
  | cmplen (g : Guard) (tv : Bool) (ct : Comb) (p : PReg) (q : PReg) (a : Src) (b : Src)
  /-- CMPLEN_IMM (R176): Unsigned less-or-equal compare with unsigned imm6. -/
  | cmplenImm (g : Guard) (tv : Bool) (ct : Comb) (p : PReg) (q : PReg) (a : Src) (imm : BitVec 13)
  /-- FCMPEQ (R176): F32 equality compare. -/
  | fcmpeq (g : Guard) (tv : Bool) (ct : Comb) (p : PReg) (q : PReg) (a : Src) (b : Src)
  /-- FCMPLT (R176): F32 less-than compare. -/
  | fcmplt (g : Guard) (tv : Bool) (ct : Comb) (p : PReg) (q : PReg) (a : Src) (b : Src)
  /-- FCMPLE (R176): F32 less-or-equal compare. -/
  | fcmple (g : Guard) (tv : Bool) (ct : Comb) (p : PReg) (q : PReg) (a : Src) (b : Src)
  /-- FCMPUN (R176): F32 unordered compare. -/
  | fcmpun (g : Guard) (tv : Bool) (ct : Comb) (p : PReg) (q : PReg) (a : Src) (b : Src)
  /-- BR (R166): Branches by a signed bundle displacement. -/
  | br (g : Guard) (disp : BitVec 29)
  /-- BRL (R166): Branches and writes the link to s63. -/
  | brl (g : Guard) (disp : BitVec 29)
  /-- JR (R167): Jumps to the address in a register. -/
  | jr (g : Guard) (a : Src)
  /-- JRL (R167): Jumps to a register address and links in s63. -/
  | jrl (g : Guard) (a : Src)
  /-- PAND (R167): Predicate AND. -/
  | pand (g : Guard) (d : PReg) (a : PReg) (b : PReg)
  /-- POR (R167): Predicate OR. -/
  | por (g : Guard) (d : PReg) (a : PReg) (b : PReg)
  /-- PXOR (R167): Predicate XOR. -/
  | pxor (g : Guard) (d : PReg) (a : PReg) (b : PReg)
  /-- PANDN (R167): Predicate AND NOT. -/
  | pandn (g : Guard) (d : PReg) (a : PReg) (b : PReg)
  /-- PMOVS (R167): Loads p1-p7 from bits 7:1 of a register. -/
  | pmovs (g : Guard) (a : Src)
  /-- PMOVP (R167): Copies the predicates into a register. -/
  | pmovp (g : Guard) (d : SReg)
  /-- LPOP (R167): Pops the innermost loop-stack entry. -/
  | lpop (g : Guard)
  /-- LOOP (R168): Pushes a hardware loop counted by a register. -/
  | loop (g : Guard) (c : SReg) (e : BitVec 21)
  /-- LOOPI (R168): Pushes a hardware loop with an immediate count. -/
  | loopi (g : Guard) (n : BitVec 19) (e : BitVec 10)
  /-- LD (R178): Scalar load of 1, 2, 4 or 8 bytes. -/
  | ld (g : Guard) (nw : Bool) (d : SReg) (base : Src) (z : Size) (x : Bool) (off : BitVec 11)
  /-- ST (R178): Scalar store on a line with .e or .g. -/
  | st (g : Guard) (data : SReg) (base : Src) (z : Size) (glob : Bool) (line : BitVec 3) (off : BitVec 11)
  /-- AMO_ADD (R181): 64-bit atomic add returning the old value. -/
  | amoAdd (g : Guard) (d : SReg) (a : Src) (b : Src)
  /-- AMO_AND (R181): 64-bit atomic AND. -/
  | amoAnd (g : Guard) (d : SReg) (a : Src) (b : Src)
  /-- AMO_OR (R181): 64-bit atomic OR. -/
  | amoOr (g : Guard) (d : SReg) (a : Src) (b : Src)
  /-- AMO_XOR (R181): 64-bit atomic XOR. -/
  | amoXor (g : Guard) (d : SReg) (a : Src) (b : Src)
  /-- AMO_MIN (R181): 64-bit atomic signed minimum. -/
  | amoMin (g : Guard) (d : SReg) (a : Src) (b : Src)
  /-- AMO_MAX (R181): 64-bit atomic signed maximum. -/
  | amoMax (g : Guard) (d : SReg) (a : Src) (b : Src)
  /-- AMO_MINN (R181): 64-bit atomic unsigned minimum. -/
  | amoMinn (g : Guard) (d : SReg) (a : Src) (b : Src)
  /-- AMO_MAXN (R181): 64-bit atomic unsigned maximum. -/
  | amoMaxn (g : Guard) (d : SReg) (a : Src) (b : Src)
  /-- AMO_SWAP (R181): 64-bit atomic swap. -/
  | amoSwap (g : Guard) (d : SReg) (a : Src) (b : Src)
  /-- AMO_CAS (R181): 64-bit compare-and-swap using s(b) and s(b+1). -/
  | amoCas (g : Guard) (d : SReg) (a : Src) (b : Src)
  /-- AMOW_ADD (R181): 32-bit atomic add. -/
  | amowAdd (g : Guard) (d : SReg) (a : Src) (b : Src)
  /-- AMOW_AND (R181): 32-bit atomic AND. -/
  | amowAnd (g : Guard) (d : SReg) (a : Src) (b : Src)
  /-- AMOW_OR (R181): 32-bit atomic OR. -/
  | amowOr (g : Guard) (d : SReg) (a : Src) (b : Src)
  /-- AMOW_XOR (R181): 32-bit atomic XOR. -/
  | amowXor (g : Guard) (d : SReg) (a : Src) (b : Src)
  /-- AMOW_MIN (R181): 32-bit atomic signed minimum. -/
  | amowMin (g : Guard) (d : SReg) (a : Src) (b : Src)
  /-- AMOW_MAX (R181): 32-bit atomic signed maximum. -/
  | amowMax (g : Guard) (d : SReg) (a : Src) (b : Src)
  /-- AMOW_MINN (R181): 32-bit atomic unsigned minimum. -/
  | amowMinn (g : Guard) (d : SReg) (a : Src) (b : Src)
  /-- AMOW_MAXN (R181): 32-bit atomic unsigned maximum. -/
  | amowMaxn (g : Guard) (d : SReg) (a : Src) (b : Src)
  /-- AMOW_SWAP (R181): 32-bit atomic swap. -/
  | amowSwap (g : Guard) (d : SReg) (a : Src) (b : Src)
  /-- AMOW_CAS (R181): 32-bit compare-and-swap. -/
  | amowCas (g : Guard) (d : SReg) (a : Src) (b : Src)
  /-- AMOW_FADD (R181): 32-bit atomic F32 add. -/
  | amowFadd (g : Guard) (d : SReg) (a : Src) (b : Src)
  /-- AMOW_FMAX (R181): 32-bit atomic F32 maximum. -/
  | amowFmax (g : Guard) (d : SReg) (a : Src) (b : Src)
  /-- RED_ADD (R183): Posted reduction add at the home. -/
  | redAdd (g : Guard) (ord : Bool) (z : Bool) (a : Src) (b : Src)
  /-- RED_AND (R183): Posted reduction AND. -/
  | redAnd (g : Guard) (ord : Bool) (z : Bool) (a : Src) (b : Src)
  /-- RED_OR (R183): Posted reduction OR. -/
  | redOr (g : Guard) (ord : Bool) (z : Bool) (a : Src) (b : Src)
  /-- RED_XOR (R183): Posted reduction XOR. -/
  | redXor (g : Guard) (ord : Bool) (z : Bool) (a : Src) (b : Src)
  /-- RED_MIN (R183): Posted reduction signed minimum. -/
  | redMin (g : Guard) (ord : Bool) (z : Bool) (a : Src) (b : Src)
  /-- RED_MAX (R183): Posted reduction signed maximum. -/
  | redMax (g : Guard) (ord : Bool) (z : Bool) (a : Src) (b : Src)
  /-- RED_MINN (R183): Posted reduction unsigned minimum. -/
  | redMinn (g : Guard) (ord : Bool) (z : Bool) (a : Src) (b : Src)
  /-- RED_MAXN (R183): Posted reduction unsigned maximum. -/
  | redMaxn (g : Guard) (ord : Bool) (z : Bool) (a : Src) (b : Src)
  /-- RED_FADD (R183): Posted 32-bit F32 reduction add. -/
  | redFadd (g : Guard) (ord : Bool) (a : Src) (b : Src)
  /-- RED_FMAX (R183): Posted 32-bit F32 reduction maximum. -/
  | redFmax (g : Guard) (ord : Bool) (a : Src) (b : Src)
  /-- CADD (R185): Adds to a counter at its home with saturation and sticky poison, optionally a release. -/
  | cadd (g : Guard) (line : BitVec 3) (glob : Bool) (a : Src) (b : Src) (scope : Scope) (rel : Bool)
  /-- CMAX (R185): Raises a counter to a maximum at its home, optionally a release. -/
  | cmax (g : Guard) (line : BitVec 3) (glob : Bool) (a : Src) (b : Src) (scope : Scope) (rel : Bool)
  /-- CWAIT (R186): Waits until a counter reaches a target, parking or spinning, optionally an acquire. -/
  | cwait (g : Guard) (d : SReg) (a : Src) (b : Src) (scope : Scope) (acq : Bool) (np : Bool)
  /-- CRD (R187): Reads a counter at its home, optionally an acquire. -/
  | crd (g : Guard) (d : SReg) (a : Src) (scope : Scope) (acq : Bool)
  /-- FENCE (R196): Orders the strand's memory operations at a scope by kind. -/
  | fence (g : Guard) (kind : FenceKind) (scope : Scope)
  /-- QFENCE (R197): Makes later entries of the named queues wait for earlier ones. -/
  | qfence (g : Guard) (mask : BitVec 6)
  /-- BIND (R193): Binds a region to a counter in the binding table. -/
  | bind (g : Guard) (d : SReg) (a : Src) (b : Src)
  /-- UNBIND (R194): Removes bindings of a counter. -/
  | unbind (g : Guard) (d : SReg) (a : Src) (b : Src)
  /-- JOIN (R247): Joins the strand to a train. -/
  | join (g : Guard) (d : SReg) (a : Src)
  /-- LEAVE (R247): Removes the strand from a train. -/
  | leave (g : Guard) (d : SReg) (a : Src)
  /-- LAUNCH (R229): Releases earlier writes and sends a launch packet to this package or a peer. -/
  | launch (g : Guard) (d : SReg) (a : Src) (b : Src)
  /-- TRNINFO (R247): Returns train membership information. -/
  | trninfo (g : Guard) (d : SReg) (a : Src)
  /-- VADD (R203): Vector wrapping add. -/
  | vadd (k : MReg) (u : Bool) (m : Mods) (d : VReg) (a : VSrc) (b : VSrc) (t : ElemT)
  /-- VSUB (R203): Vector wrapping subtract. -/
  | vsub (k : MReg) (u : Bool) (m : Mods) (d : VReg) (a : VSrc) (b : VSrc) (t : ElemT)
  /-- VADDS (R203): Vector signed saturating add. -/
  | vadds (k : MReg) (u : Bool) (m : Mods) (d : VReg) (a : VSrc) (b : VSrc) (t : ElemT)
  /-- VSUBS (R203): Vector signed saturating subtract. -/
  | vsubs (k : MReg) (u : Bool) (m : Mods) (d : VReg) (a : VSrc) (b : VSrc) (t : ElemT)
  /-- VADDSN (R203): Vector unsigned saturating add. -/
  | vaddsn (k : MReg) (u : Bool) (m : Mods) (d : VReg) (a : VSrc) (b : VSrc) (t : ElemT)
  /-- VSUBSN (R203): Vector unsigned saturating subtract. -/
  | vsubsn (k : MReg) (u : Bool) (m : Mods) (d : VReg) (a : VSrc) (b : VSrc) (t : ElemT)
  /-- VMUL (R203): Vector low product. -/
  | vmul (k : MReg) (u : Bool) (m : Mods) (d : VReg) (a : VSrc) (b : VSrc) (t : ElemT)
  /-- VMULH (R203): Vector signed high product. -/
  | vmulh (k : MReg) (u : Bool) (m : Mods) (d : VReg) (a : VSrc) (b : VSrc) (t : ElemT)
  /-- VMULHN (R203): Vector unsigned high product. -/
  | vmulhn (k : MReg) (u : Bool) (m : Mods) (d : VReg) (a : VSrc) (b : VSrc) (t : ElemT)
  /-- VMIN (R203): Vector signed minimum. -/
  | vmin (k : MReg) (u : Bool) (m : Mods) (d : VReg) (a : VSrc) (b : VSrc) (t : ElemT)
  /-- VMAX (R203): Vector signed maximum. -/
  | vmax (k : MReg) (u : Bool) (m : Mods) (d : VReg) (a : VSrc) (b : VSrc) (t : ElemT)
  /-- VMINN (R203): Vector unsigned minimum. -/
  | vminn (k : MReg) (u : Bool) (m : Mods) (d : VReg) (a : VSrc) (b : VSrc) (t : ElemT)
  /-- VMAXN (R203): Vector unsigned maximum. -/
  | vmaxn (k : MReg) (u : Bool) (m : Mods) (d : VReg) (a : VSrc) (b : VSrc) (t : ElemT)
  /-- VABS (R203): Vector signed absolute value. -/
  | vabs (k : MReg) (u : Bool) (m : Mods) (d : VReg) (a : VSrc) (t : ElemT)
  /-- VNEG (R203): Vector negate. -/
  | vneg (k : MReg) (u : Bool) (m : Mods) (d : VReg) (a : VSrc) (t : ElemT)
  /-- VAVGN (R203): Vector unsigned rounding average. -/
  | vavgn (k : MReg) (u : Bool) (m : Mods) (d : VReg) (a : VSrc) (b : VSrc) (t : ElemT)
  /-- VAND (R204): Vector AND. -/
  | vand (k : MReg) (u : Bool) (m : Mods) (d : VReg) (a : VSrc) (b : VSrc) (t : ElemT)
  /-- VOR (R204): Vector OR. -/
  | vor (k : MReg) (u : Bool) (m : Mods) (d : VReg) (a : VSrc) (b : VSrc) (t : ElemT)
  /-- VXOR (R204): Vector XOR. -/
  | vxor (k : MReg) (u : Bool) (m : Mods) (d : VReg) (a : VSrc) (b : VSrc) (t : ElemT)
  /-- VANDN (R204): Vector AND NOT. -/
  | vandn (k : MReg) (u : Bool) (m : Mods) (d : VReg) (a : VSrc) (b : VSrc) (t : ElemT)
  /-- VNOT (R204): Vector NOT. -/
  | vnot (k : MReg) (u : Bool) (m : Mods) (d : VReg) (a : VSrc) (t : ElemT)
  /-- VSHL (R204): Vector shift left. -/
  | vshl (k : MReg) (u : Bool) (m : Mods) (d : VReg) (a : VSrc) (b : VSrc) (t : ElemT)
  /-- VSHR (R204): Vector logical shift right. -/
  | vshr (k : MReg) (u : Bool) (m : Mods) (d : VReg) (a : VSrc) (b : VSrc) (t : ElemT)
  /-- VSAR (R204): Vector arithmetic shift right. -/
  | vsar (k : MReg) (u : Bool) (m : Mods) (d : VReg) (a : VSrc) (b : VSrc) (t : ElemT)
  /-- VROL (R204): Vector rotate left. -/
  | vrol (k : MReg) (u : Bool) (m : Mods) (d : VReg) (a : VSrc) (b : VSrc) (t : ElemT)
  /-- VBFXS (R204): Vector signed bit-field extract. -/
  | vbfxs (k : MReg) (u : Bool) (m : Mods) (d : VReg) (a : VSrc) (b : VSrc) (t : ElemT)
  /-- VBFXN (R204): Vector unsigned bit-field extract. -/
  | vbfxn (k : MReg) (u : Bool) (m : Mods) (d : VReg) (a : VSrc) (b : VSrc) (t : ElemT)
  /-- VBFI (R204): Vector bit-field insert. -/
  | vbfi (k : MReg) (u : Bool) (m : Mods) (d : VReg) (a : VSrc) (b : VSrc) (t : ElemT)
  /-- VPOPC (R204): Vector population count. -/
  | vpopc (k : MReg) (u : Bool) (m : Mods) (d : VReg) (a : VSrc) (t : ElemT)
  /-- VCLZ (R204): Vector leading-zero count. -/
  | vclz (k : MReg) (u : Bool) (m : Mods) (d : VReg) (a : VSrc) (t : ElemT)
  /-- VFADD (R206): Vector floating add. -/
  | vfadd (k : MReg) (u : Bool) (m : Mods) (d : VReg) (a : VSrc) (b : VSrc) (t : ElemT)
  /-- VFSUB (R206): Vector floating subtract. -/
  | vfsub (k : MReg) (u : Bool) (m : Mods) (d : VReg) (a : VSrc) (b : VSrc) (t : ElemT)
  /-- VFMUL (R206): Vector floating multiply. -/
  | vfmul (k : MReg) (u : Bool) (m : Mods) (d : VReg) (a : VSrc) (b : VSrc) (t : ElemT)
  /-- VFFMA (R206): Vector fused multiply-add into vd. -/
  | vffma (k : MReg) (u : Bool) (m : Mods) (d : VReg) (a : VSrc) (b : VSrc) (t : ElemT)
  /-- VFMIN (R206): Vector floating minimum. -/
  | vfmin (k : MReg) (u : Bool) (m : Mods) (d : VReg) (a : VSrc) (b : VSrc) (t : ElemT)
  /-- VFMAX (R206): Vector floating maximum. -/
  | vfmax (k : MReg) (u : Bool) (m : Mods) (d : VReg) (a : VSrc) (b : VSrc) (t : ElemT)
  /-- VFABS (R206): Vector floating absolute value. -/
  | vfabs (k : MReg) (u : Bool) (m : Mods) (d : VReg) (a : VSrc) (t : ElemT)
  /-- VFNEG (R206): Vector floating negate. -/
  | vfneg (k : MReg) (u : Bool) (m : Mods) (d : VReg) (a : VSrc) (t : ElemT)
  /-- VFCPSGN (R206): Vector copy-sign. -/
  | vfcpsgn (k : MReg) (u : Bool) (m : Mods) (d : VReg) (a : VSrc) (b : VSrc) (t : ElemT)
  /-- VFMAXABS (R206): Vector maximum magnitude, propagating NaN. -/
  | vfmaxabs (k : MReg) (u : Bool) (m : Mods) (d : VReg) (a : VSrc) (b : VSrc) (t : ElemT)
  /-- VEXP2 (R207): Vector 2^a. -/
  | vexp2 (k : MReg) (u : Bool) (m : Mods) (d : VReg) (a : VSrc) (t : ElemT)
  /-- VLOG2 (R207): Vector log2. -/
  | vlog2 (k : MReg) (u : Bool) (m : Mods) (d : VReg) (a : VSrc) (t : ElemT)
  /-- VRCP (R207): Vector reciprocal. -/
  | vrcp (k : MReg) (u : Bool) (m : Mods) (d : VReg) (a : VSrc) (t : ElemT)
  /-- VRSQ (R207): Vector reciprocal square root. -/
  | vrsq (k : MReg) (u : Bool) (m : Mods) (d : VReg) (a : VSrc) (t : ElemT)
  /-- VSQRT (R207): Vector square root. -/
  | vsqrt (k : MReg) (u : Bool) (m : Mods) (d : VReg) (a : VSrc) (t : ElemT)
  /-- VTANH (R207): Vector tanh. -/
  | vtanh (k : MReg) (u : Bool) (m : Mods) (d : VReg) (a : VSrc) (t : ElemT)
  /-- VSIGM (R207): Vector sigmoid. -/
  | vsigm (k : MReg) (u : Bool) (m : Mods) (d : VReg) (a : VSrc) (t : ElemT)
  /-- VCMPEQ (R208): Vector integer equality compare into a mask. -/
  | vcmpeq (k : MReg) (u : Bool) (tv : Bool) (n : MReg) (c : BitVec 2) (a : VSrc) (b : VSrc) (t : ElemT)
  /-- VCMPNE (R208): Vector integer inequality compare. -/
  | vcmpne (k : MReg) (u : Bool) (tv : Bool) (n : MReg) (c : BitVec 2) (a : VSrc) (b : VSrc) (t : ElemT)
  /-- VCMPLT (R208): Vector signed less-than compare. -/
  | vcmplt (k : MReg) (u : Bool) (tv : Bool) (n : MReg) (c : BitVec 2) (a : VSrc) (b : VSrc) (t : ElemT)
  /-- VCMPLE (R208): Vector signed less-or-equal compare. -/
  | vcmple (k : MReg) (u : Bool) (tv : Bool) (n : MReg) (c : BitVec 2) (a : VSrc) (b : VSrc) (t : ElemT)
  /-- VCMPLTN (R208): Vector unsigned less-than compare. -/
  | vcmpltn (k : MReg) (u : Bool) (tv : Bool) (n : MReg) (c : BitVec 2) (a : VSrc) (b : VSrc) (t : ElemT)
  /-- VCMPLEN (R208): Vector unsigned less-or-equal compare. -/
  | vcmplen (k : MReg) (u : Bool) (tv : Bool) (n : MReg) (c : BitVec 2) (a : VSrc) (b : VSrc) (t : ElemT)
  /-- VFCMPEQ (R208): Vector floating equality compare. -/
  | vfcmpeq (k : MReg) (u : Bool) (tv : Bool) (n : MReg) (c : BitVec 2) (a : VSrc) (b : VSrc) (t : ElemT)
  /-- VFCMPLT (R208): Vector floating less-than compare. -/
  | vfcmplt (k : MReg) (u : Bool) (tv : Bool) (n : MReg) (c : BitVec 2) (a : VSrc) (b : VSrc) (t : ElemT)
  /-- VFCMPLE (R208): Vector floating less-or-equal compare. -/
  | vfcmple (k : MReg) (u : Bool) (tv : Bool) (n : MReg) (c : BitVec 2) (a : VSrc) (b : VSrc) (t : ElemT)
  /-- VFCMPUN (R208): Vector floating unordered compare. -/
  | vfcmpun (k : MReg) (u : Bool) (tv : Bool) (n : MReg) (c : BitVec 2) (a : VSrc) (b : VSrc) (t : ElemT)
  /-- MAND (R209): Mask AND. -/
  | mand (u : Bool) (tv : Bool) (d : MReg) (a : MReg) (b : MReg)
  /-- MOR (R209): Mask OR. -/
  | mor (u : Bool) (tv : Bool) (d : MReg) (a : MReg) (b : MReg)
  /-- MXOR (R209): Mask XOR. -/
  | mxor (u : Bool) (tv : Bool) (d : MReg) (a : MReg) (b : MReg)
  /-- MANDN (R209): Mask AND NOT. -/
  | mandn (u : Bool) (tv : Bool) (d : MReg) (a : MReg) (b : MReg)
  /-- MNOT (R209): Mask NOT. -/
  | mnot (u : Bool) (tv : Bool) (d : MReg) (a : MReg)
  /-- MPOP (R209): Counts active elements of a mask into a scalar. -/
  | mpop (k : MReg) (u : Bool) (tv : Bool) (d : BitVec 5) (a : MReg) (t : ElemT)
  /-- MFIRST (R209): Finds the lowest active element of a mask. -/
  | mfirst (k : MReg) (u : Bool) (tv : Bool) (d : BitVec 5) (a : MReg) (t : ElemT)
  /-- MFROMS (R209): Builds a mask from scalar bits. -/
  | mfroms (u : Bool) (tv : Bool) (d : MReg) (a : VSrc) (t : ElemT)
  /-- MLANES (R209): Builds a mask of the first s(va) elements. -/
  | mlanes (u : Bool) (tv : Bool) (d : MReg) (a : VSrc) (t : ElemT)
  /-- VPERM (R210): Vector permute by an index vector. -/
  | vperm (k : MReg) (u : Bool) (m : Mods) (d : VReg) (a : VSrc) (b : VSrc) (t : ElemT)
  /-- VBCAST (R210): Broadcasts one element chosen by a scalar. -/
  | vbcast (k : MReg) (u : Bool) (m : Mods) (d : VReg) (a : VSrc) (b : VSrc) (t : ElemT)
  /-- VEXT (R210): Extracts one element into a scalar. -/
  | vext (u : Bool) (tv : Bool) (d : BitVec 5) (a : VSrc) (b : VSrc) (t : ElemT)
  /-- VINS (R210): Inserts a scalar into one element. -/
  | vins (k : MReg) (u : Bool) (m : Mods) (d : VReg) (a : VSrc) (b : VSrc) (t : ElemT)
  /-- VCOMPRESS (R210): Packs active elements and writes their count. -/
  | vcompress (k : MReg) (u : Bool) (m : Mods) (d : VReg) (a : VSrc) (b : BitVec 5) (t : ElemT)
  /-- VEXPAND (R210): Spreads leading elements into active positions. -/
  | vexpand (k : MReg) (u : Bool) (m : Mods) (d : VReg) (a : VSrc) (t : ElemT)
  /-- VSLIDEUP (R210): Slides elements up by a scalar count. -/
  | vslideup (k : MReg) (u : Bool) (m : Mods) (d : VReg) (a : VSrc) (b : VSrc) (t : ElemT)
  /-- VSLIDEDN (R210): Slides elements down by a scalar count. -/
  | vslidedn (k : MReg) (u : Bool) (m : Mods) (d : VReg) (a : VSrc) (b : VSrc) (t : ElemT)
  /-- VZIPL (R210): Interleaves the low halves. -/
  | vzipl (k : MReg) (u : Bool) (m : Mods) (d : VReg) (a : VSrc) (b : VSrc) (t : ElemT)
  /-- VZIPH (R210): Interleaves the high halves. -/
  | vziph (k : MReg) (u : Bool) (m : Mods) (d : VReg) (a : VSrc) (b : VSrc) (t : ElemT)
  /-- VUNZIPE (R210): De-interleaves even elements. -/
  | vunzipe (k : MReg) (u : Bool) (m : Mods) (d : VReg) (a : VSrc) (b : VSrc) (t : ElemT)
  /-- VUNZIPO (R210): De-interleaves odd elements. -/
  | vunzipo (k : MReg) (u : Bool) (m : Mods) (d : VReg) (a : VSrc) (b : VSrc) (t : ElemT)
  /-- VIOTA (R210): Writes the count of active elements below each element. -/
  | viota (k : MReg) (u : Bool) (m : Mods) (d : VReg) (t : ElemT)
  /-- VREV (R210): Reverses element order. -/
  | vrev (k : MReg) (u : Bool) (m : Mods) (d : VReg) (a : VSrc) (t : ElemT)
  /-- VREDADD (R211): Integer tree reduction add. -/
  | vredadd (k : MReg) (u : Bool) (m : Mods) (d : VReg) (a : VSrc) (t : ElemT)
  /-- VREDMIN (R211): Signed minimum reduction. -/
  | vredmin (k : MReg) (u : Bool) (m : Mods) (d : VReg) (a : VSrc) (t : ElemT)
  /-- VREDMAX (R211): Signed maximum reduction. -/
  | vredmax (k : MReg) (u : Bool) (m : Mods) (d : VReg) (a : VSrc) (t : ElemT)
  /-- VREDMINN (R211): Unsigned minimum reduction. -/
  | vredminn (k : MReg) (u : Bool) (m : Mods) (d : VReg) (a : VSrc) (t : ElemT)
  /-- VREDMAXN (R211): Unsigned maximum reduction. -/
  | vredmaxn (k : MReg) (u : Bool) (m : Mods) (d : VReg) (a : VSrc) (t : ElemT)
  /-- VFREDADD (R211): Floating tree reduction add. -/
  | vfredadd (k : MReg) (u : Bool) (m : Mods) (d : VReg) (a : VSrc) (t : ElemT)
  /-- VFREDMIN (R211): Floating minimum reduction. -/
  | vfredmin (k : MReg) (u : Bool) (m : Mods) (d : VReg) (a : VSrc) (t : ElemT)
  /-- VFREDMAX (R211): Floating maximum reduction. -/
  | vfredmax (k : MReg) (u : Bool) (m : Mods) (d : VReg) (a : VSrc) (t : ElemT)
  /-- VCVT (R213): Converts elements between types by SEQ_FRM rounding. -/
  | vcvt (k : MReg) (u : Bool) (m : Mods) (d : VReg) (a : VSrc) (p : BitVec 2) (t : ElemT) (e : ElemT)
  /-- VCVTSR (R213): Converts elements with stochastic rounding. -/
  | vcvtsr (k : MReg) (u : Bool) (m : Mods) (d : VReg) (a : VSrc) (p : BitVec 2) (t : ElemT) (e : ElemT)
  /-- VQMX8 (R214): Quantises two F32 blocks to MX8 with scales to a scalar. -/
  | vqmx8 (k : MReg) (u : Bool) (m : Mods) (d : VReg) (a : VSrc) (b : BitVec 5)
  /-- VQMX6 (R214): Quantises two blocks to MX6. -/
  | vqmx6 (k : MReg) (u : Bool) (m : Mods) (d : VReg) (a : VSrc) (b : BitVec 5)
  /-- VQMX4 (R214): Quantises two blocks to MX4. -/
  | vqmx4 (k : MReg) (u : Bool) (m : Mods) (d : VReg) (a : VSrc) (b : BitVec 5)
  /-- VDQMX8 (R215): Dequantises MX8 elements to F32. -/
  | vdqmx8 (k : MReg) (u : Bool) (m : Mods) (d : VReg) (a : VSrc) (b : VSrc)
  /-- VDQMX6 (R215): Dequantises MX6 elements to F32. -/
  | vdqmx6 (k : MReg) (u : Bool) (m : Mods) (d : VReg) (a : VSrc) (b : VSrc)
  /-- VDQMX4 (R215): Dequantises MX4 elements to F32. -/
  | vdqmx4 (k : MReg) (u : Bool) (m : Mods) (d : VReg) (a : VSrc) (b : VSrc)
  /-- VQMX8SR (R214): Quantises to MX8 with stochastic rounding. -/
  | vqmx8sr (k : MReg) (u : Bool) (m : Mods) (d : VReg) (a : VSrc) (b : BitVec 5)
  /-- VQMX6SR (R214): Quantises to MX6 with stochastic rounding. -/
  | vqmx6sr (k : MReg) (u : Bool) (m : Mods) (d : VReg) (a : VSrc) (b : BitVec 5)
  /-- VQMX4SR (R214): Quantises to MX4 with stochastic rounding. -/
  | vqmx4sr (k : MReg) (u : Bool) (m : Mods) (d : VReg) (a : VSrc) (b : BitVec 5)
  /-- VLD (R217): Contiguous 256-byte vector load. -/
  | vld (k : MReg) (port : Bool) (d : VReg) (base : Src)
  /-- VLD_STRIDED (R217): Strided 32-bit vector load. -/
  | vldStrided (k : MReg) (port : Bool) (d : VReg) (base : Src) (stride : Src)
  /-- VLD_GATHER (R217): Gather of 32-bit elements by byte offsets. -/
  | vldGather (k : MReg) (port : Bool) (d : VReg) (base : Src) (idx : VSrc)
  /-- VLD_STRIDED16 (R217): Strided 16-bit vector load. -/
  | vldStrided16 (k : MReg) (port : Bool) (d : VReg) (base : Src) (stride : Src)
  /-- VST (R217): Contiguous vector store on a line. -/
  | vst (k : MReg) (glob : Bool) (d : VReg) (base : Src) (line : BitVec 3)
  /-- VST_STRIDED (R217): Strided 32-bit vector store. -/
  | vstStrided (k : MReg) (glob : Bool) (d : VReg) (base : Src) (stride : Src) (line : BitVec 3)
  /-- VST_SCATTER (R217): Scatter of 32-bit elements by byte offsets. -/
  | vstScatter (k : MReg) (glob : Bool) (d : VReg) (base : Src) (idx : VSrc) (line : BitVec 3)
  /-- VST_STRIDED16 (R217): Strided 16-bit vector store. -/
  | vstStrided16 (k : MReg) (glob : Bool) (d : VReg) (base : Src) (stride : Src) (line : BitVec 3)
  /-- VMOV (R212): Vector move. -/
  | vmov (k : MReg) (u : Bool) (m : Mods) (d : VReg) (a : VSrc) (t : ElemT)
  /-- VSEL (R212): Selects a or b per element by the mask. -/
  | vsel (k : MReg) (u : Bool) (m : Mods) (d : VReg) (a : VSrc) (b : VSrc) (t : ElemT)
  /-- VSPLATI (R212): Splats a signed immediate. -/
  | vsplati (k : MReg) (u : Bool) (m : Mods) (d : VReg) (imm : BitVec 17) (t : ElemT)
  /-- VNOISE (R212): Fills elements with per-lane noise. -/
  | vnoise (k : MReg) (u : Bool) (m : Mods) (d : VReg) (t : ElemT)
  /-- VDOT4 (R216): Signed 4-way byte dot product accumulate. -/
  | vdot4 (k : MReg) (u : Bool) (m : Mods) (d : VReg) (a : VSrc) (b : VSrc)
  /-- VDOT4N (R216): Unsigned 4-way byte dot product accumulate. -/
  | vdot4n (k : MReg) (u : Bool) (m : Mods) (d : VReg) (a : VSrc) (b : VSrc)
  /-- VDOT2 (R216): BF16 pair dot product into F32. -/
  | vdot2 (k : MReg) (u : Bool) (m : Mods) (d : VReg) (a : VSrc) (b : VSrc)
  /-- VDOT2H (R216): F16 pair dot product into F32. -/
  | vdot2h (k : MReg) (u : Bool) (m : Mods) (d : VReg) (a : VSrc) (b : VSrc)
  /-- CMMA (R290): Enqueues a matrix multiply-accumulate over the masked layers. -/
  | cmma (g : Guard) (a : SReg) (b : SReg) (hb : Bool) (ha : Bool) (z : Bool)
  /-- CMMA_MSK (R290): Enqueues a matrix multiply-accumulate with row, column and depth masks. -/
  | cmmaMsk (g : Guard) (a : SReg) (b : SReg) (c : SReg) (hb : Bool) (ha : Bool) (z : Bool)
  /-- CROT_H32 (R297): Enqueues an in-place 32-point Hadamard rotation of a tile. -/
  | crotH32 (g : Guard) (a : SReg)
  /-- CROT_H64 (R297): Enqueues an in-place 64-point Hadamard rotation of a tile. -/
  | crotH64 (g : Guard) (a : SReg)
  /-- CDRAIN (R314): Enqueues a drain of an accumulator-store tile through a recipe. -/
  | cdrain (g : Guard) (a : SReg) (b : SReg) (c : SReg)
  /-- CDRAIN_P (R314): Enqueues a drain of a plane-accumulator tile. -/
  | cdrainP (g : Guard) (a : SReg) (b : SReg) (c : SReg)
  /-- CACC_ZERO (R299): Enqueues zeroing of the live elements of a tile. -/
  | caccZero (g : Guard) (a : SReg) (c : SReg)
  /-- CACC_LD (R299): Enqueues a load of tile elements from memory. -/
  | caccLd (g : Guard) (a : SReg) (b : SReg) (c : SReg)
  /-- CACC_ST (R299): Enqueues a store of tile elements to memory. -/
  | caccSt (g : Guard) (a : SReg) (b : SReg) (c : SReg)
  /-- CACC_MOVE (R299): Enqueues a tile-to-tile move. -/
  | caccMove (g : Guard) (a : SReg) (b : SReg) (c : SReg)
  /-- CSPL_DEF (R300): Defines a spool descriptor and zeroes its indices. -/
  | csplDef (g : Guard) (a : SReg) (b : SReg) (c : SReg)
  /-- CSPL_ADVP (R301): Advances a spool's producer index as a core producer. -/
  | csplAdvp (g : Guard) (a : SReg) (b : SReg)
  /-- CSPL_ADVC (R301): Advances a spool's consumer index as a core consumer. -/
  | csplAdvc (g : Guard) (a : SReg) (b : SReg)
  /-- CSPL_RDP (R300): Reads a spool's P and C indices. -/
  | csplRdp (g : Guard) (a : SReg) (b : SReg)
  /-- CSPL_RESET (R300): Resets a spool's indices to zero. -/
  | csplReset (g : Guard) (a : SReg)
  /-- CPAL_SET (R302): Writes a bank palette. -/
  | cpalSet (g : Guard) (a : SReg) (b : SReg)
  /-- CPAL_GET (R302): Reads a bank palette. -/
  | cpalGet (g : Guard) (a : SReg) (b : SReg)
  /-- CSYNC_JOIN (R303): Places a join point across plane queues with an optional completion add. -/
  | csyncJoin (g : Guard) (a : SReg) (b : SReg) (c : SReg)
  /-- CSYNC_STAT (R304): Reads join skew, plane busy bits and duty steps. -/
  | csyncStat (g : Guard) (a : SReg)
  /-- CSYNC_SKEW (R305): Requests a CUB_SKEW write once the cube queue drains. -/
  | csyncSkew (g : Guard) (a : SReg)
  /-- CRCP_DEF (R319): Writes a drain recipe table entry. -/
  | crcpDef (g : Guard) (a : SReg) (b : SReg) (c : SReg)
  /-- CRCP_GET (R319): Reads one dword of a recipe entry. -/
  | crcpGet (g : Guard) (a : SReg) (b : SReg)
  /-- CPY_LIN (R264): Enqueues a linear copy with conversion. -/
  | cpyLin (g : Guard) (a : SReg) (b : SReg) (c : SReg) (q : Bool)
  /-- CPY_TWOD (R264): Enqueues a two-dimensional strided copy. -/
  | cpyTwod (g : Guard) (a : SReg) (b : SReg) (c : SReg) (q : Bool)
  /-- CPY_THREED (R264): Enqueues a three-dimensional copy. -/
  | cpyThreed (g : Guard) (a : SReg) (b : SReg) (c : SReg) (q : Bool)
  /-- CPY_FILL (R265): Enqueues a pattern fill. -/
  | cpyFill (g : Guard) (a : SReg) (b : SReg) (c : SReg) (q : Bool)
  /-- CPY_LSPLIT (R266): Enqueues a split of operand rows into per-layer face entries. -/
  | cpyLsplit (g : Guard) (a : SReg) (b : SReg) (c : SReg) (q : Bool)
  /-- CPY_LGATH (R266): Enqueues a gather of per-layer entries into operand rows. -/
  | cpyLgath (g : Guard) (a : SReg) (b : SReg) (c : SReg) (q : Bool)
  /-- CPY_MCAST (R267): Enqueues a copy written to every train member on a cube set. -/
  | cpyMcast (g : Guard) (a : SReg) (b : SReg) (c : SReg) (q : Bool)
  /-- CPY_PFETCH (R268): Enqueues an edge-cache prefetch. -/
  | cpyPfetch (g : Guard) (a : SReg) (b : SReg) (c : SReg) (q : Bool)
  /-- CGTH_GATHER (R269): Enqueues a gather of rows named by an index list. -/
  | cgthGather (g : Guard) (a : SReg) (b : SReg) (c : SReg) (q : Bool)
  /-- CGTH_SCATTER (R269): Enqueues a scatter of rows to an index list. -/
  | cgthScatter (g : Guard) (a : SReg) (b : SReg) (c : SReg) (q : Bool)
  /-- CGTH_GATHERADD (R269): Enqueues a gather summed into one F32 row. -/
  | cgthGatheradd (g : Guard) (a : SReg) (b : SReg) (c : SReg) (q : Bool)
  /-- CRED_ADDF32 (R270): Enqueues an element-wise F32 reduction add. -/
  | credAddf32 (g : Guard) (a : SReg) (b : SReg) (c : SReg) (q : Bool)
  /-- CRED_ADDBF16 (R270): Enqueues an element-wise BF16 reduction add. -/
  | credAddbf16 (g : Guard) (a : SReg) (b : SReg) (c : SReg) (q : Bool)
  /-- CRED_MAXF32 (R270): Enqueues an element-wise F32 reduction maximum. -/
  | credMaxf32 (g : Guard) (a : SReg) (b : SReg) (c : SReg) (q : Bool)
  /-- CRED_ADDI32 (R270): Enqueues an element-wise wrapping I32 reduction add. -/
  | credAddi32 (g : Guard) (a : SReg) (b : SReg) (c : SReg) (q : Bool)
  /-- BLK_ALLOC (R347): Enqueues allocation of blocks for consecutive keys. -/
  | blkAlloc (g : Guard) (a : SReg) (b : SReg) (c : SReg)
  /-- BLK_FREE (R347): Enqueues removal of keys and release of their blocks. -/
  | blkFree (g : Guard) (a : SReg) (b : SReg) (c : SReg)
  /-- BLK_SHARE (R347): Enqueues mapping of a sequence's blocks into another sequence. -/
  | blkShare (g : Guard) (a : SReg) (b : SReg) (c : SReg)
  /-- BLK_XLATE (R348): Enqueues a lookup writing a block record. -/
  | blkXlate (g : Guard) (a : SReg) (b : SReg) (c : SReg)
  /-- BLK_FETCH (R350): Enqueues a fetch of block rows into scratch or an operand entry. -/
  | blkFetch (g : Guard) (a : SReg) (b : SReg) (c : SReg)
  /-- BLK_APPEND (R349): Enqueues appending rows to a sequence tail, copying a shared tail. -/
  | blkAppend (g : Guard) (a : SReg) (b : SReg) (c : SReg)
  /-- BLK_STAT (R348): Enqueues a read of store statistics. -/
  | blkStat (g : Guard) (a : SReg) (b : SReg) (c : SReg)
  /-- EMPTY_BUNDLE (R138): The sequencer issues an empty bundle in place of a held interlocked bundle. -/
  | emptyBundle (c : CubeId)
  /-- EXPOSED_RESULT_LANDS (R136): An exposed-latency result or replay entry becomes visible at its landing bundle. -/
  | exposedResultLands (c : CubeId) (k : Nat) (vote : BitVec 2)
  /-- INTERLOCKED_RESULT_ARRIVES (R138): Data of an interlocked load, atomic or divide arrives and releases stalled bundles. -/
  | interlockedResultArrives (r : Nat) (vote : BitVec 2)
  /-- ICACHE_MISS_FILL (R135): An instruction cache line arrives and ends the fetch stall. -/
  | icacheMissFill (c : CubeId)
  /-- NOISE_WORD_APPEND (R74): The strand's generator appends one word to its noise queue while it holds the core. -/
  | noiseWordAppend (c : CubeId)
  /-- TRAP_ENTRY (R146): A trap saves the context, writes the trap record and starts the receiving handler. -/
  | trapEntry (c : CubeId)
  /-- WATCHDOG (R150): The stall count of one bundle reaches its limit and the context traps. -/
  | watchdog (c : CubeId)
  /-- PREEMPTION (R151): The cube scheduler pre-empts a task context at a bundle boundary and switches it out. -/
  | preemption (c : CubeId)
  /-- SWITCH_IN (R152): A shelf switch completes and the context resumes with its image and replay entries. -/
  | switchIn (c : CubeId)
  /-- QUANTUM_EXPIRY (R239): The running strand's quantum expires and a same-priority strand takes the core. -/
  | quantumExpiry (c : CubeId)
  /-- NOISE_SEEDA_WRITE (R75): A write sets generator state A and flushes the noise queue. -/
  | noiseSeedaWrite (c : CubeId) (v : Word)
  /-- NOISE_SEEDB_WRITE (R75): A write sets generator state B and flushes the noise queue. -/
  | noiseSeedbWrite (c : CubeId) (v : Word)
  /-- NOISE_MODE_WRITE (R75): A write selects deterministic or entropy noise and flushes the queue. -/
  | noiseModeWrite (c : CubeId) (v : Word)
  /-- SEQ_LINES_REPAIR (R120): Writing one to a BROKEN bit repairs the line and restarts its numbering. -/
  | seqLinesRepair (c : CubeId) (v : Word)
  /-- SCH_END_WRITE (R251): A write ends a trapped strand with an error. -/
  | schEndWrite (c : CubeId) (v : Word)
  /-- SHELF_WINDOW_WRITE (R92): A write through a shelf window is applied to the saved image or refused. -/
  | shelfWindowWrite (c : CubeId) (shelf : ShelfId) (off : Nat) (size : Nat) (v : Word)
  /-- SYSREG_WINDOW_WRITE (R93): A write to a system register without a row of its own, through syswr, the engine window or BAR2. -/
  | sysregWindowWrite (c : CubeId) (n : BitVec 12) (v : Word) (secure : Bool)
  /-- FAB_MIGREQ_READ (R102): A read pops the oldest migration request. -/
  | fabMigreqRead (c : CubeId)
  /-- HOME_WRITE_ARRIVES (R117): A write item reaches its home and is performed or held behind earlier line items. -/
  | homeWriteArrives (id : Nat)
  /-- LINE_ITEM_COMMIT (R117): A held line item commits at its home once every earlier item has committed. -/
  | lineItemCommit (id : Nat)
  /-- HOME_READ (R109): A read request is served by its home or edge cache, registering a watch for a parking cwait. -/
  | homeRead (r : ReadServe)
  /-- HOME_ATOMIC (R181): An atomic or reduction is performed at its home as one step. -/
  | homeAtomic (id : Nat)
  /-- HOME_COUNTER_OP (R185): A counter add or max is performed at the counter's home and notifies watchers. -/
  | homeCounterOp (id : Nat)
  /-- SHARER_UPDATE (R101): An .e update from the home reaches a sharer edge cache. -/
  | sharerUpdate (k : Nat)
  /-- SHARER_INVALIDATE (R101): An invalidation reaches a sharer edge cache. -/
  | sharerInvalidate (k : Nat)
  /-- WRITE_ACK_ARRIVES (R108): A completion acknowledgement reaches the writer, completing the write. -/
  | writeAckArrives (id : Nat)
  /-- RELEASE_SEND (R112): A release is sent once the writes it covers are completed to its scope. -/
  | releaseSend (id : Nat)
  /-- ACK_TIMEOUT_EXPIRY (R124): An access's acknowledgement timer expires and the failure is delivered. -/
  | ackTimeoutExpiry (acc : LostAccess)
  /-- CWAIT_READ_RETURN (R186): A cwait's counter read returns and the bundle commits or the strand parks or spins. -/
  | cwaitReadReturn (c : CubeId)
  /-- MONITOR_NOTIFY (R190): A watched counter's new value reaches a cube and met monitors wake their strands. -/
  | monitorNotify (c : CubeId) (addr : Nat)
  /-- MONITOR_POLL (R190): A polling monitor reads its counter every microsecond. -/
  | monitorPoll (c : CubeId) (shelf : ShelfId)
  /-- CWAIT_SPIN_REREAD (R189): A spinning cwait re-reads its counter every 64 cycles. -/
  | cwaitSpinReread (c : CubeId)
  /-- WALK_START (R104): The walker pool starts a walk for a queued miss, round-robin. -/
  | walkStart (k : Nat)
  /-- WALK_COMPLETE (R97): A page walk finishes with a translation or a fault. -/
  | walkComplete (k : Nat) (bad : Bool)
  /-- TLBI_COMPLETE (R105): A tlbi completes once all TLBs dropped entries and old translations are unused. -/
  | tlbiComplete (id : Nat)
  /-- LAUNCH_PACKET_ARRIVAL (R223): A 64-byte launch packet reaches the atelier and takes a slot or is refused. -/
  | launchPacketArrival (bridge : Bool) (pkt : BitVec 512)
  /-- PEER_LAUNCH_PACKET (R366): A peer's launch packet is checked against its peer entry and given LASN. -/
  | peerLaunchPacket (path : PeerPath) (pkt : BitVec 512)
  /-- IMAGE_HEADER_READ (R224): The atelier's read of a launch's image header returns and is accepted or refused. -/
  | imageHeaderRead (slot : BitVec 8)
  /-- BATCH_HANDOFF (R232): The atelier hands a batch of tasks to an eligible cube. -/
  | batchHandoff (slot : BitVec 8) (c : CubeId)
  /-- SCH_PART_WRITE (R230): A partition register write changes membership or closes a partition. -/
  | schPartWrite (part : BitVec 3) (v : Word)
  /-- TASK_ADMISSION (R234): A cube scheduler admits a queued task, allocating its partition and prefetch copy. -/
  | taskAdmission (c : CubeId)
  /-- TASK_START (R234): The prefetch lands and the shelf image is installed; the task becomes a ready strand. -/
  | taskStart (c : CubeId) (shelf : ShelfId)
  /-- EVICTION_START (R241): A strand is chosen for eviction and pre-empted while its commands drain. -/
  | evictionStart (c : CubeId) (shelf : ShelfId)
  /-- EVICTION_COMPLETE (R241): The save record is written and the shelf and partition are freed. -/
  | evictionComplete (c : CubeId) (shelf : ShelfId)
  /-- READMISSION (R244): An evicted strand is restored on a cube and becomes ready. -/
  | readmission (k : Nat) (c : CubeId)
  /-- MIGRATION (R245): A strand is evicted for re-admission on another cube. -/
  | migration (c : CubeId) (shelf : ShelfId)
  /-- HALT_COMPLETE (R158): A halting strand's queues and writes finish, its DONE add is made and the shelf freed. -/
  | haltComplete (c : CubeId) (shelf : ShelfId)
  /-- STRAND_END_ERROR (R250): A strand ends with an error: drained, fault record updated, poisoned DONE add. -/
  | strandEndError (c : CubeId) (shelf : ShelfId) (cause : BitVec 8)
  /-- ATELIER_TAKEOVER (R227): Bridge 1 continues the atelier from its copy after bridge 0 fails. -/
  | atelierTakeover
  /-- COPY_CMD_START (R260): A copy-queue entry starts when at its strand's head with spool room. -/
  | copyCmdStart (c : CubeId) (id : Nat)
  /-- SPOOL_ENTRY_LANDED (R23): A spool entry's last byte lands and P advances in order. -/
  | spoolEntryLanded (c : CubeId) (id : Nat)
  /-- COPY_CMD_COMPLETE (R271): A copy command's writes finish or fail and its completion add follows. -/
  | copyCmdComplete (c : CubeId) (id : Nat)
  /-- COMPLETION_ADD_SEND (R271): A command's completion add is sent once its writes are complete to the scope. -/
  | completionAddSend (c : CubeId) (id : Nat)
  /-- CUBE_CMD_START (R292): A cube-queue command fires, reserving operand entries. -/
  | cubeCmdStart (c : CubeId) (id : Nat)
  /-- CUBE_CMD_COMPLETE (R287): A cube command completes, writes its tile and advances spool C. -/
  | cubeCmdComplete (c : CubeId) (id : Nat)
  /-- JOIN_POINT_COMPLETE (R303): Every named layer reaches the join point; skew recorded and add made. -/
  | joinPointComplete (c : CubeId) (id : Nat)
  /-- CUB_SKEW_WRITE (R310): A CUB_SKEW write is held like csync.skew. -/
  | cubSkewWrite (c : CubeId) (v : Word)
  /-- CUB_SKEW_APPLY (R305): The skew value takes effect once the cube queue has drained. -/
  | cubSkewApply (c : CubeId)
  /-- DRAIN_START (R328): A drain starts, reads the tile and compares checksums. -/
  | drainStart (c : CubeId) (id : Nat)
  /-- DRAIN_COMPLETE (R329): A drain finishes writing and makes its completion add. -/
  | drainComplete (c : CubeId) (id : Nat)
  /-- BLK_CMD_PERFORM (R346): A block command is performed at its store in arrival order. -/
  | blkCmdPerform (c : CubeId) (id : Nat)
  /-- BLK_CMD_COMPLETE (R351): A block command's writes finish and its completion add follows. -/
  | blkCmdComplete (c : CubeId) (id : Nat)
  /-- BLK_ENABLE (R339): Setting EN validates the geometry and starts building the store. -/
  | blkEnable (c : CubeId)
  /-- BLK_DISABLE (R339): Clearing EN ends the store; later commands fail. -/
  | blkDisable (c : CubeId)
  /-- BLK_READY (R339): The free list is built and READY rises; waiting commands proceed. -/
  | blkReady (c : CubeId)
  /-- INCOMING_PEER_REQUEST (R358): A request from a peer is discarded, refused or performed. -/
  | incomingPeerRequest (peer : BitVec 10) (kind : Nat) (dpa : Nat) (msg : PeerMsg)
  /-- REDUCTION_PACKET_ARRIVAL (R365): A window reduction packet is merged at the home bridge and applied. -/
  | reductionPacketArrival (peer : BitVec 10) (pid : Word) (addr : Nat) (op : BitVec 4) (count : Nat) (v : Word)
  /-- FLIT_REPLAY (R367): A flit failing its CRC is replayed from the retry buffer. -/
  | flitReplay (port : Fin 71)
  /-- REPLAY_WARNING (R367): Replays in a window reach the warning count. -/
  | replayWarning (port : Fin 71)
  /-- PORT_RETRAIN (R368): A port retrains, sparing or narrowing lanes. -/
  | portRetrain (port : Fin 71) (lanes : Nat) (ok : Bool)
  /-- PORT_DOWN (R368): A port fails after its tries and its pending requests are reissued. -/
  | portDown (port : Fin 71)
  /-- FAB_DEAD_WRITE (R363): Writing one to a set dead-peer bit starts the reset handshake. -/
  | fabDeadWrite (k : BitVec 4) (v : Word)
  /-- RESET_HANDSHAKE_REPLY (R363): The peer's reply clears sequence state and the dead-peer bit. -/
  | resetHandshakeReply (peer : BitVec 10)
  /-- RESET_HANDSHAKE_TIMEOUT (R363): No reply arrives in time and the bit stays set. -/
  | resetHandshakeTimeout (peer : BitVec 10)
  /-- SCRUB_LINE (R372): The scrubber reads the next line of a store and corrects or contains errors. -/
  | scrubLine (c : CubeId) (store : BitVec 3) (outcome : BitVec 2) (bit : Nat)
  /-- CON_CELOG_READ (R375): A read pops the oldest corrected-error record. -/
  | conCelogRead (c : CubeId)
  /-- CON_UELOG_READ (R375): A read pops the oldest uncorrected-error record. -/
  | conUelogRead (c : CubeId)
  /-- CON_INJCTL_WRITE (R376): A write arms, disarms or acknowledges an injected fault. -/
  | conInjctlWrite (c : CubeId) (v : Word)
  /-- CON_INJADDR_WRITE (R376): A write sets the injection line and clears ARM. -/
  | conInjaddrWrite (c : CubeId) (v : Word)
  /-- SELF_TEST_START (R378): A class reaching two failures starts gesso's directed self-test. -/
  | selfTestStart (c : CubeId) (cls : Fin 29)
  /-- SELF_TEST_RESULT (R378): The self-test ends by fencing the class or restarting its count. -/
  | selfTestResult (c : CubeId) (cls : Fin 29) (bad : Bool)
  /-- CON_RETIRE_FENCE (R380): FENCE puts a LIVE cube in memory-only mode. -/
  | conRetireFence (c : CubeId)
  /-- CON_RETIRE_EVACUATE (R381): EVACUATE checks the plan and starts copying the home stack. -/
  | conRetireEvacuate (c : CubeId)
  /-- EVAC_GRANULE_COPIED (R381): A live granule's copy finishes and DONE advances. -/
  | evacGranuleCopied (c : CubeId)
  /-- CON_RETIRE_FINISH (R381): FINISH retires the cube and powers down the cube and its stack. -/
  | conRetireFinish (c : CubeId)
  /-- LIMITER_PERIOD (R386): Every 10 us the current limiter re-estimates layers and moves limiter steps. -/
  | limiterPeriod (c : CubeId) (estimates : List Nat)
  /-- LAYER_GATE (R387): An idle layer is gated after GATEIDLE. -/
  | layerGate (c : CubeId) (l : Fin 8)
  /-- LAYER_RAMP_DONE (R387): 2 us after its grant a layer may start commands. -/
  | layerRampDone (c : CubeId) (l : Fin 8)
  /-- THERMAL_SAMPLE (R388): Each microsecond the sensors are sampled and trips held. -/
  | thermalSample (c : CubeId) (temps : Temps)
  /-- THERMAL_STEP_RAISE (R388): A 50 us interval above TTHROT raises the thermal step. -/
  | thermalStepRaise (c : CubeId) (l : Fin 8)
  /-- THERMAL_STEP_LOWER (R388): A 200 us interval below TWARN lowers the thermal step. -/
  | thermalStepLower (c : CubeId) (l : Fin 8)
  /-- MIGRATION_REQUEST (R390): A step held high for TIME sets MIGREQ and interrupts the firmware. -/
  | migrationRequest (c : CubeId) (l : Fin 8)
  /-- CAP_BROADCAST (R391): A Jiresko cap broadcast arrives and is discarded or queued for the next period. -/
  | capBroadcast (bytes : List Byte)
  /-- GOVERNOR_PERIOD (R392): Every 10 us the governor measures group power and moves cap steps. -/
  | governorPeriod (powers : List Nat)
  /-- RAIL_OUT_OF_RANGE (R383): The rail leaves 1.35-1.65 V; RANGE is set and the firmware interrupted. -/
  | railOutOfRange (mv : Nat)
  /-- RAIL_POWER_DOWN (R383): The rail stays beyond the extreme limits for 100 us and gesso powers down. -/
  | railPowerDown
  /-- BRIDGE_TRIP_POWER_DOWN (R388): A bridge die at TTRIP for 1 ms powers the package down. -/
  | bridgeTripPowerDown (heat : BridgeHeat)
  /-- PACKAGE_RESET (R400): A package reset starts the boot ROM's load and verification of gesso. -/
  | packageReset (flash : FlashSlots)
  /-- GESSO_BOOT_TESTS (R379): Gesso tests layers, banks and rows, spares them and writes discovery registers. -/
  | gessoBootTests (b : BootStep)
  /-- STUDIO_FIRMWARE_START (R400): Gesso verifies and starts the studio firmware and STAGE reaches READY. -/
  | studioFirmwareStart (image : FirmwareImage) (rt : CodeBounds) (sec : CodeBounds) (handlers : HandlerEntries)
  /-- HOST_BAR2_ACCESS (R399): A host request through BAR2 is checked and performed as a runtime-mode access. -/
  | hostBar2Access (op : HostOp) (off : Nat) (size : Nat) (v : Word)
  /-- HDM_DECODER_COMMIT (R409): The firmware commits an HDM decoder that claims safe-tier addresses. -/
  | hdmDecoderCommit (place : DecoderPlace) (base : Nat) (len : Nat) (il : Interleave)
  /-- ATTESTATION_REQUEST (R405): An SPDM request is answered with a signed measurement report. -/
  | attestationRequest (nonce : Word)
  /-- SEC_DBG_HALT (R404): HALT stops the core for debug at the next task bundle boundary. -/
  | secDbgHalt (c : CubeId)
  /-- SEC_DBG_RESUME (R404): RESUME restarts a debug-halted core from its live window. -/
  | secDbgResume (c : CubeId)
  /-- CKPT_GO (R406): GO starts copying the selected HBM stacks to the safe tier. -/
  | ckptGo (v : Word)
  /-- CKPT_COMPLETE (R406): The checkpoint copy ends with DONE or ERR. -/
  | ckptComplete (ok : Bool)
  /-- HOST_LINK_DOWN (R398): Bridge 0's PCIe link goes down or comes back, moving host-memory traffic to bridge 1 and back. -/
  | hostLinkDown (up : Bool)
  /-- RESET_MESSAGE_RECEIVED (R363): A peer's reset-handshake message arrives, and this package discards the pair's sequence state and held items and replies. -/
  | resetMessageReceived (peer : BitVec 10)
  /-- PORT_TRAINED (R369): A UALink or Ultra Ethernet port finishes training and sets UP, starting to carry traffic. -/
  | portTrained (port : Fin 71) (ok : Bool)
  /-- JIRESKO_SESSION_SETUP (R405): A DTLS 1.3 session is established with the management controller, after which cap broadcasts are accepted. -/
  | jireskoSessionSetup (ok : Bool)
deriving DecidableEq, Repr

/-- The row is a slot instruction, with an encoding of its own (chapter 02). -/
def Instr.isSlot : Instr → Bool
  | .nop => true
  | .halt .. => true
  | .yield .. => true
  | .trap .. => true
  | .eret .. => true
  | .iflush .. => true
  | .tlbi .. => true
  | .noise .. => true
  | .cyc .. => true
  | .self .. => true
  | .brk .. => true
  | .sysrd .. => true
  | .syswr .. => true
  | .add .. => true
  | .sub .. => true
  | .and .. => true
  | .or .. => true
  | .xor .. => true
  | .andn .. => true
  | .orn .. => true
  | .shl .. => true
  | .shr .. => true
  | .sar .. => true
  | .rol .. => true
  | .min .. => true
  | .max .. => true
  | .minn .. => true
  | .maxn .. => true
  | .ror .. => true
  | .mul .. => true
  | .mulh .. => true
  | .mulhn .. => true
  | .div .. => true
  | .divn .. => true
  | .rem .. => true
  | .remn .. => true
  | .popc .. => true
  | .clz .. => true
  | .ctz .. => true
  | .brev .. => true
  | .bswap .. => true
  | .abs .. => true
  | .sext .. => true
  | .zext .. => true
  | .bfxs .. => true
  | .bfxn .. => true
  | .bfi .. => true
  | .fshl .. => true
  | .fshr .. => true
  | .fadd .. => true
  | .fsub .. => true
  | .fmul .. => true
  | .ffma .. => true
  | .fmin .. => true
  | .fmax .. => true
  | .fabs .. => true
  | .fneg .. => true
  | .fcvtif .. => true
  | .fcvtnf .. => true
  | .fcvtfi .. => true
  | .fcvtfn .. => true
  | .fsqrt .. => true
  | .addi .. => true
  | .andi .. => true
  | .ori .. => true
  | .xori .. => true
  | .shli .. => true
  | .shri .. => true
  | .sari .. => true
  | .muli .. => true
  | .movi .. => true
  | .movhi .. => true
  | .cmpeq .. => true
  | .cmpeqImm .. => true
  | .cmpne .. => true
  | .cmpneImm .. => true
  | .cmplt .. => true
  | .cmpltImm .. => true
  | .cmple .. => true
  | .cmpleImm .. => true
  | .cmpltn .. => true
  | .cmpltnImm .. => true
  | .cmplen .. => true
  | .cmplenImm .. => true
  | .fcmpeq .. => true
  | .fcmplt .. => true
  | .fcmple .. => true
  | .fcmpun .. => true
  | .br .. => true
  | .brl .. => true
  | .jr .. => true
  | .jrl .. => true
  | .pand .. => true
  | .por .. => true
  | .pxor .. => true
  | .pandn .. => true
  | .pmovs .. => true
  | .pmovp .. => true
  | .lpop .. => true
  | .loop .. => true
  | .loopi .. => true
  | .ld .. => true
  | .st .. => true
  | .amoAdd .. => true
  | .amoAnd .. => true
  | .amoOr .. => true
  | .amoXor .. => true
  | .amoMin .. => true
  | .amoMax .. => true
  | .amoMinn .. => true
  | .amoMaxn .. => true
  | .amoSwap .. => true
  | .amoCas .. => true
  | .amowAdd .. => true
  | .amowAnd .. => true
  | .amowOr .. => true
  | .amowXor .. => true
  | .amowMin .. => true
  | .amowMax .. => true
  | .amowMinn .. => true
  | .amowMaxn .. => true
  | .amowSwap .. => true
  | .amowCas .. => true
  | .amowFadd .. => true
  | .amowFmax .. => true
  | .redAdd .. => true
  | .redAnd .. => true
  | .redOr .. => true
  | .redXor .. => true
  | .redMin .. => true
  | .redMax .. => true
  | .redMinn .. => true
  | .redMaxn .. => true
  | .redFadd .. => true
  | .redFmax .. => true
  | .cadd .. => true
  | .cmax .. => true
  | .cwait .. => true
  | .crd .. => true
  | .fence .. => true
  | .qfence .. => true
  | .bind .. => true
  | .unbind .. => true
  | .join .. => true
  | .leave .. => true
  | .launch .. => true
  | .trninfo .. => true
  | .vadd .. => true
  | .vsub .. => true
  | .vadds .. => true
  | .vsubs .. => true
  | .vaddsn .. => true
  | .vsubsn .. => true
  | .vmul .. => true
  | .vmulh .. => true
  | .vmulhn .. => true
  | .vmin .. => true
  | .vmax .. => true
  | .vminn .. => true
  | .vmaxn .. => true
  | .vabs .. => true
  | .vneg .. => true
  | .vavgn .. => true
  | .vand .. => true
  | .vor .. => true
  | .vxor .. => true
  | .vandn .. => true
  | .vnot .. => true
  | .vshl .. => true
  | .vshr .. => true
  | .vsar .. => true
  | .vrol .. => true
  | .vbfxs .. => true
  | .vbfxn .. => true
  | .vbfi .. => true
  | .vpopc .. => true
  | .vclz .. => true
  | .vfadd .. => true
  | .vfsub .. => true
  | .vfmul .. => true
  | .vffma .. => true
  | .vfmin .. => true
  | .vfmax .. => true
  | .vfabs .. => true
  | .vfneg .. => true
  | .vfcpsgn .. => true
  | .vfmaxabs .. => true
  | .vexp2 .. => true
  | .vlog2 .. => true
  | .vrcp .. => true
  | .vrsq .. => true
  | .vsqrt .. => true
  | .vtanh .. => true
  | .vsigm .. => true
  | .vcmpeq .. => true
  | .vcmpne .. => true
  | .vcmplt .. => true
  | .vcmple .. => true
  | .vcmpltn .. => true
  | .vcmplen .. => true
  | .vfcmpeq .. => true
  | .vfcmplt .. => true
  | .vfcmple .. => true
  | .vfcmpun .. => true
  | .mand .. => true
  | .mor .. => true
  | .mxor .. => true
  | .mandn .. => true
  | .mnot .. => true
  | .mpop .. => true
  | .mfirst .. => true
  | .mfroms .. => true
  | .mlanes .. => true
  | .vperm .. => true
  | .vbcast .. => true
  | .vext .. => true
  | .vins .. => true
  | .vcompress .. => true
  | .vexpand .. => true
  | .vslideup .. => true
  | .vslidedn .. => true
  | .vzipl .. => true
  | .vziph .. => true
  | .vunzipe .. => true
  | .vunzipo .. => true
  | .viota .. => true
  | .vrev .. => true
  | .vredadd .. => true
  | .vredmin .. => true
  | .vredmax .. => true
  | .vredminn .. => true
  | .vredmaxn .. => true
  | .vfredadd .. => true
  | .vfredmin .. => true
  | .vfredmax .. => true
  | .vcvt .. => true
  | .vcvtsr .. => true
  | .vqmx8 .. => true
  | .vqmx6 .. => true
  | .vqmx4 .. => true
  | .vdqmx8 .. => true
  | .vdqmx6 .. => true
  | .vdqmx4 .. => true
  | .vqmx8sr .. => true
  | .vqmx6sr .. => true
  | .vqmx4sr .. => true
  | .vld .. => true
  | .vldStrided .. => true
  | .vldGather .. => true
  | .vldStrided16 .. => true
  | .vst .. => true
  | .vstStrided .. => true
  | .vstScatter .. => true
  | .vstStrided16 .. => true
  | .vmov .. => true
  | .vsel .. => true
  | .vsplati .. => true
  | .vnoise .. => true
  | .vdot4 .. => true
  | .vdot4n .. => true
  | .vdot2 .. => true
  | .vdot2h .. => true
  | .cmma .. => true
  | .cmmaMsk .. => true
  | .crotH32 .. => true
  | .crotH64 .. => true
  | .cdrain .. => true
  | .cdrainP .. => true
  | .caccZero .. => true
  | .caccLd .. => true
  | .caccSt .. => true
  | .caccMove .. => true
  | .csplDef .. => true
  | .csplAdvp .. => true
  | .csplAdvc .. => true
  | .csplRdp .. => true
  | .csplReset .. => true
  | .cpalSet .. => true
  | .cpalGet .. => true
  | .csyncJoin .. => true
  | .csyncStat .. => true
  | .csyncSkew .. => true
  | .crcpDef .. => true
  | .crcpGet .. => true
  | .cpyLin .. => true
  | .cpyTwod .. => true
  | .cpyThreed .. => true
  | .cpyFill .. => true
  | .cpyLsplit .. => true
  | .cpyLgath .. => true
  | .cpyMcast .. => true
  | .cpyPfetch .. => true
  | .cgthGather .. => true
  | .cgthScatter .. => true
  | .cgthGatheradd .. => true
  | .credAddf32 .. => true
  | .credAddbf16 .. => true
  | .credMaxf32 .. => true
  | .credAddi32 .. => true
  | .blkAlloc .. => true
  | .blkFree .. => true
  | .blkShare .. => true
  | .blkXlate .. => true
  | .blkFetch .. => true
  | .blkAppend .. => true
  | .blkStat .. => true
  | .emptyBundle .. => false
  | .exposedResultLands .. => false
  | .interlockedResultArrives .. => false
  | .icacheMissFill .. => false
  | .noiseWordAppend .. => false
  | .trapEntry .. => false
  | .watchdog .. => false
  | .preemption .. => false
  | .switchIn .. => false
  | .quantumExpiry .. => false
  | .noiseSeedaWrite .. => false
  | .noiseSeedbWrite .. => false
  | .noiseModeWrite .. => false
  | .seqLinesRepair .. => false
  | .schEndWrite .. => false
  | .shelfWindowWrite .. => false
  | .sysregWindowWrite .. => false
  | .fabMigreqRead .. => false
  | .homeWriteArrives .. => false
  | .lineItemCommit .. => false
  | .homeRead .. => false
  | .homeAtomic .. => false
  | .homeCounterOp .. => false
  | .sharerUpdate .. => false
  | .sharerInvalidate .. => false
  | .writeAckArrives .. => false
  | .releaseSend .. => false
  | .ackTimeoutExpiry .. => false
  | .cwaitReadReturn .. => false
  | .monitorNotify .. => false
  | .monitorPoll .. => false
  | .cwaitSpinReread .. => false
  | .walkStart .. => false
  | .walkComplete .. => false
  | .tlbiComplete .. => false
  | .launchPacketArrival .. => false
  | .peerLaunchPacket .. => false
  | .imageHeaderRead .. => false
  | .batchHandoff .. => false
  | .schPartWrite .. => false
  | .taskAdmission .. => false
  | .taskStart .. => false
  | .evictionStart .. => false
  | .evictionComplete .. => false
  | .readmission .. => false
  | .migration .. => false
  | .haltComplete .. => false
  | .strandEndError .. => false
  | .atelierTakeover => false
  | .copyCmdStart .. => false
  | .spoolEntryLanded .. => false
  | .copyCmdComplete .. => false
  | .completionAddSend .. => false
  | .cubeCmdStart .. => false
  | .cubeCmdComplete .. => false
  | .joinPointComplete .. => false
  | .cubSkewWrite .. => false
  | .cubSkewApply .. => false
  | .drainStart .. => false
  | .drainComplete .. => false
  | .blkCmdPerform .. => false
  | .blkCmdComplete .. => false
  | .blkEnable .. => false
  | .blkDisable .. => false
  | .blkReady .. => false
  | .incomingPeerRequest .. => false
  | .reductionPacketArrival .. => false
  | .flitReplay .. => false
  | .replayWarning .. => false
  | .portRetrain .. => false
  | .portDown .. => false
  | .fabDeadWrite .. => false
  | .resetHandshakeReply .. => false
  | .resetHandshakeTimeout .. => false
  | .scrubLine .. => false
  | .conCelogRead .. => false
  | .conUelogRead .. => false
  | .conInjctlWrite .. => false
  | .conInjaddrWrite .. => false
  | .selfTestStart .. => false
  | .selfTestResult .. => false
  | .conRetireFence .. => false
  | .conRetireEvacuate .. => false
  | .evacGranuleCopied .. => false
  | .conRetireFinish .. => false
  | .limiterPeriod .. => false
  | .layerGate .. => false
  | .layerRampDone .. => false
  | .thermalSample .. => false
  | .thermalStepRaise .. => false
  | .thermalStepLower .. => false
  | .migrationRequest .. => false
  | .capBroadcast .. => false
  | .governorPeriod .. => false
  | .railOutOfRange .. => false
  | .railPowerDown => false
  | .bridgeTripPowerDown .. => false
  | .packageReset .. => false
  | .gessoBootTests .. => false
  | .studioFirmwareStart .. => false
  | .hostBar2Access .. => false
  | .hdmDecoderCommit .. => false
  | .attestationRequest .. => false
  | .secDbgHalt .. => false
  | .secDbgResume .. => false
  | .ckptGo .. => false
  | .ckptComplete .. => false
  | .hostLinkDown .. => false
  | .resetMessageReceived .. => false
  | .portTrained .. => false
  | .jireskoSessionSetup .. => false

end Sys2Proof
end

