-- ==== Sys2Proof/WellFormed.lean ====
section
/-! DEFINITION. Well-formed instructions: the operand values that an encoding of chapter 02 admits. A slot instruction is
well formed exactly when some slot value and extension byte stand for it. A step without an encoding has no encoding
condition. -/
namespace Sys2Proof

/-- Operand a: any latch b1 to b7 (R36). -/
def Src.okA : Src → Bool
  | .reg _ => true
  | .latch n => n != 0
/-- Operand b reaches only b1, b4 and b5 (R36, R38). -/
def Src.okB : Src → Bool
  | .reg _ => true
  | .latch n => n == 1 || n == 4 || n == 5
def VSrc.okA : VSrc → Bool
  | .reg _ => true
  | .latch n => n != 0
def VSrc.okB : VSrc → Bool
  | .reg _ => true
  | .latch n => n == 1 || n == 4 || n == 5
def Src.isReg : Src → Bool
  | .reg _ => true
  | .latch _ => false
def Mods.isNone (m : Mods) : Bool := !m.nw && !m.tv

/-- A signed immediate is encodable: either it fits the low field, or the seven bits above are not all zero and the
extension byte carries no modifier (R35, R54). -/
def wfImmS {n : Nat} (imm : BitVec (7 + n)) (plain : Bool) : Bool :=
  imm == (imm.setWidth n).signExtend (7 + n) || (plain && imm.extractLsb' n 7 != 0)
/-- The same for an unsigned immediate. -/
def wfImmU {n : Nat} (imm : BitVec (7 + n)) (plain : Bool) : Bool :=
  imm == (imm.setWidth n).setWidth (7 + n) || (plain && imm.extractLsb' n 7 != 0)

/-- The part of a conversion is less than the ratio of the widths (R213). -/
def wfPart (t e : ElemT) (p : BitVec 2) : Bool := p.toNat < max t.bytes e.bytes / min t.bytes e.bytes

/-- A group of n registers from r does not run past s63 (R47). -/
def wfGroup (r : SReg) (n : Nat) : Bool := r.toNat + n ≤ 64


/-- The instruction has an encoding (chapter 02). -/
def Instr.wellFormed : Instr → Bool
  | .nop => true
  | .halt .. => true
  | .yield .. => true
  | .trap .. => true
  | .eret .. => true
  | .iflush .. => true
  | .tlbi _ d a code => a.okA && (code.toNat ≤ 10 || (code == 63 && d == 0 && a == .reg 0))
  | .noise .. => true
  | .cyc .. => true
  | .self .. => true
  | .brk .. => true
  | .sysrd .. => true
  | .syswr .. => true
  | .add _ _ _ a b => a.okA && b.okB
  | .sub _ _ _ a b => a.okA && b.okB
  | .and _ _ _ a b => a.okA && b.okB
  | .or _ _ _ a b => a.okA && b.okB
  | .xor _ _ _ a b => a.okA && b.okB
  | .andn _ _ _ a b => a.okA && b.okB
  | .orn _ _ _ a b => a.okA && b.okB
  | .shl _ _ _ a b => a.okA && b.okB
  | .shr _ _ _ a b => a.okA && b.okB
  | .sar _ _ _ a b => a.okA && b.okB
  | .rol _ _ _ a b => a.okA && b.okB
  | .min _ _ _ a b => a.okA && b.okB
  | .max _ _ _ a b => a.okA && b.okB
  | .minn _ _ _ a b => a.okA && b.okB
  | .maxn _ _ _ a b => a.okA && b.okB
  | .ror _ _ _ a b => a.okA && b.okB
  | .mul _ _ _ a b => a.okA && b.okB
  | .mulh _ _ _ a b => a.okA && b.okB
  | .mulhn _ _ _ a b => a.okA && b.okB
  | .div _ _ _ a b => a.okA && b.okB
  | .divn _ _ _ a b => a.okA && b.okB
  | .rem _ _ _ a b => a.okA && b.okB
  | .remn _ _ _ a b => a.okA && b.okB
  | .popc _ _ _ a => a.okA
  | .clz _ _ _ a => a.okA
  | .ctz _ _ _ a => a.okA
  | .brev _ _ _ a => a.okA
  | .bswap _ _ _ a => a.okA
  | .abs _ _ _ a => a.okA
  | .sext _ _ _ a b => a.okA && b.okB
  | .zext _ _ _ a b => a.okA && b.okB
  | .bfxs _ _ _ a b => a.okA && b.okB
  | .bfxn _ _ _ a b => a.okA && b.okB
  | .bfi _ _ _ a b => a.okA && b.okB
  | .fshl _ _ _ a b => a.okA && b.okB
  | .fshr _ _ _ a b => a.okA && b.okB
  | .fadd _ _ _ a b => a.okA && b.okB
  | .fsub _ _ _ a b => a.okA && b.okB
  | .fmul _ _ _ a b => a.okA && b.okB
  | .ffma _ _ _ a b => a.okA && b.okB
  | .fmin _ _ _ a b => a.okA && b.okB
  | .fmax _ _ _ a b => a.okA && b.okB
  | .fabs _ _ _ a => a.okA
  | .fneg _ _ _ a => a.okA
  | .fcvtif _ _ _ a => a.okA
  | .fcvtnf _ _ _ a => a.okA
  | .fcvtfi _ _ _ a => a.okA
  | .fcvtfn _ _ _ a => a.okA
  | .fsqrt _ _ _ a => a.okA
  | .addi _ m _ a imm => a.okA && wfImmS (n := 7) imm (m.isNone && a.isReg)
  | .andi _ m _ a imm => a.okA && wfImmS (n := 7) imm (m.isNone && a.isReg)
  | .ori _ m _ a imm => a.okA && wfImmS (n := 7) imm (m.isNone && a.isReg)
  | .xori _ m _ a imm => a.okA && wfImmS (n := 7) imm (m.isNone && a.isReg)
  | .shli _ m _ a imm => a.okA && wfImmS (n := 7) imm (m.isNone && a.isReg)
  | .shri _ m _ a imm => a.okA && wfImmS (n := 7) imm (m.isNone && a.isReg)
  | .sari _ m _ a imm => a.okA && wfImmS (n := 7) imm (m.isNone && a.isReg)
  | .muli _ m _ a imm => a.okA && wfImmS (n := 7) imm (m.isNone && a.isReg)
  | .movi _ m _ imm => wfImmS (n := 16) imm m.isNone
  | .movhi _ m _ imm => wfImmU (n := 16) imm m.isNone
  | .cmpeq _ _ _ _ _ a b => a.okA && b.okB
  | .cmpeqImm _ tv _ _ _ a imm => a.okA && wfImmS (n := 6) imm (!tv && a.isReg)
  | .cmpne _ _ _ _ _ a b => a.okA && b.okB
  | .cmpneImm _ tv _ _ _ a imm => a.okA && wfImmS (n := 6) imm (!tv && a.isReg)
  | .cmplt _ _ _ _ _ a b => a.okA && b.okB
  | .cmpltImm _ tv _ _ _ a imm => a.okA && wfImmS (n := 6) imm (!tv && a.isReg)
  | .cmple _ _ _ _ _ a b => a.okA && b.okB
  | .cmpleImm _ tv _ _ _ a imm => a.okA && wfImmS (n := 6) imm (!tv && a.isReg)
  | .cmpltn _ _ _ _ _ a b => a.okA && b.okB
  | .cmpltnImm _ tv _ _ _ a imm => a.okA && wfImmU (n := 6) imm (!tv && a.isReg)
  | .cmplen _ _ _ _ _ a b => a.okA && b.okB
  | .cmplenImm _ tv _ _ _ a imm => a.okA && wfImmU (n := 6) imm (!tv && a.isReg)
  | .fcmpeq _ _ _ _ _ a b => a.okA && b.okB
  | .fcmplt _ _ _ _ _ a b => a.okA && b.okB
  | .fcmple _ _ _ _ _ a b => a.okA && b.okB
  | .fcmpun _ _ _ _ _ a b => a.okA && b.okB
  | .br _ disp => wfImmS (n := 22) disp true
  | .brl _ disp => wfImmS (n := 22) disp true
  | .jr _ a => a.okA
  | .jrl _ a => a.okA
  | .pand .. => true
  | .por .. => true
  | .pxor .. => true
  | .pandn .. => true
  | .pmovs _ a => a.okA
  | .pmovp .. => true
  | .lpop .. => true
  | .loop _ _ e => e != 0 && wfImmU (n := 14) e true
  | .loopi _ n e => e != 0 && wfImmU (n := 12) n true
  | .ld _ nw d base z x off => base.okA && !(z == .d && x) && wfImmS (n := 4) off (!nw && base.isReg)
  | .st _ _ base _ _ _ off => base.okA && wfImmS (n := 4) off base.isReg
  | .amoAdd _ _ a b => a.okA && b.okB
  | .amoAnd _ _ a b => a.okA && b.okB
  | .amoOr _ _ a b => a.okA && b.okB
  | .amoXor _ _ a b => a.okA && b.okB
  | .amoMin _ _ a b => a.okA && b.okB
  | .amoMax _ _ a b => a.okA && b.okB
  | .amoMinn _ _ a b => a.okA && b.okB
  | .amoMaxn _ _ a b => a.okA && b.okB
  | .amoSwap _ _ a b => a.okA && b.okB
  | .amoCas _ _ a b => a.okA && b.okB && b != .reg 63
  | .amowAdd _ _ a b => a.okA && b.okB
  | .amowAnd _ _ a b => a.okA && b.okB
  | .amowOr _ _ a b => a.okA && b.okB
  | .amowXor _ _ a b => a.okA && b.okB
  | .amowMin _ _ a b => a.okA && b.okB
  | .amowMax _ _ a b => a.okA && b.okB
  | .amowMinn _ _ a b => a.okA && b.okB
  | .amowMaxn _ _ a b => a.okA && b.okB
  | .amowSwap _ _ a b => a.okA && b.okB
  | .amowCas _ _ a b => a.okA && b.okB && b != .reg 63
  | .amowFadd _ _ a b => a.okA && b.okB
  | .amowFmax _ _ a b => a.okA && b.okB
  | .redAdd _ _ _ a b => a.okA && b.okB
  | .redAnd _ _ _ a b => a.okA && b.okB
  | .redOr _ _ _ a b => a.okA && b.okB
  | .redXor _ _ _ a b => a.okA && b.okB
  | .redMin _ _ _ a b => a.okA && b.okB
  | .redMax _ _ _ a b => a.okA && b.okB
  | .redMinn _ _ _ a b => a.okA && b.okB
  | .redMaxn _ _ _ a b => a.okA && b.okB
  | .redFadd _ _ a b => a.okA && b.okB
  | .redFmax _ _ a b => a.okA && b.okB
  | .cadd _ _ _ a b _ _ => a.okA && b.okB
  | .cmax _ _ _ a b _ _ => a.okA && b.okB
  | .cwait _ _ a b _ _ _ => a.okA && b.okB
  | .crd _ _ a _ _ => a.okA
  | .fence .. => true
  | .qfence .. => true
  | .bind _ _ a b => a.okA && b.okB
  | .unbind _ _ a b => a.okA && b.okB
  | .join _ _ a => a.okA
  | .leave _ _ a => a.okA
  | .launch _ _ a b => a.okA && b.okB
  | .trninfo _ _ a => a.okA
  | .vadd _ _ _ _ a b t => a.okA && b.okB && t.isInt
  | .vsub _ _ _ _ a b t => a.okA && b.okB && t.isInt
  | .vadds _ _ _ _ a b t => a.okA && b.okB && t.isInt
  | .vsubs _ _ _ _ a b t => a.okA && b.okB && t.isInt
  | .vaddsn _ _ _ _ a b t => a.okA && b.okB && t.isInt
  | .vsubsn _ _ _ _ a b t => a.okA && b.okB && t.isInt
  | .vmul _ _ _ _ a b t => a.okA && b.okB && t.isInt
  | .vmulh _ _ _ _ a b t => a.okA && b.okB && t.isInt
  | .vmulhn _ _ _ _ a b t => a.okA && b.okB && t.isInt
  | .vmin _ _ _ _ a b t => a.okA && b.okB && t.isInt
  | .vmax _ _ _ _ a b t => a.okA && b.okB && t.isInt
  | .vminn _ _ _ _ a b t => a.okA && b.okB && t.isInt
  | .vmaxn _ _ _ _ a b t => a.okA && b.okB && t.isInt
  | .vabs _ _ _ _ a t => a.okA && t.isInt
  | .vneg _ _ _ _ a t => a.okA && t.isInt
  | .vavgn _ _ _ _ a b t => a.okA && b.okB && t.isInt
  | .vand _ _ _ _ a b t => a.okA && b.okB && t.isInt
  | .vor _ _ _ _ a b t => a.okA && b.okB && t.isInt
  | .vxor _ _ _ _ a b t => a.okA && b.okB && t.isInt
  | .vandn _ _ _ _ a b t => a.okA && b.okB && t.isInt
  | .vnot _ _ _ _ a t => a.okA && t.isInt
  | .vshl _ _ _ _ a b t => a.okA && b.okB && t.isInt
  | .vshr _ _ _ _ a b t => a.okA && b.okB && t.isInt
  | .vsar _ _ _ _ a b t => a.okA && b.okB && t.isInt
  | .vrol _ _ _ _ a b t => a.okA && b.okB && t.isInt
  | .vbfxs _ _ _ _ a b t => a.okA && b.okB && t.isInt16
  | .vbfxn _ _ _ _ a b t => a.okA && b.okB && t.isInt16
  | .vbfi _ _ _ _ a b t => a.okA && b.okB && t.isInt16
  | .vpopc _ _ _ _ a t => a.okA && t.isInt
  | .vclz _ _ _ _ a t => a.okA && t.isInt
  | .vfadd _ _ _ _ a b t => a.okA && b.okB && t.isFloat
  | .vfsub _ _ _ _ a b t => a.okA && b.okB && t.isFloat
  | .vfmul _ _ _ _ a b t => a.okA && b.okB && t.isFloat
  | .vffma _ _ _ _ a b t => a.okA && b.okB && t.isFloat
  | .vfmin _ _ _ _ a b t => a.okA && b.okB && t.isFloat
  | .vfmax _ _ _ _ a b t => a.okA && b.okB && t.isFloat
  | .vfabs _ _ _ _ a t => a.okA && t.isFloat
  | .vfneg _ _ _ _ a t => a.okA && t.isFloat
  | .vfcpsgn _ _ _ _ a b t => a.okA && b.okB && t.isFloat
  | .vfmaxabs _ _ _ _ a b t => a.okA && b.okB && t.isFloat
  | .vexp2 _ _ _ _ a t => a.okA && t.isSfu
  | .vlog2 _ _ _ _ a t => a.okA && t.isSfu
  | .vrcp _ _ _ _ a t => a.okA && t.isSfu
  | .vrsq _ _ _ _ a t => a.okA && t.isSfu
  | .vsqrt _ _ _ _ a t => a.okA && t.isSfu
  | .vtanh _ _ _ _ a t => a.okA && t.isSfu
  | .vsigm _ _ _ _ a t => a.okA && t.isSfu
  | .vcmpeq _ _ _ _ _ a b t => a.okA && b.okB && t.isInt
  | .vcmpne _ _ _ _ _ a b t => a.okA && b.okB && t.isInt
  | .vcmplt _ _ _ _ _ a b t => a.okA && b.okB && t.isInt
  | .vcmple _ _ _ _ _ a b t => a.okA && b.okB && t.isInt
  | .vcmpltn _ _ _ _ _ a b t => a.okA && b.okB && t.isInt
  | .vcmplen _ _ _ _ _ a b t => a.okA && b.okB && t.isInt
  | .vfcmpeq _ _ _ _ _ a b t => a.okA && b.okB && t.isFloat
  | .vfcmplt _ _ _ _ _ a b t => a.okA && b.okB && t.isFloat
  | .vfcmple _ _ _ _ _ a b t => a.okA && b.okB && t.isFloat
  | .vfcmpun _ _ _ _ _ a b t => a.okA && b.okB && t.isFloat
  | .mand _ _ d _ _ => d != 0
  | .mor _ _ d _ _ => d != 0
  | .mxor _ _ d _ _ => d != 0
  | .mandn _ _ d _ _ => d != 0
  | .mnot _ _ d _ => d != 0
  | .mpop _ _ _ _ _ t => t.isInt
  | .mfirst _ _ _ _ _ t => t.isInt
  | .mfroms _ _ d a t => d != 0 && a.okA && t.isInt
  | .mlanes _ _ d a t => d != 0 && a.okA && t.isInt
  | .vperm _ _ _ _ a b t => a.okA && b.okB && t.isInt
  | .vbcast _ _ _ _ a b t => a.okA && b.okB && t.isInt
  | .vext _ _ _ a b t => a.okA && b.okB && t.isInt
  | .vins _ _ _ _ a b t => a.okA && b.okB && t.isInt
  | .vcompress _ _ _ _ a _ t => a.okA && t.isInt
  | .vexpand _ _ _ _ a t => a.okA && t.isInt
  | .vslideup _ _ _ _ a b t => a.okA && b.okB && t.isInt
  | .vslidedn _ _ _ _ a b t => a.okA && b.okB && t.isInt
  | .vzipl _ _ _ _ a b t => a.okA && b.okB && t.isInt
  | .vziph _ _ _ _ a b t => a.okA && b.okB && t.isInt
  | .vunzipe _ _ _ _ a b t => a.okA && b.okB && t.isInt
  | .vunzipo _ _ _ _ a b t => a.okA && b.okB && t.isInt
  | .viota _ _ _ _ t => t.isInt
  | .vrev _ _ _ _ a t => a.okA && t.isInt
  | .vredadd _ _ _ _ a t => a.okA && t.isInt
  | .vredmin _ _ _ _ a t => a.okA && t.isInt
  | .vredmax _ _ _ _ a t => a.okA && t.isInt
  | .vredminn _ _ _ _ a t => a.okA && t.isInt
  | .vredmaxn _ _ _ _ a t => a.okA && t.isInt
  | .vfredadd _ _ _ _ a t => a.okA && t.isFloat
  | .vfredmin _ _ _ _ a t => a.okA && t.isFloat
  | .vfredmax _ _ _ _ a t => a.okA && t.isFloat
  | .vcvt _ _ _ _ a p t e => a.okA && wfPart t e p
  | .vcvtsr _ _ _ _ a p t e => a.okA && wfPart t e p
  | .vqmx8 _ _ _ _ a _ => a.okA
  | .vqmx6 _ _ _ _ a _ => a.okA
  | .vqmx4 _ _ _ _ a _ => a.okA
  | .vdqmx8 _ _ _ _ a b => a.okA && b.okB
  | .vdqmx6 _ _ _ _ a b => a.okA && b.okB
  | .vdqmx4 _ _ _ _ a b => a.okA && b.okB
  | .vqmx8sr _ _ _ _ a _ => a.okA
  | .vqmx6sr _ _ _ _ a _ => a.okA
  | .vqmx4sr _ _ _ _ a _ => a.okA
  | .vld _ _ _ base => base.okA
  | .vldStrided _ _ _ base stride => base.okA && stride.okB
  | .vldGather _ _ _ base idx => base.okA && idx.okB
  | .vldStrided16 _ _ _ base stride => base.okA && stride.okB
  | .vst _ _ _ base _ => base.okA
  | .vstStrided _ _ _ base stride _ => base.okA && stride.okB
  | .vstScatter _ _ _ base idx _ => base.okA && idx.okB
  | .vstStrided16 _ _ _ base stride _ => base.okA && stride.okB
  | .vmov _ _ _ _ a t => a.okA && t.isInt
  | .vsel _ _ _ _ a b t => a.okA && b.okB && t.isInt
  | .vsplati _ _ m _ imm t => t.isInt && wfImmS (n := 10) imm m.isNone
  | .vnoise _ _ _ _ t => t.isInt
  | .vdot4 _ _ _ _ a b => a.okA && b.okB
  | .vdot4n _ _ _ _ a b => a.okA && b.okB
  | .vdot2 _ _ _ _ a b => a.okA && b.okB
  | .vdot2h _ _ _ _ a b => a.okA && b.okB
  | .cmma .. => true
  | .cmmaMsk _ _ _ c _ _ _ => c != 0 && c.toNat ≤ 61
  | .crotH32 .. => true
  | .crotH64 .. => true
  | .cdrain _ _ _ c => c.toNat ≤ 59
  | .cdrainP _ _ _ c => c.toNat ≤ 59
  | .caccZero _ _ c => c.toNat ≤ 59
  | .caccLd _ _ _ c => c.toNat ≤ 59
  | .caccSt _ _ _ c => c.toNat ≤ 59
  | .caccMove _ _ _ c => c.toNat ≤ 59
  | .csplDef .. => true
  | .csplAdvp .. => true
  | .csplAdvc .. => true
  | .csplRdp .. => true
  | .csplReset .. => true
  | .cpalSet .. => true
  | .cpalGet .. => true
  | .csyncJoin .. => true
  | .csyncStat .. => true
  | .csyncSkew .. => true
  | .crcpDef .. => true
  | .crcpGet .. => true
  | .cpyLin _ a _ _ _ => wfGroup a 4
  | .cpyTwod _ a _ _ _ => wfGroup a 4
  | .cpyThreed _ a _ _ _ => wfGroup a 6
  | .cpyFill _ a _ _ _ => wfGroup a 4
  | .cpyLsplit _ a _ _ _ => wfGroup a 4
  | .cpyLgath _ a _ _ _ => wfGroup a 4
  | .cpyMcast _ a _ _ _ => wfGroup a 4
  | .cpyPfetch _ a _ _ _ => wfGroup a 4
  | .cgthGather _ a _ _ _ => wfGroup a 4
  | .cgthScatter _ a _ _ _ => wfGroup a 4
  | .cgthGatheradd _ a _ _ _ => wfGroup a 4
  | .credAddf32 _ a _ _ _ => wfGroup a 4
  | .credAddbf16 _ a _ _ _ => wfGroup a 4
  | .credMaxf32 _ a _ _ _ => wfGroup a 4
  | .credAddi32 _ a _ _ _ => wfGroup a 4
  | .blkAlloc _ a _ _ => wfGroup a 4
  | .blkFree _ a _ _ => wfGroup a 4
  | .blkShare _ a _ _ => wfGroup a 4
  | .blkXlate _ a _ _ => wfGroup a 4
  | .blkFetch _ a _ _ => wfGroup a 4
  | .blkAppend _ a _ _ => wfGroup a 4
  | .blkStat _ a _ _ => wfGroup a 4
  | .emptyBundle .. => true
  | .exposedResultLands .. => true
  | .interlockedResultArrives .. => true
  | .icacheMissFill .. => true
  | .noiseWordAppend .. => true
  | .trapEntry .. => true
  | .watchdog .. => true
  | .preemption .. => true
  | .switchIn .. => true
  | .quantumExpiry .. => true
  | .noiseSeedaWrite .. => true
  | .noiseSeedbWrite .. => true
  | .noiseModeWrite .. => true
  | .seqLinesRepair .. => true
  | .schEndWrite .. => true
  | .shelfWindowWrite .. => true
  | .sysregWindowWrite .. => true
  | .fabMigreqRead .. => true
  | .homeWriteArrives .. => true
  | .lineItemCommit .. => true
  | .homeRead .. => true
  | .homeAtomic .. => true
  | .homeCounterOp .. => true
  | .sharerUpdate .. => true
  | .sharerInvalidate .. => true
  | .writeAckArrives .. => true
  | .releaseSend .. => true
  | .ackTimeoutExpiry .. => true
  | .cwaitReadReturn .. => true
  | .monitorNotify .. => true
  | .monitorPoll .. => true
  | .cwaitSpinReread .. => true
  | .walkStart .. => true
  | .walkComplete .. => true
  | .tlbiComplete .. => true
  | .launchPacketArrival .. => true
  | .peerLaunchPacket .. => true
  | .imageHeaderRead .. => true
  | .batchHandoff .. => true
  | .schPartWrite .. => true
  | .taskAdmission .. => true
  | .taskStart .. => true
  | .evictionStart .. => true
  | .evictionComplete .. => true
  | .readmission .. => true
  | .migration .. => true
  | .haltComplete .. => true
  | .strandEndError .. => true
  | .atelierTakeover => true
  | .copyCmdStart .. => true
  | .spoolEntryLanded .. => true
  | .copyCmdComplete .. => true
  | .completionAddSend .. => true
  | .cubeCmdStart .. => true
  | .cubeCmdComplete .. => true
  | .joinPointComplete .. => true
  | .cubSkewWrite .. => true
  | .cubSkewApply .. => true
  | .drainStart .. => true
  | .drainComplete .. => true
  | .blkCmdPerform .. => true
  | .blkCmdComplete .. => true
  | .blkEnable .. => true
  | .blkDisable .. => true
  | .blkReady .. => true
  | .incomingPeerRequest .. => true
  | .reductionPacketArrival .. => true
  | .flitReplay .. => true
  | .replayWarning .. => true
  | .portRetrain .. => true
  | .portDown .. => true
  | .fabDeadWrite .. => true
  | .resetHandshakeReply .. => true
  | .resetHandshakeTimeout .. => true
  | .scrubLine .. => true
  | .conCelogRead .. => true
  | .conUelogRead .. => true
  | .conInjctlWrite .. => true
  | .conInjaddrWrite .. => true
  | .selfTestStart .. => true
  | .selfTestResult .. => true
  | .conRetireFence .. => true
  | .conRetireEvacuate .. => true
  | .evacGranuleCopied .. => true
  | .conRetireFinish .. => true
  | .limiterPeriod .. => true
  | .layerGate .. => true
  | .layerRampDone .. => true
  | .thermalSample .. => true
  | .thermalStepRaise .. => true
  | .thermalStepLower .. => true
  | .migrationRequest .. => true
  | .capBroadcast .. => true
  | .governorPeriod .. => true
  | .railOutOfRange .. => true
  | .railPowerDown => true
  | .bridgeTripPowerDown .. => true
  | .packageReset .. => true
  | .gessoBootTests .. => true
  | .studioFirmwareStart .. => true
  | .hostBar2Access .. => true
  | .hdmDecoderCommit .. => true
  | .attestationRequest .. => true
  | .secDbgHalt .. => true
  | .secDbgResume .. => true
  | .ckptGo .. => true
  | .ckptComplete .. => true
  | .hostLinkDown .. => true
  | .resetMessageReceived .. => true
  | .portTrained .. => true
  | .jireskoSessionSetup .. => true

/-- Well-formedness as a proposition. -/
abbrev Instr.WellFormed (i : Instr) : Prop := i.wellFormed = true

end Sys2Proof
end

