-- ==== Sys2Proof/Decode.lean ====
section
/-! DEFINITION. The decoder of one slot and its extension byte, total on all bits, and the encoder, both from the formats
of R33 to R48. `decodeSlot` answers none for a reserved encoding (R42); which instruction is privileged, and which bundles
are illegal, is decided in Machine/Legal.lean. -/
namespace Sys2Proof

/-! ### Codes of the small fields -/

/-- The type code of R46. -/
def ElemT.code : ElemT → BitVec 3
  | .b8 => 0 | .b16 => 1 | .b32 => 2 | .f16 => 3 | .bf16 => 4 | .f32 => 5 | .e4 => 6 | .e5 => 7
def ElemT.ofCode (c : BitVec 3) : ElemT :=
  match c.toNat with
  | 0 => .b8 | 1 => .b16 | 2 => .b32 | 3 => .f16 | 4 => .bf16 | 5 => .f32 | 6 => .e4 | _ => .e5
/-- The ctype code of R177. -/
def Comb.code : Comb → BitVec 3
  | .plain => 0 | .and => 1 | .or => 2
def Comb.ofCode (c : BitVec 3) : Option Comb :=
  match c.toNat with
  | 0 => some .plain | 1 => some .and | 2 => some .or | _ => none
/-- The scope code of R53. -/
def Scope.code : Scope → BitVec 2
  | .cube => 0 | .pkg => 1 | .fab => 2 | .sys => 3
def Scope.ofCode (c : BitVec 2) : Scope :=
  match c.toNat with
  | 0 => .cube | 1 => .pkg | 2 => .fab | _ => .sys
/-- The size code of R45. -/
def Size.code : Size → BitVec 2
  | .b => 0 | .h => 1 | .w => 2 | .d => 3
def Size.ofCode (c : BitVec 2) : Size :=
  match c.toNat with
  | 0 => .b | 1 => .h | 2 => .w | _ => .d
/-- The kind code of R196. -/
def FenceKind.code : FenceKind → BitVec 2
  | .full => 0 | .storeStore => 1 | .loadLoad => 2
def FenceKind.ofCode (c : BitVec 2) : Option FenceKind :=
  match c.toNat with
  | 0 => some .full | 1 => some .storeStore | 2 => some .loadLoad | _ => none

/-! ### Fields -/

/-- The n bits of w from bit lo. -/
def fld (w : BitVec 32) (lo n : Nat) : BitVec n := w.extractLsb' lo n
def Guard.ofWord (w : BitVec 32) : Guard := ⟨fld w 25 1 == 1, fld w 22 3⟩
def Guard.bits (g : Guard) : BitVec 4 := BitVec.ofBool g.neg ++ g.pred

/-- An extension byte taken apart (R35, R36): the high immediate bits, or the modifiers. Each part that is not there is
zero, and a zero byte has every part zero. -/
structure ExtByte where
  hi : BitVec 7
  nw : Bool
  tv : Bool
  la : BitVec 3
  lb : BitVec 2
deriving DecidableEq, Repr

def ExtByte.parse (x : BitVec 8) : ExtByte :=
  if x.extractLsb' 7 1 = 1 then
    ⟨0, x.extractLsb' 6 1 == 1, x.extractLsb' 5 1 == 1, x.extractLsb' 2 3, x.extractLsb' 0 2⟩
  else ⟨x.extractLsb' 0 7, false, false, 0, 0⟩
/-- The byte that carries modifiers: 0x00 when there is none. -/
def modByte (nw tv : Bool) (la : BitVec 3) (lb : BitVec 2) : BitVec 8 :=
  if !nw && !tv && la == 0 && lb == 0 then 0
  else (1 : BitVec 1) ++ BitVec.ofBool nw ++ BitVec.ofBool tv ++ la ++ lb
/-- The byte that carries seven high immediate bits. -/
def immByte (hi : BitVec 7) : BitVec 8 := (0 : BitVec 1) ++ hi

/-- Nothing but latch selections is present. -/
def ExtByte.onlyLat (e : ExtByte) : Bool := e.hi == 0 && !e.nw && !e.tv
def ExtByte.bare (e : ExtByte) : Bool := e.onlyLat && e.la == 0 && e.lb == 0

/-- Operand a (R36): a register, or with LA a latch, whose register field must then be zero. -/
def Src.ofA (la : BitVec 3) (f : BitVec 6) : Option Src :=
  if la = 0 then some (.reg f) else if f = 0 then some (.latch la) else none
/-- The latch that LB names: 1 b1, 2 b4, 3 b5 (R36). -/
def latchB (lb : BitVec 2) : BitVec 3 :=
  match lb.toNat with
  | 1 => 1 | 2 => 4 | _ => 5
def Src.ofB (lb : BitVec 2) (f : BitVec 6) : Option Src :=
  if lb = 0 then some (.reg f) else if f = 0 then some (.latch (latchB lb)) else none
def VSrc.ofA (la : BitVec 3) (f : BitVec 5) : Option VSrc :=
  if la = 0 then some (.reg f) else if f = 0 then some (.latch la) else none
def VSrc.ofB (lb : BitVec 2) (f : BitVec 5) : Option VSrc :=
  if lb = 0 then some (.reg f) else if f = 0 then some (.latch (latchB lb)) else none
def Src.field : Src → BitVec 6
  | .reg r => r | .latch _ => 0
def Src.la : Src → BitVec 3
  | .reg _ => 0 | .latch n => n
/-- LB's code of a latch (R36); 0 where operand b cannot reach it. -/
def lbCode (n : BitVec 3) : BitVec 2 :=
  match n.toNat with
  | 1 => 1 | 4 => 2 | 5 => 3 | _ => 0
def Src.lb : Src → BitVec 2
  | .reg _ => 0 | .latch n => lbCode n
def VSrc.field : VSrc → BitVec 5
  | .reg r => r | .latch _ => 0
def VSrc.la : VSrc → BitVec 3
  | .reg _ => 0 | .latch n => n
def VSrc.lb : VSrc → BitVec 2
  | .reg _ => 0 | .latch n => lbCode n

/-- A signed field with the extension byte's high bits in front (R35); a zero byte leaves it unextended. -/
def widenS {n : Nat} (hi : BitVec 7) (lo : BitVec n) : BitVec (7 + n) :=
  if hi = 0 then lo.signExtend (7 + n) else hi ++ lo
def widenU {n : Nat} (hi : BitVec 7) (lo : BitVec n) : BitVec (7 + n) := hi ++ lo

/-! ### One decoder per format -/

def decNop (w : BitVec 32) (x : BitVec 8) (k : Instr) : Option Instr :=
  if w = 1 ∧ x = 0 then some k else none
def decG (w : BitVec 32) (x : BitVec 8) (k : Guard → Instr) : Option Instr :=
  if fld w 4 18 = 0 ∧ (ExtByte.parse x).bare then some (k (.ofWord w)) else none
def decTrap (w : BitVec 32) (x : BitVec 8) (k : Guard → BitVec 6 → Instr) : Option Instr :=
  if fld w 10 12 = 0 ∧ (ExtByte.parse x).bare then some (k (.ofWord w) (fld w 4 6)) else none
def decTlbi (w : BitVec 32) (x : BitVec 8) (k : Guard → SReg → Src → BitVec 6 → Instr) : Option Instr :=
  let e := ExtByte.parse x
  let code := fld w 4 6
  if e.onlyLat ∧ e.lb = 0 ∧ (code.toNat ≤ 10 ∨ (code = 63 ∧ fld w 10 12 = 0 ∧ e.la = 0)) then
    (Src.ofA e.la (fld w 10 6)).map fun a => k (.ofWord w) (fld w 16 6) a code
  else none
def decGD (w : BitVec 32) (x : BitVec 8) (k : Guard → SReg → Instr) : Option Instr :=
  if fld w 4 12 = 0 ∧ (ExtByte.parse x).bare then some (k (.ofWord w) (fld w 16 6)) else none
def decSysreg (w : BitVec 32) (x : BitVec 8) (rd wr : Guard → SReg → BitVec 12 → Instr) : Option Instr :=
  if fld w 12 3 = 0 ∧ (ExtByte.parse x).bare then
    some (if fld w 15 1 = 0 then rd (.ofWord w) (fld w 16 6) (fld w 0 12) else wr (.ofWord w) (fld w 16 6) (fld w 0 12))
  else none
def decRRR (w : BitVec 32) (x : BitVec 8) (k : Guard → Mods → SReg → Src → Src → Instr) : Option Instr :=
  let e := ExtByte.parse x
  if e.hi = 0 then
    (Src.ofA e.la (fld w 10 6)).bind fun a =>
    (Src.ofB e.lb (fld w 4 6)).map fun b => k (.ofWord w) ⟨e.nw, e.tv⟩ (fld w 16 6) a b
  else none
def decRR (w : BitVec 32) (x : BitVec 8) (k : Guard → Mods → SReg → Src → Instr) : Option Instr :=
  let e := ExtByte.parse x
  if e.hi = 0 ∧ e.lb = 0 ∧ fld w 4 6 = 0 then
    (Src.ofA e.la (fld w 10 6)).map fun a => k (.ofWord w) ⟨e.nw, e.tv⟩ (fld w 16 6) a
  else none
def decRRI (w : BitVec 32) (x : BitVec 8) (k : Guard → Mods → SReg → Src → BitVec 14 → Instr) : Option Instr :=
  let e := ExtByte.parse x
  if e.lb = 0 then
    (Src.ofA e.la (fld w 10 6)).map fun a =>
      k (.ofWord w) ⟨e.nw, e.tv⟩ (fld w 16 6) a (widenS e.hi (fld w 0 7))
  else none
def decMovi (w : BitVec 32) (x : BitVec 8) (k : Guard → Mods → SReg → BitVec 23 → Instr) : Option Instr :=
  let e := ExtByte.parse x
  if e.la = 0 ∧ e.lb = 0 then some (k (.ofWord w) ⟨e.nw, e.tv⟩ (fld w 16 6) (widenS e.hi (fld w 0 16))) else none
def decMovhi (w : BitVec 32) (x : BitVec 8) (k : Guard → Mods → SReg → BitVec 23 → Instr) : Option Instr :=
  let e := ExtByte.parse x
  if e.la = 0 ∧ e.lb = 0 then some (k (.ofWord w) ⟨e.nw, e.tv⟩ (fld w 16 6) (widenU e.hi (fld w 0 16))) else none
def decCmpR (w : BitVec 32) (x : BitVec 8) (k : Guard → Bool → Comb → PReg → PReg → Src → Src → Instr) :
    Option Instr :=
  let e := ExtByte.parse x
  if e.hi = 0 ∧ e.nw = false then
    (Comb.ofCode (fld w 19 3)).bind fun ct =>
    (Src.ofA e.la (fld w 6 6)).bind fun a =>
    (Src.ofB e.lb (fld w 0 6)).map fun b => k (.ofWord w) e.tv ct (fld w 16 3) (fld w 13 3) a b
  else none
def decCmpI (sgn : Bool) (w : BitVec 32) (x : BitVec 8)
    (k : Guard → Bool → Comb → PReg → PReg → Src → BitVec 13 → Instr) : Option Instr :=
  let e := ExtByte.parse x
  if e.lb = 0 ∧ e.nw = false then
    (Comb.ofCode (fld w 19 3)).bind fun ct =>
    (Src.ofA e.la (fld w 6 6)).map fun a =>
      k (.ofWord w) e.tv ct (fld w 16 3) (fld w 13 3) a
        (if sgn then widenS e.hi (fld w 0 6) else widenU e.hi (fld w 0 6))
  else none
def decBr (w : BitVec 32) (x : BitVec 8) (k : Guard → BitVec 29 → Instr) : Option Instr :=
  let e := ExtByte.parse x
  if e.la = 0 ∧ e.lb = 0 ∧ e.nw = false ∧ e.tv = false then some (k (.ofWord w) (widenS e.hi (fld w 0 22))) else none
def decJr (w : BitVec 32) (x : BitVec 8) (k : Guard → Src → Instr) : Option Instr :=
  let e := ExtByte.parse x
  if e.onlyLat ∧ e.lb = 0 ∧ fld w 16 6 = 0 ∧ fld w 4 6 = 0 then
    (Src.ofA e.la (fld w 10 6)).map fun a => k (.ofWord w) a
  else none
def decPPP (w : BitVec 32) (x : BitVec 8) (k : Guard → PReg → PReg → PReg → Instr) : Option Instr :=
  if fld w 19 3 = 0 ∧ fld w 13 3 = 0 ∧ fld w 7 3 = 0 ∧ (ExtByte.parse x).bare then
    some (k (.ofWord w) (fld w 16 3) (fld w 10 3) (fld w 4 3))
  else none
def decLoop (w : BitVec 32) (x : BitVec 8) (k : Guard → SReg → BitVec 21 → Instr) : Option Instr :=
  let e := ExtByte.parse x
  let n : BitVec 21 := widenU e.hi (fld w 0 14)
  if e.la = 0 ∧ e.lb = 0 ∧ e.nw = false ∧ e.tv = false ∧ fld w 14 2 = 0 ∧ n ≠ 0 then
    some (k (.ofWord w) (fld w 16 6) n)
  else none
def decLoopi (w : BitVec 32) (x : BitVec 8) (k : Guard → BitVec 19 → BitVec 10 → Instr) : Option Instr :=
  let e := ExtByte.parse x
  if e.la = 0 ∧ e.lb = 0 ∧ e.nw = false ∧ e.tv = false ∧ fld w 0 10 ≠ 0 then
    some (k (.ofWord w) (widenU e.hi (fld w 10 12)) (fld w 0 10))
  else none
def decLd (w : BitVec 32) (x : BitVec 8) (k : Guard → Bool → SReg → Src → Size → Bool → BitVec 11 → Instr) :
    Option Instr :=
  let e := ExtByte.parse x
  if e.tv = false ∧ e.lb = 0 ∧ fld w 4 3 = 0 ∧ ¬ (fld w 8 2 = 3 ∧ fld w 7 1 = 1) then
    (Src.ofA e.la (fld w 10 6)).map fun a =>
      k (.ofWord w) e.nw (fld w 16 6) a (.ofCode (fld w 8 2)) (fld w 7 1 == 1) (widenS e.hi (fld w 0 4))
  else none
def decSt (w : BitVec 32) (x : BitVec 8)
    (k : Guard → SReg → Src → Size → Bool → BitVec 3 → BitVec 11 → Instr) : Option Instr :=
  let e := ExtByte.parse x
  if e.nw = false ∧ e.tv = false ∧ e.lb = 0 then
    (Src.ofA e.la (fld w 10 6)).map fun a =>
      k (.ofWord w) (fld w 16 6) a (.ofCode (fld w 8 2)) (fld w 7 1 == 1) (fld w 4 3) (widenS e.hi (fld w 0 4))
  else none
def decGDAB (w : BitVec 32) (x : BitVec 8) (k : Guard → SReg → Src → Src → Instr) : Option Instr :=
  let e := ExtByte.parse x
  if e.onlyLat then
    (Src.ofA e.la (fld w 10 6)).bind fun a =>
    (Src.ofB e.lb (fld w 4 6)).map fun b => k (.ofWord w) (fld w 16 6) a b
  else none
/-- Compare and swap reads s(b) and s(b+1), so b = 63 is reserved (R181). -/
def decCas (w : BitVec 32) (x : BitVec 8) (k : Guard → SReg → Src → Src → Instr) : Option Instr :=
  if fld w 4 6 = 63 then none else decGDAB w x k
def decRed (w : BitVec 32) (x : BitVec 8) (k : Guard → Bool → Bool → Src → Src → Instr) : Option Instr :=
  let e := ExtByte.parse x
  if e.onlyLat ∧ fld w 19 2 = 0 ∧ fld w 16 2 = 0 then
    (Src.ofA e.la (fld w 10 6)).bind fun a =>
    (Src.ofB e.lb (fld w 4 6)).map fun b => k (.ofWord w) (fld w 21 1 == 1) (fld w 18 1 == 1) a b
  else none
def decRedF (w : BitVec 32) (x : BitVec 8) (k : Guard → Bool → Src → Src → Instr) : Option Instr :=
  let e := ExtByte.parse x
  if e.onlyLat ∧ fld w 16 5 = 0 then
    (Src.ofA e.la (fld w 10 6)).bind fun a =>
    (Src.ofB e.lb (fld w 4 6)).map fun b => k (.ofWord w) (fld w 21 1 == 1) a b
  else none
def decCadd (w : BitVec 32) (x : BitVec 8)
    (k : Guard → BitVec 3 → Bool → Src → Src → Scope → Bool → Instr) : Option Instr :=
  let e := ExtByte.parse x
  if e.onlyLat ∧ fld w 16 2 = 0 ∧ fld w 0 1 = 0 then
    (Src.ofA e.la (fld w 10 6)).bind fun a =>
    (Src.ofB e.lb (fld w 4 6)).map fun b =>
      k (.ofWord w) (fld w 19 3) (fld w 18 1 == 1) a b (.ofCode (fld w 2 2)) (fld w 1 1 == 1)
  else none
def decCwait (w : BitVec 32) (x : BitVec 8)
    (k : Guard → SReg → Src → Src → Scope → Bool → Bool → Instr) : Option Instr :=
  let e := ExtByte.parse x
  if e.onlyLat then
    (Src.ofA e.la (fld w 10 6)).bind fun a =>
    (Src.ofB e.lb (fld w 4 6)).map fun b =>
      k (.ofWord w) (fld w 16 6) a b (.ofCode (fld w 2 2)) (fld w 1 1 == 1) (fld w 0 1 == 1)
  else none
def decCrd (w : BitVec 32) (x : BitVec 8) (k : Guard → SReg → Src → Scope → Bool → Instr) : Option Instr :=
  let e := ExtByte.parse x
  if e.onlyLat ∧ e.lb = 0 ∧ fld w 4 6 = 0 ∧ fld w 0 1 = 0 then
    (Src.ofA e.la (fld w 10 6)).map fun a =>
      k (.ofWord w) (fld w 16 6) a (.ofCode (fld w 2 2)) (fld w 1 1 == 1)
  else none
def decFence (w : BitVec 32) (x : BitVec 8) (k : Guard → FenceKind → Scope → Instr) : Option Instr :=
  if fld w 8 14 = 0 ∧ (ExtByte.parse x).bare then
    (FenceKind.ofCode (fld w 6 2)).map fun f => k (.ofWord w) f (.ofCode (fld w 4 2))
  else none
def decGDA (w : BitVec 32) (x : BitVec 8) (k : Guard → SReg → Src → Instr) : Option Instr :=
  let e := ExtByte.parse x
  if e.onlyLat ∧ e.lb = 0 ∧ fld w 4 6 = 0 then
    (Src.ofA e.la (fld w 10 6)).map fun a => k (.ofWord w) (fld w 16 6) a
  else none

def vMask (w : BitVec 32) : MReg := fld w 23 3
def vUnit (w : BitVec 32) : Bool := fld w 22 1 == 1
def vType (w : BitVec 32) : ElemT := .ofCode (fld w 4 3)
def decV3 (ok : ElemT → Bool) (w : BitVec 32) (x : BitVec 8)
    (k : MReg → Bool → Mods → VReg → VSrc → VSrc → ElemT → Instr) : Option Instr :=
  let e := ExtByte.parse x
  if e.hi = 0 ∧ ok (vType w) then
    (VSrc.ofA e.la (fld w 12 5)).bind fun a =>
    (VSrc.ofB e.lb (fld w 7 5)).map fun b => k (vMask w) (vUnit w) ⟨e.nw, e.tv⟩ (fld w 17 5) a b (vType w)
  else none
def decV2 (ok : ElemT → Bool) (w : BitVec 32) (x : BitVec 8)
    (k : MReg → Bool → Mods → VReg → VSrc → ElemT → Instr) : Option Instr :=
  let e := ExtByte.parse x
  if e.hi = 0 ∧ e.lb = 0 ∧ fld w 7 5 = 0 ∧ ok (vType w) then
    (VSrc.ofA e.la (fld w 12 5)).map fun a => k (vMask w) (vUnit w) ⟨e.nw, e.tv⟩ (fld w 17 5) a (vType w)
  else none
def decVcmp (ok : ElemT → Bool) (w : BitVec 32) (x : BitVec 8)
    (k : MReg → Bool → Bool → MReg → BitVec 2 → VSrc → VSrc → ElemT → Instr) : Option Instr :=
  let e := ExtByte.parse x
  if e.hi = 0 ∧ e.nw = false ∧ ok (vType w) then
    (VSrc.ofA e.la (fld w 12 5)).bind fun a =>
    (VSrc.ofB e.lb (fld w 7 5)).map fun b =>
      k (vMask w) (vUnit w) e.tv (fld w 19 3) (fld w 17 2) a b (vType w)
  else none
/-- Mask operations on three masks: type b8, mask field m0, no destination m0 (R209). -/
def decMMM (w : BitVec 32) (x : BitVec 8) (k : Bool → Bool → MReg → MReg → MReg → Instr) : Option Instr :=
  let e := ExtByte.parse x
  if e.hi = 0 ∧ e.nw = false ∧ e.la = 0 ∧ e.lb = 0 ∧ vMask w = 0 ∧ fld w 4 3 = 0 ∧ fld w 20 2 = 0 ∧ fld w 15 2 = 0 ∧
      fld w 10 2 = 0 ∧ fld w 17 3 ≠ 0 then
    some (k (vUnit w) e.tv (fld w 17 3) (fld w 12 3) (fld w 7 3))
  else none
def decMM (w : BitVec 32) (x : BitVec 8) (k : Bool → Bool → MReg → MReg → Instr) : Option Instr :=
  if fld w 7 5 = 0 then decMMM w x fun u tv d a _ => k u tv d a else none
def decMpop (w : BitVec 32) (x : BitVec 8) (k : MReg → Bool → Bool → BitVec 5 → MReg → ElemT → Instr) :
    Option Instr :=
  let e := ExtByte.parse x
  if e.hi = 0 ∧ e.nw = false ∧ e.la = 0 ∧ e.lb = 0 ∧ fld w 15 2 = 0 ∧ fld w 7 5 = 0 ∧ (vType w).isInt then
    some (k (vMask w) (vUnit w) e.tv (fld w 17 5) (fld w 12 3) (vType w))
  else none
def decMfroms (w : BitVec 32) (x : BitVec 8) (k : Bool → Bool → MReg → VSrc → ElemT → Instr) : Option Instr :=
  let e := ExtByte.parse x
  if e.hi = 0 ∧ e.nw = false ∧ e.lb = 0 ∧ vMask w = 0 ∧ fld w 20 2 = 0 ∧ fld w 7 5 = 0 ∧ fld w 17 3 ≠ 0 ∧
      (vType w).isInt then
    (VSrc.ofA e.la (fld w 12 5)).map fun a => k (vUnit w) e.tv (fld w 17 3) a (vType w)
  else none
/-- `vext` takes no mask and no NW (R202, R210). -/
def decVext (w : BitVec 32) (x : BitVec 8) (k : Bool → Bool → BitVec 5 → VSrc → VSrc → ElemT → Instr) :
    Option Instr :=
  let e := ExtByte.parse x
  if e.hi = 0 ∧ e.nw = false ∧ vMask w = 0 ∧ (vType w).isInt then
    (VSrc.ofA e.la (fld w 12 5)).bind fun a =>
    (VSrc.ofB e.lb (fld w 7 5)).map fun b => k (vUnit w) e.tv (fld w 17 5) a b (vType w)
  else none
def decVcompress (w : BitVec 32) (x : BitVec 8)
    (k : MReg → Bool → Mods → VReg → VSrc → BitVec 5 → ElemT → Instr) : Option Instr :=
  let e := ExtByte.parse x
  if e.hi = 0 ∧ e.lb = 0 ∧ (vType w).isInt then
    (VSrc.ofA e.la (fld w 12 5)).map fun a =>
      k (vMask w) (vUnit w) ⟨e.nw, e.tv⟩ (fld w 17 5) a (fld w 7 5) (vType w)
  else none
def decViota (w : BitVec 32) (x : BitVec 8) (k : MReg → Bool → Mods → VReg → ElemT → Instr) : Option Instr :=
  let e := ExtByte.parse x
  if e.hi = 0 ∧ e.la = 0 ∧ e.lb = 0 ∧ fld w 7 10 = 0 ∧ (vType w).isInt then
    some (k (vMask w) (vUnit w) ⟨e.nw, e.tv⟩ (fld w 17 5) (vType w))
  else none
/-- The part must be less than the ratio of the widths (R213). -/
def vcvtPartOk (s d : ElemT) (p : Nat) : Bool := p < max s.bytes d.bytes / min s.bytes d.bytes
def decVcvt (w : BitVec 32) (x : BitVec 8)
    (k : MReg → Bool → Mods → VReg → VSrc → BitVec 2 → ElemT → ElemT → Instr) : Option Instr :=
  let e := ExtByte.parse x
  let d := ElemT.ofCode (fld w 0 3)
  if e.hi = 0 ∧ e.lb = 0 ∧ fld w 9 3 = 0 ∧ vcvtPartOk (vType w) d (fld w 7 2).toNat then
    (VSrc.ofA e.la (fld w 12 5)).map fun a =>
      k (vMask w) (vUnit w) ⟨e.nw, e.tv⟩ (fld w 17 5) a (fld w 7 2) (vType w) d
  else none
def decVqmx (w : BitVec 32) (x : BitVec 8) (k : MReg → Bool → Mods → VReg → VSrc → BitVec 5 → Instr) :
    Option Instr :=
  let e := ExtByte.parse x
  if e.hi = 0 ∧ e.lb = 0 ∧ fld w 4 3 = 5 then
    (VSrc.ofA e.la (fld w 12 5)).map fun a => k (vMask w) (vUnit w) ⟨e.nw, e.tv⟩ (fld w 17 5) a (fld w 7 5)
  else none
/-- Two sources with the type field fixed at ty. -/
def decVdqmx (ty : BitVec 3) (w : BitVec 32) (x : BitVec 8)
    (k : MReg → Bool → Mods → VReg → VSrc → VSrc → Instr) : Option Instr :=
  let e := ExtByte.parse x
  if e.hi = 0 ∧ fld w 4 3 = ty then
    (VSrc.ofA e.la (fld w 12 5)).bind fun a =>
    (VSrc.ofB e.lb (fld w 7 5)).map fun b => k (vMask w) (vUnit w) ⟨e.nw, e.tv⟩ (fld w 17 5) a b
  else none
def decVsplati (w : BitVec 32) (x : BitVec 8) (k : MReg → Bool → Mods → VReg → BitVec 17 → ElemT → Instr) :
    Option Instr :=
  let e := ExtByte.parse x
  if e.la = 0 ∧ e.lb = 0 ∧ (vType w).isInt then
    some (k (vMask w) (vUnit w) ⟨e.nw, e.tv⟩ (fld w 17 5) (widenS e.hi (fld w 7 10)) (vType w))
  else none
def decVld (w : BitVec 32) (x : BitVec 8) (c : MReg → Bool → VReg → Src → Instr)
    (s s16 : MReg → Bool → VReg → Src → Src → Instr) (g : MReg → Bool → VReg → Src → VSrc → Instr) : Option Instr :=
  let e := ExtByte.parse x
  if e.onlyLat ∧ fld w 0 3 = 0 then
    (Src.ofA e.la (fld w 11 6)).bind fun a =>
      match (fld w 3 2).toNat with
      | 0 => if fld w 5 6 = 0 ∧ e.lb = 0 then some (c (vMask w) (vUnit w) (fld w 17 5) a) else none
      | 1 => (Src.ofB e.lb (fld w 5 6)).map fun b => s (vMask w) (vUnit w) (fld w 17 5) a b
      | 2 => if fld w 10 1 = 0 then (VSrc.ofB e.lb (fld w 5 5)).map fun b => g (vMask w) (vUnit w) (fld w 17 5) a b
             else none
      | _ => (Src.ofB e.lb (fld w 5 6)).map fun b => s16 (vMask w) (vUnit w) (fld w 17 5) a b
  else none
def decVst (w : BitVec 32) (x : BitVec 8) (c : MReg → Bool → VReg → Src → BitVec 3 → Instr)
    (s s16 : MReg → Bool → VReg → Src → Src → BitVec 3 → Instr)
    (g : MReg → Bool → VReg → Src → VSrc → BitVec 3 → Instr) : Option Instr :=
  let e := ExtByte.parse x
  if e.onlyLat then
    (Src.ofA e.la (fld w 11 6)).bind fun a =>
      match (fld w 3 2).toNat with
      | 0 => if fld w 5 6 = 0 ∧ e.lb = 0 then some (c (vMask w) (vUnit w) (fld w 17 5) a (fld w 0 3)) else none
      | 1 => (Src.ofB e.lb (fld w 5 6)).map fun b => s (vMask w) (vUnit w) (fld w 17 5) a b (fld w 0 3)
      | 2 => if fld w 10 1 = 0 then
               (VSrc.ofB e.lb (fld w 5 5)).map fun b => g (vMask w) (vUnit w) (fld w 17 5) a b (fld w 0 3)
             else none
      | _ => (Src.ofB e.lb (fld w 5 6)).map fun b => s16 (vMask w) (vUnit w) (fld w 17 5) a b (fld w 0 3)
  else none

/-! M and C slots accept only the extension byte 0x00 (R36). -/
def decGABC (w : BitVec 32) (x : BitVec 8) (k : Guard → SReg → SReg → SReg → Instr) : Option Instr :=
  if x = 0 then some (k (.ofWord w) (fld w 16 6) (fld w 10 6) (fld w 4 6)) else none
def decGAB (w : BitVec 32) (x : BitVec 8) (k : Guard → SReg → SReg → Instr) : Option Instr :=
  if fld w 4 6 = 0 then decGABC w x fun g a b _ => k g a b else none
def decGA (w : BitVec 32) (x : BitVec 8) (k : Guard → SReg → Instr) : Option Instr :=
  if fld w 4 12 = 0 then decGABC w x fun g a _ _ => k g a else none
/-- A c field of 60 to 63 would run past s63 (R298, R314). -/
def decGABC5 (w : BitVec 32) (x : BitVec 8) (k : Guard → SReg → SReg → SReg → Instr) : Option Instr :=
  if (fld w 4 6).toNat ≤ 59 then decGABC w x k else none
def decGAC5 (w : BitVec 32) (x : BitVec 8) (k : Guard → SReg → SReg → Instr) : Option Instr :=
  if fld w 10 6 = 0 then decGABC5 w x fun g a _ c => k g a c else none
/-- CMMA (R288): without MSK c is zero; with MSK c is 1 to 61. -/
def decCmma (w : BitVec 32) (x : BitVec 8) (k : Guard → SReg → SReg → Bool → Bool → Bool → Instr)
    (km : Guard → SReg → SReg → SReg → Bool → Bool → Bool → Instr) : Option Instr :=
  let c := fld w 4 6
  if x = 0 then
    if fld w 3 1 = 0 then
      if c = 0 then some (k (.ofWord w) (fld w 16 6) (fld w 10 6) (fld w 2 1 == 1) (fld w 1 1 == 1) (fld w 0 1 == 1))
      else none
    else if c ≠ 0 ∧ c.toNat ≤ 61 then
      some (km (.ofWord w) (fld w 16 6) (fld w 10 6) c (fld w 2 1 == 1) (fld w 1 1 == 1) (fld w 0 1 == 1))
    else none
  else none
/-- A copy command whose descriptor group has n registers (R256). -/
def decCpy (n : Nat) (w : BitVec 32) (x : BitVec 8) (k : Guard → SReg → SReg → SReg → Bool → Instr) : Option Instr :=
  if (fld w 16 6).toNat + n ≤ 64 then decGABC w x fun g a b c => k g a b c (fld w 3 1 == 1) else none
def decBlk (w : BitVec 32) (x : BitVec 8) (k : Guard → SReg → SReg → SReg → Instr) : Option Instr :=
  if (fld w 16 6).toNat + 4 ≤ 64 then decGABC w x k else none


/-! ### The function codes of each major (R48)

Lean's code generator numbers at most 245 constructors that carry fields, and the table has more rows than that, so the
functions that build an instruction have no compiled code; the kernel evaluates them. -/

noncomputable section

def majorSys (w : BitVec 32) (x : BitVec 8) : Option Instr :=
  match (fld w 0 4).toNat with
  | 1 => decNop w x .nop
  | 2 => decG w x .halt
  | 3 => decG w x .yield
  | 4 => decTrap w x .trap
  | 5 => decG w x .eret
  | 6 => decG w x .iflush
  | 7 => decTlbi w x .tlbi
  | 8 => decGD w x .noise
  | 9 => decGD w x .cyc
  | 10 => decGD w x .self
  | 11 => decG w x .brk
  | _ => none

def majorAlu (w : BitVec 32) (x : BitVec 8) : Option Instr :=
  match (fld w 0 4).toNat with
  | 0 => decRRR w x .add
  | 1 => decRRR w x .sub
  | 2 => decRRR w x .and
  | 3 => decRRR w x .or
  | 4 => decRRR w x .xor
  | 5 => decRRR w x .andn
  | 6 => decRRR w x .orn
  | 7 => decRRR w x .shl
  | 8 => decRRR w x .shr
  | 9 => decRRR w x .sar
  | 10 => decRRR w x .rol
  | 11 => decRRR w x .min
  | 12 => decRRR w x .max
  | 13 => decRRR w x .minn
  | 14 => decRRR w x .maxn
  | _ => decRRR w x .ror

def majorAlu2 (w : BitVec 32) (x : BitVec 8) : Option Instr :=
  match (fld w 0 4).toNat with
  | 0 => decRRR w x .mul
  | 1 => decRRR w x .mulh
  | 2 => decRRR w x .mulhn
  | 3 => decRRR w x .div
  | 4 => decRRR w x .divn
  | 5 => decRRR w x .rem
  | 6 => decRRR w x .remn
  | 7 => decRR w x .popc
  | 8 => decRR w x .clz
  | 9 => decRR w x .ctz
  | 10 => decRR w x .brev
  | 11 => decRR w x .bswap
  | 12 => decRR w x .abs
  | 13 => decRRR w x .sext
  | 14 => decRRR w x .zext
  | _ => none

def majorBitf (w : BitVec 32) (x : BitVec 8) : Option Instr :=
  match (fld w 0 4).toNat with
  | 0 => decRRR w x .bfxs
  | 1 => decRRR w x .bfxn
  | 2 => decRRR w x .bfi
  | 3 => decRRR w x .fshl
  | 4 => decRRR w x .fshr
  | _ => none

def majorFpu (w : BitVec 32) (x : BitVec 8) : Option Instr :=
  match (fld w 0 4).toNat with
  | 0 => decRRR w x .fadd
  | 1 => decRRR w x .fsub
  | 2 => decRRR w x .fmul
  | 3 => decRRR w x .ffma
  | 4 => decRRR w x .fmin
  | 5 => decRRR w x .fmax
  | 6 => decRR w x .fabs
  | 7 => decRR w x .fneg
  | 8 => decRR w x .fcvtif
  | 9 => decRR w x .fcvtnf
  | 10 => decRR w x .fcvtfi
  | 11 => decRR w x .fcvtfn
  | 12 => decRR w x .fsqrt
  | _ => none

def majorAlui (w : BitVec 32) (x : BitVec 8) : Option Instr :=
  match (fld w 7 3).toNat with
  | 0 => decRRI w x .addi
  | 1 => decRRI w x .andi
  | 2 => decRRI w x .ori
  | 3 => decRRI w x .xori
  | 4 => decRRI w x .shli
  | 5 => decRRI w x .shri
  | 6 => decRRI w x .sari
  | _ => decRRI w x .muli

def majorCtrl (w : BitVec 32) (x : BitVec 8) : Option Instr :=
  match (fld w 0 4).toNat with
  | 0 => decJr w x .jr
  | 1 => decJr w x .jrl
  | 2 => decPPP w x .pand
  | 3 => decPPP w x .por
  | 4 => decPPP w x .pxor
  | 5 => decPPP w x .pandn
  | 6 => decJr w x .pmovs
  | 7 => decGD w x .pmovp
  | 8 => decG w x .lpop
  | _ => none

def majorAmo (w : BitVec 32) (x : BitVec 8) : Option Instr :=
  match (fld w 0 4).toNat with
  | 0 => decGDAB w x .amoAdd
  | 1 => decGDAB w x .amoAnd
  | 2 => decGDAB w x .amoOr
  | 3 => decGDAB w x .amoXor
  | 4 => decGDAB w x .amoMin
  | 5 => decGDAB w x .amoMax
  | 6 => decGDAB w x .amoMinn
  | 7 => decGDAB w x .amoMaxn
  | 8 => decGDAB w x .amoSwap
  | 9 => decCas w x .amoCas
  | _ => none

def majorAmow (w : BitVec 32) (x : BitVec 8) : Option Instr :=
  match (fld w 0 4).toNat with
  | 0 => decGDAB w x .amowAdd
  | 1 => decGDAB w x .amowAnd
  | 2 => decGDAB w x .amowOr
  | 3 => decGDAB w x .amowXor
  | 4 => decGDAB w x .amowMin
  | 5 => decGDAB w x .amowMax
  | 6 => decGDAB w x .amowMinn
  | 7 => decGDAB w x .amowMaxn
  | 8 => decGDAB w x .amowSwap
  | 9 => decCas w x .amowCas
  | 10 => decGDAB w x .amowFadd
  | 11 => decGDAB w x .amowFmax
  | _ => none

def majorReds (w : BitVec 32) (x : BitVec 8) : Option Instr :=
  match (fld w 0 4).toNat with
  | 0 => decRed w x .redAdd
  | 1 => decRed w x .redAnd
  | 2 => decRed w x .redOr
  | 3 => decRed w x .redXor
  | 4 => decRed w x .redMin
  | 5 => decRed w x .redMax
  | 6 => decRed w x .redMinn
  | 7 => decRed w x .redMaxn
  | 10 => decRedF w x .redFadd
  | 11 => decRedF w x .redFmax
  | _ => none

def majorSync (w : BitVec 32) (x : BitVec 8) : Option Instr :=
  match (fld w 0 4).toNat with
  | 0 => decFence w x .fence
  | 1 => decTrap w x .qfence
  | 2 => decGDAB w x .bind
  | 3 => decGDAB w x .unbind
  | 4 => decGDA w x .join
  | 5 => decGDA w x .leave
  | 6 => decGDAB w x .launch
  | 7 => decGDA w x .trninfo
  | _ => none

def majorVia (w : BitVec 32) (x : BitVec 8) : Option Instr :=
  match (fld w 0 4).toNat with
  | 0 => decV3 ElemT.isInt w x .vadd
  | 1 => decV3 ElemT.isInt w x .vsub
  | 2 => decV3 ElemT.isInt w x .vadds
  | 3 => decV3 ElemT.isInt w x .vsubs
  | 4 => decV3 ElemT.isInt w x .vaddsn
  | 5 => decV3 ElemT.isInt w x .vsubsn
  | 6 => decV3 ElemT.isInt w x .vmul
  | 7 => decV3 ElemT.isInt w x .vmulh
  | 8 => decV3 ElemT.isInt w x .vmulhn
  | 9 => decV3 ElemT.isInt w x .vmin
  | 10 => decV3 ElemT.isInt w x .vmax
  | 11 => decV3 ElemT.isInt w x .vminn
  | 12 => decV3 ElemT.isInt w x .vmaxn
  | 13 => decV2 ElemT.isInt w x .vabs
  | 14 => decV2 ElemT.isInt w x .vneg
  | _ => decV3 ElemT.isInt w x .vavgn

def majorVlg (w : BitVec 32) (x : BitVec 8) : Option Instr :=
  match (fld w 0 4).toNat with
  | 0 => decV3 ElemT.isInt w x .vand
  | 1 => decV3 ElemT.isInt w x .vor
  | 2 => decV3 ElemT.isInt w x .vxor
  | 3 => decV3 ElemT.isInt w x .vandn
  | 4 => decV2 ElemT.isInt w x .vnot
  | 5 => decV3 ElemT.isInt w x .vshl
  | 6 => decV3 ElemT.isInt w x .vshr
  | 7 => decV3 ElemT.isInt w x .vsar
  | 8 => decV3 ElemT.isInt w x .vrol
  | 9 => decV3 ElemT.isInt16 w x .vbfxs
  | 10 => decV3 ElemT.isInt16 w x .vbfxn
  | 11 => decV3 ElemT.isInt16 w x .vbfi
  | 12 => decV2 ElemT.isInt w x .vpopc
  | 13 => decV2 ElemT.isInt w x .vclz
  | _ => none

def majorVfa (w : BitVec 32) (x : BitVec 8) : Option Instr :=
  match (fld w 0 4).toNat with
  | 0 => decV3 ElemT.isFloat w x .vfadd
  | 1 => decV3 ElemT.isFloat w x .vfsub
  | 2 => decV3 ElemT.isFloat w x .vfmul
  | 3 => decV3 ElemT.isFloat w x .vffma
  | 4 => decV3 ElemT.isFloat w x .vfmin
  | 5 => decV3 ElemT.isFloat w x .vfmax
  | 6 => decV2 ElemT.isFloat w x .vfabs
  | 7 => decV2 ElemT.isFloat w x .vfneg
  | 8 => decV3 ElemT.isFloat w x .vfcpsgn
  | 9 => decV3 ElemT.isFloat w x .vfmaxabs
  | _ => none

def majorVsfu (w : BitVec 32) (x : BitVec 8) : Option Instr :=
  match (fld w 0 4).toNat with
  | 0 => decV2 ElemT.isSfu w x .vexp2
  | 1 => decV2 ElemT.isSfu w x .vlog2
  | 2 => decV2 ElemT.isSfu w x .vrcp
  | 3 => decV2 ElemT.isSfu w x .vrsq
  | 4 => decV2 ElemT.isSfu w x .vsqrt
  | 5 => decV2 ElemT.isSfu w x .vtanh
  | 6 => decV2 ElemT.isSfu w x .vsigm
  | _ => none

def majorVcmps (w : BitVec 32) (x : BitVec 8) : Option Instr :=
  match (fld w 0 4).toNat with
  | 0 => decVcmp ElemT.isInt w x .vcmpeq
  | 1 => decVcmp ElemT.isInt w x .vcmpne
  | 2 => decVcmp ElemT.isInt w x .vcmplt
  | 3 => decVcmp ElemT.isInt w x .vcmple
  | 4 => decVcmp ElemT.isInt w x .vcmpltn
  | 5 => decVcmp ElemT.isInt w x .vcmplen
  | 6 => decVcmp ElemT.isFloat w x .vfcmpeq
  | 7 => decVcmp ElemT.isFloat w x .vfcmplt
  | 8 => decVcmp ElemT.isFloat w x .vfcmple
  | 9 => decVcmp ElemT.isFloat w x .vfcmpun
  | _ => none

def majorVmsk (w : BitVec 32) (x : BitVec 8) : Option Instr :=
  match (fld w 0 4).toNat with
  | 0 => decMMM w x .mand
  | 1 => decMMM w x .mor
  | 2 => decMMM w x .mxor
  | 3 => decMMM w x .mandn
  | 4 => decMM w x .mnot
  | 5 => decMpop w x .mpop
  | 6 => decMpop w x .mfirst
  | 7 => decMfroms w x .mfroms
  | 8 => decMfroms w x .mlanes
  | _ => none

def majorVprm (w : BitVec 32) (x : BitVec 8) : Option Instr :=
  match (fld w 0 4).toNat with
  | 0 => decV3 ElemT.isInt w x .vperm
  | 1 => decV3 ElemT.isInt w x .vbcast
  | 2 => decVext w x .vext
  | 3 => decV3 ElemT.isInt w x .vins
  | 4 => decVcompress w x .vcompress
  | 5 => decV2 ElemT.isInt w x .vexpand
  | 6 => decV3 ElemT.isInt w x .vslideup
  | 7 => decV3 ElemT.isInt w x .vslidedn
  | 8 => decV3 ElemT.isInt w x .vzipl
  | 9 => decV3 ElemT.isInt w x .vziph
  | 10 => decV3 ElemT.isInt w x .vunzipe
  | 11 => decV3 ElemT.isInt w x .vunzipo
  | 12 => decViota w x .viota
  | 13 => decV2 ElemT.isInt w x .vrev
  | _ => none

def majorVred (w : BitVec 32) (x : BitVec 8) : Option Instr :=
  match (fld w 0 4).toNat with
  | 0 => decV2 ElemT.isInt w x .vredadd
  | 1 => decV2 ElemT.isInt w x .vredmin
  | 2 => decV2 ElemT.isInt w x .vredmax
  | 3 => decV2 ElemT.isInt w x .vredminn
  | 4 => decV2 ElemT.isInt w x .vredmaxn
  | 5 => decV2 ElemT.isFloat w x .vfredadd
  | 6 => decV2 ElemT.isFloat w x .vfredmin
  | 7 => decV2 ElemT.isFloat w x .vfredmax
  | _ => none

def majorVqmxs (w : BitVec 32) (x : BitVec 8) : Option Instr :=
  match (fld w 0 4).toNat with
  | 0 => decVqmx w x .vqmx8
  | 1 => decVqmx w x .vqmx6
  | 2 => decVqmx w x .vqmx4
  | 3 => decVdqmx 5 w x .vdqmx8
  | 4 => decVdqmx 5 w x .vdqmx6
  | 5 => decVdqmx 5 w x .vdqmx4
  | 8 => decVqmx w x .vqmx8sr
  | 9 => decVqmx w x .vqmx6sr
  | 10 => decVqmx w x .vqmx4sr
  | _ => none

def majorVmov (w : BitVec 32) (x : BitVec 8) : Option Instr :=
  match (fld w 0 4).toNat with
  | 0 => decV2 ElemT.isInt w x .vmov
  | 1 => decV3 ElemT.isInt w x .vsel
  | 2 => decVsplati w x .vsplati
  | 3 => decViota w x .vnoise
  | _ => none

def majorVdot (w : BitVec 32) (x : BitVec 8) : Option Instr :=
  match (fld w 0 4).toNat with
  | 0 => decVdqmx 0 w x .vdot4
  | 1 => decVdqmx 0 w x .vdot4n
  | 2 => decVdqmx 4 w x .vdot2
  | 3 => decVdqmx 3 w x .vdot2h
  | _ => none

def majorCrot (w : BitVec 32) (x : BitVec 8) : Option Instr :=
  match (fld w 0 4).toNat with
  | 0 => decGA w x .crotH32
  | 1 => decGA w x .crotH64
  | _ => none

def majorCdrain (w : BitVec 32) (x : BitVec 8) : Option Instr :=
  match (fld w 0 4).toNat with
  | 0 => decGABC5 w x .cdrain
  | 1 => decGABC5 w x .cdrainP
  | _ => none

def majorCacc (w : BitVec 32) (x : BitVec 8) : Option Instr :=
  match (fld w 0 4).toNat with
  | 0 => decGAC5 w x .caccZero
  | 1 => decGABC5 w x .caccLd
  | 2 => decGABC5 w x .caccSt
  | 3 => decGABC5 w x .caccMove
  | _ => none

def majorCspl (w : BitVec 32) (x : BitVec 8) : Option Instr :=
  match (fld w 0 4).toNat with
  | 0 => decGABC w x .csplDef
  | 1 => decGAB w x .csplAdvp
  | 2 => decGAB w x .csplAdvc
  | 3 => decGAB w x .csplRdp
  | 4 => decGA w x .csplReset
  | _ => none

def majorCpal (w : BitVec 32) (x : BitVec 8) : Option Instr :=
  match (fld w 0 4).toNat with
  | 0 => decGAB w x .cpalSet
  | 1 => decGAB w x .cpalGet
  | _ => none

def majorCsync (w : BitVec 32) (x : BitVec 8) : Option Instr :=
  match (fld w 0 4).toNat with
  | 0 => decGABC w x .csyncJoin
  | 1 => decGA w x .csyncStat
  | 2 => decGA w x .csyncSkew
  | _ => none

def majorCrcp (w : BitVec 32) (x : BitVec 8) : Option Instr :=
  match (fld w 0 4).toNat with
  | 0 => decGABC w x .crcpDef
  | 1 => decGAB w x .crcpGet
  | _ => none

def majorCpys (w : BitVec 32) (x : BitVec 8) : Option Instr :=
  match (fld w 0 3).toNat with
  | 0 => decCpy 4 w x .cpyLin
  | 1 => decCpy 4 w x .cpyTwod
  | 2 => decCpy 6 w x .cpyThreed
  | 3 => decCpy 4 w x .cpyFill
  | 4 => decCpy 4 w x .cpyLsplit
  | 5 => decCpy 4 w x .cpyLgath
  | 6 => decCpy 4 w x .cpyMcast
  | _ => decCpy 4 w x .cpyPfetch

def majorCgth (w : BitVec 32) (x : BitVec 8) : Option Instr :=
  match (fld w 0 3).toNat with
  | 0 => decCpy 4 w x .cgthGather
  | 1 => decCpy 4 w x .cgthScatter
  | 2 => decCpy 4 w x .cgthGatheradd
  | _ => none

def majorCred (w : BitVec 32) (x : BitVec 8) : Option Instr :=
  match (fld w 0 3).toNat with
  | 0 => decCpy 4 w x .credAddf32
  | 1 => decCpy 4 w x .credAddbf16
  | 2 => decCpy 4 w x .credMaxf32
  | 3 => decCpy 4 w x .credAddi32
  | _ => none

def majorBlks (w : BitVec 32) (x : BitVec 8) : Option Instr :=
  match (fld w 0 4).toNat with
  | 0 => decBlk w x .blkAlloc
  | 1 => decBlk w x .blkFree
  | 2 => decBlk w x .blkShare
  | 3 => decBlk w x .blkXlate
  | 4 => decBlk w x .blkFetch
  | 5 => decBlk w x .blkAppend
  | 6 => decBlk w x .blkStat
  | _ => none

/-- The instruction that a slot value with its extension byte stands for (R33 to R48); none for a reserved encoding, for
the slot value zero and for a header. -/
def decodeSlot (w : BitVec 32) (x : BitVec 8) : Option Instr :=
  match (fld w 26 6).toNat with
  | 0 => majorSys w x
  | 1 => decSysreg w x .sysrd .syswr
  | 2 => majorAlu w x
  | 3 => majorAlu2 w x
  | 4 => majorBitf w x
  | 5 => majorFpu w x
  | 6 => majorAlui w x
  | 7 => decMovi w x .movi
  | 8 => decMovhi w x .movhi
  | 9 => if fld w 12 1 = 0 then decCmpR w x .cmpeq else decCmpI true w x .cmpeqImm
  | 10 => if fld w 12 1 = 0 then decCmpR w x .cmpne else decCmpI true w x .cmpneImm
  | 11 => if fld w 12 1 = 0 then decCmpR w x .cmplt else decCmpI true w x .cmpltImm
  | 12 => if fld w 12 1 = 0 then decCmpR w x .cmple else decCmpI true w x .cmpleImm
  | 13 => if fld w 12 1 = 0 then decCmpR w x .cmpltn else decCmpI false w x .cmpltnImm
  | 14 => if fld w 12 1 = 0 then decCmpR w x .cmplen else decCmpI false w x .cmplenImm
  | 15 => if fld w 12 1 = 0 then decCmpR w x .fcmpeq else decCmpR w x .fcmplt
  | 16 => if fld w 12 1 = 0 then decCmpR w x .fcmple else decCmpR w x .fcmpun
  | 17 => decBr w x .br
  | 18 => decBr w x .brl
  | 19 => majorCtrl w x
  | 20 => decLoop w x .loop
  | 21 => decLoopi w x .loopi
  | 22 => decLd w x .ld
  | 23 => decSt w x .st
  | 24 => majorAmo w x
  | 25 => majorAmow w x
  | 26 => majorReds w x
  | 27 => decCadd w x .cadd
  | 28 => decCadd w x .cmax
  | 29 => decCwait w x .cwait
  | 30 => decCrd w x .crd
  | 31 => majorSync w x
  | 32 => majorVia w x
  | 33 => majorVlg w x
  | 34 => majorVfa w x
  | 35 => majorVsfu w x
  | 36 => majorVcmps w x
  | 37 => majorVmsk w x
  | 38 => majorVprm w x
  | 39 => majorVred w x
  | 40 => if fld w 3 1 = 0 then decVcvt w x .vcvt else decVcvt w x .vcvtsr
  | 41 => majorVqmxs w x
  | 42 => decVld w x .vld .vldStrided .vldStrided16 .vldGather
  | 43 => decVst w x .vst .vstStrided .vstStrided16 .vstScatter
  | 44 => majorVmov w x
  | 45 => majorVdot w x
  | 48 => decCmma w x .cmma .cmmaMsk
  | 49 => majorCrot w x
  | 50 => majorCdrain w x
  | 51 => majorCacc w x
  | 52 => majorCspl w x
  | 53 => majorCpal w x
  | 54 => majorCsync w x
  | 55 => majorCrcp w x
  | 56 => majorCpys w x
  | 57 => majorCgth w x
  | 58 => majorCred w x
  | 59 => majorBlks w x
  | _ => none

end

/-! ### The encoder -/

/-- A slot value and its extension byte. -/
structure SlotWord where
  word : BitVec 32
  ext : BitVec 8
deriving DecidableEq, Repr

def bit (b : Bool) : BitVec 1 := BitVec.ofBool b
/-- The extension byte of a signed immediate (R54): none if it fits its field unextended, and then the modifiers. -/
def extS {n : Nat} (imm : BitVec (7 + n)) (m : BitVec 8) : BitVec 8 :=
  if imm = (imm.setWidth n).signExtend (7 + n) then m else immByte (imm.extractLsb' n 7)
def extU {n : Nat} (imm : BitVec (7 + n)) (m : BitVec 8) : BitVec 8 :=
  if imm = (imm.setWidth n).setWidth (7 + n) then m else immByte (imm.extractLsb' n 7)

/-- Format SR, and every scalar format with fields d, a, b and a four-bit code. -/
def encSR (maj : BitVec 6) (g : Guard) (d a b : BitVec 6) (fn : BitVec 4) : BitVec 32 := maj ++ g.bits ++ d ++ a ++ b ++ fn
def encG (maj : BitVec 6) (fn : BitVec 4) (g : Guard) : SlotWord := ⟨encSR maj g 0 0 0 fn, 0⟩
def encGB (maj : BitVec 6) (fn : BitVec 4) (g : Guard) (b : BitVec 6) : SlotWord := ⟨encSR maj g 0 0 b fn, 0⟩
def encTlbi (maj : BitVec 6) (fn : BitVec 4) (g : Guard) (d : SReg) (a : Src) (c : BitVec 6) : SlotWord :=
  ⟨encSR maj g d a.field c fn, modByte false false a.la 0⟩
def encGD (maj : BitVec 6) (fn : BitVec 4) (g : Guard) (d : SReg) : SlotWord := ⟨encSR maj g d 0 0 fn, 0⟩
def encSysreg (dir : Bool) (g : Guard) (r : SReg) (n : BitVec 12) : SlotWord :=
  ⟨(1 : BitVec 6) ++ g.bits ++ r ++ bit dir ++ (0 : BitVec 3) ++ n, 0⟩
def encRRR (maj : BitVec 6) (fn : BitVec 4) (g : Guard) (m : Mods) (d : SReg) (a b : Src) : SlotWord :=
  ⟨encSR maj g d a.field b.field fn, modByte m.nw m.tv a.la b.lb⟩
def encRR (maj : BitVec 6) (fn : BitVec 4) (g : Guard) (m : Mods) (d : SReg) (a : Src) : SlotWord :=
  ⟨encSR maj g d a.field 0 fn, modByte m.nw m.tv a.la 0⟩
def encRRI (sub : BitVec 3) (g : Guard) (m : Mods) (d : SReg) (a : Src) (imm : BitVec 14) : SlotWord :=
  ⟨(6 : BitVec 6) ++ g.bits ++ d ++ a.field ++ sub ++ imm.setWidth 7, extS (n := 7) imm (modByte m.nw m.tv a.la 0)⟩
def encMovi (g : Guard) (m : Mods) (d : SReg) (imm : BitVec 23) : SlotWord :=
  ⟨(7 : BitVec 6) ++ g.bits ++ d ++ imm.setWidth 16, extS (n := 16) imm (modByte m.nw m.tv 0 0)⟩
def encMovhi (g : Guard) (m : Mods) (d : SReg) (imm : BitVec 23) : SlotWord :=
  ⟨(8 : BitVec 6) ++ g.bits ++ d ++ imm.setWidth 16, extU (n := 16) imm (modByte m.nw m.tv 0 0)⟩
def encSC (maj : BitVec 6) (sel : Bool) (g : Guard) (ct : Comb) (p q : PReg) (a b : BitVec 6) : BitVec 32 :=
  maj ++ g.bits ++ ct.code ++ p ++ q ++ bit sel ++ a ++ b
def encCmpR (maj : BitVec 6) (sel : Bool) (g : Guard) (tv : Bool) (ct : Comb) (p q : PReg) (a b : Src) : SlotWord :=
  ⟨encSC maj sel g ct p q a.field b.field, modByte false tv a.la b.lb⟩
def encCmpI (maj : BitVec 6) (g : Guard) (tv : Bool) (ct : Comb) (p q : PReg) (a : Src) (imm : BitVec 13) : SlotWord :=
  ⟨encSC maj true g ct p q a.field (imm.setWidth 6), extS (n := 6) imm (modByte false tv a.la 0)⟩
def encCmpIn (maj : BitVec 6) (g : Guard) (tv : Bool) (ct : Comb) (p q : PReg) (a : Src) (imm : BitVec 13) : SlotWord :=
  ⟨encSC maj true g ct p q a.field (imm.setWidth 6), extU (n := 6) imm (modByte false tv a.la 0)⟩
def encBr (maj : BitVec 6) (g : Guard) (disp : BitVec 29) : SlotWord :=
  ⟨maj ++ g.bits ++ disp.setWidth 22, extS (n := 22) disp 0⟩
def encGA' (maj : BitVec 6) (fn : BitVec 4) (g : Guard) (a : Src) : SlotWord :=
  ⟨encSR maj g 0 a.field 0 fn, modByte false false a.la 0⟩
def encPPP (fn : BitVec 4) (g : Guard) (d a b : PReg) : SlotWord :=
  ⟨encSR 0x13 g ((0 : BitVec 3) ++ d) ((0 : BitVec 3) ++ a) ((0 : BitVec 3) ++ b) fn, 0⟩
def encLoop (g : Guard) (c : SReg) (e : BitVec 21) : SlotWord :=
  ⟨(0x14 : BitVec 6) ++ g.bits ++ c ++ (0 : BitVec 2) ++ e.setWidth 14, extU (n := 14) e 0⟩
def encLoopi (g : Guard) (n : BitVec 19) (e : BitVec 10) : SlotWord :=
  ⟨(0x15 : BitVec 6) ++ g.bits ++ n.setWidth 12 ++ e, extU (n := 12) n 0⟩
def encLd (g : Guard) (nw : Bool) (d : SReg) (base : Src) (z : Size) (x : Bool) (off : BitVec 11) : SlotWord :=
  ⟨(0x16 : BitVec 6) ++ g.bits ++ d ++ base.field ++ z.code ++ bit x ++ (0 : BitVec 3) ++ off.setWidth 4,
    extS (n := 4) off (modByte nw false base.la 0)⟩
def encSt (g : Guard) (s : SReg) (base : Src) (z : Size) (glob : Bool) (line : BitVec 3) (off : BitVec 11) : SlotWord :=
  ⟨(0x17 : BitVec 6) ++ g.bits ++ s ++ base.field ++ z.code ++ bit glob ++ line ++ off.setWidth 4,
    extS (n := 4) off (modByte false false base.la 0)⟩
def encGDAB (maj : BitVec 6) (fn : BitVec 4) (g : Guard) (d : SReg) (a b : Src) : SlotWord :=
  ⟨encSR maj g d a.field b.field fn, modByte false false a.la b.lb⟩
def encRed (fn : BitVec 4) (g : Guard) (ord z : Bool) (a b : Src) : SlotWord :=
  ⟨encSR 0x1A g (bit ord ++ (0 : BitVec 2) ++ bit z ++ (0 : BitVec 2)) a.field b.field fn,
    modByte false false a.la b.lb⟩
def encRedF (fn : BitVec 4) (g : Guard) (ord : Bool) (a b : Src) : SlotWord := encRed fn g ord false a b
def encCadd (maj : BitVec 6) (g : Guard) (line : BitVec 3) (glob : Bool) (a b : Src) (sc : Scope) (rel : Bool) : SlotWord :=
  ⟨encSR maj g (line ++ bit glob ++ (0 : BitVec 2)) a.field b.field (sc.code ++ bit rel ++ (0 : BitVec 1)),
    modByte false false a.la b.lb⟩
def encCwait (g : Guard) (d : SReg) (a b : Src) (sc : Scope) (acq np : Bool) : SlotWord :=
  ⟨encSR 0x1D g d a.field b.field (sc.code ++ bit acq ++ bit np), modByte false false a.la b.lb⟩
def encCrd (g : Guard) (d : SReg) (a : Src) (sc : Scope) (acq : Bool) : SlotWord :=
  ⟨encSR 0x1E g d a.field 0 (sc.code ++ bit acq ++ (0 : BitVec 1)), modByte false false a.la 0⟩
def encFence (g : Guard) (k : FenceKind) (sc : Scope) : SlotWord := ⟨encSR 0x1F g 0 0 ((0 : BitVec 2) ++ k.code ++ sc.code) 0, 0⟩
def encGDA (maj : BitVec 6) (fn : BitVec 4) (g : Guard) (d : SReg) (a : Src) : SlotWord :=
  ⟨encSR maj g d a.field 0 fn, modByte false false a.la 0⟩

/-- The vector format (R46). -/
def encV (maj : BitVec 6) (k : MReg) (u : Bool) (d a b : BitVec 5) (t : BitVec 3) (fn : BitVec 4) : BitVec 32 :=
  maj ++ k ++ bit u ++ d ++ a ++ b ++ t ++ fn
def encV3 (maj : BitVec 6) (fn : BitVec 4) (k : MReg) (u : Bool) (m : Mods) (d : VReg) (a b : VSrc) (t : ElemT) : SlotWord :=
  ⟨encV maj k u d a.field b.field t.code fn, modByte m.nw m.tv a.la b.lb⟩
def encV2 (maj : BitVec 6) (fn : BitVec 4) (k : MReg) (u : Bool) (m : Mods) (d : VReg) (a : VSrc) (t : ElemT) : SlotWord :=
  ⟨encV maj k u d a.field 0 t.code fn, modByte m.nw m.tv a.la 0⟩
def encVcmp (fn : BitVec 4) (k : MReg) (u tv : Bool) (n : MReg) (c : BitVec 2) (a b : VSrc) (t : ElemT) : SlotWord :=
  ⟨encV 0x24 k u (n ++ c) a.field b.field t.code fn, modByte false tv a.la b.lb⟩
def encMMM (fn : BitVec 4) (u tv : Bool) (d a b : MReg) : SlotWord :=
  ⟨encV 0x25 0 u ((0 : BitVec 2) ++ d) ((0 : BitVec 2) ++ a) ((0 : BitVec 2) ++ b) 0 fn, modByte false tv 0 0⟩
def encMM (fn : BitVec 4) (u tv : Bool) (d a : MReg) : SlotWord := encMMM fn u tv d a 0
def encMpop (fn : BitVec 4) (k : MReg) (u tv : Bool) (d : BitVec 5) (a : MReg) (t : ElemT) : SlotWord :=
  ⟨encV 0x25 k u d ((0 : BitVec 2) ++ a) 0 t.code fn, modByte false tv 0 0⟩
def encMfroms (fn : BitVec 4) (u tv : Bool) (d : MReg) (a : VSrc) (t : ElemT) : SlotWord :=
  ⟨encV 0x25 0 u ((0 : BitVec 2) ++ d) a.field 0 t.code fn, modByte false tv a.la 0⟩
def encVext (fn : BitVec 4) (u tv : Bool) (d : BitVec 5) (a b : VSrc) (t : ElemT) : SlotWord :=
  ⟨encV 0x26 0 u d a.field b.field t.code fn, modByte false tv a.la b.lb⟩
def encVcompress (fn : BitVec 4) (k : MReg) (u : Bool) (m : Mods) (d : VReg) (a : VSrc) (b : BitVec 5) (t : ElemT) : SlotWord :=
  ⟨encV 0x26 k u d a.field b t.code fn, modByte m.nw m.tv a.la 0⟩
def encViota (maj : BitVec 6) (fn : BitVec 4) (k : MReg) (u : Bool) (m : Mods) (d : VReg) (t : ElemT) : SlotWord :=
  ⟨encV maj k u d 0 0 t.code fn, modByte m.nw m.tv 0 0⟩
def encVcvt (sr : Bool) (k : MReg) (u : Bool) (m : Mods) (d : VReg) (a : VSrc) (p : BitVec 2) (t e : ElemT) : SlotWord :=
  ⟨encV 0x28 k u d a.field ((0 : BitVec 3) ++ p) t.code (bit sr ++ e.code), modByte m.nw m.tv a.la 0⟩
def encVqmx (fn : BitVec 4) (k : MReg) (u : Bool) (m : Mods) (d : VReg) (a : VSrc) (b : BitVec 5) : SlotWord :=
  ⟨encV 0x29 k u d a.field b 5 fn, modByte m.nw m.tv a.la 0⟩
def encVdqmx (maj : BitVec 6) (fn : BitVec 4) (ty : BitVec 3) (k : MReg) (u : Bool) (m : Mods) (d : VReg) (a b : VSrc) : SlotWord :=
  ⟨encV maj k u d a.field b.field ty fn, modByte m.nw m.tv a.la b.lb⟩
def encVsplati (k : MReg) (u : Bool) (m : Mods) (d : VReg) (imm : BitVec 17) (t : ElemT) : SlotWord :=
  ⟨(0x2C : BitVec 6) ++ k ++ bit u ++ d ++ imm.setWidth 10 ++ t.code ++ (2 : BitVec 4), extS (n := 10) imm (modByte m.nw m.tv 0 0)⟩
/-- The VLD and VST format (R46). -/
def encVMem (maj : BitVec 6) (k : MReg) (p : Bool) (d : VReg) (base st : BitVec 6) (mode : BitVec 2) (line : BitVec 3) : BitVec 32 :=
  maj ++ k ++ bit p ++ d ++ base ++ st ++ mode ++ line
def encVldC (k : MReg) (p : Bool) (d : VReg) (base : Src) : SlotWord :=
  ⟨encVMem 0x2A k p d base.field 0 0 0, modByte false false base.la 0⟩
def encVldS (mode : BitVec 2) (k : MReg) (p : Bool) (d : VReg) (base st : Src) : SlotWord :=
  ⟨encVMem 0x2A k p d base.field st.field mode 0, modByte false false base.la st.lb⟩
def encVldG (k : MReg) (p : Bool) (d : VReg) (base : Src) (idx : VSrc) : SlotWord :=
  ⟨encVMem 0x2A k p d base.field ((0 : BitVec 1) ++ idx.field) 2 0, modByte false false base.la idx.lb⟩
def encVstC (k : MReg) (p : Bool) (d : VReg) (base : Src) (line : BitVec 3) : SlotWord :=
  ⟨encVMem 0x2B k p d base.field 0 0 line, modByte false false base.la 0⟩
def encVstS (mode : BitVec 2) (k : MReg) (p : Bool) (d : VReg) (base st : Src) (line : BitVec 3) : SlotWord :=
  ⟨encVMem 0x2B k p d base.field st.field mode line, modByte false false base.la st.lb⟩
def encVstG (k : MReg) (p : Bool) (d : VReg) (base : Src) (idx : VSrc) (line : BitVec 3) : SlotWord :=
  ⟨encVMem 0x2B k p d base.field ((0 : BitVec 1) ++ idx.field) 2 line, modByte false false base.la idx.lb⟩

/-- The M and C format (R47). -/
def encMC (maj : BitVec 6) (fn : BitVec 4) (g : Guard) (a b c : SReg) : SlotWord := ⟨encSR maj g a b c fn, 0⟩
def encCmma (msk : Bool) (g : Guard) (a b c : SReg) (hb ha z : Bool) : SlotWord :=
  ⟨encSR 0x30 g a b c (bit msk ++ bit hb ++ bit ha ++ bit z), 0⟩
def encCpy (maj : BitVec 6) (fn : BitVec 3) (g : Guard) (a b c : SReg) (q : Bool) : SlotWord :=
  ⟨encSR maj g a b c (bit q ++ fn), 0⟩

/-- The slot value and extension byte of a slot instruction; none for the steps without an encoding. -/
def encode : Instr → Option SlotWord
  | .nop => some ⟨1, 0⟩
  | .halt g => some (encG 0x0 2 g)
  | .yield g => some (encG 0x0 3 g)
  | .trap g code => some (encGB 0x0 4 g code)
  | .eret g => some (encG 0x0 5 g)
  | .iflush g => some (encG 0x0 6 g)
  | .tlbi g d a code => some (encTlbi 0x0 7 g d a code)
  | .noise g d => some (encGD 0x0 8 g d)
  | .cyc g d => some (encGD 0x0 9 g d)
  | .self g d => some (encGD 0x0 10 g d)
  | .brk g => some (encG 0x0 11 g)
  | .sysrd g d n => some (encSysreg false g d n)
  | .syswr g s n => some (encSysreg true g s n)
  | .add g m d a b => some (encRRR 0x2 0 g m d a b)
  | .sub g m d a b => some (encRRR 0x2 1 g m d a b)
  | .and g m d a b => some (encRRR 0x2 2 g m d a b)
  | .or g m d a b => some (encRRR 0x2 3 g m d a b)
  | .xor g m d a b => some (encRRR 0x2 4 g m d a b)
  | .andn g m d a b => some (encRRR 0x2 5 g m d a b)
  | .orn g m d a b => some (encRRR 0x2 6 g m d a b)
  | .shl g m d a b => some (encRRR 0x2 7 g m d a b)
  | .shr g m d a b => some (encRRR 0x2 8 g m d a b)
  | .sar g m d a b => some (encRRR 0x2 9 g m d a b)
  | .rol g m d a b => some (encRRR 0x2 10 g m d a b)
  | .min g m d a b => some (encRRR 0x2 11 g m d a b)
  | .max g m d a b => some (encRRR 0x2 12 g m d a b)
  | .minn g m d a b => some (encRRR 0x2 13 g m d a b)
  | .maxn g m d a b => some (encRRR 0x2 14 g m d a b)
  | .ror g m d a b => some (encRRR 0x2 15 g m d a b)
  | .mul g m d a b => some (encRRR 0x3 0 g m d a b)
  | .mulh g m d a b => some (encRRR 0x3 1 g m d a b)
  | .mulhn g m d a b => some (encRRR 0x3 2 g m d a b)
  | .div g m d a b => some (encRRR 0x3 3 g m d a b)
  | .divn g m d a b => some (encRRR 0x3 4 g m d a b)
  | .rem g m d a b => some (encRRR 0x3 5 g m d a b)
  | .remn g m d a b => some (encRRR 0x3 6 g m d a b)
  | .popc g m d a => some (encRR 0x3 7 g m d a)
  | .clz g m d a => some (encRR 0x3 8 g m d a)
  | .ctz g m d a => some (encRR 0x3 9 g m d a)
  | .brev g m d a => some (encRR 0x3 10 g m d a)
  | .bswap g m d a => some (encRR 0x3 11 g m d a)
  | .abs g m d a => some (encRR 0x3 12 g m d a)
  | .sext g m d a b => some (encRRR 0x3 13 g m d a b)
  | .zext g m d a b => some (encRRR 0x3 14 g m d a b)
  | .bfxs g m d a b => some (encRRR 0x4 0 g m d a b)
  | .bfxn g m d a b => some (encRRR 0x4 1 g m d a b)
  | .bfi g m d a b => some (encRRR 0x4 2 g m d a b)
  | .fshl g m d a b => some (encRRR 0x4 3 g m d a b)
  | .fshr g m d a b => some (encRRR 0x4 4 g m d a b)
  | .fadd g m d a b => some (encRRR 0x5 0 g m d a b)
  | .fsub g m d a b => some (encRRR 0x5 1 g m d a b)
  | .fmul g m d a b => some (encRRR 0x5 2 g m d a b)
  | .ffma g m d a b => some (encRRR 0x5 3 g m d a b)
  | .fmin g m d a b => some (encRRR 0x5 4 g m d a b)
  | .fmax g m d a b => some (encRRR 0x5 5 g m d a b)
  | .fabs g m d a => some (encRR 0x5 6 g m d a)
  | .fneg g m d a => some (encRR 0x5 7 g m d a)
  | .fcvtif g m d a => some (encRR 0x5 8 g m d a)
  | .fcvtnf g m d a => some (encRR 0x5 9 g m d a)
  | .fcvtfi g m d a => some (encRR 0x5 10 g m d a)
  | .fcvtfn g m d a => some (encRR 0x5 11 g m d a)
  | .fsqrt g m d a => some (encRR 0x5 12 g m d a)
  | .addi g m d a imm => some (encRRI 0 g m d a imm)
  | .andi g m d a imm => some (encRRI 1 g m d a imm)
  | .ori g m d a imm => some (encRRI 2 g m d a imm)
  | .xori g m d a imm => some (encRRI 3 g m d a imm)
  | .shli g m d a imm => some (encRRI 4 g m d a imm)
  | .shri g m d a imm => some (encRRI 5 g m d a imm)
  | .sari g m d a imm => some (encRRI 6 g m d a imm)
  | .muli g m d a imm => some (encRRI 7 g m d a imm)
  | .movi g m d imm => some (encMovi g m d imm)
  | .movhi g m d imm => some (encMovhi g m d imm)
  | .cmpeq g tv ct p q a b => some (encCmpR 0x9 false g tv ct p q a b)
  | .cmpeqImm g tv ct p q a imm => some (encCmpI 0x9 g tv ct p q a imm)
  | .cmpne g tv ct p q a b => some (encCmpR 0xA false g tv ct p q a b)
  | .cmpneImm g tv ct p q a imm => some (encCmpI 0xA g tv ct p q a imm)
  | .cmplt g tv ct p q a b => some (encCmpR 0xB false g tv ct p q a b)
  | .cmpltImm g tv ct p q a imm => some (encCmpI 0xB g tv ct p q a imm)
  | .cmple g tv ct p q a b => some (encCmpR 0xC false g tv ct p q a b)
  | .cmpleImm g tv ct p q a imm => some (encCmpI 0xC g tv ct p q a imm)
  | .cmpltn g tv ct p q a b => some (encCmpR 0xD false g tv ct p q a b)
  | .cmpltnImm g tv ct p q a imm => some (encCmpIn 0xD g tv ct p q a imm)
  | .cmplen g tv ct p q a b => some (encCmpR 0xE false g tv ct p q a b)
  | .cmplenImm g tv ct p q a imm => some (encCmpIn 0xE g tv ct p q a imm)
  | .fcmpeq g tv ct p q a b => some (encCmpR 0xF false g tv ct p q a b)
  | .fcmplt g tv ct p q a b => some (encCmpR 0xF true g tv ct p q a b)
  | .fcmple g tv ct p q a b => some (encCmpR 0x10 false g tv ct p q a b)
  | .fcmpun g tv ct p q a b => some (encCmpR 0x10 true g tv ct p q a b)
  | .br g disp => some (encBr 0x11 g disp)
  | .brl g disp => some (encBr 0x12 g disp)
  | .jr g a => some (encGA' 0x13 0 g a)
  | .jrl g a => some (encGA' 0x13 1 g a)
  | .pand g d a b => some (encPPP 2 g d a b)
  | .por g d a b => some (encPPP 3 g d a b)
  | .pxor g d a b => some (encPPP 4 g d a b)
  | .pandn g d a b => some (encPPP 5 g d a b)
  | .pmovs g a => some (encGA' 0x13 6 g a)
  | .pmovp g d => some (encGD 0x13 7 g d)
  | .lpop g => some (encG 0x13 8 g)
  | .loop g c e => some (encLoop g c e)
  | .loopi g n e => some (encLoopi g n e)
  | .ld g nw d base z x off => some (encLd g nw d base z x off)
  | .st g data base z glob line off => some (encSt g data base z glob line off)
  | .amoAdd g d a b => some (encGDAB 0x18 0 g d a b)
  | .amoAnd g d a b => some (encGDAB 0x18 1 g d a b)
  | .amoOr g d a b => some (encGDAB 0x18 2 g d a b)
  | .amoXor g d a b => some (encGDAB 0x18 3 g d a b)
  | .amoMin g d a b => some (encGDAB 0x18 4 g d a b)
  | .amoMax g d a b => some (encGDAB 0x18 5 g d a b)
  | .amoMinn g d a b => some (encGDAB 0x18 6 g d a b)
  | .amoMaxn g d a b => some (encGDAB 0x18 7 g d a b)
  | .amoSwap g d a b => some (encGDAB 0x18 8 g d a b)
  | .amoCas g d a b => some (encGDAB 0x18 9 g d a b)
  | .amowAdd g d a b => some (encGDAB 0x19 0 g d a b)
  | .amowAnd g d a b => some (encGDAB 0x19 1 g d a b)
  | .amowOr g d a b => some (encGDAB 0x19 2 g d a b)
  | .amowXor g d a b => some (encGDAB 0x19 3 g d a b)
  | .amowMin g d a b => some (encGDAB 0x19 4 g d a b)
  | .amowMax g d a b => some (encGDAB 0x19 5 g d a b)
  | .amowMinn g d a b => some (encGDAB 0x19 6 g d a b)
  | .amowMaxn g d a b => some (encGDAB 0x19 7 g d a b)
  | .amowSwap g d a b => some (encGDAB 0x19 8 g d a b)
  | .amowCas g d a b => some (encGDAB 0x19 9 g d a b)
  | .amowFadd g d a b => some (encGDAB 0x19 10 g d a b)
  | .amowFmax g d a b => some (encGDAB 0x19 11 g d a b)
  | .redAdd g ord z a b => some (encRed 0 g ord z a b)
  | .redAnd g ord z a b => some (encRed 1 g ord z a b)
  | .redOr g ord z a b => some (encRed 2 g ord z a b)
  | .redXor g ord z a b => some (encRed 3 g ord z a b)
  | .redMin g ord z a b => some (encRed 4 g ord z a b)
  | .redMax g ord z a b => some (encRed 5 g ord z a b)
  | .redMinn g ord z a b => some (encRed 6 g ord z a b)
  | .redMaxn g ord z a b => some (encRed 7 g ord z a b)
  | .redFadd g ord a b => some (encRedF 10 g ord a b)
  | .redFmax g ord a b => some (encRedF 11 g ord a b)
  | .cadd g line glob a b scope rel => some (encCadd 0x1B g line glob a b scope rel)
  | .cmax g line glob a b scope rel => some (encCadd 0x1C g line glob a b scope rel)
  | .cwait g d a b scope acq np => some (encCwait g d a b scope acq np)
  | .crd g d a scope acq => some (encCrd g d a scope acq)
  | .fence g kind scope => some (encFence g kind scope)
  | .qfence g mask => some (encGB 0x1F 1 g mask)
  | .bind g d a b => some (encGDAB 0x1F 2 g d a b)
  | .unbind g d a b => some (encGDAB 0x1F 3 g d a b)
  | .join g d a => some (encGDA 0x1F 4 g d a)
  | .leave g d a => some (encGDA 0x1F 5 g d a)
  | .launch g d a b => some (encGDAB 0x1F 6 g d a b)
  | .trninfo g d a => some (encGDA 0x1F 7 g d a)
  | .vadd k u m d a b t => some (encV3 0x20 0 k u m d a b t)
  | .vsub k u m d a b t => some (encV3 0x20 1 k u m d a b t)
  | .vadds k u m d a b t => some (encV3 0x20 2 k u m d a b t)
  | .vsubs k u m d a b t => some (encV3 0x20 3 k u m d a b t)
  | .vaddsn k u m d a b t => some (encV3 0x20 4 k u m d a b t)
  | .vsubsn k u m d a b t => some (encV3 0x20 5 k u m d a b t)
  | .vmul k u m d a b t => some (encV3 0x20 6 k u m d a b t)
  | .vmulh k u m d a b t => some (encV3 0x20 7 k u m d a b t)
  | .vmulhn k u m d a b t => some (encV3 0x20 8 k u m d a b t)
  | .vmin k u m d a b t => some (encV3 0x20 9 k u m d a b t)
  | .vmax k u m d a b t => some (encV3 0x20 10 k u m d a b t)
  | .vminn k u m d a b t => some (encV3 0x20 11 k u m d a b t)
  | .vmaxn k u m d a b t => some (encV3 0x20 12 k u m d a b t)
  | .vabs k u m d a t => some (encV2 0x20 13 k u m d a t)
  | .vneg k u m d a t => some (encV2 0x20 14 k u m d a t)
  | .vavgn k u m d a b t => some (encV3 0x20 15 k u m d a b t)
  | .vand k u m d a b t => some (encV3 0x21 0 k u m d a b t)
  | .vor k u m d a b t => some (encV3 0x21 1 k u m d a b t)
  | .vxor k u m d a b t => some (encV3 0x21 2 k u m d a b t)
  | .vandn k u m d a b t => some (encV3 0x21 3 k u m d a b t)
  | .vnot k u m d a t => some (encV2 0x21 4 k u m d a t)
  | .vshl k u m d a b t => some (encV3 0x21 5 k u m d a b t)
  | .vshr k u m d a b t => some (encV3 0x21 6 k u m d a b t)
  | .vsar k u m d a b t => some (encV3 0x21 7 k u m d a b t)
  | .vrol k u m d a b t => some (encV3 0x21 8 k u m d a b t)
  | .vbfxs k u m d a b t => some (encV3 0x21 9 k u m d a b t)
  | .vbfxn k u m d a b t => some (encV3 0x21 10 k u m d a b t)
  | .vbfi k u m d a b t => some (encV3 0x21 11 k u m d a b t)
  | .vpopc k u m d a t => some (encV2 0x21 12 k u m d a t)
  | .vclz k u m d a t => some (encV2 0x21 13 k u m d a t)
  | .vfadd k u m d a b t => some (encV3 0x22 0 k u m d a b t)
  | .vfsub k u m d a b t => some (encV3 0x22 1 k u m d a b t)
  | .vfmul k u m d a b t => some (encV3 0x22 2 k u m d a b t)
  | .vffma k u m d a b t => some (encV3 0x22 3 k u m d a b t)
  | .vfmin k u m d a b t => some (encV3 0x22 4 k u m d a b t)
  | .vfmax k u m d a b t => some (encV3 0x22 5 k u m d a b t)
  | .vfabs k u m d a t => some (encV2 0x22 6 k u m d a t)
  | .vfneg k u m d a t => some (encV2 0x22 7 k u m d a t)
  | .vfcpsgn k u m d a b t => some (encV3 0x22 8 k u m d a b t)
  | .vfmaxabs k u m d a b t => some (encV3 0x22 9 k u m d a b t)
  | .vexp2 k u m d a t => some (encV2 0x23 0 k u m d a t)
  | .vlog2 k u m d a t => some (encV2 0x23 1 k u m d a t)
  | .vrcp k u m d a t => some (encV2 0x23 2 k u m d a t)
  | .vrsq k u m d a t => some (encV2 0x23 3 k u m d a t)
  | .vsqrt k u m d a t => some (encV2 0x23 4 k u m d a t)
  | .vtanh k u m d a t => some (encV2 0x23 5 k u m d a t)
  | .vsigm k u m d a t => some (encV2 0x23 6 k u m d a t)
  | .vcmpeq k u tv n c a b t => some (encVcmp 0 k u tv n c a b t)
  | .vcmpne k u tv n c a b t => some (encVcmp 1 k u tv n c a b t)
  | .vcmplt k u tv n c a b t => some (encVcmp 2 k u tv n c a b t)
  | .vcmple k u tv n c a b t => some (encVcmp 3 k u tv n c a b t)
  | .vcmpltn k u tv n c a b t => some (encVcmp 4 k u tv n c a b t)
  | .vcmplen k u tv n c a b t => some (encVcmp 5 k u tv n c a b t)
  | .vfcmpeq k u tv n c a b t => some (encVcmp 6 k u tv n c a b t)
  | .vfcmplt k u tv n c a b t => some (encVcmp 7 k u tv n c a b t)
  | .vfcmple k u tv n c a b t => some (encVcmp 8 k u tv n c a b t)
  | .vfcmpun k u tv n c a b t => some (encVcmp 9 k u tv n c a b t)
  | .mand u tv d a b => some (encMMM 0 u tv d a b)
  | .mor u tv d a b => some (encMMM 1 u tv d a b)
  | .mxor u tv d a b => some (encMMM 2 u tv d a b)
  | .mandn u tv d a b => some (encMMM 3 u tv d a b)
  | .mnot u tv d a => some (encMM 4 u tv d a)
  | .mpop k u tv d a t => some (encMpop 5 k u tv d a t)
  | .mfirst k u tv d a t => some (encMpop 6 k u tv d a t)
  | .mfroms u tv d a t => some (encMfroms 7 u tv d a t)
  | .mlanes u tv d a t => some (encMfroms 8 u tv d a t)
  | .vperm k u m d a b t => some (encV3 0x26 0 k u m d a b t)
  | .vbcast k u m d a b t => some (encV3 0x26 1 k u m d a b t)
  | .vext u tv d a b t => some (encVext 2 u tv d a b t)
  | .vins k u m d a b t => some (encV3 0x26 3 k u m d a b t)
  | .vcompress k u m d a b t => some (encVcompress 4 k u m d a b t)
  | .vexpand k u m d a t => some (encV2 0x26 5 k u m d a t)
  | .vslideup k u m d a b t => some (encV3 0x26 6 k u m d a b t)
  | .vslidedn k u m d a b t => some (encV3 0x26 7 k u m d a b t)
  | .vzipl k u m d a b t => some (encV3 0x26 8 k u m d a b t)
  | .vziph k u m d a b t => some (encV3 0x26 9 k u m d a b t)
  | .vunzipe k u m d a b t => some (encV3 0x26 10 k u m d a b t)
  | .vunzipo k u m d a b t => some (encV3 0x26 11 k u m d a b t)
  | .viota k u m d t => some (encViota 0x26 12 k u m d t)
  | .vrev k u m d a t => some (encV2 0x26 13 k u m d a t)
  | .vredadd k u m d a t => some (encV2 0x27 0 k u m d a t)
  | .vredmin k u m d a t => some (encV2 0x27 1 k u m d a t)
  | .vredmax k u m d a t => some (encV2 0x27 2 k u m d a t)
  | .vredminn k u m d a t => some (encV2 0x27 3 k u m d a t)
  | .vredmaxn k u m d a t => some (encV2 0x27 4 k u m d a t)
  | .vfredadd k u m d a t => some (encV2 0x27 5 k u m d a t)
  | .vfredmin k u m d a t => some (encV2 0x27 6 k u m d a t)
  | .vfredmax k u m d a t => some (encV2 0x27 7 k u m d a t)
  | .vcvt k u m d a p t e => some (encVcvt false k u m d a p t e)
  | .vcvtsr k u m d a p t e => some (encVcvt true k u m d a p t e)
  | .vqmx8 k u m d a b => some (encVqmx 0 k u m d a b)
  | .vqmx6 k u m d a b => some (encVqmx 1 k u m d a b)
  | .vqmx4 k u m d a b => some (encVqmx 2 k u m d a b)
  | .vdqmx8 k u m d a b => some (encVdqmx 0x29 3 5 k u m d a b)
  | .vdqmx6 k u m d a b => some (encVdqmx 0x29 4 5 k u m d a b)
  | .vdqmx4 k u m d a b => some (encVdqmx 0x29 5 5 k u m d a b)
  | .vqmx8sr k u m d a b => some (encVqmx 8 k u m d a b)
  | .vqmx6sr k u m d a b => some (encVqmx 9 k u m d a b)
  | .vqmx4sr k u m d a b => some (encVqmx 10 k u m d a b)
  | .vld k port d base => some (encVldC k port d base)
  | .vldStrided k port d base stride => some (encVldS 1 k port d base stride)
  | .vldGather k port d base idx => some (encVldG k port d base idx)
  | .vldStrided16 k port d base stride => some (encVldS 3 k port d base stride)
  | .vst k glob d base line => some (encVstC k glob d base line)
  | .vstStrided k glob d base stride line => some (encVstS 1 k glob d base stride line)
  | .vstScatter k glob d base idx line => some (encVstG k glob d base idx line)
  | .vstStrided16 k glob d base stride line => some (encVstS 3 k glob d base stride line)
  | .vmov k u m d a t => some (encV2 0x2C 0 k u m d a t)
  | .vsel k u m d a b t => some (encV3 0x2C 1 k u m d a b t)
  | .vsplati k u m d imm t => some (encVsplati k u m d imm t)
  | .vnoise k u m d t => some (encViota 0x2C 3 k u m d t)
  | .vdot4 k u m d a b => some (encVdqmx 0x2D 0 0 k u m d a b)
  | .vdot4n k u m d a b => some (encVdqmx 0x2D 1 0 k u m d a b)
  | .vdot2 k u m d a b => some (encVdqmx 0x2D 2 4 k u m d a b)
  | .vdot2h k u m d a b => some (encVdqmx 0x2D 3 3 k u m d a b)
  | .cmma g a b hb ha z => some (encCmma false g a b 0 hb ha z)
  | .cmmaMsk g a b c hb ha z => some (encCmma true g a b c hb ha z)
  | .crotH32 g a => some (encMC 0x31 0 g a 0 0)
  | .crotH64 g a => some (encMC 0x31 1 g a 0 0)
  | .cdrain g a b c => some (encMC 0x32 0 g a b c)
  | .cdrainP g a b c => some (encMC 0x32 1 g a b c)
  | .caccZero g a c => some (encMC 0x33 0 g a 0 c)
  | .caccLd g a b c => some (encMC 0x33 1 g a b c)
  | .caccSt g a b c => some (encMC 0x33 2 g a b c)
  | .caccMove g a b c => some (encMC 0x33 3 g a b c)
  | .csplDef g a b c => some (encMC 0x34 0 g a b c)
  | .csplAdvp g a b => some (encMC 0x34 1 g a b 0)
  | .csplAdvc g a b => some (encMC 0x34 2 g a b 0)
  | .csplRdp g a b => some (encMC 0x34 3 g a b 0)
  | .csplReset g a => some (encMC 0x34 4 g a 0 0)
  | .cpalSet g a b => some (encMC 0x35 0 g a b 0)
  | .cpalGet g a b => some (encMC 0x35 1 g a b 0)
  | .csyncJoin g a b c => some (encMC 0x36 0 g a b c)
  | .csyncStat g a => some (encMC 0x36 1 g a 0 0)
  | .csyncSkew g a => some (encMC 0x36 2 g a 0 0)
  | .crcpDef g a b c => some (encMC 0x37 0 g a b c)
  | .crcpGet g a b => some (encMC 0x37 1 g a b 0)
  | .cpyLin g a b c q => some (encCpy 0x38 0 g a b c q)
  | .cpyTwod g a b c q => some (encCpy 0x38 1 g a b c q)
  | .cpyThreed g a b c q => some (encCpy 0x38 2 g a b c q)
  | .cpyFill g a b c q => some (encCpy 0x38 3 g a b c q)
  | .cpyLsplit g a b c q => some (encCpy 0x38 4 g a b c q)
  | .cpyLgath g a b c q => some (encCpy 0x38 5 g a b c q)
  | .cpyMcast g a b c q => some (encCpy 0x38 6 g a b c q)
  | .cpyPfetch g a b c q => some (encCpy 0x38 7 g a b c q)
  | .cgthGather g a b c q => some (encCpy 0x39 0 g a b c q)
  | .cgthScatter g a b c q => some (encCpy 0x39 1 g a b c q)
  | .cgthGatheradd g a b c q => some (encCpy 0x39 2 g a b c q)
  | .credAddf32 g a b c q => some (encCpy 0x3A 0 g a b c q)
  | .credAddbf16 g a b c q => some (encCpy 0x3A 1 g a b c q)
  | .credMaxf32 g a b c q => some (encCpy 0x3A 2 g a b c q)
  | .credAddi32 g a b c q => some (encCpy 0x3A 3 g a b c q)
  | .blkAlloc g a b c => some (encMC 0x3B 0 g a b c)
  | .blkFree g a b c => some (encMC 0x3B 1 g a b c)
  | .blkShare g a b c => some (encMC 0x3B 2 g a b c)
  | .blkXlate g a b c => some (encMC 0x3B 3 g a b c)
  | .blkFetch g a b c => some (encMC 0x3B 4 g a b c)
  | .blkAppend g a b c => some (encMC 0x3B 5 g a b c)
  | .blkStat g a b c => some (encMC 0x3B 6 g a b c)
  | .emptyBundle .. => none
  | .exposedResultLands .. => none
  | .interlockedResultArrives .. => none
  | .icacheMissFill .. => none
  | .noiseWordAppend .. => none
  | .trapEntry .. => none
  | .watchdog .. => none
  | .preemption .. => none
  | .switchIn .. => none
  | .quantumExpiry .. => none
  | .noiseSeedaWrite .. => none
  | .noiseSeedbWrite .. => none
  | .noiseModeWrite .. => none
  | .seqLinesRepair .. => none
  | .schEndWrite .. => none
  | .shelfWindowWrite .. => none
  | .sysregWindowWrite .. => none
  | .fabMigreqRead .. => none
  | .homeWriteArrives .. => none
  | .lineItemCommit .. => none
  | .homeRead .. => none
  | .homeAtomic .. => none
  | .homeCounterOp .. => none
  | .sharerUpdate .. => none
  | .sharerInvalidate .. => none
  | .writeAckArrives .. => none
  | .releaseSend .. => none
  | .ackTimeoutExpiry .. => none
  | .cwaitReadReturn .. => none
  | .monitorNotify .. => none
  | .monitorPoll .. => none
  | .cwaitSpinReread .. => none
  | .walkStart .. => none
  | .walkComplete .. => none
  | .tlbiComplete .. => none
  | .launchPacketArrival .. => none
  | .peerLaunchPacket .. => none
  | .imageHeaderRead .. => none
  | .batchHandoff .. => none
  | .schPartWrite .. => none
  | .taskAdmission .. => none
  | .taskStart .. => none
  | .evictionStart .. => none
  | .evictionComplete .. => none
  | .readmission .. => none
  | .migration .. => none
  | .haltComplete .. => none
  | .strandEndError .. => none
  | .atelierTakeover => none
  | .copyCmdStart .. => none
  | .spoolEntryLanded .. => none
  | .copyCmdComplete .. => none
  | .completionAddSend .. => none
  | .cubeCmdStart .. => none
  | .cubeCmdComplete .. => none
  | .joinPointComplete .. => none
  | .cubSkewWrite .. => none
  | .cubSkewApply .. => none
  | .drainStart .. => none
  | .drainComplete .. => none
  | .blkCmdPerform .. => none
  | .blkCmdComplete .. => none
  | .blkEnable .. => none
  | .blkDisable .. => none
  | .blkReady .. => none
  | .incomingPeerRequest .. => none
  | .reductionPacketArrival .. => none
  | .flitReplay .. => none
  | .replayWarning .. => none
  | .portRetrain .. => none
  | .portDown .. => none
  | .fabDeadWrite .. => none
  | .resetHandshakeReply .. => none
  | .resetHandshakeTimeout .. => none
  | .scrubLine .. => none
  | .conCelogRead .. => none
  | .conUelogRead .. => none
  | .conInjctlWrite .. => none
  | .conInjaddrWrite .. => none
  | .selfTestStart .. => none
  | .selfTestResult .. => none
  | .conRetireFence .. => none
  | .conRetireEvacuate .. => none
  | .evacGranuleCopied .. => none
  | .conRetireFinish .. => none
  | .limiterPeriod .. => none
  | .layerGate .. => none
  | .layerRampDone .. => none
  | .thermalSample .. => none
  | .thermalStepRaise .. => none
  | .thermalStepLower .. => none
  | .migrationRequest .. => none
  | .capBroadcast .. => none
  | .governorPeriod .. => none
  | .railOutOfRange .. => none
  | .railPowerDown => none
  | .bridgeTripPowerDown .. => none
  | .packageReset .. => none
  | .gessoBootTests .. => none
  | .studioFirmwareStart .. => none
  | .hostBar2Access .. => none
  | .hdmDecoderCommit .. => none
  | .attestationRequest .. => none
  | .secDbgHalt .. => none
  | .secDbgResume .. => none
  | .ckptGo .. => none
  | .ckptComplete .. => none
  | .hostLinkDown .. => none
  | .resetMessageReceived .. => none
  | .portTrained .. => none
  | .jireskoSessionSetup .. => none

/-- The slot instruction in the low 32 bits of w, with no extension byte (the host's numbering of the table's words). -/
noncomputable def decodeTableWord (nbits w : Nat) : Option Instr :=
  if nbits ≤ 32 then decodeSlot (BitVec.ofNat 32 w) 0 else none

end Sys2Proof
end

