-- ==== Sys2Proof/Config.lean ====
section
/-! DEFINITION. What one implementation fixes, and the free values: constants without a body, so that nothing can be
proved of a value that the spec leaves open. -/
namespace Sys2Proof.Config

/-- The n-th word of the physical entropy source of a cube (R74, entropy mode; log entry 5). -/
opaque entropyWord : Nat → Word
/-- A byte that the spec leaves open, numbered by the state's free counter (log entry 5). -/
opaque freeByte : Nat → Byte
/-- A 64-bit value that the spec leaves open, numbered by the state's free counter (log entry 5). -/
opaque freeWord : Nat → Word
/-- The result of a transcendental function on which the interval bounds of Machine/Transc.lean would not agree
(log entry 6): applied to a function number and the operand's bits. -/
opaque unroundedBits : Nat → Nat → Nat
/-- The fused device identity (R405; log entry 5). -/
opaque deviceIdentity : BitVec 384
/-- The attestation key that gesso derives from the device identity and the measurements (R405; log entry 5). -/
opaque attestationKey : BitVec 384 → List (BitVec 384) → BitVec 384
/-- The signatures that gesso puts under a report (R405): ECDSA P-384 and SLH-DSA-SHA2-128s, by the key and the report's words, as words
(log entry 5). -/
opaque ecdsaP384 : BitVec 384 → List Word → List Word
opaque slhDsaSha2128s : BitVec 384 → List Word → List Word
/-- SHA-384 of some words (R400, R405; log entry 5). -/
opaque sha384 : List Word → BitVec 384
/-- How an HBM stack is made (R379; log entry 117): the row of a line, by the line's number in its stack, the bank of a row,
and the spare rows that a bank has. -/
opaque hbmRow : Nat → Nat
opaque hbmBank : Nat → Nat
opaque hbmSpareRows : Nat → Nat
/-- The HDM decoder capability register of a downstream port, and where in its 64 KiB of component registers the HDM decoder
capability structure lies, which with the most decoders, 44, still ends there (R409; log entry 118). -/
opaque hdmCapability : BitVec 32
opaque hdmOffset : Fin 0xFA71
/-- The minimum security version number in the fuses (R401; log entry 1). -/
opaque fusedSvn : BitVec 16
/-- The fuse that allows debug (R404; log entry 1). -/
opaque debugEnable : Bool

/-- The fixed hash of a strand and a peer that chooses the port of the pair (R360; log entry 95). -/
opaque portHash : Nat → Nat → Nat

/-- The bridge die that owns an Ultra Ethernet peer, whose port its traffic takes (R360; log entry 122). -/
opaque owningBridge : Nat → Fin 2

/-- Cycles of the package clock in a microsecond: 3.0 GHz (R164). -/
def cyclesPerUs : Nat := 3000

end Sys2Proof.Config
end

