-- ==== Sys2Proof/Machine/State.lean ====
section
/-! DEFINITION. The state of the package as plain data: contexts, cubes, engines, homes, memory, the atelier, the fabric and
the registers of every chapter; the reasons a step can stop; and the state after reset. -/
namespace Sys2Proof.Machine

/-- A 52-bit virtual address (R86). -/
abbrev VA := BitVec 52

/-- Why the machine stops. -/
inductive Fault where
  /-- Raised by `step` when the package has no power (R383, R388) and nothing is on the agenda. Safe: nothing runs
  without power, and only a package reset from outside brings it back. -/
  | packageOff
deriving DecidableEq, Repr

/-- Why an instruction has no meaning in this model. -/
inductive Refusal where
  /-- Raised by `exec` for an instruction that has no meaning in this model yet. Safe: nothing is claimed of it. -/
  | notModelled (mnemonic : String)
deriving DecidableEq, Repr

/-! ### Contexts of a core (chapter 05) -/

/-- The mode of a context (R145). -/
inductive Mode where
  | task | runtime | secure
deriving DecidableEq, Repr, Inhabited

/-- A trap that has been raised and not yet taken: cause, CODE, KIND and ACC of SEQ_CAUSE, the offending slots and the
address (R147, R148). -/
structure Trap where
  cause : BitVec 8
  code : BitVec 6
  kind : BitVec 4
  acc : BitVec 4
  slots : BitVec 4
  addr : VA
deriving DecidableEq, Repr, Inhabited

/-- A trap record: SEQ_CAUSE, SEQ_TPC, SEQ_TADDR, SEQ_SLOTS (R148). -/
structure TrapRec where
  cause : Word
  tpc : Word
  taddr : Word
  slots : Word
deriving DecidableEq, Repr, Inhabited

/-- The register files (R50). Index 0 of the scalar file, of the predicates and of the masks is never read. -/
structure Regs where
  s : Vector Word 64
  p : Vector Bool 8
  v : Vector VWord 32
  m : Vector MWord 8
deriving DecidableEq, Repr

/-- The bypass latches (R37). -/
structure Latches where
  b1 : Word
  b2 : VWord
  b3 : VWord
  b4 : Word
  b5 : VWord
  b6 : Word
  b7 : Word
deriving DecidableEq, Repr

/-- Where an exposed result goes (the KIND of R154). `latchS` and `latchV` write a latch only. A vector latch result still
names the register whose value the merge of R202 starts from. -/
inductive DestKind where
  | scalar | pred | vector | mask | latchS | latchV
deriving DecidableEq, Repr, Inhabited

/-- What the vote of a TV result, or a residue check, said (R155, R156). -/
inductive VoteResult where
  | agree | corrected | split | residue
deriving DecidableEq, Repr, Inhabited

/-- An exposed result that has not landed (R136), which is also a replay entry (R152, R154). rem is the number of bundles
still to issue before it is visible. Scalar results and predicates use `val`; vectors and masks use `vec` and `en`, the
byte enables (or, for a mask, the bits written). -/
structure Result where
  rem : Nat
  kind : DestKind
  dest : BitVec 6
  latch : BitVec 3
  comb : Comb
  val : Word
  vec : VWord
  en : MWord
  /-- the scalar secondary value and its register (SEC, DEST2) -/
  sec : Option (SReg × Word)
  tv : Bool
  /-- the capability class of the instruction (R49), whose failures are counted (R377) -/
  cls : Nat
  /-- its place in issue order (R148): four times the next identity at its issue, and its slot -/
  pos : Nat
  /-- a second vector latch that it goes to (b5 for VSFU, R202), or 0 -/
  also : BitVec 3
  /-- its unit checks a residue (R156) -/
  chk : Bool
deriving DecidableEq, Repr

/-- One entry of the loop stack (R143). -/
structure LoopEntry where
  start : VA
  last : VA
  count : BitVec 32
deriving DecidableEq, Repr, Inhabited

/-- The noise generator and queue of a strand (R74, R75). -/
structure Noise where
  queue : List Word
  a : Word
  b : Word
  ent : Bool
  seedA : Word
  seedB : Word
deriving DecidableEq, Repr

/-- A spool descriptor (R22, R286). `queueP` are the entries that producers have reserved and that P has not passed, in the order of
their reservation, each with whether it has landed; `queueC` those that consumers have reserved and that C has not passed, each with
whether it has been given up (R23, R287). `held` keeps the advances of `cspl.advp` (true) and `cspl.advc` that wait
for the strand's earlier items and reads: entry number, count and what they wait for (R301). -/
structure Spool where
  loc : Word
  size : Word
  p : BitVec 32
  c : BitVec 32
  queueP : List (Nat × Bool)
  queueC : List (Nat × Bool)
  held : List (Bool × Nat × Nat × List Nat)
deriving DecidableEq, Repr, Inhabited

/-- A binding (R195): counter VA, region base and size. -/
structure Binding where
  counter : VA
  base : VA
  size : Nat
deriving DecidableEq, Repr, Inhabited

/-- A fence in force (R196): later memory operations it orders wait for these items and reads. -/
structure FenceHold where
  kind : FenceKind
  scope : Scope
  items : List Nat
  reads : List Nat
  tlbis : List Nat
deriving DecidableEq, Repr

/-- A `qfence` in force (R197): later entries of the queues of `mask` wait for the commands of `cmds` and the items of
`items`; later core memory operations wait for `cmds` when `core`. -/
structure QFenceHold where
  mask : BitVec 6
  cmds : List Nat
  items : List Nat
  reads : List Nat
  core : Bool
deriving DecidableEq, Repr

/-- The acquire of a `crd` still waiting for its value (R113): later loads of the regions wait for it. -/
structure AcqHold where
  read : Nat
  regions : List (VA × Nat)
deriving DecidableEq, Repr

/-- What a waiting `cwait` waits for (R186, R189): its counter's key and address, its target, whether its strand may park,
whether the home records watches, whether this episode has met a full table, and the MIGRATE page that it lies in. -/
structure WaitInfo where
  key : Nat
  va : VA
  target : Word
  park : Bool
  watched : Bool
  counted : Bool
  mig : List (BitVec 12 × VA × Nat)
deriving DecidableEq, Repr, Inhabited

/-- How a `cwait` bundle stands (R186, R189): no wait; the counter's read is out; the value that satisfied it; parked with
a monitor; spinning. -/
inductive WaitState where
  | none
  | reading (read : Nat) (w : WaitInfo)
  | satisfied (v : Word)
  | failed (t : Trap)
  | parked
  | spinning (w : WaitInfo)
deriving DecidableEq, Repr, Inhabited

/-- The status of a strand on its shelf (R240). -/
inductive Status where
  | ready | running | parked | trapped | halting | evicting | ending | starting
deriving DecidableEq, Repr, Inhabited

/-- A partition of a cube (R87, R233): the first bank, tile and granule that the strand owns, and how many. -/
structure Partition where
  scrBase : Nat
  scrBanks : Nat
  spadBytes : Nat
  accBase : Nat
  accTiles : Nat
  faceBase : Nat
  faceBytes : Nat
  ptBase : Nat
  ptTiles : Nat
  constBase : Nat
  constBytes : Nat
deriving DecidableEq, Repr, Inhabited

/-- The registers of a context that system instructions reach and the saved context holds (R153). -/
structure SysRegs where
  frm : BitVec 3
  broken : BitVec 8
  asn : BitVec 12
  codeLo : VA
  codeHi : VA
  trec : TrapRec
  tshelf : BitVec 5
  tvec : VA
  tinfo : Word
  larg0 : Word
  larg1 : Word
  lastTrap : TrapRec
  jmask : BitVec 8
  jskew : BitVec 16
deriving DecidableEq, Repr

/-- What the scheduler knows of a task (R233, R234). -/
structure TaskInfo where
  slot : BitVec 8
  index : BitVec 24
  prio : BitVec 2
  /-- the start order of the strand (R244) -/
  started : Nat
  opmask : BitVec 29
  /-- the constant-store image: its VA and its bytes, which a re-admission loads again (R242) -/
  constVA : VA
  /-- an end by error is under way with this recorded cause (R250); 0 stands for the last trap's -/
  ending : Option (BitVec 8)
  /-- its eviction is a migration: the re-admission excludes the cube it leaves (R245) -/
  away : Bool
  /-- the owner tag that its stores got when its partition was allocated (R373) -/
  owner : BitVec 12
deriving DecidableEq, Repr, Inhabited

/-- A context: task, runtime or secure (R145, R153). -/
structure Ctx where
  sid : Nat
  mode : Mode
  regs : Regs
  lat : Latches
  pc : VA
  issued : Nat
  loops : List LoopEntry
  sys : SysRegs
  lineSeq : Vector Nat 8
  pending : List Trap
  /-- the places in issue order of what raised the pending traps (R148), in the same order as they -/
  pendAt : List Nat
  results : List Result
  noise : Noise
  spools : Vector Spool 32
  binds : Vector (Option Binding) 32
  recipes : Vector (BitVec 128) 16
  fences : List FenceHold
  qfences : List QFenceHold
  acqs : List AcqHold
  wait : WaitState
  status : Status
  part : Partition
  task : TaskInfo
deriving DecidableEq, Repr

/-- Which context holds a core: none, the strand of a shelf, the runtime or the secure context (R145). -/
inductive Sel where
  | none
  | shelf (i : ShelfId)
  | runtime
  | secure
deriving DecidableEq, Repr, Inhabited

/-- What a bundle leaves to be done after all its slots have committed: a branch target, a loop entry pushed, a system
register or palette write, noise words, a post-commit trap, and halt, yield or eret (R142, R143, R157, R165). -/
inductive Control where
  | none | halt | yield | eret | iflush | debugHalt
deriving DecidableEq, Repr, Inhabited

/-- Why a context is to leave its core at this bundle boundary, and still holds it until its interlocked operations are complete
(R146, R152): a trap, with the bundle at its pc next to issue, or what the control instruction of the bundle at an address does. -/
inductive Leave where
  | none
  | trap (t : Trap)
  | control (ctl : Control) (pc : VA)
deriving DecidableEq, Repr, Inhabited

/-- What an access waits for at its source: writes that must be completed to a scope, reads that must have returned, and
commands of its cube that must be complete (R118, R119, R196, R197). -/
structure Prior where
  writes : List (Scope × Nat)
  reads : List Nat
  cmds : List Nat
deriving DecidableEq, Repr, Inhabited

/-- The bundle in issue. -/
structure BundleState where
  taken : Option VA
  pushed : Bool
  post : Option Trap
  ctl : Control
  sysw : Option (BitVec 12 × Word)
  pals : List (Nat × Nat × BitVec 7)
  /-- the shared noise word W of the V slots (R76), and the pops of `noise` and of the V slots -/
  noiseW : Word
  popS : Bool
  popV : Bool
  /-- the slot in execution and the V unit of a VST in it (R41) -/
  slot : BitVec 2
  vstUnit : Bool
  /-- the next bundle is held for a pending exposed result, and an empty bundle issues in its place (R138) -/
  held : Bool
  /-- the capability class of the slot in execution (R49), and whether its unit checks a residue (R156) -/
  cls : Nat
  chk : Bool
  /-- the core port of its memory accesses: 1 the S unit, 2 V0, 3 V1 (R103) -/
  port : Fin 6
  /-- what a fence in a lower slot of the bundle makes later memory operations of the bundle wait for (R196, R197) -/
  prior : List (FenceKind × Prior)
  /-- while the bundle commits, the number of the first operation that it may start -/
  first : Option Nat
deriving DecidableEq, Repr

/-! ### Memory traffic (chapter 04) -/

/-- Where an exposed or interlocked value goes. `exposed` names, by its place in issue order, the exposed result of a vector load whose
value a fence in a lower slot of its bundle delays (R196, R220). -/
inductive ReadDest where
  | nothing
  | exposed (pos : Nat)
  | scalar (d : SReg) (nw : Bool) (size : Nat) (sx : Bool)
  | vector (d : VReg) (unit : Bool)
  | division (d : SReg) (nw : Bool) (tv : Bool)
  | wait
deriving DecidableEq, Repr, Inhabited

/-- How far a read request has come. -/
inductive ReadStatus where
  | sent | served
deriving DecidableEq, Repr, Inhabited

/-- A read request in flight (R109, R138): `cells` pairs each home address with its byte lane. `acq` is the scope of an
acquire with the counter's VA (R113). -/
structure ReadReq where
  id : Nat
  sid : Nat
  cube : CubeId
  acc : BitVec 4
  va : VA
  cells : List (Nat × Nat)
  cached : List Nat
  dest : ReadDest
  acq : Option (Scope × VA)
  /-- the target of a `cwait` that will park: an unsatisfied read also registers a watch (R190) -/
  watch : Option Word
  status : ReadStatus
  value : VWord
  en : MWord
  bad : Bool
  /-- the MIGRATE pages that it accesses: address space, address and page size (R102) -/
  mig : List (BitVec 12 × VA × Nat)
  /-- what it waits for before it sets out -/
  prior : Prior
  /-- the cells of elements that acquires still hold, and the reads of those acquires: served after the others (R113, R220) -/
  late : List (Nat × Nat) × List Nat
deriving DecidableEq, Repr

/-- The combining operation of an atomic or a reduction (R181, R183). -/
inductive AmoOp where
  | add | and | or | xor | min | max | minn | maxn | swap | cas | fadd | fmax
deriving DecidableEq, Repr, Inhabited

/-- What an item does at its home. -/
inductive ItemOp where
  | store (cells : List (Nat × Byte))
  | cadd (addr : Nat) (amt : Word)
  | cmax (addr : Nat) (v : Word)
  | fetchAdd (addr : Nat) (amt : Word)
  | amo (op : AmoOp) (wide : Bool) (addr : Nat) (b : Word) (b1 : Word)
deriving DecidableEq, Repr

/-- How far an item has come (R108): waiting at the source for a release's writes, or for the previous item of its line
towards a home that keeps no lines; on its way; held at its home; performed; failed. -/
inductive ItemStatus where
  | waiting | transit | held | performed | failed
deriving DecidableEq, Repr, Inhabited

/-- A write, counter operation, atomic or reduction in flight (R108, R117). `pos` is its place in its strand's issue order: its
own identity, or that of the command whose completion add it is (R108). -/
structure Item where
  id : Nat
  pos : Nat
  sid : Nat
  cube : CubeId
  line : BitVec 3
  seq : Nat
  home : Nat
  glob : Bool
  ordered : Bool
  op : ItemOp
  va : VA
  spans : List (VA × Nat)
  acc : BitVec 4
  /-- the writes that a release covers, which must be completed to its scope first (R112) -/
  after : List Nat
  /-- what else it waits for at its source: the previous item of its line towards a home that keeps no lines (R118), an earlier
  .g write of the location (R119), a fence in a lower slot of its bundle (R196, R197) -/
  prior : Prior
  scope : Scope
  rel : Bool
  /-- the mode that travels with the access to a register window (R93), and the owner tag of R373 -/
  mode : Mode
  tag : BitVec 12
  status : ItemStatus
  /-- the interlocked destination of an atomic, and the old value once performed -/
  dest : Option SReg
  old : Word
  /-- the command whose completion add this is -/
  cmd : Option Nat
  /-- the MIGRATE pages that it accesses (R102), and the owner tags of lines that another page's leaf gives (R373) -/
  mig : List (BitVec 12 × VA × Nat)
  tags : List (Nat × BitVec 12)
deriving DecidableEq, Repr

/-- A message of a home's directory to an edge cache (R101). -/
structure DirMsg where
  cube : CubeId
  line : Nat
  update : Option (List (Nat × Byte))
  item : Nat
deriving DecidableEq, Repr

/-- A line of an edge cache: its number, its 64 bytes, as one little-endian number, its owner tag (R373), and whether an
uncorrectable error has damaged the copy (R372, R374). -/
structure EdgeLine where
  line : Nat
  data : BitVec 512
  tag : BitVec 12
  bad : Bool
deriving DecidableEq, Repr

/-- A translation or the fault that a walk ended in (R97, R106). -/
inductive Xlat where
  | leaf (pte : Word) (level : Nat)
  | fault (kind : BitVec 4)
deriving DecidableEq, Repr, Inhabited

/-- A TLB entry (R103): the address space that walked it, the first byte of the page, its size, the leaf and its level. -/
structure TlbEntry where
  asn : BitVec 12
  base : Nat
  size : Nat
  pte : Word
  level : Nat
deriving DecidableEq, Repr

/-- An entry of the walker's non-leaf cache (R103): the table of a level that a table pointer one level above it names, for the
addresses with the given upper bits. -/
structure WalkPtr where
  asn : BitVec 12
  level : Nat
  upper : Nat
  table : Nat
deriving DecidableEq, Repr

/-- Who asks for walks (R104): a cube's TLB, or the engine of a bridge die. -/
inductive Requester where
  | cube (c : CubeId)
  | bridge (b : Fin 2)
deriving DecidableEq, Repr, Inhabited

/-- A miss waiting for or taking a walk (R104), and then what the walk gave, until each of those that wait for it has taken it: `req`
missed first, and `waiters` are all that missed the granule, 0 for a core or a bridge's engine, and commands by their identities. -/
structure Miss where
  req : Requester
  asn : BitVec 12
  vpn : Nat
  walking : Bool
  waiters : List (Requester × Nat)
  res : Option Xlat
deriving DecidableEq, Repr

/-- A bundle in the instruction cache (R135). -/
structure ICacheEntry where
  asn : BitVec 12
  phys : Bool
  addr : VA
  bits : Bundle
deriving DecidableEq, Repr

/-- A `tlbi` that has not completed (R105, R163). -/
structure Tlbi where
  id : Nat
  sid : Nat
  asn : BitVec 12
  va : VA
  code : Nat
deriving DecidableEq, Repr

/-- A monitor of a cube's table (R189, R190). -/
structure Monitor where
  shelf : ShelfId
  addr : Nat
  target : Word
  va : VA
  poll : Bool
deriving DecidableEq, Repr

/-! ### Engines (chapters 09 to 12) -/

/-- The engine queues of a cube (R19), in the bit order of `qfence` (R197). -/
inductive Queue where
  | cq0 | cq1 | cubeq | drainq | blkq
deriving DecidableEq, Repr, Inhabited

/-- The copy commands (R256). -/
inductive CopyOp where
  | lin | twod | threed | fill | lsplit | lgath | mcast | pfetch | gather | scatter | gatheradd
  | addF32 | addBf16 | maxF32 | addI32
deriving DecidableEq, Repr, Inhabited

/-- The cube-queue commands (R288, R297, R298). -/
inductive CubeOp where
  | mma (z ha hb msk : Bool)
  | rot (h64 : Bool)
  | zero | ld | st | move
deriving DecidableEq, Repr, Inhabited

/-- The block-store commands (R344). -/
inductive BlkOp where
  | alloc | free | share | xlate | fetch | append | stat
deriving DecidableEq, Repr, Inhabited

inductive CmdKind where
  | copy (op : CopyOp)
  | cube (op : CubeOp)
  | drain (p : Bool)
  | block (op : BlkOp)
deriving DecidableEq, Repr, Inhabited

/-- Palettes by absolute bank (R67): scratch banks, and face banks at 64 × layer + 32 × side + bank. -/
structure Palettes where
  scr : Vector (BitVec 7) 32
  face : Vector (BitVec 7) 512
deriving DecidableEq, Repr

/-- How far an engine command has come: in its queue, started, its writes performed or failed, its completion add on the
way as an item (R255). -/
inductive CmdStatus where
  | queued | started | finished | adding
deriving DecidableEq, Repr, Inhabited

/-- An engine error: its code (R275), its fault kind and the address of the record (R276). -/
structure EngErr where
  code : BitVec 8
  kind : BitVec 4
  addr : VA
deriving DecidableEq, Repr, Inhabited

/-- A command in an engine queue. `grp` is its register group or its words, `ctr` and `amt` its completion add; `after` and
`joins` name the commands and join points that it waits for (R197, R303), `items` the core writes (R197). `res` and `took`
are the spool entries that it reserved as producer and as consumer: the spool, the first entry number and how many.
`ents` holds the operand entries that a started CMMA reads or the targets of a started `cpy.mcast`, `out` what a started drain
will write, and `wrote` the homes that a finished command wrote. `acqs` are the acquires out when it was enqueued (R113), `homes`
the homes towards which it holds a place on its line (R117), `dead` tells that its line broke before it (R120), and `seed` is the
noise seed read at its start (R263, R277). `lost` is an error and a home: an access of the command there got no answer in time, or
was refused by a peer (R124, R358). -/
structure Cmd where
  id : Nat
  sid : Nat
  queue : Queue
  kind : CmdKind
  tag : BitVec 32
  mode : Mode
  asn : BitVec 12
  part : Partition
  grp : List Word
  ctr : Word
  amt : Word
  pals : Palettes
  recipe : BitVec 128
  planes : BitVec 8
  after : List Nat
  joins : List Nat
  items : List Nat
  status : CmdStatus
  err : Option EngErr
  res : List (Nat × Nat × Nat)
  took : List (Nat × Nat × Nat)
  ents : List Nat
  out : List (Nat × Byte)
  wrote : List Nat
  acqs : List AcqHold
  homes : List Nat
  seq : Nat
  dead : Bool
  seed : Word
  lost : Option (BitVec 8 × Nat)
  /-- the home of its completion add lay on a dead peer already when its data had gone (R278) -/
  addDead : Bool
deriving DecidableEq, Repr

/-- A pending join point (R303). -/
structure Join where
  id : Nat
  sid : Nat
  tag : BitVec 32
  layers : BitVec 8
  /-- the commands that each named layer waits for -/
  waits : List (Nat × Nat)
  mode : Mode
  asn : BitVec 12
  part : Partition
  ctr : Word
  amt : Word
  failed : Bool
  /-- the cycles in which the first and the last layer reached the join -/
  first : Option Word
  last : Option Word
deriving DecidableEq, Repr

/-- The state of a checksum record that is not VOID (R296). -/
structure ChkRec where
  /-- an accumulator tile t is number t; plane tile t of layer l is 1,024 + 64 × l + t -/
  tile : Nat
  i32 : Bool
  rows : BitVec 64
  cols : BitVec 64
  rowChk : Vector (BitVec 32) 64
  colChk : Vector (BitVec 32) 64
  /-- the capability classes of the command that wrote the tile last (R377) -/
  classes : BitVec 29
deriving DecidableEq, Repr

/-- The registers of the engines of a cube (R306, R310, R331 to R334, R277, R338). -/
structure EngRegs where
  iovf : Bool
  ioshelf : BitVec 4
  skew : BitVec 32
  /-- writes to CUB_SKEW that wait, each with the first command identity after it (R305) -/
  skewNext : List (Nat × BitVec 32)
  abft : Bool
  nanovf : Bool
  drnSeed : Word
  drnTol : BitVec 16
  drnSkip : BitVec 32
  drnCor : BitVec 32
  cpySeed : Word
  fsLost : BitVec 32
  blkBase : BitVec 28
  blkSize : BitVec 17
  blkCode : BitVec 2
  blkCtl : Word
  blkBuilding : Bool
  blkReady : Bool
  blkHead : BitVec 32
  blkFree : Nat
  blkKeys : Nat
deriving DecidableEq, Repr

/-- The conservator of a cube (chapter 14). -/
structure ConRegs where
  scrubRate : BitVec 16
  /-- the next line of each of the six stores, and the store whose turn it is (R372) -/
  scrubPos : Vector Nat 6
  scrubTurn : Fin 6
  ceLog : List Word
  ueLog : List Word
  injAddr : BitVec 42
  injKind : BitVec 2
  injArm : Bool
  injFired : Bool
  fenceWindow : BitVec 32
  /-- failures of a class with the cycle of each (R377) -/
  fails : List (Nat × Word)
  /-- classes whose self-test is due, and the one under test (R378) -/
  testsDue : List Nat
  testing : Option Nat
  evacPlan : BitVec 39
  refused : Bool
  /-- LIVE granules still to be copied and granules copied, each with the DPA of its destination (R381) -/
  evacTodo : List (Nat × Nat)
  evacMap : List (Nat × Nat)
  /-- rows of the home stack in the logs since the last reset: how often corrected, and whether an uncorrectable error was logged; and
  the rows that repairs have replaced (R379) -/
  rowLog : List (Nat × Nat × Bool)
  repaired : List Nat
deriving DecidableEq, Repr

/-- Power and temperature of a logical layer (R386 to R390). -/
structure LayerPwr where
  therm : BitVec 3
  lim : BitVec 3
  temp : BitVec 8
  /-- the layer itself has tripped; it is held for that or for another die of its cube -/
  tripped : Bool
  held : Bool
  pend : Bool
  ramp : Bool
  gated : Bool
  migreq : Bool
  /-- microseconds above the throttle and below the warning threshold, at or above the migration step, and idle -/
  hot : Nat
  cool : Nat
  high : Nat
  idle : Nat
  /-- consecutive limiter periods below three quarters of the allotment, and the last estimate -/
  low : Nat
  estimate : Nat
deriving DecidableEq, Repr, Inhabited

/-- The power registers of a cube (R394, R396). -/
structure PwrRegs where
  tWarn : BitVec 8
  tThrot : BitVec 8
  tTrip : BitVec 8
  events : Word
  cubeAmps : BitVec 16
  gateIdle : BitVec 16
  migStep : BitVec 3
  migTime : BitVec 32
  layers : Vector LayerPwr 8
  sticky : BitVec 8
  /-- the base die or the die of the inactive position has tripped -/
  dieTrip : Bool
  /-- the group whose cap step the cube takes (R392); 8 is the group of no partition -/
  group : Fin 9
deriving DecidableEq, Repr

/-! ### Cubes and the package -/

/-- The registers of a cube that belong to the sequencer, the scalar unit and the scheduler (chapters 05, 06, 08). -/
structure CoreRegs where
  brkHalt : Bool
  monFull : BitVec 32
  wdog : BitVec 32
  quantum : BitVec 32
  ackTimeout : BitVec 24
deriving DecidableEq, Repr

/-- Whether a cube computes (R380, R381). -/
inductive CubeLife where
  | live | memoryOnly | evacuating | retired
deriving DecidableEq, Repr, Inhabited

/-- The discovery registers of a cube (R29 to R32) and its capability fences (R309). -/
structure CubeHw where
  dscPkg : Word
  dscBase : Word
  dscSpare : Word
  layers : Vector Word 8
  lmap : BitVec 32
  caps : BitVec 29
  life : CubeLife
deriving DecidableEq, Repr

/-- A task in an admission queue: its launch's slot, its index and its priority (R234). -/
structure QTask where
  slot : BitVec 8
  index : BitVec 24
  prio : BitVec 2
deriving DecidableEq, Repr, Inhabited

/-- One cube. -/
structure Cube where
  core : Ctx
  cur : Sel
  leave : Leave
  bundle : BundleState
  stall : Nat
  quantumUsed : Nat
  shelves : Vector (Option Ctx) 16
  rt : Ctx
  sec : Ctx
  cregs : CoreRegs
  hw : CubeHw
  icache : List ICacheEntry
  tlb : List TlbEntry
  /-- the micro-TLBs of the core's fetch, S, V0 and V1 ports, and the TLBs of cq0 and cq1 (R103) -/
  small : Vector (List TlbEntry) 6
  edge : List EdgeLine
  monitors : List Monitor
  /-- shelves with a ready strand, in the order of their ready lists (R238) -/
  ready : List ShelfId
  /-- bytes written through the shelf windows and not yet taken in by a switch-in (R92, R153) -/
  patches : List (ShelfId × Nat × Byte)
  pals : Palettes
  cmds : List Cmd
  joins : List Join
  recs : List ChkRec
  eng : EngRegs
  con : ConRegs
  pwr : PwrRegs
  /-- the admission queue, in the order in which tasks were handed over (R234) -/
  admission : List QTask
  debugHalted : Bool
  debugHaltPending : Bool
  /-- halted by a trap in secure mode (R146) -/
  stopped : Bool
deriving DecidableEq, Repr

/-- Who made a write that has reached a window, and learns if it is refused there (R92): nobody in the package, a strand, with
the access and its address, or an engine command. -/
inductive Writer where
  | outside
  | strand (sid : Nat) (pos : Nat) (acc : BitVec 4) (va : VA)
  | command (id : Nat) (va : VA)
deriving DecidableEq, Repr, Inhabited

/-- A write that has reached a shelf window, a system-register window or a launch aperture, and acts there next. -/
inductive WindowOp where
  | shelf (c : CubeId) (i : ShelfId) (off : Nat) (bytes : List Byte) (who : Writer)
  | sysreg (c : CubeId) (n : BitVec 12) (v : Word) (mode : Mode)
  | aperture (b : Nat) (bytes : List Byte)
  | component (b : Nat) (off : Nat) (bytes : List Byte)
deriving DecidableEq, Repr

/-- One fabric port or Carben link (R367 to R369): `working` counts its lanes that work, `since` is the cycle in which its counting
window began, `warned` tells that the window has brought a warning, `training` that it retrains and holds its traffic, and
`tries` counts failed trainings. -/
structure Port where
  replays : BitVec 32
  retrains : BitVec 16
  spares : BitVec 4
  width : BitVec 4
  working : Nat
  up : Bool
  training : Bool
  tries : Nat
  since : Word
  warned : Bool
deriving DecidableEq, Repr

/-- The registers of the fabric and of the reduction window (chapter 13, R102). -/
structure FabRegs where
  self : BitVec 10
  peerBase : Word
  planeMap : BitVec 48
  drop : BitVec 32
  rwBase : Word
  rwSize : BitVec 32
  rwGroup : BitVec 17
  rwCount : Word
  migThresh : BitVec 32
  replayWarn : Word
  replayRetrain : Word
  dead : BitVec 1024
  ckptDst : Word
  ckptCtl : Word
deriving DecidableEq, Repr

/-- A request of a peer that its line holds at this package (R117, R363): its kind, its place, its data and its tag. -/
structure PeerReq where
  peer : BitVec 10
  kind : Nat
  dpa : Nat
  data : List Byte
  tag : Word
  from_ : PeerSeq
deriving DecidableEq, Repr

/-- The fabric: its registers, the 26 ports and the 45 Carben links (port 26 + n is link n), the handshakes that wait for a
reply, the migration counters (R102) and the checkpoint that runs: its stacks and its destination (R363, R369, R406). `entries`
are the peer-table entries that the bridge dies cache (R357), and `pairs` the port of each strand and peer with traffic out
(R360). `performed` are the transaction tags performed for peers with their answers (R360), `lines` the next number of each
line of a peer's strands at each home, and `held` the requests that wait for an earlier one of their line (R117, R363). -/
structure Fabric where
  regs : FabRegs
  ports : Vector Port 71
  handshakes : List (BitVec 10)
  entries : List (Nat × Vector Word 4)
  pairs : List ((Nat × Nat) × Fin 71)
  performed : List ((BitVec 10 × Word) × List Word)
  lines : List ((BitVec 10 × Nat × BitVec 3 × Nat) × Nat)
  held : List PeerReq
  migCounts : List ((BitVec 12 × Nat) × Nat)
  migQueue : List Word
  ckpt : Option (BitVec 8 × Nat)
deriving DecidableEq, Repr

/-- A committed HDM decoder: where it stands, the part of the safe tier it claims, and its interleave (R409). -/
structure HdmDecoder where
  place : DecoderPlace
  base : Nat
  len : Nat
  il : Interleave
deriving DecidableEq, Repr

/-- Boot, worlds and regions (chapter 16). -/
structure Security where
  svn : BitVec 16
  fail : BitVec 8
  stage : BitVec 4
  world : BitVec 7
  regions : Vector Word 16
  hdm : List HdmDecoder
  hostLink0 : Bool
  session : Bool
  powered : Bool
  /-- the SHA-384 measurement of the running gesso (R400, R405) -/
  gesso : BitVec 384
deriving DecidableEq, Repr

/-- What the header of an image says of a task (R57). -/
structure Header where
  opmask : BitVec 29
  entry : Nat
  text : Nat
  rodata : Nat
  data : Nat
  spad : Nat
  face : Nat
  acc : Nat
  pt : Nat
  pfOff : Nat
  pfSize : Nat
  npal : Nat
  nspool : Nat
  palOff : Nat
  spoolOff : Nat
  const : Nat
deriving DecidableEq, Repr, Inhabited

/-- A batch handed to a cube (R232): its first task, how many tasks it has, and those that have not started (R237). -/
structure Batch where
  cube : CubeId
  first : Nat
  count : Nat
  left : List Nat
deriving DecidableEq, Repr

/-- A launch on the scoreboard (R226). `untaken` lists ranges of task indices, first and count; `batches` the batches handed
out whose last task has not started. -/
structure Launch where
  slot : BitVec 8
  gen : BitVec 8
  prio : BitVec 2
  ordered : Bool
  reports : Bool
  ntasks : Nat
  image : VA
  asn : BitVec 12
  part : BitVec 3
  launchId : BitVec 32
  done : VA
  faultRec : VA
  report : VA
  arg0 : Word
  arg1 : Word
  arrival : Nat
  header : Option Header
  untaken : List (Nat × Nat)
  batches : List Batch
  started : Nat
  retired : Nat
  refused : Nat
  /-- cubes on which a task of the launch has started (R235) -/
  seen : List CubeId
deriving DecidableEq, Repr

/-- A train (R246): its table entry, the key of its record and its members. -/
structure Train where
  entry : Nat
  key : Nat
  members : List Nat
deriving DecidableEq, Repr

/-- An evicted strand: its context, the cube it left, its save record in units of the pool (R242), and whether the cube it
left is excluded. -/
structure Evicted where
  ctx : Ctx
  cube : CubeId
  unit : Nat
  units : Nat
  away : Bool
deriving DecidableEq, Repr

/-- A partition register SCH_PARTn (R230). -/
structure PartReg where
  isOpen : Bool
  cubes : BitVec 8
deriving DecidableEq, Repr, Inhabited

/-- The atelier (chapter 08). `saves` are the save records of strands that are being evicted: identity, first unit and units
(R242). `firmware` is the SHA-384 measurement of the studio firmware that runs on it (R400, R405). -/
structure Atelier where
  board : List Launch
  gens : Vector (BitVec 8) 256
  arrivals : Nat
  starts : Nat
  trains : List Train
  evicted : List Evicted
  saves : List (Nat × Nat × Nat)
  parts : Vector PartReg 8
  saveBase : BitVec 27
  saveSize : BitVec 32
  onBridge1 : Bool
  firmware : Option (BitVec 384)
deriving DecidableEq, Repr

/-- A power group (R391, R392); `hist` keeps its last ten measurements since its step or its cap last changed, each with the package
power of the period, the latest first. -/
structure Group where
  cap : BitVec 16
  rank : BitVec 3
  step : BitVec 3
  power : BitVec 16
  byPart : Bool
  byRank : Bool
  byPkg : Bool
  byHost : Bool
  hist : List (Nat × Nat)
  lastCap : Nat
  unmet : Bool
deriving DecidableEq, Repr, Inhabited

/-- A cap broadcast (R391). -/
structure Broadcast where
  seq : BitVec 32
  active : Bool
  frac : BitVec 4
  rank : BitVec 3
deriving DecidableEq, Repr, Inhabited

/-- The package's power registers (R383, R391, R394, R395). -/
structure PkgPower where
  pkgCap : BitVec 16
  hostCap : BitVec 16
  watts : BitVec 16
  mv : BitVec 16
  range : Bool
  groups : Vector Group 9
  bcast : Broadcast
  next : Option Broadcast
deriving DecidableEq, Repr

/-- The package. -/
structure State where
  agenda : List Instr
  turn : Fin 9
  cycle : Word
  freeCtr : Nat
  nextId : Nat
  cubes : Vector Cube 8
  mem : List Host.Cell
  owners : List (Nat × BitVec 12)
  poison : List Nat
  items : List Item
  reads : List ReadReq
  msgs : List DirMsg
  watches : List (Nat × CubeId)
  notes : List (CubeId × Nat × Word)
  winq : List WindowOp
  misses : List Miss
  /-- the walker's cache of table pointers, and the requester whose turn it is to have a walk started: cubes 0 to 7, bridges 8
  and 9 (R103, R104) -/
  walkCache : List WalkPtr
  walkTurn : Fin 10
  tlbis : List Tlbi
  astBase : Word
  fab : Fabric
  secu : Security
  atl : Atelier
  power : PkgPower
  /-- management interrupts raised to the studio firmware (R383, R390, R367), and values returned to the host or to peers
  (R399, R405, R358), oldest first -/
  irqs : List Nat
  replies : List Word
deriving DecidableEq, Repr

/-! ### Reset. A value that the spec does not state is 0, false or empty (log entry 1). -/

def Regs.reset : Regs :=
  ⟨Vector.replicate 64 0, Vector.replicate 8 false, Vector.replicate 32 0, Vector.replicate 8 0⟩
def TrapRec.reset : TrapRec := ⟨0, 0, 0, 0⟩
/-- The reset seeds of R75 for task index i. -/
def strandSeedA (i : Nat) : Word := 0x9E3779B97F4A7C15 ^^^ BitVec.ofNat 64 i
def strandSeedB : Word := 0xD1B54A32D192ED03
def Noise.reset (i : Nat) : Noise := ⟨[], strandSeedA i, strandSeedB, false, strandSeedA i, strandSeedB⟩
def Spool.reset : Spool := ⟨0, 0, 0, 0, [], [], []⟩
def Partition.reset : Partition := ⟨0, 0, 0, 0, 0, 0, 0, 0, 0, 0, 0⟩
/-- A runtime or secure context has no partition: its aperture is the whole cube (R87). -/
def Partition.whole : Partition := ⟨0, 32, 0x0200_0000, 0, 1024, 0, 0x0080_0000, 0, 64, 0, 0x4_0000⟩
def SysRegs.reset : SysRegs :=
  ⟨0, 0, 0, 0, 0, .reset, 0, 0, 0, 0, 0, .reset, 0, 0⟩
def TaskInfo.reset : TaskInfo := ⟨0, 0, 0, 0, 0, 0, none, false, 0xFFF⟩
/-- A context as reset leaves it, with its identity and mode; the task index in the noise seed is 0 where no task runs (R75; DESIGN
CHOICE, log entry 101). -/
def Ctx.reset (sid : Nat) (mode : Mode) : Ctx :=
  { sid := sid, mode := mode, regs := .reset, lat := ⟨0, 0, 0, 0, 0, 0, 0⟩, pc := 0, issued := 0, loops := []
    sys := .reset, lineSeq := Vector.replicate 8 0, pending := [], pendAt := [], results := [], noise := .reset 0
    spools := Vector.replicate 32 .reset, binds := Vector.replicate 32 none, recipes := Vector.replicate 16 0
    fences := [], qfences := [], acqs := [], wait := .none, status := .ready, task := .reset
    part := match mode with | .task => .reset | _ => .whole }
def BundleState.reset : BundleState := ⟨none, false, none, .none, none, [], 0, false, false, 0, false, false, 0, false, 1, [], none⟩
/-- SEQ_WDOG (R150), SCH_QUANTUM (R239) and SCH_ACKTIMEOUT (R124). -/
def CoreRegs.reset : CoreRegs := ⟨false, 0, 16384, 100, 2000⟩
/-- DSC_LAYERl of an undamaged part (R32): thermal-via dies at even positions have 28 banks (R15). -/
def dscLayer (l : Nat) : Word :=
  let banks := if (l + 1) % 2 = 0 then 28 else 32
  let via := if (l + 1) % 2 = 0 then 1 else 0
  BitVec.ofNat 64 ((l + 1) * 2 ^ 28 + banks * 2 ^ 22 + banks * 2 ^ 16 + 64 * 2 ^ 8 + via * 2 ^ 7)
/-- Discovery registers of cube c (R29 to R32), CUB_LMAP (R308) and CUB_CAPS (R309). -/
def CubeHw.reset (c : Nat) : CubeHw :=
  { dscPkg := 0x1C0800FFFF000000 ||| BitVec.ofNat 64 c
    dscBase := 0x4000400200100810
    dscSpare := 0x0000004000000009
    layers := Vector.ofFn fun l => dscLayer l.val
    lmap := 0x87654321, caps := 0x1FFFFFFF, life := .live }
def Palettes.reset : Palettes := ⟨Vector.replicate 32 0, Vector.replicate 512 0⟩
/-- R306, R310, R331 to R334, R277, R338. -/
def EngRegs.reset : EngRegs :=
  { iovf := false, ioshelf := 0, skew := 0, skewNext := [], abft := true, nanovf := false
    drnSeed := 0x6A09E667F3BCC909, drnTol := 256, drnSkip := 0, drnCor := 0
    cpySeed := 0x2545F4914F6CDD1D, fsLost := 0
    blkBase := 0, blkSize := 0, blkCode := 0, blkCtl := 0, blkBuilding := false, blkReady := false
    blkHead := 0xFFFFFFFF, blkFree := 0, blkKeys := 0 }
/-- R372, R375, R376, R378, R381. -/
def ConRegs.reset : ConRegs :=
  { scrubRate := 64, scrubPos := Vector.replicate 6 0, scrubTurn := 0, ceLog := [], ueLog := []
    injAddr := 0, injKind := 0, injArm := false, injFired := false, fenceWindow := 3600000, fails := [], testsDue := []
    testing := none, evacPlan := 0, refused := false, evacTodo := [], evacMap := [], rowLog := [], repaired := [] }
def LayerPwr.reset : LayerPwr := ⟨0, 0, 0, false, false, false, false, false, false, 0, 0, 0, 0, 0, 0⟩
/-- R394, R396; every cube belongs to partition 0 (R230). -/
def PwrRegs.reset : PwrRegs :=
  { tWarn := 85, tThrot := 95, tTrip := 110, events := 0, cubeAmps := 240, gateIdle := 50, migStep := 4, migTime := 1000
    layers := Vector.replicate 8 .reset, sticky := 0, dieTrip := false, group := 0 }
def Cube.reset (c : Nat) : Cube :=
  { core := .reset (2 * c) .runtime, cur := .none, leave := .none, bundle := .reset, stall := 0, quantumUsed := 0
    shelves := Vector.replicate 16 none, rt := .reset (2 * c) .runtime, sec := .reset (2 * c + 1) .secure
    cregs := .reset, hw := .reset c, icache := [], tlb := [], small := Vector.replicate 6 [], edge := [], monitors := [], ready := [], patches := []
    pals := .reset, cmds := [], joins := [], recs := [], eng := .reset, con := .reset, pwr := .reset, admission := []
    debugHalted := false, debugHaltPending := false, stopped := false }
/-- R369: UALink ports have 4 lanes, ports 24 and 25 have 8. The Carben links (R10) are up, and 8 lanes stand for their full
width (log entry 1). -/
def Port.reset (n : Nat) : Port :=
  let w := if n < 24 then 4 else 8
  ⟨0, 0, 1, BitVec.ofNat 4 w, w, decide (26 ≤ n), false, 0, 0, false⟩
/-- R102, R356, R355, R358, R364, R367, R362, R406. -/
def FabRegs.reset : FabRegs :=
  { self := 0, peerBase := 0, planeMap := 0, drop := 0, rwBase := 0, rwSize := 0, rwGroup := 0
    rwCount := 0x0000000A00000001, migThresh := 65536, replayWarn := 0x000003E800000040
    replayRetrain := 0x0000000300000400, dead := 0, ckptDst := 0, ckptCtl := 0 }
def Fabric.reset : Fabric :=
  { regs := .reset, ports := Vector.ofFn fun n => .reset n.val, handshakes := [], entries := [], pairs := [], performed := [], lines := [], held := []
    migCounts := [], migQueue := [], ckpt := none }
/-- R401 to R403, R409. -/
def Security.reset : Security :=
  { svn := Config.fusedSvn, fail := 0, stage := 0, world := 0, regions := Vector.replicate 16 0, hdm := []
    hostLink0 := true, session := false, powered := true, gesso := 0 }
/-- R226, R230, R242. -/
def Atelier.reset : Atelier :=
  { board := [], gens := Vector.replicate 256 0, arrivals := 0, starts := 0, trains := [], evicted := [], saves := []
    parts := (Vector.replicate 8 ⟨false, 0⟩).set 0 ⟨true, 0xFF⟩, saveBase := 0, saveSize := 0, onBridge1 := false, firmware := none }
def Group.reset : Group := ⟨0, 0, 0, 0, false, false, false, false, [], 0, false⟩
/-- R394, R395. -/
def PkgPower.reset : PkgPower :=
  { pkgCap := 3200, hostCap := 0, watts := 0, mv := 0, range := false, groups := Vector.replicate 9 .reset
    bcast := ⟨0, false, 0, 0⟩, next := none }

/-- The package right after reset. No context runs yet (log entry 4). -/
def State.reset : State :=
  { agenda := [], turn := 0, cycle := 0, freeCtr := 0, nextId := 16, cubes := Vector.ofFn fun c => .reset c.val
    mem := [], owners := [], poison := [], items := [], reads := [], msgs := [], watches := [], notes := [], winq := []
    misses := [], walkCache := [], walkTurn := 0, tlbis := [], astBase := 0, fab := .reset, secu := .reset, atl := .reset, power := .reset
    irqs := [], replies := [] }

/-- What every meaning answers. -/
abbrev Out := Host.Outcome State Fault Refusal

end Sys2Proof.Machine
end

