-- ==== Sys2Proof/Machine/Memory.lean ====
section
/-! DEFINITION. Memory as bytes: one list of cells in canonical form (addresses strictly rising, no cell equal to the zero
byte that an unlisted address reads as, log entry 2), the keys of the device physical map (R90), and owner tags and poison
marks by 64-byte line. -/
namespace Sys2Proof.Machine

/-- What an unlisted address reads as (log entry 2). -/
def unlisted : Byte := 0

/-- The byte at an address. -/
def memByte : List Host.Cell → Nat → Byte
  | [], _ => unlisted
  | (b, v) :: t, a => if b = a then v else if a < b then unlisted else memByte t a
/-- One byte written, in canonical form. -/
def memSet : List Host.Cell → Nat → Byte → List Host.Cell
  | [], a, v => if v = unlisted then [] else [(a, v)]
  | (b, w) :: t, a, v =>
    if a < b then (if v = unlisted then (b, w) :: t else (a, v) :: (b, w) :: t)
    else if b = a then (if v = unlisted then t else (a, v) :: t)
    else (b, w) :: memSet t a v
/-- Bytes written in order; the last one to an address stays. -/
def memWrite (m : List Host.Cell) (cells : List (Nat × Byte)) : List Host.Cell :=
  cells.foldl (fun m c => memSet m c.1 c.2) m
/-- The n bytes from a. -/
def memRead (m : List Host.Cell) (a n : Nat) : List Byte := (List.range n).map fun k => memByte m (a + k)

/-- Addresses strictly rise from lo on, and no cell holds the unlisted byte. -/
def memOk : Nat → List Host.Cell → Bool
  | _, [] => true
  | lo, (a, v) :: t => decide (lo ≤ a) && v != unlisted && memOk (a + 1) t
/-- The canonical form. -/
abbrev Memory.wf (m : List Host.Cell) : Prop := memOk 0 m = true

/-- Bytes as a little-endian number (R5). -/
def packLE (bs : List Byte) : Nat := bs.foldr (fun b a => b.toNat + 256 * a) 0
/-- The n low bytes of a number, the least significant first. -/
def bytesLE : Nat → Nat → List Byte
  | 0, _ => []
  | n + 1, v => BitVec.ofNat 8 v :: bytesLE n (v / 256)
/-- Bytes laid at consecutive addresses. -/
def cellsAt (a : Nat) (bs : List Byte) : List (Nat × Byte) := bs.mapIdx fun k b => (a + k, b)
def memNat (m : List Host.Cell) (a n : Nat) : Nat := packLE (memRead m a n)
def memWord (m : List Host.Cell) (a : Nat) : Word := BitVec.ofNat 64 (memNat m a 8)

/-! ### The device physical map (R90, R91, R398). Keys below 2^48 are DPAs of this package; peer p's DPA d is the key
(p + 1) × 2^48 + d. -/

def dpaSpan : Nat := 2 ^ 48
def hbmTop : Nat := 0x80_0000_0000
def windowBase (k : CubeId) : Nat := 0x100_0000_0000 + k.val * 0x1_0000_0000
def accOffset : Nat := 0x0400_0000
def faceOffset (l : Nat) : Nat := 0x1000_0000 + l * 0x0200_0000
def constOffset : Nat := 0x2000_0000
def shelfOffset (s : Nat) : Nat := 0x3000_0000 + s * 0x1_0000
def sysOffset : Nat := 0x3800_0000
def bridgeBase (b : Nat) : Nat := 0x200_0000_0000 + b * 0x10_0000_0000

/-- What stands at a key of the map. Windows carry the cube or bridge and the offset in it. -/
inductive Space where
  | hbm (stack : Nat)
  | scratch (c : CubeId) (off : Nat)
  | acc (c : CubeId) (off : Nat)
  | face (c : CubeId) (layer : Nat) (b : Bool) (off : Nat)
  | plane (c : CubeId) (layer : Nat) (off : Nat)
  | constant (c : CubeId) (off : Nat)
  | shelf (c : CubeId) (s : Nat) (off : Nat)
  | sysreg (c : CubeId) (n : Nat)
  | aperture (b : Nat) (off : Nat)
  | bridgeReg (b : Nat) (n : Nat)
  | cxlComponent (b : Nat) (off : Nat)
  | host
  | cxl
  | peer (p : Nat) (dpa : Nat)
  | none
deriving DecidableEq, Repr, Inhabited

/-- The place that an offset of cube c's window names (R91); face banks that a layer lacks are no place (R16). -/
def windowSpace (c : CubeId) (abanks bbanks : Nat → Nat) (off : Nat) : Space :=
  if off < 0x0200_0000 then .scratch c off
  else if accOffset ≤ off ∧ off < accOffset + 0x0100_0000 then .acc c (off - accOffset)
  else if 0x1000_0000 ≤ off ∧ off < 0x2000_0000 then
    let l := (off - 0x1000_0000) / 0x0200_0000
    let r := (off - 0x1000_0000) % 0x0200_0000
    if r < 0x0080_0000 then (if r / 0x4_0000 < abanks l then .face c l false r else .none)
    else if r < 0x0100_0000 then
      (if (r - 0x0080_0000) / 0x4_0000 < bbanks l then .face c l true (r - 0x0080_0000) else .none)
    else if r < 0x0110_0000 then .plane c l (r - 0x0100_0000)
    else .none
  else if constOffset ≤ off ∧ off < constOffset + 0x4_0000 then .constant c (off - constOffset)
  else if 0x3000_0000 ≤ off ∧ off < 0x3010_0000 then
    let s := (off - 0x3000_0000) / 0x1_0000
    let o := (off - 0x3000_0000) % 0x1_0000
    if o < 0x6000 then .shelf c s o else .none
  else if sysOffset ≤ off ∧ off < sysOffset + 0x8000 then .sysreg c ((off - sysOffset) / 8)
  else .none

/-- The home of a key (R108), as a number: stacks 0 to 7, cube windows 8 to 15, bridge windows 16 and 17, host 18, CXL 19,
and each peer's homes from 32 on, 32 for every peer. -/
def homeOfDpa (d : Nat) : Nat :=
  if d < hbmTop then d / 0x10_0000_0000
  else if d < 0x200_0000_0000 then 8 + (d - 0x100_0000_0000) / 0x1_0000_0000
  else if d < 0x300_0000_0000 then 16 + (d - 0x200_0000_0000) / 0x10_0000_0000
  else if d < 0x400_0000_0000 then 18
  else if d < 0x800_0000_0000 then 19
  else 18
def homeOf (key : Nat) : Nat :=
  if key < dpaSpan then homeOfDpa key else 32 * (key / dpaSpan) + homeOfDpa (key % dpaSpan)
/-- The peer that a key belongs to. -/
def peerOf (key : Nat) : Option Nat := if key < dpaSpan then none else some (key / dpaSpan - 1)

/-- The owner tag of the line of a key (R373); a line that was never tagged belongs to nobody. -/
def ownerOf (os : List (Nat × BitVec 12)) (line : Nat) : BitVec 12 :=
  match os.find? fun o => o.1 == line with
  | some o => o.2
  | none => 0xFFF
def setOwner (os : List (Nat × BitVec 12)) (line : Nat) (t : BitVec 12) : List (Nat × BitVec 12) :=
  let rest := os.filter fun o => o.1 != line
  if t = 0xFFF then rest else (line, t) :: rest

end Sys2Proof.Machine
end

