-- ==== Sys2Proof/Machine/Access.lean ====
section
/-! DEFINITION. Reaching into the state: the cube that moves, its running context, reads of registers and latches, and the
named updates that every meaning uses. -/
namespace Sys2Proof.Machine

/-- The cube whose turn it is. -/
def State.me (s : State) : CubeId := if h : s.turn.val < 8 then ⟨s.turn.val, h⟩ else 0
def State.cube (s : State) (c : CubeId) : Cube := s.cubes.get c
def State.setCube (s : State) (c : CubeId) (k : Cube) : State := { s with cubes := s.cubes.set c k }
def State.modCube (s : State) (c : CubeId) (f : Cube → Cube) : State := s.setCube c (f (s.cube c))
/-- The running context of the cube whose turn it is. -/
def State.ctx (s : State) : Ctx := (s.cube s.me).core
def Cube.modCore (k : Cube) (f : Ctx → Ctx) : Cube := { k with core := f k.core }
def Cube.modBundle (k : Cube) (f : BundleState → BundleState) : Cube := { k with bundle := f k.bundle }
def State.modCtx (s : State) (f : Ctx → Ctx) : State := s.modCube s.me fun k => k.modCore f
def State.modBundle (s : State) (f : BundleState → BundleState) : State := s.modCube s.me fun k => k.modBundle f
def State.bundle (s : State) : BundleState := (s.cube s.me).bundle
/-- A fresh identity. -/
def State.fresh (s : State) : Nat × State := (s.nextId, { s with nextId := s.nextId + 1 })
/-- A fresh free byte (log entry 5). -/
def State.freeByte (s : State) : Byte × State := (Config.freeByte s.freeCtr, { s with freeCtr := s.freeCtr + 1 })

/-! ### Register reads (R50): s0 reads zero, p0 true, m0 all ones -/

def Ctx.s (c : Ctx) (r : SReg) : Word := if r = 0 then 0 else c.regs.s.get r.toFin
def Ctx.p (c : Ctx) (r : PReg) : Bool := if r = 0 then true else c.regs.p.get r.toFin
def Ctx.v (c : Ctx) (r : VReg) : VWord := c.regs.v.get r.toFin
def Ctx.m (c : Ctx) (r : MReg) : MWord := if r = 0 then BitVec.allOnes 256 else c.regs.m.get r.toFin

/-! ### Register writes: s0, p0 and m0 discard them -/

def Ctx.setS (c : Ctx) (r : SReg) (v : Word) : Ctx :=
  if r = 0 then c else { c with regs := { c.regs with s := c.regs.s.set r.toNat v r.isLt } }
def Ctx.setP (c : Ctx) (r : PReg) (v : Bool) : Ctx :=
  if r = 0 then c else { c with regs := { c.regs with p := c.regs.p.set r.toNat v r.isLt } }
def Ctx.setV (c : Ctx) (r : VReg) (v : VWord) : Ctx :=
  { c with regs := { c.regs with v := c.regs.v.set r.toNat v r.isLt } }
def Ctx.setM (c : Ctx) (r : MReg) (v : MWord) : Ctx :=
  if r = 0 then c else { c with regs := { c.regs with m := c.regs.m.set r.toNat v r.isLt } }
/-- A scalar latch written (b1, b4, b6, b7). -/
def Ctx.setLatchS (c : Ctx) (n : BitVec 3) (v : Word) : Ctx :=
  match n.toNat with
  | 1 => { c with lat := { c.lat with b1 := v } }
  | 4 => { c with lat := { c.lat with b4 := v } }
  | 6 => { c with lat := { c.lat with b6 := v } }
  | 7 => { c with lat := { c.lat with b7 := v } }
  | _ => c
/-- A vector latch written (b2, b3, b5). -/
def Ctx.setLatchV (c : Ctx) (n : BitVec 3) (v : VWord) : Ctx :=
  match n.toNat with
  | 2 => { c with lat := { c.lat with b2 := v } }
  | 3 => { c with lat := { c.lat with b3 := v } }
  | 5 => { c with lat := { c.lat with b5 := v } }
  | _ => c

/-- UNCORRECTABLE, ACK_TIMEOUT, VOTE_SPLIT and DATAPATH_ERROR are deferred (R147). -/
def Trap.deferred (t : Trap) : Bool := t.cause == 0x09 || t.cause == 0x0B || t.cause == 0x12 || t.cause == 0x13
/-- A trap goes before another in the order in which they are taken: deferred ones first, in issue order (R148). -/
def Trap.goesBefore (t : Trap) (pos : Nat) (u : Trap × Nat) : Bool :=
  t.deferred && (!u.1.deferred || decide (pos < u.2))
/-- A trap is added to those waiting in a context; of one cause only the earliest in issue order stays (R148). -/
def Ctx.addPending (c : Ctx) (t : Trap) (pos : Nat) : Ctx :=
  let ps := c.pending.zip c.pendAt
  if ps.any fun u => u.1.cause == t.cause && decide (u.2 ≤ pos) then c
  else
    let rest := ps.filter fun u => u.1.cause != t.cause
    let new := (rest.takeWhile fun u => !t.goesBefore pos u) ++ (t, pos) :: rest.dropWhile fun u => !t.goesBefore pos u
    { c with pending := new.map Prod.fst, pendAt := new.map Prod.snd }

end Sys2Proof.Machine
end

