-- ==== Sys2Proof/Machine/Image.lean ====
section
/-! DEFINITION. The shelf image (R153, R154, R286, R195): what each byte of a saved context reads as, and the context that a
changed image gives at switch-in. -/
namespace Sys2Proof.Machine

/-- Byte k of a word. -/
def wordByte (w : Word) (k : Nat) : Byte := (w >>> (8 * k)).setWidth 8
def bytesWord (f : Nat → Byte) (off : Nat) : Word :=
  BitVec.ofNat 64 (packLE ((List.range 8).map fun k => f (off + k)))
/-- n bytes from off as a number. -/
def bytesNat (f : Nat → Byte) (off n : Nat) : Nat := packLE ((List.range n).map fun k => f (off + k))

/-! ### Replay entries (R152, R154) -/

def isScalarResult (r : Result) : Bool :=
  match r.kind with
  | .scalar | .pred | .latchS => true
  | _ => false
/-- Results with their issue order. -/
def numbered (rs : List Result) : List (Nat × Result) := rs.mapIdx fun k r => (k, r)
def scalarReplay (rs : List Result) : List (Nat × Result) := (numbered rs).filter fun p => isScalarResult p.2
def vectorReplay (rs : List Result) : List (Nat × Result) := (numbered rs).filter fun p => !isScalarResult p.2
def kindCode : DestKind → Word
  | .scalar => 0 | .pred => 1 | .vector => 2 | .mask => 3 | .latchS => 4 | .latchV => 4
def combCode : Comb → Word
  | .plain => 0 | .and => 1 | .or => 2
/-- The tag of a replay entry (R154). -/
def replayTag (seqno : Nat) (r : Result) : Word :=
  (1 <<< 63) ||| (BitVec.ofNat 64 (r.rem % 16) <<< 52) ||| (kindCode r.kind <<< 48) ||| (r.dest.setWidth 64 <<< 40) |||
  (r.latch.setWidth 64 <<< 36) ||| (combCode r.comb <<< 34) |||
  (match r.sec with
   | some (d, _) => (1 <<< 33) ||| (d.setWidth 64 <<< 26)
   | none => 0) ||| (BitVec.ofNat 64 (seqno % 64) <<< 20)

/-! ### Reading an image -/

def bitsOfPreds (p : Vector Bool 8) : Word :=
  BitVec.ofNat 64 (1 + ((List.range 7).foldl (fun a k => a + if p.toList.getD (k + 1) false then 2 ^ (k + 1) else 0) 0))
def loopWord (l : LoopEntry) (hi : Bool) : Word :=
  if hi then (l.count.setWidth 64 <<< 32) ||| BitVec.ofNat 64 ((l.last - l.start).toNat / 16)
  else l.start.setWidth 64
/-- A pending trap's SEQ_CAUSE word with its slots (R153). -/
def pendingWord (t : Trap) : Word :=
  t.cause.setWidth 64 ||| (t.acc.setWidth 64 <<< 12) ||| (t.kind.setWidth 64 <<< 16) ||| (t.code.setWidth 64 <<< 24) |||
  (t.slots.setWidth 64 <<< 30)
def recWord (r : TrapRec) (k : Nat) : Word :=
  match k with | 0 => r.cause | 1 => r.tpc | 2 => r.taddr | 3 => r.slots | _ => 0
def bindWord (b : Option Binding) (k : Nat) : Word :=
  match b with
  | none => 0
  | some b =>
    match k with
    | 0 => b.counter.setWidth 64 | 1 => b.base.setWidth 64 | 2 => BitVec.ofNat 64 b.size | 3 => 1 | _ => 0
def spoolWord (s : Spool) (k : Nat) : Word :=
  match k with
  | 0 => s.loc | 1 => s.size | 2 => s.p.setWidth 64 ||| (s.c.setWidth 64 <<< 32) | _ => 0
def noiseWord (n : Noise) (k : Nat) : Word :=
  if k < 64 then n.queue.getD k 0
  else
    match k - 64 with
    | 0 => n.a | 1 => n.b | 2 => BitVec.ofNat 64 n.queue.length | 3 => if n.ent then 1 else 0 | 4 => n.seedA | 5 => n.seedB
    | _ => 0
/-- Palette byte of an image (R153): partition bank b of scratch, then 64 bytes for each layer and side. -/
def palByte (pl : Palettes) (p : Partition) (o : Nat) : Byte :=
  if o < 32 then if o < p.scrBanks then (pl.scr.toList.getD (p.scrBase + o) 0).setWidth 8 else 0
  else if o < 64 then 0
  else if o < 0x440 then
    let side := (o - 64) / 512
    let r := (o - 64) % 512
    if r % 64 * 0x4_0000 < p.faceBytes ∧ r % 64 < 32 then
      (pl.face.toList.getD (64 * (r / 64) + 32 * side + p.faceBase + r % 64) 0).setWidth 8
    else 0
  else 0
/-- The dword at an offset (a multiple of 8) of the parts of an image that are made of dwords. -/
def imageDword (x : Ctx) (off : Nat) : Word :=
  if off < 0x200 then (if off = 0 then 0 else x.regs.s.toList.getD (off / 8) 0)
  else if off < 0x240 then
    (match (off - 0x200) / 8 with | 0 => x.lat.b1 | 1 => x.lat.b4 | 2 => x.lat.b6 | 3 => x.lat.b7 | _ => 0)
  else if off < 0x280 then
    (match x.loops[(off - 0x240) / 16]? with | some l => loopWord l ((off / 8) % 2 == 1) | none => 0)
  else if off < 0x2C0 then
    (match (off - 0x280) / 8 with
     | 0 => x.pc.setWidth 64 | 1 => bitsOfPreds x.regs.p | 2 => x.sys.frm.setWidth 64 | 3 => x.sys.broken.setWidth 64
     | 4 => x.sys.asn.setWidth 64 | 5 => BitVec.ofNat 64 x.loops.length
     | 6 => BitVec.ofNat 64 ((scalarReplay x.results).length + 256 * (vectorReplay x.results).length)
     | _ => BitVec.ofNat 64 x.pending.length)
  else if off < 0x300 then (if off = 0x2C0 then 0 else BitVec.ofNat 64 (x.lineSeq.toList.getD ((off - 0x2C0) / 8) 0))
  else if off < 0x800 then recWord x.sys.lastTrap ((off - 0x700) / 8)
  else if off < 0xC00 then spoolWord (x.spools.toList.getD ((off - 0x800) / 32) .reset) (off / 8 % 4)
  else if off < 0x1000 then bindWord (x.binds.toList.getD ((off - 0xC00) / 32) none) (off / 8 % 4)
  else if off < 0x1400 then noiseWord x.noise ((off - 0x1000) / 8)
  else if off < 0x1C00 then 0
  else if off < 0x1D00 then
    ((x.recipes.toList.getD ((off - 0x1C00) / 16) 0) >>> (64 * (off / 8 % 2))).setWidth 64
  else if off < 0x1F00 then
    (match (scalarReplay x.results)[(off - 0x1D00) / 16]? with
     | some (k, r) => if off / 8 % 2 = 0 then replayTag k r else r.val
     | none => 0)
  else if off < 0x1F28 then
    (match (off - 0x1F00) / 8 with
     | 0 => x.sys.codeLo.setWidth 64 | 1 => x.sys.codeHi.setWidth 64 | 2 => x.sys.tinfo | 3 => x.sys.larg0
     | _ => x.sys.larg1)
  else if off < 0x1F68 then
    (match x.pending[(off - 0x1F28) / 16]? with
     | some t => if (off - 0x1F28) / 8 % 2 = 0 then pendingWord t else t.addr.setWidth 64
     | none => 0)
  else if off < 0x5000 then 0
  else if off < 0x5400 then
    (match (vectorReplay x.results)[(off - 0x5000) / 64]? with
     | some (k, r) =>
       (match (off - 0x5000) / 8 % 8 with
        | 0 => replayTag k r
        | 1 => (match r.sec with | some (_, v) => v | none => 0)
        | 2 | 3 | 4 | 5 => (r.en >>> (64 * ((off - 0x5000) / 8 % 8 - 2))).setWidth 64
        | _ => 0)
     | none => 0)
  else 0
/-- A byte of a context's image, with the palettes of its partition (R153). -/
def imageByte (pl : Palettes) (x : Ctx) (off : Nat) : Byte :=
  if 0x300 ≤ off ∧ off < 0x400 then
    let n := (off - 0x300) / 32
    let m := if n = 0 then BitVec.allOnes 256 else x.regs.m.toList.getD n 0
    (m >>> (8 * (off % 32))).setWidth 8
  else if 0x400 ≤ off ∧ off < 0x700 then
    let v : VWord := match (off - 0x400) / 256 with | 0 => x.lat.b2 | 1 => x.lat.b3 | _ => x.lat.b5
    (v >>> (8 * (off % 256))).setWidth 8
  else if 0x1400 ≤ off ∧ off < 0x1C00 then palByte pl x.part (off - 0x1400)
  else if 0x2000 ≤ off ∧ off < 0x4000 then
    ((x.regs.v.toList.getD ((off - 0x2000) / 256) 0) >>> (8 * (off % 256))).setWidth 8
  else if 0x4000 ≤ off ∧ off < 0x5000 then
    (match (vectorReplay x.results)[(off - 0x4000) / 256]? with
     | some (_, r) => (r.vec >>> (8 * (off % 256))).setWidth 8
     | none => 0)
  else wordByte (imageDword x (off / 8 * 8)) (off % 8)

/-! ### Spool descriptors and recipes: what makes them valid (R22, R286, R318) -/

/-- A descriptor is defined (R286): its location and size words meet R22 and lie inside the partition. -/
def spoolDefined (p : Partition) (loc size : Word) : Bool :=
  let region := (loc >>> 62).toNat
  let base := (loc.setWidth 32).toNat
  let cap := (size.extractLsb' 32 13).toNat
  let es := (size.setWidth 32).toNat
  let top := base + es * cap
  loc.extractLsb' 32 30 == 0 && size.extractLsb' 45 19 == 0 &&
  decide (1 ≤ cap) && decide (cap ≤ 4096) && decide (16 ≤ es) && decide (es ≤ 0x10_0000) && es % 16 == 0 &&
  (match region with
   | 1 => decide (top ≤ p.spadBytes)
   | 2 => if base < 0x80_0000 then decide (top ≤ p.faceBytes)
          else decide (top ≤ 0x80_0000 + p.faceBytes) && decide (base < 0x100_0000)
   | _ => false)
/-- A recipe is valid (R318). -/
def recipeValid (r : BitVec 128) : Bool :=
  let smode := (r.extractLsb' 34 2).toNat
  let bias := r.getLsbD 36
  let act := (r.extractLsb' 37 3).toNat
  let split := r.getLsbD 45
  let lskd := (r.extractLsb' 46 7).toNat
  let lsmask : BitVec 8 := r.extractLsb' 53 8
  let n := ((List.range 8).filter fun k => lsmask.getLsbD k).length
  let vec := (r.extractLsb' 64 32).toNat
  let side := (r.extractLsb' 96 32).toNat
  r.extractLsb' 61 3 == 0 && !r.getLsbD 43 && r.extractLsb' 32 2 == 0 &&
  smode != 3 && decide (act ≤ 5) && decide ((r.extractLsb' 40 3).toNat ≤ 4) &&
  (if split then lsmask != 0 && decide (1 ≤ lskd) && decide (lskd * n ≤ 64) && !r.getLsbD 44
   else lsmask == 0 && lskd == 0) &&
  (smode == 1 || r.extractLsb' 0 32 == 0) && (smode == 2 || bias || vec == 0) && (act == 5 || side == 0) &&
  vec % 16 == 0 && side % 16 == 0
/-- A palette byte is installed: its format and rounding mode are not reserved (R67). -/
def paletteValid (b : BitVec 7) : Bool := decide ((b.extractLsb' 0 4).toNat < 12) && decide ((b.extractLsb' 4 3).toNat < 5)

/-! ### The context that an image gives (R92, R153, R154) -/

def kindOfCode (vec : Bool) (k : Nat) : Option DestKind :=
  match vec, k with
  | false, 0 => some .scalar | false, 1 => some .pred | false, 4 => some .latchS
  | true, 2 => some .vector | true, 3 => some .mask | true, 4 => some .latchV
  | _, _ => none
def combOfCode (k : Nat) : Comb := match k with | 1 => .and | 2 => .or | _ => .plain
/-- A replay entry as its tag says it, with its issue order; a reserved kind, REM = 0 or an entry that holds nothing is
dropped (R154). A kind that its area cannot hold is dropped too, and LATCH and DEST keep the bits that name a latch and a
register (DESIGN CHOICE, log entry 22). What a tag does not say stays that of the entry that stood there with the same tag. -/
def replayEntry (vec : Bool) (old : Option (Nat × Result)) (tag val : Word) (secv : Word) (v : VWord) (en : MWord) :
    Option (Nat × Result) :=
  let same : Option Result := match old with
    | some (k, r) => if replayTag k r = tag then some r else none
    | none => none
  match kindOfCode vec (tag.extractLsb' 48 4).toNat with
  | none => none
  | some k =>
    let rem := (tag.extractLsb' 52 4).toNat
    if rem = 0 ∨ !tag.getLsbD 63 then none
    else some ((tag.extractLsb' 20 6).toNat,
      { rem := rem, kind := k, dest := tag.extractLsb' 40 6, latch := tag.extractLsb' 36 3
        comb := combOfCode (tag.extractLsb' 34 2).toNat, val := val, vec := v, en := en
        sec := if vec && tag.getLsbD 33 then some (tag.extractLsb' 26 6, secv) else none
        tv := (same.map Result.tv).getD false, cls := (same.map Result.cls).getD 0, pos := (same.map Result.pos).getD 0
        also := (same.map Result.also).getD 0, chk := (same.map Result.chk).getD false })
/-- Entries in issue order; equal numbers keep their places. -/
def insertSeq (e : Nat × Result) : List (Nat × Result) → List (Nat × Result)
  | [] => [e]
  | h :: t => if e.1 < h.1 then e :: h :: t else h :: insertSeq e t
def sortSeq (es : List (Nat × Result)) : List Result := (es.foldl (fun a e => insertSeq e a) []).map Prod.snd
/-- Causes that R147 can raise. -/
def causeRaised (c : Nat) : Bool := decide (1 ≤ c) && decide (c ≤ 0x16) && c != 0x0E
def pendingOf (f : Nat → Byte) (k : Nat) : Option Trap :=
  let w := bytesWord f (0x1F28 + 16 * k)
  if causeRaised (w.setWidth 8).toNat then
    some ⟨w.setWidth 8, w.extractLsb' 24 6, w.extractLsb' 16 4, w.extractLsb' 12 4, w.extractLsb' 30 4,
      (bytesWord f (0x1F30 + 16 * k)).setWidth 52⟩
  else none
def loopOf (f : Nat → Byte) (k : Nat) : LoopEntry :=
  let st : VA := (bytesWord f (0x240 + 16 * k)).setWidth 52
  let w := bytesWord f (0x248 + 16 * k)
  ⟨st, st + BitVec.ofNat 52 ((w.setWidth 32).toNat * 16), w.extractLsb' 32 32⟩
def bindOf (f : Nat → Byte) (k : Nat) : Option Binding :=
  let ctr := bytesWord f (0xC00 + 32 * k)
  let base := bytesWord f (0xC08 + 32 * k)
  let size := (bytesWord f (0xC10 + 32 * k)).toNat
  let v := bytesWord f (0xC18 + 32 * k)
  if v = 1 ∧ ctr.toNat < 2 ^ 52 ∧ base.toNat < 2 ^ 52 ∧ base.toNat % 4096 = 0 ∧ size % 4096 = 0 ∧ 4096 ≤ size ∧ size ≤ 2 ^ 52
  then some ⟨ctr.setWidth 52, base.setWidth 52, size⟩ else none
def spoolOf (p : Partition) (old : Spool) (f : Nat → Byte) (k : Nat) : Spool :=
  let loc := bytesWord f (0x800 + 32 * k)
  let size := bytesWord f (0x808 + 32 * k)
  let w := bytesWord f (0x810 + 32 * k)
  if spoolDefined p loc size then { old with loc := loc, size := size, p := w.setWidth 32, c := w.extractLsb' 32 32 }
  else .reset
def recipeOf (f : Nat → Byte) (k : Nat) : BitVec 128 :=
  let r := BitVec.ofNat 128 (bytesNat f (0x1C00 + 16 * k) 16)
  if recipeValid r then r else 0
def noiseOf (f : Nat → Byte) : Noise :=
  let n := min 64 (bytesWord f 0x1210).toNat
  { queue := (List.range n).map fun k => bytesWord f (0x1000 + 8 * k)
    a := bytesWord f 0x1200, b := bytesWord f 0x1208, ent := (f 0x1218).getLsbD 0
    seedA := bytesWord f 0x1220, seedB := bytesWord f 0x1228 }
/-- The context that the image bytes f give; identity, mode, task, partition and what the image does not hold stay. -/
def parseImage (x : Ctx) (f : Nat → Byte) : Ctx :=
  let d := bytesWord f
  let ns := min 32 ((d 0x2B0).extractLsb' 0 6).toNat
  let nv := min 16 ((d 0x2B0).extractLsb' 8 5).toNat
  let sc := (List.range ns).filterMap fun k => replayEntry false (scalarReplay x.results)[k]? (d (0x1D00 + 16 * k)) (d (0x1D08 + 16 * k)) 0 0 0
  let ve := (List.range nv).filterMap fun k =>
    replayEntry true (vectorReplay x.results)[k]? (d (0x5000 + 64 * k)) 0 (d (0x5008 + 64 * k)) (BitVec.ofNat 2048 (bytesNat f (0x4000 + 256 * k) 256))
      (BitVec.ofNat 256 (bytesNat f (0x5010 + 64 * k) 32))
  { x with
    regs :=
      { s := Vector.ofFn fun n => if n.val = 0 then 0 else d (8 * n.val)
        p := Vector.ofFn fun n => n.val == 0 || (d 0x288).getLsbD n.val
        v := Vector.ofFn fun n => BitVec.ofNat 2048 (bytesNat f (0x2000 + 256 * n.val) 256)
        m := Vector.ofFn fun n => BitVec.ofNat 256 (bytesNat f (0x300 + 32 * n.val) 32) }
    lat :=
      { b1 := d 0x200, b4 := d 0x208, b6 := d 0x210, b7 := d 0x218
        b2 := BitVec.ofNat 2048 (bytesNat f 0x400 256), b3 := BitVec.ofNat 2048 (bytesNat f 0x500 256)
        b5 := BitVec.ofNat 2048 (bytesNat f 0x600 256) }
    loops := (List.range (min 4 ((d 0x2A8).extractLsb' 0 3).toNat)).map (loopOf f)
    pc := (d 0x280).setWidth 52 &&& ~~~(0xF : VA)
    sys := { x.sys with
      frm := if ((d 0x290).extractLsb' 0 3).toNat ≤ 4 then (d 0x290).setWidth 3 else x.sys.frm
      broken := (d 0x298).setWidth 8 &&& 0xFE
      asn := (d 0x2A0).setWidth 12
      lastTrap := ⟨d 0x700, d 0x708, d 0x710, d 0x718⟩
      codeLo := (d 0x1F00).setWidth 52 &&& ~~~(0xF : VA), codeHi := (d 0x1F08).setWidth 52 &&& ~~~(0xF : VA)
      larg0 := d 0x1F18, larg1 := d 0x1F20 }
    lineSeq := Vector.ofFn fun n => if n.val = 0 then 0 else (d (0x2C0 + 8 * n.val)).toNat
    pending := (List.range (min 4 ((d 0x2B8).extractLsb' 0 3).toNat)).filterMap (pendingOf f)
    pendAt := if (List.range (min 4 ((d 0x2B8).extractLsb' 0 3).toNat)).filterMap (pendingOf f) = x.pending then x.pendAt
              else [0, 0, 0, 0]
    results := sortSeq (sc ++ ve)
    noise := noiseOf f
    spools := Vector.ofFn fun n => spoolOf x.part (x.spools.get n) f n.val
    binds := Vector.ofFn fun n => bindOf f n.val
    recipes := Vector.ofFn fun n => recipeOf f n.val }
/-- The palettes that the image bytes give for the banks of a partition (R67, R153). -/
def parsePalettes (pl : Palettes) (p : Partition) (f : Nat → Byte) : Palettes :=
  let pick (old : BitVec 7) (off : Nat) : BitVec 7 :=
    let b : BitVec 7 := (f (0x1400 + off)).setWidth 7
    if paletteValid b then b else old
  { scr := Vector.ofFn fun n =>
      if p.scrBase ≤ n.val ∧ n.val < p.scrBase + p.scrBanks then pick (pl.scr.get n) (n.val - p.scrBase) else pl.scr.get n
    face := Vector.ofFn fun n =>
      let b := n.val % 32
      if p.faceBase ≤ b ∧ (b - p.faceBase) * 0x4_0000 < p.faceBytes then
        pick (pl.face.get n) (64 + 512 * (n.val % 64 / 32) + 64 * (n.val / 64) + (b - p.faceBase))
      else pl.face.get n }
/-- Bits that a window write to a byte of the dwords at 0x280 to 0x2BF changes. -/
def stateMask (o : Nat) : Byte :=
  match o with
  | 0 => 0xF0 | 1 | 2 | 3 | 4 | 5 => 0xFF | 6 => 0x0F
  | 0x08 => 0xFE | 0x10 => 7 | 0x18 => 0xFE | 0x20 => 0xFF | 0x21 => 0x0F | 0x28 => 7 | 0x30 => 0x3F | 0x31 => 0x1F | 0x38 => 7
  | _ => 0
/-- Bits of byte o of a 52-bit address that stands in a dword; the low four bits of one of a bundle are RES0 (R148). -/
def vaMask (bundle : Bool) (o : Nat) : Byte := if o = 0 ∧ bundle then 0xF0 else if o < 6 then 0xFF else if o = 6 then 0x0F else 0
/-- Bits of byte o of SEQ_CAUSE, and of an entry of the pending trap list, which has SEQ_SLOTS in bits [33:30] (R148, R153). -/
def causeMask (slots : Bool) (o : Nat) : Byte :=
  match o with
  | 0 => 0xFF | 1 => 0xF0 | 2 => 0x0F | 3 => if slots then 0xFF else 0x3F | 4 => if slots then 3 else 0 | _ => 0
/-- Bits of byte o of a trap record. -/
def recordMask (o : Nat) : Byte :=
  if o < 8 then causeMask false o
  else if o < 16 then vaMask true (o - 8)
  else if o < 24 then vaMask false (o - 16)
  else if o = 24 then 0x0F else 0
/-- Bits of byte o of a replay tag (R154). -/
def tagMask (o : Nat) : Byte :=
  match o with
  | 2 => 0xF0 | 3 | 5 | 6 => 0xFF | 4 => 0xFE | 7 => 0x80 | _ => 0
/-- Bits that a window write to a byte of an image changes (R153): none of s0, of SEQ_TINFO and of what is RES0 (R6). -/
def imageMask (off : Nat) : Byte :=
  if off < 8 then 0
  else if off < 0x220 then 0xFF
  else if off < 0x240 then 0
  else if off < 0x280 then 0xFF
  else if off < 0x2C0 then stateMask (off - 0x280)
  else if off < 0x2C8 then 0
  else if off < 0x300 then 0xFF
  else if off < 0x320 then 0
  else if off < 0x700 then 0xFF
  else if off < 0x800 then recordMask (off - 0x700)
  else if off < 0xC00 then
    (let o := off % 32
     if o = 4 ∨ o = 5 ∨ o = 6 then 0 else if o = 7 then 0xC0 else if o = 13 then 0x1F else if o = 14 ∨ o = 15 ∨ 24 ≤ o then 0
     else 0xFF)
  else if off < 0x1000 then (if off % 32 < 24 then 0xFF else if off % 32 = 24 then 1 else 0)
  else if off < 0x1218 then 0xFF
  else if off = 0x1218 then 1
  else if off < 0x1220 then 0
  else if off < 0x1230 then 0xFF
  else if off < 0x1400 then 0
  else if off < 0x1C00 then 0x7F
  else if off < 0x1D00 then 0xFF
  else if off < 0x1F00 then (if off % 16 < 8 then tagMask (off % 16) else 0xFF)
  else if off < 0x1F10 then vaMask true (off % 8)
  else if off < 0x1F18 then 0
  else if off < 0x1F28 then 0xFF
  else if off < 0x1F68 then
    (let o := (off - 0x1F28) % 16
     if o < 8 then causeMask true o else vaMask false (o - 8))
  else if off < 0x2000 then 0
  else if off < 0x5000 then 0xFF
  else if off < 0x5400 then (if off % 64 < 8 then tagMask (off % 64) else if off % 64 < 48 then 0xFF else 0)
  else 0
/-- The bytes of an image with window writes over it. The last write to a byte stays. -/
def patchedByte (pl : Palettes) (x : Ctx) (ps : List (Nat × Byte)) (off : Nat) : Byte :=
  match ps.foldl (fun (b : Option Byte) p => if p.1 = off then some p.2 else b) none with
  | some b => (b &&& imageMask off) ||| (imageByte pl x off &&& ~~~(imageMask off))
  | none => imageByte pl x off
/-- A context after window writes (R92). -/
def patchCtx (pl : Palettes) (x : Ctx) (ps : List (Nat × Byte)) : Ctx :=
  match ps with
  | [] => x
  | _ => parseImage x (patchedByte pl x ps)
def patchPalettes (pl : Palettes) (x : Ctx) (ps : List (Nat × Byte)) : Palettes :=
  match ps with
  | [] => pl
  | _ => parsePalettes pl x.part (patchedByte pl x ps)

end Sys2Proof.Machine
end

