-- ==== Sys2Proof/Machine/Translate.lean ====
section
/-! DEFINITION. Address resolution: the virtual ranges (R86), the local aperture (R87), the walk (R97), permissions and
worlds (R107, R402, R403), what exists (R90, R91, R398, R409), and the peer table (R357). -/
namespace Sys2Proof.Machine

/-! Fault kinds of R106. -/
def kNotValid : BitVec 4 := 1
def kMalformed : BitVec 4 := 2
def kPermission : BitVec 4 := 3
def kWorld : BitVec 4 := 4
def kPrivilege : BitVec 4 := 5
def kNoTarget : BitVec 4 := 6
def kWalkError : BitVec 4 := 7

/-- Who makes an access: mode, world, address space, cube and partition. -/
structure Agent where
  mode : Mode
  secure : Bool
  asn : BitVec 12
  cube : CubeId
  part : Partition
  /-- who translates for it, its port's own TLB, and as whom it waits for walks (R103, R104) -/
  req : Requester
  port : Option (Fin 6)
  waiter : Nat
deriving DecidableEq, Repr

/-- A context of cube c at one of the core's ports. -/
def Ctx.agent (x : Ctx) (c : CubeId) (port : Fin 6) : Agent :=
  ⟨x.mode, x.mode == .secure, x.sys.asn, c, x.part, .cube c, some port, 0⟩
def State.agent (s : State) : Agent := s.ctx.agent s.me s.bundle.port

/-- Where an access goes, and what its leaf grants. The physical window and the local aperture grant everything. -/
structure Target where
  key : Nat
  peer : Option Nat
  cached : Bool
  migrate : Bool
  r : Bool
  w : Bool
  x : Bool
  world : Bool
  /-- the owner tag that a write through this translation leaves (R373) -/
  tag : BitVec 12
  /-- reached through the local aperture of a task -/
  isLocal : Bool
  /-- reached through a leaf, and the size of its page; 0 without one (R88, R102) -/
  page : Nat
deriving DecidableEq, Repr

inductive Resolved where
  | ok (t : Target)
  | fault (kind : BitVec 4)
deriving DecidableEq, Repr

/-! ### Page tables (R94 to R98) -/

/-- Page size of a size code (R95). -/
def pageSize (code : Nat) : Nat :=
  match code with
  | 1 => 2 ^ 12 | 2 => 2 ^ 14 | 3 => 2 ^ 16 | 4 => 2 ^ 18 | 5 => 2 ^ 21 | 6 => 2 ^ 23 | 7 => 2 ^ 25 | 8 => 2 ^ 27
  | 9 => 2 ^ 30 | 10 => 2 ^ 34 | _ => 2 ^ 12
/-- Legal leaf sizes at each level (R96). -/
def sizeLegal (lvl code : Nat) : Bool :=
  match lvl with
  | 1 => 1 ≤ code && code ≤ 4
  | 2 => 5 ≤ code && code ≤ 8
  | 3 => code == 9 || code == 10
  | _ => false
def pteV (p : Word) : Bool := p.getLsbD 0
def pteSize (p : Word) : Nat := (p.extractLsb' 7 4).toNat
def pteFrame (p : Word) : Nat := (p.extractLsb' 11 31).toNat * 4096
def ptePeer (p : Word) : Nat := (p.extractLsb' 42 10).toNat
def pteMode (p : Word) : Nat := (p.extractLsb' 5 2).toNat
/-- Index of a level's table (R94). -/
def walkIndex (va : VA) (lvl : Nat) : Nat :=
  if lvl = 4 then va.toNat / 2 ^ 39 else va.toNat / 2 ^ (12 + 9 * (lvl - 1)) % 512

/-- The stack of a retired cube is powered down, and gives nothing (R381). -/
def stackOff (s : State) (a : Nat) : Bool :=
  if h : a / 0x10_0000_0000 < 8 then (s.cube ⟨a / 0x10_0000_0000, h⟩).hw.life == .retired else false
/-- A 64-bit read of the walker from home; none when the line is poisoned, or its stack has no power (WALK_ERROR; DESIGN CHOICE for the
latter, log entry 120). -/
def walkRead (s : State) (a : Nat) : Option Word :=
  if s.poison.contains (a / 64) || stackOff s a then none else some (memWord s.mem a)

/-- The levels of the walk, from lvl down (R97). -/
def walkLevels (s : State) (va : VA) : Nat → Nat → Xlat
  | 0, _ => .fault kMalformed
  | lvl + 1, table =>
    match walkRead s (table + walkIndex va (lvl + 1) * 8) with
    | none => .fault kWalkError
    | some p =>
      if !pteV p then .fault kNotValid
      else if pteSize p = 0 then
        if lvl = 0 ∨ p &&& ~~~(0x000003FFFFFFFF81 : Word) ≠ 0 then .fault kMalformed
        else if hbmTop ≤ pteFrame p then .fault kMalformed
        else walkLevels s va lvl (pteFrame p)
      else if !sizeLegal (lvl + 1) (pteSize p) then .fault kMalformed
      else if pteMode p = 3 then .fault kMalformed
      else if pteFrame p % pageSize (pteSize p) ≠ 0 then .fault kMalformed
      else .leaf p (lvl + 1)
/-- The table of a level that the walker's cache of table pointers names for an address (R103). -/
def cachedTable (s : State) (asn : BitVec 12) (va : VA) (lvl : Nat) : Option Nat :=
  (s.walkCache.find? fun e => e.asn == asn && e.level == lvl && e.upper == va.toNat / 2 ^ (12 + 9 * lvl)).map WalkPtr.table
/-- translate of R97; address space 0xFFF is never valid (R98). A cached table pointer spares the levels above it. -/
def walk (s : State) (asn : BitVec 12) (va : VA) : Xlat :=
  if asn = 0xFFF then .fault kNotValid
  else
    match ([1, 2, 3].findSome? fun lvl => (cachedTable s asn va lvl).map fun t => (lvl, t) : Option (Nat × Nat)) with
    | some (lvl, t) => walkLevels s va lvl t
    | none =>
      match walkRead s (s.astBase.toNat + asn.toNat * 8) with
      | none => .fault kWalkError
      | some e =>
        if !e.getLsbD 0 || e &&& ~~~(0x000007FFFFFF0001 : Word) != 0 then .fault kNotValid
        else walkLevels s va 4 ((e &&& 0x000007FFFFFF0000).toNat)
/-- The words that a walk reads from a table downwards, and the table pointers among them: the level below and its table. -/
def walkTrail (s : State) (va : VA) : Nat → Nat → List Nat × List (Nat × Nat)
  | 0, _ => ([], [])
  | lvl + 1, table =>
    let a := table + walkIndex va (lvl + 1) * 8
    let p := memWord s.mem a
    if pteV p && pteSize p == 0 && decide (0 < lvl) && (walkRead s a).isSome then
      let t := walkTrail s va lvl (pteFrame p)
      (a :: t.1, (lvl, pteFrame p) :: t.2)
    else ([a], [])
/-- Where a walk begins, and the words that it reads. -/
def walkPath (s : State) (asn : BitVec 12) (va : VA) : List Nat × List (Nat × Nat) :=
  match ([1, 2, 3].findSome? fun lvl => (cachedTable s asn va lvl).map fun t => (lvl, t) : Option (Nat × Nat)) with
  | some (lvl, t) => walkTrail s va lvl t
  | none =>
    let a := s.astBase.toNat + asn.toNat * 8
    let e := memWord s.mem a
    if e.getLsbD 0 && (walkRead s a).isSome then
      let t := walkTrail s va 4 ((e &&& 0x000007FFFFFF0000).toNat)
      (a :: t.1, t.2)
    else ([a], [])

/-- The TLB entry of a list that translates va in asn (R103). -/
def tlbLookup (es : List TlbEntry) (asn : BitVec 12) (va : VA) : Option TlbEntry :=
  es.find? fun e => e.asn == asn && decide (e.base ≤ va.toNat) && decide (va.toNat < e.base + e.size)
def TlbEntry.xlat (e : TlbEntry) : Xlat := .leaf e.pte e.level
/-- The entry of a port's TLB, or else of the cube's. -/
def tlbFind (k : Cube) (port : Option (Fin 6)) (asn : BitVec 12) (va : VA) : Option TlbEntry :=
  match port with
  | some p => (tlbLookup (k.small.get p) asn va).or (tlbLookup k.tlb asn va)
  | none => tlbLookup k.tlb asn va
/-- The entry that a leaf leaves in a TLB: its whole page. -/
def tlbEntryOf (asn : BitVec 12) (va : VA) (p : Word) (lvl : Nat) : TlbEntry :=
  let n := pageSize (pteSize p)
  ⟨asn, va.toNat / n * n, n, p, lvl⟩
/-- A walk's outcome answers for an address: its granule, or the whole page of its leaf. -/
def Miss.answers (m : Miss) (asn : BitVec 12) (va : VA) : Bool :=
  m.asn == asn && (match m.res with
    | none => false
    | some (.fault _) => m.vpn == va.toNat / 4096
    | some (.leaf p _) => va.toNat / pageSize (pteSize p) == m.vpn * 4096 / pageSize (pteSize p))
/-- What a walk has given to one that waits for it (R104). -/
def delivered (s : State) (ag : Agent) (va : VA) : Option Xlat :=
  (s.misses.find? fun m => m.waiters.contains (ag.req, ag.waiter) && m.answers ag.asn va).bind Miss.res
/-- The translation that an agent has at hand: its TLBs' (a bridge's engine has none), or what a walk has given it. -/
def translated (s : State) (ag : Agent) (va : VA) : Option Xlat :=
  match (match ag.req with | .cube c => tlbFind (s.cube c) ag.port ag.asn va | .bridge _ => none) with
  | some e => some e.xlat
  | none => delivered s ag va
/-- What an access is translated by: what its agent has at hand, or else a walk. -/
def translateVA (s : State) (ag : Agent) (va : VA) : Xlat :=
  match translated s ag va with
  | some x => x
  | none => walk s ag.asn va
/-- An address that is translated, with no translation at hand: the access waits for a walk (R104). -/
def mustWalk (s : State) (ag : Agent) (va : VA) : Bool :=
  decide ((va.extractLsb' 48 4).toNat < 0xE) && (translated s ag va).isNone

/-- A translation that misses asks for a walk; misses of one granule merge, of whichever requesters they are (R104). -/
def requestWalk (s : State) (ag : Agent) (va : VA) : State :=
  let n := va.toNat / 4096
  let me := (ag.req, ag.waiter)
  let same (m : Miss) : Bool := m.asn == ag.asn && m.vpn == n && m.res.isNone
  { s with misses :=
      if s.misses.any same then
        s.misses.map fun m => if same m && !m.waiters.contains me then { m with waiters := m.waiters ++ [me] } else m
      else s.misses ++ [⟨ag.req, ag.asn, n, false, [me], none⟩] }
/-- One that waited for walks has taken what they gave, or no longer waits. -/
def takeWalks (s : State) (req : Requester) (w : Nat) : State :=
  let ms := s.misses.map fun m => { m with waiters := m.waiters.filter fun n => n != (req, w) }
  { s with misses := ms.filter fun m => m.res.isNone || !m.waiters.isEmpty }
/-- A walk that it waits for is out. -/
def walkOut (s : State) (req : Requester) (w : Nat) : Bool :=
  s.misses.any fun m => m.res.isNone && m.waiters.contains (req, w)
/-- What an engine did, unless it met addresses whose translations it still has to wait for: then it has only asked for their
walks (R104). `ends` tells that it needs what its walks gave no longer. -/
def afterWalks (s s' : State) (req : Requester) (w : Nat) (ends : Bool) : State :=
  if s'.misses ≠ s.misses then { s with misses := s'.misses } else if ends then takeWalks s' req w else s'

/-- A core's access fills the TLB of its port from its cube's (R103). -/
def fillPort (c : CubeId) (port : Fin 6) (asn : BitVec 12) (s : State) (va : VA) : State :=
  s.modCube c fun k =>
    match tlbLookup (k.small.get port) asn va, tlbLookup k.tlb asn va with
    | none, some e => { k with small := k.small.set port (e :: (k.small.get port).take 31) }
    | _, _ => k

/-! ### What exists -/

def layerABanks (k : Cube) (l : Nat) : Nat := ((k.hw.layers.toList.getD l 0).extractLsb' 22 6).toNat
def layerBBanks (k : Cube) (l : Nat) : Nat := ((k.hw.layers.toList.getD l 0).extractLsb' 16 6).toNat

/-- Whether the compute side of a cube answers (R91). -/
def computeUp (k : Cube) : Bool := k.hw.life == .live

/-- The decoder that claims a DPA (R409). -/
def decoderOf (s : State) (d : Nat) : Option HdmDecoder :=
  s.secu.hdm.find? fun h => decide (h.base ≤ d) && decide (d < h.base + h.len)
/-- What stands at a DPA of this package now (R90, R91, R398, R409); the stack of a RETIRED cube is powered down (R381). -/
def dpaSpace (s : State) (d : Nat) : Space :=
  if d < hbmTop then
    if h : d / 0x10_0000_0000 < 8 then
      (if (s.cube ⟨d / 0x10_0000_0000, h⟩).hw.life == .retired then .none else .hbm (d / 0x10_0000_0000))
    else .none
  else if d < 0x100_0000_0000 then .none
  else if d < 0x108_0000_0000 then
    let k := (d - 0x100_0000_0000) / 0x1_0000_0000
    if h : k < 8 then
      let c : CubeId := ⟨k, h⟩
      let cube := s.cube c
      match windowSpace c (layerABanks cube) (layerBBanks cube) (d % 0x1_0000_0000) with
      | .sysreg c n => if cube.hw.life == .retired then .none else .sysreg c n
      | sp => if computeUp cube then sp else .none
    else .none
  else if d < 0x200_0000_0000 then .none
  else if d < 0x220_0000_0000 then
    let b := (d - 0x200_0000_0000) / 0x10_0000_0000
    let o := d % 0x10_0000_0000
    if o < 0x1000 then .aperture b o
    else if 0x1_0000 ≤ o ∧ o < 0x1_8000 then .bridgeReg b ((o - 0x1_0000) / 8)
    else if 0x10_0000 ≤ o ∧ o < 0x20_0000 then .cxlComponent b (o - 0x10_0000)
    else .none
  else if d < 0x300_0000_0000 then .none
  else if d < 0x400_0000_0000 then .host
  else if d < 0x800_0000_0000 then
    if (decoderOf s d).isSome then .cxl else .none
  else .host
/-- What stands at a key: another package's address is that peer's. -/
def keySpace (s : State) (key : Nat) : Space :=
  if key < dpaSpan then dpaSpace s key else .peer (key / dpaSpan - 1) (key % dpaSpan)

/-- What storage stands at a key, also in a cube whose compute side no longer answers through its window (R91): its strands' partitions
are there until they have left (R241), and the scrubber still visits it (R372). -/
def storeSpace (s : State) (key : Nat) : Space :=
  match keySpace s key with
  | .none =>
    let n := (key - 0x100_0000_0000) / 0x1_0000_0000
    if h : 0x100_0000_0000 ≤ key ∧ n < 8 then
      let k := s.cube ⟨n, h.2⟩
      if k.hw.life == .retired then .none
      else windowSpace ⟨n, h.2⟩ (layerABanks k) (layerBBanks k) (key % 0x1_0000_0000)
    else .none
  | sp => sp

/-- The region that decides for a DPA (R403): the lowest-numbered valid one that holds it. -/
def regionOf (s : State) (d : Nat) : Option Word :=
  s.secu.regions.toList.find? fun r =>
    let n := (r.extractLsb' 50 6).toNat
    r.getLsbD 63 && decide (21 ≤ n) && decide (n ≤ 47) && (d / 2 ^ n == (r.extractLsb' 21 27).toNat * 2 ^ 21 / 2 ^ n)
def regionSecure (s : State) (d : Nat) : Bool :=
  match regionOf s d with
  | some r => r.getLsbD 62
  | none => false
def regionNoHost (s : State) (d : Nat) : Bool :=
  match regionOf s d with
  | some r => r.getLsbD 61
  | none => false

/-! ### Resolution -/

/-- The window offset that a local-aperture offset of a task names in its partition (R87). -/
def localOffset (p : Partition) (o : Nat) : Option Nat :=
  if o < accOffset then
    if o < p.spadBytes then some (p.scrBase * 0x10_0000 + o) else none
  else if o < 0x1000_0000 then
    if (o - accOffset) / 0x4000 < p.accTiles then some (accOffset + p.accBase * 0x4000 + (o - accOffset)) else none
  else if o < 0x2000_0000 then
    let l := (o - 0x1000_0000) / 0x0200_0000
    let r := (o - 0x1000_0000) % 0x0200_0000
    if r < 0x0100_0000 then
      let side := r / 0x0080_0000
      let f := r % 0x0080_0000
      if f < p.faceBytes then some (faceOffset l + side * 0x0080_0000 + p.faceBase * 0x4_0000 + f) else none
    else if (r - 0x0100_0000) / 0x4000 < p.ptTiles then
      some (faceOffset l + 0x0100_0000 + p.ptBase * 0x4000 + (r - 0x0100_0000))
    else none
  else if o - constOffset < p.constBytes then some (constOffset + p.constBase * 0x1000 + (o - constOffset))
  else none

/-- A place on this package that needs no walk: everything granted, tag 0xFFF (R373). -/
def directTarget (key : Nat) (isLocal : Bool) (tag : BitVec 12) : Target :=
  ⟨key, none, false, false, true, true, true, false, tag, isLocal, 0⟩

/-- The target of a leaf (R95, R100). -/
def leafTarget (va : VA) (p : Word) : Target :=
  let d := pteFrame p + va.toNat % pageSize (pteSize p)
  let own := ptePeer p = 0x3FF
  { key := if own then d else (ptePeer p + 1) * dpaSpan + d
    peer := if own then none else some (ptePeer p)
    cached := own && decide (d < hbmTop) && pteMode p == 1
    migrate := pteMode p == 2
    r := p.getLsbD 1, w := p.getLsbD 2, x := p.getLsbD 3, world := p.getLsbD 4
    tag := p.extractLsb' 52 12
    isLocal := false
    page := pageSize (pteSize p) }

/-- An access to a MIGRATE page is counted by address space and page (R102). -/
def migOf (t : Target) (asn : BitVec 12) (va : VA) : List (BitVec 12 × VA × Nat) := if t.migrate then [(asn, va, t.page)] else []
/-- The target of a virtual address (R86, R87), before permissions. -/
def resolve (s : State) (ag : Agent) (va : VA) : Resolved :=
  let top := (va.extractLsb' 48 4).toNat
  if top < 0xE then
    match translateVA s ag va with
    | .fault k => .fault k
    | .leaf p _ => .ok (leafTarget va p)
  else if top = 0xE then
    if ag.mode == .task then .fault kPrivilege else .ok (directTarget (va.toNat % dpaSpan) false 0xFFF)
  else if va.extractLsb' 44 4 ≠ 0xF then .fault kNotValid
  else
    let o := va.toNat % 2 ^ 44
    if ag.mode == .task then
      match localOffset ag.part o with
      | some w => .ok (directTarget (windowBase ag.cube + w) true ag.asn)
      | none => .fault kNoTarget
    else if o < 0x1_0000_0000 then .ok (directTarget (windowBase ag.cube + o) false 0xFFF)
    else .fault kNoTarget

/-- The kinds of access that permissions tell apart (R107). -/
inductive Need where
  | fetch | read | write | both
deriving DecidableEq, Repr
def Need.writes : Need → Bool
  | .write | .both => true
  | _ => false
def Target.grants (t : Target) : Need → Bool
  | .fetch => t.x | .read => t.r | .write => t.w | .both => t.r && t.w

/-- Whether a core may reach a place of a task's local aperture (R88): scratch, and the constant store for loads. -/
def coreReach (need : Need) : Space → Bool
  | .scratch .. => true
  | .constant .. => !need.writes
  | _ => false

/-- A shelf window refuses a write to the running strand unless the core is halted for debug; a strand parked on the core does
not run (R92, R199). -/
def shelfWriteRefused (s : State) (c : CubeId) (i : Nat) : Bool :=
  let k := s.cube c
  match k.cur with
  | .shelf j => j.val == i && !k.debugHalted && k.core.wait != .parked
  | _ => false

/-- A leaf may lead to HBM, to a peer, to host and CXL memory, and to no window (R88). -/
def leafReaches : Space → Bool
  | .hbm _ | .host | .cxl | .peer .. => true
  | _ => false
/-- What stands at a target: a strand reaches its own partition through the local aperture, also while its cube no longer answers
through its window (R91, R241; DESIGN CHOICE, log entry 121). -/
def Target.space (s : State) (t : Target) : Space := if t.isLocal then storeSpace s t.key else keySpace s t.key
/-- The checks after the walk on an access of this package or a peer (R106, R107): world, permission, existence, reach (R88). -/
def checkTarget (s : State) (ag : Agent) (need : Need) (core : Bool) (t : Target) : Option (BitVec 4) :=
  if t.world && !ag.secure then some kWorld
  else if !t.grants need then some kPermission
  else
    match t.peer with
    | some _ => none
    | none =>
      if regionSecure s t.key && !ag.secure then some kWorld
      else
        if t.page ≠ 0 ∧ t.space s ≠ .none ∧ !leafReaches (t.space s) then some kPrivilege
        else match t.space s with
        | .none => some kNoTarget
        | .sysreg .. => if ag.mode == .task then some kPrivilege else none
        | .bridgeReg .. => if ag.mode == .task then some kPrivilege else none
        | .cxlComponent .. => if ag.mode == .task then some kPrivilege else none
        | .shelf c i _ => if need.writes && shelfWriteRefused s c i then some kPrivilege else none
        | sp => if t.isLocal && core && !coreReach need sp then some kPrivilege else none

/-! ### Peers (R357, R362) -/

/-- Where the table holds a peer's entry. -/
def peerPlace (s : State) (p : Nat) : Nat := (s.fab.regs.peerBase &&& 0x0000FFFFFFFF8000).toNat + p * 32
/-- A dword of a peer's entry, from the bridge dies' cache or the table. An entry on a poisoned line cannot be read, and stands as an
invalid one (DESIGN CHOICE, log entry 119). -/
def peerEntry (s : State) (p : Nat) (k : Nat) : Word :=
  match s.fab.entries.find? fun e => e.1 == p with
  | some e => e.2.toList.getD k 0
  | none => if s.poison.contains (peerPlace s p / 64) then 0 else memWord s.mem (peerPlace s p + k * 8)
/-- The ports on which a peer can be reached, of those that are up (R357, R360). -/
def portsTo (s : State) (p : Nat) : List (Fin 71) :=
  let e := peerEntry s p 0
  (List.finRange 71).filter fun q => (s.fab.ports.get q).up &&
    (match (e.extractLsb' 60 2).toNat with
     | 0 => decide (q.val < 24) && (List.range 4).any fun n => e.getLsbD (56 + n) && s.fab.regs.planeMap.toNat / 4 ^ q.val % 4 == n
     | 1 => q.val == 24 + (Config.owningBridge p).val
     | _ => false)
/-- Whether the peer table enables traffic to the peer and a live port reaches it (R357). -/
def peerReachable (s : State) (p : Nat) : Bool :=
  s.fab.regs.peerBase.getLsbD 0 && p != s.fab.regs.self.toNat && (peerEntry s p 0).getLsbD 63 && !(portsTo s p).isEmpty
def peerIrsere (s : State) (p : Nat) : Bool := (peerEntry s p 0).getLsbD 62
def peerEthernet (s : State) (p : Nat) : Bool := (peerEntry s p 0).extractLsb' 60 2 == 1
def peerDead (s : State) (p : Nat) : Bool := s.fab.regs.dead.getLsbD p
/-- A peer access fails at issue: marked dead, or not reachable (R357, R362). -/
def peerFails (s : State) (p : Nat) : Bool := peerDead s p || !peerReachable s p
/-- The Carben link of two different dies, of the cubes 0 to 7 and the bridges 8 and 9, in the order of the pairs (R10). -/
def linkOf (a b : Nat) : Fin 71 :=
  let lo := min a b
  Fin.ofNat 71 (26 + 9 * lo - lo * (lo - 1) / 2 + (max a b - lo - 1))
/-- A port or link carries traffic: it is up and does not retrain (R368). -/
def Port.carries (p : Port) : Bool := p.up && !p.training
/-- Two dies exchange traffic over their own link alone (R10). -/
def linkCarries (s : State) (a b : Nat) : Bool := a == b || (s.fab.ports.get (linkOf a b)).carries
/-- The bridge die of a port. -/
def portBridge (q : Fin 71) : Nat := if q.val < 12 ∨ q.val = 24 then 8 else 9
/-- The bridge die through which host memory is reached: the first, or the second while the first's link is down (R398). -/
def hostBridge (s : State) : Nat := if s.secu.hostLink0 then 8 else 9
/-- The die of this package through which a place of the package is reached (R11, R91, R398, R409). -/
def dieOf (s : State) (d : Nat) : Nat :=
  if d < hbmTop then d / 0x10_0000_0000
  else if d < 0x200_0000_0000 then (d - 0x100_0000_0000) / 0x1_0000_0000 % 8
  else if d < 0x300_0000_0000 then 8 + (d - 0x200_0000_0000) / 0x10_0000_0000 % 2
  else if 0x400_0000_0000 ≤ d ∧ d < 0x800_0000_0000 then
    (match decoderOf s d with | some h => 8 + h.place.bridge.val | none => 8)
  else hostBridge s
/-- Traffic of a strand on a die towards a peer is carried: by the port of the pair, and by the link to its bridge die. -/
def portCarries (s : State) (die sid p : Nat) : Bool :=
  match s.fab.pairs.find? fun x => x.1 == (sid, p) with
  | some x => (s.fab.ports.get x.2).carries && linkCarries s die (portBridge x.2)
  | none => (portsTo s p).any fun q => !(s.fab.ports.get q).training && linkCarries s die (portBridge q)
/-- Traffic of a strand on a die towards a place is carried now (R10, R360, R368). -/
def pathCarries (s : State) (die sid key : Nat) : Bool :=
  if key < dpaSpan then linkCarries s die (dieOf s key) else portCarries s die sid (key / dpaSpan - 1)
/-- Bit k of the dead-peer bitmap set. -/
def markDead (s : State) (p : Nat) : State :=
  { s with fab := { s.fab with regs := { s.fab.regs with dead := s.fab.regs.dead ||| BitVec.twoPow 1024 p } } }
/-- A peer that gave no answer in time is dead, and a handshake that is pending no longer clears the bit (R371). -/
def timeOutPeer (s : State) (p : Nat) : State :=
  let s := markDead s p
  { s with fab := { s.fab with handshakes := s.fab.handshakes.filter fun q => q.toNat != p } }

/-- The outcome of the checks of R179 from the third on, for one address. -/
inductive Checked where
  | ok (t : Target)
  | dead
  | fault (kind : BitVec 4)
  | fenced
deriving DecidableEq, Repr
/-- F.REM's bit of CUB_CAPS (R49). -/
def capRemote : Nat := 28
def checkAccess (s : State) (ag : Agent) (need : Need) (va : VA) : Checked :=
  match resolve s ag va with
  | .fault k => .fault k
  | .ok t =>
    match t.peer with
    | some p =>
      if peerFails s p then .dead
      else
        match checkTarget s ag need true t with
        | some k => .fault k
        | none => if (s.cube ag.cube).hw.caps.getLsbD capRemote then .ok t else .fenced
    | none =>
      match checkTarget s ag need true t with
      | some k => .fault k
      | none => .ok t

end Sys2Proof.Machine
end

