-- ==== Sys2Proof/Machine/Regs.lean ====
section
/-! DEFINITION. System registers as they read (R6, R7, R28, R93, R165), and who may read and write each. -/
namespace Sys2Proof.Machine

/-! ### What registers report -/

def Cube.layerPwr (k : Cube) (l : Nat) : LayerPwr := k.pwr.layers.toList.getD l .reset
def State.groupOf (s : State) (k : Cube) : Group := s.power.groups.get k.pwr.group
/-- The effective duty step of a layer (R389). -/
def effStep (s : State) (k : Cube) (l : Nat) : Nat :=
  max (max (k.layerPwr l).therm.toNat (k.layerPwr l).lim.toNat) (s.groupOf k).step.toNat
/-- A number made of eight fields of w bits, field l at bit w × l. -/
def fields8 (w : Nat) (f : Nat → Nat) : Word :=
  BitVec.ofNat 64 ((List.range 8).foldl (fun a l => a + f l % 2 ^ w * 2 ^ (w * l)) 0)
def bit (n : Nat) (b : Bool) : Word := if b then BitVec.twoPow 64 n else 0
/-- The current bits of PWR_CAPCAUSE (R396). -/
def capBits (s : State) (k : Cube) : Word :=
  let g := s.groupOf k
  let is (f : Nat → Nat) : Bool := (List.range 8).any fun l => 0 < f l && f l == effStep s k l
  let grp := is fun _ => g.step.toNat
  bit 0 (grp && g.byPkg) ||| bit 1 (grp && g.byPart) ||| bit 2 (grp && g.byRank) |||
  bit 3 (is fun l => (k.layerPwr l).therm.toNat) ||| bit 4 (is fun l => (k.layerPwr l).lim.toNat) |||
  bit 5 (grp && g.byHost) ||| bit 6 g.unmet ||| bit 7 ((List.range 8).any fun l => (k.layerPwr l).held)
/-- The sticky bits take in what is current (R396). -/
def Cube.noteCaps (s : State) (k : Cube) : Cube :=
  { k with pwr := { k.pwr with sticky := k.pwr.sticky ||| (capBits s k).setWidth 8 } }
def capCause (s : State) (k : Cube) : Word :=
  let now := capBits s k
  now ||| (((k.pwr.sticky ||| now.setWidth 8).setWidth 64) <<< 32) |||
  (if now.getLsbD 2 then s.power.bcast.rank.setWidth 64 <<< 16 else 0)
/-- Blocks of the block store's region (R340): the largest power of two that fits with its table area. -/
def blkBytes (code : BitVec 2) : Nat := 4096 * 4 ^ code.toNat
def roundUp (n m : Nat) : Nat := (n + m - 1) / m * m
def blkMeta (bs nb : Nat) : Nat := roundUp (40 * nb) bs
def blkCount (size bs : Nat) : Nat :=
  match (List.range 25).reverse.find? fun e => decide (blkMeta bs (2 ^ e) + 2 ^ e * bs ≤ size) with
  | some e => 2 ^ e
  | none => 0
def EngRegs.nb (e : EngRegs) : Nat := blkCount (e.blkSize.toNat * 2 ^ 20) (blkBytes e.blkCode)
/-- Plane queues that hold an incomplete command (R304, R306). -/
def planesBusy (k : Cube) : BitVec 8 :=
  (k.cmds.filter fun m => m.queue == .cubeq).foldl (fun a m => a ||| m.planes) 0
def queueUsed (k : Cube) (q : Queue) : Word := BitVec.ofNat 64 (k.cmds.filter fun m => m.queue == q).length
/-- State of a shelf in SCH_SHELVES (R240). -/
def shelfState (k : Cube) (i : ShelfId) : Nat :=
  match k.shelves.get i with
  | none => 0
  | some x =>
    if k.cur = .shelf i then (if k.debugHalted then 4 else if k.core.wait = .parked then 3 else 1)
    else match x.status with
      | .ready | .running => 2
      | .parked => 3
      | .trapped => 4
      | .starting => 5
      | .evicting => 6
      | .halting | .ending => 7
def lifeCode (k : Cube) : Word :=
  match k.hw.life with | .live => 0 | .memoryOnly => 1 | .evacuating => 2 | .retired => 3
/-- CUBESLIVE of DSC_PKG (R29, R380). -/
def cubesLive (s : State) : Word :=
  BitVec.ofNat 64 ((List.finRange 8).foldl (fun a c => a + if (s.cube c).hw.life = .live then 2 ^ c.val else 0) 0)
def modeCode : Mode → Word | .task => 0 | .runtime => 1 | .secure => 2
/-- SEQ_MODE (R145). BRKHALT is one bit of the cube (DESIGN CHOICE, log entry 105). -/
def modeWord (k : Cube) (x : Ctx) : Word :=
  bit 8 k.cregs.brkHalt ||| (BitVec.ofNat 64 x.loops.length <<< 4) ||| modeCode x.mode
/-- The counting window of a port is over (R367). -/
def windowOver (s : State) (p : Port) : Bool :=
  decide ((s.fab.regs.replayWarn.extractLsb' 32 16).toNat * 1000 * Config.cyclesPerUs ≤ (s.cycle - p.since).toNat)
def portWord (s : State) (p : Port) : Word :=
  ((if windowOver s p then 0 else BitVec.ofNat 64 (min p.replays.toNat 0xFFFF)) <<< 48) ||| (p.retrains.setWidth 64 <<< 32) ||| (p.spares.setWidth 64 <<< 16) |||
  (p.width.setWidth 64 <<< 8) ||| bit 0 p.up
def groupWord (g : Group) : Word :=
  (g.power.setWidth 64 <<< 48) ||| (g.rank.setWidth 64 <<< 40) ||| (g.step.setWidth 64 <<< 32) ||| g.cap.setWidth 64
def rankWord (b : Broadcast) : Word :=
  (b.seq.setWidth 64 <<< 32) ||| bit 16 b.active ||| (b.frac.setWidth 64 <<< 8) ||| b.rank.setWidth 64
def lstatWord (k : Cube) : Word :=
  fields8 8 fun l =>
    let y := k.layerPwr l
    (if y.migreq then 8 else 0) + (if y.held then 4 else 0) + (if y.pend then 2 else 0) + if y.gated then 1 else 0

/-- What a register of the strand's task reads as: zero for the runtime and secure contexts (R153). -/
def taskWord (x : Ctx) (v : Word) : Word := if x.mode = .task then v else 0
/-- SEQ_, NOISE_ and SCH_ registers, as the context x on cube c sees them. -/
def regSeq (s : State) (k : Cube) (x : Ctx) (n : Nat) : Word :=
  match n with
  | 0x001 => modeWord k x
  | 0x002 => x.sys.frm.setWidth 64
  | 0x010 => x.sys.trec.cause | 0x011 => x.sys.trec.tpc | 0x012 => x.sys.trec.taddr | 0x013 => x.sys.trec.slots
  | 0x014 => taskWord x x.sys.tinfo
  | 0x015 => x.sys.tshelf.setWidth 64
  | 0x018 => x.sys.tvec.setWidth 64
  | 0x020 => x.sys.codeLo.setWidth 64
  | 0x021 => x.sys.codeHi.setWidth 64
  | 0x030 => k.cregs.monFull.setWidth 64
  | 0x031 => x.sys.broken.setWidth 64
  | 0x032 => k.cregs.wdog.setWidth 64
  | 0x033 => BitVec.ofNat 64 k.monitors.length
  | 0x040 => x.noise.seedA | 0x041 => x.noise.seedB | 0x042 => bit 0 x.noise.ent
  | 0x050 => x.sys.asn.setWidth 64
  | 0x060 | 0x061 | 0x062 | 0x063 => (match x.loops[n - 0x60]? with | some l => l.count.setWidth 64 | none => 0)
  | 0x101 => k.cregs.quantum.setWidth 64
  | 0x102 => k.cregs.ackTimeout.setWidth 64
  | 0x110 => s.astBase
  | 0x112 => s.atl.saveBase.setWidth 64 <<< 16
  | 0x113 => s.atl.saveSize.setWidth 64
  | 0x120 => taskWord x x.sys.larg0 | 0x121 => taskWord x x.sys.larg1
  | 0x131 =>
    BitVec.ofNat 64 ((List.finRange 16).foldl (fun a i => a + shelfState k i * 2 ^ (3 * i.val)) 0)
  | _ =>
    if 0x140 ≤ n ∧ n < 0x148 then
      let p := s.atl.parts.toList.getD (n - 0x140) default
      bit 8 p.isOpen ||| p.cubes.setWidth 64
    else 0
/-- CUB_, DRN_, CPY_ and BLK_ registers. -/
def regEng (s : State) (k : Cube) (n : Nat) : Word :=
  let e := k.eng
  match n with
  | 0x200 =>
    ((planesBusy k).setWidth 64 <<< 40) ||| (queueUsed k .cubeq <<< 32) ||| (e.ioshelf.setWidth 64 <<< 28) ||| bit 0 e.iovf
  | 0x201 => fields8 3 (effStep s k)
  | 0x202 => k.hw.lmap.setWidth 64
  | 0x203 => k.hw.caps.setWidth 64
  | 0x204 => e.skew.setWidth 64
  | 0x280 => bit 1 e.abft ||| bit 0 e.nanovf
  | 0x281 => e.drnSeed
  | 0x282 => e.drnTol.setWidth 64
  | 0x283 => (e.drnSkip.setWidth 64 <<< 32) ||| e.drnCor.setWidth 64
  | 0x284 => queueUsed k .drainq
  | 0x300 => (queueUsed k .cq1 <<< 8) ||| queueUsed k .cq0
  | 0x301 => e.cpySeed
  | 0x302 => e.fsLost.setWidth 64
  | 0x380 => e.blkBase.setWidth 64 <<< 20
  | 0x381 => e.blkSize.setWidth 64
  | 0x382 => e.blkCode.setWidth 64
  | 0x383 => e.blkCtl
  | 0x384 => (BitVec.ofNat 64 e.blkFree <<< 32) ||| bit 31 e.blkReady ||| BitVec.ofNat 64 e.nb
  | _ => 0
/-- FAB_ registers. -/
def regFab (s : State) (n : Nat) : Word :=
  let f := s.fab.regs
  match n with
  | 0x400 => f.self.setWidth 64
  | 0x401 => f.peerBase
  | 0x402 => f.planeMap.setWidth 64
  | 0x403 => f.drop.setWidth 64
  | 0x410 => f.rwBase
  | 0x411 => f.rwSize.setWidth 64
  | 0x412 => f.rwGroup.setWidth 64
  | 0x413 => f.rwCount
  | 0x420 => f.migThresh.setWidth 64
  | 0x421 => s.fab.migQueue.headD 0
  | 0x430 => f.replayWarn
  | 0x431 => f.replayRetrain
  | 0x480 => f.ckptDst
  | 0x481 => f.ckptCtl
  | _ =>
    if 0x440 ≤ n ∧ n < 0x450 then f.dead.extractLsb' (64 * (n - 0x440)) 64
    else if 0x460 ≤ n ∧ n < 0x47A then portWord s (s.fab.ports.toList.getD (n - 0x460) (.reset 0))
    else 0
/-- CON_ and PWR_ registers. -/
def regCon (s : State) (k : Cube) (n : Nat) : Word :=
  let q := k.con
  let p := k.pwr
  match n with
  | 0x500 => q.scrubRate.setWidth 64
  | 0x510 => q.ceLog.headD 0
  | 0x511 => q.ueLog.headD 0
  | 0x520 => q.injAddr.setWidth 64 <<< 6
  | 0x521 => bit 4 q.injFired ||| (q.injKind.setWidth 64 <<< 1) ||| bit 0 q.injArm
  | 0x530 => q.fenceWindow.setWidth 64
  | 0x540 => (BitVec.ofNat 64 q.evacMap.length <<< 16) ||| bit 12 q.refused ||| (lifeCode k <<< 8)
  | 0x541 => q.evacPlan.setWidth 64 <<< 9
  | 0x600 => p.tWarn.setWidth 64 | 0x601 => p.tThrot.setWidth 64 | 0x602 => p.tTrip.setWidth 64
  | 0x603 => p.events
  | 0x604 => fields8 8 fun l => (k.layerPwr l).temp.toNat
  | 0x605 => lstatWord k
  | 0x608 => p.cubeAmps.setWidth 64
  | 0x609 => p.gateIdle.setWidth 64
  | 0x60C => bit 16 s.power.range ||| s.power.mv.setWidth 64
  | 0x610 => capCause s k
  | 0x611 => s.power.pkgCap.setWidth 64
  | 0x612 => s.power.hostCap.setWidth 64
  | 0x613 => s.power.watts.setWidth 64
  | 0x620 => rankWord s.power.bcast
  | 0x628 => (p.migStep.setWidth 64 <<< 32) ||| p.migTime.setWidth 64
  | _ => if 0x618 ≤ n ∧ n < 0x620 then groupWord (s.power.groups.toList.getD (n - 0x618) default) else 0
/-- SEC_ and DSC_ registers. -/
def regSec (s : State) (k : Cube) (n : Nat) : Word :=
  match n with
  | 0x700 => s.secu.world.setWidth 64
  | 0x701 => (s.secu.svn.setWidth 64 <<< 16) ||| (s.secu.fail.setWidth 64 <<< 8) ||| s.secu.stage.setWidth 64
  | 0x702 => bit 8 k.debugHalted
  | 0x800 => (k.hw.dscPkg &&& ~~~(0xFF000000 : Word)) ||| (cubesLive s <<< 24)
  | 0x801 => k.hw.dscBase
  | 0x802 => k.hw.dscSpare
  | _ =>
    if 0x710 ≤ n ∧ n < 0x720 then s.secu.regions.toList.getD (n - 0x710) 0
    else if 0x808 ≤ n ∧ n < 0x810 then k.hw.layers.toList.getD (n - 0x808) 0
    else 0
/-- The value that register n of cube c reads as, with the context x for the registers of a context. -/
def regValue (s : State) (c : CubeId) (x : Ctx) (n : Nat) : Word :=
  let k := s.cube c
  if n < 0x200 then regSeq s k x n
  else if n < 0x400 then regEng s k n
  else if n < 0x500 then regFab s n
  else if n < 0x700 then regCon s k n
  else regSec s k n

/-! ### Who may write (the Access columns) -/

/-- The least mode that writes some field of a register: none writes it, or the number names no register. -/
inductive WriteAccess where
  | unnamed | never | secure | runtime | any
deriving DecidableEq, Repr
def accessSeq (n : Nat) : WriteAccess :=
  match n with
  | 0x002 | 0x031 | 0x040 | 0x041 | 0x042 => .any
  | 0x001 | 0x011 | 0x018 | 0x020 | 0x021 | 0x030 | 0x032 | 0x050 => .runtime
  | 0x010 | 0x012 | 0x013 | 0x014 | 0x015 | 0x033 | 0x060 | 0x061 | 0x062 | 0x063 => .never
  | 0x101 | 0x102 | 0x110 | 0x112 | 0x113 | 0x120 | 0x121 | 0x130 => .runtime
  | 0x131 => .never
  | _ => if 0x140 ≤ n ∧ n < 0x148 then .runtime else .unnamed
def accessEng (n : Nat) : WriteAccess :=
  match n with
  | 0x200 => .any
  | 0x201 | 0x202 | 0x284 | 0x300 | 0x384 => .never
  | 0x203 => .secure
  | 0x204 | 0x280 | 0x281 | 0x282 | 0x283 | 0x301 | 0x302 | 0x380 | 0x381 | 0x382 | 0x383 => .runtime
  | _ => .unnamed
def accessFab (n : Nat) : WriteAccess :=
  match n with
  | 0x400 | 0x401 | 0x402 | 0x403 | 0x410 | 0x411 | 0x412 | 0x413 | 0x420 | 0x430 | 0x431 | 0x480 | 0x481 => .runtime
  | 0x421 => .never
  | _ => if 0x440 ≤ n ∧ n < 0x450 then .runtime else if 0x460 ≤ n ∧ n < 0x47A then .never else .unnamed
def accessCon (n : Nat) : WriteAccess :=
  match n with
  | 0x510 | 0x511 | 0x604 | 0x613 | 0x620 => .never
  | 0x500 | 0x520 | 0x521 | 0x530 | 0x540 | 0x541 | 0x600 | 0x601 | 0x603 | 0x605 | 0x609 | 0x60C | 0x610 | 0x612
  | 0x628 => .runtime
  | 0x602 | 0x608 | 0x611 => .secure
  | _ => if 0x618 ≤ n ∧ n < 0x620 then .runtime else .unnamed
def accessSec (n : Nat) : WriteAccess :=
  match n with
  | 0x700 => .secure
  | 0x701 | 0x800 | 0x801 | 0x802 => .never
  | 0x702 => .runtime
  | _ => if 0x710 ≤ n ∧ n < 0x720 then .secure else if 0x808 ≤ n ∧ n < 0x810 then .never else .unnamed
def writeAccess (n : Nat) : WriteAccess :=
  if n < 0x200 then accessSeq n else if n < 0x400 then accessEng n else if n < 0x500 then accessFab n
  else if n < 0x700 then accessCon n else accessSec n
/-- A mode writes some field of the register. -/
def mayWrite (m : Mode) (n : Nat) : Bool :=
  match writeAccess n, m with
  | .any, _ => true
  | .runtime, .runtime => true
  | .runtime, .secure => true
  | .secure, .secure => true
  | _, _ => false
/-- Registers that task mode may not read (R102, R148, R375, R376, R381). -/
def taskHidden (n : Nat) : Bool :=
  [0x010, 0x011, 0x012, 0x013, 0x015, 0x018, 0x420, 0x421, 0x510, 0x511, 0x520, 0x521, 0x540, 0x541].contains n
def mayRead (m : Mode) (n : Nat) : Bool := m != .task || !taskHidden n
/-- A `sysrd` traps with PRIVILEGE (R165). -/
def readTraps (m : Mode) (n : Nat) : Bool := !mayRead m n
/-- A `syswr` traps with PRIVILEGE: a register that the mode may not write, except that in secure mode such a write has no
effect; any write to a log traps (R28, R165, R375). -/
def writeTraps (m : Mode) (n : Nat) : Bool :=
  n == 0x510 || n == 0x511 || (writeAccess n != .unnamed && !mayWrite m n && m != .secure)

/-! ### Side effects of reads -/

/-- A read of FAB_MIGREQ, CON_CELOG or CON_UELOG pops its oldest entry (R102, R375). -/
def popRead (s : State) (c : CubeId) (n : Nat) : State :=
  match n with
  | 0x421 => { s with fab := { s.fab with migQueue := s.fab.migQueue.tail } }
  | 0x510 => s.modCube c fun k => { k with con := { k.con with ceLog := k.con.ceLog.tail } }
  | 0x511 => s.modCube c fun k => { k with con := { k.con with ueLog := k.con.ueLog.tail } }
  | _ => s

end Sys2Proof.Machine
end

