-- ==== Sys2Proof/Machine/WindowRead.lean ====
section
/-! DEFINITION. What a byte at a home reads as: memory, the image behind a shelf window (R92, R153), and the registers behind
the system-register windows (R93, R398), and the HDM decoder capability register of a CXL port (R409). -/
namespace Sys2Proof.Machine

/-- The image of the strand on a shelf as last saved, with what later window writes put over it, or the
live image of a core halted for debug; an empty shelf reads 0. -/
def shelfByte (s : State) (c : CubeId) (i o : Nat) : Byte :=
  let k := s.cube c
  match k.shelves.toList.getD i none with
  | none => 0
  | some x =>
    let live := k.debugHalted && (match k.cur with | .shelf j => j.val == i | _ => false)
    patchedByte k.pals (if live then k.core else x) ((k.patches.filter fun p => p.1.val == i).map Prod.snd) o
/-- The byte at a key as its home holds it. -/
def placeByte (s : State) (key : Nat) : Byte :=
  match keySpace s key with
  | .shelf c i o => shelfByte s c i o
  | .sysreg c n => wordByte (regValue s c (s.cube c).core n) (key % 8)
  | .bridgeReg _ n => wordByte (regValue s 0 (s.cube 0).core n) (key % 8)
  | .cxlComponent _ o =>
    if Config.hdmOffset.val ≤ o % 0x1_0000 ∧ o % 0x1_0000 < Config.hdmOffset.val + 4 then
      wordByte (Config.hdmCapability.setWidth 64) (o % 0x1_0000 - Config.hdmOffset.val)
    else memByte s.mem key
  | _ => memByte s.mem key
/-- The registers among the keys of a read perform the side effects of being read, each once (R93). -/
def popReads (s : State) (keys : List Nat) : State :=
  ((keys.map fun a => a / 8).eraseDups).foldl (fun s w =>
    match keySpace s (w * 8) with
    | .sysreg c n => popRead s c n
    | .bridgeReg _ n => popRead s 0 n
    | _ => s) s

end Sys2Proof.Machine
end

