-- ==== Sys2Proof/Machine/Contain.lean ====
section
/-! DEFINITION. Errors in storage (R372 to R376, R380): owner tags, the logs of a conservator, poison, the end of an owner's
strands, a cube's compute fenced, and injected faults. -/
namespace Sys2Proof.Machine

/-! ### Logs (R375) -/

def logRecord (kind : Nat) (owner : BitVec 12) (where_ : Nat) : Word :=
  (BitVec.ofNat 64 kind <<< 60) ||| (owner.setWidth 64 <<< 48) ||| BitVec.ofNat 64 (where_ % 2 ^ 48)
/-- A record that meets a full log is dropped, and the newest record is marked LOST where its kind has that bit. -/
def markLost : List Word → List Word
  | [] => []
  | [w] => [if 5 ≤ (w.extractLsb' 60 4).toNat then w ||| BitVec.twoPow 64 59 else w]
  | w :: t => w :: markLost t
def logAdd (l : List Word) (w : Word) : List Word := if l.length < 256 then l ++ [w] else markLost l
def logCe (s : State) (c : CubeId) (w : Word) : State :=
  s.modCube c fun k => { k with con := { k.con with ceLog := logAdd k.con.ceLog w } }
def logUe (s : State) (c : CubeId) (w : Word) : State :=
  s.modCube c fun k => { k with con := { k.con with ueLog := logAdd k.con.ueLog w } }
/-- WHERE of a record about a capability class and a shelf. -/
def classWhere (cls shelf : Nat) : Nat := cls * 2 ^ 40 + shelf

/-! ### Owner tags (R373) -/

def within (base n x : Nat) : Bool := decide (base ≤ x) && decide (x < base + n)
/-- A partition owns a place of its cube's stores. -/
def Partition.owns (p : Partition) : Space → Bool
  | .scratch _ o => within p.scrBase p.scrBanks (o / 0x10_0000)
  | .acc _ o => within p.accBase p.accTiles (o / 0x4000)
  | .face _ _ _ o => within p.faceBase ((p.faceBytes + 0x3_FFFF) / 0x4_0000) (o / 0x4_0000)
  | .plane _ _ o => within p.ptBase p.ptTiles (o / 0x4000)
  | .constant _ o => within p.constBase ((p.constBytes + 0xFFF) / 0x1000) (o / 0x1000)
  | _ => false
/-- The strands of a cube as they stand: the running one in its live form. -/
def Cube.strands (k : Cube) : List (ShelfId × Ctx) :=
  (List.finRange 16).filterMap fun i =>
    (k.shelves.get i).map fun x => (i, if k.cur = .shelf i then k.core else x)
/-- The tag of a store line of a cube: what the partition that holds it got when it was allocated. -/
def storeOwner (k : Cube) (sp : Space) : BitVec 12 :=
  match k.strands.find? fun x => x.2.part.owns sp with
  | some x => x.2.task.owner
  | none => 0xFFF
/-- The tag of a line of this package, given the key of its first byte. -/
def lineOwner (s : State) (key : Nat) : BitVec 12 :=
  match storeSpace s key with
  | .hbm _ => ownerOf s.owners (key / 64)
  | .scratch c o => storeOwner (s.cube c) (.scratch c o)
  | .acc c o => storeOwner (s.cube c) (.acc c o)
  | .face c l b o => storeOwner (s.cube c) (.face c l b o)
  | .plane c l o => storeOwner (s.cube c) (.plane c l o)
  | .constant c o => storeOwner (s.cube c) (.constant c o)
  | _ => 0xFFF
/-- The cube whose conservator watches a key, and whether the store is HBM. -/
def watcher (s : State) (key : Nat) : Option (CubeId × Bool) :=
  match storeSpace s key with
  | .hbm n => if h : n < 8 then some (⟨n, h⟩, true) else none
  | .scratch c _ | .acc c _ | .face c _ _ _ | .plane c _ _ | .constant c _ => some (c, false)
  | _ => none

/-! ### Containment (R374, R380) -/

/-- A strand is to end with a cause (R250). -/
def Ctx.doom (x : Ctx) (cause : BitVec 8) : Ctx :=
  { x with task := { x.task with ending := match x.task.ending with | none => some cause | e => e } }
/-- Every strand of an address space, resident or evicted, is to end. -/
def endSpace (s : State) (asn : BitVec 12) (cause : BitVec 8) : State :=
  let f (x : Ctx) : Ctx := if x.mode = .task ∧ x.sys.asn = asn then x.doom cause else x
  { s with
    cubes := s.cubes.map fun k =>
      { k with core := (match k.cur with | .shelf _ => f k.core | _ => k.core), shelves := k.shelves.map fun o => o.map f }
    atl := { s.atl with evicted := s.atl.evicted.map fun e => { e with ctx := f e.ctx } } }
/-- Every strand of a cube is to migrate (R245). -/
def Cube.sendAway (k : Cube) (f : Ctx → Bool) : Cube :=
  let g (x : Ctx) : Ctx := if f x then { x with task := { x.task with away := true } } else x
  { k with core := (match k.cur with | .shelf _ => g k.core | _ => k.core), shelves := k.shelves.map fun o => o.map g }
/-- A LIVE cube enters MEMONLY (R380): nothing computes there any more, its classes are fenced, and its strands migrate. -/
def fenceCube (s : State) (c : CubeId) : State :=
  if (s.cube c).hw.life = .live then
    let s := s.modCube c fun k => { k.sendAway (fun _ => true) with hw := { k.hw with life := .memoryOnly, caps := 0 } }
    logUe s c (logRecord 14 0 0)
  else s
def poisonLine (s : State) (line : Nat) : State := if s.poison.contains line then s else { s with poison := line :: s.poison }
/-- A logged error of a line of HBM stands in the history of its row, which the next boot tests repair by (R379). -/
def noteRow (s : State) (c : CubeId) (line : Nat) (bad : Bool) : State :=
  let row := Config.hbmRow (line % 2 ^ 30)
  s.modCube c fun k =>
    let old := match k.con.rowLog.find? fun e => e.1 == row with | some e => e.2 | none => (0, false)
    { k with con := { k.con with rowLog :=
        (row, (if bad then old.1 else old.1 + 1), old.2 || bad) :: k.con.rowLog.filter fun e => e.1 != row } }
/-- What an uncorrectable error on a line brings about besides the failed read: the mark, the record, and the end of its
owner's strands or of the cube's computing. -/
def uncorrectable (s : State) (line : Nat) : State :=
  let key := line * 64
  match watcher s key with
  | none => poisonLine s line
  | some (c, hbm) =>
    let o := lineOwner s key
    let s := logUe (poisonLine s line) c (logRecord (if hbm then 4 else 3) o key)
    let s := if hbm then noteRow s c line true else s
    if o = 0xFFF then fenceCube s c else endSpace s o causeUncorrectableCode
where causeUncorrectableCode : BitVec 8 := 0x09
/-- A correctable error on a line is corrected and logged (R372). -/
def correctable (s : State) (line : Nat) : State :=
  match watcher s (line * 64) with
  | some (c, hbm) =>
    let s := logCe s c (logRecord (if hbm then 2 else 1) (lineOwner s (line * 64)) (line * 64))
    if hbm then noteRow s c line false else s
  | none => s

/-! ### Injected faults (R376) -/

/-- An armed fault on the line fires. -/
def fireLine (s : State) (line : Nat) : State :=
  (List.finRange 8).foldl (fun s c =>
    let q := (s.cube c).con
    if q.injArm ∧ q.injAddr.toNat = line then
      let s := s.modCube c fun k => { k with con := { k.con with injArm := false, injFired := true } }
      if q.injKind = 0 then correctable s line else uncorrectable s line
    else s) s
/-- A read of lines at their homes. -/
def fireReads (s : State) (lines : List Nat) : State :=
  if (List.finRange 8).any fun c => (s.cube c).con.injArm then lines.foldl fireLine s else s
/-- The bridge dies read a peer's entry and take it into their cache, whole (R357, R371, R376); one that cannot be read is not kept
(R374). -/
def cachePeer (s : State) (p : Nat) : State :=
  if s.fab.entries.any fun e => e.1 == p then s
  else
    let s := fireReads s [peerPlace s p / 64]
    if s.poison.contains (peerPlace s p / 64) then s
    else { s with fab := { s.fab with entries := (p, Vector.ofFn fun k => peerEntry s p k.val) :: s.fab.entries } }
/-- The lines of a run of storage. -/
def runLines (key n : Nat) : List Nat := if n = 0 then [] else (List.range ((key % 64 + n + 63) / 64)).map fun k => key / 64 + k
/-- What is copied from a poisoned line stays poisoned where it goes (R374, log entry 96). -/
def carryPoison (s : State) (src dst n : Nat) : State :=
  ((runLines src n).filter s.poison.contains).foldl (fun s l => poisonLine s ((dst + (max (l * 64) src - src)) / 64)) s
/-- A command that would fail on one more poisoned line reads that line: its injected fault fires. -/
def fireProbe (s : State) (probe : State → Option (BitVec 8 × VA)) : State :=
  (List.finRange 8).foldl (fun s c =>
    let q := (s.cube c).con
    if q.injArm ∧ probe { s with poison := q.injAddr.toNat :: s.poison } ≠ probe s then fireLine s q.injAddr.toNat else s) s

end Sys2Proof.Machine
end

