-- ==== Sys2Proof/Machine/Num.lean ====
section
/-! DEFINITION. Numbers (chapter 03): exact values, decoding and encoding of every format, rounding, noise, MX blocks and
the summation rules. Every arithmetic is exact on integers and rounded once at the end. -/
namespace Sys2Proof.Machine

/-- An exact value (R73): NaN, an infinity, or the signed dyadic (-1)^neg × m × 2^e. m = 0 is a signed zero. -/
inductive FVal where
  | nan
  | inf (neg : Bool)
  | fin (neg : Bool) (m : Nat) (e : Int)
deriving DecidableEq, Repr, Inhabited

/-- Rounding modes of R71. -/
inductive RMode where
  | rne | rtz | rdn | rup | sr
deriving DecidableEq, Repr, Inhabited

/-- Mode of a code of R71; codes 5 to 7, which no register or palette ever holds, read as RNE. -/
def RMode.ofCode (c : BitVec 3) : RMode :=
  match c.toNat with
  | 1 => .rtz | 2 => .rdn | 3 => .rup | 4 => .sr | _ => .rne
/-- SEQ_FRM's mode for arithmetic: RM = 4 rounds as RNE (R72). -/
def RMode.frm (c : BitVec 3) : RMode :=
  match RMode.ofCode c with
  | .sr => .rne
  | m => m

/-- The formats that have an element encoding of their own (R59): the floating formats of R60 and the integers of R62. -/
inductive NFmt where
  | f32 | bf16 | f16 | e4m3 | e5m2 | i8 | i16 | i32
deriving DecidableEq, Repr, Inhabited

/-- A floating format (R60): exponent bits, mantissa bits, bias. -/
structure FSpec where
  eb : Nat
  mb : Nat
  bias : Nat
deriving DecidableEq, Repr
def specF32 : FSpec := ⟨8, 23, 127⟩
def specBF16 : FSpec := ⟨8, 7, 127⟩
def specF16 : FSpec := ⟨5, 10, 15⟩
def specE4M3 : FSpec := ⟨4, 3, 7⟩
def specE5M2 : FSpec := ⟨5, 2, 15⟩

def NFmt.bytes : NFmt → Nat
  | .f32 | .i32 => 4
  | .bf16 | .f16 | .i16 => 2
  | .e4m3 | .e5m2 | .i8 => 1
/-- The number format of a vector element type; the b types read as signed integers (R213). -/
def numFmt : ElemT → NFmt
  | .b8 => .i8 | .b16 => .i16 | .b32 => .i32 | .f16 => .f16 | .bf16 => .bf16 | .f32 => .f32 | .e4 => .e4m3 | .e5 => .e5m2

/-! ### Decoding -/

/-- Value of a bit pattern in a format with infinities at the all-ones exponent (R60). -/
def decodeIeee (f : FSpec) (bits : Nat) : FVal :=
  let s := bits / 2 ^ (f.eb + f.mb) % 2 == 1
  let e := bits / 2 ^ f.mb % 2 ^ f.eb
  let m := bits % 2 ^ f.mb
  if e = 2 ^ f.eb - 1 then if m = 0 then .inf s else .nan
  else if e = 0 then .fin s m (1 - (f.bias : Int) - f.mb)
  else .fin s (2 ^ f.mb + m) ((e : Int) - f.bias - f.mb)
/-- E4M3 has no infinity, and only S.1111.111 is NaN (R60). -/
def decodeE4M3 (bits : Nat) : FVal :=
  let s := bits / 128 % 2 == 1
  let e := bits / 8 % 16
  let m := bits % 8
  if e = 15 ∧ m = 7 then .nan
  else if e = 0 then .fin s m (-9)
  else .fin s (8 + m) ((e : Int) - 10)
/-- An exact integer as a value. -/
def FVal.ofInt (i : Int) : FVal := .fin (i < 0) i.natAbs 0
/-- The two's complement value of the low b bits. -/
def sint (b bits : Nat) : Int :=
  let v := bits % 2 ^ b
  if v < 2 ^ (b - 1) then (v : Int) else (v : Int) - 2 ^ b
/-- decode of R73. -/
def decodeNum : NFmt → Nat → FVal
  | .f32, b => decodeIeee specF32 b
  | .bf16, b => decodeIeee specBF16 b
  | .f16, b => decodeIeee specF16 b
  | .e5m2, b => decodeIeee specE5M2 b
  | .e4m3, b => decodeE4M3 b
  | .i8, b => .ofInt (sint 8 b)
  | .i16, b => .ofInt (sint 16 b)
  | .i32, b => .ofInt (sint 32 b)

/-! ### Rounding -/

/-- The rounded magnitude of m × 2^e in units of 2^q (R73). -/
def rndQ (neg : Bool) (m : Nat) (e q : Int) (mode : RMode) (nz : Nat) : Nat :=
  if q ≤ e then m * 2 ^ (e - q).toNat
  else
    let sh := (q - e).toNat
    let lo := m / 2 ^ sh
    let rem := m % 2 ^ sh
    let up : Bool :=
      match mode with
      | .rne => decide (2 ^ sh < 2 * rem) || (decide (2 * rem = 2 ^ sh) && decide (lo % 2 = 1))
      | .rtz => false
      | .rdn => neg && decide (rem ≠ 0)
      | .rup => !neg && decide (rem ≠ 0)
      | .sr => decide (2 ^ 16 ≤ rem * 2 ^ 16 / 2 ^ sh + nz)
    if up then lo + 1 else lo

/-- Exponent of the leading bit of a nonzero m × 2^e: floor(log2). -/
def topExp (m : Nat) (e : Int) : Int := (Nat.log2 m : Int) + e

/-- What a value beyond the largest finite value becomes, and an infinity (R73). -/
inductive OvfRule where
  | ieee | saturate | toNan | toInf
deriving DecidableEq, Repr

def signBit (f : FSpec) (neg : Bool) : Nat := if neg then 2 ^ (f.eb + f.mb) else 0

/-- Overflow in an IEEE format, by the mode (R73). -/
def ovfToInf (neg : Bool) : RMode → Bool
  | .rne | .sr => true
  | .rtz => false
  | .rdn => neg
  | .rup => !neg

/-- Bits of a finite value in a floating format whose largest finite magnitude is maxBits, rounded; the second result
tells that the rounded magnitude lies beyond it. -/
def encodeFin (f : FSpec) (maxBits : Nat) (neg : Bool) (m : Nat) (e : Int) (mode : RMode) (nz : Nat) : Nat × Bool :=
  if m = 0 then (0, false)
  else
    let emin : Int := 1 - f.bias
    let q := max (topExp m e) emin - f.mb
    let k := rndQ neg m e q mode nz
    -- a carry out of the mantissa moves to the next binade, which the sum below does by itself
    let bits : Nat := if k < 2 ^ f.mb then k else ((q + f.mb + f.bias - 1) * 2 ^ f.mb + k).toNat
    (bits, decide (maxBits < bits))

/-- encode of R73 into an IEEE format. -/
def encodeIeee (f : FSpec) (mode : RMode) (nz : Nat) : FVal → Nat
  | .nan => (2 ^ f.eb - 1) * 2 ^ f.mb + 2 ^ (f.mb - 1)
  | .inf n => signBit f n + (2 ^ f.eb - 1) * 2 ^ f.mb
  | .fin n m e =>
    let big := (2 ^ f.eb - 1) * 2 ^ f.mb
    let (b, o) := encodeFin f (big - 1) n m e mode nz
    signBit f n + if o then (if ovfToInf n mode then big else big - 1) else b
/-- encode into E4M3: saturation to ±448, or the canonical NaN when `nanovf` (R73). -/
def encodeE4M3 (nanovf : Bool) (mode : RMode) (nz : Nat) : FVal → Nat
  | .nan => 0x7F
  | .inf _ => 0x7F
  | .fin n m e =>
    let (b, o) := encodeFin specE4M3 0x7E n m e mode nz
    if o then (if nanovf then 0x7F else signBit specE4M3 n + 0x7E) else signBit specE4M3 n + b
/-- encode into E5M2: saturation to ±57,344, or ±infinity when `nanovf` (R73). -/
def encodeE5M2 (nanovf : Bool) (mode : RMode) (nz : Nat) : FVal → Nat
  | .nan => 0x7E
  | .inf n => signBit specE5M2 n + 0x7C
  | .fin n m e =>
    let (b, o) := encodeFin specE5M2 0x7B n m e mode nz
    signBit specE5M2 n + if o then (if nanovf then 0x7C else 0x7B) else b
/-- A value rounded to an integer and clamped to [lo, hi]; NaN gives 0 (R62, R73). -/
def toIntSat (lo hi : Int) (mode : RMode) (nz : Nat) : FVal → Int
  | .nan => 0
  | .inf n => if n then lo else hi
  | .fin n m e =>
    let k : Int := rndQ n m e 0 mode nz
    max lo (min hi (if n then -k else k))
/-- The low b bits of an integer. -/
def intBits (b : Nat) (i : Int) : Nat := (i % (2 ^ b : Nat)).toNat
def encodeInt (b : Nat) (mode : RMode) (nz : Nat) (x : FVal) : Nat :=
  intBits b (toIntSat (-(2 ^ (b - 1) : Nat)) ((2 ^ (b - 1) : Nat) - 1) mode nz x)
/-- encode of R73. `nanovf` is DRN_MODE.NANOVF, which acts in drains only. -/
def encodeNum (f : NFmt) (nanovf : Bool) (mode : RMode) (nz : Nat) (x : FVal) : Nat :=
  match f with
  | .f32 => encodeIeee specF32 mode nz x
  | .bf16 => encodeIeee specBF16 mode nz x
  | .f16 => encodeIeee specF16 mode nz x
  | .e4m3 => encodeE4M3 nanovf mode nz x
  | .e5m2 => encodeE5M2 nanovf mode nz x
  | .i8 => encodeInt 8 mode nz x
  | .i16 => encodeInt 16 mode nz x
  | .i32 => encodeInt 32 mode nz x
/-- encode for every engine but the drain. -/
def encode (f : NFmt) (mode : RMode) (nz : Nat) (x : FVal) : Nat := encodeNum f false mode nz x

def dec32 (b : Nat) : FVal := decodeNum .f32 b
def enc32 (mode : RMode) (x : FVal) : Nat := encode .f32 mode 0 x

/-! ### Exact arithmetic (R61) -/

def FVal.isNan : FVal → Bool
  | .nan => true
  | _ => false
def FVal.neg : FVal → FVal
  | .nan => .nan
  | .inf n => .inf (!n)
  | .fin n m e => .fin (!n) m e
def FVal.abs : FVal → FVal
  | .nan => .nan
  | .inf _ => .inf false
  | .fin _ m e => .fin false m e
def FVal.isZero : FVal → Bool
  | .fin _ m _ => m == 0
  | _ => false
def FVal.signNeg : FVal → Bool
  | .nan => false
  | .inf n => n
  | .fin n _ _ => n
/-- Exact product; infinity times zero is NaN. -/
def FVal.mul : FVal → FVal → FVal
  | .nan, _ => .nan
  | _, .nan => .nan
  | .inf a, .inf b => .inf (a != b)
  | .inf a, .fin b m _ => if m = 0 then .nan else .inf (a != b)
  | .fin a m _, .inf b => if m = 0 then .nan else .inf (a != b)
  | .fin a m e, .fin b n f => .fin (a != b) (m * n) (e + f)

/-- The signed integer that a finite value is at scale 2^q, for q at most its exponent. -/
def FVal.atScale (q : Int) : FVal → Int
  | .fin n m e => let v : Int := (m * 2 ^ (e - q).toNat : Nat); if n then -v else v
  | _ => 0
/-- The least exponent among the finite terms. -/
def minExp (ts : List FVal) : Int :=
  ts.foldl (fun q t => match t with | .fin _ _ e => min q e | _ => q) 0
/-- The exact sum of the terms with the special values of R61; `mode` decides only the sign of an exact zero. -/
def sumExact (mode : RMode) (ts : List FVal) : FVal :=
  if ts.any FVal.isNan then .nan
  else
    let pos := ts.any fun t => t == .inf false
    let neg := ts.any fun t => t == .inf true
    if pos && neg then .nan
    else if pos then .inf false
    else if neg then .inf true
    else
      let q := minExp ts
      let v := ts.foldl (fun a t => a + t.atScale q) (0 : Int)
      if v = 0 then
        let allNeg := ts.all FVal.signNeg
        let anyNeg := ts.any FVal.signNeg
        .fin ((allNeg && ts.all FVal.isZero) || (mode == .rdn && anyNeg && !allNeg)) 0 0
      else .fin (v < 0) v.natAbs q
def FVal.add (mode : RMode) (a b : FVal) : FVal := sumExact mode [a, b]

/-- Exact order of two values that are not NaN; the two zeros are equal. -/
def FVal.lt : FVal → FVal → Bool
  | .nan, _ => false
  | _, .nan => false
  | .inf a, .inf b => a && !b
  | .inf a, .fin .. => a
  | .fin .., .inf b => !b
  | .fin a m e, .fin b n f =>
    let q := min e f
    decide ((FVal.fin a m e).atScale q < (FVal.fin b n f).atScale q)
/-- Equality of compares: NaN equals nothing, and -0 equals +0 (R176). -/
def FVal.eqv (a b : FVal) : Bool := !a.isNan && !b.isNan && !a.lt b && !b.lt a
def FVal.le (a b : FVal) : Bool := a.lt b || a.eqv b
/-- The smaller operand with -0 below +0; with one NaN the other; with two, NaN (R175, R206). -/
def FVal.min2 (a b : FVal) : FVal :=
  if a.isNan then b else if b.isNan then a
  else if a.lt b then a else if b.lt a then b
  else if a.signNeg then a else b
def FVal.max2 (a b : FVal) : FVal :=
  if a.isNan then b else if b.isNan then a
  else if a.lt b then b else if b.lt a then a
  else if a.signNeg then b else a

/-- Integer square root by bits: the largest r below 2^k with r × r at most n. -/
def isqrtBits (n : Nat) : Nat → Nat → Nat
  | 0, r => r
  | k + 1, r => let t := r + 2 ^ k; isqrtBits n k (if t * t ≤ n then t else r)
def isqrt (n : Nat) : Nat := isqrtBits n (Nat.log2 n / 2 + 1) 0

/-- A value close enough to a quotient num / den (den nonzero) that every rounding to a format of at most 24 bits sees the
same: 96 bits of quotient with a sticky bit below. -/
def quotSticky (neg : Bool) (num den : Nat) (e : Int) : FVal :=
  let sh := 96 + Nat.log2 den
  let n := num * 2 ^ sh
  .fin neg (2 * (n / den) + if n % den = 0 then 0 else 1) (e - sh - 1)
/-- The same for the square root of m × 2^e. -/
def sqrtSticky (m : Nat) (e : Int) : FVal :=
  let up : Nat := 200 + (if e % 2 = 0 then 0 else 1)
  let n := m * 2 ^ up
  let r := isqrt n
  .fin false (2 * r + if r * r = n then 0 else 1) ((e - up) / 2 - 1)
/-- Square root with the special cases of R175 and R207. -/
def FVal.sqrt : FVal → FVal
  | .nan => .nan
  | .inf n => if n then .nan else .inf false
  | .fin n m e => if m = 0 then .fin n 0 0 else if n then .nan else sqrtSticky m e
/-- 1/a (R207). -/
def FVal.rcp : FVal → FVal
  | .nan => .nan
  | .inf n => .fin n 0 0
  | .fin n m e => if m = 0 then .inf n else quotSticky n 1 m (-e)
/-- 1/√a (R207): the root of 2^400 / (m × 2^(e mod 2)), with a sticky bit for both roundings. -/
def FVal.rsq : FVal → FVal
  | .nan => .nan
  | .inf n => if n then .nan else .fin false 0 0
  | .fin n m e =>
    if m = 0 then .inf n else if n then .nan
    else
      let p : Nat := if e % 2 = 0 then 0 else 1
      let d := m * 2 ^ p
      let k := 2 * (Nat.log2 d + 100)
      let x := 2 ^ k / d
      let r := isqrt x
      .fin false (2 * r + if r * r * d = 2 ^ k then 0 else 1) (-(e - p) / 2 - (k / 2 : Nat) - 1)

/-! ### Noise (R74, R76) -/

/-- One step of xorshift128+: the word and the next state A, B. -/
def genNext (a b : Word) : Word × Word × Word :=
  let s1 := a ^^^ (a <<< 23)
  let b' := s1 ^^^ b ^^^ (s1 >>> 17) ^^^ (b >>> 26)
  (b' + b, b, b')
/-- The 16-bit noise of result element l from word w. -/
def noiseLane (w : Word) (l : Nat) : Nat :=
  let t := w ^^^ (BitVec.ofNat 64 l * 0x9E3779B97F4A7C15)
  let t := t ^^^ (t >>> 29)
  let t := t * 0xBF58476D1CE4E5B9
  (t >>> 48).toNat
/-- The n-th value (from 0) of gen_next from A, B (R78). -/
def genWord (a b : Word) : Nat → Word
  | 0 => (genNext a b).1
  | n + 1 => let r := genNext a b; genWord r.2.1 r.2.2 n
/-- Noise of output element e of an engine command (R78): A is the seed, B comes from the command tag. -/
def engineNoise (seed tag : Word) (e : Nat) : Nat :=
  let b := tag * 0x9E3779B97F4A7C15
  noiseLane (genWord seed (if b = 0 then 1 else b) (e / 256)) (e % 256)

/-! ### MX blocks (R63 to R66, R79, R80) -/

/-- The three MX formats. -/
inductive MxFmt where
  | mx8 | mx6 | mx4
deriving DecidableEq, Repr, Inhabited
def MxFmt.bits : MxFmt → Nat
  | .mx8 => 8 | .mx6 => 6 | .mx4 => 4
/-- The implied factor f is 2^(this) (R63). -/
def MxFmt.fexp : MxFmt → Int
  | .mx8 => -6 | .mx6 => -4 | .mx4 => -2
/-- decode(MX, q) under scale X as an F32 value: NaN for X = 0xFF, and -infinity where -2^128 would be (R80). -/
def mxDecode (f : MxFmt) (q : Int) (x : Nat) : FVal :=
  if x = 255 then .nan
  else
    let e := f.fexp + (x : Int) - 127
    if q < 0 ∧ 2 ^ (f.bits - 1) ≤ q.natAbs ∧ x = 254 then .inf true
    else .fin (q < 0) q.natAbs e
/-- mx_quant (R79): the scale and the elements of a block; element i takes noise nz i. -/
def mxQuant (f : MxFmt) (xs : List FVal) (mode : RMode) (nz : Nat → Nat) : Nat × List Int :=
  if xs.any (fun x => match x with | .nan => true | .inf _ => true | _ => false) then (255, xs.map fun _ => 0)
  else
    let top := xs.foldl (fun (t : Option Int) x =>
      match x with
      | .fin _ m e => if m = 0 then t else some (match t with | none => topExp m e | some u => max u (topExp m e))
      | _ => t) none
    match top with
    | none => (0, xs.map fun _ => 0)
    | some u =>
      let x := (max (u + 127) 0).toNat
      let lim : Int := 2 ^ (f.bits - 1) - 1
      (x, xs.mapIdx fun i v =>
        match v with
        | .fin n m e =>
          let k : Int := rndQ n m (e - f.fexp - ((x : Int) - 127)) 0 mode (nz i)
          max (-lim) (min lim (if n then -k else k))
        | _ => 0)
/-- Element n of a packed row (R63): b bits from bit b × n, little-endian, as a signed value. -/
def mxElem (f : MxFmt) (packed n : Nat) : Int := sint f.bits (packed / 2 ^ (f.bits * n))
/-- Elements packed by R63, as one little-endian number. -/
def mxPack (f : MxFmt) (qs : List Int) : Nat :=
  qs.foldr (fun q a => intBits f.bits q + 2 ^ f.bits * a) 0

/-! ### Summation (R81 to R84) -/

/-- dot_group (R81) on the running value and the exact products. -/
def dotGroup (run : FVal) (prods : List FVal) : FVal :=
  let ts := run :: prods
  let nz := ts.filter fun t => !t.isZero
  match sumExact .rne ts with
  | .fin n m e =>
    match nz with
    | [] => .fin n m e
    | _ =>
      let emax := nz.foldl (fun (a : Int) t =>
        match t with | .fin _ m e => max a (topExp m e) | _ => a) (-100000)
      let g := emax - 30
      -- floor of each term to the grid 2^g
      let v := nz.foldl (fun (a : Int) t =>
        match t with
        | .fin n m e =>
          if g ≤ e then a + (FVal.fin n m e).atScale g
          else a + (FVal.fin n m e).atScale e / (2 ^ (g - e).toNat : Nat)
        | _ => a) 0
      if v = 0 then .fin false 0 0 else dec32 (enc32 .rne (.fin (v < 0) v.natAbs g))
  | other => other
/-- One F32 addition with RNE. -/
def add32 (a b : FVal) : FVal := dec32 (enc32 .rne (FVal.add .rne a b))

/-- The fixed pairwise tree of R84: level by level, elements 2i and 2i+1 combine. -/
def pairUp {α : Type} (f : α → α → α) : List α → List α
  | a :: b :: t => f a b :: pairUp f t
  | l => l
def treeReduce {α : Type} (f : α → α → α) : Nat → List α → List α
  | 0, l => l
  | n + 1, l => treeReduce f n (pairUp f l)

end Sys2Proof.Machine
end

