-- ==== Sys2Proof/Machine/Coherence.lean ====
section
/-! DEFINITION. Homes and edge caches (chapter 04): how a write, a counter operation or an atomic becomes an item, when its
home may perform it, what performing it does, and what a read returns. -/
namespace Sys2Proof.Machine

/-! ### Contexts by identity -/

/-- The context with identity sid is updated wherever it stands: on the core, on a shelf, or in its reserved image. -/
def Cube.modSid (k : Cube) (sid : Nat) (f : Ctx → Ctx) : Cube :=
  if k.cur ≠ .none ∧ k.core.sid = sid then { k with core := f k.core }
  else
    { k with
      shelves := k.shelves.map fun o => o.map fun c => if c.sid = sid then f c else c
      rt := if k.rt.sid = sid then f k.rt else k.rt
      sec := if k.sec.sid = sid then f k.sec else k.sec }
def State.modSid (s : State) (sid : Nat) (f : Ctx → Ctx) : State :=
  { s with cubes := s.cubes.map fun k => k.modSid sid f }
/-- The contexts of a cube as they stand: the running one in its live form. -/
def Cube.contexts (k : Cube) : List Ctx :=
  let live := k.core
  let sub (c : Ctx) : Ctx := if k.cur ≠ .none ∧ c.sid = live.sid then live else c
  (k.shelves.toList.filterMap fun o => o.map sub) ++ [sub k.rt, sub k.sec]
def State.findSid (s : State) (sid : Nat) : Option Ctx :=
  s.cubes.toList.findSome? fun k => k.contexts.find? fun c => c.sid == sid

/-! ### Items -/

def ItemOp.addr : ItemOp → Nat
  | .store cells => match cells with | [] => 0 | c :: _ => c.1
  | .cadd a _ => a
  | .cmax a _ => a
  | .fetchAdd a _ => a
  | .amo _ _ a _ _ => a
/-- The locations that an operation writes. -/
def ItemOp.locs : ItemOp → List Nat
  | .store cells => cells.map Prod.fst
  | .cadd a _ => (List.range 8).map (a + ·)
  | .cmax a _ => (List.range 8).map (a + ·)
  | .fetchAdd a _ => (List.range 8).map (a + ·)
  | .amo _ wide a _ _ => (List.range (if wide then 8 else 4)).map (a + ·)
def overlap (xs ys : List Nat) : Bool := xs.any fun a => ys.contains a
def Item.isWriteOp (i : Item) : Bool := match i.op with | .store _ => true | _ => false
def State.item (s : State) (id : Nat) : Option Item := s.items.find? fun i => i.id == id
def State.modItem (s : State) (id : Nat) (f : Item → Item) : State :=
  { s with items := s.items.map fun i => if i.id = id then f i else i }
def State.dropItem (s : State) (id : Nat) : State := { s with items := s.items.filter fun i => i.id != id }

/-- A write is completed to CUBE scope when performed, and to a wider scope when acknowledged (R108, R115; DESIGN CHOICE where R131
leaves the outcome open, log entry 103). -/
def completedTo (s : State) (sc : Scope) (id : Nat) : Bool :=
  match s.item id with
  | none => true
  | some i => (sc == .cube && i.status == .performed) || i.status == .failed
/-- Line and write mode of a command (R258, R345). -/
def cmdLine (m : Cmd) : BitVec 3 :=
  match m.kind with
  | .copy _ => (m.grp.getD 2 0).extractLsb' 52 3
  | .block _ => (m.grp.getD 1 0).extractLsb' 52 3
  | _ => 0
def cmdGlob (m : Cmd) : Bool :=
  match m.kind with
  | .copy _ => (m.grp.getD 2 0).getLsbD 55
  | .block _ => (m.grp.getD 1 0).getLsbD 55
  | _ => false
/-- A command of the strand, enqueued before a position of its issue order, still holds its place on a line towards a home: its
writes there are not performed, or its completion add has not been sent (R108, R117). -/
def Cmd.holdsLine (m : Cmd) (sid : Nat) (line : BitVec 3) (home pos : Nat) : Bool :=
  m.sid == sid && cmdLine m == line && decide (m.id < pos) && m.homes.contains home && m.status != .adding
/-- An item keeps its place in a numbered line until it commits, behind the strand's earlier items and commands on the line. -/
def lineReady (s : State) (i : Item) : Bool :=
  i.line == 0 || (!(s.items.any fun j =>
    j.sid == i.sid && j.line == i.line && j.home == i.home && decide (j.pos < i.pos) && j.status != .performed && j.status != .failed) &&
      !(s.cube i.cube).cmds.any fun m => m.holdsLine i.sid i.line i.home i.pos)
/-- An .e store on line 0 that has set out: its die sees it before its home performs it (R121). -/
def Item.seenAtIssue (i : Item) : Bool := i.isWriteOp && !i.glob && i.line == 0 && i.status != .waiting
/-- Two writes of one strand to one location keep issue order, and a later write to a location of an earlier .g write of
the strand waits for that write to complete (R119). A write of a die also follows every earlier store of that die to its locations that
the die has seen at issue, so that it never sees the older value again (R109, R121). Reductions without `.ord` keep issue order, too (DESIGN CHOICE, R183, log entry
104). -/
def addressReady (s : State) (i : Item) : Bool :=
  !s.items.any fun j =>
    ((j.sid == i.sid && decide (j.pos < i.pos) && (j.status != .performed || j.glob)) ||
      (j.cube == i.cube && decide (j.id < i.id) && j.seenAtIssue && j.status != .performed)) &&
      j.status != .failed && overlap j.op.locs i.op.locs
/-- An ordered reduction follows the strand's earlier ordered reductions to its home (R183). -/
def orderedReady (s : State) (i : Item) : Bool :=
  !i.ordered || !s.items.any fun j =>
    j.sid == i.sid && j.ordered && j.home == i.home && decide (j.pos < i.pos) && j.status != .performed

/-! ### The directory and edge caches (R101) -/

def lineOf (a : Nat) : Nat := a / 64
def linesOf (locs : List Nat) : List Nat := (locs.map lineOf).eraseDups
def edgeHas (k : Cube) (l : Nat) : Bool := k.edge.any fun e => e.line == l
/-- Cubes whose edge cache holds one of the lines. -/
def sharers (s : State) (ls : List Nat) : List CubeId :=
  (List.finRange 8).filter fun c => ls.any fun l => edgeHas (s.cube c) l
/-- Cells cover every byte of a line. -/
def coversLine (locs : List Nat) (l : Nat) : Bool := (List.range 64).all fun k => locs.contains (l * 64 + k)
/-- A damaged copy of which every byte is written is whole again (R374). -/
def EdgeLine.mend (e : EdgeLine) (cells : List (Nat × Byte)) : EdgeLine :=
  if e.bad then { e with bad := !coversLine (cells.map Prod.fst) e.line } else e
/-- Bytes put into the copy of their lines, where a copy is held. -/
def edgeUpdate (k : Cube) (cells : List (Nat × Byte)) : Cube :=
  { k with edge := k.edge.map fun e =>
      cells.foldl (fun (e : EdgeLine) c =>
        if lineOf c.1 = e.line then
          let sh := 8 * (c.1 % 64)
          { e with data := (e.data &&& ~~~((255 : BitVec 512) <<< sh)) ||| (c.2.setWidth 512 <<< sh) }
        else e) (e.mend cells) }
/-- The copy of a line takes a tag (R373). -/
def edgeRetag (k : Cube) (l : Nat) (tag : BitVec 12) : Cube :=
  { k with edge := k.edge.map fun e => if e.line = l then { e with tag := tag } else e }
/-- An uncorrectable error has damaged a copy (R372, R374). -/
def edgeDamage (k : Cube) (l : Nat) : Cube :=
  { k with edge := k.edge.map fun e => if e.line = l then { e with bad := true } else e }
def edgeBad (k : Cube) (l : Nat) : Bool := k.edge.any fun e => e.line == l && e.bad
def edgeDrop (k : Cube) (l : Nat) : Cube := { k with edge := k.edge.filter fun e => e.line != l }
def edgeClear (k : Cube) : Cube := { k with edge := [] }
def edgeByte (k : Cube) (a : Nat) : Option Byte :=
  ((k.edge.find? fun e => e.line == lineOf a) : Option EdgeLine).map fun (e : EdgeLine) => (e.data >>> (8 * (a % 64))).setWidth 8
/-- Lines of an edge cache of 16 MiB (R12). -/
def edgeLines : Nat := 262144
/-- A line filled from its home; updates still on their way for it are already in what the home gave. -/
def edgeFill (s : State) (c : CubeId) (l : Nat) : State :=
  let d := BitVec.ofNat 512 (memNat s.mem (l * 64) 64)
  let s := s.modCube c fun k => { edgeDrop k l with edge := ⟨l, d, lineOwner s (l * 64), s.poison.contains l⟩ :: (edgeDrop k l).edge.take (edgeLines - 1) }
  { s with msgs := s.msgs.filter fun m => !(m.cube == c && m.line == l && m.update.isSome) }

/-- The copies of some lines take the tags that their homes hold (R373). -/
def retagCopies (s : State) (c : CubeId) (ls : List Nat) : State :=
  s.modCube c fun k => ls.foldl (fun k l => edgeRetag k l (lineOwner s (l * 64))) k
/-- Bytes that a cube's copies take now, with their homes' tags: updates of those bytes still on their way to it are older in coherence
order, and are left out when they come (R101, R109, R373). -/
def edgeOvertake (s : State) (c : CubeId) (older : List DirMsg → List DirMsg × List DirMsg) (cells : List (Nat × Byte)) : State :=
  let keep (m : DirMsg) : DirMsg :=
    if m.cube = c then { m with update := m.update.map fun u => u.filter fun d => !cells.any fun e => e.1 == d.1 } else m
  let p := older s.msgs
  { retagCopies (s.modCube c fun k => edgeUpdate k cells) c (linesOf (cells.map Prod.fst)) with msgs := p.1.map keep ++ p.2 }

/-- Counter arithmetic of R185. -/
def caddValue (old amt : Word) : Word :=
  let cnt := (old.setWidth 63).toNat + (amt.setWidth 63).toNat
  BitVec.ofNat 64 (min cnt (2 ^ 63 - 1)) ||| ((old ||| amt) &&& 0x8000000000000000)
def cmaxValue (old v : Word) : Word :=
  BitVec.ofNat 64 (max (old.setWidth 63).toNat (v.setWidth 63).toNat) ||| ((old ||| v) &&& 0x8000000000000000)

/-- The new value of an atomic at width w bits, as a number below 2^w (R181). Compare-and-swap compares with b and
writes b1. -/
def amoValue (op : AmoOp) (w : Nat) (old b b1 : Nat) : Nat :=
  match op with
  | .add => (old + b) % 2 ^ w
  | .and => old &&& b
  | .or => old ||| b
  | .xor => old ^^^ b
  | .min => if sint w old ≤ sint w b then old else b
  | .max => if sint w old ≤ sint w b then b else old
  | .minn => min old b
  | .maxn => max old b
  | .swap => b
  | .cas => if old = b then b1 else old
  | .fadd => enc32 .rne (FVal.add .rne (dec32 old) (dec32 b))
  | .fmax =>
    let x := dec32 old
    let y := dec32 b
    if x.isNan || y.isNan then enc32 .rne .nan else enc32 .rne (x.max2 y)

/-- The bytes an operation writes, given the memory as it stands, and the old value it found. -/
def opEffect (m : List Host.Cell) (op : ItemOp) : List (Nat × Byte) × Word :=
  match op with
  | .store cells => (cells, 0)
  | .cadd a amt => let o := memWord m a; (cellsAt a (bytesLE 8 (caddValue o amt).toNat), o)
  | .cmax a v => let o := memWord m a; (cellsAt a (bytesLE 8 (cmaxValue o v).toNat), o)
  | .fetchAdd a amt => let o := memWord m a; (cellsAt a (bytesLE 8 (o + amt).toNat), o)
  | .amo op wide a b b1 =>
    let n := if wide then 8 else 4
    let o := memNat m a n
    (cellsAt a (bytesLE n (amoValue op (8 * n) o (b.toNat % 2 ^ (8 * n)) (b1.toNat % 2 ^ (8 * n)))), BitVec.ofNat 64 o)

/-- Every watched word among the locations is reported to its watchers with its new value (R190). -/
def notifyWatches (s : State) (locs : List Nat) : State :=
  { s with notes := s.notes ++ (s.watches.filterMap fun w =>
      if locs.any (fun a => a / 8 == w.1 / 8) then some (w.2, w.1, memWord s.mem w.1) else none) }

/-- A place that acts on what is written to it instead of keeping it. -/
def Space.isWindow : Space → Bool
  | .shelf .. | .sysreg .. | .bridgeReg .. | .aperture .. | .cxlComponent .. => true
  | _ => false
/-- Cells of a write in runs of consecutive keys. -/
def contigRuns : List (Nat × Byte) → List (List (Nat × Byte))
  | [] => []
  | a :: t =>
    match contigRuns t with
    | [] => [[a]]
    | g :: gs => match g with
      | [] => [a] :: gs
      | b :: _ => if b.1 = a.1 + 1 then (a :: g) :: gs else [a] :: g :: gs
/-- The bits of register n that a one written to them clears (R7). -/
def onesClear (n : Nat) : Word :=
  match n with
  | 0x031 => 0xFE | 0x200 => 1 | 0x481 => 0xC | 0x521 => 0x10 | 0x540 => 0x1000 | 0x605 => 0x0808080808080808
  | 0x60C => 0x10000 | 0x610 => 0x000000FF00000000
  | _ => if 0x440 ≤ n ∧ n < 0x450 then BitVec.allOnes 64 else 0
/-- The value that a write leaves for the register behind key a: a narrower access acts on its other bits as they read, and
writes no one to those that a one would clear (R7). -/
def registerWrite (s : State) (cells : List (Nat × Byte)) (a : Nat) : Word :=
  let old := packLE ((List.range 8).map fun j => placeByte s (a / 8 * 8 + j))
  let keep : Word := BitVec.ofNat 64 old &&& ~~~onesClear (a % 0x8000 / 8)
  BitVec.ofNat 64 (packLE ((List.range 8).map fun j =>
    match cells.find? fun d => d.1 == a / 8 * 8 + j with | some d => d.2 | none => wordByte keep j))
/-- What a run of cells written to a window starts there (R92, R93, R398). -/
def runOps (s : State) (mode : Mode) (who : Writer) (cells : List (Nat × Byte)) : List WindowOp :=
  let regs := ((cells.map fun d => d.1 / 8).eraseDups).map fun w => w * 8
  match cells with
  | [] => []
  | c :: _ =>
    match keySpace s c.1 with
    | .shelf k i o => if h : i < 16 then [.shelf k ⟨i, h⟩ o (cells.map Prod.snd) who] else []
    | .sysreg k _ => regs.map fun a => .sysreg k (BitVec.ofNat 12 (a % 0x8000 / 8)) (registerWrite s cells a) mode
    | .bridgeReg _ _ => regs.map fun a => .sysreg 0 (BitVec.ofNat 12 (a % 0x8000 / 8)) (registerWrite s cells a) mode
    | .aperture b _ => [.aperture b (if c.1 % 64 = 0 then cells.map Prod.snd else [])]
    | .cxlComponent b o => [.component b o (cells.map Prod.snd)]
    | _ => []
def windowOps (s : State) (mode : Mode) (who : Writer) (cells : List (Nat × Byte)) : List WindowOp :=
  (contigRuns cells).flatMap (runOps s mode who)
/-- Owner tags of the HBM lines written (R373). -/
def tagLines (s : State) (locs : List Nat) (tag : BitVec 12) : State :=
  { s with owners := (linesOf locs).foldl (fun os l => if l * 64 < hbmTop then setOwner os l tag else os) s.owners }
/-- The tile of a place in the accumulator windows, as checksum records number it (R296). -/
def tileOf : Space → Option (CubeId × Nat)
  | .acc c off => some (c, off / 0x4000)
  | .plane c l off => some (c, 1024 + 64 * l + off / 0x4000)
  | _ => none
/-- Copies and window writes make the checksum record of each tile that they touch VOID (R296). -/
def voidTiles (s : State) (locs : List Nat) : State :=
  let ts := ((linesOf locs).filterMap fun l => tileOf (storeSpace s (l * 64))).eraseDups
  ts.foldl (fun s t => s.modCube t.1 fun k => { k with recs := k.recs.filter fun r => r.tile != t.2 }) s
/-- A line of which every byte is written loses its poison (R374). -/
def clearPoison (s : State) (locs : List Nat) : State :=
  if s.poison.isEmpty then s
  else { s with poison := s.poison.filter fun l => !coversLine locs l }
/-- The conservator may not act at a place: it lies in a secure region, and its SEC_WORLD bit is clear (R402, R403). -/
def conBarred (s : State) (d : Nat) : Bool := regionSecure s d && !s.secu.world.getLsbD 5
/-- Where the bytes of a granule that is being evacuated are written as well (R381). -/
def mirrorStep (s : State) (cells : List (Nat × Byte)) : List (Nat × Byte) :=
  cells.flatMap fun d =>
    if h : d.1 / 0x10_0000_0000 < 8 then
      let k := s.cube ⟨d.1 / 0x10_0000_0000, h⟩
      if k.hw.life == .evacuating then
        ((k.con.evacMap.filter fun g => g.1 == d.1 / 2 ^ 30 % 64).map fun g => (g.2 + d.1 % 2 ^ 30, d.2)).filter fun e =>
          !conBarred s d.1 && !conBarred s e.1
      else []
    else []
/-- A destination may itself lie in a granule that has been copied from an evacuating stack; at most eight stacks are. -/
def mirrorFrom : Nat → State → List (Nat × Byte) → List (Nat × Byte)
  | 0, _, _ => []
  | n + 1, s, cells =>
    let ms := mirrorStep s cells
    if ms.isEmpty then [] else ms ++ mirrorFrom n s ms
/-- Writes at a granule that is being evacuated are performed at its destination as well (R381). -/
def mirrorCells (s : State) (cells : List (Nat × Byte)) : List (Nat × Byte) := mirrorFrom 8 s cells
/-- Bytes put into memory at their home, with owner tags, poison and watched words (R373, R374, R190). -/
def placeCells (s : State) (tag : BitVec 12) (cells : List (Nat × Byte)) : State :=
  let all := cells ++ mirrorCells s cells
  let locs := all.map Prod.fst
  let s := { s with mem := memWrite s.mem all }
  notifyWatches (clearPoison (tagLines s locs tag) locs) locs
/-- Bytes applied at their home: memory, and what a window does with them. -/
def homeWrite (s : State) (mode : Mode) (who : Writer) (tag : BitVec 12) (cells : List (Nat × Byte)) : State :=
  let win := cells.filter fun d => (keySpace s d.1).isWindow
  let plain := cells.filter fun d => !(keySpace s d.1).isWindow
  let s' := if plain.isEmpty then s else voidTiles (placeCells s tag plain) (plain.map Prod.fst)
  { s' with winq := s'.winq ++ windowOps s mode who win }

/-- An access of a cube, or of a bridge's engine, to a MIGRATE page is counted for its page; a count that reaches the threshold
asks for a migration of the granule accessed (R102). -/
def countAccess (s : State) (who : Requester) (a : BitVec 12 × VA × Nat) : State :=
  let th := s.fab.regs.migThresh.toNat
  if th = 0 then s
  else
    let key := (a.1, a.2.1.toNat / a.2.2 * a.2.2)
    let n := (match s.fab.migCounts.find? fun e => e.1 == key with | some e => e.2 | none => 0) + 1
    let rest := s.fab.migCounts.filter fun e => e.1 != key
    let from_ : Word := match who with
      | .cube c => BitVec.ofNat 64 c.val <<< 60
      | .bridge b => (BitVec.ofNat 64 b.val <<< 60) ||| (1 <<< 59)
    let req : Word := (1 <<< 63) ||| from_ ||| (a.1.setWidth 64 <<< 40) ||| BitVec.ofNat 64 (a.2.1.toNat / 4096)
    if th ≤ n then
      { s with fab := { s.fab with
          migCounts := rest
          migQueue := if s.fab.migQueue.length < 256 then s.fab.migQueue ++ [req] else s.fab.migQueue } }
    else { s with fab := { s.fab with migCounts := (key, n) :: rest.take 8191 } }
def countAll (s : State) (who : Requester) (as : List (BitVec 12 × VA × Nat)) : State := as.foldl (fun s a => countAccess s who a) s

/-- The copies that must go before the home performs a .g write or an atomic (R100, R101). -/
def invalidatesFirst (i : Item) : Bool := i.glob || !i.isWriteOp
def otherSharers (s : State) (i : Item) : List CubeId := (sharers s (linesOf i.op.locs)).filter fun c => c != i.cube

/-- The home may perform the item now. -/
def canPerform (s : State) (i : Item) : Bool :=
  lineReady s i && addressReady s i && orderedReady s i && (!invalidatesFirst i || (otherSharers s i).isEmpty)

/-- The word that an atomic operation finds: memory, or the register behind a window. -/
def atomMem (s : State) (a : Nat) : List Host.Cell :=
  match keySpace s a with
  | .shelf .. | .sysreg .. | .bridgeReg .. => cellsAt a ((List.range 8).map fun k => placeByte s (a + k))
  | _ => s.mem
/-- Who learns that a window refused the write of an item (R92). -/
def Item.writer (i : Item) : Writer := match i.cmd with | some id => .command id i.va | none => .strand i.sid i.pos i.acc i.va
/-- An atomic operation that reads a poisoned line fails: it writes nothing, returns nothing, and its strand takes a deferred
UNCORRECTABLE trap; a completion add is dropped with its command (R147, R374). -/
def performPoisoned (s : State) (i : Item) : State :=
  let s := s.modItem i.id fun j => { j with status := .performed, dest := none }
  match i.cmd with
  | some id => s.modCube i.cube fun k => { k with cmds := k.cmds.filter fun q => q.id != id }
  | none => s.modSid i.sid fun x => x.addPending ⟨0x09, 0, 0, i.acc, 0, i.va⟩ (4 * i.pos)
/-- The item is performed at its home (R101, R117, R121): bytes and old value, then updates to the other sharers of an .e
store, and the writer's own copy, past older updates on their way to it: at commit, or with the acknowledgement for .g. -/
def performItem (s : State) (i : Item) : State :=
  let s := if i.isWriteOp then s else fireReads (popReads s [i.op.addr]) (linesOf i.op.locs)
  if !i.isWriteOp && (linesOf i.op.locs).any (fun l => s.poison.contains l) then performPoisoned s i else
  let (cells, old) := opEffect (atomMem s i.op.addr) i.op
  let ls := linesOf i.op.locs
  let upd (c : CubeId) : List DirMsg :=
    (ls.filter fun l => edgeHas (s.cube c) l).map fun l => ⟨c, l, some (cells.filter fun d => lineOf d.1 == l), i.id⟩
  let others := if invalidatesFirst i then [] else (otherSharers s i).flatMap upd
  let own := if i.glob then upd i.cube else []
  let s := homeWrite s i.mode i.writer i.tag cells
  let s := i.tags.foldl (fun s t => tagLines s [t.1 * 64] t.2) s
  let s := { s with msgs := s.msgs ++ others ++ own }
  let s := if i.glob then s
           else if i.isWriteOp then edgeOvertake s i.cube (fun ms => (ms, [])) cells
           else { s with cubes := s.cubes.map fun k => ls.foldl edgeDrop k }
  let s := s.modItem i.id fun j => { j with status := .performed, old := old }
  -- a completion add that is performed ends its command (R255)
  match i.cmd with
  | some id => s.modCube i.cube fun k => { k with cmds := k.cmds.filter fun q => q.id != id }
  | none => s

/-- Invalidations sent for an item that needs them and has not sent them yet (R101). -/
def sendInvalidates (s : State) (i : Item) : State :=
  let ls := linesOf i.op.locs
  let want := (otherSharers s i).flatMap fun c => (ls.filter fun l => edgeHas (s.cube c) l).map fun l =>
    (⟨c, l, none, i.id⟩ : DirMsg)
  { s with msgs := s.msgs ++ want.filter fun m => !s.msgs.contains m }

/-- The item reaches its home: performed, or held behind earlier items or until the copies are gone (R117). -/
def arriveItem (s : State) (i : Item) : State :=
  let s := countAll s (.cube i.cube) i.mig
  if canPerform s i then performItem s i
  else
    let s := s.modItem i.id fun j => { j with status := .held }
    if invalidatesFirst i then sendInvalidates s i else s

/-- The item's home keeps no lines (R118, R361): a non-Irsere peer, or any peer over Ultra Ethernet. -/
def lineAtSource (s : State) (i : Item) : Bool :=
  match peerOf i.op.addr with
  | some p => !peerIrsere s p || peerEthernet s p
  | none => false

/-- An access that does not leave its cube needs no acknowledgement (R124). -/
def leavesDie (c : CubeId) (key : Nat) : Bool := homeOf key != 8 + c.val
/-- A place of a peer that has been marked dead: nothing comes back from it (R199, R362). -/
def silent (s : State) (key : Nat) : Bool := match peerOf key with | some p => peerDead s p | none => false
/-- Writes of the strand that were lost, among some that an operation waits for (R124). -/
def failedOf (s : State) (ids : List Nat) : List Item := s.items.filter fun i => ids.contains i.id && i.status == .failed
/-- What an access waits for at its source is past. -/
def Prior.past (p : Prior) (s : State) (c : CubeId) : Bool :=
  (p.writes.all fun w => completedTo s w.1 w.2) && (p.reads.all fun r => !s.reads.any fun q => q.id == r) &&
    p.cmds.all fun n => !(s.cube c).cmds.any fun m => m.id == n
def Prior.none : Prior := ⟨[], [], []⟩
def Prior.join (p q : Prior) : Prior := ⟨p.writes ++ q.writes, p.reads ++ q.reads, p.cmds ++ q.cmds⟩
/-- An item may set out: the writes that it releases are complete and none of them was lost (R112, R124), and what else it waits
for is past. -/
def Item.mayLeave (s : State) (i : Item) : Bool :=
  i.after.all (completedTo s i.scope) && (failedOf s (i.after ++ i.prior.writes.map Prod.snd)).isEmpty && i.prior.past s i.cube
/-- What an item waits for at its source by its place: behind the previous items of its line, towards whatever home, if its own keeps no
lines (R118, R361), and, for an `.e` write, behind the strand's earlier `.g` writes of a location (R119). -/
def sourcePrior (s : State) (i : Item) : List (Scope × Nat) :=
  let line := if lineAtSource s i && i.line != 0 then
      s.items.filter fun j => j.sid == i.sid && j.line == i.line && decide (j.pos < i.pos)
    else []
  let glob := if i.isWriteOp && !i.glob then
      s.items.filter fun j => j.sid == i.sid && j.glob && decide (j.pos < i.pos) && overlap j.op.locs i.op.locs
    else []
  (line ++ glob).map fun j => (Scope.pkg, j.id)
/-- Commands of the strand with an earlier place on the line, towards whatever home, for an item whose home keeps no lines (R118,
R361). -/
def sourceCmds (s : State) (i : Item) : List Nat :=
  if lineAtSource s i && i.line != 0 then
    ((s.cube i.cube).cmds.filter fun m =>
      m.sid == i.sid && cmdLine m == i.line && decide (m.id < i.pos) && m.status != .adding).map Cmd.id
  else []
/-- The owner tag that an item leaves on a line (R373). -/
def Item.tagOf (i : Item) (l : Nat) : BitVec 12 := match i.tags.find? fun t => t.1 == l with | some t => t.2 | none => i.tag
/-- An item sets out: an .e store on line 0 updates the copy of the writer's die now, and its tag (R121, R373). -/
def departItem (s : State) (i : Item) : State :=
  match i.op with
  | .store cells =>
    if !i.glob && i.line == 0 then
      s.modCube i.cube fun k => (linesOf i.op.locs).foldl (fun k l => edgeRetag k l (i.tagOf l)) (edgeUpdate k cells)
    else s
  | _ => s

/-- An item enters the system: it waits at its source for what it must follow, or sets out; an operation on a window of
its own cube is performed at once if nothing precedes it, and then it is complete. -/
def issueItem (s : State) (i : Item) : State :=
  let i := { i with prior := i.prior.join ⟨sourcePrior s i, [], sourceCmds s i⟩ }
  let i := { i with status := if i.mayLeave s then .transit else .waiting }
  let s := { s with items := s.items ++ [i] }
  let s := if i.status == .transit then departItem s i else s
  if i.status == .transit && i.home == 8 + i.cube.val && i.dest.isNone && canPerform s i then
    (arriveItem s i).dropItem i.id
  else s

/-! ### Reads (R109, R119, R121) -/

/-- The byte of an unperformed store that the reader sees before its home does: its own, or one that its die sees at
issue because it is an .e store on line 0 that waits for nothing (R119, R121). The last in issue order decides. -/
def pendingByte (s : State) (sid : Nat) (c : CubeId) (a : Nat) : Option Byte :=
  s.items.foldl (fun (b : Option Byte) i =>
    if (i.status != .performed && i.status != .failed) && (i.sid == sid || (i.cube == c && i.seenAtIssue)) then
      match i.op with
      | .store cells => match cells.find? fun d => d.1 == a with | some d => some d.2 | none => b
      | _ => b
    else b) none
/-- A read that passes by the copies of its cube brings them up to what the home gave (R109). -/
def catchUp (s : State) (c : CubeId) (ls : List Nat) : State :=
  ls.foldl (fun s l => if edgeHas (s.cube c) l then edgeFill s c l else s) s
/-- The strand has a .g write of the line performed and not yet acknowledged, so it reads at the home. -/
def mustReread (s : State) (sid : Nat) (l : Nat) : Bool :=
  s.items.any fun i => i.sid == sid && i.glob && i.status == .performed && (linesOf i.op.locs).contains l
/-- The lines of a read that go to the home: those without a copy, and those that must be read again. -/
def fillLines (s : State) (c : CubeId) (sid : Nat) (ls : List Nat) : State :=
  ls.foldl (fun s l => if edgeHas (s.cube c) l && !mustReread s sid l then s else edgeFill s c l) s
/-- The byte that a read of strand sid on cube c returns. `viaEdge` tells that the page is CACHED. -/
def readByte (s : State) (sid : Nat) (c : CubeId) (viaEdge : Bool) (a : Nat) : Byte :=
  match pendingByte s sid c a with
  | some b => b
  | none =>
    if viaEdge then
      match edgeByte (s.cube c) a with
      | some b => b
      | none => placeByte s a
    else placeByte s a

end Sys2Proof.Machine
end

