-- ==== Sys2Proof/Machine/Ops.lean ====
section
/-! DEFINITION. The operations that every meaning is built from: exposed results and their landing (R136, R140, R141),
interlocked reads (R138), acquires (R113), taking a trap and returning from one (R146 to R148, R161), and the switch of
contexts (R151, R152). -/
namespace Sys2Proof.Machine

/-! ### Exposed results -/

def emptyResult : Result := ⟨1, .scalar, 0, 0, .plain, 0, 0, 0, none, false, 0, 0, 0, false⟩
/-- Bundles until a result of latency L is visible; TV adds 2 (R137). -/
def latency (l : Nat) (tv : Bool) : Nat := if tv then l + 2 else l
/-- A place in issue order, from an identity (R148). -/
def placeOfId (id : Nat) : Nat := 4 * id
/-- The place in issue order of the slot in execution. -/
def State.place (s : State) : Nat := placeOfId s.nextId + s.bundle.slot.toNat
def State.pushResult (s : State) (r : Result) : State :=
  s.modCtx fun c => { c with
    results := c.results ++ [{ r with cls := s.bundle.cls, pos := s.place, chk := s.bundle.chk }] }
/-- A scalar result of latency l that also goes to a latch (0 none); with NW it goes to the latch alone (R36). -/
def scalarResult (l : Nat) (latch : BitVec 3) (m : Mods) (d : SReg) (v : Word) : Result :=
  { emptyResult with rem := latency l m.tv, kind := if m.nw then .latchS else .scalar, dest := d, latch := latch
                     val := v, tv := m.tv }
def State.writeS (s : State) (l : Nat) (latch : BitVec 3) (m : Mods) (d : SReg) (v : Word) : State :=
  s.pushResult (scalarResult l latch m d v)
/-- A scalar result without latch and modifiers. -/
def State.writeS0 (s : State) (l : Nat) (d : SReg) (v : Word) : State := s.writeS l 0 ⟨false, false⟩ d v
def State.writeP (s : State) (l : Nat) (tv : Bool) (d : PReg) (c : Comb) (v : Bool) : State :=
  s.pushResult { emptyResult with rem := latency l tv, kind := .pred, dest := d.setWidth 6, comb := c
                                  val := if v then 1 else 0, tv := tv }
/-- The latch of a vector unit: b2 for V0, b3 for V1 (R202). -/
def unitLatch (u : Bool) : BitVec 3 := if u then 3 else 2
def vectorResult (l : Nat) (u : Bool) (m : Mods) (d : VReg) (v : VWord) (en : MWord) : Result :=
  { emptyResult with rem := latency l m.tv, kind := if m.nw then .latchV else .vector, dest := d.setWidth 6
                     latch := unitLatch u, vec := v, en := en, tv := m.tv }
/-- A vector result: nothing at all when no byte is enabled (R201). -/
def State.writeV (s : State) (l : Nat) (u : Bool) (m : Mods) (d : VReg) (v : VWord) (en : MWord) : State :=
  if en = 0 then s else s.pushResult (vectorResult l u m d v en)
/-- A mask result: nothing at all when no bit is enabled. -/
def State.writeM (s : State) (l : Nat) (tv : Bool) (d : MReg) (c : Comb) (v en : MWord) : State :=
  if en = 0 then s
  else s.pushResult { emptyResult with
    rem := latency l tv, kind := .mask, dest := d.setWidth 6, comb := c, vec := v.setWidth 2048, en := en, tv := tv }

/-- Byte enables spread over the bits of a vector, for n bytes from byte k. -/
def spreadBytes (en : MWord) : Nat → Nat → Nat
  | 0, _ => 0
  | n + 1, k => (if en.getLsbD k then 255 else 0) + 256 * spreadBytes en n (k + 1)
/-- The bytes of v where enabled, of old elsewhere (R201). -/
def mergeBytes (old v : VWord) (en : MWord) : VWord :=
  if en = BitVec.allOnes 256 then v
  else
    let b := BitVec.ofNat 2048 (spreadBytes en 256 0)
    (old &&& ~~~b) ||| (v &&& b)
/-- A combine as it lands (R141): plain replaces, the families combine with the value then held. -/
def combBits {n : Nat} (c : Comb) (old v : BitVec n) : BitVec n :=
  match c with
  | .plain => v
  | .and => old &&& v
  | .or => old ||| v
def combBool (c : Comb) (old v : Bool) : Bool :=
  match c with
  | .plain => v
  | .and => old && v
  | .or => old || v
/-- A result written to its destination and latch (R136, R140, R141, R202). -/
def landResult (c : Ctx) (r : Result) : Ctx :=
  let c := match r.sec with
    | some (d, v) => c.setS d v
    | none => c
  match r.kind with
  | .scalar => (c.setS r.dest r.val).setLatchS r.latch r.val
  | .latchS => c.setLatchS r.latch r.val
  | .pred =>
    let d : PReg := r.dest.setWidth 3
    c.setP d (combBool r.comb (c.p d) (r.val != 0))
  | .vector =>
    let d : VReg := r.dest.setWidth 5
    let v := mergeBytes (c.v d) r.vec r.en
    ((c.setV d v).setLatchV r.latch v).setLatchV r.also v
  | .latchV =>
    let v := mergeBytes (c.v (r.dest.setWidth 5)) r.vec r.en
    (c.setLatchV r.latch v).setLatchV r.also v
  | .mask =>
    let d : MReg := r.dest.setWidth 3
    let old := c.m d
    let v : MWord := combBits r.comb old (r.vec.setWidth 256)
    c.setM d ((old &&& ~~~r.en) ||| (v &&& r.en))

def trapOf (cause : BitVec 8) : Trap := ⟨cause, 0, 0, 0, 0, 0⟩
def causeIllegal : BitVec 8 := 0x01
def causeZero : BitVec 8 := 0x02
def causePrivilege : BitVec 8 := 0x03
def causeFetch : BitVec 8 := 0x04
def causeCodeLimit : BitVec 8 := 0x05
def causeLoad : BitVec 8 := 0x06
def causeStore : BitVec 8 := 0x07
def causeAlign : BitVec 8 := 0x08
def causeUncorrectable : BitVec 8 := 0x09
def causeDeadPeer : BitVec 8 := 0x0A
def causeAckTimeout : BitVec 8 := 0x0B
def causeFenced : BitVec 8 := 0x0C
def causeSpool : BitVec 8 := 0x0D
def causeBreak : BitVec 8 := 0x0F
def causeTrapInsn : BitVec 8 := 0x10
def causeWatchdog : BitVec 8 := 0x11
def causeVote : BitVec 8 := 0x12
def causeDatapath : BitVec 8 := 0x13
def causeLine : BitVec 8 := 0x14
def causeLoopDepth : BitVec 8 := 0x15
def causeBindFull : BitVec 8 := 0x16

/-- A result lands as its vote and its residue check allow (R155, R156): a split vote or a residue mismatch suppresses
the write and raises a deferred trap, which names no slot in SEQ_SLOTS (DESIGN CHOICE, log entry 134). -/
def landVoted (c : Ctx) (r : Result) (o : VoteResult) : Ctx :=
  match o with
  | .agree | .corrected => landResult c r
  | .split => c.addPending (trapOf causeVote) r.pos
  | .residue => c.addPending (trapOf causeDatapath) r.pos
/-- Every result that is due lands, in issue order (R140). -/
def landDue (c : Ctx) : Ctx :=
  let due := c.results.filter fun r => r.rem == 0
  due.foldl landResult { c with results := c.results.filter fun r => r.rem != 0 }
/-- One more bundle has issued: every result is one bundle nearer, and the issue count advances (R133, R136). -/
def advanceIssue (c : Ctx) : Ctx :=
  { c with issued := c.issued + 1, results := c.results.map fun r => { r with rem := r.rem - 1 } }

/-! ### Acquires (R113) -/

/-- The largest bound region, in granules, whose lines are dropped one by one (log entry 13). -/
def acquireGranules : Nat := 4096
/-- The lines of a region in an edge cache are dropped: granule by granule through the strand's translations; a larger
region drops every line. -/
def acquireRegion (s : State) (c : CubeId) (ag : Agent) (region : VA × Nat) : State :=
  let n := region.2 / 4096
  if acquireGranules < n then s.modCube c edgeClear
  else
    (List.range n).foldl (fun s k =>
      match translateVA s ag (region.1 + BitVec.ofNat 52 (k * 4096)) with
      | .leaf p _ =>
        let t := leafTarget (region.1 + BitVec.ofNat 52 (k * 4096)) p
        if t.cached then s.modCube c fun q =>
          { q with edge := q.edge.filter fun e => !(decide (t.key / 64 ≤ e.line) && decide (e.line < t.key / 64 + 64)) }
        else s
      | .fault _ => s) s
def boundRegions (c : Ctx) (k : VA) : List (VA × Nat) :=
  c.binds.toList.filterMap fun b =>
    match b with
    | some b => if b.counter = k then some (b.base, b.size) else none
    | none => none
/-- What an acquire over regions does when its value satisfies it: their lines leave the edge cache. -/
def acquire (s : State) (c : CubeId) (cx : Ctx) (regions : List (VA × Nat)) : State :=
  regions.foldl (fun s r => acquireRegion s c (cx.agent c 1) r) s

/-! ### Interlocked reads (R138) -/

def State.read (s : State) (id : Nat) : Option ReadReq := s.reads.find? fun r => r.id == id
def State.dropRead (s : State) (id : Nat) : State := { s with reads := s.reads.filter fun r => r.id != id }
/-- Bytes placed at their lanes. -/
def lanesValue (bs : List (Nat × Byte)) : VWord :=
  bs.foldl (fun (v : VWord) b => v ||| ((b.2.setWidth 2048 : VWord) <<< (8 * b.1))) 0
/-- A read request is served by its home or its edge cache, and the watch of a parking `cwait` is registered with it
(R101, R109, R190); a copy that the read passes by catches up with what its home gave. Elements that an acquire holds stay behind (R220). A poisoned line, or a damaged copy, makes the data uncorrectable (R374). A page that
counts accesses counts the read once (R102). -/
def serveRead (s : State) (r : ReadReq) : State :=
  let s := countAll s (.cube r.cube) r.mig
  let r := { r with mig := [] }
  let ls := (linesOf (r.cells.map Prod.fst)).filter fun l =>
    !(r.cached.contains l && edgeHas (s.cube r.cube) l && !mustReread s r.sid l)
  let s := fireReads s ls
  let s := catchUp (fillLines s r.cube r.sid r.cached) r.cube (ls.filter fun l => !r.cached.contains l)
  let bs := r.cells.map fun x => (x.2, readByte s r.sid r.cube (r.cached.contains (lineOf x.1)) x.1)
  let v := r.value ||| lanesValue bs
  let bad := r.bad || (ls.any fun l => s.poison.contains l) ||
    (linesOf (r.cells.map Prod.fst)).any fun l => r.cached.contains l && edgeBad (s.cube r.cube) l
  let unmet := match r.watch with
    | some t => !bad && decide ((v.setWidth 64 : Word).toNat < t.toNat)
    | none => false
  let key := match r.cells with | [] => 0 | x :: _ => x.1
  let s := if unmet && !s.watches.contains (key, r.cube) then { s with watches := s.watches ++ [(key, r.cube)] } else s
  let s := popReads s (r.cells.map Prod.fst)
  let q := { r with value := v, bad := bad }
  let q := if r.late.1.isEmpty then { q with status := .served }
           else { q with cells := r.late.1, late := ([], []), prior := ⟨[], r.late.2, []⟩ }
  { s with reads := s.reads.map fun p => if p.id = r.id then q else p }

/-- The extension of a loaded value to 64 bits (R178). -/
def extendLoad (size : Nat) (sx : Bool) (v : Nat) : Word :=
  if sx then BitVec.ofInt 64 (sint (8 * size) v) else BitVec.ofNat 64 (v % 2 ^ (8 * size))
/-- The deferred trap of a read whose data are uncorrectable, or of a division that failed its residue check. -/
def readTrap (r : ReadReq) : Trap :=
  match r.dest with
  | .division _ _ tv => trapOf (if tv then causeVote else causeDatapath)
  | _ => ⟨causeUncorrectable, 0, 0, r.acc, 0, r.va⟩
/-- The value of a served read goes to its destination in its context (R138, R178, R220). -/
def deliver (c : Ctx) (r : ReadReq) : Ctx :=
  if r.bad then { c with results := c.results.filter fun q => r.dest != ReadDest.exposed q.pos }.addPending (readTrap r) (placeOfId r.id)
  else
    match r.dest with
    | .nothing => c
    | .wait => c
    | .exposed pos => { c with results := c.results.map fun q => if q.pos = pos ∧ q.kind = .vector then { q with vec := r.value } else q }
    | .scalar d nw size sx => if nw then c else c.setS d (extendLoad size sx ((r.value.setWidth 64 : Word).toNat))
    | .division d nw _ =>
      let v : Word := r.value.setWidth 64
      (if nw then c else c.setS d v).setLatchS 7 v
    | .vector d u =>
      let v := mergeBytes (c.v d) r.value r.en
      (c.setV d v).setLatchV (unitLatch u) v
/-- An interlocked result arrives: its destination is written, an acquire takes effect on the regions bound when it issued
(R111, R113), and its interlock ends. -/
def arriveRead (s : State) (r : ReadReq) : State :=
  let s := match s.findSid r.sid with
    | some cx =>
      if r.bad then s else acquire s r.cube cx ((cx.acqs.filter fun (a : AcqHold) => a.read == r.id).flatMap AcqHold.regions)
    | none => s
  let s := s.dropRead r.id
  s.modSid r.sid fun c => { deliver c r with acqs := c.acqs.filter fun a => a.read != r.id }

/-- The acknowledgement reaches the writer (R108): the write is complete, the writer's own copy of a .g write is up to date,
past older updates on their way to it, and the old value of an atomic comes back as an interlocked result. -/
def ackItem (s : State) (i : Item) : State :=
  let mine := s.msgs.filter fun m => m.item == i.id && m.cube == i.cube
  let s := mine.foldl (fun s m =>
    match m.update with
    | some cells => edgeOvertake s m.cube (fun ms => ms.span fun n => n != m) cells
    | none => s) s
  let s := { s with msgs := s.msgs.filter fun m => !(m.item == i.id && m.cube == i.cube) }
  let s := s.dropItem i.id
  match i.dest with
  | none => s
  | some d =>
    let size := match i.op with | .amo _ wide _ _ _ => if wide then 8 else 4 | _ => 8
    let r : ReadReq := ⟨i.id, i.sid, i.cube, i.acc, i.va, [], [], .scalar d false size false, none, none, .served,
      i.old.setWidth 2048, 0, false, [], .none, ([], [])⟩
    { s with reads := s.reads ++ [r] }

/-- An interlocked operation of a strand is out; the read of a `cwait` is none. -/
def interlocksOut (s : State) (sid : Nat) : Bool :=
  (s.reads.any fun r => r.sid == sid && r.dest != .wait) || s.items.any fun i => i.sid == sid && i.dest.isSome
/-- The read of a strand's `cwait`, with its acquire, is given up: the bundle is issued anew later (R186, R189). -/
def dropWaitRead (s : State) (sid : Nat) : State :=
  match s.reads.find? fun r => r.sid == sid && r.dest == .wait with
  | none => s
  | some r => (s.dropRead r.id).modSid sid fun c => { c with acqs := c.acqs.filter fun a => a.read != r.id }

/-- A result that is due still waits for the read of its value, so nothing lands or issues (R196, R197). -/
def awaitsValue (s : State) (x : Ctx) : Bool :=
  x.results.any fun q => q.rem == 0 && s.reads.any fun r => r.sid == x.sid && r.dest == .exposed q.pos

/-! ### Switching contexts -/

/-- The core's context stops running, its interlocked operations complete: results that are due land, and the image is saved with the
given status; a context in a reserved image keeps it there (R151, R152). The monitor of a strand stays (R189). -/
def saveCore (s : State) (c : CubeId) (st : Status) : State :=
  let k := s.cube c
  if k.cur = .none then s
  else
    let s := takeWalks (s.modCube c fun k => k.modCore landDue) (.cube c) 0
    let s := dropWaitRead s k.core.sid
    s.modCube c fun k =>
      let x := { k.core with status := st, wait := match k.core.wait with | .parked => .parked | _ => .none }
      match k.cur with
      | .none => k
      | .shelf i => { k with shelves := k.shelves.set i (some x), cur := .none, leave := .none }
      | .runtime => { k with rt := x, cur := .none, leave := .none }
      | .secure => { k with sec := x, cur := .none, leave := .none }
/-- The context of a cube's core may leave it now: no interlocked operation of it is out (R146, R152), and nothing else makes it
leave. -/
def mayLeaveCore (s : State) (c : CubeId) : Bool := !interlocksOut s (s.cube c).core.sid && (s.cube c).leave == .none
/-- Window writes to a shelf that a switch-in takes in (R92, R153). -/
def shelfPatches (k : Cube) (i : ShelfId) : List (Nat × Byte) :=
  (k.patches.filter fun p => p.1 == i).map Prod.snd
/-- The strand on the core takes in the window writes to its shelf (R92, R153). -/
def Cube.takePatches (k : Cube) (i : ShelfId) : Cube :=
  let ps := shelfPatches k i
  { k with pals := patchPalettes k.pals k.core ps, core := patchCtx k.pals k.core ps
           patches := k.patches.filter fun p => p.1 != i }
/-- The strand of a shelf starts to run on a free core, with its image as it now stands (R152, R153). -/
def loadShelf (s : State) (c : CubeId) (i : ShelfId) : State :=
  s.modCube c fun k =>
    match k.shelves.get i with
    | none => k
    | some x =>
      let ps := shelfPatches k i
      { k with pals := patchPalettes k.pals x ps
               core := { patchCtx k.pals x ps with status := .running }, cur := .shelf i, stall := 0, quantumUsed := 0
               ready := k.ready.filter fun j => j != i
               patches := k.patches.filter fun p => p.1 != i }
def loadRuntime (s : State) (c : CubeId) : State :=
  s.modCube c fun k => { k with core := { k.rt with status := .running }, cur := .runtime, stall := 0, quantumUsed := 0 }
def loadSecure (s : State) (c : CubeId) : State :=
  s.modCube c fun k => { k with core := { k.sec with status := .running }, cur := .secure, stall := 0, quantumUsed := 0 }

/-- Priority of the strand on a shelf. -/
def shelfPrio (k : Cube) (i : ShelfId) : Nat :=
  match k.shelves.get i with
  | some x => x.task.prio.toNat
  | none => 0
/-- The ready shelf that runs next: the first of the highest priority (R238). -/
def nextReady (k : Cube) : Option ShelfId :=
  let top := k.ready.foldl (fun m i => max m (shelfPrio k i)) 0
  k.ready.find? fun i => shelfPrio k i == top
/-- A cube that computes; a memory-only cube runs no strand (R380). -/
def Cube.computes (k : Cube) : Bool := k.hw.life == .live
/-- A free core takes the next ready shelf; with none it idles, and so does that of a cube that computes no more (R380). -/
def dispatchNext (s : State) (c : CubeId) : State :=
  match nextReady (s.cube c) with
  | some i => if (s.cube c).computes then loadShelf s c i else s
  | none => s
/-- The monitor of a shelf is freed without waking its strand (R191). -/
def freeMonitor (s : State) (c : CubeId) (i : ShelfId) : State :=
  s.modCube c fun k => { k with monitors := k.monitors.filter fun m => m.shelf != i }

/-! ### Taking a trap, and returning from one (R146, R148, R161) -/

/-- SEQ_CAUSE of a trap (R148). -/
def causeWord (t : Trap) : Word :=
  t.cause.setWidth 64 ||| (t.acc.setWidth 64 <<< 12) ||| (t.kind.setWidth 64 <<< 16) ||| (t.code.setWidth 64 <<< 24)
/-- The record of a trap taken with the bundle at tpc next to issue. -/
def trapRecord (t : Trap) (tpc : VA) : TrapRec := ⟨causeWord t, tpc.setWidth 64, t.addr.setWidth 64, t.slots.setWidth 64⟩
/-- The wait of a `cwait` ends with a trap, and the bundle is issued anew later. -/
def Ctx.dropWait (c : Ctx) : Ctx := { c with wait := .none }

/-- A trap of a task strand: its image is saved in the trapped state with a copy of the record, its monitor is freed, and
the runtime context starts at its SEQ_TVEC with the record and the shelf (R146, R148, R191). -/
def trapTask (s : State) (c : CubeId) (i : ShelfId) (t : Trap) : State :=
  let rec_ := trapRecord t (s.cube c).core.pc
  let s := s.modCube c fun k => k.modCore fun x => { x.dropWait with sys := { x.sys with lastTrap := rec_ } }
  let s := freeMonitor (saveCore s c .trapped) c i
  let s := s.modCube c fun k => { k with rt := { k.rt with
    pc := k.rt.sys.tvec
    sys := { k.rt.sys with trec := rec_, tshelf := 0x10 ||| BitVec.ofNat 5 i.val } } }
  loadRuntime s c
/-- Gesso's fixed response to a runtime trap, within the same step (R146): it logs the trap as kind 13 (R375) and leaves the core
to the next ready shelf, which ends the handler as its `halt` would. -/
def gessoResponds (s : State) (c : CubeId) : State := dispatchNext (logUe (saveCore s c .ready) c (logRecord 13 0 0)) c
/-- A trap of the runtime context goes to secure mode: the record is in both images, with no task strand in SEQ_TSHELF, and the
secure context starts at its SEQ_TVEC with gesso's response (R146). -/
def trapRuntime (s : State) (c : CubeId) (t : Trap) : State :=
  let rec_ := trapRecord t (s.cube c).core.pc
  let s := s.modCube c fun k => k.modCore fun x => { x.dropWait with sys := { x.sys with lastTrap := rec_ } }
  let s := saveCore s c .trapped
  let s := s.modCube c fun k => { k with sec := { k.sec with
    pc := k.sec.sys.tvec, sys := { k.sec.sys with trec := rec_, tshelf := 0 } } }
  gessoResponds (loadSecure s c) c
/-- A trap in secure mode halts the core, and the conservator logs it (R146). -/
def trapSecure (s : State) (c : CubeId) : State :=
  logUe (s.modCube c fun k => { k with stopped := true, leave := .none }) c (logRecord 13 0 0)
/-- A dead peer met at issue has its bit set, also when its entry or its ports failed it (R357, R362). -/
def noteDead (s : State) (c : CubeId) (t : Trap) : State :=
  if t.cause = causeDeadPeer then
    let cx := (s.cube c).core
    match resolve s (cx.agent c 1) t.addr with
    | .ok tg => match tg.peer with
      | some p => if peerFails s p then markDead s p else s
      | none => s
    | .fault _ => s
  else s
/-- A trap is entered on cube c, with the bundle at the context's pc the next to issue (R146). -/
def enterTrap (s : State) (c : CubeId) (t : Trap) : State :=
  match (s.cube c).cur with
  | .none => s
  | .shelf i => trapTask s c i t
  | .runtime => trapRuntime s c t
  | .secure => trapSecure s c
/-- A trap is taken on cube c (R146): at once, or, while interlocked operations of its context are out, once they are complete; until then
the core issues nothing. -/
def takeTrap (s : State) (c : CubeId) (t : Trap) : State :=
  let s := noteDead s c t
  if interlocksOut s (s.cube c).core.sid && (s.cube c).cur != .none then s.modCube c fun k => { k with leave := .trap t }
  else enterTrap s c t

end Sys2Proof.Machine
end

