-- ==== Sys2Proof/Machine/Engine.lean ====
section
/-! DEFINITION. What the engines of chapters 09 to 12 share: queues and enqueueing (R19, R20, R197), spools (R22, R23, R260,
R287), accesses and their checks (R88, R106, R275), fault records (R276) and completion adds (R271). -/
namespace Sys2Proof.Machine

/-! ### Formats (R59, R63, R65, R66, R284) -/

def fmtBits (f : Nat) : Nat :=
  match f with
  | 1 | 7 => 32 | 2 | 3 | 11 => 16 | 9 => 6 | 10 => 4 | _ => 8
/-- The element format of a code that is neither RAW nor MX. -/
def fmtNum (f : Nat) : Option NFmt :=
  match f with
  | 1 => some .f32 | 2 => some .bf16 | 3 => some .f16 | 4 => some .e4m3 | 5 => some .e5m2 | 6 => some .i8 | 7 => some .i32
  | 11 => some .i16 | _ => none
def fmtMx (f : Nat) : Option MxFmt := match f with | 8 => some .mx8 | 9 => some .mx6 | 10 => some .mx4 | _ => none
def isMx (f : Nat) : Bool := (fmtMx f).isSome
/-- Layout width and chunk size of an operand entry (R284); RAW, I32 and I16 have none. -/
def entryLayout (f : Nat) : Option (Nat × Nat) :=
  match f with
  | 1 => some (4, 16) | 2 | 3 => some (8, 16) | 4 | 5 | 6 | 8 => some (16, 16) | 9 => some (16, 12) | 10 => some (32, 16)
  | _ => none
def ceilDiv (a b : Nat) : Nat := (a + b - 1) / b
/-- Bytes of an entry of depth kd. -/
def entrySpan (lam g kd : Nat) : Nat := ceilDiv kd lam * 64 * g
/-- Bit offset of element (i, kk) from the start of an entry (R284). -/
def entryBit (f lam g i kk : Nat) : Nat := (kk / lam * 64 + i) * g * 8 + kk % lam * fmtBits f
/-- Bytes of a row record of n elements of an MX format (R65). -/
def recordBytes (f n : Nat) : Nat := ceilDiv (n * fmtBits f / 8 + n / 32) 16 * 16
/-- The alignment of an MX region within its bank (R66). -/
def mxAlign (f : Nat) : Nat := match entryLayout f with | some (lam, g) => 32 / lam * 64 * g | none => 1

/-! ### Spools -/

def Spool.region (sp : Spool) : Nat := (sp.loc >>> 62).toNat
def Spool.base (sp : Spool) : Nat := (sp.loc.setWidth 32).toNat
def Spool.cap (sp : Spool) : Nat := (sp.size.extractLsb' 32 13).toNat
def Spool.esize (sp : Spool) : Nat := (sp.size.setWidth 32).toNat
def Spool.occupancy (sp : Spool) : Nat := (sp.p - sp.c).toNat
def Spool.free (sp : Spool) : Nat := sp.cap - sp.occupancy - sp.queueP.length
/-- Entries that no consumer has reserved. -/
def Spool.unreserved (sp : Spool) : Nat := sp.occupancy - sp.queueC.length
/-- Offset of an entry in its region (R22). -/
def Spool.entryOff (sp : Spool) (e : Nat) : Nat := sp.base + e % 2 ^ 32 % sp.cap * sp.esize
def entryNumbers (first n : Nat) : List Nat := (List.range n).map fun k => (first + k) % 2 ^ 32
/-- Entry e of a queue of reserved entries is done with. -/
def entryDone (e : Nat) : List (Nat × Bool) → List (Nat × Bool)
  | [] => []
  | q :: qs => if q = (e, false) then (e, true) :: qs else q :: entryDone e qs
/-- An index moves past every entry at the front of its queue that is done with: it is written with the number after that entry's,
whatever a window write has left there before (R23, R286). -/
def passDone : BitVec 32 → List (Nat × Bool) → BitVec 32 × List (Nat × Bool)
  | i, [] => (i, [])
  | i, q :: qs => if q.2 then passDone (BitVec.ofNat 32 (q.1 + 1)) qs else (i, q :: qs)
/-- Entries land: P advances when they stand at its front. -/
def Spool.land (sp : Spool) (first n : Nat) : Spool :=
  let w := passDone sp.p ((entryNumbers first n).foldl (fun qs e => entryDone e qs) sp.queueP)
  { sp with p := w.1, queueP := w.2 }
def Spool.release (sp : Spool) (first n : Nat) : Spool :=
  let w := passDone sp.c ((entryNumbers first n).foldl (fun qs e => entryDone e qs) sp.queueC)
  { sp with c := w.1, queueC := w.2 }
/-- The number of the entry behind a queue of reserved ones. -/
def nextEntry (i : BitVec 32) (qs : List (Nat × Bool)) : Nat := match qs.getLast? with | some q => (q.1 + 1) % 2 ^ 32 | none => i.toNat
/-- The next entry numbers for a producer and for a consumer. -/
def Spool.nextP (sp : Spool) : Nat := nextEntry sp.p sp.queueP
def Spool.nextC (sp : Spool) : Nat := nextEntry sp.c sp.queueC
def Spool.reserve (sp : Spool) (n : Nat) : Spool := { sp with queueP := sp.queueP ++ (entryNumbers sp.nextP n).map fun e => (e, false) }
def Spool.take (sp : Spool) (n : Nat) : Spool := { sp with queueC := sp.queueC ++ (entryNumbers sp.nextC n).map fun e => (e, false) }
/-- The last n entries that a consumer reserved are left unread. -/
def Spool.untake (sp : Spool) (n : Nat) : Spool := { sp with queueC := sp.queueC.take (sp.queueC.length - n) }
/-- Advances of the core whose stores and loads are done become visible, in order (R301). -/
def settleSpool (s : State) (sp : Spool) : Spool :=
  sp.held.foldl (fun (sp : Spool) h =>
    if h.2.2.2.all fun i => completedTo s .cube i && (s.read i).isNone then
      let sp := if h.1 then sp.land h.2.1 h.2.2.1 else sp.release h.2.1 h.2.2.1
      { sp with held := sp.held.filter fun g => g != h }
    else sp) sp
def Ctx.spool (x : Ctx) (n : Nat) : Spool := x.spools.toList.getD n .reset
def Ctx.modSpool (x : Ctx) (n : Nat) (f : Spool → Spool) : Ctx :=
  if h : n < 32 then { x with spools := x.spools.set n (f (x.spools.get ⟨n, h⟩)) h } else x
/-- Spool n of a strand as engines see it. -/
def strandSpool (s : State) (sid n : Nat) : Spool :=
  match s.findSid sid with
  | some x => settleSpool s (x.spool n)
  | none => .reset
/-- Window writes to P and C of a spool of a strand off its core that have come before an engine's advance are taken in with it:
of the two, the later is kept (R286). -/
def settleWindow (s : State) (sid n : Nat) : State :=
  { s with cubes := s.cubes.map fun k =>
      match k.strands.find? fun x => x.2.sid == sid with
      | none => k
      | some (i, x) =>
        let hit (p : ShelfId × Nat × Byte) : Bool :=
          p.1 == i && decide (0x810 + 32 * n ≤ p.2.1) && decide (p.2.1 < 0x818 + 32 * n)
        if k.cur == .shelf i || !k.patches.any hit then k
        else
          let w := bytesWord (patchedByte k.pals x ((k.patches.filter hit).map Prod.snd)) (0x810 + 32 * n)
          { k with
            patches := k.patches.filter fun p => !hit p
            shelves := k.shelves.set i
              (some (x.modSpool n fun sp => { sp with p := w.setWidth 32, c := w.extractLsb' 32 32 })) } }
def modSpool (s : State) (sid n : Nat) (f : Spool → Spool) : State :=
  (settleWindow s sid n).modSid sid fun x => x.modSpool n fun sp => f (settleSpool s sp)
/-- A local-aperture address (R86). -/
def localVA (off : Nat) : VA := BitVec.ofNat 52 (0xFF00000000000 + off)
def faceVA (layer off : Nat) : VA := localVA (faceOffset layer + off)
/-- Addresses of byte k of entry e: one place in scratch, or the same offset in each layer (R22, R260). -/
def Spool.byteVAs (sp : Spool) (layers : List Nat) (e k : Nat) : List VA :=
  if sp.region = 1 then [localVA (sp.entryOff e + k)] else layers.map fun l => faceVA l (sp.entryOff e + k)

/-! ### Commands -/

def Cube.cmd (k : Cube) (id : Nat) : Option Cmd := k.cmds.find? fun q => q.id == id
def Cube.modCmd (k : Cube) (id : Nat) (f : Cmd → Cmd) : Cube :=
  { k with cmds := k.cmds.map fun q => if q.id = id then f q else q }
def dropCmd (s : State) (c : CubeId) (id : Nat) : State :=
  s.modCube c fun k => { k with cmds := k.cmds.filter fun q => q.id != id }
def queueDepth : Queue → Nat
  | .cq0 | .cq1 => 64
  | .cubeq | .drainq => 32
  | .blkq => 16
def queueBit : Queue → Nat
  | .cq0 => 0 | .cq1 => 1 | .cubeq => 2 | .drainq => 3 | .blkq => 4
def Cube.used (k : Cube) (q : Queue) : Nat := (k.cmds.filter fun m => m.queue == q).length
def Cube.queueFull (k : Cube) (q : Queue) : Bool := decide (queueDepth q ≤ k.used q)
/-- The tag of a command enqueued now (R257). -/
def State.cmdTag (s : State) : BitVec 32 := BitVec.ofNat 32 (s.ctx.issued * 4 + s.bundle.slot.toNat)
/-- What later entries of queue q of the running strand wait for (R197). -/
def fencedBy (x : Ctx) (q : Queue) : List Nat × List Nat :=
  let fs := x.qfences.filter fun f => f.mask.getLsbD (queueBit q)
  (fs.flatMap QFenceHold.cmds, fs.flatMap fun f => f.items ++ f.reads)
/-- A line of a strand has its BROKEN bit set (R120). -/
def Ctx.lineBad (x : Ctx) (line : BitVec 3) : Bool := line != 0 && x.sys.broken.getLsbD line.toNat
/-- A command enters its queue, and takes its place on its line, if it names one, towards the homes that `claim` gives (R117).
A full queue holds the instruction, which then changes nothing (R19, R255). -/
def enqueueOn (claim : State → CubeId → Cmd → List Nat) (s : State) (q : Queue) (kind : CmdKind) (grp : List Word) (ctr amt : Word)
    (recipe : BitVec 128) (planes : BitVec 8) : State :=
  let k := s.cube s.me
  if k.queueFull q then s
  else
    let x := k.core
    let w := fencedBy x q
    let js := (k.joins.filter fun j => j.sid == x.sid && (j.layers &&& planes) != 0).map Join.id
    let m : Cmd :=
      { id := s.nextId, sid := x.sid, queue := q, kind := kind, tag := s.cmdTag, mode := x.mode, asn := x.sys.asn
        part := x.part, grp := grp, ctr := ctr, amt := amt, pals := k.pals, recipe := recipe, planes := planes
        after := w.1, joins := js, items := w.2, status := .queued, err := none, res := [], took := [], ents := []
        out := [], wrote := [], acqs := x.acqs, homes := [], seq := 0, dead := false, seed := 0, lost := none, addDead := false }
    let line := cmdLine m
    let m := { m with seq := x.lineSeq.toList.getD line.toNat 0, dead := x.lineBad line, homes := if line = 0 then [] else (claim s s.me m).eraseDups }
    let s := s.modCtx fun y =>
      if line = 0 then y else { y with lineSeq := y.lineSeq.set line.toNat (y.lineSeq.get line.toFin + 1) line.isLt }
    { s.modCube s.me fun k => { k with cmds := k.cmds ++ [m] } with nextId := s.nextId + 1 }
/-- A command of an engine that knows no lines. -/
def enqueue (s : State) (q : Queue) (kind : CmdKind) (grp : List Word) (ctr amt : Word) (recipe : BitVec 128)
    (planes : BitVec 8) : State :=
  enqueueOn (fun _ _ _ => []) s q kind grp ctr amt recipe planes
/-- Homes of n bytes from an address, granule by granule. -/
def spanHomes (s : State) (ag : Agent) (va : VA) (n : Nat) : List Nat :=
  if n = 0 then []
  else ((List.range (n / 4096 + 2)).filterMap fun k =>
    match resolve s ag (va + BitVec.ofNat 52 (min (k * 4096) (n - 1))) with
    | .ok t => some (homeOf t.key)
    | .fault _ => none).eraseDups

/-- The fences and join points that a command waits for are past. -/
def unfenced (s : State) (c : CubeId) (m : Cmd) : Bool :=
  let k := s.cube c
  m.after.all (fun id => (k.cmd id).isNone) && m.joins.all (fun id => !k.joins.any fun j => j.id == id) &&
    m.items.all fun id => completedTo s .pkg id && (s.read id).isNone
/-- Earlier entries of the strand in the command's queue. -/
def earlierOf (k : Cube) (m : Cmd) : List Cmd := k.cmds.filter fun q => q.sid == m.sid && q.queue == m.queue && decide (q.id < m.id)

/-! ### The descriptor of a copy (R258) -/

def Cmd.dw (m : Cmd) (k : Nat) : Word := m.grp.getD k 0
def Cmd.planesF (m : Cmd) : Nat := ((m.dw 2).extractLsb' 36 12).toNat
def Cmd.rows (m : Cmd) : Nat := ((m.dw 2).extractLsb' 20 16).toNat
def Cmd.rowBytes (m : Cmd) : Nat := ((m.dw 2).extractLsb' 0 20).toNat
def copyOpOf (m : Cmd) : CopyOp := match m.kind with | .copy op => op | _ => .lin
/-- An empty command performs no access (R258). -/
def copyEmpty (m : Cmd) : Bool :=
  m.rows == 0 || m.rowBytes == 0 || (copyOpOf m == .threed && m.planesF == 0)
/-- An empty copy: whatever befalls its line, it makes its completion add unpoisoned (R258). -/
def Cmd.empty (m : Cmd) : Bool := match m.kind with | .copy _ => copyEmpty m | _ => false

/-! ### Accesses of a command -/

/-- Bit of SEC_WORLD that governs a queue's engine (R402). -/
def worldBit : Queue → Nat := queueBit
/-- A command acts in its strand's mode; a secure one needs its engine's SEC_WORLD bit (R93, R402). -/
def cmdMode (s : State) (m : Cmd) : Mode :=
  match m.mode with
  | .secure => if s.secu.world.getLsbD (worldBit m.queue) then .secure else .runtime
  | o => o
def cmdAgent (s : State) (c : CubeId) (m : Cmd) : Agent :=
  let md := cmdMode s m
  ⟨md, md == .secure, m.asn, c, m.part, .cube c, (match m.queue with | .cq0 => some 4 | .cq1 => some 5 | _ => none), m.id⟩
/-- The engine error of a fault kind (R106). -/
def kindError (k : BitVec 4) : BitVec 8 := if k = 1 ∨ k = 2 then 1 else if k = 7 then 3 else 2
def engErr (code : Nat) (va : VA) : EngErr := ⟨BitVec.ofNat 8 code, 0, va⟩
/-- No error of the spec: the address has to be walked first (R104). It ends no command; see `faultRecord` and `engEvent`. -/
def walkCode : BitVec 8 := 0xFF
/-- No error of the spec: the link or the port on the way to the address carries no traffic now, and the access waits (R10, R368). -/
def holdCode : BitVec 8 := 0xFE
/-- A command's access that gets no answer, by its home, or that a peer refuses (R124, R358). -/
def lostError (c : CubeId) (m : Cmd) (t : Target) (va : VA) : Option EngErr :=
  match m.lost with
  | some (e, h) =>
    if (if e = 5 then leavesDie c t.key && homeOf t.key == h else t.peer == some h) then some ⟨e, 0, va⟩ else none
  | none => none
/-- Where a command's access may go, if the way there carries traffic. -/
def carriedTo (s : State) (c : CubeId) (m : Cmd) (t : Target) (va : VA) : Except EngErr Target :=
  if pathCarries s c.val m.sid t.key then .ok t else .error ⟨holdCode, 0, va⟩
/-- The target of an engine's access, or the error that ends the command (R88, R106, R275). An entry of a face spool that reaches
absent banks has the copy's error of R16, 0x02 (DESIGN CHOICE, log entry 98). -/
def engTarget (s : State) (c : CubeId) (m : Cmd) (need : Need) (va : VA) : Except EngErr Target :=
  let ag := cmdAgent s c m
  if mustWalk s ag va then .error ⟨walkCode, 0, va⟩
  else match resolve s ag va with
  | .fault k => .error ⟨kindError k, k, va⟩
  | .ok t =>
    match lostError c m t va with
    | some e => .error e
    | none =>
    match t.peer with
    | some p =>
      if peerFails s p then .error ⟨4, 0, va⟩
      else if !(s.cube c).hw.caps.getLsbD capRemote then .error ⟨0x0D, 0, va⟩
      else match checkTarget s ag need false t with
        | some k => .error ⟨kindError k, k, va⟩
        | none => carriedTo s c m t va
    | none =>
      match checkTarget s ag need false t with
      | some k => .error ⟨kindError k, k, va⟩
      | none =>
        match t.isLocal, t.space s with
        | true, .constant .. => if need.writes then .error ⟨2, kPrivilege, va⟩ else .ok t
        | _, _ => carriedTo s c m t va
/-- The reduction window (R364): its home and granules. -/
def rwPeer (s : State) : Nat := (s.fab.regs.rwBase.extractLsb' 48 10).toNat
def rwBase (s : State) : Nat := (s.fab.regs.rwBase.extractLsb' 12 36).toNat * 4096
/-- Key of the first byte of the window at its home. -/
def rwKey (s : State) : Nat :=
  if rwPeer s = s.fab.regs.self.toNat then rwBase s else (rwPeer s + 1) * dpaSpan + rwBase s
def inWindow (s : State) (key : Nat) : Bool :=
  decide (rwKey s ≤ key) && decide (key < rwKey s + s.fab.regs.rwSize.toNat * 4096)
/-- An access to the reduction window other than a reduction fails (R365). -/
def offWindowErr (s : State) (t : Target) (va : VA) : Except EngErr Target :=
  if inWindow s t.key then .error ⟨0x0A, 0, va⟩ else .ok t
def engPlain (s : State) (c : CubeId) (m : Cmd) (need : Need) (va : VA) : Except EngErr Target :=
  match engTarget s c m need va with
  | .error e => .error e
  | .ok t => offWindowErr s t va
/-- A byte that a command reads: its strand's earlier stores are seen (R273); a poisoned line is an error (R374). -/
def engByte (s : State) (c : CubeId) (m : Cmd) (va : VA) : Except EngErr Byte :=
  match engPlain s c m .read va with
  | .error e => .error e
  | .ok t => if s.poison.contains (lineOf t.key) then .error ⟨3, 0, va⟩ else .ok (readByte s m.sid c false t.key)
def engBytes (s : State) (c : CubeId) (m : Cmd) : List VA → Except EngErr (List Byte)
  | [] => .ok []
  | v :: vs =>
    match engByte s c m v with
    | .error e => .error e
    | .ok b => match engBytes s c m vs with
      | .error e => .error e
      | .ok bs => .ok (b :: bs)
/-- A byte of a write: key, owner tag and value. -/
abbrev OutByte := Nat × BitVec 12 × Byte
def engCells (s : State) (c : CubeId) (m : Cmd) : List (VA × Byte) → Except EngErr (List OutByte)
  | [] => .ok []
  | (v, b) :: vs =>
    match engPlain s c m .write v with
    | .error e => .error e
    | .ok t => match engCells s c m vs with
      | .error e => .error e
      | .ok os => .ok ((t.key, t.tag, b) :: os)
def vaRange (va : VA) (n : Nat) : List VA := (List.range n).map fun k => va + BitVec.ofNat 52 k

/-- One element of a traversal: what it reads, what it writes, and the bytes it makes of what it read. -/
structure Elem where
  reads : List VA
  writes : List VA
  make : List Byte → List Byte
  /-- of elements that move together, the bytes of each -/
  parts : List (List VA) := []
/-- An element that moves by itself. -/
def Elem.plain (reads writes : List VA) (make : List Byte → List Byte) : Elem := ⟨reads, writes, make, []⟩
/-- Not an error, but an access that has to wait. -/
def EngErr.waits (e : EngErr) : Bool := e.code == walkCode || e.code == holdCode
/-- The record of an error that one address of an element met names its lowest byte. -/
def EngErr.low (e : EngErr) (vs : List VA) : EngErr := if e.waits then e else { e with addr := vs.headD e.addr }
/-- The lowest byte of the failing element stands in the error record (R276): of elements that move together, the one that the
failing byte belongs to. -/
def EngErr.at (e : EngErr) (u : Elem) (vs : List VA) : EngErr :=
  if e.waits then e
  else { e with addr := match u.parts.find? fun p => p.contains e.addr with
    | some p => p.headD e.addr
    | none => vs.headD e.addr }
/-- Elements in order up to the first that fails (R275): the bytes written and the error. -/
def runElems (s : State) (c : CubeId) (m : Cmd) : List Elem → List OutByte → List OutByte × Option EngErr
  | [], acc => (acc, none)
  | u :: us, acc =>
    match engBytes s c m u.reads with
    | .error e => (acc, some (e.at u u.reads))
    | .ok bs =>
      match engCells s c m (u.writes.zip (u.make bs)) with
      | .error e => (acc, some (e.at u u.writes))
      | .ok os => runElems s c m us (acc ++ os)

/-- Runs of neighbours with one key. -/
def runsBy {α : Type} (f : α → Nat) : List α → List (List α)
  | [] => []
  | a :: t =>
    match runsBy f t with
    | [] => [[a]]
    | g :: gs => match g with
      | [] => [a] :: gs
      | b :: _ => if f a = f b then (a :: g) :: gs else [a] :: g :: gs
/-- The edge caches learn of an engine's writes: `.g` drops the lines everywhere, `.e` sends updates (R100, R101, R121). -/
def engCoherence (s : State) (glob : Bool) (id : Nat) (cells : List (Nat × Byte)) : State :=
  let ls := linesOf (cells.map Prod.fst)
  if glob then { s with cubes := s.cubes.map fun k => ls.foldl edgeDrop k }
  else
    let ms := (sharers s ls).flatMap fun c => (ls.filter fun l => edgeHas (s.cube c) l).map fun l =>
      (⟨c, l, some (cells.filter fun d => lineOf d.1 == l), id⟩ : DirMsg)
    { s with msgs := s.msgs ++ ms }
/-- The bytes of a command are performed at their homes, line by line. -/
def engWrite (s : State) (m : Cmd) (glob : Bool) (os : List OutByte) : State :=
  (runsBy (fun o => o.1 / 64) os).foldl (fun s g =>
    let cells := g.map fun o => (o.1, o.2.2)
    let tag := match g with | [] => 0xFFF | o :: _ => o.2.1
    homeWrite (engCoherence s glob m.id cells) (cmdMode s m) (.command m.id (BitVec.ofNat 52 (0xE_0000_0000_0000 + (cells.headD (0, 0)).1)))
      tag cells) s
def homesOf (os : List OutByte) : List Nat := (os.map fun o => homeOf o.1).eraseDups

/-! ### Errors, fault records and completion adds -/

def queueCode (q : Queue) : Nat := queueBit q
def satAdd32 (x : BitVec 32) : BitVec 32 := if x = BitVec.allOnes 32 then x else x + 1
/-- The mark, among the misses, of an event that met an access which has to wait; `engEvent` takes it out with all that the event did. -/
def holdMark : Miss := ⟨.cube 0, 0xFFF, 2 ^ 40, false, [], none⟩
/-- Between two states such an access was met. -/
def heldUp (s s' : State) : Bool := s'.misses.contains holdMark && !s.misses.contains holdMark
/-- The fault spool record (R276): into sp31 when it is a scratch spool of 16-byte entries with room, else counted as lost. An
address that has to be walked first leaves none: its walk is asked for; nor does one whose way carries nothing now. -/
def faultRecord (s : State) (c : CubeId) (m : Cmd) (plane : Nat) (e : EngErr) : State :=
  let sp := strandSpool s m.sid 31
  if e.code = walkCode then requestWalk s (cmdAgent s c m) e.addr
  else if e.code = holdCode then { s with misses := s.misses ++ [holdMark] }
  else if sp.region = 1 ∧ sp.esize = 16 ∧ 0 < sp.free then
    let en := sp.nextP
    let lo : Nat := m.tag.toNat + 2 ^ 32 * (queueCode m.queue + 256 * e.code.toNat + 65536 * e.kind.toNat + 2 ^ 20 * plane)
    let rec_ := bytesLE 8 lo ++ bytesLE 8 e.addr.toNat
    let part := (match s.findSid m.sid with | some x => x.part | none => m.part)
    let base := windowBase c + part.scrBase * 0x10_0000 + sp.entryOff en
    let s := placeCells s m.asn (cellsAt base rec_)
    modSpool s m.sid 31 fun sp => (sp.reserve 1).land en 1
  else s.modCube c fun k => { k with eng := { k.eng with fsLost := satAdd32 k.eng.fsLost } }
/-- A command of a line behind a failed place is discarded. -/
def Cmd.discard (sid : Nat) (line : BitVec 3) (pos : Nat) (m : Cmd) : Cmd :=
  if m.sid = sid ∧ cmdLine m = line ∧ pos < m.id ∧ m.status ≠ .adding then { m with dead := true } else m
/-- A command that was done fails after all: its record is written, and its completion add is to be made with bit 63 set (R275). -/
def failAgain (s : State) (c : CubeId) (m : Cmd) (e : EngErr) : State :=
  (faultRecord s c m 0 e).modCube c fun k => k.modCmd m.id fun q => { q with status := .finished, err := some e }
/-- A line of a strand breaks behind the place of the item that failed: its bit is set, later items not yet performed are
discarded, and later commands of the line, and those whose adds were among the items, fail by the broken line (R120). A store whose
own loss is noted keeps it (R124). -/
def breakLine (s : State) (sid : Nat) (line : BitVec 3) (pos : Nat) : State :=
  if line = 0 then s
  else
    let s := s.modSid sid fun x => { x with sys := { x.sys with broken := x.sys.broken ||| BitVec.twoPow 8 line.toNat } }
    let behind (i : Item) : Bool := i.sid == sid && i.line == line && decide (pos < i.pos) && i.status != .performed &&
      i.status != .failed
    let lost := s.items.filter behind
    let s := { s with
      items := s.items.filter fun i => !behind i
      cubes := s.cubes.map fun k => { k with cmds := k.cmds.map (Cmd.discard sid line pos) } }
    lost.foldl (fun s i =>
      match i.cmd with
      | some id => match (s.cube i.cube).cmd id with
        | some m =>
          if m.empty then s.modCube i.cube fun k => k.modCmd id fun q => { q with status := .finished }
          else failAgain s i.cube m ⟨0x0B, 0, i.va⟩
        | none => s
      | none => s) s
/-- A write of the command has reached a shelf window, which has not taken or refused it yet (R92). -/
def awaitsWindow (s : State) (id : Nat) : Bool :=
  s.winq.any fun w => match w with
    | .shelf _ _ _ _ (.command n _) => n == id
    | _ => false
/-- A command has no completion add when its amount is 0. -/
def wantsAdd (m : Cmd) : Bool := m.amt != 0
/-- A command that is done and needs no add leaves its queue; otherwise it waits for its entries to land and its add. -/
def settleCmd (s : State) (c : CubeId) (id : Nat) : State :=
  match (s.cube c).cmd id with
  | some m => if m.status == .finished && m.res.isEmpty && !wantsAdd m && !awaitsWindow s id then dropCmd s c id else s
  | none => s
/-- A target peer that is dead, or that gave no answer, has its bit set (R124, R362). -/
def noteLost (s : State) (c : CubeId) (m : Cmd) (e : EngErr) : State :=
  if e.code = 4 ∨ e.code = 5 then
    match resolve s (cmdAgent s c m) e.addr with
    | .ok t => (match t.peer with | some p => if e.code = 5 then timeOutPeer s p else markDead s p | none => s)
    | .fault _ => s
  else s
/-- The home of a command's completion add lies on a peer that fails (R278). -/
def addPeerFails (s : State) (c : CubeId) (m : Cmd) : Bool :=
  match resolve s (cmdAgent s c m) (m.ctr.setWidth 52) with
  | .ok t => (match t.peer with | some p => peerFails s p | none => false)
  | .fault _ => false
/-- A command's work is over. On an error: the fault record, the broken line, and reserved entries passed over (R275). -/
def finishCmd (s : State) (c : CubeId) (m : Cmd) (plane : Nat) (err : Option EngErr) (wrote : List Nat) : State :=
  let s := match err with
    | none => s
    | some e =>
      let s := noteLost (faultRecord s c m plane e) c m e
      let s := breakLine s m.sid (cmdLine m) m.id
      m.res.foldl (fun s r => modSpool s m.sid r.1 fun sp => sp.land r.2.1 r.2.2) s
  let s := m.took.foldl (fun s r => modSpool s m.sid r.1 fun sp => sp.release r.2.1 r.2.2) s
  let s := s.modCube c fun k => k.modCmd m.id fun q =>
    { q with status := .finished, err := err, wrote := wrote, took := [], lost := none, addDead := addPeerFails s c m
             homes := if wantsAdd m then spanHomes s (cmdAgent s c m) (m.ctr.setWidth 52) 1 else []
             res := if err.isSome then [] else q.res }
  settleCmd s c m.id
/-- The smallest scope that holds the homes of a command's writes and of its counter (R271). -/
def addScope (s : State) (c : CubeId) (homes : List Nat) : Scope :=
  let wide (h : Nat) : Scope :=
    if h = 8 + c.val ∨ h = c.val then .cube
    else if h < 18 then .pkg
    else if h < 32 then .sys
    else if peerIrsere s (h / 32 - 1) && !peerEthernet s (h / 32 - 1) then .fab else .sys
  homes.foldl (fun (a : Scope) h =>
    match a, wide h with
    | .sys, _ => .sys | _, .sys => .sys | .fab, _ => .fab | _, .fab => .fab | .pkg, _ => .pkg | _, .pkg => .pkg
    | .cube, .cube => .cube) .cube
/-- The target of a completion add: a misaligned or untranslatable counter fails the add (R271). -/
def addTarget (s : State) (c : CubeId) (m : Cmd) : Except EngErr Target :=
  let va : VA := m.ctr.setWidth 52
  if m.ctr.toNat % 8 ≠ 0 then .error ⟨2, 0, va⟩
  else
    match engTarget s c m .both va with
    | .error e => .error { e with addr := va }
    | .ok t => offWindowErr s t va
/-- The value that a completion add carries: bit 63 for the amount's or for a failure (R271). -/
def addAmount (amt : Word) (failed : Bool) : Word := if failed then amt ||| 0x8000000000000000 else amt
/-- The kind of an add at a place: host memory takes plain 64-bit adds (R184, R185). -/
def counterOp (s : State) (t : Target) (amt : Word) : ItemOp :=
  match t.peer with
  | some p => if peerIrsere s p then .cadd t.key amt else .fetchAdd t.key amt
  | none => match keySpace s t.key with
    | .host => .fetchAdd t.key amt
    | _ => .cadd t.key amt
/-- The counter add of an engine as an item on its line, at the command's own place (R108, R271). -/
def addItem (s : State) (c : CubeId) (m : Cmd) (t : Target) : State :=
  let scope := addScope s c (homeOf t.key :: m.wrote)
  let i : Item :=
    { id := s.nextId, pos := m.id, sid := m.sid, cube := c, line := cmdLine m, seq := m.seq, home := homeOf t.key, glob := cmdGlob m
      ordered := false, op := counterOp s t (addAmount m.amt m.err.isSome), va := m.ctr.setWidth 52, spans := [], acc := 5
      after := [], prior := .none, scope := scope, rel := true, mode := cmdMode s m, tag := t.tag, status := .transit, dest := none, old := 0
      cmd := some m.id, mig := migOf t m.asn (m.ctr.setWidth 52), tags := [] }
  let s := s.modCube c fun k => k.modCmd m.id fun q => { q with status := .adding }
  issueItem { s with nextId := s.nextId + 1 } i
/-- The add may go: every earlier entry of the strand in a copy queue is complete (R272), its own entries have landed, and,
unless it follows the data on one line to one home, every update of its writes is acknowledged (R271). -/
def addReady (s : State) (c : CubeId) (m : Cmd) : Bool :=
  let k := s.cube c
  let order := match m.kind with
    | .copy _ => (earlierOf k m).isEmpty
    | _ => true
  let inLine := cmdLine m != 0 && (match addTarget s c m with
    | .ok t => m.wrote.all fun h => h == homeOf t.key
    | .error _ => false)
  order && m.res.isEmpty && !awaitsWindow s m.id && (inLine || !s.msgs.any fun g => g.item == m.id)
/-- The error of a completion add that cannot be made: 0x05 where its home's peer died after the data went (R278). -/
def addError (m : Cmd) (e : EngErr) : EngErr := if e.code = 4 ∧ !m.addDead then { e with code := 5 } else e
/-- COMPLETION_ADD_SEND: the add leaves; a failed add leaves a record, and the command ends (R271, R276). A command that stands behind
a failed item of its line fails with it, and its add is made with bit 63 set (R120, R275); an empty one's is made as it is (R258). -/
def sendAdd (s : State) (c : CubeId) (id : Nat) : State :=
  match (s.cube c).cmd id with
  | none => s
  | some m =>
    if m.status == .finished && addReady s c m then
      if !wantsAdd m then dropCmd s c id
      else if m.dead && m.err.isNone && !m.empty then failAgain s c m ⟨0x0B, 0, m.ctr.setWidth 52⟩
      else
        match addTarget s c m with
        | .ok t => addItem s c m t
        | .error e => dropCmd (noteLost (faultRecord s c m 0 (addError m e)) c m e) c id
    else s

/-! ### Engine events -/

/-- An earlier command of the strand in the queue waits for a walk, and holds the strand's later ones there (R20, R104, R272). -/
def queueWalks (s : State) (c : CubeId) (m : Cmd) : Bool :=
  (s.cube c).cmds.any fun q => q.queue == m.queue && q.sid == m.sid && decide (q.id ≤ m.id) && walkOut s (.cube c) q.id
/-- What an event of a command does: nothing while its queue waits for a walk; and where it meets addresses that have to be
walked first, it asks for their walks and does nothing else (R104, R257); where it meets one that no link or port carries it to now,
it does nothing (R10, R368). -/
def engEvent (c : CubeId) (id : Nat) (f : State → State) (s : State) : State :=
  match (s.cube c).cmd id with
  | none => s
  | some m =>
    let s' := f s
    if queueWalks s c m || heldUp s s' then s
    else afterWalks s s' (.cube c) id (((s'.cube c).cmd id).map Cmd.status != some m.status)

end Sys2Proof.Machine
end

