-- ==== Sys2Proof/Machine/Operands.lean ====
section
/-! DEFINITION. Operand forms: guards (R39), scalar and vector sources with their latches (R36, R38), register groups (R47),
elements and masks of vectors (R200, R201). -/
namespace Sys2Proof.Machine

/-- The guard of a slot holds (R39). -/
def Ctx.guard (c : Ctx) (g : Guard) : Bool := c.p g.pred != g.neg

/-- What a slot under a guard does: nothing when the guard fails (R39). -/
def State.guarded (s : State) (g : Guard) (f : Ctx → State → State) : Out :=
  .next (if s.ctx.guard g then f s.ctx s else s)

/-- A latch read by a scalar operand: a vector latch gives element 0 of its 32-bit lanes, zero-extended (R38). -/
def Ctx.latchScalar (c : Ctx) (n : BitVec 3) : Word :=
  match n.toNat with
  | 1 => c.lat.b1 | 4 => c.lat.b4 | 6 => c.lat.b6 | 7 => c.lat.b7
  | 2 => (c.lat.b2.setWidth 32).setWidth 64 | 3 => (c.lat.b3.setWidth 32).setWidth 64
  | 5 => (c.lat.b5.setWidth 32).setWidth 64
  | _ => 0
/-- A scalar source operand. -/
def Ctx.src (c : Ctx) : Src → Word
  | .reg r => c.s r
  | .latch n => c.latchScalar n
/-- An element repeated over a vector: n elements of w bits from the low bits of x. -/
def repeatBits (w x : Nat) : Nat → Nat
  | 0 => 0
  | n + 1 => x + 2 ^ w * repeatBits w x n
/-- A value broadcast to every lane at a byte width. -/
def broadcast (bytes : Nat) (x : Word) : VWord :=
  BitVec.ofNat 2048 (repeatBits (8 * bytes) (x.toNat % 2 ^ (8 * bytes)) (256 / bytes))
/-- A latch read by a vector operand at an element width: a scalar latch is truncated and broadcast (R38). -/
def Ctx.latchVector (c : Ctx) (bytes : Nat) (n : BitVec 3) : VWord :=
  match n.toNat with
  | 2 => c.lat.b2 | 3 => c.lat.b3 | 5 => c.lat.b5
  | 1 => broadcast bytes c.lat.b1 | 4 => broadcast bytes c.lat.b4 | 6 => broadcast bytes c.lat.b6
  | 7 => broadcast bytes c.lat.b7
  | _ => 0
/-- A vector source operand at an element width. -/
def Ctx.vsrc (c : Ctx) (bytes : Nat) : VSrc → VWord
  | .reg r => c.v r
  | .latch n => c.latchVector bytes n
/-- A source of the vector format that names a scalar: s0 to s31, or a latch (R202). -/
def Ctx.vsrcScalar (c : Ctx) : VSrc → Word
  | .reg r => c.s (r.setWidth 6)
  | .latch n => c.latchScalar n
/-- A register group s(a), s(a+1), … (R47). -/
def Ctx.group (c : Ctx) (a : SReg) (n : Nat) : List Word := (List.range n).map fun k => c.s (a + BitVec.ofNat 6 k)

/-! ### Elements and masks (R200, R201) -/

/-- Element e of a vector at a byte width, as a number. -/
def elemAt (v : VWord) (bytes e : Nat) : Nat := (v >>> (8 * bytes * e)).toNat % 2 ^ (8 * bytes)
/-- The elements of a vector at a byte width, lowest first. -/
def elems (v : VWord) (bytes : Nat) : List Nat := (List.range (256 / bytes)).map (elemAt v bytes)
/-- A vector from its elements. -/
def packElems (bytes : Nat) (es : List Nat) : VWord :=
  BitVec.ofNat 2048 (es.foldr (fun x a => x % 2 ^ (8 * bytes) + 2 ^ (8 * bytes) * a) 0)
/-- Element e is active under a mask when the mask bit of its first byte lane is set (R201). -/
def active (m : MWord) (bytes e : Nat) : Bool := m.getLsbD (bytes * e)
/-- Byte enables of the active elements. -/
def enables (m : MWord) (bytes : Nat) : MWord :=
  BitVec.ofNat 256 (((List.range (256 / bytes)).map fun e =>
    if active m bytes e then (2 ^ bytes - 1) * 2 ^ (bytes * e) else 0).foldl (· + ·) 0)

end Sys2Proof.Machine
end

