-- ==== Sys2Proof/Machine/Alu.lean ====
section
/-! DEFINITION. Integer arithmetic of the S unit: ALU, ALUI, MOVI, MOVHI, ALU2 and BITF (R169 to R173). -/
namespace Sys2Proof.Machine

/-- An instruction of two scalar operands with latency l and latch lt. -/
def alu (l : Nat) (lt : BitVec 3) (f : Word → Word → Word) (g : Guard) (m : Mods) (d : SReg) (a b : Src) (s : State) : Out :=
  s.guarded g fun x s => s.writeS l lt m d (f (x.src a) (x.src b))
/-- An instruction of one scalar operand. -/
def alu1 (l : Nat) (lt : BitVec 3) (f : Word → Word) (g : Guard) (m : Mods) (d : SReg) (a : Src) (s : State) : Out :=
  s.guarded g fun x s => s.writeS l lt m d (f (x.src a))
/-- An instruction that also reads its destination (R171, R173). -/
def alu3 (l : Nat) (lt : BitVec 3) (f : Word → Word → Word → Word) (g : Guard) (m : Mods) (d : SReg) (a b : Src)
    (s : State) : Out :=
  s.guarded g fun x s => s.writeS l lt m d (f (x.s d) (x.src a) (x.src b))
/-- An immediate instruction; the immediate is sign-extended (R170). -/
def aluI (l : Nat) (lt : BitVec 3) (f : Word → Word → Word) (g : Guard) (m : Mods) (d : SReg) (a : Src) (imm : BitVec 14)
    (s : State) : Out :=
  s.guarded g fun x s => s.writeS l lt m d (f (x.src a) (imm.signExtend 64))

/-! ### ALU (R169) -/

def shamt (b : Word) : Nat := b.toNat % 64
def smin (a b : Word) : Word := if a.toInt ≤ b.toInt then a else b
def smax (a b : Word) : Word := if a.toInt ≤ b.toInt then b else a
def umin (a b : Word) : Word := if a.toNat ≤ b.toNat then a else b
def umax (a b : Word) : Word := if a.toNat ≤ b.toNat then b else a

def execAdd (g : Guard) (m : Mods) (d : SReg) (a b : Src) (s : State) : Out :=
  alu 1 1 (fun a b => a + b) g m d a b s
def execSub (g : Guard) (m : Mods) (d : SReg) (a b : Src) (s : State) : Out :=
  alu 1 1 (fun a b => a - b) g m d a b s
def execAnd (g : Guard) (m : Mods) (d : SReg) (a b : Src) (s : State) : Out :=
  alu 1 1 (fun a b => a &&& b) g m d a b s
def execOr (g : Guard) (m : Mods) (d : SReg) (a b : Src) (s : State) : Out :=
  alu 1 1 (fun a b => a ||| b) g m d a b s
def execXor (g : Guard) (m : Mods) (d : SReg) (a b : Src) (s : State) : Out :=
  alu 1 1 (fun a b => a ^^^ b) g m d a b s
def execAndn (g : Guard) (m : Mods) (d : SReg) (a b : Src) (s : State) : Out :=
  alu 1 1 (fun a b => a &&& ~~~b) g m d a b s
def execOrn (g : Guard) (m : Mods) (d : SReg) (a b : Src) (s : State) : Out :=
  alu 1 1 (fun a b => a ||| ~~~b) g m d a b s
def execShl (g : Guard) (m : Mods) (d : SReg) (a b : Src) (s : State) : Out :=
  alu 1 1 (fun a b => a <<< shamt b) g m d a b s
def execShr (g : Guard) (m : Mods) (d : SReg) (a b : Src) (s : State) : Out :=
  alu 1 1 (fun a b => a >>> shamt b) g m d a b s
def execSar (g : Guard) (m : Mods) (d : SReg) (a b : Src) (s : State) : Out :=
  alu 1 1 (fun a b => a.sshiftRight (shamt b)) g m d a b s
def execRol (g : Guard) (m : Mods) (d : SReg) (a b : Src) (s : State) : Out :=
  alu 1 1 (fun a b => a.rotateLeft (shamt b)) g m d a b s
def execMin (g : Guard) (m : Mods) (d : SReg) (a b : Src) (s : State) : Out :=
  alu 1 1 (fun a b => smin a b) g m d a b s
def execMax (g : Guard) (m : Mods) (d : SReg) (a b : Src) (s : State) : Out :=
  alu 1 1 (fun a b => smax a b) g m d a b s
def execMinn (g : Guard) (m : Mods) (d : SReg) (a b : Src) (s : State) : Out :=
  alu 1 1 (fun a b => umin a b) g m d a b s
def execMaxn (g : Guard) (m : Mods) (d : SReg) (a b : Src) (s : State) : Out :=
  alu 1 1 (fun a b => umax a b) g m d a b s
def execRor (g : Guard) (m : Mods) (d : SReg) (a b : Src) (s : State) : Out :=
  alu 1 1 (fun a b => a.rotateRight (shamt b)) g m d a b s

/-! ### ALUI, MOVI and MOVHI (R170, R171) -/

def execAddi (g : Guard) (m : Mods) (d : SReg) (a : Src) (imm : BitVec 14) (s : State) : Out :=
  aluI 1 1 (fun a i => a + i) g m d a imm s
def execAndi (g : Guard) (m : Mods) (d : SReg) (a : Src) (imm : BitVec 14) (s : State) : Out :=
  aluI 1 1 (fun a i => a &&& i) g m d a imm s
def execOri (g : Guard) (m : Mods) (d : SReg) (a : Src) (imm : BitVec 14) (s : State) : Out :=
  aluI 1 1 (fun a i => a ||| i) g m d a imm s
def execXori (g : Guard) (m : Mods) (d : SReg) (a : Src) (imm : BitVec 14) (s : State) : Out :=
  aluI 1 1 (fun a i => a ^^^ i) g m d a imm s
def execShli (g : Guard) (m : Mods) (d : SReg) (a : Src) (imm : BitVec 14) (s : State) : Out :=
  aluI 1 1 (fun a i => a <<< shamt i) g m d a imm s
def execShri (g : Guard) (m : Mods) (d : SReg) (a : Src) (imm : BitVec 14) (s : State) : Out :=
  aluI 1 1 (fun a i => a >>> shamt i) g m d a imm s
def execSari (g : Guard) (m : Mods) (d : SReg) (a : Src) (imm : BitVec 14) (s : State) : Out :=
  aluI 1 1 (fun a i => a.sshiftRight (shamt i)) g m d a imm s
def execMuli (g : Guard) (m : Mods) (d : SReg) (a : Src) (imm : BitVec 14) (s : State) : Out :=
  aluI 3 7 (fun a i => a * i) g m d a imm s
def execMovi (g : Guard) (m : Mods) (d : SReg) (imm : BitVec 23) (s : State) : Out :=
  s.guarded g fun _ s => s.writeS 1 1 m d (imm.signExtend 64)
def execMovhi (g : Guard) (m : Mods) (d : SReg) (imm : BitVec 23) (s : State) : Out :=
  s.guarded g fun x s => s.writeS 1 1 m d ((x.s d <<< 16) ||| imm.setWidth 64)

/-! ### ALU2 (R172) -/

def mulHigh (a b : Word) : Word := BitVec.ofInt 64 (a.toInt * b.toInt / 2 ^ 64)
def mulHighN (a b : Word) : Word := BitVec.ofNat 64 (a.toNat * b.toNat / 2 ^ 64)
/-- Signed quotient toward zero; all ones for a zero divisor; -2^63 by -1 wraps. -/
def divS (a b : Word) : Word := if b = 0 then BitVec.allOnes 64 else BitVec.ofInt 64 (Int.tdiv a.toInt b.toInt)
def divU (a b : Word) : Word := if b = 0 then BitVec.allOnes 64 else BitVec.ofNat 64 (a.toNat / b.toNat)
def remS (a b : Word) : Word := if b = 0 then a else BitVec.ofInt 64 (Int.tmod a.toInt b.toInt)
def remU (a b : Word) : Word := if b = 0 then a else BitVec.ofNat 64 (a.toNat % b.toNat)
/-- A division goes to the divider; its result arrives as an interlocked one (R138), in the register and in b7. -/
def divide (f : Word → Word → Word) (g : Guard) (m : Mods) (d : SReg) (a b : Src) (s : State) : Out :=
  s.guarded g fun x s =>
    let r : ReadReq := ⟨s.nextId, x.sid, s.me, 0, 0, [], [], .division d m.nw m.tv, none, none, .served,
      (f (x.src a) (x.src b)).setWidth 2048, 0, false, [], .none, ([], [])⟩
    { s with reads := s.reads ++ [r], nextId := s.nextId + 1 }
def bitCount (a : Word) : Nat := ((List.range 64).filter fun k => a.getLsbD k).length
def leadingZeros (a : Word) : Nat := if a = 0 then 64 else 63 - Nat.log2 a.toNat
def trailingZeros (a : Word) : Nat := ((List.range 64).find? fun k => a.getLsbD k).getD 64
def swapBytes (a : Word) : Word := BitVec.ofNat 64 (packLE (bytesLE 8 a.toNat).reverse)
def absS (a : Word) : Word := if a.msb then -a else a
/-- Bits [n:0] of a, sign- or zero-extended, with n = b[5:0]. -/
def signFrom (a b : Word) : Word := BitVec.ofInt 64 (sint (shamt b + 1) a.toNat)
def zeroFrom (a b : Word) : Word := BitVec.ofNat 64 (a.toNat % 2 ^ (shamt b + 1))

def execMul (g : Guard) (m : Mods) (d : SReg) (a b : Src) (s : State) : Out :=
  alu 3 7 (fun a b => a * b) g m d a b s
def execMulh (g : Guard) (m : Mods) (d : SReg) (a b : Src) (s : State) : Out :=
  alu 3 7 (fun a b => mulHigh a b) g m d a b s
def execMulhn (g : Guard) (m : Mods) (d : SReg) (a b : Src) (s : State) : Out :=
  alu 3 7 (fun a b => mulHighN a b) g m d a b s
def execDiv (g : Guard) (m : Mods) (d : SReg) (a b : Src) (s : State) : Out :=
  divide divS g m d a b s
def execDivn (g : Guard) (m : Mods) (d : SReg) (a b : Src) (s : State) : Out :=
  divide divU g m d a b s
def execRem (g : Guard) (m : Mods) (d : SReg) (a b : Src) (s : State) : Out :=
  divide remS g m d a b s
def execRemn (g : Guard) (m : Mods) (d : SReg) (a b : Src) (s : State) : Out :=
  divide remU g m d a b s
def execPopc (g : Guard) (m : Mods) (d : SReg) (a : Src) (s : State) : Out :=
  alu1 1 1 (fun a => BitVec.ofNat 64 (bitCount a)) g m d a s
def execClz (g : Guard) (m : Mods) (d : SReg) (a : Src) (s : State) : Out :=
  alu1 1 1 (fun a => BitVec.ofNat 64 (leadingZeros a)) g m d a s
def execCtz (g : Guard) (m : Mods) (d : SReg) (a : Src) (s : State) : Out :=
  alu1 1 1 (fun a => BitVec.ofNat 64 (trailingZeros a)) g m d a s
def execBrev (g : Guard) (m : Mods) (d : SReg) (a : Src) (s : State) : Out :=
  alu1 1 1 (fun a => a.reverse) g m d a s
def execBswap (g : Guard) (m : Mods) (d : SReg) (a : Src) (s : State) : Out :=
  alu1 1 1 (fun a => swapBytes a) g m d a s
def execAbs (g : Guard) (m : Mods) (d : SReg) (a : Src) (s : State) : Out :=
  alu1 1 1 (fun a => absS a) g m d a s
def execSext (g : Guard) (m : Mods) (d : SReg) (a b : Src) (s : State) : Out :=
  alu 1 1 (fun a b => signFrom a b) g m d a b s
def execZext (g : Guard) (m : Mods) (d : SReg) (a b : Src) (s : State) : Out :=
  alu 1 1 (fun a b => zeroFrom a b) g m d a b s

/-! ### BITF (R173): the control word gives offset b[5:0] and width b[13:8] -/

def fieldOff (b : Word) : Nat := b.toNat % 64
def fieldWidth (b : Word) : Nat := b.toNat / 256 % 64
def bfExtractS (a b : Word) : Word :=
  if fieldWidth b = 0 then 0 else BitVec.ofInt 64 (sint (fieldWidth b) (a.sshiftRight (fieldOff b)).toNat)
def bfExtractN (a b : Word) : Word := BitVec.ofNat 64 (a.toNat / 2 ^ fieldOff b % 2 ^ fieldWidth b)
def bfInsert (d a b : Word) : Word :=
  let mask : Word := BitVec.ofNat 64 ((2 ^ fieldWidth b - 1) * 2 ^ fieldOff b)
  (d &&& ~~~mask) ||| ((a <<< fieldOff b) &&& mask)
def funnelL (d a b : Word) : Word := BitVec.ofNat 64 ((a.toNat * 2 ^ 64 + b.toNat) * 2 ^ (d.toNat % 64) / 2 ^ 64)
def funnelR (d a b : Word) : Word := BitVec.ofNat 64 ((a.toNat * 2 ^ 64 + b.toNat) / 2 ^ (d.toNat % 64))

def execBfxs (g : Guard) (m : Mods) (d : SReg) (a b : Src) (s : State) : Out :=
  alu 1 1 bfExtractS g m d a b s
def execBfxn (g : Guard) (m : Mods) (d : SReg) (a b : Src) (s : State) : Out :=
  alu 1 1 bfExtractN g m d a b s
def execBfi (g : Guard) (m : Mods) (d : SReg) (a b : Src) (s : State) : Out :=
  alu3 1 1 bfInsert g m d a b s
def execFshl (g : Guard) (m : Mods) (d : SReg) (a b : Src) (s : State) : Out :=
  alu3 1 1 funnelL g m d a b s
def execFshr (g : Guard) (m : Mods) (d : SReg) (a b : Src) (s : State) : Out :=
  alu3 1 1 funnelR g m d a b s

end Sys2Proof.Machine
end

