-- ==== Sys2Proof/Machine/Fpu.lean ====
section
/-! DEFINITION. Scalar floating point (R174, R175): operands are bits [31:0], results clear bits [63:32], rounding follows
SEQ_FRM. -/
namespace Sys2Proof.Machine

def Ctx.rm (c : Ctx) : RMode := .frm c.sys.frm
/-- The F32 value that a scalar holds. -/
def f32Of (w : Word) : FVal := dec32 (w.setWidth 32 : BitVec 32).toNat
def f32Word (r : RMode) (v : FVal) : Word := BitVec.ofNat 64 (enc32 r v)
/-- A floating instruction of two operands: latency 4, latch b6. -/
def fpu2 (f : RMode → FVal → FVal → FVal) (g : Guard) (m : Mods) (d : SReg) (a b : Src) (s : State) : Out :=
  s.guarded g fun x s => s.writeS 4 6 m d (f32Word x.rm (f x.rm (f32Of (x.src a)) (f32Of (x.src b))))
/-- One of one operand, on the whole register. -/
def fpu1 (l : Nat) (f : RMode → Word → Word) (g : Guard) (m : Mods) (d : SReg) (a : Src) (s : State) : Out :=
  s.guarded g fun x s => s.writeS l 6 m d (f x.rm (x.src a))
/-- The bits of an integer that a value rounds to, between two limits (R175). -/
def toWord (lo hi : Int) (r : RMode) (w : Word) : Word := BitVec.ofInt 64 (toIntSat lo hi r 0 (f32Of w))

def execFadd (g : Guard) (m : Mods) (d : SReg) (a b : Src) (s : State) : Out :=
  fpu2 (fun r x y => FVal.add r x y) g m d a b s
def execFsub (g : Guard) (m : Mods) (d : SReg) (a b : Src) (s : State) : Out :=
  fpu2 (fun r x y => FVal.add r x y.neg) g m d a b s
def execFmul (g : Guard) (m : Mods) (d : SReg) (a b : Src) (s : State) : Out :=
  fpu2 (fun _ x y => x.mul y) g m d a b s
def execFmin (g : Guard) (m : Mods) (d : SReg) (a b : Src) (s : State) : Out :=
  fpu2 (fun _ x y => x.min2 y) g m d a b s
def execFmax (g : Guard) (m : Mods) (d : SReg) (a b : Src) (s : State) : Out :=
  fpu2 (fun _ x y => x.max2 y) g m d a b s
/-- One rounding of a × b + d. -/
def execFfma (g : Guard) (m : Mods) (d : SReg) (a b : Src) (s : State) : Out :=
  s.guarded g fun x s => s.writeS 4 6 m d
    (f32Word x.rm (FVal.add x.rm ((f32Of (x.src a)).mul (f32Of (x.src b))) (f32Of (x.s d))))
def execFabs (g : Guard) (m : Mods) (d : SReg) (a : Src) (s : State) : Out :=
  fpu1 4 (fun _ a => a &&& 0x7FFFFFFF) g m d a s
def execFneg (g : Guard) (m : Mods) (d : SReg) (a : Src) (s : State) : Out :=
  fpu1 4 (fun _ a => (a &&& 0xFFFFFFFF) ^^^ 0x80000000) g m d a s
def execFcvtif (g : Guard) (m : Mods) (d : SReg) (a : Src) (s : State) : Out :=
  fpu1 4 (fun r a => f32Word r (.ofInt a.toInt)) g m d a s
def execFcvtnf (g : Guard) (m : Mods) (d : SReg) (a : Src) (s : State) : Out :=
  fpu1 4 (fun r a => f32Word r (.ofInt a.toNat)) g m d a s
def execFcvtfi (g : Guard) (m : Mods) (d : SReg) (a : Src) (s : State) : Out :=
  fpu1 4 (toWord (-(2 ^ 63)) (2 ^ 63 - 1)) g m d a s
def execFcvtfn (g : Guard) (m : Mods) (d : SReg) (a : Src) (s : State) : Out :=
  fpu1 4 (toWord 0 (2 ^ 64 - 1)) g m d a s
def execFsqrt (g : Guard) (m : Mods) (d : SReg) (a : Src) (s : State) : Out :=
  fpu1 12 (fun r a => f32Word r (f32Of a).sqrt) g m d a s

end Sys2Proof.Machine
end

