-- ==== Sys2Proof/Machine/Flags.lean ====
section
/-! DEFINITION. Predicates and masks: the outcome of a compare goes to them by its family (R141, R177, R208). -/
namespace Sys2Proof.Machine

/-- A compare's result r goes to pd1, and its complement to pd2 (R177). -/
def writePreds (l : Nat) (tv : Bool) (c : Comb) (p q : PReg) (r : Bool) (s : State) : State :=
  (s.writeP l tv p c r).writeP l tv q c (!r)
/-- A compare of two scalar operands. -/
def compare (l : Nat) (f : Word → Word → Bool) (g : Guard) (tv : Bool) (c : Comb) (p q : PReg) (a b : Src) (s : State) : Out :=
  s.guarded g fun x s => writePreds l tv c p q (f (x.src a) (x.src b)) s
/-- A compare with an immediate, extended as the compare reads it. -/
def compareI (sx : Bool) (f : Word → Word → Bool) (g : Guard) (tv : Bool) (c : Comb) (p q : PReg) (a : Src)
    (imm : BitVec 13) (s : State) : Out :=
  s.guarded g fun x s => writePreds 1 tv c p q (f (x.src a) (if sx then imm.signExtend 64 else imm.setWidth 64)) s

end Sys2Proof.Machine
end

