-- ==== Sys2Proof/Machine/Compare.lean ====
section
/-! DEFINITION. Scalar compares into predicates (R176, R177). -/
namespace Sys2Proof.Machine

def execCmpeq (g : Guard) (tv : Bool) (ct : Comb) (p q : PReg) (a b : Src) (s : State) : Out :=
  compare 1 (fun a b => a == b) g tv ct p q a b s
def execCmpeqImm (g : Guard) (tv : Bool) (ct : Comb) (p q : PReg) (a : Src) (imm : BitVec 13) (s : State) : Out :=
  compareI true (fun a b => a == b) g tv ct p q a imm s
def execCmpne (g : Guard) (tv : Bool) (ct : Comb) (p q : PReg) (a b : Src) (s : State) : Out :=
  compare 1 (fun a b => a != b) g tv ct p q a b s
def execCmpneImm (g : Guard) (tv : Bool) (ct : Comb) (p q : PReg) (a : Src) (imm : BitVec 13) (s : State) : Out :=
  compareI true (fun a b => a != b) g tv ct p q a imm s
def execCmplt (g : Guard) (tv : Bool) (ct : Comb) (p q : PReg) (a b : Src) (s : State) : Out :=
  compare 1 (fun a b => decide (a.toInt < b.toInt)) g tv ct p q a b s
def execCmpltImm (g : Guard) (tv : Bool) (ct : Comb) (p q : PReg) (a : Src) (imm : BitVec 13) (s : State) : Out :=
  compareI true (fun a b => decide (a.toInt < b.toInt)) g tv ct p q a imm s
def execCmple (g : Guard) (tv : Bool) (ct : Comb) (p q : PReg) (a b : Src) (s : State) : Out :=
  compare 1 (fun a b => decide (a.toInt ≤ b.toInt)) g tv ct p q a b s
def execCmpleImm (g : Guard) (tv : Bool) (ct : Comb) (p q : PReg) (a : Src) (imm : BitVec 13) (s : State) : Out :=
  compareI true (fun a b => decide (a.toInt ≤ b.toInt)) g tv ct p q a imm s
def execCmpltn (g : Guard) (tv : Bool) (ct : Comb) (p q : PReg) (a b : Src) (s : State) : Out :=
  compare 1 (fun a b => decide (a.toNat < b.toNat)) g tv ct p q a b s
def execCmpltnImm (g : Guard) (tv : Bool) (ct : Comb) (p q : PReg) (a : Src) (imm : BitVec 13) (s : State) : Out :=
  compareI false (fun a b => decide (a.toNat < b.toNat)) g tv ct p q a imm s
def execCmplen (g : Guard) (tv : Bool) (ct : Comb) (p q : PReg) (a b : Src) (s : State) : Out :=
  compare 1 (fun a b => decide (a.toNat ≤ b.toNat)) g tv ct p q a b s
def execCmplenImm (g : Guard) (tv : Bool) (ct : Comb) (p q : PReg) (a : Src) (imm : BitVec 13) (s : State) : Out :=
  compareI false (fun a b => decide (a.toNat ≤ b.toNat)) g tv ct p q a imm s
def execFcmpeq (g : Guard) (tv : Bool) (ct : Comb) (p q : PReg) (a b : Src) (s : State) : Out :=
  compare 2 (fun a b => (f32Of a).eqv (f32Of b)) g tv ct p q a b s
def execFcmplt (g : Guard) (tv : Bool) (ct : Comb) (p q : PReg) (a b : Src) (s : State) : Out :=
  compare 2 (fun a b => (f32Of a).lt (f32Of b)) g tv ct p q a b s
def execFcmple (g : Guard) (tv : Bool) (ct : Comb) (p q : PReg) (a b : Src) (s : State) : Out :=
  compare 2 (fun a b => (f32Of a).le (f32Of b)) g tv ct p q a b s
def execFcmpun (g : Guard) (tv : Bool) (ct : Comb) (p q : PReg) (a b : Src) (s : State) : Out :=
  compare 2 (fun a b => (f32Of a).isNan || (f32Of b).isNan) g tv ct p q a b s

end Sys2Proof.Machine
end

