-- ==== Sys2Proof/Machine/Control.lean ====
section
/-! DEFINITION. Branches, jumps, predicates and hardware loops (R142 to R144, R166 to R168). -/
namespace Sys2Proof.Machine

/-- The trap of the slot in execution. -/
def State.slotTrapOf (s : State) (cause : BitVec 8) (kind acc : BitVec 4) (addr : VA) : Trap :=
  ⟨cause, 0, kind, acc, BitVec.twoPow 4 s.bundle.slot.toNat, addr⟩
/-- The bundle takes a transfer to a target. -/
def State.takeBranch (s : State) (t : VA) : State := s.modBundle fun b => { b with taken := some t }
/-- An address some bundles away from the running one. -/
def bundlesFrom (pc : VA) (disp : Int) : VA := pc + BitVec.ofInt 52 (16 * disp)
/-- The link goes to s63 with latency 1 (R166, R167). -/
def State.link (s : State) (x : Ctx) : State := s.writeS0 1 63 ((x.pc + 16).setWidth 64)

def execBr (g : Guard) (disp : BitVec 29) (s : State) : Out :=
  s.guarded g fun x s => s.takeBranch (bundlesFrom x.pc disp.toInt)
def execBrl (g : Guard) (disp : BitVec 29) (s : State) : Out :=
  s.guarded g fun x s => (s.link x).takeBranch (bundlesFrom x.pc disp.toInt)
/-- A misaligned target (R167). -/
def jumpTrap (s : State) (a : Src) : Option Trap :=
  if (s.ctx.src a).toNat % 16 ≠ 0 then some (s.slotTrapOf causeAlign 0 1 ((s.ctx.src a).setWidth 52)) else none
def execJr (g : Guard) (a : Src) (s : State) : Out :=
  s.guarded g fun x s =>
    match jumpTrap s a with
    | some t => takeTrap s s.me t
    | none => s.takeBranch ((x.src a).setWidth 52)
def execJrl (g : Guard) (a : Src) (s : State) : Out :=
  s.guarded g fun x s =>
    match jumpTrap s a with
    | some t => takeTrap s s.me t
    | none => (s.link x).takeBranch ((x.src a).setWidth 52)

/-- A predicate of two predicates. -/
def predOp (f : Bool → Bool → Bool) (g : Guard) (d a b : PReg) (s : State) : Out :=
  s.guarded g fun x s => s.writeP 1 false d .plain (f (x.p a) (x.p b))
def execPand (g : Guard) (d a b : PReg) (s : State) : Out := predOp (fun a b => a && b) g d a b s
def execPor (g : Guard) (d a b : PReg) (s : State) : Out := predOp (fun a b => a || b) g d a b s
def execPxor (g : Guard) (d a b : PReg) (s : State) : Out := predOp (fun a b => a != b) g d a b s
def execPandn (g : Guard) (d a b : PReg) (s : State) : Out := predOp (fun a b => a && !b) g d a b s
/-- p1 to p7 from bits 7 to 1 of a word. -/
def execPmovs (g : Guard) (a : Src) (s : State) : Out :=
  s.guarded g fun x s => (List.range 7).foldl (fun s k =>
    s.writeP 1 false (BitVec.ofNat 3 (k + 1)) .plain ((x.src a).getLsbD (k + 1))) s
/-- The predicates as a word; bit 0 is p0. -/
def predWord (x : Ctx) : Word :=
  BitVec.ofNat 64 ((List.range 8).foldl (fun n k => n + if x.p (BitVec.ofNat 3 k) then 2 ^ k else 0) 0)
def execPmovp (g : Guard) (d : SReg) (s : State) : Out :=
  s.guarded g fun x s => s.writeS0 1 d (predWord x)

/-! ### The loop stack: `loops` keeps lc0 first -/

def execLpop (g : Guard) (s : State) : Out :=
  s.guarded g fun _ s => s.modCtx fun x => { x with loops := x.loops.dropLast }
/-- A fifth entry (R144, R168). -/
def loopTrap (s : State) (count : Nat) : Option Trap :=
  if count ≠ 0 ∧ 4 ≤ s.ctx.loops.length then some (s.slotTrapOf causeLoopDepth 0 0 0) else none
/-- loop_insn of R168. -/
def loopInsn (x : Ctx) (count : Nat) (disp : Nat) (s : State) : State :=
  let last := bundlesFrom x.pc disp
  if count = 0 then s.takeBranch (last + 16)
  else
    let e : LoopEntry := ⟨x.pc + 16, last, BitVec.ofNat 32 (Nat.min count (2 ^ 32 - 1))⟩
    (s.modCtx fun x => { x with loops := x.loops ++ [e] }).modBundle fun b => { b with pushed := true }
def execLoop (g : Guard) (c : SReg) (e : BitVec 21) (s : State) : Out :=
  s.guarded g fun x s =>
    match loopTrap s (x.s c).toNat with
    | some t => takeTrap s s.me t
    | none => loopInsn x (x.s c).toNat e.toNat s
def execLoopi (g : Guard) (n : BitVec 19) (e : BitVec 10) (s : State) : Out :=
  s.guarded g fun x s =>
    match loopTrap s n.toNat with
    | some t => takeTrap s s.me t
    | none => loopInsn x n.toNat e.toNat s

/-- The back edges of the bundle at address a (R143): the stack and the next address. n entries, innermost last, are examined;
`top` holds entries above them. -/
def loopBack (a : VA) : List LoopEntry → List LoopEntry × VA
  | [] => ([], a + 16)
  | e :: t =>
    if e.last = a then
      if 1 < e.count.toNat then ({ e with count := e.count - 1 } :: t, e.start) else loopBack a t
    else (e :: t, a + 16)
/-- next_address of R143, with the stack that it leaves. -/
def nextAddress (x : Ctx) (b : BundleState) : Ctx × VA :=
  match b.taken with
  | some t => (x, t)
  | none =>
    let rev := x.loops.reverse
    let top := if b.pushed then rev.take 1 else []
    let (rest, pc) := loopBack x.pc (if b.pushed then rev.drop 1 else rev)
    ({ x with loops := (top ++ rest).reverse }, pc)

end Sys2Proof.Machine
end

