-- ==== Sys2Proof/Machine/Copy.lean ====
section
/-! DEFINITION. The copy engines (chapter 09): the fifteen commands as they enter their queues, and the start and completion
of a copy command. -/
namespace Sys2Proof.Machine

/-! ### The descriptor (R258, R259) -/

def Cmd.layersF (m : Cmd) : Nat := ((m.dw 2).extractLsb' 57 3).toNat
def Cmd.srF (m : Cmd) : Bool := (m.dw 2).getLsbD 56
def Cmd.mfmt (m : Cmd) : Nat := ((m.dw 2).extractLsb' 48 4).toNat
def Cmd.sstride (m : Cmd) : Int := ((m.dw 3).extractLsb' 0 32).toInt
def Cmd.dstride (m : Cmd) : Int := ((m.dw 3).extractLsb' 32 32).toInt
def Cmd.spstride (m : Cmd) : Int := (m.dw 4).toInt
def Cmd.dpstride (m : Cmd) : Int := (m.dw 5).toInt

/-- An address form (R259). -/
inductive AddrForm where
  | va (a : VA)
  | spool (n : Nat) (l0 : Nat)
  | bad
deriving DecidableEq, Repr
def addrForm (w : Word) : AddrForm :=
  match (w >>> 60).toNat with
  | 0 => if w.extractLsb' 52 8 = 0 then .va (w.setWidth 52) else .bad
  | 8 => if w &&& 0x0FFFFFFFFFFFF8E0 = 0 then .spool (w.extractLsb' 0 5).toNat (w.extractLsb' 8 3).toNat else .bad
  | _ => .bad
/-- A spool form names a defined spool, and no layer when it lies in scratch. -/
def formOk (s : State) (m : Cmd) (spoolOk : Bool) : AddrForm → Bool
  | .va _ => true
  | .spool n l0 =>
    let sp := strandSpool s m.sid n
    spoolOk && (sp.region == 2 || (sp.region == 1 && l0 == 0))
  | .bad => false
def isGather : CopyOp → Bool | .gather | .gatheradd => true | _ => false
def isCred : CopyOp → Bool | .addF32 | .addBf16 | .maxF32 | .addI32 => true | _ => false
/-- The source and destination fields as address forms; a fill has no source, a prefetch no destination, and an index list
is a VA. -/
def srcForm (m : Cmd) : AddrForm := addrForm (m.dw 0)
def dstForm (m : Cmd) : AddrForm :=
  match copyOpOf m with
  | .mcast => if m.dw 1 >>> 60 = 0 then .va ((m.dw 1).setWidth 52) else .bad
  | _ => addrForm (m.dw 1)
def spoolRegion (s : State) (m : Cmd) : AddrForm → Nat
  | .spool n _ => (strandSpool s m.sid n).region
  | _ => 0
def formLayers : AddrForm → Nat | .spool _ l0 => l0 | _ => 0
/-- The limits of R258 to R270 that the descriptor alone decides; a breach is error 0x07. -/
def copyLimits (s : State) (m : Cmd) : Bool :=
  let op := copyOpOf m
  let sf := srcForm m
  let df := dstForm m
  let lc := m.layersF
  let srcOk := match op with
    | .fill => true
    | .gather | .gatheradd => formOk s m false sf && (m.dw 0).toNat % 8 == 0
    | .pfetch | .addF32 | .addBf16 | .maxF32 | .addI32 => formOk s m false sf
    | _ => formOk s m true sf
  let dstOk := match op with
    | .pfetch => m.dw 1 == 0
    | .fill | .mcast | .addF32 | .addBf16 | .maxF32 | .addI32 => formOk s m false df
    | .scatter => formOk s m false df && (m.dw 1).toNat % 8 == 0
    | .gather | .gatheradd => formOk s m true df
    | _ => formOk s m true df
  let isSpool (f : AddrForm) : Bool := match f with | .spool .. => true | _ => false
  (m.dw 2).extractLsb' 60 4 == 0 && (op == .threed || m.planesF == 0) &&
  srcOk && dstOk &&
  (lc == 0 || op == .lsplit || op == .lgath || (op != .fill && spoolRegion s m df == 2)) &&
  (op != .lgath || decide (formLayers sf + lc ≤ 7)) && decide (formLayers df + lc ≤ 7) &&
  (!(isSpool sf && op != .fill && op != .pfetch) || m.sstride == 0) && (!(isSpool df && op != .pfetch) || m.dstride == 0) &&
  (match op with
   | .lin => m.dw 3 == 0
   | .fill => m.sstride == 0 && m.mfmt == 0 && !m.srF
   | .pfetch => m.mfmt == 0 && cmdLine m == 0 && !cmdGlob m && !m.srF
   | .gather => m.sstride == 0
   | .scatter => m.dstride == 0
   | .gatheradd => m.sstride == 0 && m.dstride == 0
   | .addF32 | .addBf16 | .maxF32 | .addI32 => m.mfmt == 0 && !m.srF
   | .lsplit | .lgath => decide (m.rows ≤ 64)
   | _ => true)

/-! ### Sides (R261, R262) -/

/-- A side of a copy: where row r of plane z begins, or the entries of a spool that the bytes fill in order. -/
inductive Side where
  | rows (base : VA) (rowStride planeStride : Int)
  | spool (sp : Spool) (first : Nat) (layers : List Nat) (rowBytes rowsPerPlane : Nat)
  /-- the rows that an index list names -/
  | list (rows : List VA)
deriving DecidableEq, Repr
/-- The addresses of byte k of row r of plane z: one, or one in each layer of a face spool. -/
def Side.byteVAs (sd : Side) (z r k : Nat) : List VA :=
  match sd with
  | .rows b rs ps => [b + BitVec.ofInt 52 (z * ps + r * rs + k)]
  | .spool sp first ls rb rp =>
    let pos := (z * rp + r) * rb + k
    sp.byteVAs ls (first + pos / sp.esize) (pos % sp.esize)
  | .list vs => [vs.getD r 0 + BitVec.ofNat 52 k]
def Side.byteVA (sd : Side) (z r k : Nat) : VA := (sd.byteVAs z r k).headD 0

/-- The format of a place: its code, the palette's rounding mode, and whether it is a bank of a task (R262). -/
structure Place where
  fmt : Nat
  rnd : BitVec 3
  bank : Bool
deriving DecidableEq, Repr
def rawPlace : Place := ⟨0, 0, false⟩
def palPlace (p : BitVec 7) : Place := ⟨(p.extractLsb' 0 4).toNat, p.extractLsb' 4 3, true⟩
def facePal (pl : Palettes) (l : Nat) (b : Bool) (bank : Nat) : BitVec 7 :=
  pl.face.toList.getD (64 * l + (if b then 32 else 0) + bank) 0
def placeOf (s : State) (m : Cmd) (t : Target) : Place :=
  match keySpace s t.key with
  | .scratch _ off => if t.isLocal then palPlace (m.pals.scr.toList.getD (off / 0x10_0000) 0) else rawPlace
  | .face _ l b off => if t.isLocal then palPlace (facePal m.pals l b (off / 0x4_0000)) else rawPlace
  | .hbm _ | .host | .cxl | .peer .. => ⟨m.mfmt, 0, false⟩
  | _ => rawPlace
def placeAt (s : State) (c : CubeId) (m : Cmd) (need : Need) (va : VA) : Except EngErr Place :=
  match engTarget s c m need va with
  | .error e => .error e
  | .ok t => .ok (placeOf s m t)
/-- The bank of a local address in scratch or a face: its size, the address of its first byte, and the offset in it. -/
def bankOf (va : VA) : Option (Nat × VA × Nat) :=
  let o := va.toNat % 2 ^ 44
  if va.extractLsb' 44 8 ≠ 0xFF then none
  else if o < accOffset then some (0x10_0000, va - BitVec.ofNat 52 (o % 0x10_0000), o % 0x10_0000)
  else if 0x1000_0000 ≤ o ∧ o < 0x2000_0000 then some (0x4_0000, va - BitVec.ofNat 52 (o % 0x4_0000), o % 0x4_0000)
  else none
/-- A region of an MX bank lies in the data area of one bank, from an aligned offset (R66). -/
def mxRegionOk (f : Nat) (base : VA) (vas : List VA) : Bool :=
  match bankOf base with
  | none => false
  | some (n, b, o) => o % mxAlign f == 0 && vas.all fun v =>
      match bankOf v with
      | some (_, b', o') => b' == b && decide (o' < n / 16 * 15)
      | none => false
/-- The strip byte of (row i, block k) of an MX bank (R66). -/
def stripVA (bank : VA) (size i k : Nat) : VA := bank + BitVec.ofNat 52 (size / 16 * 15 + k * 64 + i)

/-! ### Elements -/

/-- Byte offsets that hold element n of packed elements of b bits. -/
def packedBytes (b n : Nat) : List Nat :=
  let lo := n * b / 8
  (List.range ((n * b + b - 1) / 8 - lo + 1)).map (lo + ·)
def packedElem (f : MxFmt) (n : Nat) (bs : List Byte) : Int := sint f.bits (packLE bs / 2 ^ (n * f.bits % 8))
/-- Reads of element e of a row of E elements in a format, given the address of byte k of the row, and its value. -/
def rowElem (f E : Nat) (at_ : Nat → VA) (e : Nat) : List VA × (List Byte → FVal) :=
  match fmtMx f, fmtNum f with
  | some mx, _ =>
    let ks := packedBytes mx.bits e
    ((ks ++ [E * mx.bits / 8 + e / 32]).map at_, fun bs =>
      mxDecode mx (packedElem mx e (bs.take ks.length)) (bs.getD ks.length 0).toNat)
  | none, some nf =>
    let w := nf.bytes
    ((List.range w).map fun k => at_ (e * w + k), fun bs => decodeNum nf (packLE bs))
  | none, none => ([at_ e], fun _ => .fin false 0 0)
/-- The chunk of a data-area offset of an MX bank: its row and its block (R66). -/
def chunkPlace (f off : Nat) : Nat × Nat :=
  match entryLayout f with
  | some (lam, g) => let c := off / g; (c % 64, c / 64 * lam / 32)
  | none => (0, 0)
/-- The same for element e of a row in an MX bank: its scale stands in the strip, for the place of the element's first byte. -/
def bankElem (f : Nat) (at_ : Nat → VA) (e : Nat) : List VA × (List Byte → FVal) :=
  match fmtMx f, bankOf (at_ (e * fmtBits f / 8)) with
  | some mx, some (size, b, o) =>
    let ks := packedBytes mx.bits e
    let pl := chunkPlace f o
    (ks.map at_ ++ [stripVA b size pl.1 pl.2], fun bs =>
      mxDecode mx (packedElem mx e (bs.take ks.length)) (bs.getD ks.length 0).toNat)
  | _, _ => ([at_ 0], fun _ => .fin false 0 0)

def traversal (planes rows n : Nat) : List (Nat × Nat × Nat) :=
  (List.range planes).flatMap fun z => (List.range rows).flatMap fun r => (List.range n).map fun e => (z, r, e)
/-- Noise of element number e of a copy (R263, R78). -/
def copyNoise (seed : Word) (m : Cmd) (e : Nat) : Nat := engineNoise seed (m.tag.setWidth 64) e

/-- How a copy converts: formats, rounding mode and the generator's seed. -/
structure Conv where
  s : Place
  d : Place
  mode : RMode
  seed : Word
deriving DecidableEq, Repr
def Conv.plain (v : Conv) : Bool := v.s.fmt == 0 || v.d.fmt == 0 || v.s.fmt == v.d.fmt
def convOf (m : Cmd) (a b : Place) : Conv :=
  ⟨a, b, if m.srF then .sr else if b.bank then RMode.ofCode b.rnd else .rne, m.seed⟩
def Conv.noise (v : Conv) (m : Cmd) (e : Nat) : Nat := if v.mode == .sr then copyNoise v.seed m e else 0

/-- Elements of a row, and the bytes of a row on each side (R261). -/
def rowElems (m : Cmd) (v : Conv) : Nat := m.rowBytes * 8 / fmtBits v.s.fmt
/-- A source in memory in an MX format holds row records, which move whole (R65, R261). -/
def recordFmt (v : Conv) : Option Nat := if isMx v.s.fmt && !v.s.bank then some v.s.fmt else none
def srcRowBytes (m : Cmd) (v : Conv) : Nat :=
  match recordFmt v with
  | some f => recordBytes f (m.rowBytes * 8 / fmtBits f)
  | none => m.rowBytes
def dstRowBytes (m : Cmd) (v : Conv) : Nat :=
  if v.plain then srcRowBytes m v
  else
    let e := rowElems m v
    if isMx v.d.fmt && !v.d.bank then recordBytes v.d.fmt e else e * fmtBits v.d.fmt / 8

/-- The replicated addresses of a run of bytes of a row, layer after layer. -/
def runVAs (dd : Side) (z r k n : Nat) : List VA :=
  let per := (List.range n).map fun j => dd.byteVAs z r (k + j)
  (List.range ((per.headD []).length)).flatMap fun l => per.map fun vs => vs.getD l 0
def repeatBytes (times : Nat) (bs : List Byte) : List Byte := (List.range times).flatMap fun _ => bs
/-- The rows of a traversal: plane and row. -/
def rowPairs (planes rows : Nat) : List (Nat × Nat) :=
  (List.range planes).flatMap fun z => (List.range rows).map fun r => (z, r)
/-- Addresses in groups of n. -/
def groupsOf (n : Nat) (vs : List VA) : List (List VA) := (List.range (vs.length / n)).map fun l => (vs.drop (l * n)).take n
/-- Bytes of an element that moves unchanged: 2 or 4, or one of any other format (R261). -/
def moveWidth (v : Conv) : Nat :=
  let w := fmtBits v.s.fmt / 8
  if w = 2 ∨ w = 4 then w else 1
/-- Elements of w bytes copied unchanged. -/
def byteElems (sd dd : Side) (rws : List (Nat × Nat)) (n w : Nat) : List Elem :=
  rws.flatMap fun zr => (List.range (n / w)).map fun e =>
    let ds := runVAs dd zr.1 zr.2 (e * w) w
    ⟨(List.range w).map fun j => sd.byteVA zr.1 zr.2 (e * w + j), ds, repeatBytes (ds.length / w), groupsOf w ds⟩
/-- Values read for element e of row (z, r). -/
def srcElem (sd : Side) (v : Conv) (E z r e : Nat) : List VA × (List Byte → FVal) :=
  if isMx v.s.fmt && v.s.bank then bankElem v.s.fmt (sd.byteVA z r) e
  else rowElem v.s.fmt E (sd.byteVA z r) e
/-- The values of elements read together. -/
def valuesOf (srcs : List (List VA × (List Byte → FVal) × Nat)) (bs : List Byte) : List FVal :=
  (srcs.foldl (fun (a : List Byte × List FVal) x => (a.1.drop x.1.length, a.2 ++ [x.2.1 (a.1.take x.1.length)])) (bs, [])).2
/-- The bytes of 32 packed elements, each the part of an element of one of the layers that a write goes to. -/
def blockParts (mx : MxFmt) (outs : List (List VA)) : List (List VA) :=
  outs.flatMap fun ws => (List.range 32).map fun i => (packedBytes mx.bits i).filterMap fun k => ws[k]?
/-- A block of 32 elements quantised together: what it reads and the 33 results (R79), written in each layer of a face spool. -/
def blockElem (m : Cmd) (v : Conv) (srcs : List (List VA × (List Byte → FVal) × Nat)) (mx : MxFmt) (outs : List (List VA)) : Elem :=
  { reads := srcs.flatMap fun x => x.1
    writes := outs.flatten
    make := fun bs =>
      let p := mxQuant mx (valuesOf srcs bs) v.mode fun i => v.noise m ((srcs.map fun x => x.2.2).getD i 0)
      repeatBytes outs.length (bytesLE (32 * mx.bits / 8) (mxPack mx p.2) ++ [BitVec.ofNat 8 p.1])
    parts := (srcs.map fun x => x.1) ++ blockParts mx outs }
/-- An element of an MX bank that a copy writes: its bytes there, its first bit in the first of them, and where its value comes
from: the bytes that it reads, what it makes of them, and its number for the noise. -/
structure BankElem where
  bytes : List VA
  bit : Nat
  reads : List VA
  val : List Byte → FVal
  num : Nat
/-- Of elements that land on one place the last one stays (R261, R264). -/
def lastElems : List (BankElem × FVal) → List (BankElem × FVal)
  | [] => []
  | e :: t => if t.any fun u => u.1.bytes == e.1.bytes && u.1.bit == e.1.bit then lastElems t else e :: lastElems t
/-- The byte at an address of elements of b bits. -/
def packAt (b : Nat) (es : List (BankElem × Int)) (a : VA) : Byte :=
  BitVec.ofNat 8 (es.foldl (fun n e =>
    let j := e.1.bytes.findIdx fun x => x == a
    if j < e.1.bytes.length then n + intBits b e.2 * 2 ^ e.1.bit / 2 ^ (8 * j) else n) 0)
/-- What a copy writes of a block of an MX bank: the elements of it that it covers, whatever their rows, and the scale of the block
with the others counted as zero (R70, R79); in each layer of a face spool. -/
def bankBlock (m : Cmd) (v : Conv) (mx : MxFmt) (els : List BankElem) (strip : VA) (layers : List VA) : Elem :=
  let as := (els.flatMap BankElem.bytes).eraseDups
  { reads := els.flatMap BankElem.reads
    writes := layers.flatMap fun d => (as ++ [strip]).map fun a => a + d
    make := fun bs =>
      let kept := lastElems (els.zip (valuesOf (els.map fun e => (e.reads, e.val, e.num)) bs))
      let p := mxQuant mx (kept.map Prod.snd) v.mode fun i => v.noise m ((kept.map fun e => e.1.num).getD i 0)
      repeatBytes layers.length (as.map (packAt mx.bits ((kept.map Prod.fst).zip p.2)) ++ [BitVec.ofNat 8 p.1])
    parts := els.map BankElem.reads ++ layers.flatMap fun d => els.map fun e => e.bytes.map fun a => a + d }
/-- How far each layer of a face spool lies from the first; 0 alone for any other side. -/
def Side.layerSteps (sd : Side) : List VA := (sd.byteVAs 0 0 0).map fun a => a - sd.byteVA 0 0 0
/-- Elements of a converting copy. -/
def convElems (m : Cmd) (v : Conv) (sd dd : Side) (rws : List (Nat × Nat)) : List Elem :=
  let E := rowElems m v
  match fmtMx v.d.fmt, fmtNum v.d.fmt with
  | none, some nf =>
    rws.flatMap fun zr => (List.range E).map fun e =>
      let x := srcElem sd v E zr.1 zr.2 e
      let ds := runVAs dd zr.1 zr.2 (e * nf.bytes) nf.bytes
      ⟨x.1, ds, fun bs => repeatBytes (ds.length / nf.bytes)
        (bytesLE nf.bytes (encode nf v.mode (v.noise m ((zr.1 * m.rows + zr.2) * E + e)) (x.2 bs))), groupsOf nf.bytes ds⟩
  | some mx, _ =>
    if v.d.bank then
      -- blocks of the bank, in the order of their first element
      let all := rws.flatMap fun zr => (List.range E).filterMap fun e =>
        let at_ := dd.byteVA zr.1 zr.2
        (bankOf (at_ (e * mx.bits / 8))).map fun p =>
          let x := srcElem sd v E zr.1 zr.2 e
          ((p.2.1, p.1, chunkPlace v.d.fmt p.2.2),
            (⟨(packedBytes mx.bits e).map at_, e * mx.bits % 8, x.1, x.2, (zr.1 * m.rows + zr.2) * E + e⟩ : BankElem))
      ((all.map fun a => a.1).eraseDups).map fun pl =>
        bankBlock m v mx ((all.filter fun a => a.1 == pl).map Prod.snd) (stripVA pl.1 pl.2.1 pl.2.2.1 pl.2.2.2) dd.layerSteps
    else
      rws.flatMap fun zr => (List.range (E / 32)).flatMap fun k =>
        let srcs := (List.range 32).map fun i =>
          let x := srcElem sd v E zr.1 zr.2 (32 * k + i)
          (x.1, x.2, (zr.1 * m.rows + zr.2) * E + 32 * k + i)
        let nb := 32 * mx.bits / 8
        let data := (List.range nb).map fun j => dd.byteVA zr.1 zr.2 (k * nb + j)
        let blk := blockElem m v srcs mx [data ++ [dd.byteVA zr.1 zr.2 (E * mx.bits / 8 + k)]]
        if (k + 1) * 32 = E then
          let used := E * mx.bits / 8 + E / 32
          let pad := recordBytes v.d.fmt E - used
          [blk, .plain [] ((List.range pad).map fun j => dd.byteVA zr.1 zr.2 (used + j)) fun _ => List.replicate pad 0]
        else [blk]
  | none, none => []
/-- The first occurrence of each second component. -/
def firstOf {α β : Type} [BEq β] (l : List (α × β)) : List (α × β) :=
  l.foldl (fun acc a => if acc.any fun b => b.2 == a.2 then acc else acc ++ [a]) []
/-- A place in an MX bank: the bank, its size, and the row and block in it. -/
abbrev MxPlace := VA × Nat × Nat × Nat
def mxPlace (f : Nat) (va : VA) : Option MxPlace :=
  (bankOf va).map fun p => (p.2.1, p.1, chunkPlace f p.2.2)
def MxPlace.strip (p : MxPlace) : VA := stripVA p.1 p.2.1 p.2.2.1 p.2.2.2
/-- The blocks that a copy between banks of one MX format moves, in order of their first byte: from where, to where, and the number
of the byte with which the block is moved in full, if it is (R262). -/
def movedBlocks (f : Nat) (pairs : List (VA × VA)) : List (MxPlace × MxPlace × Option Nat) :=
  let whole := match entryLayout f with | some (lam, g) => 32 / lam * g | none => 0
  let moved := (pairs.mapIdx fun i p => (i, p)).filterMap fun x =>
    match mxPlace f x.2.1, mxPlace f x.2.2 with
    | some a, some b => some ((a, b), x)
    | _, _ => none
  ((moved.map Prod.fst).eraseDups).map fun ab =>
    let mine := firstOf ((moved.filter fun y => y.1 == ab).map fun y => (y.2.1, y.2.2.2))
    let srcs := (((moved.filter fun y => y.1 == ab).map fun y => y.2.2.1).eraseDups).length
    (ab.1, ab.2, if mine.length = whole ∧ srcs = whole then (mine.map Prod.fst).max? else none)
/-- The bytes of a copy between banks of one MX format, each block's scale behind its last byte, in each layer of a face spool
(R262). -/
def withScales (f : Nat) (sd dd : Side) (rws : List (Nat × Nat)) (n : Nat) : List Elem :=
  let pairs := rws.flatMap fun zr => (List.range n).map fun k => (sd.byteVA zr.1 zr.2 k, dd.byteVA zr.1 zr.2 k)
  let blocks := movedBlocks f pairs
  (byteElems sd dd rws n 1).mapIdx (fun i u => u :: (blocks.filter fun b => b.2.2 == some i).map fun b =>
    let dst := dd.layerSteps.map fun d => b.2.1.strip + d
    ⟨[b.1.strip], dst, repeatBytes dst.length, dst.map fun v => [v]⟩) |>.flatten
/-- Every block that such a copy moves is moved in full (R262). -/
def scalesWhole (f : Nat) (sd dd : Side) (rws : List (Nat × Nat)) (n : Nat) : Bool :=
  (movedBlocks f (rws.flatMap fun zr => (List.range n).map fun k => (sd.byteVA zr.1 zr.2 k, dd.byteVA zr.1 zr.2 k))).all
    fun b => b.2.2.isSome

/-! ### Starting a copy -/

/-- What a command's sides are once their formats are known. -/
structure Plan where
  conv : Conv
  planes : Nat
  elems : Nat
  srcRow : Nat
  dstRow : Nat
deriving DecidableEq, Repr
/-- The first entry of a side's spool: the one that the command has reserved, or the next to reserve. -/
def firstEntry (s : State) (m : Cmd) (read : Bool) (n : Nat) : Nat :=
  let sp := strandSpool s m.sid n
  match (if read then m.took else m.res).find? fun r => r.1 == n with
  | some r => r.2.1
  | none => if read then sp.nextC else sp.nextP
/-- First byte of a side, for its format. -/
def firstVA (s : State) (m : Cmd) (read : Bool) : AddrForm → VA
  | .va a => a
  | .spool n l0 => ((strandSpool s m.sid n).byteVAs [l0] (firstEntry s m read n) 0).headD 0
  | .bad => 0
def planesOf (m : Cmd) : Nat := if copyOpOf m = .threed then m.planesF else 1
/-- The place of a side. One whose first byte does not translate counts as memory: the command starts, and meets the error at
its first element (R275, log entry 23). -/
def placeOr (m : Cmd) : Except EngErr Place → Place
  | .ok p => p
  | .error _ => ⟨m.mfmt, 0, false⟩
/-- An index list entry (R269): the low 52 bits of its word (DESIGN CHOICE, log entry 138). -/
def indexAt (s : State) (c : CubeId) (m : Cmd) (list : Word) (r : Nat) : Except EngErr VA :=
  let va : VA := list.setWidth 52 + BitVec.ofNat 52 (8 * r)
  match engBytes s c m (vaRange va 8) with
  | .error e => .error (e.low [va])
  | .ok bs => .ok (BitVec.ofNat 52 (packLE bs))
/-- The same entry as memory and its page now stand, whatever the engine has at hand. -/
def indexNow (s : State) (c : CubeId) (m : Cmd) (list : Word) (r : Nat) : Except EngErr VA :=
  let bs := (vaRange (list.setWidth 52 + BitVec.ofNat 52 (8 * r)) 8).filterMap fun v =>
    match resolve s (cmdAgent s c m) v with
    | .ok t => some (readByte s m.sid c false t.key)
    | .fault _ => none
  if bs.length = 8 then .ok (BitVec.ofNat 52 (packLE bs)) else .error (engErr 1 (list.setWidth 52))
/-- A place in HBM, on a peer, in host or CXL memory; one that does not translate counts as memory. -/
def isMemory (s : State) (c : CubeId) (m : Cmd) (need : Need) (va : Except EngErr VA) : Bool :=
  match va.bind (engTarget s c m need) with
  | .ok t => (match keySpace s t.key with | .hbm _ | .host | .cxl | .peer .. => true | _ => false)
  | .error _ => true
/-- Elements of 2 or 4 bytes lie at multiples of their width (R261). -/
def aligned (f : Nat) (base : VA) (strides : List Int) : Bool :=
  let n := fmtBits f / 8
  (n != 2 && n != 4) || (base.toNat % n == 0 && strides.all fun d => d % n == 0)
/-- The strides that a side's rows use: one row uses none. -/
def usedStrides (m : Cmd) (row plane : Int) : List Int :=
  (if m.rows ≤ 1 then [] else [row]) ++ if planesOf m ≤ 1 then [] else [plane]
/-- What an index list has to wait for (R10, R104). -/
def listWalk (e : Except EngErr VA) : Option EngErr :=
  match e with
  | .error e => if e.waits then some e else none
  | .ok _ => none
/-- The formats of a copy, checked by R261 and R262. A side has one format, that of the bank of its first byte, and `cpy.mcast` the
palette of the issuer's own bank (DESIGN CHOICE, log entry 99). `first` gives the first row that an index list names. -/
def copyPlanBy (first : Word → Except EngErr VA) (s : State) (c : CubeId) (m : Cmd) : Except EngErr Plan :=
  let op := copyOpOf m
  let need : Need := if op = .gatheradd then .both else .write
  let srcVA : Except EngErr VA := if isGather op then first (m.dw 0) else .ok (firstVA s m true (srcForm m))
  let dstVA : Except EngErr VA := if op = .scatter then first (m.dw 1) else .ok (firstVA s m false (dstForm m))
  let a : Place := if op = .fill then rawPlace else placeOr m (srcVA.bind (placeAt s c m .read))
  let b : Place := placeOr m (dstVA.bind (placeAt s c m need))
  let v := convOf m a b
  let p : Plan := ⟨v, planesOf m, rowElems m v, srcRowBytes m v, dstRowBytes m v⟩
  let bad := engErr 0x0C 0
  let onVA (f : AddrForm) (fmt : Nat) (ds : List Int) : Bool := match f with
    | .va x => aligned fmt x ds
    | .spool n _ => aligned fmt (BitVec.ofNat 52 (strandSpool s m.sid n).base) []
    | .bad => true
  match (listWalk srcVA).or (listWalk dstVA) with
  | some e => .error e
  | none =>
  if 12 ≤ m.mfmt then .error bad
  else if a.bank ∧ b.bank ∧ m.mfmt ≠ 0 then .error (engErr 7 0)
  else if m.rowBytes * 8 % fmtBits a.fmt ≠ 0 then .error bad
  else if (isMx a.fmt ∨ (isMx b.fmt ∧ a.fmt ≠ 0)) ∧ p.elems % 32 ≠ 0 then .error bad
  else if isMx a.fmt && a.bank && !b.bank && isMemory s c m need dstVA then .error bad
  else if isMx b.fmt ∧ b.bank ∧ !a.bank ∧ a.fmt ≠ 0 then .error bad
  else if op = .gatheradd ∧ (b.fmt ≠ 1 ∨ a.fmt = 0) then .error bad
  else if !v.plain ∧ !(op == .fill || isGather op || onVA (srcForm m) a.fmt (usedStrides m m.sstride m.spstride)) then
    .error (engErr 7 0)
  else if !v.plain ∧ !(op == .scatter || onVA (dstForm m) b.fmt (usedStrides m m.dstride m.dpstride)) then .error (engErr 7 0)
  else .ok p
def copyPlan (s : State) (c : CubeId) (m : Cmd) : Except EngErr Plan := copyPlanBy (fun l => indexAt s c m l 0) s c m
/-- Entries that a spool side needs: a whole number from 1 to its capacity, or none (R260). -/
def entriesNeeded (sp : Spool) (bytes : Nat) : Option Nat :=
  let n := bytes / sp.esize
  if bytes % sp.esize = 0 ∧ 1 ≤ n ∧ n ≤ sp.cap then some n else none
/-- The spool entries that a command reserves when it starts. -/
inductive SpoolWait where
  | bad
  | wait
  | ok (res took : List (Nat × Nat × Nat))
deriving DecidableEq, Repr
/-- Reservation of the spools of a copy whose sides move the given bytes (R260). -/
def reserveSpools (s : State) (m : Cmd) (sf df : AddrForm) (srcN dstN : Spool → Option Nat) : SpoolWait :=
  let src : SpoolWait := match sf with
    | .spool n _ =>
      let sp := strandSpool s m.sid n
      (match srcN sp with
       | none => .bad
       | some k => if k ≤ sp.unreserved then .ok [] [(n, sp.nextC, k)] else .wait)
    | _ => .ok [] []
  let dst : SpoolWait := match df with
    | .spool n _ =>
      let sp := strandSpool s m.sid n
      (match dstN sp with
       | none => .bad
       | some k => if k ≤ sp.free then .ok [(n, sp.nextP, k)] [] else .wait)
    | _ => .ok [] []
  match src, dst with
  | .bad, _ => .bad
  | _, .bad => .bad
  | .wait, _ => .wait
  | _, .wait => .wait
  | .ok _ t, .ok r _ => .ok r t
/-- A command starts with its reservations made; it reads the noise seed now (R277). -/
def startCmd (s : State) (c : CubeId) (m : Cmd) (res took : List (Nat × Nat × Nat)) : State :=
  let s := res.foldl (fun s r => modSpool s m.sid r.1 fun sp => sp.reserve r.2.2) s
  let s := took.foldl (fun s r => modSpool s m.sid r.1 fun sp => sp.take r.2.2) s
  s.modCube c fun k => k.modCmd m.id fun q => { q with status := .started, res := res, took := took, seed := k.eng.cpySeed }
/-- Members of the strand's train on the cubes of a set (R267): cube and strand. -/
def trainOf (s : State) (sid : Nat) : Option Train := s.atl.trains.find? fun t => t.members.contains sid
def mcastTargets (s : State) (m : Cmd) : List (CubeId × Ctx) :=
  match trainOf s m.sid with
  | none => []
  | some t => (List.finRange 8).flatMap fun c =>
      if (m.dw 1).getLsbD (52 + c.val) then
        ((s.cube c).contexts.filter fun x => t.members.contains x.sid).map fun x => (c, x)
      else []
/-- The offsets of a mcast lie in every target's partition, and every cube of the set has a target (R267). -/
def mcastOk (s : State) (m : Cmd) (row : Nat) : Bool :=
  let ts := mcastTargets s m
  let o : Int := ((m.dw 1).toNat % 2 ^ 44 : Nat)
  let last : Int := (m.rows - 1 : Nat) * m.dstride
  let lo := o + min 0 last
  let hi := o + max 0 last + row - 1
  (trainOf s m.sid).isSome && (List.finRange 8).all (fun c => !(m.dw 1).getLsbD (52 + c.val) || ts.any fun t => t.1 == c) &&
  (m.dw 1).extractLsb' 44 8 == 0xFF &&
  decide (0 ≤ lo) && ts.all fun t => match localOffset t.2.part lo.toNat, localOffset t.2.part hi.toNat with
    | some a, some b => (b : Int) == a + (hi - lo)
    | _, _ => false
/-- The targets that a started mcast has resolved. -/
def mcastResolved (s : State) (m : Cmd) : List (CubeId × Ctx) :=
  (List.finRange 8).flatMap fun c => ((s.cube c).contexts.filter fun x => m.ents.contains x.sid).map fun x => (c, x)
/-- A member on a cube of the set that is being admitted or evicted holds the resolution. -/
def mcastHeld (s : State) (m : Cmd) : Bool :=
  (mcastTargets s m).any fun t => t.2.status == .evicting || t.2.status == .starting
def copyFormBytes (m : Cmd) (p : Plan) (row : Nat) : Nat := p.planes * m.rows * row
/-- The format of a row of lsplit or lgath: its place's, or the face format where that is RAW (R266). -/
def rowFmt (face row : Place) : Nat := if row.fmt = 0 then face.fmt else row.fmt
/-- A side of a copy that it reads or writes, with rows of a size. -/
def sideOf (s : State) (m : Cmd) (read : Bool) (f : AddrForm) (rs ps : Int) (row rowsPer : Nat) : Side :=
  match f with
  | .va a => .rows a rs ps
  | .spool n l0 => .spool (strandSpool s m.sid n) (firstEntry s m read n) ((List.range (m.layersF + 1)).map (l0 + ·)) row rowsPer
  | .bad => .rows 0 0 0
/-- Bytes of rows of a side that show which banks it touches in layer l: the ends of each row, and one in every 256 KiB or spool
entry of it. -/
def Side.probe (sd : Side) (rws : List (Nat × Nat)) (n l : Nat) : List VA :=
  let gap := match sd with | .spool sp .. => min 0x4_0000 (max 1 sp.esize) | .rows .. | .list _ => 0x4_0000
  rws.flatMap fun zr => (List.range (n / gap + 2)).filterMap fun k => (sd.byteVAs zr.1 zr.2 (min (k * gap) (n - 1)))[l]?
/-- The MX format of the first bank among addresses that has one. -/
def firstMx (s : State) (c : CubeId) (m : Cmd) (need : Need) (vas : List VA) : Option Nat :=
  vas.findSome? fun v => match bankOf v, placeAt s c m need v with
    | some _, .ok p => if p.bank && isMx p.fmt then some p.fmt else none
    | _, _ => none
/-- Rows of a side obey R66: where they touch an MX bank, in any layer, they lie in its data area, from an aligned base. -/
def mxBanksOk (s : State) (c : CubeId) (m : Cmd) (need : Need) (sd : Side) (rws : List (Nat × Nat)) (n : Nat) : Bool :=
  ((sd.byteVAs 0 0 0).mapIdx fun l base =>
    match firstMx s c m need (sd.probe rws n l) with
    | none => true
    | some f => mxRegionOk f base (sd.probe rws n l)).all id
/-- Rows of a side touch an MX bank in some layer. -/
def touchesMx (s : State) (c : CubeId) (m : Cmd) (need : Need) (sd : Side) (rws : List (Nat × Nat)) (n : Nat) : Bool :=
  ((sd.byteVAs 0 0 0).mapIdx fun l _ => (firstMx s c m need (sd.probe rws n l)).isSome).any id
/-- Elements of a row of lsplit or lgath, with the checks of R261, R262 and R266; the faces are those of layer l0 onwards. -/
def splitElems (m : Cmd) (faces : List Place) (row : Place) : Except EngErr Nat :=
  let face := faces.headD rawPlace
  let f := if copyOpOf m = .lgath then face.fmt else rowFmt face row
  let E := m.rowBytes * 8 / fmtBits f
  if row.bank ∧ m.mfmt ≠ 0 then .error (engErr 7 0)
  else if faces.any (fun p => (entryLayout p.fmt).isNone) ∨ (isMx row.fmt ∧ row.bank) ∨ 12 ≤ m.mfmt ∨
      (row.fmt = 0 ∧ faces.any fun p => p.fmt != face.fmt) then .error (engErr 0x0C 0)
  else if m.rowBytes * 8 % fmtBits f ≠ 0 ∨ ((isMx face.fmt ∨ isMx row.fmt) ∧ E % 32 ≠ 0) then .error (engErr 0x0C 0)
  else if E % (m.layersF + 1) ≠ 0 then .error (engErr 7 0)
  else if faces.any (fun p => isMx p.fmt) ∧ E / (m.layersF + 1) % 32 ≠ 0 then .error (engErr 0x0C 0)
  else .ok E
/-- The face side of lsplit or lgath: first layer and face offset of the entry. -/
def faceSide (s : State) (m : Cmd) (read : Bool) : AddrForm → Option (Nat × Nat)
  | .va a =>
    let o := a.toNat % 2 ^ 44
    if a.extractLsb' 44 8 = 0xFF ∧ 0x1000_0000 ≤ o ∧ o < 0x2000_0000 ∧ (o - 0x1000_0000) % 0x0200_0000 < 0x0100_0000 then
      some ((o - 0x1000_0000) / 0x0200_0000, (o - 0x1000_0000) % 0x0200_0000)
    else none
  | .spool n l0 =>
    let sp := strandSpool s m.sid n
    if sp.region = 2 then some (l0, sp.entryOff (firstEntry s m read n)) else none
  | .bad => none
/-- The entry of one layer: one palette over the banks that it touches, and an MX entry in one bank's data area (R266). -/
def faceEntryOk (s : State) (c : CubeId) (m : Cmd) (need : Need) (l o kd : Nat) (p : Place) : Bool :=
  match entryLayout p.fmt with
  | none => false
  | some (lam, g) =>
    let span := entrySpan lam g kd
    (List.range (ceilDiv (o % 0x4_0000 + span) 0x4_0000)).all (fun b =>
      b == 0 || (match placeAt s c m need (faceVA l (o / 0x4_0000 * 0x4_0000 + b * 0x4_0000)) with
        | .ok q => q == p
        | .error _ => true)) &&
      (!isMx p.fmt || mxRegionOk p.fmt (faceVA l o) [faceVA l o, faceVA l (o + span - 1)])
def faceSpan (kd : Nat) (p : Place) : Nat := match entryLayout p.fmt with | some (lam, g) => entrySpan lam g kd | none => 0
/-- Row bytes of the row-major side of lsplit or lgath. -/
def splitRow (faces : List Place) (rp : Place) (E : Nat) : Nat :=
  let f := rowFmt (faces.headD rawPlace) rp
  if isMx f then recordBytes f E else E * fmtBits f / 8
/-- The row-major side of lsplit or lgath. -/
def rowSide (s : State) (m : Cmd) (row : Nat) : Side :=
  if copyOpOf m = .lsplit then sideOf s m true (srcForm m) m.sstride 0 row m.rows
  else sideOf s m false (dstForm m) m.dstride 0 row m.rows
/-- The checked shape of lsplit and lgath: first layer, face offset, the face places layer by layer, the row place and E. -/
def splitPlan (s : State) (c : CubeId) (m : Cmd) : Except EngErr (Nat × Nat × List Place × Place × Nat) :=
  let toFace := copyOpOf m == .lsplit
  let ff := if toFace then dstForm m else srcForm m
  let rf := if toFace then srcForm m else dstForm m
  match faceSide s m (!toFace) ff with
  | none => .error (engErr 7 0)
  | some (l0, o) =>
    if 7 < l0 + m.layersF then .error (engErr 7 0)
    else
      let need : Need := if toFace then .write else .read
      match placeAt s c m need (faceVA l0 o) with
      | .error e => .error e
      | .ok fp =>
        let faces := (List.range (m.layersF + 1)).map fun k =>
          match placeAt s c m need (faceVA (l0 + k) o) with | .ok p => p | .error _ => fp
        let rp := placeOr m (placeAt s c m (if toFace then .read else .write) (firstVA s m toFace rf))
        match splitElems m faces rp with
        | .error e => .error e
        | .ok E =>
          let kd := E / (m.layersF + 1)
          let fits := match ff with
            | .spool n _ => faces.all fun p => decide (faceSpan kd p ≤ (strandSpool s m.sid n).esize)
            | _ => true
          let rf' := rowFmt (faces.headD rawPlace) rp
          let rowAt := match rf with
            | .va x => aligned rf' x (usedStrides m (if toFace then m.sstride else m.dstride) 0)
            | .spool n _ => aligned rf' (BitVec.ofNat 52 (strandSpool s m.sid n).base) []
            | .bad => true
          if !(faces.mapIdx fun k p => faceEntryOk s c m need (l0 + k) o kd p).all id then .error (engErr 0x0C 0)
          else if faces.any (fun p => p.fmt != rf' && !(rowAt && aligned p.fmt (BitVec.ofNat 52 o) [])) then .error (engErr 7 0)
          else if !fits then .error (engErr 7 0)
          else if touchesMx s c m (if toFace then .read else .write) (rowSide s m (splitRow faces rp E)) (rowPairs 1 m.rows)
              (splitRow faces rp E) then .error (engErr 0x0C 0)
          else .ok (l0, o, faces, rp, E)
def isSplit (op : CopyOp) : Bool := op == .lsplit || op == .lgath

/-! ### Completing a copy -/

/-- Rows of lin, twod, threed, mcast, gather or scatter obey R66 on both sides. -/
def plainOk (s : State) (c : CubeId) (m : Cmd) (v : Conv) (sd dd : Side) (rws : List (Nat × Nat)) (n : Nat) : Bool :=
  mxBanksOk s c m .read sd rws m.rowBytes &&
    mxBanksOk s c m .write dd rws (if v.plain then n else rowElems m v * fmtBits v.d.fmt / 8)
/-- A copy between banks of one MX format, which moves whole blocks (R262). -/
def Conv.blocks (v : Conv) : Bool := isMx v.s.fmt && v.s.bank && v.d.bank && v.s.fmt == v.d.fmt
/-- The elements of these rows. -/
def rowsElems (m : Cmd) (v : Conv) (sd dd : Side) (rws : List (Nat × Nat)) (n : Nat) : List Elem :=
  if v.blocks then withScales v.s.fmt sd dd rws n
  else if v.plain then byteElems sd dd rws n (moveWidth v)
  else convElems m v sd dd rws
def rowsWhole (v : Conv) (sd dd : Side) (rws : List (Nat × Nat)) (n : Nat) : Bool :=
  !v.blocks || scalesWhole v.s.fmt sd dd rws n
def plainElems (s : State) (c : CubeId) (m : Cmd) (v : Conv) (sd dd : Side) (rws : List (Nat × Nat)) (n : Nat) :
    Except EngErr (List Elem) :=
  if plainOk s c m v sd dd rws n && rowsWhole v sd dd rws n then .ok (rowsElems m v sd dd rws n) else .error (engErr 0x0C 0)
def fillElems (s : State) (c : CubeId) (m : Cmd) (dd : Side) : Except EngErr (List Elem) :=
  if !mxBanksOk s c m .write dd (rowPairs 1 m.rows) m.rowBytes then .error (engErr 0x0C 0)
  else .ok ((traversal 1 m.rows m.rowBytes).map fun (z, r, k) =>
    .plain [] (dd.byteVAs z r k) fun _ => [wordByte (m.dw 0) (k % 8)])
/-- What a command does element by element: its elements in order, the error met after them, and the source bytes that stay
unread behind that error. -/
structure Work where
  elems : List Elem
  rest : List VA
  err : Option EngErr
/-- The rows that an index list names, from row r, up to the first whose entry cannot be read or that breaks a rule (R269). -/
def indexRows (s : State) (c : CubeId) (m : Cmd) (v : Conv) (gather : Bool) (sd dd : Side) (n : Nat) :
    Nat → Nat → List VA × Option EngErr
  | 0, _ => ([], none)
  | k + 1, r =>
    match indexAt s c m (m.dw (if gather then 0 else 1)) r with
    | .error e => ([], some e)
    | .ok va =>
      let at_ : Side := .rows va 0 0
      if !v.plain ∧ !aligned (if gather then v.s.fmt else v.d.fmt) va [] then ([], some (engErr 7 va))
      else if !plainOk s c m v (if gather then at_ else sd) (if gather then dd else at_) [(0, r)] n then ([], some (engErr 0x0C va))
      else
        let w := indexRows s c m v gather sd dd n k (r + 1)
        (va :: w.1, w.2)
/-- The rows of a gather or scatter, up to the first that fails: noise continues over them, and the blocks of an MX bank take the
elements of all of them (R70, R263, R269). -/
def indexedElems (s : State) (c : CubeId) (m : Cmd) (v : Conv) (gather : Bool) (sd dd : Side) (n : Nat) : Work :=
  let x := indexRows s c m v gather sd dd n m.rows 0
  let rws := (List.range x.1.length).map fun r => (0, r)
  let a := if gather then .list x.1 else sd
  let b := if gather then dd else .list x.1
  let source (first : Nat) : List VA :=
    if gather then [] else (List.range (m.rows - first)).flatMap fun j => (List.range n).map fun k => sd.byteVA 0 (first + j) k
  if x.2.isNone && !rowsWhole v a b rws n then ⟨[], source 0, some (engErr 0x0C 0)⟩
  else ⟨rowsElems m v a b rws n, if x.2.isNone then [] else source x.1.length, x.2⟩
/-- `cgth.gatheradd` (R269): every row is read, the sums are formed in row order, and the row is written. -/
def gatherAdd (s : State) (c : CubeId) (m : Cmd) (v : Conv) (dst : Side) : List OutByte × Option EngErr :=
  let E := rowElems m v
  let idx := (List.range m.rows).map fun r => indexAt s c m (m.dw 0) r
  let readRow (va : VA) : Except EngErr (List FVal) :=
    if !v.plain ∧ !aligned v.s.fmt va [] then .error (engErr 7 va)
    else if !mxBanksOk s c m .read (.rows va 0 0) [(0, 0)] m.rowBytes then .error (engErr 0x0C va)
    else (List.range E).foldl (fun (a : Except EngErr (List FVal)) e =>
      match a with
      | .error x => .error x
      | .ok l =>
        let (rd, val) := srcElem (.rows va 0 0) v E 0 0 e
        match engBytes s c m rd with
        | .error x => .error (x.low rd)
        | .ok bs => .ok (l ++ [val bs])) (.ok [])
  let old := (List.range E).foldl (fun (a : Except EngErr (List FVal)) e =>
    match a with
    | .error x => .error x
    | .ok l =>
      let vs := (List.range 4).map fun k => dst.byteVA 0 0 (4 * e + k)
      match engBytes s c m vs with
      | .error x => .error (x.low vs)
      | .ok bs => .ok (l ++ [dec32 (packLE bs)])) (.ok [])
  let sum := idx.foldl (fun (a : Except EngErr (List FVal)) i =>
    match a, i with
    | .error x, _ => .error x
    | _, .error x => .error x
    | .ok l, .ok va =>
      match readRow va with
      | .error x => .error x
      | .ok xs => .ok (List.zipWith (fun p q => add32 p q) l xs)) old
  match (if mxBanksOk s c m .both dst [(0, 0)] (4 * E) then sum else .error (engErr 0x0C 0)) with
  | .error e => ([], some e)
  | .ok l => runElems s c m (l.mapIdx fun e x =>
      let ds := runVAs dst 0 0 (4 * e) 4
      ⟨[], ds, fun _ => repeatBytes (ds.length / 4) (bytesLE 4 (enc32 .rne x)), groupsOf 4 ds⟩) []
/-- The bytes that a `cgth.gatheradd` touches: its list, its rows and its destination row. -/
def gatherAddVAs (s : State) (c : CubeId) (m : Cmd) (v : Conv) (dst : Side) : List VA :=
  vaRange ((m.dw 0).setWidth 52) (8 * m.rows) ++ ((List.range m.rows).flatMap fun r =>
    match indexAt s c m (m.dw 0) r with
    | .ok va => vaRange va (srcRowBytes m v)
    | .error _ => []) ++ (List.range (4 * rowElems m v)).map fun k => dst.byteVA 0 0 k

/-! ### Reductions (R270, R365) -/

def credWidth : CopyOp → Nat | .addBf16 => 2 | _ => 4
/-- The new destination value of a reduction (R270). -/
def credValue (op : CopyOp) (old src : Nat) : Nat :=
  match op with
  | .addBf16 => encode .bf16 .rne 0 (FVal.add .rne (decodeNum .bf16 old) (decodeNum .bf16 src))
  | .addI32 => (old + src) % 2 ^ 32
  | .maxF32 =>
    let x := dec32 old
    let y := dec32 src
    if x.isNan || y.isNan then enc32 .rne .nan else enc32 .rne (x.max2 y)
  | _ => enc32 .rne (FVal.add .rne (dec32 old) (dec32 src))
/-- Where a reduction may write (R270). -/
def credPlace (s : State) (op : CopyOp) (t : Target) : Bool :=
  match keySpace s t.key with
  | .scratch .. | .hbm _ | .cxl => true
  | .host => op == .addI32
  | .peer p _ => peerIrsere s p || op == .addI32
  | _ => false
/-- One element combined at the destination's home. `win` tells whether the target's first element lies in the reduction window: a
target that lies partly in it fails where it crosses its edge (R365). -/
def credElem (s : State) (c : CubeId) (m : Cmd) (op : CopyOp) (win : Option Bool) (src dst : VA) : State × Option EngErr × List Nat :=
  let w := credWidth op
  match engBytes s c m (vaRange src w) with
  | .error e => (s, some (e.low [src]), [])
  | .ok bs =>
    match engTarget s c m .both dst, engTarget s c m .both (dst + BitVec.ofNat 52 (w - 1)) with
    | .error e, _ => (s, some (e.low [dst]), [])
    | _, .error e => (s, some (e.low [dst]), [])
    | .ok t, .ok t' =>
      if inWindow s t.key != inWindow s t'.key || win.any (· != inWindow s t.key) then (s, some (engErr 0x0A dst), [])
      else if !credPlace s op t then (s, some (engErr 2 dst), [])
      else if s.poison.contains (lineOf t.key) then (s, some (engErr 3 dst), [])
      else
        let cells := cellsAt t.key (bytesLE w (credValue op (memNat s.mem t.key w) (packLE bs)))
        (engWrite s m true (cells.map fun d => (d.1, t.tag, d.2)), none, [homeOf t.key])
/-- A reduction's elements in traversal order (R270). -/
def credRun (c : CubeId) (m : Cmd) (op : CopyOp) (win : Option Bool) : List (VA × VA) → State → List Nat →
    State × Option EngErr × List Nat
  | [], s, hs => (s, none, hs)
  | (a, b) :: t, s, hs =>
    match credElem s c m op win a b with
    | (s, some e, h) => (s, some e, hs ++ h)
    | (s, none, h) => credRun c m op win t s (hs ++ h)
/-- Whether the first element of a reduction's target lies in the reduction window. -/
def credWindow (s : State) (c : CubeId) (m : Cmd) (dst : VA) : Option Bool :=
  match engTarget s c m .both dst with
  | .ok t => some (inWindow s t.key)
  | .error _ => none
def credPairs (m : Cmd) (w : Nat) (a b : VA) : List (VA × VA) :=
  (traversal 1 m.rows (m.rowBytes / w)).map fun (_, r, e) =>
    (a + BitVec.ofInt 52 (r * m.sstride + w * e), b + BitVec.ofInt 52 (r * m.dstride + w * e))

/-! ### Splits -/

/-- The raw bits and the value of element n of row r on the row-major side. -/
def splitRead (rs : Side) (f E r n : Nat) : List VA × (List Byte → FVal) := rowElem f E (rs.byteVA 0 r) n
/-- The source of an lsplit row by row, which is read before anything is written (R266). -/
def lsplitReads (m : Cmd) (rs : Side) (f E : Nat) : List Elem :=
  (List.range m.rows).flatMap fun i => (List.range E).map fun n => .plain (splitRead rs f E i n).1 [] fun _ => []
/-- Layer l0 + k of an lsplit (R266): chunk by chunk; an MX face takes blocks with their scales. -/
def lsplitLayer (m : Cmd) (v : Conv) (f : Nat) (rs : Side) (l o E k : Nat) : List Elem :=
  let fp := v.d
  let kd := E / (m.layersF + 1)
  let zero : FVal := .fin false 0 0
  match entryLayout fp.fmt, fmtMx fp.fmt, fmtNum fp.fmt with
  | some (lam, g), some mx, _ =>
    (List.range 64).flatMap fun i => (List.range (ceilDiv kd 32)).flatMap fun b =>
      match bankOf (faceVA l o) with
      | none => []
      | some (size, bank, off) =>
        let n0 := k * kd + 32 * b
        let chunks := (List.range (32 / lam)).flatMap fun j => vaRange (faceVA l (o + ((32 * b / lam + j) * 64 + i) * g)) g
        let strip := stripVA bank size i ((off / (64 * g) + 32 * b / lam) * lam / 32)
        let nb := 32 * mx.bits / 8
        let srcs := (List.range 32).map fun q => splitRead rs f E i (n0 + q)
        let outs := [chunks ++ [strip]]
        if m.rows ≤ i then [⟨[], chunks ++ [strip], fun _ => List.replicate (nb + 1) 0, blockParts mx outs⟩]
        else if f = fp.fmt then
          [⟨((List.range nb).map fun j => rs.byteVA 0 i (n0 * mx.bits / 8 + j)) ++ [rs.byteVA 0 i (E * mx.bits / 8 + n0 / 32)],
            chunks ++ [strip], id, srcs.map Prod.fst ++ blockParts mx outs⟩]
        else
          [blockElem m v (srcs.mapIdx fun q x => (x.1, x.2, i * E + n0 + q)) mx outs]
  | some (lam, g), none, some nf =>
    (List.range 64).flatMap fun i => (List.range (ceilDiv kd lam * lam)).map fun kk =>
      let w := nf.bytes
      let dst := vaRange (faceVA l (o + entryBit fp.fmt lam g i kk / 8)) w
      if i < m.rows ∧ kk < kd then
        let n := k * kd + kk
        let x := splitRead rs f E i n
        if f = fp.fmt then .plain x.1 dst id
        else .plain x.1 dst fun bs => bytesLE w (encode nf v.mode (v.noise m (i * E + n)) (x.2 bs))
      else .plain [] dst fun _ => bytesLE w (encode nf .rne 0 zero)
  | _, _, _ => []
/-- Elements of an lsplit, layer by layer, each in its own face format. -/
def lsplitElems (m : Cmd) (faces : List Place) (rp : Place) (rs : Side) (l0 o E : Nat) : List Elem :=
  (faces.mapIdx fun k p => lsplitLayer m (convOf m rp p) (rowFmt (faces.headD rawPlace) rp) rs (l0 + k) o E k).flatten
/-- Reads and value of element (i, k × kd + kk) of face entries (R284, R66). -/
def entryElem (f l0 o kd i n : Nat) : List VA × (List Byte → FVal) :=
  match entryLayout f with
  | none => ([], fun _ => .fin false 0 0)
  | some (lam, g) =>
    let l := l0 + n / kd
    let kk := n % kd
    let bit := entryBit f lam g i kk
    match fmtMx f, fmtNum f with
    | some mx, _ =>
      let chunk := bit / (8 * g) * g
      let j := kk % lam
      let ks := packedBytes mx.bits j
      let va := faceVA l o
      match bankOf va with
      | some (size, bank, off) =>
        ((ks.map fun q => faceVA l (o + chunk + q)) ++ [stripVA bank size i ((off / (64 * g) + kk / lam) * lam / 32)],
          fun bs => mxDecode mx (packedElem mx j (bs.take ks.length)) (bs.getD ks.length 0).toNat)
      | none => ([], fun _ => .fin false 0 0)
    | none, some nf => (vaRange (faceVA l (o + bit / 8)) nf.bytes, fun bs => decodeNum nf (packLE bs))
    | none, none => ([], fun _ => .fin false 0 0)
/-- Elements of an lgath (R266); the element (i, k × kd + kk) comes from layer l0 + k in that layer's format. -/
def lgathElems (m : Cmd) (v : Conv) (faces : List Place) (rs : Side) (l0 o E : Nat) : List Elem :=
  let rp := v.d
  let kd := E / (m.layersF + 1)
  let f := rowFmt (faces.headD rawPlace) rp
  let faceFmt (n : Nat) : Nat := (faces.getD (n / kd) rawPlace).fmt
  let copies := (rs.byteVAs 0 0 0).length
  -- bytes of row r in each layer that it goes to
  let rowOut (r : Nat) (ks : List Nat) : List (List VA) := (List.range copies).map fun l => ks.map fun k => (rs.byteVAs 0 r k).getD l 0
  match fmtMx f, fmtNum f with
  | some mx, _ =>
    (List.range m.rows).flatMap fun r => (List.range (E / 32)).flatMap fun b =>
      let nb := 32 * mx.bits / 8
      let outs := rowOut r ((List.range nb).map (b * nb + ·) ++ [E * mx.bits / 8 + b])
      let el := (List.range 32).map fun q => entryElem (faceFmt (32 * b + q)) l0 o kd r (32 * b + q)
      let blk : Elem :=
        if f = faceFmt (32 * b) then
          let (lam, g) := (entryLayout f).getD (1, 1)
          let kk := 32 * b % kd
          let strip := ((el.headD ([], fun _ => .nan)).1).getLast?.toList
          ⟨((List.range (32 / lam)).flatMap fun j =>
            vaRange (faceVA (l0 + 32 * b / kd) (o + ((kk / lam + j) * 64 + r) * g)) g) ++ strip, outs.flatten, repeatBytes copies,
            el.map Prod.fst ++ blockParts mx outs⟩
        else blockElem m v (el.mapIdx fun q x => (x.1, x.2, r * E + 32 * b + q)) mx outs
      if (b + 1) * 32 = E then
        let used := E * mx.bits / 8 + E / 32
        let pad := recordBytes f E - used
        [blk, .plain [] (rowOut r ((List.range pad).map (used + ·))).flatten fun _ => List.replicate (copies * pad) 0]
      else [blk]
  | none, some nf =>
    (List.range m.rows).flatMap fun r => (List.range E).map fun n =>
      let x := entryElem (faceFmt n) l0 o kd r n
      let outs := rowOut r ((List.range nf.bytes).map (n * nf.bytes + ·))
      ⟨x.1, outs.flatten, fun bs => repeatBytes copies
        (if f = faceFmt n then bs else bytesLE nf.bytes (encode nf v.mode (v.noise m (r * E + n)) (x.2 bs))), outs⟩
  | none, none => []

/-! ### Prefetch (R268) -/

/-- The lines of a prefetch that can be filled are filled; all others are skipped. -/
def prefetch (s : State) (c : CubeId) (m : Cmd) (a : VA) : State :=
  (traversal 1 m.rows m.rowBytes).foldl (fun s (_, r, k) =>
    match engTarget s c m .read (a + BitVec.ofInt 52 (r * m.sstride + k)) with
    | .ok t =>
      if t.cached && t.peer.isNone && !edgeHas (s.cube c) (lineOf t.key) then edgeFill (fireReads s [lineOf t.key]) c (lineOf t.key) else s
    | .error e => if e.waits then faultRecord s c m 0 e else s) s
/-- Granules of MIGRATE pages that a command's elements touch are counted once each (R102). -/
def countCopy (s : State) (c : CubeId) (m : Cmd) (vas : List VA) : State :=
  ((vas.map fun v => v.toNat / 4096).eraseDups).foldl (fun s g =>
    match resolve s (cmdAgent s c m) (BitVec.ofNat 52 (g * 4096)) with
    | .ok t => countAll s (.cube c) (migOf t m.asn (BitVec.ofNat 52 (g * 4096)))
    | .fault _ => s) s

/-- Whole entries of a destination spool that landed before an error: every byte of them was written, in each of their layers
(R275). -/
def landedEntries (s : State) (m : Cmd) (wrote : List VA) (t : Nat × Nat × Nat) : Nat :=
  let sp := strandSpool s m.sid t.1
  let layers := (List.range (m.layersF + 1)).map (formLayers (dstForm m) + ·)
  ((List.range t.2.2).takeWhile fun j =>
    (List.range sp.esize).all fun k => (sp.byteVAs layers (t.2.1 + j) k).all wrote.contains).length
/-- The core stores of the strand that come before the command are at their homes (R273, R119). -/
def storesDone (s : State) (m : Cmd) : Bool :=
  !s.items.any fun i => i.sid == m.sid && i.cmd.isNone && decide (i.id < m.id) && i.status != .performed && i.status != .failed
/-- The home of a number keeps no lines (R118, R361). -/
def homeKeepsNone (s : State) (h : Nat) : Bool := decide (32 ≤ h) && (!peerIrsere s (h / 32 - 1) || peerEthernet s (h / 32 - 1))
/-- The command's turn on its line has not come at some home that it writes (R117): an earlier item or command of the line stands
before it there; a home that keeps no lines takes it when everything before it on the line, towards whatever home, is complete
(R118, R361). -/
def lineHeld (s : State) (c : CubeId) (m : Cmd) : Bool :=
  cmdLine m != 0 && m.homes.any fun h =>
    let source := homeKeepsNone s h
    ((s.cube c).cmds.any fun q =>
      if source then q.sid == m.sid && cmdLine q == cmdLine m && decide (q.id < m.id) && q.status != .adding
      else q.holdsLine m.sid (cmdLine m) h m.id) ||
    s.items.any fun i => i.sid == m.sid && i.line == cmdLine m && decide (i.pos < m.id) && i.status != .failed &&
      (source || i.home == h && i.status != .performed)
/-- Rows of n bytes at the places of a side. -/
def rowSpans (f : AddrForm) (m : Cmd) (row plane : Int) (n : Nat) : List (VA × Nat) :=
  match f with
  | .va a => (rowPairs (planesOf m) m.rows).map fun zr => (a + BitVec.ofInt 52 (zr.1 * plane + zr.2 * row), n)
  | _ => []
/-- The rows that an index list names, as it reads now. -/
def indexSpans (s : State) (c : CubeId) (m : Cmd) (list : Word) (n : Nat) : List (VA × Nat) :=
  (List.range m.rows).filterMap fun r => match indexNow s c m list r with | .ok va => some (va, n) | .error _ => none
/-- The homes that a copy writes, as its descriptor, the translations and an index list now say (R108). -/
def copyHomes (s : State) (c : CubeId) (m : Cmd) (op : CopyOp) : List Nat :=
  let ag := cmdAgent s c m
  let spans (ps : List (VA × Nat)) : List Nat := ps.flatMap fun p => spanHomes s ag p.1 p.2
  let own (f : AddrForm) (ps : List (VA × Nat)) : List Nat := match f with | .spool .. => [8 + c.val] | _ => spans ps
  if copyEmpty m || !copyLimits s m then []
  else match op with
    | .pfetch => []
    | .lsplit => [8 + c.val]
    | .addF32 | .addBf16 | .maxF32 | .addI32 => spans (rowSpans (dstForm m) m m.dstride 0 m.rowBytes)
    | .mcast => (List.range 8).filterMap fun k => if (m.dw 1).getLsbD (52 + k) then some (8 + k) else none
    | .lgath => (match splitPlan s c m with
      | .ok (_, _, faces, rp, E) => own (dstForm m) (rowSpans (dstForm m) m m.dstride 0 (splitRow faces rp E))
      | .error _ => [])
    | _ => match copyPlanBy (fun l => indexNow s c m l 0) s c m with
      | .error _ => []
      | .ok p => match op with
        | .scatter => spans (indexSpans s c m (m.dw 1) p.dstRow)
        | .gatheradd => own (dstForm m) [((m.dw 1).setWidth 52, p.dstRow)]
        | _ => own (dstForm m) (rowSpans (dstForm m) m (if op = .lin then p.dstRow else m.dstride) m.dpstride p.dstRow)
/-- The homes towards which a copy on a line takes its place: those that it writes, and its counter's. -/
def copyClaim (s : State) (c : CubeId) (m : Cmd) : List Nat :=
  match m.kind with
  | .copy op => copyHomes s c m op ++ if wantsAdd m then spanHomes s (cmdAgent s c m) (m.ctr.setWidth 52) 1 else []
  | _ => []
/-- A copy that starts takes its place anew, as the memory that it reads for it then stands. -/
def claimLine (s : State) (c : CubeId) (m : Cmd) : State :=
  if cmdLine m = 0 then s else s.modCube c fun k => k.modCmd m.id fun q => { q with homes := (copyClaim s c m).eraseDups }
/-- The elements of a started command; an error of its format rules comes before all of them. -/
def copyElems (s : State) (c : CubeId) (m : Cmd) (op : CopyOp) : Except EngErr Work :=
  let list (r : Except EngErr (List Elem)) : Except EngErr Work := match r with | .ok es => .ok ⟨es, [], none⟩ | .error e => .error e
  if isSplit op then
    match splitPlan s c m with
    | .error e => .error e
    | .ok (l0, o, faces, rp, E) =>
      let row := splitRow faces rp E
      if op == .lsplit then .ok ⟨lsplitElems m faces rp (rowSide s m row) l0 o E, [], none⟩
      else .ok ⟨lgathElems m (convOf m (faces.headD rawPlace) rp) faces (rowSide s m row) l0 o E, [], none⟩
  else
    match copyPlan s c m with
    | .error e => .error e
    | .ok p =>
      let lin := op == .lin
      let sd := sideOf s m true (srcForm m) (if lin then (p.srcRow : Int) else m.sstride) m.spstride p.srcRow m.rows
      let dd := sideOf s m false (dstForm m) (if lin then (p.dstRow : Int) else m.dstride) m.dpstride p.dstRow m.rows
      match op with
      | .fill => list (fillElems s c m dd)
      | .gather | .gatheradd => .ok (indexedElems s c m p.conv true sd dd p.srcRow)
      | .scatter => .ok (indexedElems s c m p.conv false sd dd p.srcRow)
      | _ => list (plainElems s c m p.conv sd dd (rowPairs p.planes m.rows) p.srcRow)
/-- COPY_CMD_START (R272): a command at the head of its strand's entries starts, or fails its first checks, whose order is the
model's choice (log entry 113). -/
def copyStart (s : State) (c : CubeId) (id : Nat) : State :=
  match (s.cube c).cmd id with
  | none => s
  | some m =>
    match m.kind with
    | .copy op =>
      let s' := claimLine s c m
      if m.status != .queued || !unfenced s c m || (earlierOf (s.cube c) m).any (fun q => q.status == .queued) then s
      else if copyEmpty m then finishCmd s c m 0 none []
      else if !copyLimits s m then finishCmd s c m 0 (some (engErr 7 0)) []
      else if m.dead then finishCmd s c m 0 (some (engErr 0x0B 0)) []
      else if op = .pfetch ∨ isCred op then startCmd s' c m [] []
      else if isSplit op then
        match splitPlan s c m with
        | .error e => finishCmd s c m 0 (some e) []
        | .ok (_, _, faces, rp, E) =>
          let rows (sp : Spool) := entriesNeeded sp (m.rows * splitRow faces rp E)
          let one (_ : Spool) : Option Nat := some 1
          match reserveSpools s m (srcForm m) (dstForm m) (if op = .lsplit then rows else one)
              (if op = .lsplit then one else rows) with
          | .bad => finishCmd s c m 0 (some (engErr 7 0)) []
          | .wait => s
          | .ok r t => startCmd s' c m r t
      else
        match copyPlan s c m with
        | .error e => finishCmd s c m 0 (some e) []
        | .ok p =>
          if op = .mcast ∧ mcastHeld s m then s
          else if op = .mcast ∧ !mcastOk s m p.dstRow then
            finishCmd s c m 0 (some (engErr 2 ((m.dw 1).setWidth 52))) []
          else
            let sf := if op = .fill ∨ isGather op then AddrForm.bad else srcForm m
            let df := if op = .scatter then AddrForm.bad else dstForm m
            match reserveSpools s m sf df (fun sp => entriesNeeded sp (copyFormBytes m p p.srcRow))
                (fun sp => entriesNeeded sp (if op = .gatheradd then p.dstRow else copyFormBytes m p p.dstRow)) with
            | .bad => finishCmd s c m 0 (some (engErr 7 0)) []
            | .wait => s
            | .ok r t =>
              match copyElems s c { m with res := r, took := t } op with
              | .error e => finishCmd s c m 0 (some e) []
              | .ok _ =>
              let u := startCmd s' c m r t
              if op = .mcast then
                u.modCube c fun k => k.modCmd m.id fun q => { q with ents := (mcastTargets s m).map fun x => x.2.sid }
              else u
    | _ => s

/-- The last byte of a register's that is read here: the element, or the one after it, does not go on with the same register. -/
def endsRead (u : Elem) (us : List Elem) (v : VA) : Bool :=
  v.toNat % 8 == 7 || !(u.reads.contains (v + 1) || us.head?.any fun w => w.reads.contains (v + 1))
/-- Registers among the bytes that a command has read perform the side effects of being read (R93). -/
def popVAs (s : State) (c : CubeId) (m : Cmd) (vas : List VA) : State :=
  popReads s (vas.filterMap fun v => match engPlain s c m .read v with | .ok t => some t.key | .error _ => none)
/-- Elements in order up to the first that fails, each read and written (R275): what their reads leave behind, the bytes written and
the error. -/
def runReads (c : CubeId) (m : Cmd) (write : State → List (VA × Byte) → Except EngErr (List OutByte)) :
    List Elem → State → List OutByte → State × List OutByte × Option EngErr
  | [], s, acc => (s, acc, none)
  | u :: us, s, acc =>
    match engBytes s c m u.reads with
    | .error e => (s, acc, some (e.at u u.reads))
    | .ok bs =>
      let s := popVAs s c m (u.reads.filter (endsRead u us))
      match write s (u.writes.zip (u.make bs)) with
      | .error e => (s, acc, some (e.at u u.writes))
      | .ok os => runReads c m write us s (acc ++ os)
/-- The bytes of an element of a mcast at every target (R267). -/
def mcastCells (m : Cmd) (ts : List (CubeId × Ctx)) (s : State) (ws : List (VA × Byte)) : Except EngErr (List OutByte) :=
  ts.foldl (fun (a : Except EngErr (List OutByte)) t =>
    match a, engCells s t.1 { m with part := t.2.part } ws with
    | .error e, _ => .error e
    | .ok _, .error e => .error e
    | .ok os, .ok os' => .ok (os ++ os')) (.ok [])
/-- The format of the rows of an lsplit and their elements, as its source is read. -/
def lsplitSource (s : State) (c : CubeId) (m : Cmd) : List Elem :=
  match splitPlan s c m with
  | .error _ => []
  | .ok (_, _, faces, rp, E) =>
    lsplitReads m (rowSide s m (splitRow faces rp E)) (rowFmt (faces.headD rawPlace) rp) E
/-- The destination of a `cgth.gatheradd`. -/
def gatherDst (s : State) (m : Cmd) (p : Plan) : Side := sideOf s m false (dstForm m) m.dstride m.dpstride p.dstRow m.rows
/-- A started command's accesses: what its reads leave behind, the bytes that it writes, and the error that ends it. -/
def copyRun (s : State) (c : CubeId) (m : Cmd) (op : CopyOp) : State × List OutByte × Option EngErr :=
  if op = .gatheradd then
    match copyPlan s c m with
    | .error e => (s, [], some e)
    | .ok p => (s, gatherAdd s c m p.conv (gatherDst s m p))
  else
    match copyElems s c m op with
    | .error e => (s, [], some e)
    | .ok w =>
      if op = .lsplit then
        match runReads c m (engCells · c m) (lsplitSource s c m) s [] with
        | (t, _, some e) => (t, [], some e)
        | (t, _, none) => (t, runElems s c m w.elems [])
      else
        match runReads c m (if op = .mcast then mcastCells m (mcastResolved s m) else (engCells · c m)) w.elems s [] with
        | (t, os, e) => (t, os, e.or w.err)
/-- The bytes that a started command writes, and the error that ends it. -/
def copyWork (s : State) (c : CubeId) (m : Cmd) (op : CopyOp) : List OutByte × Option EngErr := (copyRun s c m op).2
/-- Elements before the first that fails, and whether that one's source could be read. -/
def reached (s : State) (c : CubeId) (m : Cmd) : List Elem → Nat × Bool
  | [] => (0, false)
  | u :: us =>
    match engBytes s c m u.reads with
    | .error _ => (0, false)
    | .ok bs =>
      match engCells s c m (u.writes.zip (u.make bs)) with
      | .error _ => (0, true)
      | .ok _ => let x := reached s c m us; (x.1 + 1, x.2)
/-- The source bytes that a failed command leaves unread (R275); none when its rules fail before every element. -/
def copyUnread (s : State) (c : CubeId) (m : Cmd) (op : CopyOp) : Option (List VA) :=
  match copyElems s c m op with
  | .error _ => none
  | .ok w =>
    let es := if op = .lsplit then lsplitSource s c m else w.elems
    let x := reached s c m es
    some ((es.drop (if x.2 then x.1 + 1 else x.1)).flatMap Elem.reads ++ w.rest)
/-- The index list that a command reads. -/
def listVAs (m : Cmd) (op : CopyOp) : List VA :=
  match op with
  | .gather | .gatheradd => vaRange ((m.dw 0).setWidth 52) (8 * m.rows)
  | .scatter => vaRange ((m.dw 1).setWidth 52) (8 * m.rows)
  | _ => []
/-- The bytes that a command touches, for the counters of MIGRATE pages (R102). -/
def copyTouches (s : State) (c : CubeId) (m : Cmd) (op : CopyOp) : List VA :=
  if op = .gatheradd then
    match copyPlan s c m with
    | .error _ => []
    | .ok p => gatherAddVAs s c m p.conv (gatherDst s m p)
  else
    match copyElems s c m op with
    | .error _ => []
    | .ok w =>
      (w.elems.take (reached s c m w.elems).1).flatMap (fun u => u.reads ++ u.writes) ++ listVAs m op
/-- The bytes that a copy reads (R113). -/
def copyReads (s : State) (c : CubeId) (m : Cmd) (op : CopyOp) : List VA :=
  let a : VA := (m.dw 0).setWidth 52
  if op = .pfetch then (traversal 1 m.rows m.rowBytes).map fun x => a + BitVec.ofInt 52 (x.2.1 * m.sstride + x.2.2)
  else if isCred op then
    (credPairs m (credWidth op) a ((m.dw 1).setWidth 52)).flatMap fun p => vaRange p.1 (credWidth op) ++ vaRange p.2 (credWidth op)
  else if op = .gatheradd then
    match copyPlan s c m with
    | .error _ => listVAs m op
    | .ok p => gatherAddVAs s c m p.conv (gatherDst s m p)
  else
    listVAs m op ++ match copyElems s c m op with
      | .error _ => []
      | .ok w => w.elems.flatMap Elem.reads ++ w.rest
/-- An acquire that was out when the command was enqueued has not returned, and its regions hold what the command reads (R113). -/
def acqHeld (s : State) (c : CubeId) (m : Cmd) (op : CopyOp) : Bool :=
  let out := m.acqs.filter fun a => (s.read a.read).isSome
  !out.isEmpty && (copyReads s c m op).any fun v => out.any fun a => a.regions.any fun r =>
    decide (r.1.toNat ≤ v.toNat) && decide (v.toNat < r.1.toNat + r.2)
/-- The bytes that a command wrote before it failed (R275). -/
def copyWritten (s : State) (c : CubeId) (m : Cmd) (op : CopyOp) : List VA :=
  if op = .gatheradd then
    match copyPlan s c m with
    | .error _ => []
    | .ok p =>
      let d := gatherDst s m p
      (List.range ((gatherAdd s c m p.conv d).1.length / (d.byteVAs 0 0 0).length)).flatMap fun k => d.byteVAs 0 0 k
  else
    match copyElems s c m op with
    | .error _ => []
    | .ok w => if (copyRun s c m op).2.1.isEmpty then [] else (w.elems.take (reached s c m w.elems).1).flatMap Elem.writes
/-- A byte of an entry of a spool. -/
def Spool.holds (sp : Spool) (e : Nat) (v : VA) : Bool :=
  let o := v.toNat % 2 ^ 44
  let o := if sp.region = 1 then o else (o - 0x1000_0000) % 0x0200_0000
  decide (sp.entryOff e ≤ o) && decide (o < sp.entryOff e + sp.esize)
/-- Entries of a reservation that a failed command read in full (R275). -/
def readEntries (s : State) (m : Cmd) (unread : Option (List VA)) (t : Nat × Nat × Nat) : Nat :=
  match unread with
  | none => 0
  | some vs => ((List.range t.2.2).takeWhile fun j => !vs.any ((strandSpool s m.sid t.1).holds (t.2.1 + j))).length
/-- A failed command gives back the entries that it did not read in full. Where a later command has reserved the entries behind
them they are passed over (log entry 23). -/
def giveBack (s : State) (m : Cmd) (t : Nat × Nat × Nat) (n : Nat) : State :=
  modSpool s m.sid t.1 fun sp =>
    if (t.2.1 + t.2.2) % 2 ^ 32 = sp.nextC then sp.untake (t.2.2 - n)
    else sp.release ((t.2.1 + n) % 2 ^ 32) (t.2.2 - n)
/-- A command ends with an error: the entries that it filled or read in full stay advanced (R275). -/
def copyFail (s : State) (c : CubeId) (m : Cmd) (wrote : List VA) (unread : Option (List VA)) (e : EngErr) (homes : List Nat) : State :=
  let fill := m.res.map fun r => (r, landedEntries s m wrote r)
  let read := m.took.map fun t => (t, readEntries s m unread t)
  let s := fill.foldl (fun s x => modSpool s m.sid x.1.1 fun sp => sp.land x.1.2.1 x.2) s
  let s := read.foldl (fun s x => giveBack s m x.1 x.2) s
  finishCmd s c { m with
    res := fill.map fun x => (x.1.1, (x.1.2.1 + x.2) % 2 ^ 32, x.1.2.2 - x.2)
    took := read.map fun x => (x.1.1, x.1.2.1, x.2) } 0 (some e) homes
/-- COPY_CMD_COMPLETE (R271, R272, R275): the accesses of a started command are performed, after those of its strand's earlier
entries in the queue, or it ends with its error. -/
def copyComplete (s : State) (c : CubeId) (id : Nat) : State :=
  match (s.cube c).cmd id with
  | none => s
  | some m =>
    match m.kind with
    | .copy op =>
      if m.status != .started || !storesDone s m || (earlierOf (s.cube c) m).any (fun q => q.status == .started) then s
      else if m.dead then copyFail s c m [] none (engErr 0x0B 0) []
      else if lineHeld s c m || acqHeld s c m op then s
      else if op = .pfetch then
        finishCmd (prefetch s c m ((m.dw 0).setWidth 52)) c m 0 none []
      else if isCred op then
        let w := credWidth op
        let a : VA := (m.dw 0).setWidth 52
        let b : VA := (m.dw 1).setWidth 52
        let off (d : Int) : Bool := d % w != 0
        if m.rowBytes % w ≠ 0 ∨ a.toNat % w ≠ 0 ∨ b.toNat % w ≠ 0 ∨ (usedStrides m m.sstride 0 ++ usedStrides m m.dstride 0).any off then
          finishCmd s c m 0 (some (engErr 7 0)) []
        else
          let pairs := credPairs m w a b
          let s := fireProbe s fun s => (credRun c m op (credWindow s c m b) pairs s []).2.1.map fun e => (e.code, e.addr)
          let s := countCopy s c m (pairs.flatMap fun p => [p.1, p.2])
          let (s, err, homes) := credRun c m op (credWindow s c m b) pairs s []
          finishCmd s c m 0 err homes.eraseDups
      else
        let s := fireProbe s fun s => (copyWork s c m op).2.map fun e => (e.code, e.addr)
        let (t, os, err) := copyRun s c m op
        let t := countCopy (popVAs t c m (listVAs m op)) c m (copyTouches s c m op)
        match err with
        | none => finishCmd (engWrite t m (cmdGlob m) os) c m 0 none (homesOf os)
        | some e =>
          copyFail (engWrite t m (cmdGlob m) os) c m (if m.res.isEmpty then [] else copyWritten s c m op) (copyUnread s c m op) e (homesOf os)
    | _ => s
/-- SPOOL_ENTRY_LANDED (R23): the next reserved entry of a finished command lands, and P advances past it in its turn. -/
def entryLanded (s : State) (c : CubeId) (id : Nat) : State :=
  match (s.cube c).cmd id with
  | none => s
  | some m =>
    if m.status != .finished then s
    else match m.res with
      | [] => s
      | (n, first, k) :: rest =>
        let s := modSpool s m.sid n fun sp => sp.land first 1
        let rest := if k ≤ 1 then rest else (n, (first + 1) % 2 ^ 32, k - 1) :: rest
        settleCmd (s.modCube c fun q => q.modCmd id fun q => { q with res := rest }) c id

/-! ### The instructions (R256) -/

/-- A copy command enters cq0 or cq1 with its group, counter and amount, and takes its place on its line. -/
def enqueueCopy (s : State) (g : Guard) (op : CopyOp) (a b c : SReg) (q : Bool) (n : Nat) : State :=
  let x := s.ctx
  if x.guard g then enqueueOn copyClaim s (if q then .cq1 else .cq0) (.copy op) (x.group a n) (x.s b) (x.s c) 0 0 else s

def execCpyLin (g : Guard) (a b c : SReg) (q : Bool) (s : State) : Out := .next (enqueueCopy s g .lin a b c q 4)
def execCpyTwod (g : Guard) (a b c : SReg) (q : Bool) (s : State) : Out := .next (enqueueCopy s g .twod a b c q 4)
def execCpyThreed (g : Guard) (a b c : SReg) (q : Bool) (s : State) : Out := .next (enqueueCopy s g .threed a b c q 6)
def execCpyFill (g : Guard) (a b c : SReg) (q : Bool) (s : State) : Out := .next (enqueueCopy s g .fill a b c q 4)
def execCpyLsplit (g : Guard) (a b c : SReg) (q : Bool) (s : State) : Out := .next (enqueueCopy s g .lsplit a b c q 4)
def execCpyLgath (g : Guard) (a b c : SReg) (q : Bool) (s : State) : Out := .next (enqueueCopy s g .lgath a b c q 4)
def execCpyMcast (g : Guard) (a b c : SReg) (q : Bool) (s : State) : Out := .next (enqueueCopy s g .mcast a b c q 4)
def execCpyPfetch (g : Guard) (a b c : SReg) (q : Bool) (s : State) : Out := .next (enqueueCopy s g .pfetch a b c q 4)
def execCgthGather (g : Guard) (a b c : SReg) (q : Bool) (s : State) : Out := .next (enqueueCopy s g .gather a b c q 4)
def execCgthScatter (g : Guard) (a b c : SReg) (q : Bool) (s : State) : Out := .next (enqueueCopy s g .scatter a b c q 4)
def execCgthGatheradd (g : Guard) (a b c : SReg) (q : Bool) (s : State) : Out := .next (enqueueCopy s g .gatheradd a b c q 4)
def execCredAddf32 (g : Guard) (a b c : SReg) (q : Bool) (s : State) : Out := .next (enqueueCopy s g .addF32 a b c q 4)
def execCredAddbf16 (g : Guard) (a b c : SReg) (q : Bool) (s : State) : Out := .next (enqueueCopy s g .addBf16 a b c q 4)
def execCredMaxf32 (g : Guard) (a b c : SReg) (q : Bool) (s : State) : Out := .next (enqueueCopy s g .maxF32 a b c q 4)
def execCredAddi32 (g : Guard) (a b c : SReg) (q : Bool) (s : State) : Out := .next (enqueueCopy s g .addI32 a b c q 4)
/-- COPY_CMD_START. -/
def execCopyCmdStart (c : CubeId) (id : Nat) (s : State) : Out :=
  .next (engEvent c id (fun s => copyStart s c id) s)
/-- SPOOL_ENTRY_LANDED. -/
def execSpoolEntryLanded (c : CubeId) (id : Nat) (s : State) : Out := .next (entryLanded s c id)
/-- COPY_CMD_COMPLETE. -/
def execCopyCmdComplete (c : CubeId) (id : Nat) (s : State) : Out :=
  .next (engEvent c id (fun s => copyComplete s c id) s)
/-- COMPLETION_ADD_SEND. -/
def execCompletionAddSend (c : CubeId) (id : Nat) (s : State) : Out :=
  .next (engEvent c id (fun s => sendAdd s c id) s)

end Sys2Proof.Machine
end

