-- ==== Sys2Proof/Machine/LoadStore.lean ====
section
/-! DEFINITION. Scalar memory access (R178 to R180): the checks of R179 in their order, items of the core on their lines, and
the meanings of `ld` and `st`. -/
namespace Sys2Proof.Machine

/-! ### Precise traps of an access (R179) -/

/-- A failed translation or check: a walk error is UNCORRECTABLE (R106). -/
def faultCause (need : Need) (kind : BitVec 4) : BitVec 8 :=
  if kind = kWalkError then causeUncorrectable else if need = .read then causeLoad else causeStore
/-- The kinds of access as SEQ_CAUSE.ACC numbers them (R148). -/
def accLoad : BitVec 4 := 2
def accStore : BitVec 4 := 3
def accAtomic : BitVec 4 := 4
def accCounter : BitVec 4 := 5
def accVLoad : BitVec 4 := 6
def accVStore : BitVec 4 := 7
/-- Steps 3 to 5 of R179: dead peer, translation and permission, fenced F.REM. `more` is a further reason of the fourth step
to refuse the target, such as an operation that it does not take. -/
def reach (s : State) (need : Need) (acc : BitVec 4) (more : Target → Option (BitVec 4)) (va : VA) : Except Trap Target :=
  match checkAccess s s.agent need va with
  | .dead => .error (s.slotTrapOf causeDeadPeer 0 acc va)
  | .fault k => .error (s.slotTrapOf (faultCause need k) k acc va)
  | .fenced =>
    (match resolve s s.agent va with
     | .ok t => (match more t with
       | some k => .error (s.slotTrapOf causeStore k acc va)
       | none => .error (s.slotTrapOf causeFenced 0 acc va))
     | .fault _ => .error (s.slotTrapOf causeFenced 0 acc va))
  | .ok t =>
    match more t with
    | some k => .error (s.slotTrapOf causeStore k acc va)
    | none => .ok t
/-- An access to the reduction window that the window does not take (R365). -/
def offWindow (s : State) (t : Target) : Option (BitVec 4) := if inWindow s t.key then some kNoTarget else none
/-- The checks of a scalar access (R179). -/
def scalarCheck (s : State) (need : Need) (acc : BitVec 4) (line : BitVec 3) (size : Nat)
    (more : Target → Option (BitVec 4)) (ea : VA) : Except Trap Target :=
  if ea.toNat % size ≠ 0 then .error (s.slotTrapOf causeAlign 0 acc ea)
  else if s.ctx.lineBad line then .error (s.slotTrapOf causeLine 0 acc ea)
  else reach s need acc more ea
/-- What a checked access does: its trap, or its effect (R147, R179). -/
def State.checked {α : Type} (s : State) (r : Except Trap α) (f : α → State) : State :=
  match r with
  | .error t => takeTrap s s.me t
  | .ok a => f a
def trapIn {α : Type} (r : Except Trap α) : Option Trap :=
  match r with
  | .error t => some t
  | .ok _ => none

/-! ### Items of the core -/

/-- Earlier writes that a release on a counter waits for: items of the strand that touch a region bound to it (R111, R112). -/
def coveredBy (s : State) (x : Ctx) (counter : VA) : List Nat :=
  let rs := boundRegions x counter
  (s.items.filter fun i => i.sid == x.sid && i.spans.any fun sp => rs.any fun r =>
    decide (sp.1.toNat < r.1.toNat + r.2) && decide (r.1.toNat < sp.1.toNat + sp.2)).map Item.id
/-- An item that the slot in execution issues. -/
def coreItem (s : State) (x : Ctx) (t : Target) (op : ItemOp) (va : VA) (spans : List (VA × Nat)) (acc : BitVec 4) : Item :=
  { id := s.nextId, pos := s.nextId, sid := x.sid, cube := s.me, line := 0, seq := 0, home := homeOf t.key, glob := false, ordered := false
    op := op, va := va, spans := spans, acc := acc, after := [], prior := .none, scope := .pkg, rel := false, mode := x.mode, tag := t.tag
    status := .transit, dest := none, old := 0, cmd := none, mig := migOf t x.sys.asn va, tags := [] }
/-- What a memory operation of a kind waits for behind the fences in lower slots of its own bundle (R196, R197). -/
def State.fencePrior (s : State) (reads : Bool) : Prior :=
  (s.bundle.prior.filter fun f => match f.1 with | .full => true | .loadLoad => reads | .storeStore => !reads).foldl
    (fun p f => p.join f.2) .none
/-- The item takes its number on its line and sets out (R117). The numbers count a strand's line, over all of its homes: each home
sees the order of its own items (DEDUCED, log entry 139). -/
def sendItem (s : State) (i : Item) : State :=
  let n := s.ctx.lineSeq.toList.getD i.line.toNat 0
  let s := s.modCtx fun x => { x with lineSeq := x.lineSeq.set i.line.toNat (n + 1) i.line.isLt }
  issueItem { s with nextId := s.nextId + 1 } { i with seq := n, prior := s.fencePrior false }

/-! ### Loads and stores -/

/-- The effective address (R178). -/
def effAddr (x : Ctx) (base : Src) (off : Int) (size : Nat) : VA := ((x.src base) + BitVec.ofInt 64 (off * size)).setWidth 52
/-- A key is in base scratch of the running cube, which answers with an exposed latency (R178, R217). -/
def isScratch (s : State) (key : Nat) : Bool :=
  match keySpace s key with
  | .scratch c _ => c == s.me
  | _ => false
/-- Keys and lanes of n bytes from a key. -/
def byteCells (key n lane : Nat) : List (Nat × Nat) := (List.range n).map fun k => (key + k, lane + k)
/-- A read request of the running strand. -/
def readReq (s : State) (x : Ctx) (acc : BitVec 4) (va : VA) (t : Target) (n : Nat) (dest : ReadDest) : ReadReq :=
  let cells := byteCells t.key n 0
  ⟨s.nextId, x.sid, s.me, acc, va, cells, if t.cached then linesOf (cells.map Prod.fst) else [], dest, none, none, .sent, 0, 0,
    false, migOf t x.sys.asn va, .none, ([], [])⟩
def sendRead (s : State) (r : ReadReq) : State :=
  { s with reads := s.reads ++ [{ r with prior := r.prior.join (s.fencePrior true) }], nextId := s.nextId + 1 }
/-- A value read at once from base scratch; an uncorrectable error becomes a deferred trap (R147, R374). -/
def scratchRead (s : State) (x : Ctx) (acc : BitVec 4) (va : VA) (key n : Nat) : Except Trap Nat :=
  if (linesOf ((List.range n).map (key + ·))).any fun l => s.poison.contains l then
    .error ⟨causeUncorrectable, 0, 0, acc, 0, va⟩
  else .ok (packLE ((List.range n).map fun k => readByte s x.sid s.me false (key + k)))

def ldCheck (s : State) (base : Src) (z : Size) (off : BitVec 11) : Except Trap Target :=
  scalarCheck s .read accLoad 0 z.bytes (offWindow s) (effAddr s.ctx base off.toInt z.bytes)
/-- `ld` (R178, R180): from base scratch latency 4 with b4, otherwise interlocked. With NW the latter is discarded. -/
def execLd (g : Guard) (nw : Bool) (d : SReg) (base : Src) (z : Size) (x : Bool) (off : BitVec 11) (s : State) : Out :=
  s.guarded g fun c s => s.checked (ldCheck s base z off) fun t =>
    let ea := effAddr c base off.toInt z.bytes
    if isScratch s t.key then
      let s := fireReads s (linesOf ((List.range z.bytes).map (t.key + ·)))
      match scratchRead s c accLoad ea t.key z.bytes with
      | .error e => s.modCtx fun c => c.addPending e s.place
      | .ok v => s.writeS 4 4 ⟨nw, false⟩ d (extendLoad z.bytes x v)
    else sendRead s (readReq s c accLoad ea t z.bytes (.scalar d nw z.bytes x))
def stCheck (s : State) (base : Src) (z : Size) (line : BitVec 3) (off : BitVec 11) : Except Trap Target :=
  scalarCheck s .write accStore line z.bytes (offWindow s) (effAddr s.ctx base off.toInt z.bytes)
/-- `st` (R178, R180): the low bytes of s(data) as an item on its line. -/
def execSt (g : Guard) (data : SReg) (base : Src) (z : Size) (glob : Bool) (line : BitVec 3) (off : BitVec 11) (s : State) : Out :=
  s.guarded g fun c s => s.checked (stCheck s base z line off) fun t =>
    let ea := effAddr c base off.toInt z.bytes
    let cells := cellsAt t.key (bytesLE z.bytes (c.s data).toNat)
    sendItem s { coreItem s c t (.store cells) ea [(ea, z.bytes)] accStore with line := line, glob := glob }

end Sys2Proof.Machine
end

