-- ==== Sys2Proof/Machine/Atomic.lean ====
section
/-! DEFINITION. Atomics and reductions (R181 to R183, R365): what each target takes, and the meanings of `amo`, `amow` and
`red`. -/
namespace Sys2Proof.Machine

/-- The operations that host memory and a target that is no Irsere package take (R182, R183, R359). -/
def plainTakes (red : Bool) : AmoOp → Bool
  | .add => true
  | .swap | .cas => !red
  | _ => false
/-- The operations that the reduction window takes (R365). -/
def windowTakes (red : Bool) : AmoOp → Bool
  | .add | .fadd | .max | .fmax => red
  | _ => false
/-- Why a target refuses an operation: fault kind NO_TARGET. -/
def opRefused (s : State) (red : Bool) (op : AmoOp) (t : Target) : Option (BitVec 4) :=
  let ok :=
    if inWindow s t.key then windowTakes red op
    else match t.peer with
      | some p => peerIrsere s p || plainTakes red op
      | none => (match keySpace s t.key with
        | .host => plainTakes red op
        | _ => true)
  if ok then none else some kNoTarget
def opWidth (wide : Bool) : Nat := if wide then 8 else 4
def addrOf (x : Ctx) (a : Src) : VA := (x.src a).setWidth 52
def amoCheck (s : State) (red wide : Bool) (op : AmoOp) (a : Src) : Except Trap Target :=
  scalarCheck s .both accAtomic 0 (opWidth wide) (opRefused s red op) (addrOf s.ctx a)
/-- The new value of a compare-and-swap: s(b+1); a latch stands over a field b of 0 (log entry 11). -/
def casNew (x : Ctx) : Src → Word
  | .reg r => x.s (r + 1)
  | .latch _ => x.s 1
/-- An atomic at its home; its old value comes back as an interlocked result, and s0 discards it (R181). -/
def atomic (op : AmoOp) (wide : Bool) (g : Guard) (d : SReg) (a b : Src) (s : State) : Out :=
  s.guarded g fun x s => s.checked (amoCheck s false wide op a) fun t =>
    let ea := addrOf x a
    sendItem s { coreItem s x t (.amo op wide t.key (x.src b) (casNew x b)) ea [(ea, opWidth wide)] accAtomic with
      dest := if d = 0 then none else some d }
/-- A reduction is posted and returns nothing (R183). -/
def reduction (op : AmoOp) (g : Guard) (ord wide : Bool) (a b : Src) (s : State) : Out :=
  s.guarded g fun x s => s.checked (amoCheck s true wide op a) fun t =>
    let ea := addrOf x a
    sendItem s { coreItem s x t (.amo op wide t.key (x.src b) 0) ea [(ea, opWidth wide)] accAtomic with ordered := ord }

def execAmoAdd (g : Guard) (d : SReg) (a b : Src) (s : State) : Out := atomic .add true g d a b s
def execAmoAnd (g : Guard) (d : SReg) (a b : Src) (s : State) : Out := atomic .and true g d a b s
def execAmoOr (g : Guard) (d : SReg) (a b : Src) (s : State) : Out := atomic .or true g d a b s
def execAmoXor (g : Guard) (d : SReg) (a b : Src) (s : State) : Out := atomic .xor true g d a b s
def execAmoMin (g : Guard) (d : SReg) (a b : Src) (s : State) : Out := atomic .min true g d a b s
def execAmoMax (g : Guard) (d : SReg) (a b : Src) (s : State) : Out := atomic .max true g d a b s
def execAmoMinn (g : Guard) (d : SReg) (a b : Src) (s : State) : Out := atomic .minn true g d a b s
def execAmoMaxn (g : Guard) (d : SReg) (a b : Src) (s : State) : Out := atomic .maxn true g d a b s
def execAmoSwap (g : Guard) (d : SReg) (a b : Src) (s : State) : Out := atomic .swap true g d a b s
def execAmoCas (g : Guard) (d : SReg) (a b : Src) (s : State) : Out := atomic .cas true g d a b s
def execAmowAdd (g : Guard) (d : SReg) (a b : Src) (s : State) : Out := atomic .add false g d a b s
def execAmowAnd (g : Guard) (d : SReg) (a b : Src) (s : State) : Out := atomic .and false g d a b s
def execAmowOr (g : Guard) (d : SReg) (a b : Src) (s : State) : Out := atomic .or false g d a b s
def execAmowXor (g : Guard) (d : SReg) (a b : Src) (s : State) : Out := atomic .xor false g d a b s
def execAmowMin (g : Guard) (d : SReg) (a b : Src) (s : State) : Out := atomic .min false g d a b s
def execAmowMax (g : Guard) (d : SReg) (a b : Src) (s : State) : Out := atomic .max false g d a b s
def execAmowMinn (g : Guard) (d : SReg) (a b : Src) (s : State) : Out := atomic .minn false g d a b s
def execAmowMaxn (g : Guard) (d : SReg) (a b : Src) (s : State) : Out := atomic .maxn false g d a b s
def execAmowSwap (g : Guard) (d : SReg) (a b : Src) (s : State) : Out := atomic .swap false g d a b s
def execAmowCas (g : Guard) (d : SReg) (a b : Src) (s : State) : Out := atomic .cas false g d a b s
def execAmowFadd (g : Guard) (d : SReg) (a b : Src) (s : State) : Out := atomic .fadd false g d a b s
def execAmowFmax (g : Guard) (d : SReg) (a b : Src) (s : State) : Out := atomic .fmax false g d a b s
def execRedAdd (g : Guard) (ord z : Bool) (a b : Src) (s : State) : Out := reduction .add g ord z a b s
def execRedAnd (g : Guard) (ord z : Bool) (a b : Src) (s : State) : Out := reduction .and g ord z a b s
def execRedOr (g : Guard) (ord z : Bool) (a b : Src) (s : State) : Out := reduction .or g ord z a b s
def execRedXor (g : Guard) (ord z : Bool) (a b : Src) (s : State) : Out := reduction .xor g ord z a b s
def execRedMin (g : Guard) (ord z : Bool) (a b : Src) (s : State) : Out := reduction .min g ord z a b s
def execRedMax (g : Guard) (ord z : Bool) (a b : Src) (s : State) : Out := reduction .max g ord z a b s
def execRedMinn (g : Guard) (ord z : Bool) (a b : Src) (s : State) : Out := reduction .minn g ord z a b s
def execRedMaxn (g : Guard) (ord z : Bool) (a b : Src) (s : State) : Out := reduction .maxn g ord z a b s
def execRedFadd (g : Guard) (ord : Bool) (a b : Src) (s : State) : Out := reduction .fadd g ord false a b s
def execRedFmax (g : Guard) (ord : Bool) (a b : Src) (s : State) : Out := reduction .fmax g ord false a b s

end Sys2Proof.Machine
end

