-- ==== Sys2Proof/Machine/CubeCalc.lean ====
section
/-! DEFINITION. What a CMMA computes (R279 to R290, R295): its operands in the faces, the dot groups of its layers, the descent,
and the checksums. -/
namespace Sys2Proof.Machine

/-! ### The command words (R289, R298) -/

def shN (m : Cmd) (lo w : Nat) : Nat := ((m.dw 0).toNat / 2 ^ lo) % 2 ^ w
def Cmd.mmM (m : Cmd) : Nat := shN m 0 7
def Cmd.mmN (m : Cmd) : Nat := shN m 7 7
def Cmd.mmK (m : Cmd) : Nat := shN m 14 13
def Cmd.mmMask (m : Cmd) : BitVec 8 := (m.dw 0).extractLsb' 27 8
def Cmd.mmI32 (m : Cmd) : Bool := (m.dw 0).getLsbD 39
def Cmd.mmTile (m : Cmd) : Nat := shN m 40 16
def Cmd.mmPlane (m : Cmd) : Bool := (m.dw 0).getLsbD 56
def layersOf (mask : BitVec 8) : List Nat := (List.range 8).filter fun l => mask.getLsbD l
def Cmd.mmLayers (m : Cmd) : List Nat := layersOf m.mmMask
def Cmd.mmMsk (m : Cmd) : Bool := match m.kind with | .cube (.mma _ _ _ msk) => msk | _ => false
/-- Live rows and columns (R289). -/
def liveSet (n : Nat) (on : Bool) (mask : Word) : Word :=
  (if on then mask else BitVec.allOnes 64) &&& BitVec.ofNat 64 (2 ^ min n 64 - 1)
def Cmd.mmRows (m : Cmd) : Word := liveSet m.mmM m.mmMsk (m.dw 2)
def Cmd.mmCols (m : Cmd) : Word := liveSet m.mmN m.mmMsk (m.dw 3)
/-- The valid depth V over the total depth. -/
def Cmd.mmV (m : Cmd) : Nat :=
  let all := m.mmK * m.mmLayers.length
  if m.mmMsk then min (m.dw 4).toNat all else all
def idxOf (w : Word) : List Nat := (List.range 64).filter fun i => w.getLsbD i

/-- A tile word (R298): layer, plane bit and tile. -/
structure TileW where
  layer : Nat
  plane : Bool
  tile : Nat
deriving DecidableEq, Repr
def tileWord (w : Word) : TileW := ⟨(w.extractLsb' 17 3).toNat, w.getLsbD 16, (w.extractLsb' 0 10).toNat⟩
/-- A tile word names a tile of the partition; an accumulator-store tile has a layer in CROT only. -/
def tileOk (p : Partition) (rot : Bool) (w : Word) : Bool :=
  let t := tileWord w
  w &&& ~~~(0xF03FF : Word) == 0 && (rot || t.plane || t.layer == 0) &&
    decide (t.tile < if t.plane then p.ptTiles else p.accTiles)
/-- Key of the first byte of a tile of a partition. -/
def tileKey (c : CubeId) (p : Partition) (t : TileW) : Nat :=
  if t.plane then windowBase c + faceOffset t.layer + 0x0100_0000 + (p.ptBase + t.tile) * 0x4000
  else windowBase c + accOffset + (p.accBase + t.tile) * 0x4000
/-- The number of a tile's checksum record (R296). -/
def recNumber (p : Partition) (t : TileW) : Nat :=
  if t.plane then 1024 + 64 * t.layer + (p.ptBase + t.tile) else p.accBase + t.tile
def tileWordAt (s : State) (key i j : Nat) : Nat := memNat s.mem (key + 4 * (64 * i + j)) 4
/-- The address of a tile's element in the local aperture. -/
def tileVA (t : TileW) (i j : Nat) : VA :=
  localVA ((if t.plane then faceOffset t.layer + 0x0100_0000 else accOffset) + t.tile * 0x4000 + 4 * (64 * i + j))

/-! ### Operands (R284) -/

/-- One layer's operand entry: the key of its first byte and its format. -/
structure Opnd where
  key : Nat
  fmt : Nat
  off : Nat
  layer : Nat
deriving DecidableEq, Repr
/-- Offset of the face entry of a layer as a key. -/
def faceKey (c : CubeId) (p : Partition) (l o : Nat) : Nat := windowBase c + faceOffset l + p.faceBase * 0x4_0000 + o
/-- Byte offsets in the entry that hold element (i, kk), and the bit where it begins. -/
def opBytes (f i kk : Nat) : Nat × Nat × Nat :=
  match entryLayout f with
  | some (lam, g) =>
    let b := entryBit f lam g i kk
    (b / 8, (b % 8 + fmtBits f + 7) / 8, b % 8)
  | none => (0, 1, 0)
def Opnd.bits (o : Opnd) (s : State) (i kk : Nat) : Nat :=
  let x := opBytes o.fmt i kk
  memNat s.mem (o.key + x.1) x.2.1 / 2 ^ x.2.2 % 2 ^ fmtBits o.fmt
/-- The key of the scale of (i, block of kk) of an MX entry (R66). -/
def Opnd.scaleKey (o : Opnd) (i kk : Nat) : Nat :=
  match entryLayout o.fmt with
  | some (lam, g) => o.key / 0x4_0000 * 0x4_0000 + 0x3_C000 + (o.key % 0x4_0000 / (64 * g) + kk / lam) * lam / 32 * 64 + i
  | none => o.key
def Opnd.scale (o : Opnd) (s : State) (i kk : Nat) : Nat := (memByte s.mem (o.scaleKey i kk)).toNat
/-- The integer of an I8 or MX element. -/
def Opnd.q (o : Opnd) (s : State) (i kk : Nat) : Int := sint (fmtBits o.fmt) (o.bits s i kk)
/-- decode of an element. -/
def Opnd.val (o : Opnd) (s : State) (i kk : Nat) : FVal :=
  match fmtMx o.fmt, fmtNum o.fmt with
  | some mx, _ => mxDecode mx (o.q s i kk) (o.scale s i kk)
  | none, some nf => decodeNum nf (o.bits s i kk)
  | none, none => .fin false 0 0

/-! ### Formats and dot widths (R283) -/

def clsFp8 : Nat := 14
def clsBf16 : Nat := 15
def clsFp16 : Nat := 16
def clsInt8 : Nat := 17
def clsMx (f : Nat) : Nat := if f = 8 then 18 else if f = 9 then 19 else 20
/-- Dot width and classes of a legal pair. -/
def mmPair (a b : Nat) : Option (Nat × List Nat) :=
  if a = b then
    match a with
    | 4 => some (16, [clsFp8]) | 5 => some (16, [clsFp8]) | 2 => some (8, [clsBf16]) | 3 => some (4, [clsFp16])
    | 6 => some (8, [clsInt8]) | 8 => some (8, [18]) | 9 => some (16, [19]) | 10 => some (32, [20])
    | _ => none
  else if isMx a ∧ isMx b then
    let w := if min a b = 8 ∧ max a b = 9 then 8 else 16
    some (w, [clsMx a, clsMx b])
  else none

/-! ### A processing element (R81, R82, R290) -/

/-- Chunks of w depth positions of 0 to kd − 1, and beyond. -/
def cycles (kd w : Nat) : List (List Nat) := (List.range (ceilDiv kd w)).map fun c => (List.range w).map (c * w + ·)
/-- The 32-bit two's complement value of an integer, and whether it wrapped. -/
def wrap32 (x : Int) : Int × Bool :=
  let v := sint 32 (intBits 32 x)
  (v, v != x)
/-- A running F32 sum by dot groups; `f` gives the exact product at a depth position. -/
def peFloat (kd w : Nat) (f : Nat → FVal) : FVal :=
  (cycles kd w).foldl (fun run ks => dotGroup run (ks.map f)) (.fin false 0 0)
/-- INT8 products into an F32 accumulator. -/
def peInt (kd w : Nat) (f : Nat → Int) : FVal :=
  (cycles kd w).foldl (fun run ks => add32 run (.ofInt (ks.foldl (fun a k => a + f k) 0))) (.fin false 0 0)
/-- INT8 products into an INT32 accumulator, with its wraps. -/
def peI32 (kd w : Nat) (f : Nat → Int) : Int × Bool :=
  (cycles kd w).foldl (fun run ks =>
    let r := wrap32 (run.1 + ks.foldl (fun a k => a + f k) 0)
    (r.1, run.2 || r.2)) (0, false)
/-- MX products by blocks: S over the block, one rounding, one addition. -/
def peMx (s : State) (a b : Opnd) (i j kd : Nat) (here : Nat → Bool) : FVal :=
  (List.range (ceilDiv kd 32)).foldl (fun run k =>
    let ks := ((List.range 32).map (32 * k + ·)).filter here
    match ks, fmtMx a.fmt, fmtMx b.fmt with
    | k0 :: _, some fa, some fb =>
      let xa := a.scale s i k0
      let xb := b.scale s j k0
      let sum := ks.foldl (fun t q => t + a.q s i q * b.q s j q) (0 : Int)
      let term : FVal :=
        if xa = 255 ∨ xb = 255 then .nan
        else dec32 (enc32 .rne (.fin (sum < 0) sum.natAbs (fa.fexp + fb.fexp + (xa : Int) + xb - 254)))
      add32 run term
    | _, _, _ => run) (.fin false 0 0)

/-- A partial or a tile element: an F32 value, or an INT32 value with its wraps. -/
inductive Part where
  | f (x : FVal)
  | i (x : Int) (wrapped : Bool)
deriving DecidableEq, Repr
/-- One addition of the descent or of the tile (R83). -/
def Part.add : Part → Part → Part
  | .f a, .f b => .f (add32 a b)
  | .i a wa, .i b wb => let r := wrap32 (a + b); .i r.1 (wa || wb || r.2)
  | p, _ => p
def Part.bits : Part → Nat
  | .f x => enc32 .rne x
  | .i x _ => intBits 32 x
def Part.wrapped : Part → Bool | .i _ w => w | .f _ => false
def partOfBits (i32 : Bool) (b : Nat) : Part := if i32 then .i (sint 32 b) false else .f (dec32 b)

/-- The pieces of a CMMA on one layer: its operands and its rank. -/
structure LayerOp where
  a : Opnd
  b : Opnd
  rank : Nat
deriving DecidableEq, Repr
/-- Depth positions of a layer that are present (R290). -/
def present (kd v rank kk : Nat) : Bool := decide (kk < kd) && decide (rank * kd + kk < v)
/-- The partial of element (i, j) of a layer. -/
def cellPart (s : State) (m : Cmd) (w v : Nat) (o : LayerOp) (i j : Nat) : Part :=
  let kd := m.mmK
  let here := present kd v o.rank
  if isMx o.a.fmt then .f (peMx s o.a o.b i j kd here)
  else if o.a.fmt = 6 then
    let f (k : Nat) : Int := if here k then o.a.q s i k * o.b.q s j k else 0
    if m.mmI32 then let r := peI32 kd w f; .i r.1 r.2 else .f (peInt kd w f)
  else .f (peFloat kd w fun k => if here k then (o.a.val s i k).mul (o.b.val s j k) else .fin false 0 0)
/-- The checksum of A or B at a depth position (R295): exact for I8, else rounded once. -/
def sigInt (s : State) (o : Opnd) (live : List Nat) (k : Nat) : Int := live.foldl (fun a i => a + o.q s i k) 0
def sigVal (s : State) (o : Opnd) (live : List Nat) (k : Nat) : FVal :=
  dec32 (enc32 .rne (sumExact .rne (live.map fun i => o.val s i k)))
/-- A spare element: the checksum of one operand against row or column n of the other (R295). -/
def sparePart (s : State) (m : Cmd) (w v : Nat) (rank : Nat) (sum other : Opnd) (live : List Nat) (n : Nat) : Part :=
  let kd := m.mmK
  let here := present kd v rank
  if sum.fmt = 6 then
    let f (k : Nat) : Int := if here k then sigInt s sum live k * other.q s n k else 0
    if m.mmI32 then .i (peI32 kd w f).1 false else .f (peInt kd w f)
  else .f (peFloat kd w fun k => if here k then (sigVal s sum live k).mul (other.val s n k) else .fin false 0 0)
/-- The descent (R83): the highest rank first. -/
def descend (ps : List Part) : Part :=
  match ps.reverse with
  | [] => .f (.fin false 0 0)
  | p :: t => t.foldl Part.add p

end Sys2Proof.Machine
end

