-- ==== Sys2Proof/Machine/CubeEng.lean ====
section
/-! DEFINITION. The cube engine at work (R281 to R299): plane order, the start and completion of CMMA, CROT and CACC, checksum
records, and join points (R303). -/
namespace Sys2Proof.Machine

/-! ### Plane order (R281, R292) -/

/-- The kind of destination of a CMMA, with its mask; commands of one such kind may overlap. -/
def overlapKind (m : Cmd) : Option (BitVec 8 × Bool) :=
  match m.kind with
  | .cube (.mma ..) => some (m.mmMask, m.mmPlane)
  | _ => none
/-- Earlier incomplete commands of the strand in the plane queues of a command. -/
def planeEarlier (k : Cube) (m : Cmd) : List Cmd := (earlierOf k m).filter fun q => q.planes &&& m.planes != 0
def planeReady (k : Cube) (m : Cmd) : Bool :=
  (planeEarlier k m).all fun q => q.status == .started && (overlapKind m).isSome && overlapKind q == overlapKind m
/-- The layers whose multipliers a command fires, or whose tiles it moves. -/
def tileLayer (w : Word) : List Nat := if (tileWord w).plane then [(tileWord w).layer] else []
def fireLayers (m : Cmd) : List Nat :=
  match m.kind with
  | .cube (.mma ..) => m.mmLayers
  | .cube (.rot _) => [(tileWord (m.dw 0)).layer]
  | .cube .move => tileLayer (m.dw 0) ++ tileLayer (m.dw 1)
  | .cube _ => tileLayer (m.dw 0)
  | _ => []
/-- A layer that is gated, pending, ramping or held starts nothing (R387, R388). -/
def layerAsleep (k : Cube) (l : Nat) : Bool :=
  let y := k.layerPwr l
  y.gated || y.pend || y.ramp || y.held
/-- A command that names a gated layer requests it (R387). -/
def requestLayers (s : State) (c : CubeId) (ls : List Nat) : State :=
  s.modCube c fun k => { k with pwr := { k.pwr with layers := Vector.ofFn fun l =>
    (let y := k.pwr.layers.get l
     if ls.contains l.val && y.gated then { y with pend := true } else y) } }
/-- The layers of a plane set have been idle for no time (R387). -/
def busyLayers (s : State) (c : CubeId) (planes : BitVec 8) : State :=
  s.modCube c fun k => { k with pwr := { k.pwr with layers := Vector.ofFn fun l =>
    (let y := k.pwr.layers.get l
     if planes.getLsbD l.val then { y with idle := 0 } else y) } }
/-- Commands wait while a class of the cube and drain queues is under test (R378). -/
def testHolds (k : Cube) : Bool := match k.con.testing with | some n => decide (14 ≤ n) && decide (n ≤ 23) | none => false
/-- A command enqueued after a skew write waits for it (R305). -/
def skewHolds (k : Cube) (m : Cmd) : Bool := k.eng.skewNext.any fun w => decide (w.1 ≤ m.id)

/-- A cube command is over; joins that wait for a failed one fail (R303). -/
def cubeFinish (s : State) (c : CubeId) (m : Cmd) (err : Option EngErr) (wrote : List Nat) : State :=
  let plane := (layersOf m.planes).headD 0
  let s := if err.isSome then s.modCube c fun k => { k with joins := k.joins.map fun j =>
      if (j.waits.any fun w => w.2 == m.id) then { j with failed := true } else j } else s
  finishCmd s c m plane err wrote
def cubeFail (s : State) (c : CubeId) (m : Cmd) (e : EngErr) : State := cubeFinish s c m (some e) []

/-! ### The checks of a CMMA (R285, R291) -/

def Cmd.spoolA (m : Cmd) : Nat := ((m.dw 1).extractLsb' 0 5).toNat
def Cmd.spoolB (m : Cmd) : Nat := ((m.dw 1).extractLsb' 5 5).toNat
/-- The shape word, and the spools as far as no format decides them. -/
def mmShapeBad (m : Cmd) : Bool :=
  let w := m.dw 0
  w.extractLsb' 57 7 != 0 || w.extractLsb' 35 4 != 0 || m.mmM == 0 || decide (64 < m.mmM) || m.mmN == 0 ||
    decide (64 < m.mmN) || m.mmK == 0 || decide (4096 < m.mmK) || m.mmMask == 0 ||
    (m.mmPlane && decide (m.mmLayers.length ≠ 1)) ||
    decide ((if m.mmPlane then m.part.ptTiles else m.part.accTiles) ≤ m.mmTile) || m.dw 1 >>> 10 != 0
def mmSpoolsBad (s : State) (m : Cmd) : Bool :=
  let a := strandSpool s m.sid m.spoolA
  let b := strandSpool s m.sid m.spoolB
  m.spoolA == m.spoolB || a.region != 2 || b.region != 2 || decide (0x80_0000 ≤ a.base) || decide (b.base < 0x80_0000)
/-- Bytes of a layer's faces that a partition can use (R285). -/
def usableFace (k : Cube) (p : Partition) (l : Nat) (b : Bool) : Nat :=
  min (((if b then layerBBanks k l else layerABanks k l) - p.faceBase) * 0x4_0000) p.faceBytes
/-- The operand entry of a side in each named layer. -/
def mmOpnd (c : CubeId) (m : Cmd) (b : Bool) (off l : Nat) : Opnd :=
  let bank := m.part.faceBase + off % 0x80_0000 / 0x4_0000
  ⟨faceKey c m.part l off, ((facePal m.pals l b bank).extractLsb' 0 4).toNat, off, l⟩
def spanOf (f kd : Nat) : Nat := match entryLayout f with | some (lam, g) => entrySpan lam g kd | none => 0
/-- Size and place of the entries (R285). -/
def mmEntryBad (k : Cube) (m : Cmd) (sp : Spool) (b : Bool) (os : List Opnd) : Bool :=
  os.any fun o =>
    let n := spanOf o.fmt m.mmK
    decide (sp.esize < n) || decide (usableFace k m.part o.layer b < o.off % 0x80_0000 + n)
/-- An MX entry outside its bank's data area, or misaligned (R66). -/
def mmMxBad (m : Cmd) (o : Opnd) : Bool :=
  isMx o.fmt && (o.off % 0x4_0000 % mxAlign o.fmt != 0 || decide (0x3_C000 < o.off % 0x4_0000 + spanOf o.fmt m.mmK))
def mmFormatBad (m : Cmd) (as bs : List Opnd) : Bool :=
  match as, bs with
  | a :: _, b :: _ =>
    as.any (fun o => o.fmt != a.fmt) || bs.any (fun o => o.fmt != b.fmt) || as.any (mmMxBad m) || bs.any (mmMxBad m) ||
      (mmPair a.fmt b.fmt).isNone || (m.mmI32 && a.fmt != 6) || (isMx a.fmt && m.mmK % 32 != 0)
  | _, _ => true
/-- Width and classes of a checked pair. -/
def mmWidth (as bs : List Opnd) : Nat × List Nat :=
  match as, bs with
  | a :: _, b :: _ => (mmPair a.fmt b.fmt).getD (1, [])
  | _, _ => (1, [])
/-- The bytes of an operand that a CMMA reads: keys with their local addresses. -/
def opReads (m : Cmd) (b : Bool) (rank : Nat) (o : Opnd) : List (Nat × VA) :=
  let live := idxOf (if b then m.mmCols else m.mmRows)
  (((List.range m.mmK).filter (present m.mmK m.mmV rank)).flatMap fun kk => live.flatMap fun i =>
    let x := opBytes o.fmt i kk
    ((List.range x.2.1).map fun n => o.key + x.1 + n) ++ if isMx o.fmt then [o.scaleKey i kk] else []).map fun a =>
      (a, faceVA o.layer (o.off + a - o.key))
/-- The tile of a CMMA. -/
def Cmd.mmDest (m : Cmd) : TileW := ⟨m.mmLayers.headD 0, m.mmPlane, m.mmTile⟩
def tileReads (c : CubeId) (p : Partition) (t : TileW) (rows cols : List Nat) : List (Nat × VA) :=
  rows.flatMap fun i => cols.flatMap fun j => (List.range 4).map fun n =>
    (tileKey c p t + 4 * (64 * i + j) + n, tileVA t i j)
/-- The first poisoned byte among reads. -/
def poisoned (s : State) (rs : List (Nat × VA)) : Option VA :=
  if s.poison.isEmpty then none else (rs.find? fun r => s.poison.contains (lineOf r.1)).map Prod.snd
def armed (s : State) : Bool := (List.finRange 8).any fun c => (s.cube c).con.injArm
def fireKeys (s : State) (rs : List (Nat × VA)) : State := if armed s then fireReads s (linesOf (rs.map Prod.fst)) else s

/-- A CMMA starts when its spools are ready: its checks, and its reservations (R287, R291). -/
def mmStart (s : State) (c : CubeId) (m : Cmd) (z ha hb : Bool) : State :=
  if mmShapeBad m || mmSpoolsBad s m then cubeFail s c m (engErr 7 0)
  else
    let sa := strandSpool s m.sid m.spoolA
    let sb := strandSpool s m.sid m.spoolB
    if sa.unreserved = 0 ∨ sb.unreserved = 0 then s
    else
      let as := m.mmLayers.map (mmOpnd c m false (sa.entryOff sa.nextC))
      let bs := m.mmLayers.map (mmOpnd c m true (sb.entryOff sb.nextC))
      let k := s.cube c
      if mmEntryBad k m sa false as || mmEntryBad k m sb true bs then cubeFail s c m (engErr 7 0)
      else if mmFormatBad m as bs then cubeFail s c m (engErr 0x0C 0)
      else if (mmWidth as bs).2.any (fun x => !k.hw.caps.getLsbD x) then cubeFail s c m (engErr 0x0D 0)
      else
        let rs := (as.mapIdx fun r o => opReads m false r o).flatten ++ (bs.mapIdx fun r o => opReads m true r o).flatten ++
          if z then [] else tileReads c m.part m.mmDest (idxOf m.mmRows) (idxOf m.mmCols)
        let s := fireKeys s rs
        match poisoned s rs with
        | some va => cubeFail s c m (engErr 3 va)
        | none =>
          let took := (if ha then [] else [(m.spoolA, sa.nextC, 1)]) ++ if hb then [] else [(m.spoolB, sb.nextC, 1)]
          (startCmd s c m [] took).modCube c fun k => k.modCmd m.id fun q => { q with ents := [sa.nextC, sb.nextC] }

/-! ### What a CMMA writes (R290, R295, R296) -/

def mmOps (s : State) (c : CubeId) (m : Cmd) : List LayerOp :=
  let ea := (strandSpool s m.sid m.spoolA).entryOff (m.ents.getD 0 0)
  let eb := (strandSpool s m.sid m.spoolB).entryOff (m.ents.getD 1 0)
  m.mmLayers.mapIdx fun r l => ⟨mmOpnd c m false ea l, mmOpnd c m true eb l, r⟩
/-- A value folded into its tile element or check (R83). -/
def intoTile (z i32 : Bool) (old : Nat) (p : Part) : Part := if z then p else (partOfBits i32 old).add p
def findRec (k : Cube) (n : Nat) : Option ChkRec := k.recs.find? fun r => r.tile == n
def setRec (k : Cube) (n : Nat) (r : Option ChkRec) : Cube :=
  { k with recs := r.toList ++ k.recs.filter fun q => q.tile != n }
/-- The record after a CMMA (R296). -/
def mmRecord (old : Option ChkRec) (z : Bool) (m : Cmd) (n : Nat) (classes : BitVec 29) (row col : Nat → Part) :
    Option ChkRec :=
  let i32 := m.mmI32
  let vec (live : Word) (o : Nat → Nat) (f : Nat → Part) : Vector (BitVec 32) 64 := Vector.ofFn fun i =>
    if live.getLsbD i.val then BitVec.ofNat 32 (intoTile z i32 (o i.val) (f i.val)).bits else 0
  match z, old with
  | true, _ => some ⟨n, i32, m.mmRows, m.mmCols, vec m.mmRows (fun _ => 0) row, vec m.mmCols (fun _ => 0) col, classes⟩
  | false, some r =>
    if r.i32 = i32 ∧ r.rows = m.mmRows ∧ r.cols = m.mmCols then
      some ⟨n, i32, m.mmRows, m.mmCols, vec m.mmRows (fun i => (r.rowChk.toList.getD i 0).toNat) row,
        vec m.mmCols (fun j => (r.colChk.toList.getD j 0).toNat) col, classes⟩
    else none
  | false, none => none
def classBits (cs : List Nat) : BitVec 29 := cs.foldl (fun a n => a ||| BitVec.twoPow 29 n) 0
/-- Shelf of a strand on a cube, for CUB_STAT.IOSHELF. -/
def shelfOf (k : Cube) (sid : Nat) : Nat :=
  match k.strands.find? fun x => x.2.sid == sid with
  | some x => x.1.val
  | none => 0
/-- The results of a CMMA: the bytes of its live elements, whether one wrapped, and the tile's record. -/
def mmDo (s : State) (c : CubeId) (m : Cmd) (z : Bool) : State :=
  let ops := mmOps s c m
  let (w, cls) := mmWidth (ops.map LayerOp.a) (ops.map LayerOp.b)
  let rows := idxOf m.mmRows
  let cols := idxOf m.mmCols
  let v := m.mmV
  let key := tileKey c m.part m.mmDest
  let n := recNumber m.part m.mmDest
  let els := rows.flatMap fun i => cols.map fun j =>
    (i, j, intoTile z m.mmI32 (tileWordAt s key i j) (descend (ops.map fun o => cellPart s m w v o i j)))
  let row (i : Nat) : Part := descend (ops.map fun o => sparePart s m w v o.rank o.b o.a cols i)
  let col (j : Nat) : Part := descend (ops.map fun o => sparePart s m w v o.rank o.a o.b rows j)
  let r := mmRecord (findRec (s.cube c) n) z m n (classBits cls) row col
  let cells := els.flatMap fun e => cellsAt (key + 4 * (64 * e.1 + e.2.1)) (bytesLE 4 e.2.2.bits)
  let s := placeCells s m.asn cells
  s.modCube c fun k =>
    let k := setRec k n r
    if els.any (fun e => e.2.2.wrapped) then
      { k with eng := { k.eng with iovf := true, ioshelf := BitVec.ofNat 4 (shelfOf k m.sid) } }
    else k

/-! ### CROT (R297) -/

/-- A Hadamard sign: whether H(k, j) is −1. -/
def hadNeg (k j : Nat) : Bool := ((List.range 6).filter fun b => (k &&& j).testBit b).length % 2 == 1
/-- A value times 2^−n, rounded once to F32. -/
def scaleDown (n : Nat) : FVal → FVal
  | .fin g m e => dec32 (enc32 .rne (.fin g m (e - n)))
  | x => x
/-- One row of 64 values rotated in blocks of n. -/
def rotRow (n : Nat) (xs : List FVal) : List FVal :=
  (List.range 64).map fun j =>
    let base := if n = 32 then 32 * (j / 32) else 0
    scaleDown (if n = 64 then 3 else 2) ((List.range (n / 4)).foldl (fun run c =>
      dotGroup run ((List.range 4).map fun q =>
        let k := 4 * c + q
        let x := xs.getD (base + k) (.fin false 0 0)
        if hadNeg (k % n) (j % n) then x.neg else x)) (.fin false 0 0))
def rotDo (s : State) (c : CubeId) (m : Cmd) (n : Nat) : State :=
  let t := tileWord (m.dw 0)
  let key := tileKey c m.part t
  let el (i j : Nat) : FVal := dec32 (tileWordAt s key i j)
  let rows := (List.range 64).map fun i => (List.range 64).map (el i)
  let out := rows.map (rotRow n)
  let sums := (List.range 64).map fun k => dec32 (enc32 .rne (sumExact .rne ((List.range 64).map fun i => el i k)))
  let col := rotRow n sums
  let eight : FVal := .fin false 8 0
  let rowc (i : Nat) : Nat := enc32 .rne ((if n = 64 then el i 0 else FVal.add .rne (el i 0) (el i 32)).mul eight)
  let r : ChkRec := ⟨recNumber m.part t, false, BitVec.allOnes 64, BitVec.allOnes 64,
    Vector.ofFn fun i => BitVec.ofNat 32 (rowc i.val),
    Vector.ofFn fun j => BitVec.ofNat 32 (enc32 .rne (col.getD j.val .nan)), classBits [21]⟩
  let cells := (out.mapIdx fun i xs => (xs.mapIdx fun j x => cellsAt (key + 4 * (64 * i + j)) (bytesLE 4 (enc32 .rne x))).flatten).flatten
  (placeCells s m.asn cells).modCube c fun k => setRec k r.tile (some r)
def allIdx : List Nat := List.range 64
def rotStart (s : State) (c : CubeId) (m : Cmd) : State :=
  if !tileOk m.part true (m.dw 0) then cubeFail s c m (engErr 7 0)
  else
    let rs := tileReads c m.part (tileWord (m.dw 0)) allIdx allIdx
    let s := fireKeys s rs
    match poisoned s rs with
    | some va => cubeFail s c m (engErr 3 va)
    | none => startCmd s c m [] []

/-! ### CACC (R298, R299) -/

/-- Masks and stride of a CACC or CDRAIN group that begins at word n of the command's group; without one everything is live. -/
def grpRows (m : Cmd) (n : Nat) : Word := if m.grp.length ≤ n then BitVec.allOnes 64 else m.dw n
def grpCols (m : Cmd) (n : Nat) : Word := if m.grp.length ≤ n then BitVec.allOnes 64 else m.dw (n + 1)
def grpStride (m : Cmd) (n : Nat) : Int := ((m.dw (n + 2)).extractLsb' 0 32).toInt
def accStride (m : Cmd) : Int := if m.grp.length ≤ 2 then 256 else grpStride m 2
def accMem (op : CubeOp) : Bool := op == .ld || op == .st
def accStart (s : State) (c : CubeId) (m : Cmd) (op : CubeOp) : State :=
  let bad := !tileOk m.part false (m.dw 0) || (op == .move && !tileOk m.part false (m.dw 1)) ||
    (accMem op && ((m.dw 1).toNat % 4 != 0 || accStride m % 4 != 0))
  if bad then cubeFail s c m (engErr 7 0) else startCmd s c m [] []
/-- Whether `cacc` may reach a memory address: base scratch by the local aperture, HBM, a peer, the host or CXL memory. R299 lets
it reach translated memory, which R88's table does not (DEDUCED, log entry 131). -/
def accReach (s : State) (c : CubeId) (m : Cmd) (va : VA) : Bool :=
  match resolve s (cmdAgent s c m) va with
  | .fault _ => true
  | .ok t =>
    va.extractLsb' 48 4 != 0xE && match keySpace s t.key with
      | .hbm _ | .host | .cxl | .peer .. => true
      | .scratch .. => va.extractLsb' 44 8 == 0xFF
      | .none => true
      | _ => false
/-- The live elements of a CACC in order: memory address and the addresses in its tiles. -/
def accEls (m : Cmd) : List (VA × VA × VA) :=
  (idxOf (grpRows m 2)).flatMap fun (i : Nat) => (idxOf (grpCols m 2)).map fun (j : Nat) =>
    (((m.dw 1).setWidth 52) + BitVec.ofInt 52 ((i : Int) * accStride m + 4 * j), tileVA (tileWord (m.dw 0)) i j,
      tileVA (tileWord (m.dw 1)) i j)
def accElem (op : CubeOp) (e : VA × VA × VA) : Elem :=
  match op with
  | .ld => .plain (vaRange e.1 4) (vaRange e.2.1 4) id
  | .st => .plain (vaRange e.2.1 4) (vaRange e.1 4) id
  | .move => .plain (vaRange e.2.1 4) (vaRange e.2.2 4) id
  | _ => .plain [] (vaRange e.2.1 4) fun _ => List.replicate 4 0
def accWork (s : State) (c : CubeId) (m : Cmd) (op : CubeOp) : List OutByte × Option EngErr :=
  let els := accEls m
  let ok := if accMem op then els.takeWhile fun e => accReach s c m e.1 else els
  match runElems s c m (ok.map (accElem op)) [] with
  | (os, some e) => (os, some e)
  | (os, none) =>
    match els.drop ok.length with
    | [] => (os, none)
    | e :: _ => (os, some ⟨2, kPrivilege, e.1⟩)
/-- The tile that a CACC writes, if it writes one. -/
def accTile (m : Cmd) : CubeOp → Option TileW
  | .zero | .ld => some (tileWord (m.dw 0))
  | .move => some (tileWord (m.dw 1))
  | _ => none
def accDo (s : State) (c : CubeId) (m : Cmd) (op : CubeOp) : State :=
  let s := fireProbe s fun s => (accWork s c m op).2.map fun e => (e.code, e.addr)
  let (os, err) := accWork s c m op
  let s := engWrite s m false os
  let s := match accTile m op with
    | some t => s.modCube c fun k => setRec k (recNumber m.part t) none
    | none => s
  cubeFinish s c m err (homesOf os)

/-! ### Start and completion -/

/-- A CMMA may fire now: its turn in its planes and its operands have come, and its layers are awake. -/
def mmReady (s : State) (c : CubeId) (m : Cmd) : Bool :=
  let k := s.cube c
  m.status == .queued && unfenced s c m && !skewHolds k m && planeReady k m && !(fireLayers m).any (layerAsleep k) &&
    decide (0 < (strandSpool s m.sid m.spoolA).unreserved) && decide (0 < (strandSpool s m.sid m.spoolB).unreserved)
/-- Commands that could fire in one cycle reserve the entries of a spool in the order of their lowest layers (R287). -/
def mmYields (s : State) (c : CubeId) (m : Cmd) : Bool :=
  (s.cube c).cmds.any fun q => (match q.kind with | .cube (.mma ..) => true | _ => false) && q.sid == m.sid &&
    decide (q.mmLayers.headD 8 < m.mmLayers.headD 8) &&
    [q.spoolA, q.spoolB].any (fun n => n == m.spoolA || n == m.spoolB) && mmReady s c q
/-- CUBE_CMD_START (R292): the command stands first in its plane queues, and its layers are awake. -/
def cubeStart (s : State) (c : CubeId) (id : Nat) : State :=
  match (s.cube c).cmd id with
  | none => s
  | some m =>
    match m.kind with
    | .cube op =>
      let k := s.cube c
      if m.status != .queued || testHolds k || !unfenced s c m || skewHolds k m || !planeReady k m then s
      else if (fireLayers m).any (layerAsleep k) then requestLayers s c (fireLayers m)
      else
        match op with
        | .mma z ha hb _ => if mmYields s c m then s else mmStart s c m z ha hb
        | .rot _ => rotStart s c m
        | .zero | .ld | .st | .move => accStart s c m op
    | _ => s
/-- CUBE_CMD_COMPLETE: commands complete in the order they started, and none while one of its layers is held. -/
def cubeComplete (s : State) (c : CubeId) (id : Nat) : State :=
  match (s.cube c).cmd id with
  | none => s
  | some m =>
    match m.kind with
    | .cube op =>
      let k := s.cube c
      if m.status != .started || !(planeEarlier k m).isEmpty || !storesDone s m ||
          (fireLayers m).any (fun l => (k.layerPwr l).held) then s
      else
        match op with
        | .mma z _ _ _ => cubeFinish (mmDo s c m z) c m none []
        | .rot h64 => cubeFinish (rotDo s c m (if h64 then 64 else 32)) c m none []
        | .zero | .ld | .st | .move => accDo s c m op
    | _ => s

/-! ### Join points (R303) -/

def Join.reachedBy (j : Join) (k : Cube) (l : Nat) : Bool := j.waits.all fun w => w.1 != l || (k.cmd w.2).isNone
def Join.anyReached (j : Join) (k : Cube) : Bool := (layersOf j.layers).any (j.reachedBy k)
def Join.allReached (j : Join) (k : Cube) : Bool := (layersOf j.layers).all (j.reachedBy k)
/-- The cycles in which layers reach their joins are noted as they pass. -/
def noteJoins (s : State) (c : CubeId) : State :=
  if (s.cube c).joins.isEmpty then s
  else s.modCube c fun k => { k with joins := k.joins.map fun j =>
    { j with first := if j.first.isNone && j.anyReached k then some s.cycle else j.first
             last := if j.last.isNone && j.allReached k then some s.cycle else j.last } }
/-- A join's completion add, as a command of the cube queue would make it. -/
def joinCmd (j : Join) : Cmd :=
  { id := j.id, sid := j.sid, queue := .cubeq, kind := .cube .zero, tag := j.tag, mode := j.mode, asn := j.asn, part := j.part
    grp := [], ctr := j.ctr, amt := j.amt, pals := .reset, recipe := 0, planes := j.layers, after := [], joins := []
    items := [], status := .finished, err := if j.failed then some (engErr 0 0) else none, res := [], took := [], ents := []
    out := [], wrote := [], acqs := [], homes := [], seq := 0, dead := false, seed := 0, lost := none, addDead := true }
def joinAdd (s : State) (c : CubeId) (j : Join) : State :=
  if j.amt = 0 then s
  else match addTarget s c (joinCmd j) with
    | .ok t => addItem s c (joinCmd j) t
    | .error e => faultRecord s c (joinCmd j) ((layersOf j.layers).headD 0) e
/-- JOIN_POINT_COMPLETE: every named layer has reached the join; its counter's translation may have to be walked first (R104). -/
def joinComplete (s : State) (c : CubeId) (id : Nat) : State :=
  let s := noteJoins s c
  let was := s
  match (s.cube c).joins.find? fun j => j.id == id with
  | none => s
  | some j =>
    let ag := cmdAgent s c (joinCmd j)
    if !j.allReached (s.cube c) || walkOut s ag.req id then s
    else if j.amt ≠ 0 && mustWalk s ag (j.ctr.setWidth 52) then requestWalk s ag (j.ctr.setWidth 52)
    else
      let skew := match j.first, j.last with
        | some a, some b => min (b - a).toNat 65535
        | _, _ => 0
      let s := s.modCube c fun k => { k with joins := k.joins.filter fun q => q.id != id }
      let s := s.modSid j.sid fun x => { x with sys := { x.sys with jmask := j.layers, jskew := BitVec.ofNat 16 skew } }
      let u := takeWalks (joinAdd s c j) ag.req id
      if heldUp was u then was else u
/-- The join point of a `csync.join` issued now. -/
def newJoin (s : State) (x : Ctx) (layers : BitVec 8) (ctr amt : Word) : Join :=
  let k := s.cube s.me
  let mine := k.cmds.filter fun m => m.sid == x.sid && m.queue == .cubeq && m.planes &&& layers != 0
  { id := s.nextId, sid := x.sid, tag := s.cmdTag, layers := layers
    waits := (layersOf layers).flatMap fun l => (mine.filter fun m => m.planes.getLsbD l).map fun m => (l, m.id)
    mode := x.mode, asn := x.sys.asn, part := x.part, ctr := ctr, amt := amt, failed := mine.any fun m => m.err.isSome
    first := none, last := none }
def joinsFull (k : Cube) : Bool := decide (8 ≤ k.joins.length)
/-- The join point is placed; an empty set completes at once; a ninth pending join holds the instruction. -/
def placeJoin (s : State) (x : Ctx) (layers : BitVec 8) (ctr amt : Word) : State :=
  if layers != 0 && joinsFull (s.cube s.me) then s
  else
    let j := newJoin s x layers ctr amt
    let s := { s with nextId := s.nextId + 1 }
    let s := s.modCube s.me fun k => { k with joins := k.joins ++ [j] }
    if layers = 0 then joinComplete s s.me j.id else noteJoins s s.me

end Sys2Proof.Machine
end

