-- ==== Sys2Proof/Machine/Counter.lean ====
section
/-! DEFINITION. Counters (R184 to R191): adds and maxima as items, waits and reads. -/
namespace Sys2Proof.Machine

/-! ### Adds and maxima (R185) -/

/-- A counter operation that its target does not take: the reduction window none (R365), host memory and a target that is no
Irsere package no maximum (R185, R359). -/
def counterRefused (s : State) (isMax : Bool) (t : Target) : Option (BitVec 4) :=
  let ok := !inWindow s t.key && (!isMax || (match t.peer with
    | some p => peerIrsere s p
    | none => (match keySpace s t.key with
      | .host => false
      | _ => true)))
  if ok then none else some kNoTarget
def counterCheck (s : State) (isMax : Bool) (line : BitVec 3) (a : Src) : Except Trap Target :=
  scalarCheck s .both accCounter line 8 (counterRefused s isMax) (addrOf s.ctx a)
/-- A counter operation as an item on its line; a release waits at its source for the writes that it covers (R112). -/
def counterItem (op : Target → Word → ItemOp) (isMax : Bool) (g : Guard) (line : BitVec 3) (glob : Bool) (a b : Src)
    (scope : Scope) (rel : Bool) (s : State) : Out :=
  s.guarded g fun x s => s.checked (counterCheck s isMax line a) fun t =>
    let va := addrOf x a
    sendItem s { coreItem s x t (op t (x.src b)) va [(va, 8)] accCounter with
      line := line, glob := glob, rel := rel, scope := if rel then scope else .pkg
      after := if rel then coveredBy s x va else [] }
def execCadd (g : Guard) (line : BitVec 3) (glob : Bool) (a b : Src) (scope : Scope) (rel : Bool) (s : State) : Out :=
  counterItem (counterOp s) false g line glob a b scope rel s
def execCmax (g : Guard) (line : BitVec 3) (glob : Bool) (a b : Src) (scope : Scope) (rel : Bool) (s : State) : Out :=
  counterItem (fun t v => .cmax t.key v) true g line glob a b scope rel s

/-! ### Waits (R186, R189, R190) -/

def counterReadCheck (s : State) (a : Src) : Except Trap Target :=
  scalarCheck s .read accCounter 0 8 (offWindow s) (addrOf s.ctx a)
/-- The home of a counter records watches: an Irsere package's, for places of its own (R190). -/
def recordsWatch (s : State) (t : Target) : Bool :=
  match t.peer with
  | some p => peerIrsere s p
  | none => (match keySpace s t.key with
    | .host | .cxl => false
    | _ => true)
def waitInfo (s : State) (x : Ctx) (t : Target) (va : VA) (target : Word) (np : Bool) : WaitInfo :=
  ⟨t.key, va, target, x.mode == .task && !np, recordsWatch s t, false, migOf t x.sys.asn va⟩
/-- The counter is read at its home; a read of a strand that would park also asks for a watch (R190). -/
def sendWait (s : State) (c : CubeId) (w : WaitInfo) : State :=
  let r : ReadReq := ⟨s.nextId, (s.cube c).core.sid, c, accCounter, w.va, byteCells w.key 8 0, [], .wait, none,
    if w.park && w.watched then some w.target else none, .sent, 0, 0, false, w.mig, .none, ([], [])⟩
  let s := s.modCube c fun k => k.modCore fun x => { x with wait := .reading s.nextId w }
  sendRead s r
/-- `cwait` (R186): at first its bundle waits for the counter's read; once that is satisfied it commits, with the acquire of
`.acq`, and the next bundle sees the value; a failed read commits without one (R188, R124). Later loads wait for it, bound or not
(DESIGN CHOICE, log entry 102). -/
def execCwait (g : Guard) (d : SReg) (a b : Src) (_scope : Scope) (acq np : Bool) (s : State) : Out :=
  s.guarded g fun x s =>
    match x.wait with
    | .none => s.checked (counterReadCheck s a) fun t => sendWait s s.me (waitInfo s x t (addrOf x a) (x.src b) np)
    | .satisfied v =>
      let s := s.modCtx Ctx.dropWait
      (if acq then acquire s s.me x (boundRegions x (addrOf x a)) else s).writeS0 1 d v
    | .failed t => s.modCtx fun x => x.dropWait.addPending t s.place
    | .reading .. | .parked | .spinning _ => s
/-- `crd` (R187): the word at its home, interlocked; an acquire holds later loads of the bound regions (R113). -/
def execCrd (g : Guard) (d : SReg) (a : Src) (scope : Scope) (acq : Bool) (s : State) : Out :=
  s.guarded g fun x s => s.checked (counterReadCheck s a) fun t =>
    let va := addrOf x a
    let s' := if acq then s.modCtx fun x => { x with acqs := x.acqs ++ [⟨s.nextId, boundRegions x va⟩] } else s
    sendRead s' { readReq s x accCounter va t 8 (.scalar d false 8 false) with
      cached := [], acq := if acq then some (scope, va) else none }

end Sys2Proof.Machine
end

