-- ==== Sys2Proof/Machine/Sync.lean ====
section
/-! DEFINITION. Fences and bindings (R193 to R197). -/
namespace Sys2Proof.Machine

/-! ### Fences -/

/-- Items and reads of a strand that are still out. -/
def openItems (s : State) (sid : Nat) : List Nat := (s.items.filter fun i => i.sid == sid && i.cmd.isNone).map Item.id
def openReads (s : State) (sid : Nat) : List Nat := (s.reads.filter fun r => r.sid == sid).map ReadReq.id
/-- A fence of a kind at a scope after everything that the strand has issued (R122, R163, R196). -/
def fenceHold (s : State) (x : Ctx) (kind : FenceKind) (scope : Scope) : FenceHold :=
  { kind := kind, scope := scope
    items := if kind = .loadLoad then [] else openItems s x.sid
    reads := if kind = .storeStore then [] else openReads s x.sid
    tlbis := if kind = .full ∧ scope ≠ .cube then (s.tlbis.filter fun t => t.sid == x.sid).map Tlbi.id else [] }
/-- What a fence waits for has come about. -/
def fencePast (s : State) (f : FenceHold) : Bool :=
  f.items.all (completedTo s f.scope) && f.reads.all (fun i => (s.read i).isNone) &&
    f.tlbis.all fun i => !s.tlbis.any fun t => t.id == i
/-- A write that the fence waits for has been lost (R124). -/
def fenceFailed (s : State) (f : FenceHold) : Bool :=
  s.items.any fun i => f.items.contains i.id && i.status == .failed
/-- The fence ends: what it waits for has come about, and no write of it was lost. -/
def fenceEnds (s : State) (f : FenceHold) : Bool := fencePast s f && !fenceFailed s f
/-- Fences whose condition holds end, and those that invalidate drop the edge cache then (R122). -/
def settleFences (s : State) (c : CubeId) : State :=
  let past := (s.cube c).core.fences.filter (fenceEnds s)
  if past.isEmpty then s
  else
    let s' := if past.any fun f => f.kind != .storeStore && f.scope != .cube then s.modCube c edgeClear else s
    s'.modCube c fun k => k.modCore fun x => { x with fences := x.fences.filter fun f => !fenceEnds s f }
/-- Later memory operations of the fence's own bundle wait for what the fence waits for, and for engine commands (R196, R197). -/
def fenceBundle (s : State) (f : FenceHold) (cmds : List Nat) : State :=
  s.modBundle fun b => { b with prior := b.prior ++ [(f.kind, ⟨f.items.map fun i => (f.scope, i), f.reads, cmds⟩)] }
def execFence (g : Guard) (kind : FenceKind) (scope : Scope) (s : State) : Out :=
  s.guarded g fun x s =>
    let f := fenceHold s x kind scope
    (fenceBundle s f []).modCtx fun y => { y with fences := y.fences ++ [f] }
/-- `qfence` (R197). -/
def execQfence (g : Guard) (mask : BitVec 6) (s : State) : Out :=
  s.guarded g fun x s =>
    if mask = 0 then s
    else
      let core := mask.getLsbD 5
      let e := ((s.cube s.me).cmds.filter fun m => m.sid == x.sid && mask.getLsbD (queueBit m.queue)).map Cmd.id
      let f : QFenceHold :=
        ⟨mask, e, if core then openItems s x.sid else [], if core then openReads s x.sid else [], core⟩
      let h := fenceHold s x .full .pkg
      (if core then fenceBundle s h e else s).modCtx fun y => { y with
        qfences := y.qfences ++ [f]
        fences := if core then y.fences ++ [h] else y.fences }
/-- What a `qfence` orders is past. -/
def qfencePast (s : State) (c : CubeId) (f : QFenceHold) : Bool :=
  f.cmds.all (fun i => ((s.cube c).cmd i).isNone) && f.items.all (completedTo s .pkg) &&
    f.reads.all fun i => (s.read i).isNone
def settleQfences (s : State) (c : CubeId) : State :=
  s.modCube c fun k => k.modCore fun x => { x with qfences := x.qfences.filter fun f => !qfencePast s c f }

/-! ### Bindings -/

/-- The granules of a region: its start rounded down, its end rounded up (R193). -/
def bindEntry (k base size : Word) : Binding :=
  let va : VA := base.setWidth 52
  let lo := va.toNat / 4096 * 4096
  let hi := min (roundUp (va.toNat + size.toNat) 4096) (2 ^ 52)
  ⟨k.setWidth 52, BitVec.ofNat 52 lo, hi - lo⟩
def Ctx.bound (x : Ctx) (e : Binding) : Bool := x.binds.toList.contains (some e)
/-- The traps of `bind`: a misaligned counter, and a table without a free entry (R193). -/
def bindTrap (s : State) (d : SReg) (a b : Src) : Option Trap :=
  let x := s.ctx
  if (x.s d).toNat % 8 ≠ 0 then some (s.slotTrapOf causeAlign 0 0 ((x.s d).setWidth 52))
  else if x.src b = 0 ∨ x.bound (bindEntry (x.s d) (x.src a) (x.src b)) then none
  else if x.binds.toList.all Option.isSome then some (s.slotTrapOf causeBindFull 0 0 0)
  else none
/-- The first free entry takes a binding. -/
def fillBind (e : Binding) : List (Option Binding) → List (Option Binding)
  | [] => []
  | none :: t => some e :: t
  | some f :: t => some f :: fillBind e t
def Ctx.setBinds (x : Ctx) (l : List (Option Binding)) : Ctx := { x with binds := Vector.ofFn fun n => l.getD n.val none }
def execBind (g : Guard) (d : SReg) (a b : Src) (s : State) : Out :=
  s.guarded g fun x s =>
    match bindTrap s d a b with
    | some t => takeTrap s s.me t
    | none =>
      let e := bindEntry (x.s d) (x.src a) (x.src b)
      if x.src b = 0 ∨ x.bound e then s else s.modCtx fun y => y.setBinds (fillBind e y.binds.toList)
/-- `unbind` (R194): every binding of the counter, or the one of exactly the region. -/
def execUnbind (g : Guard) (d : SReg) (a b : Src) (s : State) : Out :=
  s.guarded g fun x s =>
    let e := bindEntry (x.s d) (x.src a) (x.src b)
    let gone (f : Binding) : Bool := if x.src b = 0 then f.counter == e.counter else f == e
    s.modCtx fun y => { y with binds := y.binds.map fun o => o.filter fun f => !gone f }

end Sys2Proof.Machine
end

