-- ==== Sys2Proof/Machine/Sys.lean ====
section
/-! DEFINITION. The system instructions (R157 to R165). What takes effect after the bundle has committed is left in the
bundle's state for its end. -/
namespace Sys2Proof.Machine

def State.control (s : State) (c : Control) : State := s.modBundle fun b => { b with ctl := c }
/-- A post-commit trap of the slot in execution (R147). -/
def State.postTrap (s : State) (cause : BitVec 8) (code : BitVec 6) : State :=
  s.modBundle fun b => { b with post := some { s.slotTrapOf cause 0 0 0 with code := code } }
/-- The PRIVILEGE trap (R44, R157, R165). -/
def State.privilegeTrap (s : State) : Trap := s.slotTrapOf causePrivilege 0 0 0
/-- An instruction of runtime and secure modes; task mode traps before commit (R157). -/
def State.privileged (s : State) (g : Guard) (f : Ctx → State → State) : Out :=
  s.guarded g fun x s => if x.mode = .task then takeTrap s s.me s.privilegeTrap else f x s

/-- No operation (R43, R157). -/
def execNop (s : State) : Out := .next s
def execHalt (g : Guard) (s : State) : Out := s.guarded g fun _ s => s.control .halt
def execYield (g : Guard) (s : State) : Out := s.guarded g fun _ s => s.control .yield
def execTrap (g : Guard) (code : BitVec 6) (s : State) : Out := s.guarded g fun _ s => s.postTrap causeTrapInsn code
def execEret (g : Guard) (s : State) : Out := s.privileged g fun _ s => s.control .eret
def execIflush (g : Guard) (s : State) : Out := s.guarded g fun _ s => s.control .iflush
/-- `brk` traps, or halts the core for debug when SEQ_MODE.BRKHALT is set (R160). -/
def execBrk (g : Guard) (s : State) : Out :=
  s.guarded g fun _ s => if (s.cube s.me).cregs.brkHalt then s.control .debugHalt else s.postTrap causeBreak 0
/-- `tlbi` sets out; its effect completes later (R105, R163). -/
def execTlbi (g : Guard) (d : SReg) (a : Src) (code : BitVec 6) (s : State) : Out :=
  s.privileged g fun x s =>
    { s with tlbis := s.tlbis ++ [⟨s.nextId, x.sid, (x.s d).setWidth 12, (x.src a).setWidth 52, code.toNat⟩]
             nextId := s.nextId + 1 }
/-- `noise` pops the oldest word; with an empty queue it waits and changes nothing (R76, R164). -/
def execNoise (g : Guard) (d : SReg) (s : State) : Out :=
  s.guarded g fun x s =>
    match x.noise.queue with
    | [] => s
    | w :: _ => (s.modBundle fun b => { b with popS := true }).writeS0 1 d w
def execCyc (g : Guard) (d : SReg) (s : State) : Out := s.guarded g fun _ s => s.writeS0 1 d s.cycle
def execSelf (g : Guard) (d : SReg) (s : State) : Out := s.guarded g fun x s => s.writeS0 1 d (x.task.index.setWidth 64)
/-- `sysrd` (R165): the register's value, with the side effects of the read. -/
def execSysrd (g : Guard) (d : SReg) (n : BitVec 12) (s : State) : Out :=
  s.guarded g fun x s =>
    if readTraps x.mode n.toNat then takeTrap s s.me s.privilegeTrap
    else popRead (s.writeS0 2 d (regValue s s.me x n.toNat)) s.me n.toNat
/-- `syswr` (R165): the write takes effect for every later bundle. -/
def execSyswr (g : Guard) (r : SReg) (n : BitVec 12) (s : State) : Out :=
  s.guarded g fun x s =>
    if writeTraps x.mode n.toNat then takeTrap s s.me s.privilegeTrap
    else s.modBundle fun b => { b with sysw := some (n, x.s r) }

end Sys2Proof.Machine
end

