-- ==== Sys2Proof/Machine/Cube.lean ====
section
/-! DEFINITION. The cube instructions (R281, R288, R297, R298, R300 to R305): commands that enter the cube queue, and the
instructions on spools, palettes and joins that execute at issue. -/
namespace Sys2Proof.Machine

/-! ### Commands -/

/-- The plane set of a tile word (R281). -/
def tilePlanes (w : Word) : BitVec 8 := if (tileWord w).plane then BitVec.twoPow 8 (tileWord w).layer else 0xFF
/-- A command enters the cube queue: the layers of its plane queues are idle no longer, and those that it names and that are gated are
requested on (R387). -/
def enqueueCube (s : State) (op : CubeOp) (grp : List Word) (ctr amt : Word) (planes : BitVec 8) : State :=
  if (s.cube s.me).queueFull .cubeq then s
  else
    let u := enqueue s .cubeq (.cube op) grp ctr amt 0 planes
    match (u.cube s.me).cmds.getLast? with
    | some m => requestLayers (busyLayers u s.me planes) s.me (fireLayers m)
    | none => u
def cmmaAny (g : Guard) (a b : SReg) (extra : Ctx → List Word) (op : CubeOp) (s : State) : Out :=
  s.guarded g fun x s =>
    enqueueCube s op ([x.s a, x.s b] ++ extra x) 0 0 ((x.s a).extractLsb' 27 8)
def execCmma (g : Guard) (a b : SReg) (hb ha z : Bool) (s : State) : Out :=
  cmmaAny g a b (fun _ => []) (.mma z ha hb false) s
def execCmmaMsk (g : Guard) (a b c : SReg) (hb ha z : Bool) (s : State) : Out :=
  cmmaAny g a b (fun x => x.group c 3) (.mma z ha hb true) s
def crotAny (h64 : Bool) (g : Guard) (a : SReg) (s : State) : Out :=
  s.guarded g fun x s => enqueueCube s (.rot h64) [x.s a] 0 0 (tilePlanes (x.s a))
def execCrotH32 (g : Guard) (a : SReg) (s : State) : Out := crotAny false g a s
def execCrotH64 (g : Guard) (a : SReg) (s : State) : Out := crotAny true g a s
/-- A CACC with its group, when field c is not zero. -/
def caccAny (op : CubeOp) (g : Guard) (a : SReg) (b : Ctx → Word) (c : SReg) (s : State) : Out :=
  s.guarded g fun x s =>
    let w := x.s a
    let planes := tilePlanes w ||| if op = .move then tilePlanes (b x) else 0
    let grp := if c = 0 then [] else x.group c 5
    enqueueCube s op ([w, b x] ++ grp) (grp.getD 3 0) (grp.getD 4 0) planes
def execCaccZero (g : Guard) (a c : SReg) (s : State) : Out := caccAny .zero g a (fun _ => 0) c s
def execCaccLd (g : Guard) (a b c : SReg) (s : State) : Out := caccAny .ld g a (fun x => x.s b) c s
def execCaccSt (g : Guard) (a b c : SReg) (s : State) : Out := caccAny .st g a (fun x => x.s b) c s
def execCaccMove (g : Guard) (a b c : SReg) (s : State) : Out := caccAny .move g a (fun x => x.s b) c s

/-! ### Spools (R300, R301) -/

def spoolTrap (s : State) : Trap := s.slotTrapOf causeSpool 0 0 0
/-- A command names a spool: as a side, as an operand, or, whatever it is, as its fault spool. -/
def namesSpool (m : Cmd) (n : Nat) : Bool :=
  let side (w : Word) : Bool := match addrForm w with | .spool k _ => k == n | _ => false
  n == 31 || match m.kind with
    | .copy .fill => side (m.dw 1)
    | .copy _ => side (m.dw 0) || side (m.dw 1)
    | .cube (.mma ..) => m.spoolA == n || m.spoolB == n
    | .cube _ => false
    | .drain _ => side (m.dw 1)
    | .block .fetch => side (m.dw 2)
    | .block _ => false
/-- An enqueued command of the strand names a spool. Commands that lower slots of the bundle now in commit have enqueued do not count:
the check comes before commit (R300). -/
def spoolBusy (s : State) (n : Nat) : Bool :=
  (s.cube s.me).cmds.any fun m => m.sid == s.ctx.sid && namesSpool m n &&
    match s.bundle.first with
    | some i => decide (m.id < i)
    | none => true
/-- The spool that a register names; its other bits are zero. -/
def spoolNum (w : Word) : Option Nat := if w >>> 5 = 0 then some w.toNat else none
def State.spool (s : State) (n : Nat) : Spool := strandSpool s s.ctx.sid n
def csplDefTrap (s : State) (a b c : SReg) : Option Trap :=
  let x := s.ctx
  match spoolNum (x.s a) with
  | none => some (spoolTrap s)
  | some n => if spoolBusy s n || !spoolDefined x.part (x.s b) (x.s c) then some (spoolTrap s) else none
/-- Entries beyond the capacity less the occupancy and what producers have reserved (R300). -/
def csplAdvpTrap (s : State) (a b : SReg) : Option Trap :=
  match spoolNum (s.ctx.s a) with
  | none => some (spoolTrap s)
  | some n =>
    let sp := s.spool n
    if sp.region = 0 ∨ sp.free < (s.ctx.s b).toNat then some (spoolTrap s) else none
def csplAdvcTrap (s : State) (a b : SReg) : Option Trap :=
  match spoolNum (s.ctx.s a) with
  | none => some (spoolTrap s)
  | some n =>
    let sp := s.spool n
    if sp.region = 0 ∨ sp.unreserved < (s.ctx.s b).toNat then some (spoolTrap s) else none
def csplRdpTrap (s : State) (b : SReg) : Option Trap :=
  if (spoolNum (s.ctx.s b)).isNone then some (spoolTrap s) else none
def csplResetTrap (s : State) (a : SReg) : Option Trap :=
  match spoolNum (s.ctx.s a) with
  | none => some (spoolTrap s)
  | some n => if spoolBusy s n then some (spoolTrap s) else none
/-- What an instruction does that a check may trap. -/
def State.orTrap (s : State) (t : Option Trap) (f : State) : State :=
  match t with
  | some t => takeTrap s s.me t
  | none => f
def spoolAt (s : State) (a : SReg) : Nat := (s.ctx.s a).toNat
def State.setSpool (s : State) (n : Nat) (f : Spool → Spool) : State := modSpool s s.ctx.sid n f
def execCsplDef (g : Guard) (a b c : SReg) (s : State) : Out :=
  s.guarded g fun x s => s.orTrap (csplDefTrap s a b c)
    (s.setSpool (spoolAt s a) fun _ => { Spool.reset with loc := x.s b, size := x.s c })
/-- The bytes of the spool's region, in scratch or in the face of every layer: where they begin, and how many. -/
def spoolSpan (c : CubeId) (p : Partition) (sp : Spool) : List (Nat × Nat) :=
  let n := sp.esize * sp.cap
  if sp.region = 1 then [(windowBase c + p.scrBase * 0x10_0000 + sp.base, n)]
  else if sp.region = 2 then
    (List.range 8).map fun l => (windowBase c + faceOffset l + p.faceBase * 0x4_0000 + sp.base, n)
  else []
/-- The strand's earlier stores to a region, which P's advance waits for (R301). -/
def storesInto (s : State) (x : Ctx) (rs : List (Nat × Nat)) : List Nat :=
  (s.items.filter fun i => i.sid == x.sid && i.isWriteOp && i.op.locs.any fun a =>
    rs.any fun r => decide (r.1 ≤ a) && decide (a < r.1 + r.2)).map Item.id
def execCsplAdvp (g : Guard) (a b : SReg) (s : State) : Out :=
  s.guarded g fun x s => s.orTrap (csplAdvpTrap s a b)
    (let n := (x.s b).toNat
     let w := storesInto s x (spoolSpan s.me x.part (s.spool (spoolAt s a)))
     if n = 0 then s
     else s.setSpool (spoolAt s a) fun sp => settleSpool s { (sp.reserve n) with held := sp.held ++ [(true, sp.nextP, n, w)] })
def execCsplAdvc (g : Guard) (a b : SReg) (s : State) : Out :=
  s.guarded g fun x s => s.orTrap (csplAdvcTrap s a b)
    (let n := (x.s b).toNat
     if n = 0 then s
     else s.setSpool (spoolAt s a) fun sp =>
       settleSpool s { (sp.take n) with held := sp.held ++ [(false, sp.nextC, n, openReads s x.sid)] })
def execCsplRdp (g : Guard) (a b : SReg) (s : State) : Out :=
  s.guarded g fun _ s => s.orTrap (csplRdpTrap s b)
    (let sp := s.spool (spoolAt s b)
     s.writeS0 2 a (if sp.region = 0 then 0 else sp.p.setWidth 64 ||| (sp.c.setWidth 64 <<< 32)))
def execCsplReset (g : Guard) (a : SReg) (s : State) : Out :=
  s.guarded g fun _ s => s.orTrap (csplResetTrap s a)
    (s.setSpool (spoolAt s a) fun sp => { Spool.reset with loc := sp.loc, size := sp.size })

/-! ### Palettes (R302) -/

/-- The bank word: region, layer, bank and ALL. -/
def bankBad (p : Partition) (get : Bool) (w : Word) : Bool :=
  let region := (w.extractLsb' 12 2).toNat
  let layer := (w.extractLsb' 8 3).toNat
  let bank := (w.extractLsb' 0 6).toNat
  let n := if region = 0 then p.scrBanks else ceilDiv p.faceBytes 0x4_0000
  w &&& ~~~(0xB73F : Word) != 0 || region == 3 || (region == 0 && (layer != 0 || w.getLsbD 15)) || (get && w.getLsbD 15) ||
    decide (n ≤ bank)
/-- A word is no palette (R67). -/
def paletteBad (w : Word) : Bool := w >>> 7 != 0 || !paletteValid (w.setWidth 7)
def cpalSetTrap (s : State) (a b : SReg) : Option Trap :=
  if bankBad s.ctx.part false (s.ctx.s a) || paletteBad (s.ctx.s b) then some (spoolTrap s) else none
def cpalGetTrap (s : State) (b : SReg) : Option Trap := if bankBad s.ctx.part true (s.ctx.s b) then some (spoolTrap s) else none
/-- The palettes that a bank word names: scratch (0) or faces (1), with their index. -/
def bankIndex (p : Partition) (w : Word) : List (Nat × Nat) :=
  let region := (w.extractLsb' 12 2).toNat
  let bank := (w.extractLsb' 0 6).toNat
  if region = 0 then [(0, p.scrBase + bank)]
  else
    let side := if region = 2 then 32 else 0
    (if w.getLsbD 15 then List.range 8 else [(w.extractLsb' 8 3).toNat]).map fun l => (1, 64 * l + side + p.faceBase + bank)
/-- The new palettes take effect for commands of later bundles (R69). -/
def execCpalSet (g : Guard) (a b : SReg) (s : State) : Out :=
  s.guarded g fun x s => s.orTrap (cpalSetTrap s a b)
    (s.modBundle fun u => { u with pals := u.pals ++ (bankIndex x.part (x.s a)).map fun i => (i.1, i.2, (x.s b).setWidth 7) })
def execCpalGet (g : Guard) (a b : SReg) (s : State) : Out :=
  s.guarded g fun x s => s.orTrap (cpalGetTrap s b)
    (let i := (bankIndex x.part (x.s b)).headD (0, 0)
     let pl := (s.cube s.me).pals
     s.writeS0 2 a ((if i.1 = 0 then pl.scr.toList.getD i.2 0 else pl.face.toList.getD i.2 0).setWidth 64))

/-! ### Joins and skew (R303 to R305) -/

def execCsyncJoin (g : Guard) (a b c : SReg) (s : State) : Out :=
  s.guarded g fun x s => placeJoin s x ((x.s a).setWidth 8) (x.s b) (x.s c)
def statWord (s : State) (x : Ctx) : Word :=
  (x.sys.jmask.setWidth 64 <<< 56) ||| (x.sys.jskew.setWidth 64 <<< 32) |||
    ((planesBusy (s.cube s.me)).setWidth 64 <<< 24) ||| fields8 3 (effStep s (s.cube s.me))
def execCsyncStat (g : Guard) (a : SReg) (s : State) : Out :=
  s.guarded g fun x s => s.writeS0 2 a (statWord s x)
/-- A write to CUB_SKEW waits for the cube queue (R305, R310). -/
def writeSkew (s : State) (c : CubeId) (v : BitVec 32) : State :=
  s.modCube c fun k => { k with eng := { k.eng with skewNext := k.eng.skewNext ++ [(s.nextId, v)] } }
/-- Each field below its layer's DELAY is raised to it. -/
def raiseSkew (k : Cube) (v : BitVec 32) : BitVec 32 :=
  BitVec.ofNat 32 ((List.range 8).foldl (fun a l =>
    let d := ((k.hw.layers.toList.getD l 0).extractLsb' 4 3).toNat
    a + max d (v.toNat / 2 ^ (4 * l) % 16) * 2 ^ (4 * l)) 0)
/-- CUB_SKEW_APPLY: the oldest waiting write takes effect once every command before it has completed. -/
def applySkew (s : State) (c : CubeId) : State :=
  match (s.cube c).eng.skewNext with
  | [] => s
  | (id, v) :: rest =>
    if (s.cube c).cmds.any (fun m => m.queue == .cubeq && decide (m.id < id)) then s
    else s.modCube c fun k => { k with eng := { k.eng with skew := raiseSkew k v, skewNext := rest } }
def execCsyncSkew (g : Guard) (a : SReg) (s : State) : Out :=
  s.privileged g fun x s => writeSkew s s.me ((x.s a).setWidth 32)

/-! ### Steps of the cube engine -/

/-- CUBE_CMD_START. -/
def execCubeCmdStart (c : CubeId) (id : Nat) (s : State) : Out :=
  .next (engEvent c id (fun s => cubeStart s c id) s)
/-- CUBE_CMD_COMPLETE. -/
def execCubeCmdComplete (c : CubeId) (id : Nat) (s : State) : Out :=
  .next (engEvent c id (fun s => cubeComplete s c id) s)
/-- JOIN_POINT_COMPLETE. -/
def execJoinPointComplete (c : CubeId) (id : Nat) (s : State) : Out := .next (joinComplete s c id)
/-- CUB_SKEW_WRITE. -/
def execCubSkewWrite (c : CubeId) (v : Word) (s : State) : Out := .next (writeSkew s c (v.setWidth 32))
/-- CUB_SKEW_APPLY. -/
def execCubSkewApply (c : CubeId) (s : State) : Out := .next (applySkew s c)

end Sys2Proof.Machine
end

