-- ==== Sys2Proof/Machine/Failure.lean ====
section
/-! DEFINITION. Failures of capability classes (R377, R378): what counts as one, when a self-test falls due, and the records of
votes, residues and drains (R375). -/
namespace Sys2Proof.Machine

/-- Cycles of CON_FENCEWINDOW. -/
def fenceCycles (k : Cube) : Nat := k.con.fenceWindow.toNat * 1000 * Config.cyclesPerUs
/-- A class fails on a cube: with an earlier failure within the window its self-test falls due; a window of 0 makes each
failure start one. -/
def noteFailure (s : State) (c : CubeId) (cls : Nat) : State :=
  s.modCube c fun k =>
    let q := k.con
    let near := q.fails.filter fun f => f.1 == cls && decide ((s.cycle - f.2).toNat ≤ fenceCycles k)
    let due := q.fenceWindow == 0 || !near.isEmpty
    { k with con := { q with
      fails := (cls, s.cycle) :: q.fails.filter fun f => f.1 != cls || near.contains f
      testsDue := if due && !q.testsDue.contains cls && q.testing != some cls then q.testsDue ++ [cls] else q.testsDue } }
def classesOf (b : BitVec 29) : List Nat := (List.range 29).filter fun n => b.getLsbD n
def noteFailures (s : State) (c : CubeId) (b : BitVec 29) : State := (classesOf b).foldl (fun s n => noteFailure s c n) s
/-- A drain corrected its tile, or failed its comparison (R327, R377). -/
def drainFailure (s : State) (c : CubeId) (corrected : Bool) (classes : BitVec 29) (shelf : Nat) : State :=
  let w := logRecord (if corrected then 8 else 9) 0 (classWhere ((classesOf classes).headD 0) shelf)
  noteFailures (if corrected then logCe s c w else logUe s c w) c classes

end Sys2Proof.Machine
end

