-- ==== Sys2Proof/Machine/Transc.lean ====
section
/-! DEFINITION. The transcendental functions of R207 and R320: the exact mathematical value rounded once. Each is computed
as an interval of integers at scale 2^fixP that holds the exact value; where both ends round to the same bits, that is
the rounded value. The exact cases are taken apart first, so the ends can disagree only if 640 bits were too few; then the
result is the free value Config.unroundedBits (log entry 6). -/
namespace Sys2Proof.Machine

/-- Fraction bits of the fixed-point bounds. -/
def fixP : Nat := 640
def fixOne : Nat := 2 ^ fixP

/-- Bounds of a nonnegative real at scale 2^fixP. -/
structure Iv where
  lo : Nat
  hi : Nat
deriving DecidableEq, Repr

/-- Bounds of m × 2^e. -/
def Iv.ofDyadic (m : Nat) (e : Int) : Iv :=
  if 0 ≤ e + fixP then let v := m * 2 ^ (e + fixP).toNat; ⟨v, v⟩
  else let d := 2 ^ (-(e + fixP)).toNat; ⟨m / d, m / d + 1⟩
def Iv.add (a b : Iv) : Iv := ⟨a.lo + b.lo, a.hi + b.hi⟩
/-- Bounds of a - b for a real difference that is not negative. -/
def Iv.sub (a b : Iv) : Iv := ⟨a.lo - b.hi, a.hi - b.lo⟩
def Iv.mul (a b : Iv) : Iv := ⟨a.lo * b.lo / fixOne, a.hi * b.hi / fixOne + 1⟩
def Iv.div (a b : Iv) : Iv := ⟨a.lo * fixOne / b.hi, a.hi * fixOne / b.lo + 1⟩
def Iv.scale (k : Nat) (a : Iv) : Iv := ⟨k * a.lo, k * a.hi⟩
def Iv.shr (k : Nat) (a : Iv) : Iv := ⟨a.lo / 2 ^ k, a.hi / 2 ^ k + 1⟩
def Iv.one : Iv := ⟨fixOne, fixOne⟩

/-- n terms of the series of artanh z from term k, for z at most 1/3: p is z^(2k+1). -/
def artanhSum (z2 : Iv) : Nat → Nat → Iv → Iv
  | 0, _, p => ⟨0, 2 * p.hi + 1⟩
  | n + 1, k, p => Iv.add ⟨p.lo / (2 * k + 1), p.hi / (2 * k + 1) + 1⟩ (artanhSum z2 n (k + 1) (p.mul z2))
/-- ln of (1 + z)/(1 - z). -/
def lnRatio (z : Iv) : Iv := (artanhSum (z.mul z) 210 0 z).scale 2
/-- ln 2, by z = 1/3. -/
def ln2 : Iv := lnRatio ⟨fixOne / 3, fixOne / 3 + 1⟩

/-- n terms of the exponential series from term k; the rest is at most twice the next term, for x below 0.7. -/
def expSum (x : Iv) : Nat → Nat → Iv → Iv
  | 0, _, t => ⟨0, 2 * t.hi + 1⟩
  | n + 1, k, t =>
    let u := t.mul x
    Iv.add t (expSum x n (k + 1) ⟨u.lo / (k + 1), u.hi / (k + 1) + 1⟩)
/-- e^x for x in [0, 0.7). -/
def expSmall (x : Iv) : Iv := expSum x 130 0 Iv.one
/-- e^(-t) for t at least 0: t = k ln 2 + r; beyond 1000 it lies below the last bit. -/
def expNeg (t : Iv) : Iv :=
  if 1000 * fixOne ≤ t.lo then ⟨0, 1⟩
  else
    let l := ln2
    let k := t.lo / l.hi
    let r := t.sub (l.scale k)
    (Iv.one.div (expSmall r)).shr k

/-- 1/(1 + e^(-a)) for a = ±t. -/
def sigmoidIv (neg : Bool) (t : Iv) : Iv :=
  let e := expNeg t
  (if neg then e else Iv.one).div (Iv.one.add e)
/-- tanh t for t at least 0. -/
def tanhIv (t : Iv) : Iv :=
  let e := expNeg (t.scale 2)
  (Iv.one.sub e).div (Iv.one.add e)
/-- 2^f for f in [0, 1). -/
def exp2Frac (f : Iv) : Iv := expSmall (f.mul ln2)

/-- n terms of arctan(1/d) × 16^... as alternating sums: p is 1/d^(2k+1). -/
def arctanSum (d2 : Nat) : Nat → Nat → Nat → Nat × Nat
  | 0, _, _ => (0, 0)
  | n + 1, k, p =>
    let r := arctanSum d2 n (k + 1) (p / d2)
    if k % 2 = 0 then (r.1 + p / (2 * k + 1), r.2) else (r.1, r.2 + p / (2 * k + 1))
/-- Bounds of arctan(1/d): n terms, each off by at most 2, and a rest below n. -/
def arctanInv (d n : Nat) : Iv :=
  let s := arctanSum (d * d) n 0 (fixOne / d)
  ⟨s.1 - s.2 - 4 * n, s.1 - s.2 + 4 * n⟩
/-- π = 16 arctan(1/5) - 4 arctan(1/239). -/
def piIv : Iv := ((arctanInv 5 150).scale 16).sub ((arctanInv 239 150).scale 4)
/-- The square root of 2/π. -/
def sqrt2OverPi : Iv :=
  let q := (Iv.one.scale 2).div piIv
  ⟨isqrt (q.lo * fixOne), isqrt (q.hi * fixOne) + 1⟩

/-- Bits of a positive or negative value known by bounds, times m × 2^e: the bits on which both ends agree, else the free
value of function number fn at the operand's bits. -/
def roundIv (f : NFmt) (fn arg : Nat) (neg : Bool) (m : Nat) (e : Int) (v : Iv) : Nat :=
  let lo := encode f .rne 0 (.fin neg (m * v.lo) (e - fixP))
  let hi := encode f .rne 0 (.fin neg (m * v.hi) (e - fixP))
  if lo = hi then lo else Config.unroundedBits fn arg

/-- 2^a (R207). Beyond ±20,000 the result has overflowed or vanished in every format. -/
def exp2Bits (f : NFmt) (arg : Nat) (a : FVal) : Nat :=
  match a with
  | .nan => encode f .rne 0 .nan
  | .inf n => encode f .rne 0 (if n then .fin false 0 0 else .inf false)
  | .fin n m e =>
    if m = 0 then encode f .rne 0 (.fin false 1 0)
    else if 15 ≤ topExp m e then encode f .rne 0 (if n then .fin false 1 (-20000) else .fin false 1 20000)
    else
      -- a = k + r with r in [0, 1), exact
      let sc : Nat := (max (-e) 0).toNat
      let v : Int := (FVal.fin n m e).atScale (-(sc : Int))
      let k : Int := v / (2 ^ sc : Nat)
      let r := (v % (2 ^ sc : Nat)).toNat
      if r = 0 then encode f .rne 0 (.fin false 1 k)
      else roundIv f 0 arg false 1 k (exp2Frac (Iv.ofDyadic r (-(sc : Int))))
/-- log2 a (R207). -/
def log2Bits (f : NFmt) (arg : Nat) (a : FVal) : Nat :=
  match a with
  | .nan => encode f .rne 0 .nan
  | .inf n => encode f .rne 0 (if n then .nan else .inf false)
  | .fin n m e =>
    if m = 0 then encode f .rne 0 (.inf true)
    else if n then encode f .rne 0 .nan
    else
      let p := Nat.log2 m
      let k : Int := e + p
      if m = 2 ^ p then encode f .rne 0 (.ofInt k)
      else
        -- log2 of x = m / 2^p in (1, 2): z = (x - 1)/(x + 1)
        let z : Iv := ⟨(m - 2 ^ p) * fixOne / (m + 2 ^ p), (m - 2 ^ p) * fixOne / (m + 2 ^ p) + 1⟩
        let l := (lnRatio z).div ln2
        if 0 ≤ k then roundIv f 1 arg false 1 0 ((Iv.one.scale k.toNat).add l)
        else roundIv f 1 arg true 1 0 ((Iv.one.scale k.natAbs).sub l)
/-- tanh a (R207). -/
def tanhBits (f : NFmt) (arg : Nat) (a : FVal) : Nat :=
  match a with
  | .nan => encode f .rne 0 .nan
  | .inf n => encode f .rne 0 (.fin n 1 0)
  | .fin n m e => if m = 0 then encode f .rne 0 (.fin n 0 0) else roundIv f 2 arg n 1 0 (tanhIv (Iv.ofDyadic m e))
/-- 1/(1 + e^(-a)) (R207). -/
def sigmBits (f : NFmt) (arg : Nat) (a : FVal) : Nat :=
  match a with
  | .nan => encode f .rne 0 .nan
  | .inf n => encode f .rne 0 (if n then .fin false 0 0 else .fin false 1 0)
  | .fin n m e =>
    if m = 0 then encode f .rne 0 (.fin false 1 (-1)) else roundIv f 3 arg false 1 0 (sigmoidIv n (Iv.ofDyadic m e))
/-- y/(1 + e^(-y)) in F32 (R320). -/
def siluBits (arg : Nat) (a : FVal) : Nat :=
  match a with
  | .nan => encode .f32 .rne 0 .nan
  | .inf n => encode .f32 .rne 0 (if n then .fin true 0 0 else .inf false)
  | .fin n m e =>
    if m = 0 then encode .f32 .rne 0 (.fin n 0 0)
    else roundIv .f32 4 arg n m e (sigmoidIv n (Iv.ofDyadic m e))
/-- 0.5 y (1 + tanh(√(2/π)(y + 0.044715 y³))) in F32 (R320), as y / (1 + e^(-2u)). -/
def geluBits (arg : Nat) (a : FVal) : Nat :=
  match a with
  | .nan => encode .f32 .rne 0 .nan
  | .inf n => encode .f32 .rne 0 (if n then .fin true 0 0 else .inf false)
  | .fin n m e =>
    if m = 0 then encode .f32 .rne 0 (.fin n 0 0)
    else
      let y := Iv.ofDyadic m e
      let c : Iv := ⟨44715 * fixOne / 1000000, 44715 * fixOne / 1000000 + 1⟩
      let u := sqrt2OverPi.mul (y.add (c.mul (y.mul (y.mul y))))
      roundIv .f32 5 arg n m e (sigmoidIv n (u.scale 2))
/-- 1/√a, √a and 1/a round by exact remainders. -/
def rsqBits (f : NFmt) (a : FVal) : Nat := encode f .rne 0 a.rsq
def sqrtBits (f : NFmt) (a : FVal) : Nat := encode f .rne 0 a.sqrt
def rcpBits (f : NFmt) (a : FVal) : Nat := encode f .rne 0 a.rcp

end Sys2Proof.Machine
end

