-- ==== Sys2Proof/Machine/Drain.lean ====
section
/-! DEFINITION. The drain converter (chapter 11): recipes, the checks and stages of a drain, and the checksum comparison. -/
namespace Sys2Proof.Machine

/-! ### Recipes (R318) -/

structure Recipe where
  scale : Nat
  smode : Nat
  bias : Bool
  act : Nat
  rnd : BitVec 3
  add : Bool
  split : Bool
  lskd : Nat
  lsmask : BitVec 8
  vec : Nat
  side : Nat
deriving DecidableEq, Repr
def recipeBits (r : BitVec 128) : Recipe :=
  { scale := (r.extractLsb' 0 32).toNat, smode := (r.extractLsb' 34 2).toNat, bias := r.getLsbD 36
    act := (r.extractLsb' 37 3).toNat, rnd := r.extractLsb' 40 3, add := r.getLsbD 44, split := r.getLsbD 45
    lskd := (r.extractLsb' 46 7).toNat, lsmask := r.extractLsb' 53 8, vec := (r.extractLsb' 64 32).toNat
    side := (r.extractLsb' 96 32).toNat }
def Cmd.rcp (m : Cmd) : Recipe := recipeBits m.recipe

/-! ### The command (R315) -/

def isDrainP (m : Cmd) : Bool := match m.kind with | .drain p => p | _ => false
def drainI32 (m : Cmd) : Bool := (m.dw 0).getLsbD 20
def drainTile (m : Cmd) : TileW := ⟨((m.dw 0).extractLsb' 10 3).toNat, isDrainP m, ((m.dw 0).extractLsb' 0 10).toNat⟩
def drainWordBad (m : Cmd) : Bool :=
  let w := m.dw 0
  let t := drainTile m
  w &&& ~~~(0x1F1FFF : Word) != 0 || (!isDrainP m && t.layer != 0) ||
    decide ((if isDrainP m then m.part.ptTiles else m.part.accTiles) ≤ t.tile)
def drainRows (m : Cmd) : List Nat := idxOf (grpRows m 2)
/-- The live columns; with SPLIT those at or beyond kd × L are not read and not written (R322). -/
def drainCols (m : Cmd) : List Nat :=
  (idxOf (grpCols m 2)).filter fun j => !m.rcp.split || decide (j < m.rcp.lskd * (layersOf m.rcp.lsmask).length)
def needsVec (r : Recipe) : Bool := r.smode == 2 || r.bias
def recipeFits (m : Cmd) : Bool :=
  (!needsVec m.rcp || decide (m.rcp.vec + 512 ≤ m.part.spadBytes)) &&
    (m.rcp.act != 5 || decide (m.rcp.side + 1024 ≤ m.part.spadBytes))
/-- Key of a byte of the partition's scratch. -/
def spadKey (c : CubeId) (p : Partition) (o : Nat) : Nat := windowBase c + p.scrBase * 0x10_0000 + o

/-! ### Where results go (R316, R317) -/

/-- The palette of the destination bank of a local address, if it lies in scratch or the faces of the partition, whether or not the
cube has that bank. -/
def drainPalette (s : State) (c : CubeId) (m : Cmd) (va : VA) : Option (BitVec 7) :=
  if va.extractLsb' 44 8 ≠ 0xFF then none
  else match resolve s (cmdAgent s c m) va with
    | .fault _ => none
    | .ok t =>
      match windowSpace c (fun _ => 32) (fun _ => 32) (t.key - windowBase c) with
      | .scratch _ off => some (m.pals.scr.toList.getD (off / 0x10_0000) 0)
      | .face _ l b off => some (facePal m.pals l b (off / 0x4_0000))
      | _ => none
/-- The same where the bank is there (R16). -/
def drainPlace (s : State) (c : CubeId) (m : Cmd) (va : VA) : Option (BitVec 7) :=
  match resolve s (cmdAgent s c m) va with
  | .ok t => if keySpace s t.key = .none then none else drainPalette s c m va
  | .fault _ => none
def palFmt (p : BitVec 7) : Nat := (p.extractLsb' 0 4).toNat
/-- Bytes of an element in a destination format; RAW takes F32 words. -/
def drainWidth (f : Nat) : Nat := match f with | 0 | 1 | 7 => 4 | 2 | 3 | 11 => 2 | _ => 1
/-- The start of the destination: its address, and the face layer and offset when it lies in a face. -/
structure DrainDest where
  va : VA
  face : Option (Nat × Nat)
  spool : Option Spool
deriving DecidableEq, Repr
def faceOf (va : VA) : Option (Nat × Nat) :=
  let o := va.toNat % 2 ^ 44
  if va.extractLsb' 44 8 = 0xFF ∧ 0x1000_0000 ≤ o ∧ o < 0x2000_0000 ∧ (o - 0x1000_0000) % 0x0200_0000 < 0x0100_0000 then
    some ((o - 0x1000_0000) / 0x0200_0000, (o - 0x1000_0000) % 0x0200_0000) else none
def drainDest (s : State) (m : Cmd) (e : Option Nat) : Option DrainDest :=
  match addrForm (m.dw 1) with
  | .bad => none
  | .va a => some ⟨a, faceOf a, none⟩
  | .spool n l0 =>
    let sp := strandSpool s m.sid n
    let va := if sp.region = 1 then localVA (sp.entryOff (e.getD sp.nextP)) else faceVA l0 (sp.entryOff (e.getD sp.nextP))
    if sp.region = 2 ∨ (sp.region = 1 ∧ l0 = 0) then some ⟨va, if sp.region = 2 then faceOf va else none, some sp⟩ else none
/-- The layout of a checked drain: row-major at a stride, or an entry in layers from a face offset. -/
inductive Layout where
  | rows (df : Nat) (rnd : BitVec 3) (va : VA) (stride : Int)
  | entry (df : Nat) (layers : List Nat) (off : Nat) (kd : Nat)
deriving DecidableEq, Repr
def rowVA (va : VA) (stride : Int) (b i j : Nat) : VA := va + BitVec.ofInt 52 ((i : Int) * stride + j * b)
/-- The stride of a row-major drain (R315, R317). -/
def drainStride (m : Cmd) (toSpool : Bool) (b : Nat) : Int :=
  if m.grp.length ≤ 2 ∨ toSpool then (64 * b : Nat) else grpStride m 2
def allSame {α : Type} [DecidableEq α] : List α → Bool
  | [] => true
  | a :: t => t.all fun b => b == a
/-- The error of a destination in an absent face bank: that of a spool's entry which crosses the usable face (R16), or R330's. -/
def DrainDest.absent (d : DrainDest) : EngErr := engErr (if d.spool.isSome then 7 else 2) d.va
/-- The checks of a row-major drain (R330). -/
def rowsLayout (s : State) (c : CubeId) (m : Cmd) (d : DrainDest) (pal : BitVec 7) : Except EngErr Layout :=
  let f := palFmt pal
  let b := drainWidth f
  let st := drainStride m d.spool.isSome b
  let bad := match d.spool with
    | some sp => (decide (2 < m.grp.length) && grpStride m 2 != 0) || decide (sp.esize < 64 * 64 * b)
    | none => st % b != 0 || d.va.toNat % b != 0
  let ps := (drainRows m).flatMap fun i => (drainCols m).map fun j => drainPlace s c m (rowVA d.va st b i j)
  if bad then .error (engErr 7 0)
  else if ps.any Option.isNone then .error d.absent
  else if !allSame (some pal :: ps) then .error (engErr 0x0C d.va)
  else .ok (.rows f (pal.extractLsb' 4 3) d.va st)
/-- The checks of an entry-layout drain. -/
def entryLayoutOf (s : State) (c : CubeId) (m : Cmd) (d : DrainDest) (pal : BitVec 7) : Except EngErr Layout :=
  let r := m.rcp
  let f := palFmt pal
  match d.face with
  | none => .error (engErr 7 0)
  | some (l, off) =>
    let layers := if r.split then layersOf r.lsmask else [l]
    let kd := if r.split then r.lskd else 64
    let span := spanOf f kd
    let small := match d.spool with | some sp => decide (sp.esize < span) | none => false
    if r.add || layers.headD l != l || small then .error (engErr 7 0)
    else
      let banks (q : Nat) := (List.range (ceilDiv (off % 0x4_0000 + span) 0x4_0000)).map fun b =>
        drainPlace s c m (faceVA q (if b = 0 then off else off / 0x4_0000 * 0x4_0000 + b * 0x4_0000))
      let ends (q : Nat) := drainPlace s c m (faceVA q (off + span - 1))
      let per := layers.map fun q => banks q ++ if span = 0 then [] else [ends q]
      if per.any fun ps => ps.any Option.isNone then .error d.absent
      else if per.any (fun ps => !allSame ps) || !allSame (per.map fun ps => (ps.headD none).map palFmt) then
        .error (engErr 0x0C d.va)
      else if (entryLayout f).isNone then .error (engErr 0x0C d.va)
      else if isMx f && (off % 0x4_0000 % mxAlign f != 0 || decide (0x3_C000 < off % 0x4_0000 + span) || kd % 32 != 0) then
        .error (engErr 0x0C d.va)
      else .ok (.entry f layers off kd)
/-- All checks before the reads (R330). -/
def drainLayout (s : State) (c : CubeId) (m : Cmd) (e : Option Nat) : Except EngErr Layout :=
  if drainWordBad m || !recipeFits m then .error (engErr 7 0)
  else match drainDest s m e with
    | none => .error (engErr 7 0)
    | some d =>
      match drainPalette s c m d.va with
      | none =>
        -- what R317 and the recipe refuse of a split comes before the place
        if m.rcp.split && (m.rcp.add || match d.face with
            | none => true
            | some (l, _) => (layersOf m.rcp.lsmask).headD l != l) then .error (engErr 7 0)
        else .error (engErr 2 d.va)
      | some pal =>
        let lay := if m.rcp.split || isMx (palFmt pal) then entryLayoutOf s c m d pal else rowsLayout s c m d pal
        match lay with
        | .error e => .error e
        | .ok l =>
          if m.rcp.rnd = 4 ∧ !(s.cube c).hw.caps.getLsbD 23 then .error (engErr 0x0D d.va) else .ok l

/-! ### The checksum comparison (R325 to R327) -/

/-- The tile's words as read at start, element (i, j) at 64 i + j. -/
abbrev Tile := Nat → Nat → Nat
def numAt (i32 : Bool) (w : Nat) : FVal := if i32 then .ofInt (sint 32 w) else dec32 w
def notFinite : FVal → Bool
  | .fin .. => false
  | _ => true
def ulpOf : FVal → FVal
  | .fin _ m e => if m = 0 then .fin false 0 0 else .fin false 1 (max (topExp m e - 23) (-149))
  | x => x
/-- A row or column mismatches its check word (R326). -/
def mismatch (i32 : Bool) (tol : Nat) (ws : List Nat) (check : Nat) : Bool :=
  if i32 then
    let d := ws.foldl (fun a w => a + sint 32 w) (0 : Int) - sint 32 check
    d % 2 ^ 32 != 0
  else
    let xs := ws.map dec32
    let ck := dec32 check
    if (ck :: xs).any notFinite then false
    else
      let sum := sumExact .rne xs
      let mag := (sumExact .rne (xs.map FVal.abs)).max2 ck.abs
      let lim := (FVal.fin false tol 0).mul (ulpOf mag)
      lim.lt (FVal.add .rne sum ck.neg).abs
inductive Compared where
  | clean
  | fixed (i j w : Nat)
  | failed
deriving DecidableEq, Repr
/-- The corrected word of element j of a row (R327). -/
def correctedWord (i32 : Bool) (row : List Nat) (old check : Nat) : Nat :=
  if i32 then
    intBits 32 (sint 32 check - (row.foldl (fun a w => a + sint 32 w) 0 - sint 32 old))
  else
    enc32 .rne (sumExact .rne (dec32 check :: dec32 old :: row.map fun w => (dec32 w).neg))
def compareTile (r : ChkRec) (tol : Nat) (t : Tile) : Compared :=
  let rows := idxOf r.rows
  let cols := idxOf r.cols
  let row (i : Nat) := cols.map (t i)
  let col (j : Nat) := rows.map fun i => t i j
  let ck (v : Vector (BitVec 32) 64) (n : Nat) : Nat := (v.toList.getD n 0).toNat
  let br := rows.filter fun i => mismatch r.i32 tol (row i) (ck r.rowChk i)
  let bc := cols.filter fun j => mismatch r.i32 tol (col j) (ck r.colChk j)
  match br, bc with
  | [], [] => .clean
  | [i], [j] =>
    let w := correctedWord r.i32 (row i) (t i j) (ck r.rowChk i)
    let col' := rows.map fun q => if q = i then w else t q j
    if mismatch r.i32 tol col' (ck r.colChk j) then .failed else .fixed i j w
  | _, _ => .failed

/-! ### The stages (R320, R321) -/

def rnd32 (x : FVal) : FVal := dec32 (enc32 .rne x)
/-- What a drain reads besides its tile: the vector block, the side vector and the old destination elements. -/
structure DrainIn where
  tile : Tile
  vec : Nat → Nat
  side : Nat → Nat
  old : Nat → Nat → FVal
/-- Scale and bias. -/
def scaled (r : Recipe) (i32 : Bool) (d : DrainIn) (i j : Nat) : FVal :=
  let x := numAt i32 (d.tile i j)
  let y := match r.smode with
    | 1 => rnd32 (x.mul (dec32 r.scale))
    | 2 => rnd32 (x.mul (dec32 (d.vec j)))
    | _ => rnd32 x
  if r.bias then rnd32 (FVal.add .rne y (dec32 (d.vec (64 + j)))) else y
/-- The activations 0 to 4. -/
def actOf (a : Nat) (y : FVal) : FVal :=
  match a with
  | 1 => if y.isNan then .nan else if y.signNeg then .fin false 0 0 else y
  | 2 => dec32 (geluBits (enc32 .rne y) y)
  | 3 => dec32 (siluBits (enc32 .rne y) y)
  | 4 => dec32 (sigmBits .f32 (enc32 .rne y) y)
  | _ => y
def exp2Of (x : FVal) : FVal := dec32 (exp2Bits .f32 (enc32 .rne x) x)
/-- The running maximum of a row: NaN wins (R321). -/
def maxOrNan (a b : FVal) : FVal := if a.isNan || b.isNan then .nan else a.max2 b
/-- The row maximum and the factor of a row under ACT = 5. -/
def rowMax (r : Recipe) (i32 : Bool) (d : DrainIn) (cols : List Nat) (i : Nat) : FVal :=
  cols.foldl (fun m j => maxOrNan m (scaled r i32 d i j)) (dec32 (d.side i))
def expRow (m y : FVal) : FVal :=
  if m.isNan then .nan
  else if m == .inf true then .fin false 0 0
  else exp2Of (rnd32 (FVal.add .rne y m.neg))
def rowFactor (m old : FVal) : FVal :=
  if m.isNan then .nan
  else if m == .inf true then .fin false 1 0
  else exp2Of (rnd32 (FVal.add .rne old m.neg))
/-- The value of a live element before it is encoded. -/
def drainValue (r : Recipe) (i32 : Bool) (d : DrainIn) (cols : List Nat) (i j : Nat) : FVal :=
  let y := scaled r i32 d i j
  let a := if r.act = 5 then expRow (rowMax r i32 d cols i) y else actOf r.act y
  if r.add then rnd32 (FVal.add .rne a (d.old i j)) else a
/-- The side words of a live row (R321). -/
def sideWords (r : Recipe) (i32 : Bool) (d : DrainIn) (cols : List Nat) (i : Nat) : List Nat :=
  let m := rowMax r i32 d cols i
  let outs := (List.range 64).map fun j =>
    if cols.contains j then expRow m (scaled r i32 d i j) else FVal.fin true 0 0
  let l := (treeReduce add32 6 outs).headD .nan
  [enc32 .rne m, enc32 .rne (rowFactor m (dec32 (d.side i))), enc32 .rne l, 0]
/-- The exact integer path (R320). -/
def exactInt (r : Recipe) (i32 : Bool) (f : Nat) : Bool :=
  i32 && r.smode == 0 && !r.bias && r.act == 0 && !r.add && (f == 6 || f == 7 || f == 11 || f == 0)
def drainNoise (s : State) (c : CubeId) (m : Cmd) (e : Nat) : Nat :=
  if m.rcp.rnd = 4 then engineNoise (s.cube c).eng.drnSeed (m.tag.setWidth 64) e else 0
/-- The bits of a result element in a format that is not MX. -/
def drainBits (s : State) (c : CubeId) (m : Cmd) (f : Nat) (d : DrainIn) (cols : List Nat) (i j : Nat) : Nat :=
  let r := m.rcp
  let i32 := drainI32 m
  if exactInt r i32 f then
    let b := 8 * drainWidth f
    let x := sint 32 (d.tile i j)
    intBits b (max (-(2 ^ (b - 1) : Nat) : Int) (min ((2 ^ (b - 1) : Nat) - 1) x))
  else
    let y := drainValue r i32 d cols i j
    match fmtNum f with
    | some nf => encodeNum nf (s.cube c).eng.nanovf (RMode.ofCode r.rnd) (drainNoise s c m (64 * i + j)) y
    | none => enc32 .rne y

/-! ### What a drain writes -/

def keyOf (s : State) (c : CubeId) (m : Cmd) (va : VA) : Nat :=
  match resolve s (cmdAgent s c m) va with
  | .ok t => t.key
  | .fault _ => 0
/-- The bytes of an MX entry: each row by blocks along depth (R323). -/
def mxCells (s : State) (c : CubeId) (m : Cmd) (mx : MxFmt) (f lam g : Nat) (layers : List Nat) (off kd : Nat) (d : DrainIn) :
    List (Nat × Byte) :=
  let rows := drainRows m
  let cols := drainCols m
  let nb := 32 * mx.bits / 8 / (32 / lam)
  layers.mapIdx (fun r l =>
    let base := keyOf s c m (faceVA l off)
    let bank := base / 0x4_0000 * 0x4_0000
    (List.range 64).flatMap fun i => (List.range (kd / 32)).flatMap fun k =>
      let xs := (List.range 32).map fun q =>
        let j := r * kd + 32 * k + q
        if rows.contains i && cols.contains j then drainValue m.rcp (drainI32 m) d cols i j else FVal.fin false 0 0
      let qz := mxQuant mx xs (RMode.ofCode m.rcp.rnd) fun q => drainNoise s c m (64 * i + (r * kd + 32 * k + q))
      let bs := bytesLE (nb * (32 / lam)) (mxPack mx qz.2)
      let data := (List.range (32 / lam)).flatMap fun h =>
        cellsAt (base + ((32 * k / lam + h) * 64 + i) * g) ((bs.drop (h * nb)).take nb)
      data ++ [(bank + 0x3_C000 + (base % 0x4_0000 / (64 * g) + 32 * k / lam) * lam / 32 * 64 + i, BitVec.ofNat 8 qz.1)]) |>.flatten
def entryCells (s : State) (c : CubeId) (m : Cmd) (f : Nat) (layers : List Nat) (off kd : Nat) (d : DrainIn) :
    List (Nat × Byte) :=
  match entryLayout f, fmtMx f with
  | some (lam, g), some mx => mxCells s c m mx f lam g layers off kd d
  | some (lam, g), none =>
    let rows := drainRows m
    let cols := drainCols m
    layers.mapIdx (fun r l =>
      let base := keyOf s c m (faceVA l off)
      (List.range 64).flatMap fun i => (List.range (ceilDiv kd lam * lam)).flatMap fun kk =>
        let j := r * kd + kk
        let v := if decide (kk < kd) && rows.contains i && cols.contains j then drainBits s c m f d cols i j else 0
        cellsAt (base + entryBit f lam g i kk / 8) (bytesLE (drainWidth f) v)) |>.flatten
  | none, _ => []
def rowCells (s : State) (c : CubeId) (m : Cmd) (f : Nat) (va : VA) (stride : Int) (d : DrainIn) : List (Nat × Byte) :=
  let b := drainWidth f
  (drainRows m).flatMap fun i => (drainCols m).flatMap fun j =>
    cellsAt (keyOf s c m (rowVA va stride b i j)) (bytesLE b (drainBits s c m f d (drainCols m) i j))
def drainCells (s : State) (c : CubeId) (m : Cmd) (l : Layout) (d : DrainIn) : List (Nat × Byte) :=
  let main := match l with
    | .rows f _ va st => rowCells s c m f va st d
    | .entry f ls off kd => entryCells s c m f ls off kd d
  let side := if m.rcp.act = 5 then (drainRows m).flatMap fun i =>
      (sideWords m.rcp (drainI32 m) d (drainCols m) i).mapIdx (fun n w =>
        cellsAt (spadKey c m.part (m.rcp.side + 16 * i + 4 * n)) (bytesLE 4 w)) |>.flatten
    else []
  main ++ side
/-- Everything a drain reads, with the address that an error reports. -/
def drainReads (s : State) (c : CubeId) (m : Cmd) (l : Layout) : List (Nat × VA) :=
  let p := m.part
  let tile := tileReads c p (drainTile m) allIdx allIdx
  let spad (o n : Nat) := (List.range n).map fun k => (spadKey c p (o + k), localVA (o + k))
  let vec := if needsVec m.rcp then spad m.rcp.vec 512 else []
  let side := if m.rcp.act = 5 then (drainRows m).flatMap fun i => spad (m.rcp.side + 16 * i) 4 else []
  let old := match l with
    | .rows f _ va st => if m.rcp.add then (drainRows m).flatMap fun i => (drainCols m).flatMap fun j =>
        (List.range (drainWidth f)).map fun n => (keyOf s c m (rowVA va st (drainWidth f) i j) + n, rowVA va st (drainWidth f) i j)
      else []
    | .entry .. => []
  tile ++ vec ++ side ++ old
/-- The inputs as they stand at start (R329). -/
def drainIn (s : State) (c : CubeId) (m : Cmd) (l : Layout) (t : Tile) : DrainIn :=
  { tile := t
    vec := fun n => memNat s.mem (spadKey c m.part (m.rcp.vec + 4 * n)) 4
    side := fun i => memNat s.mem (spadKey c m.part (m.rcp.side + 16 * i)) 4
    old := fun i j => match l with
      | .rows f _ va st =>
        let w := memNat s.mem (keyOf s c m (rowVA va st (drainWidth f) i j)) (drainWidth f)
        (match fmtNum f with | some nf => decodeNum nf w | none => dec32 w)
      | .entry .. => .fin false 0 0 }

/-! ### Start and completion -/

def drainAddr (s : State) (m : Cmd) (e : EngErr) : EngErr :=
  { e with addr := if e.code = 7 then 0 else match drainDest s m none with | some d => d.va | none => 0 }
def drainFail (s : State) (c : CubeId) (m : Cmd) (e : EngErr) : State := finishCmd s c m 0 (some (drainAddr s m e)) []
/-- The spool entry that a drain reserves when it starts (R317). -/
def drainEntry (s : State) (m : Cmd) : List (Nat × Nat × Nat) :=
  match addrForm (m.dw 1) with
  | .spool n _ => [(n, (strandSpool s m.sid n).nextP, 1)]
  | _ => []
/-- A drain that fails after its reads: its reserved entry is passed over (R330). -/
def drainFailLate (s : State) (c : CubeId) (m : Cmd) (e : EngErr) : State :=
  let res := drainEntry s m
  finishCmd (res.foldl (fun s r => modSpool s m.sid r.1 fun sp => sp.reserve r.2.2) s) c { m with res := res } 0
    (some (drainAddr s m e)) []
def countSkip (s : State) (c : CubeId) : State :=
  s.modCube c fun k => { k with eng := { k.eng with drnSkip := satAdd32 k.eng.drnSkip } }
def countCor (s : State) (c : CubeId) : State :=
  s.modCube c fun k => { k with eng := { k.eng with drnCor := satAdd32 k.eng.drnCor } }
/-- The spool of a drain has room, and no earlier drain of the strand waits to start (R328). -/
def drainRoom (s : State) (m : Cmd) : Bool :=
  match addrForm (m.dw 1) with
  | .spool n _ =>
    let sp := strandSpool s m.sid n
    sp.region == 0 || decide (1 ≤ sp.free)
  | _ => true
/-- A drain that passed its checks and its comparison: the entry it reserves and the bytes it will write. -/
def drainGo (s : State) (c : CubeId) (m : Cmd) (l : Layout) (t : Tile) : State :=
  let res := drainEntry s m
  let out := drainCells s c m l (drainIn s c m l t)
  (startCmd s c m res []).modCube c fun k => k.modCmd m.id fun q => { q with out := out }
/-- DRAIN_START (R328 to R330). -/
def drainStart (s : State) (c : CubeId) (id : Nat) : State :=
  match (s.cube c).cmd id with
  | none => s
  | some m =>
    match m.kind with
    | .drain _ =>
      if m.status != .queued || !unfenced s c m || !storesDone s m || (earlierOf (s.cube c) m).any (fun q => q.status == .queued)
          || !drainRoom s m || testHolds (s.cube c) then s
      else match drainLayout s c m none with
        | .error e => drainFail s c m e
        | .ok l =>
          let rs := drainReads s c m l
          let s := fireKeys s rs
          match poisoned s rs with
          | some _ => drainFailLate s c m (engErr 3 0)
          | none =>
            let key := tileKey c m.part (drainTile m)
            let t : Tile := tileWordAt s key
            let rec? := (s.cube c).recs.find? fun r =>
              r.tile == recNumber m.part (drainTile m) && r.i32 == drainI32 m && (s.cube c).eng.abft
            match rec? with
            | none => drainGo (countSkip s c) c m l t
            | some r =>
              match compareTile r (s.cube c).eng.drnTol.toNat t with
              | .clean => drainGo s c m l t
              | .failed => drainFailLate (drainFailure s c false r.classes (shelfOf (s.cube c) m.sid)) c m (engErr 6 0)
              | .fixed i j w =>
                let s := placeCells s m.asn (cellsAt (key + 4 * (64 * i + j)) (bytesLE 4 w))
                let s := drainFailure (countCor s c) c true r.classes (shelfOf (s.cube c) m.sid)
                drainGo s c m l fun a b => if a = i ∧ b = j then w else t a b
    | _ => s
/-- DRAIN_COMPLETE: the writes of a started drain are performed, after those of its strand's earlier drains (R20). -/
def drainComplete (s : State) (c : CubeId) (id : Nat) : State :=
  match (s.cube c).cmd id with
  | none => s
  | some m =>
    match m.kind with
    | .drain _ =>
      if m.status != .started || (earlierOf (s.cube c) m).any (fun q => q.status == .started) then s
      else finishCmd (engWrite s m false (m.out.map fun o => (o.1, 0xFFF, o.2))) c m 0 none [8 + c.val]
    | _ => s

/-! ### The instructions (R314, R319) -/

/-- A drain with the recipe it captures; without a group, or with a row mask of 0, it makes no add (R329). -/
def cdrainAny (p : Bool) (g : Guard) (a b c : SReg) (s : State) : Out :=
  s.guarded g fun x s =>
    let grp := if c = 0 then [] else x.group c 5
    let amt := if grp.getD 0 0 = 0 then 0 else grp.getD 4 0
    enqueue s .drainq (.drain p) ([x.s a, x.s b] ++ grp) (grp.getD 3 0) amt
      (x.recipes.toList.getD ((x.s a).extractLsb' 16 4).toNat 0) 0
def execCdrain (g : Guard) (a b c : SReg) (s : State) : Out := cdrainAny false g a b c s
def execCdrainP (g : Guard) (a b c : SReg) (s : State) : Out := cdrainAny true g a b c s
/-- A recipe of two dwords. -/
def recipeOf2 (lo hi : Word) : BitVec 128 := lo.setWidth 128 ||| (hi.setWidth 128 <<< 64)
def crcpDefTrap (s : State) (a b c : SReg) : Option Trap :=
  let x := s.ctx
  if x.s a >>> 4 ≠ 0 ∨ !recipeValid (recipeOf2 (x.s b) (x.s c)) then some (spoolTrap s) else none
def crcpGetTrap (s : State) (b : SReg) : Option Trap := if s.ctx.s b >>> 5 ≠ 0 then some (spoolTrap s) else none
def execCrcpDef (g : Guard) (a b c : SReg) (s : State) : Out :=
  s.guarded g fun x s => s.orTrap (crcpDefTrap s a b c)
    (s.modCtx fun y => { y with recipes := Vector.ofFn fun n =>
      if n.val = (x.s a).toNat then recipeOf2 (x.s b) (x.s c) else y.recipes.get n })
def execCrcpGet (g : Guard) (a b : SReg) (s : State) : Out :=
  s.guarded g fun x s => s.orTrap (crcpGetTrap s b)
    (let r := x.recipes.toList.getD ((x.s b).toNat % 16) 0
     s.writeS0 2 a ((r >>> (if (x.s b).getLsbD 4 then 64 else 0)).setWidth 64))
/-- DRAIN_START. -/
def execDrainStart (c : CubeId) (id : Nat) (s : State) : Out :=
  .next (engEvent c id (fun s => drainStart s c id) s)
/-- DRAIN_COMPLETE. -/
def execDrainComplete (c : CubeId) (id : Nat) (s : State) : Out :=
  .next (engEvent c id (fun s => drainComplete s c id) s)

end Sys2Proof.Machine
end

