-- ==== Sys2Proof/Machine/Block.lean ====
section
/-! DEFINITION. The block store (chapter 12): the seven commands as they enter the block queue, the table in a region of the
home stack, and what performing each command does. -/
namespace Sys2Proof.Machine

/-! ### The instructions (R344) -/

/-- The homes towards which a BLK command takes its place on its line: an append's block writes and its record (R351), and every
command's counter. -/
def blkClaim (s : State) (c : CubeId) (m : Cmd) : List Nat :=
  let at_ (w : Word) : List Nat := spanHomes s (cmdAgent s c m) (w.setWidth 52) 1
  (match m.kind with
    | .block .append => [((m.grp.getD 0 0).extractLsb' 48 3).toNat] ++ if m.grp.getD 3 0 = 0 then [] else at_ (m.grp.getD 3 0)
    | _ => []) ++ if wantsAdd m then at_ m.ctr else []
/-- A BLK command in the block queue, with its group, its completion add and its place on its line. -/
def blkAny (op : BlkOp) (g : Guard) (a b c : SReg) (s : State) : Out :=
  s.guarded g fun x s => enqueueOn blkClaim s .blkq (.block op) (x.group a 4) (x.s b) (x.s c) 0 0
def execBlkAlloc (g : Guard) (a b c : SReg) (s : State) : Out := blkAny .alloc g a b c s
def execBlkFree (g : Guard) (a b c : SReg) (s : State) : Out := blkAny .free g a b c s
def execBlkShare (g : Guard) (a b c : SReg) (s : State) : Out := blkAny .share g a b c s
def execBlkXlate (g : Guard) (a b c : SReg) (s : State) : Out := blkAny .xlate g a b c s
def execBlkFetch (g : Guard) (a b c : SReg) (s : State) : Out := blkAny .fetch g a b c s
def execBlkAppend (g : Guard) (a b c : SReg) (s : State) : Out := blkAny .append g a b c s
def execBlkStat (g : Guard) (a b c : SReg) (s : State) : Out := blkAny .stat g a b c s

/-! ### The geometry (R338, R340) -/

def ctlPitch (w : Word) : Nat := (w.extractLsb' 0 12).toNat
def ctlRpb (w : Word) : Nat := (w.extractLsb' 12 9).toNat
def ctlPlanes (w : Word) : Nat := (w.extractLsb' 21 3).toNat
def ctlPstride (w : Word) : Nat := (w.extractLsb' 24 20).toNat
def ctlAsn (w : Word) : BitVec 12 := w.extractLsb' 48 12
/-- The region of R339 fits the store of cube c, its geometry fits a block, and it holds a block. -/
def blkFits (e : EngRegs) (c : CubeId) (w : Word) : Bool :=
  let base := e.blkBase.toNat * 2 ^ 20
  let size := e.blkSize.toNat * 2 ^ 20
  decide (c.val * 2 ^ 36 ≤ base) && decide (base + size ≤ (c.val + 1) * 2 ^ 36) && decide (1 ≤ ctlRpb w) &&
    decide (ctlRpb w * ctlPitch w ≤ ctlPstride w) &&
    decide (ctlPlanes w * ctlPstride w + ctlRpb w * ctlPitch w ≤ blkBytes e.blkCode) && decide (1 ≤ e.nb)

/-! ### The table (R341, R342) -/

/-- A store at work on one command: its geometry, the memory as the command has changed it so far, the bytes written, the
lines read, and the internal head and counts. -/
structure Blk where
  base : Nat
  nb : Nat
  bs : Nat
  pitch : Nat
  rpb : Nat
  planes : Nat
  pstride : Nat
  mem : List Host.Cell
  out : List (Nat × Byte)
  seen : List Nat
  head : Nat
  free : Nat
  keys : Nat
deriving DecidableEq, Repr
def blkOf (s : State) (k : CubeId) : Blk :=
  let e := (s.cube k).eng
  { base := e.blkBase.toNat * 2 ^ 20, nb := e.nb, bs := blkBytes e.blkCode, pitch := ctlPitch e.blkCtl
    rpb := ctlRpb e.blkCtl, planes := ctlPlanes e.blkCtl + 1, pstride := ctlPstride e.blkCtl, mem := s.mem, out := [], seen := []
    head := e.blkHead.toNat, free := e.blkFree, keys := e.blkKeys }
def Blk.slots (b : Blk) : Nat := 2 * b.nb
def Blk.entryKey (b : Blk) (h : Nat) : Nat := b.base + 16 * h
def Blk.recKey (b : Blk) (i : Nat) : Nat := b.base + 32 * b.nb + 8 * i
def Blk.frame (b : Blk) (i : Nat) : Nat := b.base + blkMeta b.bs b.nb + i * b.bs
def Blk.rowKey (b : Blk) (i p r : Nat) : Nat := b.frame i + p * b.pstride + r * b.pitch
def Blk.look (b : Blk) (a : Nat) : Nat := memNat b.mem a 8
def Blk.see (b : Blk) (a : Nat) : Blk := { b with seen := if b.seen.contains (a / 64) then b.seen else a / 64 :: b.seen }
def Blk.put (b : Blk) (cells : List (Nat × Byte)) : Blk := { b with mem := memWrite b.mem cells, out := b.out ++ cells }
def Blk.putWord (b : Blk) (a v : Nat) : Blk := b.put (cellsAt a (bytesLE 8 v))
/-- Where the probe of a key starts. -/
def Blk.hash (b : Blk) (k : Nat) : Nat := k * 0x9E3779B97F4A7C15 % 2 ^ 64 / (2 ^ 64 / b.slots)
/-- The entry of a key and its block, or the free entry that ends its probe. -/
def Blk.probe (b : Blk) (k : Nat) : Nat → Nat → Nat × Option Nat
  | 0, h => (h, none)
  | n + 1, h =>
    let w := b.look (b.entryKey h)
    if w < 2 ^ 63 then (h, none)
    else if w % 2 ^ 48 = k then (h, some (b.look (b.entryKey h + 8) % 2 ^ 32))
    else b.probe k n ((h + 1) % b.slots)
def Blk.find (b : Blk) (k : Nat) : Nat × Option Nat := b.probe k b.slots (b.hash k)
/-- The lines that the probe of a key reads. -/
def Blk.seeKey (b : Blk) (k : Nat) : Blk :=
  let h := b.hash k
  let n := ((b.find k).1 + b.slots - h) % b.slots + 1
  (List.range n).foldl (fun b j => b.see (b.entryKey ((h + j) % b.slots))) b
def Blk.insert (b : Blk) (k phys : Nat) : Blk :=
  let h := (b.find k).1
  { (b.putWord (b.entryKey h) (2 ^ 63 + k)).putWord (b.entryKey h + 8) phys with keys := b.keys + 1 }
/-- An entry that hashes to h and stands at j may fill the hole i: h does not lie after i on the way to j. -/
def fillsHole (i j h : Nat) : Bool :=
  if i ≤ j then decide (h ≤ i) || decide (j < h) else decide (h ≤ i) && decide (j < h)
/-- Backward shifting from the hole i, with j the entry looked at last. -/
def Blk.shiftBack (b : Blk) : Nat → Nat → Nat → Blk
  | 0, i, _ => (b.putWord (b.entryKey i) 0).putWord (b.entryKey i + 8) 0
  | n + 1, i, j =>
    let j := (j + 1) % b.slots
    let b := b.see (b.entryKey j)
    let w := b.look (b.entryKey j)
    if w < 2 ^ 63 then (b.putWord (b.entryKey i) 0).putWord (b.entryKey i + 8) 0
    else if fillsHole i j (b.hash (w % 2 ^ 48)) then
      ((b.putWord (b.entryKey i) w).putWord (b.entryKey i + 8) (b.look (b.entryKey j + 8))).shiftBack n j j
    else b.shiftBack n i j
def Blk.remove (b : Blk) (k : Nat) : Blk :=
  let h := (b.find k).1
  { b.shiftBack b.slots h h with keys := b.keys - 1 }
/-- A block record: REFS, FILL and NEXT. -/
def Blk.refs (b : Blk) (i : Nat) : Nat := b.look (b.recKey i) % 2 ^ 16
def Blk.fill (b : Blk) (i : Nat) : Nat := b.look (b.recKey i) / 2 ^ 16 % 2 ^ 16
def Blk.next (b : Blk) (i : Nat) : Nat := b.look (b.recKey i) / 2 ^ 32
def Blk.setRec (b : Blk) (i refs fill next : Nat) : Blk :=
  b.putWord (b.recKey i) (refs + 2 ^ 16 * fill + 2 ^ 32 * next)
/-- The top block leaves the free list with REFS 1 and FILL 0. -/
def Blk.pop (b : Blk) : Nat × Blk :=
  let i := b.head
  let b := b.see (b.recKey i)
  (i, { b.setRec i 1 0 (b.next i) with head := b.next i, free := b.free - 1 })
/-- A reference goes; the last one frees the block. -/
def Blk.deref (b : Blk) (i : Nat) : Blk :=
  let b := b.see (b.recKey i)
  let r := b.refs i - 1
  if r = 0 then { b.setRec i 0 (b.fill i) b.head with head := i, free := b.free + 1 }
  else b.setRec i r (b.fill i) (b.next i)
/-- The table takes n more keys (R341). -/
def Blk.room (b : Blk) (n : Nat) : Bool := decide (b.keys + n ≤ b.slots - 1)

/-! ### The command (R343, R345) -/

def Cmd.bkey (m : Cmd) : Nat := (m.dw 0).toNat % 2 ^ 48
def Cmd.bstack (m : Cmd) : CubeId := (m.dw 0).extractLsb' 48 3 |>.toFin
def Cmd.bn (m : Cmd) : Nat := ((m.dw 1).extractLsb' 0 17).toNat
def Cmd.bplane (m : Cmd) : Nat := ((m.dw 1).extractLsb' 17 3).toNat
def Cmd.bmode (m : Cmd) : Nat := ((m.dw 1).extractLsb' 20 2).toNat
def Cmd.bfmt (m : Cmd) : Nat := ((m.dw 1).extractLsb' 22 4).toNat
def Cmd.belems (m : Cmd) : Nat := ((m.dw 1).extractLsb' 26 12).toNat
def blkOpOf (m : Cmd) : BlkOp := match m.kind with | .block op => op | _ => .stat
/-- BLOCK of a key and the key of the i-th block after it. -/
def keyBlock (k : Nat) : Nat := k / 2 ^ 32
def keyPlus (k i : Nat) : Nat := k + i * 2 ^ 32
/-- The same block under another sequence id. -/
def withSeq (k : Nat) (q : Nat) : Nat := k / 2 ^ 24 * 2 ^ 24 + q
/-- The layout of the group: a field that the command does not use is 0, and every field is within its limit. -/
def blkGroupBad (m : Cmd) : Bool :=
  let op := blkOpOf m
  let d0 := m.dw 0
  let d1 := m.dw 1
  let usesN := op == .alloc || op == .free || op == .share || op == .fetch || op == .append
  let blocks := op == .alloc || op == .free || op == .share || op == .fetch
  d0 >>> 51 != 0 || d1.extractLsb' 38 14 != 0 || d1.extractLsb' 56 8 != 0 ||
    (op == .stat && m.bkey != 0) || (op == .append && keyBlock m.bkey != 0) ||
    (if usesN then m.bn == 0 || decide (65536 < m.bn) else m.bn != 0) ||
    (blocks && decide (65535 < keyBlock m.bkey + m.bn - 1)) ||
    (if op == .fetch then m.bmode == 3 || (if m.bmode = 0 then m.bfmt != 0 || m.belems != 0 else m.belems == 0)
     else m.bplane != 0 || m.bmode != 0 || m.bfmt != 0 || m.belems != 0) ||
    (op == .free && m.dw 2 != 0) || (op == .share && m.dw 2 >>> 24 != 0) || (op != .append && m.dw 3 != 0)
/-- The result VA of a command, 0 for none. -/
def resultVA (m : Cmd) : Word :=
  match blkOpOf m with
  | .alloc | .xlate | .stat => m.dw 2
  | .append => m.dw 3
  | _ => 0
/-- R352's table has no code for a peer that is dead, gives no answer or is fenced off, nor for the reduction window: R88 gives the
block store no such place, which is error 0x02 (DEDUCED, log entry 115). -/
def tableError (e : EngErr) : EngErr :=
  if e.code == 4 || e.code == 5 || e.code == 0x0A || e.code == 0x0D then { e with code := 2, kind := 0 } else e
/-- Key and owner tag of the record at the result VA (R345). -/
def resultPlace (s : State) (c : CubeId) (m : Cmd) : Except EngErr (Option (Nat × BitVec 12)) :=
  let w := resultVA m
  if w = 0 then .ok none
  else
    let va : VA := w.setWidth 52
    match engPlain s c m .write va with
    | .error e => .error (tableError e)
    | .ok t =>
      let inside := match keySpace s t.key with | .scratch .. | .hbm _ => true | _ => false
      if inside && va.toNat % 16 == 0 then .ok (some (t.key, t.tag)) else .error (engErr 2 va)
/-- The state of a store towards a command: 0 the command waits, 1 it is performed, 2 it fails (R339, R346). -/
def storeState (s : State) (m : Cmd) : Nat :=
  let e := (s.cube m.bstack).eng
  if !e.blkCtl.getLsbD 63 then 2
  else if m.mode == .task && m.asn != ctlAsn e.blkCtl then 2
  else if e.blkReady then 1 else 0

/-! ### Table commands (R347, R348) -/

/-- What performing a command leaves: the store, further writes with their tags, the record, and an error. -/
structure BlkRun where
  b : Blk
  dest : List OutByte
  record : Option (Nat × Nat)
  err : Option EngErr
  res : List (Nat × Nat × Nat)
deriving DecidableEq, Repr
def blkFail (b : Blk) (code : Nat) : BlkRun := ⟨b, [], none, some (engErr code 0), []⟩
def blkDone (b : Blk) (record : Option (Nat × Nat)) : BlkRun := ⟨b, [], record, none, []⟩
/-- The two words of a block record. -/
def blockRecord (b : Blk) (phys block slot : Nat) : Nat × Nat :=
  (phys + 2 ^ 32 * b.refs phys + 2 ^ 48 * b.fill phys, b.frame phys / 4096 + 2 ^ 36 * block + 2 ^ 52 * slot)
def keysOf (m : Cmd) : List Nat := (List.range m.bn).map (keyPlus m.bkey)
def Blk.seeKeys (b : Blk) (ks : List Nat) : Blk := ks.foldl Blk.seeKey b
def Blk.has (b : Blk) (k : Nat) : Bool := (b.find k).2.isSome
def Blk.physOf (b : Blk) (k : Nat) : Nat := (b.find k).2.getD 0
def runAlloc (b : Blk) (m : Cmd) : BlkRun :=
  let ks := keysOf m
  let b := b.seeKeys ks
  if ks.any b.has then blkFail b 7
  else if b.free < m.bn ∨ !b.room m.bn then blkFail b 8
  else
    let b := ks.foldl (fun b k => let p := b.pop; p.2.insert k p.1) b
    blkDone b (some (blockRecord b (b.physOf m.bkey) (keyBlock m.bkey) 0))
def runFree (b : Blk) (m : Cmd) : BlkRun :=
  let ks := keysOf m
  let b := b.seeKeys ks
  if !ks.all b.has then blkFail b 9
  else blkDone (ks.foldl (fun b k => let p := b.physOf k; (b.remove k).deref p) b) none
def runShare (b : Blk) (m : Cmd) : BlkRun :=
  let ks := keysOf m
  let q := (m.dw 2).toNat % 2 ^ 24
  let b := (b.seeKeys ks).seeKeys (ks.map fun k => withSeq k q)
  if !ks.all b.has then blkFail b 9
  else if (ks.any fun k => b.has (withSeq k q)) then blkFail b 7
  else
    let b := ks.foldl (fun b k => b.see (b.recKey (b.physOf k))) b
    if (ks.any fun k => b.refs (b.physOf k) == 65535) then blkFail b 7
    else if !b.room m.bn then blkFail b 8
    else blkDone (ks.foldl (fun b k =>
      let p := b.physOf k
      (b.insert (withSeq k q) p).setRec p (b.refs p + 1) (b.fill p) (b.next p)) b) none
def runXlate (b : Blk) (m : Cmd) : BlkRun :=
  let b := b.seeKey m.bkey
  match (b.find m.bkey).2 with
  | none => blkFail b 9
  | some p =>
    let b := b.see (b.recKey p)
    blkDone b (some (blockRecord b p (keyBlock m.bkey) 0))
def runStat (b : Blk) : BlkRun := blkDone b (some (b.nb + 2 ^ 32 * b.free, b.keys))

/-! ### Append (R349) -/

/-- The tail of a sequence and layer: the highest block present, among the entries of the table. -/
def Blk.tail (b : Blk) (low : Nat) : Option (Nat × Nat) :=
  (List.range b.slots).foldl (fun (t : Option (Nat × Nat)) h =>
    let w := b.look (b.entryKey h)
    if 2 ^ 63 ≤ w ∧ w % 2 ^ 32 = low then
      let n := keyBlock (w % 2 ^ 48)
      match t with
      | some (q, p) => if q < n then some (n, b.look (b.entryKey h + 8) % 2 ^ 32) else some (q, p)
      | none => some (n, b.look (b.entryKey h + 8) % 2 ^ 32)
    else t) none
/-- A block for a key that is not present, by R347. -/
def Blk.take (b : Blk) (k : Nat) : Option (Nat × Blk) :=
  if b.free = 0 ∨ !b.room 1 then none
  else let p := (b.seeKey k).pop; some (p.1, p.2.insert k p.1)
def Blk.bytesAt (b : Blk) (a n : Nat) : List Byte := memRead b.mem a n
/-- The lines of n bytes are read. -/
def Blk.seeRun (b : Blk) (a n : Nat) : Blk :=
  (List.range (n / 64 + 2)).foldl (fun b j => if a / 64 + j ≤ (a + n - 1) / 64 then b.see ((a / 64 + j) * 64) else b) b
/-- The tail is shared: its rows move to a block of its own. -/
def Blk.unshare (b : Blk) (k p : Nat) : Option (Nat × Blk) :=
  if b.free = 0 then none
  else
    let fill := b.fill p
    let (q, b) := b.pop
    let b := (List.range b.planes).foldl (fun b z =>
      (b.seeRun (b.rowKey p z 0) (fill * b.pitch)).put (cellsAt (b.rowKey q z 0) (b.bytesAt (b.rowKey p z 0) (fill * b.pitch)))) b
    let b := b.setRec p (b.refs p - 1) (b.fill p) (b.next p)
    let b := b.setRec q 1 fill (b.next q)
    some (q, b.putWord (b.entryKey (b.find k).1 + 8) q)
/-- The block and row that the next row of a sequence takes, or the error. -/
def Blk.place (b : Blk) (low : Nat) : Except Nat (Nat × Nat × Blk) :=
  let out (n : Nat) (o : Option (Nat × Blk)) : Except Nat (Nat × Nat × Blk) :=
    match o with
    | some (p, b) => .ok (n, p, b)
    | none => .error 8
  match b.tail low with
  | none => out 0 (b.take low)
  | some (n, p) =>
    let b := (b.seeKey (keyPlus low n)).see (b.recKey p)
    if b.fill p = b.rpb then
      if n = 65535 then .error 7 else out (n + 1) (b.take (keyPlus low (n + 1)))
    else if 1 < b.refs p then out n (b.unshare (keyPlus low n) p)
    else .ok (n, p, b)
/-- The command has read or written the table or a block in a secure region, without acting in the secure world (R402, R403). -/
def Blk.secureHit (b : Blk) (s : State) (m : Cmd) : Bool :=
  cmdMode s m != .secure && ((b.seen.any fun l => regionSecure s (l * 64)) || b.out.any fun d => regionSecure s d.1)
def worldErr : EngErr := ⟨2, kWorld, 0⟩
/-- Rows appended one at a time; the place of row 0 is kept for the record. -/
def appendRows (s : State) (c : CubeId) (m : Cmd) : Nat → Nat → Blk → Option (Nat × Nat × Nat) →
    Blk × Option (Nat × Nat × Nat) × Option EngErr
  | 0, _, b, f => (b, f, none)
  | n + 1, u, b, f =>
    let src : VA := (m.dw 2).setWidth 52 + BitVec.ofNat 52 (u * b.planes * b.pitch)
    match b.place m.bkey with
    | .error e => (b, f, some (engErr e 0))
    | .ok (blk, p, b') =>
      match engBytes { s with mem := b'.mem } c m (vaRange src (b.planes * b.pitch)) with
      | .error e => (b, f, some (e.low [src]))
      | .ok bs =>
        let r := b'.fill p
        let b' := (vaRange src (b.planes * b.pitch)).foldl (fun b v =>
          match engPlain s c m .read v with
          | .ok t => b.see t.key
          | .error _ => b) b'
        let b' := (List.range b'.planes).foldl (fun b z =>
          b.put (cellsAt (b.rowKey p z r) ((bs.drop (z * b.pitch)).take b.pitch))) b'
        let b' := b'.setRec p (b'.refs p) (r + 1) (b'.next p)
        if b'.secureHit s m then (b, f, some worldErr)
        else appendRows s c m n (u + 1) b' (match f with | none => some (blk, p, r) | some x => some x)
def runAppend (s : State) (c : CubeId) (m : Cmd) (b : Blk) : BlkRun :=
  match appendRows s c m m.bn 0 b none with
  | (b, f, err) =>
    let record := match f, err with
      | some (blk, p, r), none => some (blockRecord b p blk r)
      | _, _ => none
    ⟨b, [], record, err, []⟩

/-! ### Fetch (R350) -/

/-- The destination of a fetch: its first address, the face layer and offset when it lies in a face, its place and the spool. -/
structure FetchDest where
  va : VA
  face : Option (Nat × Nat)
  place : Place
  spool : Option (Nat × Spool × Nat)
deriving DecidableEq, Repr
/-- The first byte of a fetch's destination lies in base scratch or a face of a task's partition (R88, R350). -/
def fetchDest (s : State) (c : CubeId) (m : Cmd) : Except EngErr FetchDest :=
  let mk (va : VA) (sp : Option (Nat × Spool × Nat)) : Except EngErr FetchDest :=
    if va.extractLsb' 44 8 ≠ 0xFF then .error (engErr 2 va)
    else match engPlain s c m .write va with
      | .error e => .error e
      | .ok t => match t.isLocal, keySpace s t.key with
        | true, .scratch .. | true, .face .. => .ok ⟨va, faceOf va, placeOf s m t, sp⟩
        | _, _ => .error (engErr 2 va)
  match dstForm { m with grp := [0, m.dw 2] } with
  | .bad => .error (engErr 7 0)
  | .va a => mk a none
  | .spool n l0 =>
    let sp := strandSpool s m.sid n
    if sp.region = 2 ∨ (sp.region = 1 ∧ l0 = 0) then mk ((sp.byteVAs [l0] sp.nextP 0).headD 0) (some (n, sp, l0))
    else .error (engErr 7 0)
/-- Rows of a fetch: the key of the first byte of row t. -/
def fetchRow (b : Blk) (m : Cmd) (phys : List Nat) (t : Nat) : Nat := b.rowKey (phys.getD (t / b.rpb) 0) m.bplane (t % b.rpb)
/-- The value of element e of the row at key a, and the raw bits of its format. -/
def fetchVal (b : Blk) (m : Cmd) (a e : Nat) : FVal :=
  let x := rowElem m.bfmt m.belems (fun k => BitVec.ofNat 52 (a + k)) e
  x.2 (x.1.map fun v => memByte b.mem v.toNat)
def fetchRaw (b : Blk) (m : Cmd) (a e : Nat) : Nat := memNat b.mem (a + e * fmtBits m.bfmt / 8) (fmtBits m.bfmt / 8)
/-- Bytes of a row in the entry modes. -/
def fetchRowBytes (m : Cmd) : Nat := if isMx m.bfmt then recordBytes m.bfmt m.belems else m.belems * fmtBits m.bfmt / 8
/-- The format rules of the entry modes; none when they are kept. -/
def fetchFormat (b : Blk) (m : Cmd) (d : Place) : Option Nat :=
  let rows := m.bn * b.rpb
  if m.bmode = 1 ∧ 64 < rows then some 7
  else if m.bmode = 2 ∧ (4096 < rows ∨ 64 < m.belems) then some 7
  else if m.bfmt = 0 ∨ 12 ≤ m.bfmt then some 0x0C
  else if b.pitch < fetchRowBytes m then some 7
  else if (entryLayout d.fmt).isNone then some 0x0C
  else if isMx m.bfmt ∧ (m.belems % 32 ≠ 0 ∨ (isMx d.fmt ∧ d.fmt ≠ m.bfmt)) then some 0x0C
  else if isMx d.fmt ∧ (m.bmode = 2 ∨ m.belems % 32 ≠ 0) then some 0x0C
  else none
/-- Noise of element e of row t. -/
def fetchNoise (s : State) (c : CubeId) (m : Cmd) (d : Place) (t e : Nat) : Nat :=
  if d.rnd = 4 then engineNoise (s.cube c).eng.cpySeed (m.tag.setWidth 64) (t * m.belems + e) else 0
/-- The bytes of an entry that is not MX: operand row i, depth kk. -/
def fetchPlain (s : State) (c : CubeId) (m : Cmd) (b : Blk) (phys : List Nat) (d : Place) (l o lam g : Nat) (nf : NFmt) :
    List (VA × Byte) :=
  let rows := m.bn * b.rpb
  let turned := m.bmode == 2
  let kd := if turned then rows else m.belems
  let count := if turned then m.belems else rows
  (List.range 64).flatMap fun i => (List.range (ceilDiv kd lam * lam)).flatMap fun kk =>
    let t := if turned then kk else i
    let e := if turned then i else kk
    let v := if i < count ∧ kk < kd then
        (if m.bfmt = d.fmt then fetchRaw b m (fetchRow b m phys t) e
         else encode nf (RMode.ofCode d.rnd) (fetchNoise s c m d t e) (fetchVal b m (fetchRow b m phys t) e))
      else 0
    (vaRange (faceVA l (o + entryBit d.fmt lam g i kk / 8)) nf.bytes).zip (bytesLE nf.bytes v)
/-- The bytes of an MX entry: blocks along depth and their scales (R66, R79). A non-MX format is quantised with RNE, as R350 states for
it, where R70 would take the palette's RND (DEDUCED, log entry 100). -/
def fetchMx (b : Blk) (m : Cmd) (phys : List Nat) (d : Place) (l o lam g : Nat) (mx : MxFmt) : List (VA × Byte) :=
  let rows := m.bn * b.rpb
  let nb := 32 * mx.bits / 8
  match bankOf (faceVA l o) with
  | none => []
  | some (size, bank, off) =>
    (List.range 64).flatMap fun i => (List.range (m.belems / 32)).flatMap fun k =>
      let a := fetchRow b m phys i
      let bs : List Byte :=
        if rows ≤ i then List.replicate (nb + 1) 0
        else if m.bfmt = d.fmt then memRead b.mem (a + k * nb) nb ++ [memByte b.mem (a + m.belems * mx.bits / 8 + k)]
        else
          let q := mxQuant mx ((List.range 32).map fun e => fetchVal b m a (32 * k + e)) .rne fun _ => 0
          bytesLE nb (mxPack mx q.2) ++ [BitVec.ofNat 8 q.1]
      let chunks := (List.range (32 / lam)).flatMap fun j => vaRange (faceVA l (o + ((32 * k / lam + j) * 64 + i) * g)) g
      (chunks ++ [stripVA bank size i ((off / (64 * g) + 32 * k / lam) * lam / 32)]).zip bs
def fetchSpan (m : Cmd) (b : Blk) (lam g : Nat) : Nat := entrySpan lam g (if m.bmode = 2 then m.bn * b.rpb else m.belems)
/-- Bytes of n entries of a face spool, each of some bytes, reach beyond the usable face (R16). -/
def spoolBeyond (s : State) (c : CubeId) (m : Cmd) (sp : Spool) (l span n : Nat) : Bool :=
  sp.region == 2 && (List.range n).any fun k =>
    let o := sp.entryOff (sp.nextP + k)
    decide (usableFace (s.cube c) m.part l (decide (0x80_0000 ≤ o)) < o % 0x80_0000 + span)
/-- The bytes of an entry fetch, or its error. -/
def fetchEntry (s : State) (c : CubeId) (m : Cmd) (b : Blk) (phys : List Nat) (d : FetchDest) :
    Except EngErr (List (VA × Byte)) :=
  match d.face with
  | none => .error (engErr 2 d.va)
  | some (l, o) =>
    match fetchFormat b m d.place with
    | some e => .error (engErr e (if e = 7 then 0 else d.va))
    | none =>
      match entryLayout d.place.fmt with
      | none => .error (engErr 0x0C d.va)
      | some (lam, g) =>
        let span := fetchSpan m b lam g
        let banks := (List.range (ceilDiv (o % 0x4_0000 + span) 0x4_0000)).map fun n =>
          placeAt s c m .write (faceVA l (if n = 0 then o else o / 0x4_0000 * 0x4_0000 + n * 0x4_0000))
        let same := banks.all fun p => match p with | .ok q => q == d.place | .error _ => true
        let mxOk := !isMx d.place.fmt || mxRegionOk d.place.fmt (faceVA l o) [faceVA l o, faceVA l (o + span - 1)]
        let fits := match d.spool with
          | some (_, sp, _) => decide (span ≤ sp.esize) && !spoolBeyond s c m sp l span 1
          | none => true
        if !fits then .error (engErr 7 0)
        else if !same ∨ !mxOk then .error (engErr 0x0C d.va)
        else match fmtMx d.place.fmt, fmtNum d.place.fmt with
          | some mx, _ => .ok (fetchMx b m phys d.place l o lam g mx)
          | none, some nf => .ok (fetchPlain s c m b phys d.place l o lam g nf)
          | none, none => .error (engErr 0x0C d.va)
/-- The bytes of a RAW fetch: all in scratch or faces, and MX banks by R66. -/
def fetchBytes (s : State) (c : CubeId) (m : Cmd) (b : Blk) (phys : List Nat) (d : FetchDest) : Except EngErr (List (VA × Byte)) :=
  let rows := m.bn * b.rpb
  let side : Side := match d.spool with
    | some (_, sp, l0) => .spool sp sp.nextP [l0] b.pitch rows
    | none => .rows d.va b.pitch 0
  let cells := (List.range rows).flatMap fun t => (memRead b.mem (fetchRow b m phys t) b.pitch).mapIdx fun j x => (side.byteVA 0 t j, x)
  let off := cells.find? fun x => match engTarget s c m .write x.1 with
    | .ok t => (match keySpace s t.key with | .scratch .. | .face .. => false | _ => true)
    | .error _ => false
  if (match d.spool with | some (_, sp, l0) => spoolBeyond s c m sp l0 sp.esize (rows * b.pitch / sp.esize) | none => false) then
    .error (engErr 7 0)
  else match off with
    | some x => .error ⟨2, kPrivilege, x.1⟩
    | none => if mxBanksOk s c m .write side (rowPairs 1 rows) b.pitch then .ok cells else .error (engErr 0x0C d.va)
/-- The entries that a fetch into a spool reserves: none when the spool's limits forbid it. -/
def fetchEntries (m : Cmd) (b : Blk) (sp : Spool) : Option Nat :=
  if m.bmode = 0 then entriesNeeded sp (m.bn * b.rpb * b.pitch) else some 1
/-- A fetch into a spool without room waits. -/
def fetchWaits (s : State) (c : CubeId) (m : Cmd) (b : Blk) : Bool :=
  match fetchDest s c m with
  | .ok ⟨_, _, _, some (_, sp, _)⟩ => (match fetchEntries m b sp with | some n => decide (sp.free < n) | none => false)
  | _ => false
def seeRows (b : Blk) (m : Cmd) (phys : List Nat) : Blk :=
  (List.range (m.bn * b.rpb)).foldl (fun b t =>
    b.seeRun (fetchRow b m phys t) (if m.bmode = 0 then b.pitch else fetchRowBytes m)) b
def runFetch (s : State) (c : CubeId) (m : Cmd) (b : Blk) : BlkRun :=
  let ks := keysOf m
  let b := b.seeKeys ks
  if b.planes ≤ m.bplane then blkFail b 7
  else match fetchDest s c m with
    | .error e => ⟨b, [], none, some e, []⟩
    | .ok d =>
      let res := match d.spool with
        | some (n, sp, _) => (fetchEntries m b sp).map fun k => [(n, sp.nextP, k)]
        | none => some []
      match res with
      | none => blkFail b 7
      | some r =>
        if !ks.all b.has then ⟨b, [], none, some (engErr 9 0), r⟩
        else
          let phys := ks.map b.physOf
          let b := seeRows b m phys
          match (if m.bmode = 0 then fetchBytes s c m b phys d else fetchEntry s c m b phys d) with
          | .error e => ⟨b, [], none, some e, r⟩
          | .ok cells =>
            match engCells s c m cells with
            | .error e => ⟨b, [], none, some (e.low [d.va]), r⟩
            | .ok os => ⟨b, os, none, none, r⟩

/-! ### Performing a command (R346, R351, R352) -/

def blkRun (s : State) (c : CubeId) (m : Cmd) (b : Blk) : BlkRun :=
  match blkOpOf m with
  | .alloc => runAlloc b m
  | .free => runFree b m
  | .share => runShare b m
  | .xlate => runXlate b m
  | .stat => runStat b
  | .append => runAppend s c m b
  | .fetch => runFetch s c m b
/-- The reserved entries of a command that now ends. -/
def reserveAll (s : State) (c : CubeId) (m : Cmd) (res : List (Nat × Nat × Nat)) : State :=
  if res.isEmpty then s else startCmd s c m res []
/-- The store's internal head and counts after a command. -/
def keepStore (s : State) (k : CubeId) (b : Blk) : State :=
  s.modCube k fun q => { q with eng := { q.eng with blkHead := BitVec.ofNat 32 b.head, blkFree := b.free, blkKeys := b.keys } }
/-- The writes of a command that ran to its end or to the error of a row. -/
def blkCommit (s : State) (c : CubeId) (m : Cmd) (r : BlkRun) (rp : Option (Nat × BitVec 12)) : State :=
  let rec_ : List OutByte := match rp, r.record, r.err with
    | some (a, t), some (w0, w1), none => (cellsAt a (bytesLE 8 w0 ++ bytesLE 8 w1)).map fun d => (d.1, t, d.2)
    | _, _, _ => []
  let os : List OutByte := (r.b.out.map fun d => (d.1, 0xFFF, d.2)) ++ r.dest ++ rec_
  let s := keepStore (engWrite s m (cmdGlob m) os) m.bstack r.b
  let s := reserveAll s c m r.res
  let s := match r.err with | some e => noteLost s c m e | none => s
  finishCmd s c { m with res := r.res } 0 (r.err.map tableError) (m.bstack.val :: homesOf os).eraseDups
/-- A line read by the command is poisoned. -/
def blkPoison (s : State) (b : Blk) : Option Nat := b.seen.find? fun l => s.poison.contains l
/-- An earlier command of the strand is not complete. -/
def blkBehind (s : State) (c : CubeId) (m : Cmd) : Bool := !(earlierOf (s.cube c) m).isEmpty
/-- BLK_CMD_PERFORM: a command of the queue of cube c reaches its store and is performed there as one step. -/
def blkPerform (s : State) (c : CubeId) (id : Nat) : State :=
  match (s.cube c).cmd id with
  | none => s
  | some m =>
    match m.kind with
    | .block op =>
      if m.status != .queued || !unfenced s c m || !storesDone s m || blkBehind s c m || lineHeld s c m ||
        !pathCarries s c.val m.sid (blkOf s m.bstack).base then s
      else if blkGroupBad m then finishCmd s c m 0 (some (engErr 7 0)) []
      else if m.dead then finishCmd s c m 0 (some (engErr 0x0B 0)) []
      else if storeState s m = 2 then finishCmd s c m 0 (some (engErr 2 0)) []
      else if storeState s m = 0 then s
      else match resultPlace s c m with
        | .error e => finishCmd s c m 0 (some e) []
        | .ok rp =>
          if op = .fetch ∧ fetchWaits s c m (blkOf s m.bstack) then s
          else
            -- an injected fault fires on a line that the command reads
            let s := fireReads s (blkRun s c m (blkOf s m.bstack)).b.seen
            let r := blkRun s c m (blkOf s m.bstack)
            let dead : Option EngErr := match blkPoison s r.b, r.err with
              | some _, _ => some (engErr 3 0)
              | none, some e => if e.code = 3 ∨ e.waits then some e else none
              | none, none => none
            let dead := if dead.isNone && op != .append && r.b.secureHit s m then some worldErr else dead
            match dead with
            | some e => finishCmd (reserveAll s c m r.res) c { m with res := r.res } 0 (some e) []
            | none => blkCommit s c m r rp
    | _ => s
def execBlkCmdPerform (c : CubeId) (id : Nat) (s : State) : Out := .next (engEvent c id (fun s => blkPerform s c id) s)
/-- BLK_CMD_COMPLETE: the writes of a performed command are complete, and its completion add follows. -/
def blkComplete (s : State) (c : CubeId) (id : Nat) : State :=
  match (s.cube c).cmd id with
  | none => s
  | some m =>
    match m.kind with
    | .block _ => sendAdd s c id
    | _ => s
def execBlkCmdComplete (c : CubeId) (id : Nat) (s : State) : Out := .next (engEvent c id (fun s => blkComplete s c id) s)

/-! ### Enabling a store (R339, R342) -/

def modEng (s : State) (c : CubeId) (f : EngRegs → EngRegs) : State := s.modCube c fun k => { k with eng := f k.eng }
/-- EN is set: with a region and a geometry that fit, the store begins to build. -/
def blkEnable (s : State) (c : CubeId) : State :=
  let e := (s.cube c).eng
  if e.blkCtl.getLsbD 63 || !blkFits e c e.blkCtl then s
  else modEng s c fun e => { e with blkCtl := e.blkCtl ||| BitVec.twoPow 64 63, blkBuilding := true, blkReady := false }
/-- EN is cleared: READY falls, and every later command fails. -/
def blkDisable (s : State) (c : CubeId) : State :=
  modEng s c fun e => { e with blkCtl := e.blkCtl &&& ~~~(BitVec.twoPow 64 63), blkBuilding := false, blkReady := false }
/-- The built table: no key, and a free list with block 0 on top. -/
def builtCells (b : Blk) : List (Nat × Byte) :=
  cellsAt b.base (List.replicate (32 * b.nb) 0 ++
    (List.range b.nb).flatMap fun i => bytesLE 8 ((if i + 1 = b.nb then 0xFFFFFFFF else i + 1) * 2 ^ 32))
/-- The free list is built, and READY rises. The store builds in a secure region only with its SEC_WORLD bit (R402, log entry 116). -/
def blkBuilt (s : State) (c : CubeId) : State :=
  let e := (s.cube c).eng
  if e.blkBuilding then
    let b := blkOf s c
    let secure := s.secu.world.getLsbD (worldBit .blkq)
    let s := placeCells s 0xFFF ((builtCells b).filter fun d => secure || !regionSecure s d.1)
    modEng s c fun e => { e with blkBuilding := false, blkReady := true, blkHead := 0, blkFree := b.nb, blkKeys := 0 }
  else s
def execBlkEnable (c : CubeId) (s : State) : Out := .next (blkEnable s c)
def execBlkDisable (c : CubeId) (s : State) : Out := .next (blkDisable s c)
def execBlkReady (c : CubeId) (s : State) : Out := .next (blkBuilt s c)

end Sys2Proof.Machine
end

