-- ==== Sys2Proof/Machine/Seq.lean ====
section
/-! DEFINITION. What the sequencer does of its own (R74, R133 to R156): results that land, interlocked results that arrive,
fetch and the instruction cache, noise, taking a pending trap, the watchdog, and the switches of strands; and the writes of
the noise registers and of SEQ_LINES. -/
namespace Sys2Proof.Machine

/-- A context holds the core and may act: no trap in secure mode has halted it, and it is not halted for debug. -/
def Cube.running (k : Cube) : Bool := k.cur != .none && !k.stopped && !k.debugHalted
/-- The shelf of the running strand; 0 for the runtime and secure contexts. -/
def Cube.shelfNo (k : Cube) : Nat := match k.cur with | .shelf i => i.val | _ => 0

/-! ### Landing and arriving -/

/-- An empty bundle issues in place of a held one: results land, and the issue count advances (R133, R138). -/
def issueEmpty (s : State) (c : CubeId) : State :=
  if (s.cube c).running && (s.cube c).bundle.held && !awaitsValue s (s.cube c).core then
    s.modCube c fun k =>
      let k := (k.modCore fun x => advanceIssue (landDue x)).modBundle fun b => { b with held := false }
      { k with stall := 0 }
  else s
def execEmptyBundle (c : CubeId) (s : State) : Out := .next (issueEmpty s c)

/-- A result that carries a residue check (R156): one of a unit that has one, not a compare's. -/
def residueChecked (r : Result) : Bool := r.chk && (match r.kind with | .pred | .mask => false | _ => true)
/-- What became of a result's copies: 0 they agree, 1 one differs, 2 all differ, 3 a residue check failed. Without TV there is
one copy; under TV a failed residue check leaves two that agree (R155, R156). -/
def copiesVote (tv chk : Bool) (o : BitVec 2) : VoteResult :=
  match tv, o.toNat with
  | _, 0 => .agree
  | true, 2 => .split
  | true, _ => .corrected
  | false, 3 => if chk then .residue else .agree
  | false, _ => .agree
def voteOf (r : Result) (o : BitVec 2) : VoteResult := copiesVote r.tv (residueChecked r) o
/-- The other predicate of a compare, which is computed and voted on with the first (R155, R177). -/
def twinOf (r t : Result) : Bool :=
  r.kind == .pred && t.kind == .pred && t.rem == 0 && t.pos == r.pos && t.cls == r.cls && t.tv == r.tv
/-- The conservator's part in a vote or a residue check (R155, R156, R375, R377). -/
def logVote (s : State) (c : CubeId) (cls : Nat) (o : VoteResult) : State :=
  let w := classWhere cls (s.cube c).shelfNo
  match o with
  | .agree => s
  | .corrected => noteFailure (logCe s c (logRecord 5 0 w)) c cls
  | .split => noteFailure (logUe s c (logRecord 6 0 w)) c cls
  | .residue => noteFailure (logUe s c (logRecord 7 0 w)) c cls
/-- Result k of the running context lands, the first in issue order of those that are due (R136, R140). -/
def landOne (s : State) (c : CubeId) (k : Nat) (vote : BitVec 2) : State :=
  let x := (s.cube c).core
  match x.results[k]? with
  | none => s
  | some r =>
    if (s.cube c).running && !awaitsValue s x && r.rem == 0 && (x.results.take k).all fun q => q.rem != 0 then
      let o := voteOf r vote
      let later := x.results.drop (k + 1)
      let rest := x.results.take k ++ later.filter fun t => !twinOf r t
      logVote (s.modCube c fun q => q.modCore fun y =>
        (r :: later.filter (twinOf r)).foldl (fun y t => landVoted y t o) { y with results := rest }) c r.cls o
    else s
def execExposedResultLands (c : CubeId) (k : Nat) (vote : BitVec 2) (s : State) : Out := .next (landOne s c k vote)

/-- The value of a served read arrives; `vote` tells what became of the copies of a division (R155, R156). The read of a `cwait`
is the concern of its bundle. -/
def interlockArrives (s : State) (id : Nat) (vote : BitVec 2) : State :=
  match s.read id with
  | none => s
  | some q =>
    match q.status, q.dest with
    | .sent, _ => s
    | _, .wait => s
    | _, .division _ _ tv =>
      let o := copiesVote tv true vote
      arriveRead (logVote s q.cube 1 o) { q with bad := o == .split || o == .residue }
    | _, _ => arriveRead s q
def execInterlockedResultArrives (r : Nat) (vote : BitVec 2) (s : State) : Out := .next (interlockArrives s r vote)

/-! ### Fetch (R134, R135, R406) -/

/-- What the fetch of the bundle at the running context's pc meets. -/
inductive Fetched where
  | hit (b : Bundle)
  | fault (t : Trap)
  | walk
  | miss (t : Target)
deriving DecidableEq, Repr

/-- A fetch that fails: FETCH_FAULT, or UNCORRECTABLE for a walk error (R106, R147). -/
def fetchTrap (kind : BitVec 4) (a : VA) : Trap :=
  ⟨if kind = kWalkError then causeUncorrectable else causeFetch, 0, kind, 1, 0, a⟩
/-- Why a target gives no instructions: its world, a missing X, a place outside HBM of this package, a secure region. Where
several of them hold, WORLD comes first, then PERMISSION, then NO_TARGET (DESIGN CHOICE, log entry 132). -/
def fetchRefused (s : State) (secure : Bool) (t : Target) : Option (BitVec 4) :=
  if t.world && !secure then some kWorld
  else if !t.x then some kPermission
  else if t.peer.isSome then some kNoTarget
  else if regionSecure s t.key && !secure then some kWorld
  else match keySpace s t.key with
    | .hbm _ => none
    | _ => some kNoTarget
/-- A bundle in the cache under its tag: an address space, or the physical window. -/
def icacheFind (k : Cube) (phys : Bool) (asn : BitVec 12) (a : VA) : Option Bundle :=
  (k.icache.find? fun e => e.phys == phys && (phys || e.asn == asn) && e.addr == a).map ICacheEntry.bits
def fetchFrom (s : State) (c : CubeId) (phys : Bool) (a : VA) (t : Target) : Fetched :=
  let x := (s.cube c).core
  match fetchRefused s (x.mode == .secure) t with
  | some kd => .fault (fetchTrap kd a)
  | none => match icacheFind (s.cube c) phys x.sys.asn a with
    | some b => .hit b
    | none => .miss t
/-- The fetch at the pc of cube c's context: its translation and its checks come before the cache's answer (R134). -/
def fetchAt (s : State) (c : CubeId) : Fetched :=
  let k := s.cube c
  let x := k.core
  let a := x.pc
  let top := (a.extractLsb' 48 4).toNat
  if top < 0xE then
    match translated s (x.agent c 0) a with
    | none => .walk
    | some (.fault kd) => .fault (fetchTrap kd a)
    | some (.leaf p _) => fetchFrom s c false a (leafTarget a p)
  else if top = 0xE then
    if x.mode = .task then .fault (fetchTrap kPrivilege a)
    else fetchFrom s c true a (directTarget (a.toNat % dpaSpan) false 0xFFF)
  else .fault (fetchTrap (if a.extractLsb' 44 4 = 0xF then kPrivilege else kNotValid) a)
/-- Bundles in 512 KiB (R135). -/
def icacheBundles : Nat := 32768
/-- The missing bundle arrives. A poisoned line gives no bundle but a deferred UNCORRECTABLE trap (R147). -/
def icacheFill (s : State) (c : CubeId) : State :=
  if !(s.cube c).running then s
  else
    match fetchAt s c with
    | .miss t =>
      let x := (s.cube c).core
      let s := fillPort c 0 x.sys.asn s x.pc
      let s := countAll s (.cube c) (migOf t x.sys.asn x.pc)
      let s := fireReads s [lineOf t.key]
      if s.poison.contains (lineOf t.key) then
        s.modCube c fun k => k.modCore fun x => x.addPending ⟨causeUncorrectable, 0, 0, 1, 0, x.pc⟩ (placeOfId s.nextId)
      else
        let e : ICacheEntry :=
          ⟨x.sys.asn, x.pc.extractLsb' 48 4 == 0xE, x.pc, BitVec.ofNat 128 (memNat s.mem t.key 16)⟩
        s.modCube c fun k => { k with icache := e :: k.icache.take (icacheBundles - 1) }
    | _ => s
def execIcacheMissFill (c : CubeId) (s : State) : Out := .next (icacheFill s c)

/-! ### Noise (R74, R75) -/

/-- If A and B are both zero after a write, B becomes 1. -/
def Noise.nonzero (n : Noise) : Noise := if n.a = 0 ∧ n.b = 0 then { n with b := 1 } else n
/-- The generator appends one word: the next of xorshift128+, or one from the entropy source. -/
def appendNoise (s : State) (c : CubeId) : State :=
  let k := s.cube c
  let n := k.core.noise
  if k.running && decide (n.queue.length < 64) && k.core.wait != .parked then
    if n.ent then
      { s.modCube c fun k => k.modCore fun x =>
          { x with noise := { n with queue := n.queue ++ [Config.entropyWord s.freeCtr] } } with freeCtr := s.freeCtr + 1 }
    else
      let r := genNext n.a n.b
      s.modCube c fun k => k.modCore fun x =>
        { x with noise := { n with queue := n.queue ++ [r.1], a := r.2.1, b := r.2.2 } }
  else s
def execNoiseWordAppend (c : CubeId) (s : State) : Out := .next (appendNoise s c)
/-- A register of the running context of a cube is written; a free core has none. -/
def State.modRunning (s : State) (c : CubeId) (f : Ctx → Ctx) : State :=
  if (s.cube c).cur = .none then s else s.modCube c fun k => k.modCore f
def Ctx.writeSeedA (x : Ctx) (v : Word) : Ctx :=
  { x with noise := Noise.nonzero { x.noise with queue := [], a := v, seedA := v } }
def Ctx.writeSeedB (x : Ctx) (v : Word) : Ctx :=
  { x with noise := Noise.nonzero { x.noise with queue := [], b := v, seedB := v } }
def Ctx.writeNoiseMode (x : Ctx) (v : Word) : Ctx :=
  { x with noise := Noise.nonzero { x.noise with queue := [], ent := v.getLsbD 0 } }
def execNoiseSeedaWrite (c : CubeId) (v : Word) (s : State) : Out := .next (s.modRunning c fun x => x.writeSeedA v)
def execNoiseSeedbWrite (c : CubeId) (v : Word) (s : State) : Out := .next (s.modRunning c fun x => x.writeSeedB v)
def execNoiseModeWrite (c : CubeId) (v : Word) (s : State) : Out := .next (s.modRunning c fun x => x.writeNoiseMode v)

/-- Ones written to broken lines repair them, and their numbering restarts (R120). -/
def Ctx.repairLines (x : Ctx) (v : Word) : Ctx :=
  let fix : BitVec 8 := v.setWidth 8 &&& x.sys.broken
  { x with
    sys := { x.sys with broken := x.sys.broken &&& ~~~fix }
    lineSeq := Vector.ofFn fun n => if fix.getLsbD n.val then 0 else x.lineSeq.get n }
def execSeqLinesRepair (c : CubeId) (v : Word) (s : State) : Out := .next (s.modRunning c fun x => x.repairLines v)

/-! ### Traps that wait (R146 to R148), and the watchdog (R150) -/

/-- The first pending trap is taken, once the interlocked operations are complete. -/
def takePending (s : State) (c : CubeId) : State :=
  let k := s.cube c
  match k.core.pending with
  | [] => s
  | t :: ts =>
    if k.running && !interlocksOut s k.core.sid then
      enterTrap (s.modCube c fun k => k.modCore fun x => { x with pending := ts, pendAt := x.pendAt.drop 1 }) c t
    else s
def execTrapEntry (c : CubeId) (s : State) : Out := .next (takePending s c)
/-- Waiting in a `cwait` is no stall. -/
def fireWatchdog (s : State) (c : CubeId) : State :=
  let k := s.cube c
  let n := k.cregs.wdog.toNat
  if k.running && k.leave == .none && n != 0 && decide (n * 1024 ≤ k.stall) && k.core.wait == .none then
    takeTrap s c (trapOf causeWatchdog)
  else s
def execWatchdog (c : CubeId) (s : State) : Out := .next (fireWatchdog s c)

/-- A strand on the core is halted for debug (R404): what is due has landed, its wait is dropped, and its monitor is freed (R191). -/
def stopForDebug (s : State) (c : CubeId) : State :=
  match (s.cube c).cur with
  | .shelf i =>
    (freeMonitor (dropWaitRead s (s.cube c).core.sid) c i).modCube c fun k =>
      { (k.modCore fun x => (landDue x).dropWait) with debugHalted := true, debugHaltPending := false }
  | _ => s

/-! ### Switches of strands (R151, R152, R238, R239) -/

/-- The running strand goes out: a parked one stays parked; another goes to the head or the tail of its ready list. -/
def switchOut (s : State) (c : CubeId) (head : Bool) : State :=
  match (s.cube c).cur with
  | .shelf i =>
    if (s.cube c).core.wait = .parked then saveCore s c .parked
    else (saveCore s c .ready).modCube c fun k => { k with ready := if head then i :: k.ready else k.ready ++ [i] }
  | _ => s
/-- A strand of higher priority than the running one is ready. -/
def preempted (k : Cube) : Bool :=
  match k.cur, nextReady k with
  | .shelf _, some j => k.running && k.computes && decide (k.core.task.prio.toNat < shelfPrio k j)
  | _, _ => false
/-- It runs instead of the running one, once that one's interlocked operations are complete (R152). -/
def preempt (s : State) (c : CubeId) : State :=
  match nextReady (s.cube c) with
  | some j => if preempted (s.cube c) && mayLeaveCore s c then loadShelf (switchOut s c true) c j else s
  | none => s
def execPreemption (c : CubeId) (s : State) : Out := .next (preempt s c)
/-- A free core, or one that only a parked strand holds, takes the next ready strand. -/
def switchIn (s : State) (c : CubeId) : State :=
  let k := s.cube c
  if k.stopped || k.debugHalted || !k.computes || k.con.testing.isSome then s
  else
    match k.cur, nextReady k with
    | .none, some j => loadShelf s c j
    | .shelf _, some j => if k.core.wait = .parked ∧ mayLeaveCore s c then loadShelf (switchOut s c true) c j else s
    | _, _ => s
def execSwitchIn (c : CubeId) (s : State) : Out := .next (switchIn s c)
/-- SCH_QUANTUM in cycles. -/
def quantumCycles (k : Cube) : Nat := k.cregs.quantum.toNat * Config.cyclesPerUs
/-- A quantum that has passed gives the core to the next ready strand of the same priority; with none it restarts. -/
def expireQuantum (s : State) (c : CubeId) : State :=
  let k := s.cube c
  match k.cur with
  | .shelf _ =>
    if preempted k then preempt s c
    else if k.running && quantumCycles k != 0 && decide (quantumCycles k ≤ k.quantumUsed) then
      match k.ready.find? fun j => shelfPrio k j == k.core.task.prio.toNat with
      | some j => if mayLeaveCore s c then loadShelf (switchOut s c false) c j else s
      | none => s.modCube c fun k => { k with quantumUsed := 0 }
    else s
  | _ => s
def execQuantumExpiry (c : CubeId) (s : State) : Out := .next (expireQuantum s c)

end Sys2Proof.Machine
end

