-- ==== Sys2Proof/Machine/Traffic.lean ====
section
/-! DEFINITION. Memory traffic as it moves (chapter 04): items that reach their homes and commit, reads that are served,
messages of the directory, acknowledgements and their loss, walks and invalidations of translations, and the counters that a
`cwait` waits for (R186 to R191). -/
namespace Sys2Proof.Machine

/-! ### Items (R101, R108, R112, R117, R181, R185) -/

def onItem (s : State) (id : Nat) (f : Item → State) : State :=
  match s.item id with
  | some i => f i
  | none => s
/-- Traffic between two dies travels over their own link (R10), and traffic of a strand towards a peer through the port of the pair, in
issue order, while link and port are up and do not retrain; nothing reaches a peer that is marked dead (R360, R362, R368). -/
def mayArrive (s : State) (c : CubeId) (sid id key : Nat) : Bool :=
  pathCarries s c.val sid key && match peerOf key with
  | none => true
  | some p => !peerDead s p &&
      !(s.items.any fun j => j.sid == sid && decide (j.id < id) && j.status == .transit && peerOf j.op.addr == some p) &&
      !(s.reads.any fun r => r.sid == sid && decide (r.id < id) && r.status == .sent && r.cells.any fun x => peerOf x.1 == some p)
/-- An item on its way reaches its home. -/
def arriveIf (s : State) (id : Nat) (p : ItemOp → Bool) : State :=
  onItem s id fun i => if i.status == .transit && p i.op && mayArrive s i.cube i.sid i.id i.op.addr then arriveItem s i else s
def execHomeWriteArrives (id : Nat) (s : State) : Out :=
  .next (arriveIf s id fun o => match o with | .store _ => true | _ => false)
def execHomeAtomic (id : Nat) (s : State) : Out :=
  .next (arriveIf s id fun o => match o with | .amo .. => true | _ => false)
def execHomeCounterOp (id : Nat) (s : State) : Out :=
  .next (arriveIf s id fun o => match o with | .cadd .. | .cmax .. | .fetchAdd .. => true | _ => false)
/-- A held item commits once everything that it follows has committed; copies filled since then are invalidated, too (R101). -/
def commitItem (s : State) (id : Nat) : State :=
  onItem s id fun i =>
    if i.status != .held then s
    else if canPerform s i then performItem s i
    else if invalidatesFirst i then sendInvalidates s i else s
def execLineItemCommit (id : Nat) (s : State) : Out := .next (commitItem s id)
/-- The writer learns that its item is performed. -/
def execWriteAckArrives (id : Nat) (s : State) : Out :=
  .next (onItem s id fun i => if i.status == .performed && !silent s i.op.addr then ackItem s i else s)

/-! ### Messages of a directory (R101) -/

/-- Message k; updates of one line reach one edge cache in the order in which they were sent. -/
def firstOfLine (s : State) (k : Nat) (m : DirMsg) : Bool :=
  (s.msgs.take k).all fun n => !(n.cube == m.cube && n.line == m.line)
def applyMsg (s : State) (k : Nat) (m : DirMsg) : State :=
  let s := s.modCube m.cube fun q => match m.update with
    | some cells => edgeRetag (edgeUpdate q cells) m.line (lineOwner s (m.line * 64))
    | none => edgeDrop q m.line
  { s with msgs := s.msgs.eraseIdx k }
/-- The writer's own update of a `.g` store waits for the acknowledgement (R121). -/
def ownUpdate (s : State) (m : DirMsg) : Bool :=
  match s.item m.item with
  | some i => i.glob && i.cube == m.cube && m.update.isSome
  | none => false
def execSharerUpdate (k : Nat) (s : State) : Out :=
  .next (match s.msgs[k]? with
    | some m => if m.update.isSome && firstOfLine s k m && !ownUpdate s m then applyMsg s k m else s
    | none => s)
/-- An invalidation wins over updates of its line that meet it. -/
def execSharerInvalidate (k : Nat) (s : State) : Out :=
  .next (match s.msgs[k]? with
    | some m => if m.update.isNone then applyMsg s k m else s
    | none => s)

/-! ### Reads at their homes (R109) -/

/-- A read may not be served yet: an earlier atomic or counter operation of the strand on the same locations is not performed
(R119), an earlier read of one of them is not served (R109, R127), or what it waits for at its source is not past. -/
def readBlocked (s : State) (r : ReadReq) : Bool :=
  let locs := r.cells.map Prod.fst
  (s.items.any fun i => i.sid == r.sid && decide (i.pos < r.id) && !i.isWriteOp && i.status != .performed &&
    i.status != .failed && overlap i.op.locs locs) ||
  (s.reads.any fun q => q.sid == r.sid && decide (q.id < r.id) && q.status == .sent && overlap (q.cells.map Prod.fst) locs) ||
  !r.prior.past s r.cube || r.cells.any fun x => !mayArrive s r.cube r.sid r.id x.1

/-! ### Acknowledgement loss (R120, R124) -/

def timeoutTrap (acc : BitVec 4) (va : VA) : Trap := ⟨causeAckTimeout, 0, 0, acc, 0, va⟩
def State.pendTrap (s : State) (sid : Nat) (t : Trap) (id : Nat) : State := s.modSid sid fun x => x.addPending t (placeOfId id)
/-- The peer that a key lies on is dead. -/
def losePeer (s : State) (key : Nat) : State :=
  match peerOf key with
  | some p => timeOutPeer s p
  | none => s
/-- An item whose loss is only noted: an `.e` store or an `.e` counter operation of a core (R124, R198). -/
def Item.notedLoss (i : Item) : Bool :=
  !i.glob && (match i.op with
    | .store _ | .cadd .. | .cmax .. => true
    | .fetchAdd .. => i.acc == 5
    | .amo .. => false)
/-- An item of a core or of an engine fails after issue. One whose loss is only noted brings its trap with the first operation
that waits for it. A completion add is dropped, with the record of its command. -/
def loseItem (s : State) (i : Item) (err : Nat) : State :=
  let s := match i.cmd with
    | some id =>
      let s := s.dropItem i.id
      (match (s.cube i.cube).cmd id with
       | some m => dropCmd (faultRecord s i.cube m 0 (engErr err i.va)) i.cube id
       | none => s)
    | none =>
      if i.notedLoss then s.modItem i.id fun j => { j with status := .failed }
      else (s.dropItem i.id).pendTrap i.sid (timeoutTrap i.acc i.va) i.pos
  breakLine s i.sid i.line i.pos
/-- A read that never returns; the bundle of a `cwait` then commits without its value. -/
def loseRead (s : State) (r : ReadReq) (t : Trap) : State :=
  let s := s.dropRead r.id
  match r.dest with
  | .wait => s.modSid r.sid fun x => match x.wait with
    | .reading id _ => if id = r.id then { x with wait := .failed t } else x
    | _ => x
  | _ => s.modSid r.sid fun x => { x.addPending t (placeOfId r.id) with acqs := x.acqs.filter fun a => a.read != r.id }
/-- A command of which an access at a home gets no answer, or is refused by a peer (R124, R358). -/
def loseCmd (s : State) (id : Nat) (err : BitVec 8) (home : Nat) : State :=
  { s with cubes := s.cubes.map fun k => k.modCmd id fun m =>
      if m.status == .started || (m.status == .queued && m.queue == .blkq) then { m with lost := some (err, home) } else m }
def expireAck (s : State) (a : LostAccess) : State :=
  match s.item a.id, s.read a.id with
  | some i, _ =>
    if leavesDie i.cube i.op.addr && i.status != .failed && i.status != .waiting then losePeer (loseItem s i 5) i.op.addr else s
  | none, some r =>
    if r.status == .sent && r.cells.any fun x => leavesDie r.cube x.1 then
      let s := loseRead s r (timeoutTrap r.acc r.va)
      (r.cells.map Prod.fst).foldl losePeer s
    else s
  | none, none => loseCmd s a.id 5 a.home
def execAckTimeoutExpiry (acc : LostAccess) (s : State) : Out := .next (expireAck s acc)

/-- Writes that an operation waits for have failed: it is not performed, its strand traps for the first of them, and a
release breaks its own line (R124). -/
def raiseFailed (s : State) (sid : Nat) (ids : List Nat) : State :=
  match failedOf s ids with
  | [] => s
  | i :: t => (i :: t).foldl (fun s j => s.dropItem j.id) (s.pendTrap sid (timeoutTrap i.acc i.va) i.pos)
/-- A release, or an item kept at its source, sets out once what it follows is complete (R112, R118, R119). Where a write that
it follows was lost, it is not performed (R124); towards a peer that has been marked dead meanwhile it is lost itself (R362). -/
def sendRelease (s : State) (id : Nat) : State :=
  onItem s id fun i =>
    let ids := i.after ++ i.prior.writes.map Prod.snd
    if i.status != .waiting then s
    else if !(failedOf s ids).isEmpty then breakLine ((raiseFailed s i.sid ids).dropItem i.id) i.sid i.line i.pos
    else if !i.mayLeave s then s
    else if (match peerOf i.op.addr with | some p => peerDead s p | none => false) then losePeer (loseItem s i 5) i.op.addr
    else departItem (s.modItem id fun j => { j with status := .transit }) i
/-- A read is served by its home, which may have no room for one more watch (R190). One that a fence of its bundle held reads
behind the copies of its cube (R122); one that it holds for a write that was lost never returns (R124, R196). -/
def homeRead (s : State) (q : ReadReq) (room : Bool) : State :=
  let ids := q.prior.writes.map Prod.snd
  if q.status != .sent then s
  else match failedOf s ids with
    | [] =>
    if readBlocked s q then s
    else
      let s := if q.prior = .none then s
               else s.modCube q.cube fun k => (linesOf (q.cells.map Prod.fst)).foldl edgeDrop k
      serveRead s (if room then q else { q with watch := none })
    | i :: _ => raiseFailed (loseRead s q (timeoutTrap i.acc i.va)) q.sid ids
def execHomeRead (r : ReadServe) (s : State) : Out :=
  .next (match s.read r.read with
    | some q => homeRead s q r.room
    | none => s)
def execReleaseSend (id : Nat) (s : State) : Out := .next (sendRelease s id)

/-! ### Walks and invalidations (R97, R103 to R105, R163) -/

/-- The place of a requester in the walker's round. -/
def Requester.place : Requester → Nat
  | .cube c => c.val
  | .bridge b => 8 + b.val
def walksOf (s : State) (q : Requester) : Nat := (s.misses.filter fun m => m.req == q && m.walking).length
/-- A miss whose requester may have one more walk under way. -/
def Miss.startable (s : State) (m : Miss) : Bool := !m.walking && m.res.isNone && decide (walksOf s m.req < 8)
/-- How far a requester stands behind the one whose turn it is. -/
def walkRank (s : State) (q : Requester) : Nat := (q.place + 10 - s.walkTurn.val) % 10
/-- The walk of miss k starts (R104): the first that waits of its requester, which is the next in the round, with at most 8 of
the requester and 64 of the package under way. -/
def startWalk (s : State) (k : Nat) : State :=
  match s.misses[k]? with
  | some m =>
    if m.startable s && ((s.misses.take k).all fun n => n.req != m.req || n.walking || n.res.isSome) &&
        !(s.misses.any fun n => n.startable s && decide (walkRank s n.req < walkRank s m.req)) &&
        decide ((s.misses.filter Miss.walking).length < 64) then
      { s with misses := s.misses.set k { m with walking := true }, walkTurn := Fin.ofNat 10 (m.req.place + 1) }
    else s
  | none => s
def execWalkStart (k : Nat) (s : State) : Out := .next (startWalk s k)
/-- The requesters whose misses a walk answers (R104). -/
def Miss.serves (m : Miss) (q : Requester) : Bool := m.req == q || m.waiters.any fun w => w.1 == q
/-- What a walk leaves in the TLBs of those that missed and in the walker's cache (R103): the cube's TLB, and those of the copy queues
whose commands wait for it. Faults stay in none (R105). -/
def fillTlbs (s : State) (m : Miss) (va : VA) (p : Word) (lvl : Nat) (ptrs : List (Nat × Nat)) : State :=
  let e := tlbEntryOf m.asn va p lvl
  let new := ptrs.map fun t => (⟨m.asn, t.1, va.toNat / 2 ^ (12 + 9 * t.1), t.2⟩ : WalkPtr)
  let s := { s with walkCache := (new ++ s.walkCache).eraseDups.take 1024 }
  ((List.finRange 8).filter fun c => m.serves (.cube c)).foldl (fun s c => s.modCube c fun k =>
    let waits (q : Queue) : Bool := k.cmds.any fun d => d.queue == q && m.waiters.contains (.cube c, d.id)
    let put (on : Bool) (n : Fin 6) (v : Vector (List TlbEntry) 6) := if on then v.set n (e :: (v.get n).take 255) else v
    { k with tlb := e :: k.tlb.take 4095, small := put (waits .cq1) 5 (put (waits .cq0) 4 k.small) }) s
/-- The walk of miss k ends, once bridge 0's links to the tables carry traffic (R10, R103): its reads at their homes, the last of which meets an uncorrectable error where `bad` says so (R374,
R376), and the translation or the fault for those that wait for it (R106). -/
def endWalk (s : State) (k : Nat) (bad : Bool) : State :=
  match s.misses[k]? with
  | some m =>
    if m.walking then
      let va := BitVec.ofNat 52 (m.vpn * 4096)
      let ls := (walkPath s m.asn va).1.map lineOf
      if !(walkPath s m.asn va).1.all fun a => linkCarries s 8 (dieOf s a) then s else
      let s := fireReads s ls
      let s := if bad then (match ls.getLast? with | some l => uncorrectable s l | none => s) else s
      let x := walk s m.asn va
      let s := match x with
        | .leaf p lvl => fillTlbs s m va p lvl (walkPath s m.asn va).2
        | .fault _ => s
      { s with misses := if m.waiters.isEmpty then s.misses.eraseIdx k
                         else s.misses.set k { m with walking := false, res := some x } }
    else s
  | none => s
def execWalkComplete (k : Nat) (bad : Bool) (s : State) : Out := .next (endWalk s k bad)
/-- A `tlbi` reaches translations of n bytes from b in an address space (R163). -/
def tlbiReaches (t : Tlbi) (asn : BitVec 12) (b n : Nat) : Bool :=
  t.code == 63 || (asn == t.asn && (t.code == 0 ||
    let m := pageSize t.code
    let p := t.va.toNat / m * m
    decide (b < p + m) && decide (p < b + n)))
/-- An engine command that a `tlbi` finds has started and not completed (R105). -/
def tlbiAwaits (t : Tlbi) (m : Cmd) : Bool :=
  decide (m.id < t.id) && m.status != .queued && (t.code == 63 || m.asn == t.asn)
/-- A `tlbi` completes once every TLB and the walker's cache have dropped what it reaches, results of walks that nobody has taken
yet with them, and the engine commands that it finds under way are complete; one of code 63 drops the peer entries that the bridge
dies cache, too (R357). -/
def endTlbi (s : State) (id : Nat) : State :=
  match s.tlbis.find? fun t => t.id == id with
  | some t =>
    if s.cubes.toList.any fun k => k.cmds.any (tlbiAwaits t) then s
    else
      let keep (es : List TlbEntry) : List TlbEntry := es.filter fun e => !tlbiReaches t e.asn e.base e.size
      { s with
        cubes := s.cubes.map fun k => { k with tlb := keep k.tlb, small := k.small.map keep }
        walkCache := s.walkCache.filter fun e =>
          !tlbiReaches t e.asn (e.upper * 2 ^ (12 + 9 * e.level)) (2 ^ (12 + 9 * e.level))
        misses := s.misses.filter fun m => match m.res with
          | none => true
          | some (.fault _) => !tlbiReaches t m.asn (m.vpn * 4096) 4096
          | some (.leaf p l) => (keep [tlbEntryOf m.asn (BitVec.ofNat 52 (m.vpn * 4096)) p l]) != []
        tlbis := s.tlbis.filter fun u => u.id != id
        fab := if t.code = 63 then { s.fab with entries := [] } else s.fab }
  | none => s
def execTlbiComplete (id : Nat) (s : State) : Out := .next (endTlbi s id)

/-! ### Counters that are waited for (R186 to R191) -/

/-- A strand that parked on the core becomes ready there: it goes on, unless one of its priority or a higher one is ready, behind which
it stands (R189, R238). -/
def Cube.wakeCore (k : Cube) (i : ShelfId) : Cube :=
  let k := (k.takePatches i).modCore Ctx.dropWait
  match nextReady k with
  | some j => if k.core.task.prio.toNat ≤ shelfPrio k j ∧ k.leave = .none then { k with leave := .control .yield k.core.pc } else k
  | none => k
/-- A monitor's strand becomes ready and its entry is free; it will issue its bundle anew. -/
def wakeShelf (s : State) (c : CubeId) (i : ShelfId) : State :=
  let s := freeMonitor s c i
  s.modCube c fun k =>
    if k.cur = .shelf i then k.wakeCore i
    else match k.shelves.get i with
      | some x =>
        if x.status = .parked then
          { k with shelves := k.shelves.set i (some { x.dropWait with status := .ready }), ready := k.ready ++ [i] }
        else k
      | none => k
/-- Monitors on a dead peer wake their strands (R191). -/
def wakeDeadPeers (s : State) (c : CubeId) : State :=
  ((s.cube c).monitors.filter fun m => match peerOf m.addr with | some p => peerDead s p | none => false).foldl
    (fun s m => wakeShelf s c m.shelf) s
/-- The strand parks with a monitor, which polls where the home has not recorded a watch (R190): another ready strand takes the
core (R189), once the parked one's interlocked operations are complete (R152). -/
def parkStrand (s : State) (c : CubeId) (i : ShelfId) (w : WaitInfo) : State :=
  let s := s.modCube c fun k =>
    { (k.modCore fun x => { x with wait := .parked }) with monitors := k.monitors ++ [⟨i, w.key, w.target, w.va, !(w.watched && s.watches.contains (w.key, c))⟩] }
  match nextReady (s.cube c) with
  | some j => if mayLeaveCore s c then loadShelf (saveCore s c .parked) c j else s
  | none => s
/-- An episode that meets a full table is counted once; a bundle that is issued anew after its strand was off the core waits in a new
episode (DESIGN CHOICE, log entry 114). -/
def countFull (s : State) (c : CubeId) (w : WaitInfo) : State :=
  let s := if w.park && !w.counted then
      s.modCube c fun k => { k with cregs := { k.cregs with monFull := satAdd32 k.cregs.monFull } }
    else s
  s.modCube c fun k => k.modCore fun x => { x with wait := .spinning { w with counted := true } }
/-- The read of a waiting `cwait` returns. -/
def waitReturns (s : State) (c : CubeId) : State :=
  let k := s.cube c
  match k.cur, k.core.wait with
  | .none, _ => s
  | cur, .reading id w =>
    (match s.read id with
     | none => s
     | some r =>
       if r.status == .sent then s
       else
         let s := s.dropRead id
         let v : Word := r.value.setWidth 64
         let set (x : WaitState) : State := s.modCube c fun k => k.modCore fun y => { y with wait := x }
         if r.bad then set (.failed ⟨causeUncorrectable, 0, 0, accCounter, 0, w.va⟩)
         else if w.target.toNat ≤ v.toNat then set (.satisfied v)
         else match cur with
           | .shelf i =>
             if w.park && decide (k.monitors.length < 64) then parkStrand s c i w else countFull s c w
           | _ => countFull s c w)
  | _, _ => s
def execCwaitReadReturn (c : CubeId) (s : State) : Out := .next (waitReturns s c)
/-- A spinning `cwait` reads its counter again. -/
def execCwaitSpinReread (c : CubeId) (s : State) : Out :=
  .next (match (s.cube c).core.wait with
    | .spinning w => if (s.cube c).running then sendWait s c w else s
    | _ => s)
/-- A read of the same word has been served and its `cwait` has not seen it yet: the notification follows it. -/
def readAhead (s : State) (c : CubeId) (addr : Nat) : Bool :=
  match (s.cube c).core.wait with
  | .reading id w => w.key == addr && (match s.read id with | some r => r.status == .served | none => false)
  | _ => false
/-- A home's notification reaches a cube: every monitor on the word whose target is met wakes its strand; a word that no
monitor is on any more is not watched any longer. -/
def notifyMonitors (s : State) (c : CubeId) (addr : Nat) : State :=
  if readAhead s c addr then s
  else
    match s.notes.find? fun n => n.1 == c && n.2.1 == addr with
    | none => s
    | some n =>
      let s := { s with notes := s.notes.erase n }
      let met := (s.cube c).monitors.filter fun m => m.addr == addr && decide (m.target.toNat ≤ n.2.2.toNat)
      let s := met.foldl (fun s m => wakeShelf s c m.shelf) s
      if (s.cube c).monitors.any fun m => m.addr == addr then s
      else { s with watches := s.watches.filter fun w => w != (addr, c) }
def execMonitorNotify (c : CubeId) (addr : Nat) (s : State) : Out := .next (notifyMonitors s c addr)
/-- A polling monitor reads its counter; one that meets an error leaves it to the strand's own read. -/
def pollMonitor (s : State) (c : CubeId) (i : ShelfId) : State :=
  match (s.cube c).monitors.find? fun m => m.shelf == i && m.poll with
  | none => s
  | some m =>
    if !pathCarries s c.val (match (s.cube c).shelves.get i with | some x => x.sid | none => 0) m.addr then s else
    let s := fireReads s [lineOf m.addr]
    let v := packLE ((List.range 8).map fun k => placeByte s (m.addr + k))
    if m.target.toNat ≤ v || s.poison.contains (lineOf m.addr) then wakeShelf s c i else s
def execMonitorPoll (c : CubeId) (shelf : ShelfId) (s : State) : Out := .next (pollMonitor s c shelf)

end Sys2Proof.Machine
end

