-- ==== Sys2Proof/Machine/Launch.lean ====
section
/-! DEFINITION. The atelier (chapter 08): launch packets, the scoreboard, residency reports and refusals, image headers,
partitions, and the hand-out of batches. -/
namespace Sys2Proof.Machine

/-! ### Accesses of the schedulers through a launch's address space (R408) -/

/-- The bridge die whose atelier serves (R227). -/
def svcBridge (s : State) : Fin 2 := if s.atl.onBridge1 then 1 else 0
/-- The atelier and the cube schedulers act as non-secure agents without a partition, as engines of a bridge die (R103, R104, log
entry 54). -/
def svcAgent (s : State) (asn : BitVec 12) : Agent :=
  ⟨.task, false, asn, 0, .reset, .bridge (svcBridge s), none, asn.toNat⟩
/-- The way from the services' bridge die to an address carries traffic now (R10, R368). -/
def svcCarried (s : State) (asn : BitVec 12) (va : VA) : Bool :=
  match resolve s (svcAgent s asn) va with
  | .ok t => (match t.peer with | some p => peerFails s p | none => false) || pathCarries s (8 + (svcBridge s).val) 0xFFF t.key
  | .fault _ => true
/-- What a service does once the addresses that it needs are translated and can be reached: until then it asks for their walks, one at
a time (R104), and waits for the links and ports (R10, R368). -/
def svcWaitAll (s : State) (needs : List (BitVec 12 × VA)) (f : State → State) : State :=
  match needs.find? fun n => mustWalk s (svcAgent s n.1) n.2 with
  | some n => requestWalk s (svcAgent s n.1) n.2
  | none => if needs.all fun n => svcCarried s n.1 n.2 then f s else s
def svcWait (s : State) (asn : BitVec 12) (vas : List VA) (f : State → State) : State := svcWaitAll s (vas.map fun va => (asn, va)) f
/-- A service is done with what its walks gave. -/
def svcDone (s : State) (asn : BitVec 12) : State := takeWalks s (.bridge (svcBridge s)) asn.toNat
/-- An address in each granule of a range. -/
def granules (va : VA) (n : Nat) : List VA :=
  if n = 0 then [] else (List.range ((va.toNat % 4096 + n - 1) / 4096 + 1)).map fun k =>
    if k = 0 then va else BitVec.ofNat 52 ((va.toNat / 4096 + k) * 4096)
/-- Where such an access goes, if it can be made at all. -/
def svcTarget (s : State) (asn : BitVec 12) (need : Need) (va : VA) : Option Target :=
  let ag := svcAgent s asn
  match resolve s ag va with
  | .fault _ => none
  | .ok t =>
    if (match t.peer with | some p => peerFails s p | none => false) || inWindow s t.key then none
    else match checkTarget s ag need false t with
      | some _ => none
      | none => some t
/-- A service finds the peer of an address dead or out of reach: its bit is set (R357, R362). -/
def svcLost (s : State) (asn : BitVec 12) (va : VA) : State :=
  match resolve s (svcAgent s asn) va with
  | .ok t => (match t.peer with | some p => if peerFails s p then markDead s p else s | none => s)
  | .fault _ => s
/-- An access of n bytes is made: MIGRATE pages count it granule by granule (R102), an injected fault fires on the lines it reads
(R376), and a dead peer is noted. -/
def svcTouch (s : State) (asn : BitVec 12) (need : Need) (va : VA) (n : Nat) : State :=
  (granules va n).foldl (fun s a =>
    match svcTarget s asn need a with
    | some t =>
      let s := countAll s (.bridge (svcBridge s)) (migOf t asn a)
      let m := min (4096 - a.toNat % 4096) (n - (a.toNat - va.toNat))
      if need == .write then s
      else fireReads s ((List.range ((t.key % 64 + m + 63) / 64)).map fun k => lineOf t.key + k)
    | none => svcLost s asn a) s
/-- The bytes from an address, if all can be read. -/
def svcRead (s : State) (asn : BitVec 12) (va : VA) (n : Nat) : Option (List Byte) :=
  (List.range n).mapM fun k =>
    match svcTarget s asn .read (va + BitVec.ofNat 52 k) with
    | some t => if s.poison.contains (lineOf t.key) then none else some (placeByte s t.key)
    | none => none
/-- Who writes for a launch: the atelier, on a bridge die, whose writes carry no owner, or a cube's scheduler, whose writes carry that of
the leaf (R373). -/
inductive Service where
  | atelier
  | scheduler
deriving DecidableEq, Repr
def Service.tag : Service → Target → BitVec 12
  | .atelier, _ => 0xFFF
  | .scheduler, t => t.tag
/-- Bytes performed at a place, as a `.g` store. -/
def svcPut (w : Service) (s : State) (t : Target) (bs : List Byte) : State :=
  let cells := cellsAt t.key bs
  homeWrite (engCoherence s true 0 cells) .task .outside (w.tag t) cells
/-- An aligned write; one that cannot be made is skipped. -/
def svcWrite (w : Service) (s : State) (asn : BitVec 12) (va : VA) (bs : List Byte) : State :=
  let s := svcTouch s asn .write va bs.length
  match svcTarget s asn .write va with
  | some t => svcPut w s t bs
  | none => s
/-- A counter add for a launch. -/
def svcAdd (w : Service) (s : State) (asn : BitVec 12) (va : VA) (amt : Word) : State :=
  if va.toNat % 8 ≠ 0 then s
  else
    let s := svcTouch s asn .both va 8
    match svcTarget s asn .both va with
    | some t =>
      if s.poison.contains (lineOf t.key) then s
      else svcPut w s t ((opEffect s.mem (counterOp s t amt)).1.map Prod.snd)
    | none => s
/-- A walk that a service makes at once reads its table lines: injected faults fire (R376). -/
def svcWalk (s : State) (asn : BitVec 12) (va : VA) : State :=
  if mustWalk s (svcAgent s asn) va then fireReads s ((walkPath s asn va).1.map lineOf) else s
def poisonBit : Word := 0x8000000000000000

/-! ### Packets (R222 to R225) -/

def pktField (p : BitVec 512) (off n : Nat) : Nat := (p >>> (8 * off)).toNat % 2 ^ (8 * n)
def pktVA (p : BitVec 512) (off : Nat) : VA := BitVec.ofNat 52 (pktField p off 8)
def pktMalformed (p : BitVec 512) : Bool :=
  pktField p 0 2 != 1 || decide (3 < pktField p 2 1) || decide (3 < pktField p 3 1) || pktField p 4 4 == 0 ||
  decide (2 ^ 24 < pktField p 4 4) || pktField p 8 8 % 4096 != 0 || decide (0xFFF ≤ pktField p 0x10 2) ||
  decide (7 < pktField p 0x12 1) || pktField p 0x13 1 != 0 || pktField p 0x18 8 == 0 || pktField p 0x18 8 % 8 != 0 ||
  pktField p 0x20 8 % 64 != 0 || pktField p 0x28 8 % 16 != 0
/-- The launch that a packet asks for, in a slot with its generation. -/
def pktLaunch (p : BitVec 512) (slot gen : BitVec 8) (arrival : Nat) : Launch :=
  { slot := slot, gen := gen, prio := BitVec.ofNat 2 (pktField p 2 1), ordered := pktField p 3 1 % 2 == 1
    reports := pktField p 3 1 / 2 % 2 == 1, ntasks := pktField p 4 4, image := pktVA p 8
    asn := BitVec.ofNat 12 (pktField p 0x10 2), part := BitVec.ofNat 3 (pktField p 0x12 1)
    launchId := BitVec.ofNat 32 (pktField p 0x14 4), done := pktVA p 0x18, faultRec := pktVA p 0x20
    report := pktVA p 0x28, arg0 := BitVec.ofNat 64 (pktField p 0x30 8), arg1 := BitVec.ofNat 64 (pktField p 0x38 8)
    arrival := arrival, header := none, untaken := [(0, pktField p 4 4)], batches := [], started := 0, retired := 0, refused := 0, seen := [] }
/-- A packet with its ASN field replaced (R229, R366). -/
def pktWithAsn (p : BitVec 512) (asn : BitVec 12) : BitVec 512 :=
  (p &&& ~~~((0xFFFF : BitVec 512) <<< (0x10 * 8))) ||| (asn.setWidth 512 <<< (0x10 * 8))

/-! ### Reports (R237) -/

def Launch.handle (l : Launch) : Nat := l.gen.toNat * 256 + l.slot.toNat
/-- A residency report: bytes 8 to 15 first, then bytes 0 to 7. -/
def writeReport (s : State) (l : Launch) (status first count cube handle : Nat) : State :=
  if l.report ≠ 0 ∧ l.reports then
    let hi := first % 2 ^ 24 + count * 2 ^ 24 + handle * 2 ^ 32
    let lo := l.launchId.toNat + 2 ^ 32 * (l.started % 2 ^ 24 + cube * 2 ^ 24 + status * 2 ^ 28)
    svcWrite .atelier (svcWrite .atelier s l.asn (l.report + 8) (bytesLE 8 hi)) l.asn l.report (bytesLE 8 lo)
  else s

/-! ### The scoreboard (R226) -/

def State.launch (s : State) (slot : BitVec 8) : Option Launch := s.atl.board.find? fun l => l.slot == slot
def State.modAtl (s : State) (f : Atelier → Atelier) : State := { s with atl := f s.atl }
def State.modLaunch (s : State) (slot : BitVec 8) (f : Launch → Launch) : State :=
  s.modAtl fun a => { a with board := a.board.map fun l => if l.slot = slot then f l else l }
/-- A launch all of whose tasks have retired or been refused gives its slot up, and the next use has the next generation. -/
def releaseSlot (s : State) (slot : BitVec 8) : State :=
  match s.launch slot with
  | some l =>
    if l.retired + l.refused = l.ntasks then
      s.modAtl fun a => { a with
        board := a.board.filter fun m => m.slot != slot
        gens := a.gens.set slot.toNat (l.gen + 1) slot.isLt }
    else s
  | none => s
/-- n tasks from index `first` on are refused: a report, then one add to DONE with poison (R253). -/
def refuseTasks (s : State) (slot : BitVec 8) (status first n : Nat) (handle : Bool) : State :=
  match s.launch slot with
  | some l =>
    if n = 0 then s
    else
      let s := writeReport s l status first 0 0 (if handle then l.handle else 0)
      let s := svcAdd .atelier s l.asn l.done (BitVec.ofNat 64 n ||| poisonBit)
      releaseSlot (s.modLaunch slot fun l => { l with refused := l.refused + n }) slot
  | none => s
/-- What the answer to a requester goes to: DONE and REPORT. -/
def Launch.answers (l : Launch) : List VA := l.done :: if l.report ≠ 0 ∧ l.reports then [l.report] else []
def untakenCount (l : Launch) : Nat := l.untaken.foldl (fun n r => n + r.2) 0
/-- Every task not handed out is refused. -/
def refuseRest (s : State) (slot : BitVec 8) (status : Nat) : State :=
  match s.launch slot with
  | some l =>
    let first := match l.untaken with | [] => 0 | r :: _ => r.1
    refuseTasks (s.modLaunch slot fun l => { l with untaken := [] }) slot status first (untakenCount l) true
  | none => s
def partReg (s : State) (p : BitVec 3) : PartReg := s.atl.parts.get p.toFin
def partClosed (s : State) (p : BitVec 3) : Bool := !(partReg s p).isOpen || (partReg s p).cubes == 0
def freeSlot (s : State) : Option (BitVec 8) :=
  ((List.range 256).find? fun n => !s.atl.board.any fun l => l.slot.toNat == n).map (BitVec.ofNat 8)
/-- A packet reaches the atelier: the answer is that of `launch` (R224, R229, R230), and its launch takes the lowest-numbered free slot
(DESIGN CHOICE, log entry 124). The report of a refusal is translated at once
(log entry 54), in the address space that the low 12 bits of ASN name. -/
def acceptPacket (s : State) (p : BitVec 512) : State × Word :=
  let l := pktLaunch p 0 0 s.atl.arrivals
  let refuse (status : Nat) : State :=
    if l.report ≠ 0 ∧ l.reports then writeReport (svcWalk s l.asn l.report) l status 0 0 0 0 else s
  if pktMalformed p then (if pktField p 0x28 8 % 16 = 0 then refuse 4 else s, 2)
  else if partClosed s l.part then (refuse 3, 3)
  else
    match freeSlot s with
    | none => (refuse 2, 1)
    | some slot =>
      let gen := s.atl.gens.get slot.toFin
      (s.modAtl fun a => { a with
        board := a.board ++ [pktLaunch p slot gen a.arrivals], arrivals := a.arrivals + 1 },
       (gen.setWidth 64 <<< 24) ||| (slot.setWidth 64 <<< 16))
/-- Packets that arrive before STAGE reads READY are discarded (R400). -/
def receivePacket (s : State) (p : BitVec 512) : State := if s.secu.stage = 4 then (acceptPacket s p).1 else s
def execLaunchPacketArrival (_bridge : Bool) (pkt : BitVec 512) (s : State) : Out := .next (receivePacket s pkt)

/-! ### Image headers (R57, R58, R224) -/

def hdrField (h : List Byte) (off n : Nat) : Nat := packLE ((h.drop off).take n)
/-- The header's own values are acceptable. -/
def headerOk (h : List Byte) : Bool :=
  hdrField h 0 4 == 0x31494B49 && hdrField h 4 2 == 1 && hdrField h 6 2 == 128 && decide (hdrField h 8 4 < 2 ^ 29) &&
  hdrField h 0x0C 4 == 0 && hdrField h 0x3B 1 == 0 && hdrField h 0x5C 4 == 0 && hdrField h 0x70 16 == 0
def parseHeader (h : List Byte) : Header :=
  { opmask := BitVec.ofNat 29 (hdrField h 8 4), entry := hdrField h 0x10 8, text := hdrField h 0x18 8
    rodata := hdrField h 0x20 8, data := hdrField h 0x28 8, spad := hdrField h 0x30 4, face := hdrField h 0x34 4
    acc := hdrField h 0x38 2, pt := hdrField h 0x3A 1, pfOff := hdrField h 0x3C 4, pfSize := hdrField h 0x40 4
    npal := hdrField h 0x44 2, nspool := hdrField h 0x46 2, palOff := hdrField h 0x48 8, spoolOff := hdrField h 0x50 8
    const := hdrField h 0x58 4 }
/-- The read of a launch's header returns. -/
def readHeader (s : State) (slot : BitVec 8) : State :=
  match s.launch slot with
  | none => s
  | some l =>
    if l.header.isSome then s
    else svcWait s l.asn [l.image] fun s =>
      let s' := svcTouch s l.asn .read l.image 128
      match svcRead s' l.asn l.image 128 with
      | some h =>
        if headerOk h then svcDone (s'.modLaunch slot fun l => { l with header := some (parseHeader h) }) l.asn
        else svcWait s l.asn l.answers fun _ => svcDone (refuseRest s' slot 1) l.asn
      | none => svcWait s l.asn l.answers fun _ => svcDone (refuseRest s' slot 1) l.asn
def execImageHeaderRead (slot : BitVec 8) (s : State) : Out := .next (readHeader s slot)

/-! ### Room on a cube (R231, R233) -/

/-- The first run of n free units among `total`, given the runs in use: it starts at 0 or where a run ends. -/
def firstFit (total n : Nat) (used : List (Nat × Nat)) : Option Nat :=
  if n = 0 then some 0
  else
    let free (b : Nat) : Bool :=
      decide (b + n ≤ total) && used.all fun u => u.2 == 0 || decide (b + n ≤ u.1) || decide (u.1 + u.2 ≤ b)
    ((0 :: used.map fun u => u.1 + u.2).filter free).foldl (fun (m : Option Nat) b => match m with
      | none => some b
      | some a => some (min a b)) none
def faceBanks (bytes : Nat) : Nat := ceilDiv bytes 0x4_0000
/-- A partition for a task of these sizes beside those in use. -/
def allocate (h : Header) (used : List Partition) : Option Partition :=
  let f := faceBanks h.face
  let faces := used.map fun p => (p.faceBase, faceBanks p.faceBytes)
  let face :=
    if h.face ≤ 0x70_0000 then firstFit 28 f faces
    else if faces.all fun u => u.2 == 0 then (if f ≤ 32 then some 0 else none) else none
  match firstFit 32 (ceilDiv h.spad 0x10_0000) (used.map fun p => (p.scrBase, p.scrBanks)), face,
      firstFit 1024 h.acc (used.map fun p => (p.accBase, p.accTiles)),
      firstFit 64 h.pt (used.map fun p => (p.ptBase, p.ptTiles)),
      firstFit 64 (ceilDiv h.const 4096) (used.map fun p => (p.constBase, ceilDiv p.constBytes 4096)) with
  | some sb, some fb, some ab, some pb, some cb =>
    some { scrBase := sb, scrBanks := ceilDiv h.spad 0x10_0000, spadBytes := h.spad, accBase := ab, accTiles := h.acc
           faceBase := fb, faceBytes := h.face, ptBase := pb, ptTiles := h.pt, constBase := cb, constBytes := h.const }
  | _, _, _, _, _ => none
/-- Strands on shelves that a test leaves out of account. -/
def partitionsBut (k : Cube) (out : Ctx → Bool) : List Partition :=
  (k.strands.filter fun x => !out x.2).map fun x => x.2.part
/-- A task of these sizes fits when the strands of `out` are left out of account: a shelf and every unit. -/
def fitsBut (k : Cube) (h : Header) (out : Ctx → Bool) : Bool :=
  decide ((k.strands.filter fun x => !out x.2).length < 16) && (allocate h (partitionsBut k out)).isSome
/-- Strands that may be evicted: ready, running or parked ones, and none that is halted for debug on the core (R241). -/
def Ctx.evictable (x : Ctx) : Bool :=
  match x.status with
  | .ready | .running | .parked => true
  | _ => false
/-- The strand of a shelf is halted for debug (R241, R404). -/
def Cube.debugHolds (k : Cube) (i : ShelfId) : Bool := k.debugHalted && k.cur == .shelf i
/-- The strand of a shelf may be evicted (R241); one that has lost a write is left to take its trap first (R125). -/
def Cube.mayEvict (k : Cube) (x : ShelfId × Ctx) : Bool :=
  x.2.evictable && !k.debugHolds x.1 && !x.2.pending.any fun t => t.cause == causeAckTimeout
/-- Conditions 1 and 2 of R231: the partition, a computing cube, and its classes. -/
def mayRunOn (s : State) (part : BitVec 3) (opmask : BitVec 29) (c : CubeId) : Bool :=
  let k := s.cube c
  (partReg s part).cubes.getLsbD c.val && k.hw.life == .live && (opmask &&& ~~~k.hw.caps) == 0
def queueFree (k : Cube) : Nat := 64 - k.admission.length
/-- All four conditions of R231. -/
def placeable (s : State) (l : Launch) (h : Header) (c : CubeId) : Bool :=
  mayRunOn s l.part h.opmask c && decide (0 < queueFree (s.cube c)) &&
    fitsBut (s.cube c) h fun x => decide (x.task.prio.toNat < l.prio.toNat)
def cubesFor (s : State) (l : Launch) (h : Header) : List CubeId := (List.finRange 8).filter (placeable s l h)
/-- The cube with the most free queue entries, the lowest-numbered among equals (R232). -/
def bestCube (s : State) (cs : List CubeId) : Option CubeId :=
  let top := cs.foldl (fun n c => max n (queueFree (s.cube c))) 0
  cs.find? fun c => queueFree (s.cube c) == top
/-- A launch that is served before another (R227). -/
def before (a b : Launch) : Bool :=
  decide (b.prio.toNat < a.prio.toNat) || (a.prio == b.prio && decide (a.arrival < b.arrival))
/-- Launches with tasks to hand out, in no order. -/
def waitingLaunches (s : State) : List Launch := s.atl.board.filter fun l => l.header.isSome && !l.untaken.isEmpty

/-! ### Batches (R232, R234) -/

/-- An admission queue is ordered by priority, then by hand-over. -/
def enqueueTask (q : List QTask) (t : QTask) : List QTask :=
  (q.filter fun u => decide (t.prio.toNat ≤ u.prio.toNat)) ++ [t] ++ q.filter fun u => decide (u.prio.toNat < t.prio.toNat)
/-- n tasks leave the front of the ranges. -/
def takeTasks (n : Nat) : List (Nat × Nat) → List (Nat × Nat)
  | [] => []
  | r :: t => if n < r.2 then (r.1 + n, r.2 - n) :: t else t
/-- Tasks that come back are put in index order, merged with a range that they touch. -/
def putBack (i : Nat) : List (Nat × Nat) → List (Nat × Nat)
  | [] => [(i, 1)]
  | r :: t => if i + 1 = r.1 then (i, r.2 + 1) :: t else if i < r.1 then (i, 1) :: r :: t else r :: putBack i t
def handBatch (s : State) (l : Launch) (c : CubeId) : State :=
  match l.untaken with
  | [] => s
  | r :: _ =>
    let n := min (min 64 (queueFree (s.cube c))) r.2
    let s := s.modCube c fun k => { k with
      admission := (List.range n).foldl (fun q j => enqueueTask q ⟨l.slot, BitVec.ofNat 24 (r.1 + j), l.prio⟩) k.admission }
    s.modLaunch l.slot fun l => { l with untaken := takeTasks n l.untaken, batches := l.batches ++ [⟨c, r.1, n, (List.range n).map (r.1 + ·)⟩] }
/-- A batch goes to a cube, or the launch's tasks are refused because no cube could ever take them (R231). It goes there also while
a launch of higher priority can be placed nowhere or an earlier launch's header is unread (DESIGN CHOICE, log entry 136). -/
def placeBatch (s : State) (slot : BitVec 8) (c : CubeId) : State :=
  match s.launch slot with
  | none => s
  | some l =>
    match l.header with
    | none => s
    | some h =>
      if l.untaken.isEmpty then s
      else
        let able := (List.finRange 8).filter (mayRunOn s l.part h.opmask)
        let refuse (status : Nat) : State := svcWait s l.asn l.answers fun s => svcDone (refuseRest s slot status) l.asn
        if able.isEmpty then refuse 1
        else if (allocate h []).isNone then refuse 2
        else if (waitingLaunches s).any fun m => before m l && (match m.header with
            | some g => !(cubesFor s m g).isEmpty
            | none => false) then s
        else if bestCube s (cubesFor s l h) = some c then handBatch s l c
        else s
def execBatchHandoff (slot : BitVec 8) (c : CubeId) (s : State) : Out := .next (placeBatch s slot c)
/-- The batch of a cube in which a task still waits. -/
def batchOf (l : Launch) (c : CubeId) (i : Nat) : Option Batch := l.batches.find? fun b => b.cube == c && b.left.contains i
/-- A batch changes; one in which no task waits any more is done, and it is reported if it has tasks (R237). -/
def settleBatch (s : State) (slot : BitVec 8) (old new : Batch) : State :=
  match s.launch slot with
  | none => s
  | some l =>
    if new.left.isEmpty then
      (if 0 < new.count then writeReport s l 0 new.first new.count new.cube.val l.handle else s).modLaunch slot fun l =>
        { l with batches := l.batches.filter fun d => d != old }
    else s.modLaunch slot fun l => { l with batches := l.batches.map fun d => if d = old then new else d }
/-- One more task of a batch has started or been refused. -/
def stepBatch (s : State) (c : CubeId) (slot : BitVec 8) (i : Nat) : State :=
  match (s.launch slot).bind fun l => batchOf l c i with
  | none => s
  | some b => settleBatch s slot b { b with left := b.left.filter fun n => n != i }
/-- A queued task goes back to the atelier, out of its batch, which then begins behind it if it was the first (log entry 94). -/
def returnTask (s : State) (c : CubeId) (q : QTask) : State :=
  let s := s.modCube c fun k => { k with admission := k.admission.filter fun u => u != q }
  let s := match (s.launch q.slot).bind fun l => batchOf l c q.index.toNat with
    | none => s
    | some b => settleBatch s q.slot b { b with
        first := if b.first = q.index.toNat then b.first + 1 else b.first
        count := b.count - 1, left := b.left.filter fun n => n != q.index.toNat }
  s.modLaunch q.slot fun l => { l with untaken := putBack q.index.toNat l.untaken }
/-- Queued tasks whose cube has left their partition, computes no more or lacks a class (R254). -/
def returnUnfit (s : State) (c : CubeId) : State :=
  ((s.cube c).admission.filter fun q => match s.launch q.slot with
    | some l => (match l.header with | some h => !mayRunOn s l.part h.opmask c | none => false)
    | none => false).foldl (fun s q => returnTask s c q) s

/-! ### Partition registers (R230) -/

/-- Queued tasks of a launch come back to it. -/
def recallTasks (s : State) (slot : BitVec 8) : State :=
  (List.finRange 8).foldl (fun s c =>
    ((s.cube c).admission.filter fun q => q.slot == slot).foldl (fun s q => returnTask s c q) s) s
/-- A write of SCH_PARTn. Strands on cubes that leave the partition are to migrate (R245), where
CUBES = 0 leaves them none, into the re-admission list (DESIGN CHOICE, log entry 137). -/
def writePart (s : State) (part : BitVec 3) (v : Word) : State :=
  let new : PartReg := ⟨v.getLsbD 8, v.setWidth 8⟩
  let twice := (List.range 8).any fun n => n != part.toNat &&
    ((s.atl.parts.toList.getD n default).cubes &&& new.cubes) != 0
  if twice then s
  else
    let s := s.modAtl fun a => { a with parts := a.parts.set part.toNat new part.isLt }
    let mine := (s.atl.board.filter fun l => l.part == part).map Launch.slot
    let s := if partClosed s part then mine.foldl (fun s n => refuseRest (recallTasks s n) n 3) s else s
    (List.finRange 8).foldl (fun s c =>
      if new.cubes.getLsbD c.val then s else s.modCube c fun k => k.sendAway fun x => mine.contains x.task.slot) s
def execSchPartWrite (part : BitVec 3) (v : Word) (s : State) : Out := .next (writePart s part v)

/-- Bridge 1 goes on from its copy of the scoreboard (R227); the first cube's conservator keeps the record. -/
def execAtelierTakeover (s : State) : Out :=
  .next (if s.atl.onBridge1 then s
    else logUe (s.modAtl fun a => { a with onBridge1 := true }) 0 (logRecord 13 0 0))

end Sys2Proof.Machine
end

