-- ==== Sys2Proof/Machine/Train.lean ====
section
/-! DEFINITION. Trains and the instructions of chapter 08: `join`, `leave`, `trninfo` and `launch` (R228, R229, R246, R247). -/
namespace Sys2Proof.Machine

/-- A value that the atelier returns, as an interlocked result (R228). -/
def answer (s : State) (d : SReg) (v : Word) : State :=
  sendRead s ⟨s.nextId, s.ctx.sid, s.me, 0, 0, [], [], .scalar d false 8 false, none, none, .served, v.setWidth 2048, 0,
    false, [], .none, ([], [])⟩

/-! ### Train records (R246) -/

def recCount (s : State) (key : Nat) : Nat := memNat s.mem key 1
def recLive (s : State) (key : Nat) : Bool := (memWord s.mem key).getLsbD 31
def recEntry (s : State) (key : Nat) : Nat := ((memWord s.mem key).extractLsb' 16 9).toNat
/-- A record's bytes are performed as `.g` stores of the atelier, whose writes carry no owner (R373). -/
def putRecord (s : State) (key : Nat) (bs : List Byte) : State :=
  let cells := cellsAt key bs
  homeWrite (engCoherence s true 0 cells) .runtime .outside 0xFFF cells
/-- COUNT, TRAIN and LIVE as given, and one more in EPOCH. -/
def setRecord (s : State) (key count entry : Nat) : State :=
  let w := count + entry * 2 ^ 16 + if count = 0 then 0 else 2 ^ 31
  let epoch := caddValue (memWord s.mem (key + 8)) 1
  putRecord (putRecord s key (bytesLE 8 w)) (key + 8) (bytesLE 8 epoch.toNat)
/-- A strand leaves the train it is in; a train without members ends. Of a record on a poisoned line nothing can be read, and it stays
as it is (R374; DEDUCED, log entry 125). -/
def leaveTrain (s : State) (t : Train) (sid : Nat) : State :=
  let s := fireReads s [lineOf t.key]
  let bad := s.poison.contains (lineOf t.key)
  let n := if bad then t.members.length - 1 else recCount s t.key - 1
  let s := if bad then s else setRecord s t.key n t.entry
  s.modAtl fun a => { a with
    trains := (if n = 0 then a.trains.filter fun u => u.entry != t.entry
               else a.trains.map fun u => if u.entry = t.entry then { u with members := u.members.filter (· != sid) } else u) }
def leaveAll (s : State) (sid : Nat) : State :=
  match trainOf s sid with
  | some t => leaveTrain s t sid
  | none => s
def freeEntry (s : State) : Option Nat := (List.range 512).find? fun n => !s.atl.trains.any fun t => t.entry == n
/-- The strand is added to the train of a live record. -/
def addMember (s : State) (key sid : Nat) : State × Word :=
  let n := recCount s key
  if n = 128 then (s, 2 ||| (128 <<< 8))
  else
    let s := setRecord s key (n + 1) (recEntry s key)
    (s.modAtl fun a => { a with
       trains := a.trains.map fun u => if u.key = key then { u with members := u.members ++ [sid] } else u },
     BitVec.ofNat 64 ((n + 1) * 256))
/-- join of R247, on the record at a key. -/
def joinTrain (s : State) (key sid : Nat) : State × Word :=
  match trainOf s sid with
  | some t => (s, if t.key = key then 1 else 5)
  | none =>
    if recLive s key then addMember s key sid
    else
      match freeEntry s with
      | none => (s, 6)
      | some e =>
        let s := putRecord s key (bytesLE 64 (e * 2 ^ 16 + 2 ^ 31))
        addMember (s.modAtl fun a => { a with trains := a.trains ++ [⟨e, key, []⟩] }) key sid
/-- leave of R247. -/
def leaveOf (s : State) (key sid : Nat) : State × Word :=
  match trainOf s sid with
  | some t =>
    if t.key = key then
      let s := leaveTrain s t sid
      (s, BitVec.ofNat 64 (recCount s key * 256))
    else (s, BitVec.ofNat 64 (1 + recCount s key * 256))
  | none => (s, BitVec.ofNat 64 (1 + recCount s key * 256))
def trainInfo (s : State) (key sid : Nat) : Word :=
  let mine := match trainOf s sid with | some t => t.key == key | none => false
  BitVec.ofNat 64 (recCount s key) ||| bit 8 mine ||| bit 9 (recLive s key)

/-- The checks of s(a): 64-byte alignment, and an access that needs R and W, outside the reduction window (R365). -/
def trainCheck (s : State) (a : Src) : Except Trap Target :=
  scalarCheck s .both accAtomic 0 64 (offWindow s) (addrOf s.ctx a)
/-- The record lies in HBM of this package. -/
def inHbm (s : State) (key : Nat) : Bool := match keySpace s key with | .hbm _ => true | _ => false
/-- The atelier reads a train record for a core: an injected fault fires, and on a poisoned line the access takes the UNCORRECTABLE trap,
deferred (R374, R376). -/
def onRecord (s : State) (a : Src) (t : Target) (f : State → State) : State :=
  let s := fireReads s [lineOf t.key]
  if s.poison.contains (lineOf t.key) then
    s.modCtx fun y => y.addPending ⟨causeUncorrectable, 0, 0, accAtomic, 0, addrOf s.ctx a⟩ s.place
  else f s
def execJoin (g : Guard) (d : SReg) (a : Src) (s : State) : Out :=
  s.guarded g fun x s => s.checked (trainCheck s a) fun t =>
    if inHbm s t.key then onRecord s a t fun s =>
      let r := joinTrain s t.key x.sid
      answer r.1 d r.2
    else answer s d 4
def execLeave (g : Guard) (d : SReg) (a : Src) (s : State) : Out :=
  s.guarded g fun x s => s.checked (trainCheck s a) fun t => onRecord s a t fun s =>
    let r := leaveOf s t.key x.sid
    answer r.1 d r.2
def execTrninfo (g : Guard) (d : SReg) (a : Src) (s : State) : Out :=
  s.guarded g fun x s => s.checked (trainCheck s a) fun t => onRecord s a t fun s => answer s d (trainInfo s t.key x.sid)

/-! ### launch (R229) -/

/-- s(b) names this package or a peer. -/
def launchTargetOk (b : Word) : Bool :=
  b == 0 || (b &&& ~~~(0x83FF : Word) == 0 && b.getLsbD 15 && (b &&& 0x3FF) != 0x3FF)
def launchPeer (b : Word) : Option Nat := if b = 0 then none else some (b &&& 0x3FF).toNat
/-- The peer of a `launch` is lost: its bit is set. -/
def lostPeerOf (s : State) (b : Word) : Bool :=
  launchTargetOk b && (match launchPeer b with | some p => peerFails s p | none => false)
def launchAligned (x : Ctx) (a : Src) : Bool := (addrOf x a).toNat % 64 == 0
/-- The traps of `launch`, in the order of R229; then the packet's place, or none when the target is malformed. -/
def launchCheck (s : State) (a b : Src) : Except Trap (Option Target) :=
  let x := s.ctx
  let pkt := addrOf x a
  if !launchAligned x a then .error (s.slotTrapOf causeAlign 0 accLoad pkt)
  else if !launchTargetOk (x.src b) then .ok none
  else if lostPeerOf s (x.src b) then .error (s.slotTrapOf causeDeadPeer 0 accLoad pkt)
  else match reach s .read accLoad (offWindow s) pkt with
    | .error t => .error t
    | .ok t =>
      if (launchPeer (x.src b)).isSome && !(s.cube s.me).hw.caps.getLsbD capRemote then .error (s.slotTrapOf causeFenced 0 0 0)
      else .ok (some t)
/-- The aperture of a peer's bridge 0. -/
def apertureKey (p : Nat) : Nat := (p + 1) * dpaSpan + bridgeBase 0
/-- A packet goes out: to this package's atelier, or as a 64-byte write to a peer's aperture (R366). -/
def sendPacket (s : State) (x : Ctx) (d : SReg) (b : Word) (p : BitVec 512) : State :=
  match launchPeer b with
  | none =>
    let r := acceptPacket s p
    answer r.1 d r.2
  | some q =>
    let t : Target := { directTarget (apertureKey q) false 0xFFF with peer := some q }
    let s := sendItem s { coreItem s x t (.store (cellsAt t.key (bytesLE 64 p.toNat))) 0 [] accStore with glob := true }
    answer s d 5
def markLostPeer (s : State) (b : Word) : State :=
  if lostPeerOf s b then (match launchPeer b with | some p => markDead s p | none => s) else s
/-- `launch`: its bundle has waited for the strand's earlier writes. -/
def execLaunch (g : Guard) (d : SReg) (a b : Src) (s : State) : Out :=
  s.guarded g fun x s =>
    match launchCheck s a b with
    | .error t => takeTrap (if launchAligned x a then markLostPeer s (x.src b) else s) s.me t
    | .ok none => answer s d 2
    | .ok (some t) =>
      let ls := [lineOf t.key]
      let s := fireReads s ls
      if s.poison.contains (lineOf t.key) then
        s.modCtx fun y => y.addPending ⟨causeUncorrectable, 0, 0, accLoad, 0, addrOf x a⟩ s.place
      else
        let bs := (List.range 64).map fun k => readByte s x.sid s.me t.cached (t.key + k)
        let p := pktWithAsn (BitVec.ofNat 512 (packLE bs)) x.sys.asn
        if (x.sys.tinfo.extractLsb' 32 2).toNat < pktField p 2 1 then answer s d 4
        else sendPacket s x d (x.src b) p

end Sys2Proof.Machine
end

