-- ==== Sys2Proof/Machine/Sched.lean ====
section
/-! DEFINITION. The cube schedulers (chapter 08): admission and start of tasks, eviction, re-admission and migration, and the
ends of strands. -/
namespace Sys2Proof.Machine

/-! ### Shelves -/

def shelfCtx (k : Cube) (i : ShelfId) : Option Ctx := (k.strands.find? fun x => x.1 == i).map Prod.snd
def Cube.modShelf (k : Cube) (i : ShelfId) (f : Ctx → Ctx) : Cube :=
  { k with shelves := k.shelves.set i ((k.shelves.get i).map f) }
def Cube.freeShelf (k : Cube) (i : ShelfId) : Cube :=
  { k with
    shelves := k.shelves.set i none, ready := k.ready.filter fun j => j != i
    monitors := k.monitors.filter fun m => m.shelf != i, patches := k.patches.filter fun p => p.1 != i }
/-- A strand off the core becomes ready, at the tail of its list. -/
def Cube.makeReady (k : Cube) (i : ShelfId) : Cube :=
  { k.modShelf i fun x => { x with status := .ready } with ready := (k.ready.filter fun j => j != i) ++ [i] }
def emptyShelf (k : Cube) : Option ShelfId := (List.finRange 16).find? fun i => (k.shelves.get i).isNone
/-- A `cpy.mcast` that is not complete, its completion add being part of it, has resolved the strand as one of its targets (R255,
R267). -/
def mcastTo (s : State) (sid : Nat) : Bool :=
  (List.finRange 8).any fun d => (s.cube d).cmds.any fun m =>
    (match m.kind with | .copy .mcast => true | _ => false) && m.ents.contains sid
/-- Commands, joins, items and reads of a strand are all done (R123, R158, R241), and no `cpy.mcast` has it as a target. -/
def quiet (s : State) (c : CubeId) (sid : Nat) : Bool :=
  !((s.cube c).cmds.any fun m => m.sid == sid) && !((s.cube c).joins.any fun j => j.sid == sid) &&
    !(s.items.any fun i => i.sid == sid) && !(s.reads.any fun r => r.sid == sid) && !mcastTo s sid
def failedItems (s : State) (sid : Nat) : List Nat :=
  (s.items.filter fun i => i.sid == sid && i.status == .failed).map Item.id
def dropFailed (s : State) (sid : Nat) : State :=
  { s with items := s.items.filter fun i => !(i.sid == sid && i.status == .failed) }

/-! ### Admission and start (R233 to R236, R58, R153) -/

/-- In an ORDERED launch, every task of lower index has started. -/
def orderOk (l : Launch) (i : Nat) : Bool := !l.ordered || l.started + l.refused == i
/-- A strand awaits re-admission that this cube could take and that goes before a new task (R234, R244). -/
def mayTake (s : State) (e : Evicted) (c : CubeId) : Bool :=
  !(e.away && e.cube == c) && (match s.launch e.ctx.task.slot with
    | some l => mayRunOn s l.part e.ctx.task.opmask c
    | none => false)
def yieldsTo (s : State) (c : CubeId) (prio : BitVec 2) : Bool :=
  s.atl.evicted.any fun e => decide (prio.toNat ≤ e.ctx.task.prio.toNat) && mayTake s e c
/-- A queued task with its launch and header. -/
def queuedOf (s : State) (q : QTask) : Option (Launch × Header) :=
  match s.launch q.slot with
  | some l => l.header.map fun h => (l, h)
  | none => none
/-- Conditions 3 and 4 of R234. -/
def turnOf (s : State) (c : CubeId) (q : QTask) : Bool :=
  match queuedOf s q with
  | some (l, _) => orderOk l q.index.toNat && !yieldsTo s c q.prio
  | none => false
def roomFor (s : State) (c : CubeId) (q : QTask) : Option Partition :=
  match queuedOf s q with
  | some (_, h) => if (emptyShelf (s.cube c)).isSome then allocate h (partitionsBut (s.cube c) fun _ => false) else none
  | none => none
/-- The context of a task that is being admitted. -/
def startingCtx (sid : Nat) (l : Launch) (h : Header) (q : QTask) (p : Partition) : Ctx :=
  { Ctx.reset sid .task with
    status := .starting, part := p
    sys := { SysRegs.reset with asn := l.asn }
    task := ⟨q.slot, q.index, q.prio, 0, h.opmask,
      l.image + BitVec.ofNat 52 (128 + h.text + h.rodata + h.data), none, false, l.asn⟩ }
/-- The first admissible task of the queue takes the lowest free shelf and its partition. -/
def admitTask (s : State) (c : CubeId) : State :=
  let s := returnUnfit s c
  if !(s.cube c).computes then s
  else
    match (s.cube c).admission.find? fun q => turnOf s c q && (roomFor s c q).isSome with
    | none => s
    | some q =>
      match queuedOf s q, roomFor s c q, emptyShelf (s.cube c) with
      | some (l, h), some p, some i =>
        { s.modCube c fun k => { k with
            shelves := k.shelves.set i (some (startingCtx s.nextId l h q p))
            admission := k.admission.filter fun u => u != q } with nextId := s.nextId + 1 }
      | _, _, _ => s
def execTaskAdmission (c : CubeId) (s : State) : Out := .next (admitTask s c)

/-- A palette entry of an image (R57): what it sets, or none where it breaks R58. -/
def paletteSets (p : Partition) (e : List Byte) : Option (List (Nat × Nat × BitVec 7)) :=
  let region := hdrField e 0 1
  let bank := hdrField e 1 1
  let code := hdrField e 2 1
  let layers := hdrField e 3 1
  if 128 ≤ code ∨ !paletteValid (BitVec.ofNat 7 code) then none
  else if region = 0 then
    if bank < p.scrBanks ∧ layers = 0 then some [(0, p.scrBase + bank, BitVec.ofNat 7 code)] else none
  else if region ≤ 2 then
    if bank * 0x4_0000 < p.faceBytes then
      some (((List.range 8).filter fun l => layers == 0 || layers.testBit l).map fun l =>
        (1, 64 * l + 32 * (region - 1) + p.faceBase + bank, BitVec.ofNat 7 code))
    else none
  else none
/-- A spool entry of an image: its number and descriptor. -/
def spoolSets (p : Partition) (e : List Byte) : Option (Nat × Spool) :=
  let n := hdrField e 0 1
  let region := hdrField e 1 1
  let loc := BitVec.ofNat 64 ((region + 1) * 2 ^ 62 + hdrField e 8 8)
  let size := BitVec.ofNat 64 (hdrField e 4 4 + hdrField e 2 2 * 2 ^ 32)
  if n < 32 ∧ region ≤ 1 ∧ hdrField e 8 8 < 2 ^ 32 ∧ spoolDefined p loc size then
    some (n, { Spool.reset with loc := loc, size := size })
  else none
/-- n entries of w bytes from an address of the image. -/
def imageEntries (s : State) (l : Launch) (off n w : Nat) : Option (List (List Byte)) :=
  (List.range n).mapM fun k => svcRead s l.asn (l.image + BitVec.ofNat 52 (off + k * w)) w
def imagePalettes (s : State) (l : Launch) (h : Header) (p : Partition) : Option (List (Nat × Nat × BitVec 7)) :=
  match imageEntries s l h.palOff h.npal 4 with
  | some es => (es.mapM (paletteSets p)).map List.flatten
  | none => none
def imageSpools (s : State) (l : Launch) (h : Header) (p : Partition) : Option (List (Nat × Spool)) :=
  if 32 < h.nspool then none
  else match imageEntries s l h.spoolOff h.nspool 16 with
    | some es => es.mapM (spoolSets p)
    | none => none
/-- A palette set at its absolute bank (R67). -/
def Palettes.put (pl : Palettes) (x : Nat × Nat × BitVec 7) : Palettes :=
  if x.1 = 0 then (if h : x.2.1 < 32 then { pl with scr := pl.scr.set x.2.1 x.2.2 } else pl)
  else (if h : x.2.1 < 512 then { pl with face := pl.face.set x.2.1 x.2.2 } else pl)
/-- The first 64 words of a strand's generator, with its state after them (R74). -/
def fillNoise : Nat → Noise → Noise
  | 0, n => n
  | k + 1, n => let r := genNext n.a n.b; fillNoise k { n with queue := n.queue ++ [r.1], a := r.2.1, b := r.2.2 }
/-- The context of a started task (R58, R149, R153, R236). R58 refuses no header whose ENTRY, TEXTSIZE, SPADBYTES or FACEBYTES is
misaligned: ENTRY loses its low four bits, the sizes stand as they are (DESIGN CHOICE, log entry 129). -/
def startedCtx (s : State) (x : Ctx) (l : Launch) (h : Header) (sps : List (Nat × Spool)) : Ctx :=
  let code := l.image + 128
  { sps.foldl (fun x e => x.modSpool e.1 fun _ => e.2) x with
    status := .ready, pc := (code + BitVec.ofNat 52 h.entry) &&& ~~~(0xF : VA)
    noise := fillNoise 64 (.reset x.task.index.toNat)
    sys := { x.sys with
      asn := l.asn, codeLo := code, codeHi := code + BitVec.ofNat 52 h.text - 16, larg0 := l.arg0, larg1 := l.arg1
      tinfo := (l.prio.setWidth 64 <<< 32) ||| (l.gen.setWidth 64 <<< 24) ||| (l.slot.setWidth 64 <<< 16) ||| bit 0 l.ordered }
    task := { x.task with started := s.atl.starts, ending := none } }
/-- What of an image a start reads besides its header: the tables, the prefetch region and the constant section. -/
def imageRanges (l : Launch) (h : Header) (x : Ctx) : List (VA × Nat) :=
  [(l.image + BitVec.ofNat 52 h.palOff, h.npal * 4), (l.image + BitVec.ofNat 52 h.spoolOff, min h.nspool 32 * 16),
   (l.image + BitVec.ofNat 52 (128 + h.text + h.rodata + h.pfOff), min h.pfSize (x.part.scrBanks * 0x10_0000)),
   (x.task.constVA, h.const)]
def scrKey (c : CubeId) (p : Partition) : Nat := windowBase c + p.scrBase * 0x10_0000
def constKey (c : CubeId) (p : Partition) : Nat := windowBase c + constOffset + p.constBase * 4096
/-- Bytes of the image copied to a store of the cube, as far as they can be read; none where they cannot. -/
def copyImage (s : State) (l : Launch) (va : VA) (n key : Nat) : Option State :=
  (svcRead s l.asn va n).map fun bs => placeCells s l.asn (cellsAt key bs)
/-- What the image puts into the partition's stores: the prefetch region and the constant section. -/
def loadStores (s : State) (c : CubeId) (l : Launch) (h : Header) (x : Ctx) : Option State :=
  let data := l.image + BitVec.ofNat 52 (128 + h.text + h.rodata)
  let n := min h.pfSize (x.part.scrBanks * 0x10_0000)
  match copyImage s l (data + BitVec.ofNat 52 h.pfOff) n (scrKey c x.part) with
  | some s => copyImage s l x.task.constVA h.const (constKey c x.part)
  | none => none
/-- An admitted task whose tables break R58, or cannot be read, is refused with status 2. -/
def refuseStart (s : State) (c : CubeId) (i : ShelfId) (x : Ctx) : State :=
  let s := stepBatch (s.modCube c fun k => k.freeShelf i) c x.task.slot x.task.index.toNat
  refuseTasks s x.task.slot 2 x.task.index.toNat 1 true
/-- The image is installed, and the task is a ready strand (R234, R235). -/
def beginStrand (s : State) (c : CubeId) (i : ShelfId) (x : Ctx) (l : Launch) (h : Header) (ps : List (Nat × Nat × BitVec 7))
    (sps : List (Nat × Spool)) : State :=
  let y := startedCtx s x l h sps
  let s := s.modCube c fun k =>
    { (if l.seen.contains c then k else edgeClear k) with
      pals := ps.foldl Palettes.put k.pals
      shelves := k.shelves.set i (some y), ready := k.ready ++ [i] }
  let s := (s.modAtl fun a => { a with starts := a.starts + 1 }).modLaunch l.slot fun l =>
    { l with started := l.started + 1, seen := if l.seen.contains c then l.seen else l.seen ++ [c] }
  stepBatch s c l.slot x.task.index.toNat
/-- The tables, the prefetch region and the constants of an admitted task have been read. -/
def startTask (s : State) (c : CubeId) (i : ShelfId) : State :=
  match shelfCtx (s.cube c) i with
  | none => s
  | some x =>
    if x.status != .starting then s
    else match s.launch x.task.slot with
      | none => s
      | some l =>
        match l.header with
        | none => s
        | some h =>
          let rs := imageRanges l h x
          svcWait s l.asn (rs.flatMap fun r => granules r.1 r.2) fun s =>
            let t := rs.foldl (fun s r => svcTouch s l.asn .read r.1 r.2) s
            match imagePalettes t l h x.part, imageSpools t l h x.part, loadStores t c l h x with
            | some ps, some sps, some t => svcWait s l.asn l.answers.tail fun _ => svcDone (beginStrand t c i x l h ps sps) l.asn
            | _, _, _ => svcWait s l.asn l.answers fun _ => svcDone (refuseStart t c i x) l.asn
def execTaskStart (c : CubeId) (shelf : ShelfId) (s : State) : Out := .next (startTask s c shelf)

/-! ### Ends (R158, R250 to R252) -/

/-- A strand leaves its shelf for good: its train, its launch's count, and, with the last one, the slot. -/
def retire (s : State) (sid : Nat) (slot : BitVec 8) : State :=
  releaseSlot ((leaveAll s sid).modLaunch slot fun l => { l with retired := l.retired + 1 }) slot
/-- `halt` completes: the launch's add, and the shelf is free. A deferred trap that came meanwhile lets the strand run once
more, to take it at its `halt` bundle. -/
def completeHalt (s : State) (c : CubeId) (i : ShelfId) : State :=
  match shelfCtx (s.cube c) i with
  | none => s
  | some x =>
    if x.status != .halting then s
    else if !(failedItems s x.sid).isEmpty then
      (raiseFailed s x.sid (failedItems s x.sid)).modCube c fun k => k.makeReady i
    else if !x.pending.isEmpty then s.modCube c fun k => k.makeReady i
    else if quiet s c x.sid then
      match s.launch x.task.slot with
      | some l => svcWait s l.asn [l.done] fun s =>
        svcDone (retire ((svcAdd .scheduler s l.asn l.done 1).modCube c fun k => k.freeShelf i) x.sid x.task.slot) l.asn
      | none => s.modCube c fun k => k.freeShelf i
    else s
def execHaltComplete (c : CubeId) (shelf : ShelfId) (s : State) : Out := .next (completeHalt s c shelf)

/-- The fault record: claimed by the first failure, counted by every one; a claim on a poisoned line fails (R252, R374). -/
def faultEntry (s : State) (l : Launch) (x : Ctx) (c : CubeId) (cause : BitVec 8) : State :=
  if l.faultRec = 0 then s
  else
    let r := x.sys.lastTrap
    let put (s : State) (k : Nat) (w : Word) : State := svcWrite .scheduler s l.asn (l.faultRec + BitVec.ofNat 52 k) (bytesLE 8 w.toNat)
    let claim : Word := poisonBit ||| (cause.setWidth 64 <<< 40) ||| ((r.cause.extractLsb' 16 4).setWidth 64 <<< 36) |||
      (BitVec.ofNat 64 c.val <<< 32) ||| x.task.index.setWidth 64
    let s := svcTouch s l.asn .both (l.faultRec + 8) 8
    let s := match svcTarget s l.asn .both (l.faultRec + 8) with
      | some t =>
        if memWord s.mem t.key = 0 ∧ !s.poison.contains (lineOf t.key) then put (put (put (put (put s 8 claim) 0x10 r.tpc) 0x18 r.taddr) 0x20 r.cause) 0x28 r.slots
        else s
      | none => s
    svcAdd .scheduler s l.asn l.faultRec 1
/-- The cause that an end records: the one given, or the last trap's for 0. -/
def endCause (x : Ctx) (cause : BitVec 8) : BitVec 8 := if cause = 0 then x.sys.lastTrap.cause.setWidth 8 else cause
def endByError (s : State) (c : CubeId) (x : Ctx) (cause : BitVec 8) : State :=
  match s.launch x.task.slot with
  | some l =>
    let s := svcAdd .scheduler (faultEntry s l x c (endCause x cause)) l.asn l.done (poisonBit ||| 1)
    retire s x.sid x.task.slot
  | none => s
/-- What the end of a task goes to. -/
def endVAs (s : State) (x : Ctx) : List (BitVec 12 × VA) :=
  match s.launch x.task.slot with
  | some l => (l.asn, l.done) :: if l.faultRec = 0 then [] else [(l.asn, l.faultRec)]
  | none => []
def endDone (s : State) (x : Ctx) (t : State) : State :=
  match s.launch x.task.slot with
  | some l => svcDone t l.asn
  | none => t
/-- A cube's strands have nowhere to go: it is retired, and no other cube of the partition takes them. -/
def orphaned (s : State) (c : CubeId) (x : Ctx) : Bool :=
  (s.cube c).hw.life == .retired && (match s.launch x.task.slot with
    | some l => !(List.finRange 8).any fun d => d != c && mayRunOn s l.part x.task.opmask d
    | none => false)
/-- A strand that is to end leaves the core; once its commands and writes are done it ends. -/
def endStrand (s : State) (c : CubeId) (i : ShelfId) (cause : BitVec 8) : State :=
  match shelfCtx (s.cube c) i with
  | none => s
  | some x =>
    let why := match x.task.ending with
      | some z => some z
      | none => if orphaned s c x then some cause else none
    match why with
    | none => s
    | some z =>
      if x.status == .evicting || x.status == .starting then s
      else if (s.cube c).cur = .shelf i then (if mayLeaveCore s c then freeMonitor (saveCore s c .ending) c i else s)
      else
        let s := freeMonitor (dropFailed s x.sid) c i
        let s := s.modCube c fun k =>
          { k.modShelf i fun y => { y.dropWait with status := .ending } with ready := k.ready.filter fun j => j != i }
        if quiet s c x.sid then svcWaitAll s (endVAs s x) fun s => endDone s x (endByError (s.modCube c fun k => k.freeShelf i) c x z)
        else s
def execStrandEndError (c : CubeId) (shelf : ShelfId) (cause : BitVec 8) (s : State) : Out :=
  .next (endStrand s c shelf cause)
/-- SCH_END (R251): a trapped strand is to end. -/
def writeSchEnd (s : State) (c : CubeId) (v : Word) : State :=
  let i : ShelfId := (v.setWidth 4 : BitVec 4).toFin
  match shelfCtx (s.cube c) i with
  | some x =>
    if v.getLsbD 4 ∧ x.status = .trapped ∧ (s.cube c).cur ≠ .shelf i then
      s.modCube c fun k => k.modShelf i fun y =>
        { y with status := .ending, task := { y.task with ending := some (v.extractLsb' 8 8) } }
    else s
  | none => s
def execSchEndWrite (c : CubeId) (v : Word) (s : State) : Out := .next (writeSchEnd s c v)

/-! ### Save records (R242) -/

def units64 (n : Nat) : Nat := ceilDiv n 0x1_0000
/-- The parts of a record after the image: runs of store bytes, each part rounded up to 64 KiB. -/
def recordParts (c : CubeId) (p : Partition) : List (List (Nat × Nat)) :=
  let w := windowBase c
  [[(scrKey c p, p.spadBytes)], [(w + accOffset + p.accBase * 0x4000, p.accTiles * 0x4000)]] ++
  (List.range 8).map fun l =>
    [(w + faceOffset l + p.faceBase * 0x4_0000, p.faceBytes), (w + faceOffset l + 0x0080_0000 + p.faceBase * 0x4_0000, p.faceBytes),
     (w + faceOffset l + 0x0100_0000 + p.ptBase * 0x4000, p.ptTiles * 0x4000)]
def partBytes (segs : List (Nat × Nat)) : Nat := segs.foldl (fun n x => n + x.2) 0
def recordUnits (p : Partition) : Nat := (recordParts 0 p).foldl (fun n x => n + units64 (partBytes x)) 1
/-- Every run with its offset in the record. -/
def placeSegs (off : Nat) : List (Nat × Nat) → List (Nat × Nat × Nat)
  | [] => []
  | x :: t => (off, x.1, x.2) :: placeSegs (off + x.2) t
def placeParts (off : Nat) : List (List (Nat × Nat)) → List (Nat × Nat × Nat)
  | [] => []
  | x :: t => placeSegs off x ++ placeParts (off + units64 (partBytes x) * 0x1_0000) t
def recordRuns (c : CubeId) (p : Partition) : List (Nat × Nat × Nat) := placeParts 0x1_0000 (recordParts c p)
def poolKey (s : State) (unit : Nat) : Nat := s.atl.saveBase.toNat * 0x1_0000 + unit * 0x1_0000
def poolFit (s : State) (p : Partition) : Option Nat :=
  firstFit s.atl.saveSize.toNat (recordUnits p)
    (s.atl.evicted.map (fun e => (e.unit, e.units)) ++ s.atl.saves.map fun r => (r.2.1, r.2.2))
/-- The pool holds records for all of the strands, or for none of them. -/
def reserveRecords (s : State) (xs : List Ctx) : Option State :=
  xs.foldl (fun o x => o.bind fun s => (poolFit s x.part).map fun u =>
    s.modAtl fun a => { a with saves := a.saves ++ [(x.sid, u, recordUnits x.part)] }) (some s)
def dropSave (s : State) (sid : Nat) : State := s.modAtl fun a => { a with saves := a.saves.filter fun r => r.1 != sid }
/-- The stores of a partition are read for its record: injected faults fire (R376). -/
def readForSave (s : State) (c : CubeId) (p : Partition) : State :=
  fireReads s ((recordRuns c p).flatMap fun r => runLines r.2.1 r.2.2)
def saveRecord (s : State) (c : CubeId) (x : Ctx) (unit : Nat) : State :=
  let b := poolKey s unit
  let pl := (s.cube c).pals
  let img := cellsAt b ((List.range 0x1_0000).map fun k => if k < 0x6000 then imageByte pl x k else 0)
  let out := (recordRuns c x.part).flatMap fun r => cellsAt (b + r.1) (memRead s.mem r.2.1 r.2.2)
  (recordRuns c x.part).foldl (fun s r => carryPoison s r.2.1 (b + r.1) r.2.2) (placeCells s 0xFFF (img ++ out))
/-- A record is read: injected faults fire (R376). -/
def readRecord (s : State) (p : Partition) (unit : Nat) : State :=
  fireReads s (runLines (poolKey s unit) (recordUnits p * 0x1_0000))
/-- The stores of a new partition get the record's bytes; the records of its tiles are VOID (R296). -/
def restoreStores (s : State) (c : CubeId) (p : Partition) (asn : BitVec 12) (unit : Nat) : State :=
  let b := poolKey s unit
  let out := (recordRuns c p).flatMap fun r => cellsAt r.2.1 (memRead s.mem (b + r.1) r.2.2)
  (recordRuns c p).foldl (fun s r => carryPoison s (b + r.1) r.2.1 r.2.2) (voidTiles (placeCells s asn out) (out.map Prod.fst))

/-! ### Eviction (R241, R243, R244, R248) -/

/-- A strand starts to leave its cube. -/
def beginEviction (s : State) (c : CubeId) (i : ShelfId) : State :=
  let s := if (s.cube c).cur = .shelf i then saveCore s c .evicting else s
  (freeMonitor s c i).modCube c fun k =>
    { k.modShelf i fun x => { x.dropWait with status := .evicting } with ready := k.ready.filter fun j => j != i }
/-- The resident members of a strand's train, or the strand alone. -/
def residents (s : State) (c : CubeId) (x : ShelfId × Ctx) : List (CubeId × ShelfId × Ctx) :=
  match trainOf s x.2.sid with
  | none => [(c, x)]
  | some t => (List.finRange 8).flatMap fun d => ((s.cube d).strands.filter fun y => t.members.contains y.2.sid).map fun y => (d, y)
def leaving (x : Ctx) : Bool := x.status == .evicting
/-- A strand may be chosen for an eviction: it, and every resident member of its train with it, may be evicted (R241, R248). -/
def canLeave (s : State) (c : CubeId) (x : ShelfId × Ctx) : Bool :=
  (s.cube c).mayEvict x && (residents s c x).all fun y => leaving y.2.2 || (s.cube y.1).mayEvict y.2
/-- Strands of a cube that are leaving it, or that could be made to. -/
def goes (s : State) (c : CubeId) (p : Ctx → Bool) (x : Ctx) : Bool :=
  leaving x || (s.cube c).strands.any fun y => y.2.sid == x.sid && canLeave s c y && p y.2
def latestStarted (xs : List (ShelfId × Ctx)) : Option ShelfId :=
  (xs.foldl (fun (m : Option (ShelfId × Ctx)) x => match m with
    | none => some x
    | some y => if y.2.task.started < x.2.task.started then some x else some y) none).map Prod.fst
/-- The strand that runs: one that has parked on its core does not (R189, R240). -/
def Cube.runs (k : Cube) : Option ShelfId :=
  match k.cur with
  | .shelf i => if k.core.wait = .parked then none else some i
  | _ => none
/-- R243's choice among strands below a priority: the running strand if it is of the lowest priority present, else the most
recently started of that priority. -/
def victimBelow (s : State) (c : CubeId) (prio : Nat) : Option ShelfId :=
  let low := (s.cube c).strands.filter fun x => canLeave s c x && decide (x.2.task.prio.toNat < prio)
  let p0 := low.foldl (fun n x => min n x.2.task.prio.toNat) 4
  let cand := low.filter fun x => x.2.task.prio.toNat == p0
  match (s.cube c).runs with
  | some i => if cand.any fun x => x.1 == i then some i else latestStarted cand
  | none => latestStarted cand
/-- A queued task whose turn it is would fit without the strands below its priority (R243). -/
def couldFit (s : State) (c : CubeId) (q : QTask) : Bool :=
  turnOf s c q && (match queuedOf s q with
    | some (_, h) => fitsBut (s.cube c) h (goes s c fun x => decide (x.task.prio.toNat < q.prio.toNat))
    | none => false)
/-- Such a task that has no room, also when the evictions that are under way are over (R243). -/
def needsRoom (s : State) (c : CubeId) : Option QTask :=
  (s.cube c).admission.find? fun q => couldFit s c q && !(match queuedOf s q with
    | some (_, h) => fitsBut (s.cube c) h leaving
    | none => true)
/-- The sizes of a strand's partition, as a header gives them. -/
def sizesOf (p : Partition) : Header :=
  { (default : Header) with spad := p.spadBytes, face := p.faceBytes, acc := p.accTiles, pt := p.ptTiles, const := p.constBytes }
/-- A re-admission order: priority, then the time of start. -/
def earlier (a b : Ctx) : Bool :=
  decide (b.task.prio.toNat < a.task.prio.toNat) || (a.task.prio == b.task.prio && decide (a.task.started < b.task.started))
/-- The place of an evicted strand in the order: its own, or the first of its train's (R248). -/
def queuePlace (s : State) (x : Ctx) : Ctx :=
  match trainOf s x.sid with
  | none => x
  | some t => (s.atl.evicted.filter fun e => t.members.contains e.ctx.sid).foldl
      (fun m e => if earlier e.ctx m then e.ctx else m) x
/-- The cubes to try for a strand, the one it left first. -/
def tryCubes (e : Evicted) : List CubeId := e.cube :: (List.finRange 8).filter fun c => c != e.cube
/-- Evicted members of a strand's train besides it; none while a member is still being evicted. -/
def trainMates (s : State) (e : Evicted) : Option (List Evicted) :=
  match trainOf s e.ctx.sid with
  | none => some []
  | some t =>
    if (List.finRange 8).any fun d => (s.cube d).strands.any fun y => t.members.contains y.2.sid && y.2.status == .evicting then
      none
    else some (s.atl.evicted.filter fun f => t.members.contains f.ctx.sid && f.ctx.sid != e.ctx.sid)
/-- A partition for an evicted strand on a cube, beside what others have been promised there, with some strands left out of
account. -/
def fitBeside (s : State) (e : Evicted) (promised : List (CubeId × Partition)) (c : CubeId) (out : CubeId → Ctx → Bool) :
    Option Partition :=
  let k := s.cube c
  let ps := partitionsBut k (out c) ++ (promised.filter fun q => q.1 == c).map Prod.snd
  if mayTake s e c && decide (ps.length < 16) then allocate (sizesOf e.ctx.part) ps else none
/-- Evicted strands in order, each on the first cube that has room for it: what they get, and the first that has no room. -/
def placeGroup (s : State) (out : CubeId → Ctx → Bool) : List Evicted → List (CubeId × Partition) →
    List (CubeId × Partition) × Option Evicted
  | [], got => (got, none)
  | e :: t, got =>
    match (tryCubes e).findSome? fun c => (fitBeside s e got c out).map fun p => (c, p) with
    | some q => placeGroup s out t (got ++ [q])
    | none => (got, some e)
/-- A strand and its train's other members could return now. -/
def couldReturn (s : State) (e : Evicted) : Bool :=
  match trainMates s e with
  | some ms => (placeGroup s (fun _ _ => false) (e :: ms) []).2.isNone
  | none => false
/-- Cubes that could take an evicted strand now. -/
def cubesWithRoom (s : State) (e : Evicted) : List CubeId :=
  (List.finRange 8).filter fun c => (fitBeside s e [] c fun _ _ => false).isSome
/-- Strands that a waiting strand may displace: of its priority or below, started after it. -/
def displaced (e : Ctx) (x : Ctx) : Bool :=
  decide (x.task.prio.toNat ≤ e.task.prio.toNat) && decide (e.task.started < x.task.started)
/-- A waiting strand is the first of its list (R244): none of its priority that one of its cubes could take goes before it. -/
def headWaiting (s : State) (e : Evicted) : Bool :=
  !s.atl.evicted.any fun f => (queuePlace s f.ctx).task.prio == (queuePlace s e.ctx).task.prio &&
    earlier (queuePlace s f.ctx) (queuePlace s e.ctx) && (List.finRange 8).any fun c => mayTake s e c && mayTake s f c
/-- The cube where room is made for a waiting strand, and the place in the order of who waits: for the first member of its train
that has no room even when the evictions under way are over, the cube it left, or else the lowest-numbered where evictions can make
room (R244, R248). -/
def roomCube (s : State) (e : Evicted) : Option (CubeId × Ctx) :=
  match trainMates s e with
  | none => none
  | some ms =>
    let w := queuePlace s e.ctx
    let out (c : CubeId) : Ctx → Bool := goes s c (displaced w)
    match placeGroup s (fun _ => leaving) (e :: ms) [], placeGroup s out (e :: ms) [] with
    | (got, some m), (_, none) =>
      (((m.cube :: List.finRange 8).find? fun c => (fitBeside s m got c out).isSome).map fun c => (c, w))
    | _, _ => none
/-- The first of the waiting strands for which a cube makes room. -/
def waitingFor (s : State) (c : CubeId) : Option Ctx :=
  (s.atl.evicted.filterMap fun e => if headWaiting s e then roomCube s e else none).foldl (fun (m : Option Ctx) r =>
    if r.1 = c then (match m with
      | none => some r.2
      | some w => if earlier r.2 w then some r.2 else some w) else m) none
/-- The strand that cube c's scheduler evicts next, if it needs to. Room for a waiting strand comes first, but for a new task of higher
priority (R244). -/
def nextVictim (s : State) (c : CubeId) : Option ShelfId :=
  let forNew (q : QTask) := victimBelow s c q.prio.toNat
  match waitingFor s c, needsRoom s c with
  | some w, some q =>
    if w.task.prio.toNat < q.prio.toNat then forNew q
    else latestStarted ((s.cube c).strands.filter fun x => canLeave s c x && displaced w x.2)
  | some w, none => latestStarted ((s.cube c).strands.filter fun x => canLeave s c x && displaced w x.2)
  | none, some q => forNew q
  | none, none => none
/-- A member of a train goes with the members that are being evicted, or have been (R248, R249). -/
def followsTrain (s : State) (x : Ctx) : Bool :=
  match trainOf s x.sid with
  | none => false
  | some t => ((List.finRange 8).any fun d => (s.cube d).strands.any fun y =>
      t.members.contains y.2.sid && y.2.status == .evicting && !y.2.task.away) ||
      s.atl.evicted.any fun e => t.members.contains e.ctx.sid && !e.away
/-- The strands may leave their cores now. -/
def mayLeaveAll (s : State) (ys : List (CubeId × ShelfId × Ctx)) : Bool :=
  ys.all fun y => (s.cube y.1).cur != .shelf y.2.1 || mayLeaveCore s y.1
/-- A strand is evicted with every resident member of its train, if the pool holds all their records. -/
def evictFrom (s : State) (c : CubeId) (i : ShelfId) : State :=
  match shelfCtx (s.cube c) i with
  | none => s
  | some x =>
    let group := (residents s c (i, x)).filter fun y => !leaving y.2.2
    if canLeave s c (i, x) && (nextVictim s c == some i || followsTrain s x) && mayLeaveAll s group then
      match reserveRecords s (group.map fun y => y.2.2) with
      | some t => group.foldl (fun s y => beginEviction s y.1 y.2.1) t
      | none => s
    else s
def execEvictionStart (c : CubeId) (shelf : ShelfId) (s : State) : Out := .next (evictFrom s c shelf)
/-- A migration is an eviction of the one strand, whose re-admission excludes the cube (R245, R248). -/
def migrate (s : State) (c : CubeId) (i : ShelfId) : State :=
  match shelfCtx (s.cube c) i with
  | none => s
  | some x =>
    if (s.cube c).mayEvict (i, x) && mayLeaveAll s [(c, i, x)] then
      match reserveRecords s [x] with
      | some t => (beginEviction t c i).modCube c fun k => k.modShelf i fun y => { y with task := { y.task with away := true } }
      | none => s
    else s
def execMigration (c : CubeId) (shelf : ShelfId) (s : State) : Out := .next (migrate s c shelf)
/-- The strands that leave together with one that is being evicted. -/
def leavers (s : State) (c : CubeId) (i : ShelfId) (x : Ctx) : List (CubeId × ShelfId × Ctx) :=
  if x.task.away then [(c, i, x)] else (residents s c (i, x)).filter fun y => leaving y.2.2 && !y.2.2.task.away
/-- Resident members of its train that have still to follow a strand which is being evicted: those that have joined since (R248). -/
def stragglers (s : State) (c : CubeId) (i : ShelfId) (x : Ctx) : List (CubeId × ShelfId × Ctx) :=
  if x.task.away then [] else (residents s c (i, x)).filter fun y => !leaving y.2.2
/-- A write that a strand lost brings a trap, which it takes before anything is saved (R124, R125). -/
def hasLost (s : State) (x : Ctx) : Bool :=
  !(failedItems s x.sid).isEmpty || x.pending.any fun t => t.cause == causeAckTimeout
/-- An eviction is called off: the strand is ready again. -/
def callOff (s : State) (y : CubeId × ShelfId × Ctx) : State :=
  (dropSave (raiseFailed s y.2.2.sid (failedItems s y.2.2.sid)) y.2.2.sid).modCube y.1 fun k => k.makeReady y.2.1
/-- Every strand that leaves with it is quiet: the record is written, and the shelf and the partition are free. A lost write of one
of them traps instead, and they are all ready again; so they are where the pool has no record for one that joined their train meanwhile
(R242, R248). -/
def completeEviction (s : State) (c : CubeId) (i : ShelfId) : State :=
  match shelfCtx (s.cube c) i with
  | none => s
  | some x =>
    if x.status != .evicting then s
    else
      let group := leavers s c i x
      let late := stragglers s c i x
      if group.any (fun y => hasLost s y.2.2) || (reserveRecords s (late.map fun y => y.2.2)).isNone then group.foldl callOff s
      else if !late.isEmpty then s
      else if group.all fun y => quiet s y.1 y.2.2.sid then
        let s := readForSave s c x.part
        match s.atl.saves.find? fun r => r.1 == x.sid, shelfCtx (s.cube c) i with
        | some r, some x =>
          let y := patchCtx (s.cube c).pals x (shelfPatches (s.cube c) i)
          let s := (saveRecord s c y r.2.1).modCube c fun k => k.freeShelf i
          (dropSave s x.sid).modAtl fun a => { a with evicted := a.evicted ++ [⟨y, c, r.2.1, r.2.2, x.task.away⟩] }
        | _, _ => s.modCube c fun k => k.makeReady i
      else s
def execEvictionComplete (c : CubeId) (shelf : ShelfId) (s : State) : Out := .next (completeEviction s c shelf)

/-! ### Re-admission (R244, R248) -/

/-- Evictions that the pool has records for make room for a queued task, at most n of them (R242, R243). -/
def makesRoom : Nat → State → CubeId → QTask → Header → Bool
  | 0, s, c, _, h => fitsBut (s.cube c) h leaving
  | n + 1, s, c, q, h =>
    fitsBut (s.cube c) h leaving || match victimBelow s c q.prio.toNat with
      | none => false
      | some i => match shelfCtx (s.cube c) i with
        | none => false
        | some x =>
          let group := (residents s c (i, x)).filter fun y => !leaving y.2.2
          match reserveRecords s (group.map fun y => y.2.2) with
          | none => false
          | some t => makesRoom n (group.foldl (fun s y => s.modCube y.1 fun k => k.modShelf y.2.1 fun z =>
              { z with status := .evicting }) t) c q h
/-- A new task of higher priority is served before a strand that waits (R244). -/
def newFirst (s : State) (c : CubeId) (e : Evicted) : Bool :=
  (s.cube c).admission.any fun q => decide (e.ctx.task.prio.toNat < q.prio.toNat) && couldFit s c q &&
    match queuedOf s q with
    | some (_, h) => makesRoom 16 s c q h
    | none => false
/-- An evicted strand is restored on a cube: partition, stores, constants and image. Of a join it knows nothing (R304). -/
def restoreOn (s : State) (e : Evicted) (c : CubeId) : Option State :=
  let k := s.cube c
  if newFirst s c e then none
  else match fitBeside s e [] c (fun _ _ => false), emptyShelf k with
    | some p, some i =>
      let b := poolKey s e.unit
      let f (o : Nat) : Byte := memByte s.mem (b + o)
      let y := parseImage { e.ctx with part := p } f
      let x := { y with
        status := .ready, wait := .none, task := { e.ctx.task with away := false, owner := y.sys.asn }
        sys := { y.sys with jmask := 0, jskew := 0 } }
      let s' := restoreStores s c p x.sys.asn e.unit
      let s' := match s'.launch x.task.slot with
        | some l => (copyImage (svcTouch s' l.asn .read x.task.constVA p.constBytes) l x.task.constVA p.constBytes (constKey c p)).getD s'
        | none => s'
      some ((s'.modCube c fun k =>
        { (if c = e.cube then k else edgeClear k) with
          pals := parsePalettes k.pals p f, shelves := k.shelves.set i (some x), ready := k.ready ++ [i] }).modAtl fun a =>
        { a with evicted := a.evicted.filter fun g => g.ctx.sid != e.ctx.sid })
    | _, _ => none
/-- The other members of a train follow, each on the first cube that takes it; all of them or none. -/
def restoreAll : List Evicted → State → Option State
  | [], s => some s
  | e :: t, s => match (tryCubes e).findSome? fun c => restoreOn s e c with
    | some s' => restoreAll t s'
    | none => none
/-- An evicted strand that is to end ends in its record. -/
def endEvicted (s : State) (e : Evicted) (cause : BitVec 8) : State :=
  svcWaitAll s (endVAs s e.ctx) fun s => endDone s e.ctx
    (endByError (s.modAtl fun a => { a with evicted := a.evicted.filter fun g => g.ctx.sid != e.ctx.sid }) e.cube e.ctx cause)
/-- The constants that a re-admission loads again (R242). -/
def constVAs (s : State) (e : Evicted) : List (BitVec 12 × VA) :=
  match s.launch e.ctx.task.slot with
  | some l => (granules e.ctx.task.constVA e.ctx.part.constBytes).map fun va => (l.asn, va)
  | none => []
/-- A strand returns on cube c with the rest of its train, whose records have been read. A record whose reading ends its strand
(R374) restores nothing. -/
def returnGroup (s : State) (e : Evicted) (ms : List Evicted) (c : CubeId) : State :=
  let t := (e :: ms).foldl (fun s m => readRecord s m.ctx.part m.unit) s
  if t.atl.evicted.any fun g => (e :: ms).any (fun m => m.ctx.sid == g.ctx.sid) && g.ctx.task.ending.isSome then t
  else match restoreOn t e c with
    | some t => (match restoreAll ms t with
      | some t => (e :: ms).foldl (fun t m => endDone s m.ctx t) t
      | none => s)
    | none => s
/-- Evicted strand k returns on cube c, unless an earlier one could return now or the cube that it left has room. -/
def readmit (s : State) (k : Nat) (c : CubeId) : State :=
  match s.atl.evicted[k]? with
  | none => s
  | some e =>
    match e.ctx.task.ending with
    | some z => endEvicted s e z
    | none =>
      if orphaned s e.cube e.ctx then endEvicted s e 0
      else
        let first := !s.atl.evicted.any fun f => earlier (queuePlace s f.ctx) (queuePlace s e.ctx) && couldReturn s f
        let here := c == e.cube || !(cubesWithRoom s e).contains e.cube
        match trainMates s e with
        | some ms =>
          if first && here && (restoreOn s e c).isSome then
            svcWaitAll s ((e :: ms).flatMap (constVAs s)) fun s => returnGroup s e ms c
          else s
        | none => s
def execReadmission (k : Nat) (c : CubeId) (s : State) : Out := .next (readmit s k c)

end Sys2Proof.Machine
end

