-- ==== Sys2Proof/Machine/Conservator.lean ====
section
/-! DEFINITION. The conservator at work (chapter 14): the scrubber, the reads of its logs, injection, self-tests, and the
retirement of a cube. -/
namespace Sys2Proof.Machine

/-- The conservator of a cube is updated. -/
def modCon (s : State) (c : CubeId) (f : ConRegs → ConRegs) : State := s.modCube c fun k => { k with con := f k.con }

/-! ### Scrubbing (R372) -/

/-- Lines of the faces of a cube, layer by layer, A before B: the key of line n. -/
def faceLine (k : Cube) (c : CubeId) (n : Nat) : Option Nat :=
  ((List.range 8).foldl (fun (a : Nat × Option Nat) l =>
    match a with
    | (n, some x) => (n, some x)
    | (n, none) =>
      let na := min (layerABanks k l) 32 * 4096
      let nb := min (layerBBanks k l) 32 * 4096
      if n < na then (n, some (windowBase c + faceOffset l + 64 * n))
      else if n < na + nb then (n, some (windowBase c + faceOffset l + 0x80_0000 + 64 * (n - na)))
      else (n - na - nb, none)) (n, none)).2
/-- The key of line n of one of the six stores; none past its end. The edge cache gives the line that it holds. -/
def scrubKey (s : State) (c : CubeId) (store : Fin 6) (n : Nat) : Option Nat :=
  let k := s.cube c
  let upTo (m base : Nat) : Option Nat := if n < m then some (base + 64 * n) else none
  match store.val with
  | 0 => upTo 0x8_0000 (windowBase c)
  | 1 => upTo 0x4_0000 (windowBase c + accOffset)
  | 2 => faceLine k c n
  | 3 => if n < 0x2_0000 then some (windowBase c + faceOffset (n / 0x4000) + 0x0100_0000 + 64 * (n % 0x4000)) else none
  | 4 => (k.edge[n]?).map fun e => e.line * 64
  | _ => upTo (2 ^ 30) (c.val * 2 ^ 36)
/-- An error in the edge cache's copy of a line is one of an SRAM; the copy has an owner tag of its own (R373). An uncorrectable one is
handled as a read's: the copy fails every later read, and the line is marked at its home as well (R372, R374; DEDUCED, log entry 126). -/
def edgeError (s : State) (c : CubeId) (key : Nat) (bad : Bool) : State :=
  let o := match (s.cube c).edge.find? fun e => e.line == lineOf key with | some e => e.tag | none => 0xFFF
  if bad then
    let s := logUe ((poisonLine s (lineOf key)).modCube c fun k => edgeDamage k (lineOf key)) c (logRecord 3 o key)
    if o = 0xFFF then fenceCube s c else endSpace s o causeUncorrectable
  else logCe s c (logRecord 1 o key)
/-- The scrubber reads the next line of the store whose turn it is: outcome 1 is a correctable error, 2 an uncorrectable
one. A line that is already poisoned brings nothing new. A damaged bit is repaired with the read, so no byte changes. A retired cube
is powered down (R381). -/
def scrub (s : State) (c : CubeId) (store : BitVec 3) (outcome : BitVec 2) : State :=
  let q := (s.cube c).con
  if h : store.toNat < 6 then
    let st : Fin 6 := ⟨store.toNat, h⟩
    if q.scrubRate = 0 ∨ st ≠ q.scrubTurn ∨ (s.cube c).hw.life = .retired then s
    else
      let n := q.scrubPos.get st
      let s := modCon s c fun q => { q with
        scrubTurn := st + 1
        scrubPos := q.scrubPos.set st.val (if (scrubKey s c st (n + 1)).isSome then n + 1 else 0) st.isLt }
      match scrubKey s c st n with
      | none => s
      | some key =>
        if s.poison.contains (lineOf key) || (st.val == 4 && edgeBad (s.cube c) (lineOf key)) then s
        else match outcome.toNat with
          | 1 => if st.val = 4 then edgeError s c key false else correctable s (lineOf key)
          | 2 => if st.val = 4 then edgeError s c key true else uncorrectable s (lineOf key)
          | _ => s
  else s
def execScrubLine (c : CubeId) (store : BitVec 3) (outcome : BitVec 2) (_bit : Nat) (s : State) : Out :=
  .next (scrub s c store outcome)

/-! ### The logs and injection (R375, R376) -/

def execConCelogRead (c : CubeId) (s : State) : Out := .next (popRead s c 0x510)
def execConUelogRead (c : CubeId) (s : State) : Out := .next (popRead s c 0x511)
/-- A line that an injection of cube c may name: in its home stack or its window. -/
def injectable (c : CubeId) (line : Nat) : Bool :=
  line * 64 / 2 ^ 36 == c.val || (decide (windowBase c ≤ line * 64) && decide (line * 64 < windowBase c + 2 ^ 32))
/-- CON_INJCTL: a write while a fault is armed disarms it. -/
def writeInjCtl (s : State) (c : CubeId) (v : Word) : State :=
  modCon s c fun q => { q with
    injKind := v.extractLsb' 1 2
    injFired := q.injFired && !v.getLsbD 4
    injArm := !q.injArm && v.getLsbD 0 && v.extractLsb' 1 2 != 3 && injectable c q.injAddr.toNat }
def writeInjAddr (s : State) (c : CubeId) (v : Word) : State :=
  modCon s c fun q => { q with injAddr := v.extractLsb' 6 42, injArm := false }
def execConInjctlWrite (c : CubeId) (v : Word) (s : State) : Out := .next (writeInjCtl s c v)
def execConInjaddrWrite (c : CubeId) (v : Word) (s : State) : Out := .next (writeInjAddr s c v)

/-! ### Self-tests (R378) -/

/-- A class of the cube and drain queues. -/
def engineClass (n : Nat) : Bool := decide (14 ≤ n) && decide (n ≤ 23)
/-- A test that is due may start: no other runs, the core is idle or runs a task strand that may leave it, and for an M or D class the
cube and drain queues are empty. -/
def testMayStart (s : State) (c : CubeId) (cls : Nat) : Bool :=
  let k := s.cube c
  k.con.testsDue.contains cls && k.con.testing.isNone && !k.debugHalted &&
    (match k.cur with | .none => true | .shelf _ => mayLeaveCore s c | _ => false) &&
    (!engineClass cls || (k.used .cubeq == 0 && k.used .drainq == 0))
/-- The core leaves its strand, as in a pre-emption, and switches to gesso in secure mode for the test (R151, R378). -/
def startTest (s : State) (c : CubeId) (cls : Nat) : State :=
  if testMayStart s c cls then
    modCon (loadSecure (switchOut s c true) c) c fun q =>
      { q with testing := some cls, testsDue := q.testsDue.filter fun n => n != cls }
  else s
def execSelfTestStart (c : CubeId) (cls : Fin 29) (s : State) : Out := .next (startTest s c cls.val)
/-- A class is fenced on a cube: strands and queued tasks that need it go elsewhere; without an essential class the cube
computes no more. -/
def fenceClass (s : State) (c : CubeId) (cls : Nat) : State :=
  let s := logUe s c (logRecord 11 0 (classWhere cls 0))
  if cls = 0 ∨ cls = 5 ∨ cls = 24 then fenceCube s c
  else
    let s := s.modCube c fun k =>
      { k.sendAway (fun x => x.task.opmask.getLsbD cls) with hw := { k.hw with caps := k.hw.caps &&& ~~~(BitVec.twoPow 29 cls) } }
    returnUnfit s c
/-- The test ends, gesso's context is saved, and the core takes the next ready strand. -/
def endTest (s : State) (c : CubeId) (cls : Nat) (bad : Bool) : State :=
  if (s.cube c).con.testing = some cls then
    let s := modCon s c fun q => { q with testing := none, fails := q.fails.filter fun f => f.1 != cls }
    let s := if bad then fenceClass s c cls else logCe s c (logRecord 12 0 (classWhere cls 0))
    if (s.cube c).cur = .secure then dispatchNext (saveCore s c .ready) c else s
  else s
def execSelfTestResult (c : CubeId) (cls : Fin 29) (bad : Bool) (s : State) : Out := .next (endTest s c cls.val bad)

/-! ### Retirement (R380, R381) -/

def refuseRetire (s : State) (c : CubeId) : State := modCon s c fun q => { q with refused := true }
def acceptRetire (s : State) (c : CubeId) : State := modCon s c fun q => { q with refused := false }
def setLife (s : State) (c : CubeId) (l : CubeLife) : State := s.modCube c fun k => { k with hw := { k.hw with life := l } }
/-- FENCE. -/
def retireFence (s : State) (c : CubeId) : State :=
  if (s.cube c).hw.life = .live then fenceCube (acceptRetire s c) c else refuseRetire s c
def execConRetireFence (c : CubeId) (s : State) : Out := .next (retireFence s c)
/-- Entry g of the plan. -/
def planWord (s : State) (c : CubeId) (g : Nat) : Word := memWord s.mem ((s.cube c).con.evacPlan.toNat * 512 + 8 * g)
/-- The plan itself lies in HBM of another stack that answers, and the conservator can read it. -/
def planReadable (s : State) (c : CubeId) : Bool :=
  let a := (s.cube c).con.evacPlan.toNat * 512
  (match keySpace s a with | .hbm n => n != c.val | _ => false) && !conBarred s a &&
    (List.range 8).all fun n => !s.poison.contains (lineOf (a + 64 * n))
/-- Granules to copy, with the DPA of each destination. -/
def planMoves (s : State) (c : CubeId) : List (Nat × Nat) :=
  (List.range 64).filterMap fun g =>
    let w := planWord s c g
    if w.getLsbD 63 then some (g, (w.extractLsb' 30 18).toNat * 2 ^ 30) else none
def planGood (s : State) (c : CubeId) : Bool :=
  let ms := planMoves s c
  planReadable s c && (List.range 64).all (fun g => planWord s c g &&& 0x7FFF00003FFFFFFF == 0) &&
    ms.all (fun m => match keySpace s m.2 with | .hbm n => n != c.val | _ => false) &&
    (ms.map Prod.snd).eraseDups.length == ms.length
/-- EVACUATE: the plan is read, and an injected fault fires on it (R376). -/
def retireEvacuate (s : State) (c : CubeId) : State :=
  let s := if (s.cube c).hw.life = .memoryOnly then fireReads s (runLines ((s.cube c).con.evacPlan.toNat * 512) 512) else s
  if (s.cube c).hw.life = .memoryOnly ∧ planGood s c then
    let s := modCon (acceptRetire s c) c fun q => { q with evacTodo := planMoves s c, evacMap := [] }
    logUe (setLife s c .evacuating) c (logRecord 14 0 0)
  else refuseRetire s c
def execConRetireEvacuate (c : CubeId) (s : State) : Out := .next (retireEvacuate s c)
def inGranule (base a : Nat) : Bool := decide (base ≤ a) && decide (a < base + 2 ^ 30)
/-- Bytes, poison and tags of a granule at its destination: the conservator's writes leave tag 0xFFF (R373). What lies in a secure region
on either side, where the conservator may not act, stays as it is (R402, R403; log entry 116). -/
def moveGranule (src : Nat) (s : State) (dst : Nat) : State :=
  let stays (o : Nat) : Bool := conBarred s (src + o) || conBarred s (dst + o)
  let cells := (s.mem.filter fun x => inGranule src x.1 && !stays (x.1 - src)).map fun x => (dst + (x.1 - src), x.2)
  let keep (l : Nat) : Bool := !inGranule dst (l * 64) || stays (l * 64 - dst)
  let s := { s with
    mem := memWrite (s.mem.filter fun x => !inGranule dst x.1 || stays (x.1 - dst)) cells
    owners := s.owners.filter fun o => keep o.1
    poison := s.poison.filter keep ++
      ((s.poison.filter fun l => inGranule src (l * 64) && !stays (l * 64 - src)).map fun l => dst / 64 + (l - src / 64)) }
  notifyWatches s ((s.watches.map Prod.fst).filter (inGranule dst))
/-- Where what is written into a granule is written as well: its destination, if it has been copied from an evacuating stack, and that
one's (R381). -/
def chainOf : Nat → State → Nat → List Nat
  | 0, _, _ => []
  | n + 1, s, a => ((mirrorStep s [(a, 0)]).map Prod.fst).flatMap fun d => d :: chainOf n s d
/-- An armed fault on a line of a stretch of memory that an agent of the package copies fires (R376). -/
def fireIn (s : State) (here : Nat → Bool) : State :=
  ((List.finRange 8).filterMap fun c =>
    let q := (s.cube c).con
    if q.injArm && here (q.injAddr.toNat * 64) then some q.injAddr.toNat else none).foldl fireLine s
/-- The next granule of the plan is copied; from now on writes go to both places. -/
def copyGranule (s : State) (c : CubeId) : State :=
  match (s.cube c).hw.life, (s.cube c).con.evacTodo with
  | .evacuating, (g, d) :: rest =>
    let src := c.val * 2 ^ 36 + g * 2 ^ 30
    let s := fireIn s (inGranule src)
    let s := (d :: chainOf 8 s d).foldl (moveGranule src) s
    modCon s c fun q => { q with evacTodo := rest, evacMap := q.evacMap ++ [(g, d)] }
  | _, _ => s
def execEvacGranuleCopied (c : CubeId) (s : State) : Out := .next (copyGranule s c)
/-- FINISH: every LIVE granule has been copied. -/
def retireFinish (s : State) (c : CubeId) : State :=
  if (s.cube c).hw.life = .evacuating ∧ (s.cube c).con.evacTodo.isEmpty then
    logUe (setLife (acceptRetire s c) c .retired) c (logRecord 14 0 0)
  else refuseRetire s c
def execConRetireFinish (c : CubeId) (s : State) : Out := .next (retireFinish s c)

end Sys2Proof.Machine
end

