-- ==== Sys2Proof/Machine/Power.lean ====
section
/-! DEFINITION. Power and temperature (chapter 15): the current limiter and gating, the drogue, caps and broadcasts, the
governor, and the rail. Each event carries what its sensors measured. -/
namespace Sys2Proof.Machine

def modLayer (s : State) (c : CubeId) (l : Fin 8) (f : LayerPwr → LayerPwr) : State :=
  s.modCube c fun k => { k with pwr := { k.pwr with layers := k.pwr.layers.set l.val (f (k.pwr.layers.get l)) l.isLt } }
def modLayers (s : State) (c : CubeId) (f : Fin 8 → LayerPwr → LayerPwr) : State :=
  s.modCube c fun k => { k with pwr := { k.pwr with layers := Vector.ofFn fun l => f l (k.pwr.layers.get l) } }
def satAdd64 (x : Word) (n : Nat) : Word := BitVec.ofNat 64 (min (x.toNat + n) (2 ^ 64 - 1))
/-- After a change of steps: every layer whose effective step changed is counted (R389), and the sticky causes take in what
was and what is current (R396). -/
def stepped (old new : State) : State :=
  { new with cubes := Vector.ofFn fun c =>
      let a := old.cube c
      let b := new.cube c
      let n := ((List.range 8).filter fun l => effStep old a l != effStep new b l).length
      { b with pwr := { b.pwr with
        events := satAdd64 b.pwr.events n
        sticky := b.pwr.sticky ||| (capBits old a).setWidth 8 ||| (capBits new b).setWidth 8 } } }

/-! ### The current limiter (R386, R387) -/

/-- Physical position of a logical layer (R308). -/
def layerPos (k : Cube) (l : Nat) : Nat := (k.hw.lmap.extractLsb' (4 * l) 4).toNat
/-- What a cube's budget leaves for its layers, in tenths of an ampere. -/
def layerBudget (k : Cube) : Nat := 9 * k.pwr.cubeAmps.toNat
def awakeLayers (k : Cube) : List Nat := (List.range 8).filter fun l => !(k.layerPwr l).gated
/-- The estimate of an ungated layer. -/
def layerEstimate (k : Cube) (es : List Nat) (l : Nat) : Nat := if (k.layerPwr l).gated then 0 else es.getD l 0
/-- The limiter step of an ungated layer after a period. -/
def limitStep (budget n e : Nat) (y : LayerPwr) : LayerPwr :=
  if budget < e * 10 * n then { y with lim := if y.lim = 7 then 7 else y.lim + 1, low := 0, estimate := e }
  else if e * 40 * n < 3 * budget then
    (if 4 ≤ y.low then { y with lim := if y.lim = 0 then 0 else y.lim - 1, low := 0, estimate := e }
     else { y with low := y.low + 1, estimate := e })
  else { y with low := 0, estimate := e }
/-- A waking layer fits the budget, and no physical neighbour is at peak. -/
def mayWake (k : Cube) (es : List Nat) (l : Nat) : Bool :=
  let aw := awakeLayers k
  let n := aw.length
  let used := aw.foldl (fun a m => a + layerEstimate k es m) 0
  decide (used * 10 * (n + 1) + layerBudget k ≤ layerBudget k * (n + 1)) &&
    aw.all fun m => !((layerPos k m == layerPos k l + 1 || layerPos k m + 1 == layerPos k l) &&
      decide (7 * layerBudget k ≤ layerEstimate k es m * 10 * n * 8))
/-- LIMITER_PERIOD: steps move, and the lowest pending layer that may wake is granted. -/
def limiterTick (s : State) (c : CubeId) (es : List Nat) : State :=
  let k := s.cube c
  let n := (awakeLayers k).length
  let grant := (List.range 8).find? fun l => (k.layerPwr l).gated && (k.layerPwr l).pend && mayWake k es l
  stepped s (modLayers s c fun l y =>
    if y.gated then (if grant = some l.val then { y with gated := false, pend := false, ramp := true, idle := 0 } else y)
    else limitStep (layerBudget k) n (es.getD l.val 0) y)
def execLimiterPeriod (c : CubeId) (estimates : List Nat) (s : State) : Out := .next (limiterTick s c estimates)
/-- No command of the layer is queued or runs. -/
def layerIdle (k : Cube) (l : Fin 8) : Bool := !(planesBusy k).getLsbD l.val
/-- A layer that has been idle long enough is gated. -/
def gateLayer (s : State) (c : CubeId) (l : Fin 8) : State :=
  let k := s.cube c
  let y := k.layerPwr l.val
  let t := k.pwr.gateIdle.toNat
  if t ≠ 0 ∧ layerIdle k l ∧ !y.gated ∧ t ≤ y.idle then
    modLayer s c l fun y => { y with gated := true, pend := false, ramp := false, idle := 0, estimate := 0 }
  else s
def execLayerGate (c : CubeId) (l : Fin 8) (s : State) : Out := .next (gateLayer s c l)
def execLayerRampDone (c : CubeId) (l : Fin 8) (s : State) : Out := .next (modLayer s c l fun y => { y with ramp := false })

/-! ### The drogue (R388, R390) -/

/-- A layer after one more microsecond at temperature t. -/
def sampleLayer (q : PwrRegs) (die idle : Bool) (t : BitVec 8) (y : LayerPwr) : LayerPwr :=
  let trip := if q.tTrip.toNat ≤ t.toNat then true else if t.toNat < q.tThrot.toNat then false else y.tripped
  let therm := if q.tTrip.toNat ≤ t.toNat then 7 else y.therm
  { y with
    temp := t, tripped := trip, held := trip || die, therm := therm
    hot := if q.tThrot.toNat < t.toNat then y.hot + 1 else 0
    cool := if t.toNat < q.tWarn.toNat then y.cool + 1 else 0
    high := if q.migStep.toNat ≤ max therm.toNat y.lim.toNat then y.high + 1 else 0
    idle := if idle && !y.gated then y.idle + 1 else 0 }
/-- A die's temperature is that of the hottest of its sensors (R388). -/
def hottest (ts : List (BitVec 8)) : BitVec 8 := ts.foldl (fun a t => if a.toNat < t.toNat then t else a) 0
def layerHeat (ts : Temps) (l : Nat) : BitVec 8 := hottest (ts.layers.getD l [])
/-- THERMAL_SAMPLE: the sensors of the eight layers, of the die of the inactive position and of the base die.
It comes once a microsecond, and the intervals of R387, R388 and R390 are counted by it. -/
def sampleCube (s : State) (c : CubeId) (ts : Temps) : State :=
  let q := (s.cube c).pwr
  let extra := [hottest ts.inactive, hottest ts.base]
  let die := if (extra.any fun t => decide (q.tTrip.toNat ≤ t.toNat)) then true
    else if (extra.all fun t => decide (t.toNat < q.tThrot.toNat)) then false else q.dieTrip
  let s' := s.modCube c fun k => { k with pwr := { k.pwr with dieTrip := die } }
  stepped s (modLayers s' c fun l y => sampleLayer q die (layerIdle (s.cube c) l) (layerHeat ts l.val) y)
def execThermalSample (c : CubeId) (temps : Temps) (s : State) : Out := .next (sampleCube s c temps)
/-- 50 µs above the throttle. -/
def raiseThermal (s : State) (c : CubeId) (l : Fin 8) : State :=
  if 50 ≤ ((s.cube c).layerPwr l.val).hot then
    stepped s (modLayer s c l fun y => { y with therm := if y.therm = 7 then 7 else y.therm + 1, hot := 0 })
  else s
def execThermalStepRaise (c : CubeId) (l : Fin 8) (s : State) : Out := .next (raiseThermal s c l)
/-- 200 µs below the warning threshold. -/
def lowerThermal (s : State) (c : CubeId) (l : Fin 8) : State :=
  if 200 ≤ ((s.cube c).layerPwr l.val).cool then
    stepped s (modLayer s c l fun y => { y with therm := if y.therm = 0 then 0 else y.therm - 1, cool := 0 })
  else s
def execThermalStepLower (c : CubeId) (l : Fin 8) (s : State) : Out := .next (lowerThermal s c l)
/-- Management interrupts, as numbers: the rail, replays of a port, and the migration request of a layer. -/
def irqRail : Nat := 1
def irqReplay (port : Nat) : Nat := 0x100 + port
def irqMigrate (c : CubeId) (l : Fin 8) : Nat := 0x200 + 8 * c.val + l.val
def raiseIrq (s : State) (n : Nat) : State := { s with irqs := s.irqs ++ [n] }
/-- A step that stayed high asks for a migration. -/
def requestMigration (s : State) (c : CubeId) (l : Fin 8) : State :=
  let y := (s.cube c).layerPwr l.val
  let t := (s.cube c).pwr.migTime.toNat
  if t ≠ 0 ∧ t ≤ y.high ∧ !y.migreq then raiseIrq (modLayer s c l fun y => { y with migreq := true }) (irqMigrate c l) else s
def execMigrationRequest (c : CubeId) (l : Fin 8) (s : State) : Out := .next (requestMigration s c l)

/-! ### Caps and broadcasts (R391) -/

/-- A well-formed broadcast of 16 bytes. -/
def broadcastOf (bs : List Byte) : Option Broadcast :=
  let n (o k : Nat) : Nat := packLE ((bs.drop o).take k)
  if bs.length = 16 ∧ n 0 2 = 0x0C01 ∧ n 2 1 ≤ 1 ∧ n 3 1 ≤ 7 ∧ n 4 1 ≤ 15 ∧ n 5 3 = 0 ∧ n 12 4 = 0 then
    some ⟨BitVec.ofNat 32 (n 8 4), n 2 1 == 1, BitVec.ofNat 4 (n 4 1), BitVec.ofNat 3 (n 3 1)⟩
  else none
/-- A broadcast of the session waits for the next period, if its SEQ is above the last applied and any that waits. -/
def receiveBroadcast (s : State) (bs : List Byte) : State :=
  match broadcastOf bs with
  | none => s
  | some b =>
    let newest := match s.power.next with
      | some w => decide (w.seq.toNat < b.seq.toNat)
      | none => true
    if s.secu.session && decide (s.power.bcast.seq.toNat < b.seq.toNat) && newest then
      { s with power := { s.power with next := some b } }
    else s
def execCapBroadcast (bytes : List Byte) (s : State) : Out := .next (receiveBroadcast s bytes)

/-! ### The governor (R392, R393) -/

/-- The power group of a cube: its partition, or 8. -/
def groupOfCube (s : State) (c : CubeId) : Fin 9 :=
  match (List.finRange 8).find? fun n => (s.atl.parts.get n).cubes.getLsbD c.val with
  | some n => ⟨n.val, Nat.lt_succ_of_lt n.isLt⟩
  | none => 8
def groupCubes (s : State) (g : Fin 9) : Nat := ((List.finRange 8).filter fun c => groupOfCube s c == g).length
def pkgCapW (s : State) : Nat := min s.power.pkgCap.toNat 3200
/-- Caps of a group in 128ths of a watt: its own, and the broadcast's. -/
def ownCap (g : Group) : Option Nat := if g.cap = 0 then none else some (128 * g.cap.toNat)
def castCap (s : State) (n : Fin 9) (g : Group) : Option Nat :=
  let b := s.power.bcast
  if b.active ∧ g.rank.toNat ≤ b.rank.toNat then
    some (if g.cap ≠ 0 then g.cap.toNat * b.frac.toNat * 8 else pkgCapW s * groupCubes s n * b.frac.toNat)
  else none
def minCap : Option Nat → Option Nat → Option Nat
  | some a, some b => some (min a b)
  | some a, none => some a
  | none, b => b
def capsList (a b : Option Nat) : List Nat := a.toList ++ b.toList
/-- The package's own caps, in 128ths of a watt. -/
def pkgLimit (s : State) : Option Nat := if pkgCapW s = 0 then none else some (128 * pkgCapW s)
def hostLimit (s : State) : Option Nat := if s.power.hostCap = 0 then none else some (128 * s.power.hostCap.toNat)
/-- One group's own part of a period: its measurement, and a raise by its caps. The flag tells of a raise. -/
def ownRaise (s : State) (n : Fin 9) (p : Nat) (g : Group) : Group × Bool :=
  let own := ownCap g
  let cast := castCap s n g
  let cap := minCap own cast
  let code := match cap with | none => 0 | some x => x + 1
  let g := { g with power := BitVec.ofNat 16 (min p 0xFFFF) }
  let g := if g.lastCap = code then g else { g with lastCap := code, hist := [] }
  match cap with
  | none => ({ g with unmet := false }, false)
  | some x =>
    if x < 128 * p then
      ({ g with step := if g.step = 7 then 7 else g.step + 1, byPart := g.byPart || own == some x
                byRank := g.byRank || cast == some x, hist := [], unmet := g.step == 7 }, true)
    else ({ g with unmet := false }, false)
/-- The group that the package's limit slows: of the lowest rank, the group of no partition first, then by number. -/
def shedGroup (s : State) (gs : Fin 9 → Group) : Option (Fin 9) :=
  let fit := ((8 : Fin 9) :: (List.finRange 9).take 8).filter fun n => decide (0 < groupCubes s n) && (gs n).step != 7
  fit.foldl (fun (v : Option (Fin 9)) n =>
    match v with
    | some m => if (gs n).rank.toNat < (gs m).rank.toNat then some n else some m
    | none => some n) none
/-- One measurement lies below 15/16 of every cap that binds the group as caps and causes now stand (R392). -/
def bindsBelow (s : State) (n : Fin 9) (g : Group) (h : Nat × Nat) : Bool :=
  ((capsList (ownCap g) (castCap s n g)).all fun x => decide (128 * 16 * h.1 < 15 * x)) &&
    (!(g.byPkg || g.byHost) || (capsList (pkgLimit s) (hostLimit s)).all fun x => decide (128 * 16 * h.2 < 15 * x))
/-- A group that was not raised keeps its last ten measurements, each tested against what binds it now; ten low ones bring a step
down. `moved` tells that its cap has just changed, which starts them anew. -/
def lowerGroup (s : State) (n : Fin 9) (p pkg : Nat) (moved : Bool) (g : Group) : Group :=
  let h := if moved then [] else (p, pkg) :: g.hist.take 9
  let g :=
    if h.length = 10 ∧ h.all (bindsBelow s n g) then { g with step := if g.step = 0 then 0 else g.step - 1, hist := [] }
    else { g with hist := h }
  if g.step = 0 then { g with byPart := false, byRank := false, byPkg := false, byHost := false } else g
/-- GOVERNOR_PERIOD: the powers of the partitions' groups 0 to 7, of the group of no partition, and of the package. -/
def governorTick (s : State) (ps : List Nat) : State :=
  let s1 : State := match s.power.next with
    | some b => { s with power := { s.power with bcast := b, next := none } }
    | none => s
  let p (n : Fin 9) : Nat := ps.getD n.val 0
  let pkg := ps.getD 9 ((ps.take 9).foldl (· + ·) 0)
  let old (n : Fin 9) : Group := s1.power.groups.get n
  let first (n : Fin 9) : Group × Bool := ownRaise s1 n (p n) (old n)
  let lim := minCap (pkgLimit s1) (hostLimit s1)
  let shed : Option (Fin 9) := match lim with
    | some x => if x < 128 * pkg then shedGroup s1 fun n => (first n).1 else none
    | none => none
  let new (n : Fin 9) : Group :=
    let g := (first n).1
    if shed = some n then
      { g with step := g.step + 1, hist := [], byPkg := g.byPkg || pkgLimit s1 == lim, byHost := g.byHost || hostLimit s1 == lim }
    else if (first n).2 then g
    else lowerGroup s1 n (p n) pkg (g.lastCap != (old n).lastCap) g
  let s2 : State := { s1 with power := { s1.power with groups := Vector.ofFn new, watts := BitVec.ofNat 16 (min pkg 0xFFFF) } }
  stepped s { s2 with cubes := Vector.ofFn fun c =>
    let k := s2.cube c
    { k with pwr := { k.pwr with group := groupOfCube s2 c } } }
def execGovernorPeriod (powers : List Nat) (s : State) : Out := .next (governorTick s powers)

/-! ### The rail (R383, R388) -/

def railMoves (s : State) (mv : Nat) : State :=
  let s := { s with power := { s.power with mv := BitVec.ofNat 16 mv } }
  if mv < 1350 ∨ 1650 < mv then raiseIrq { s with power := { s.power with range := true } } irqRail else s
def execRailOutOfRange (mv : Nat) (s : State) : Out := .next (railMoves s mv)
def powerDown (s : State) : State := { s with secu := { s.secu with powered := false } }
/-- Gesso powers the package down; SEC_BOOT keeps the reason (R383, R401). -/
def gessoPowerDown (s : State) : State := powerDown { s with secu := { s.secu with stage := 15, fail := 4 } }
/-- The rail has stayed beyond its extreme limits for 100 µs. -/
def execRailPowerDown (s : State) : Out :=
  .next (if s.power.mv.toNat < 1250 ∨ 1750 < s.power.mv.toNat then gessoPowerDown s else s)
/-- The trip threshold of a bridge die: the register that the bridges' register windows show (DESIGN CHOICE, log entry 123). -/
def bridgeTrip (s : State) : BitVec 8 := (s.cube 0).pwr.tTrip
/-- A bridge die has been at some temperature or above for 1 ms (R388). -/
def execBridgeTripPowerDown (heat : BridgeHeat) (s : State) : Out :=
  .next (if (bridgeTrip s).toNat ≤ heat.temp.toNat then gessoPowerDown s else s)

end Sys2Proof.Machine
end

