-- ==== Sys2Proof/Machine/Fabric.lean ====
section
/-! DEFINITION. The fabric (chapter 13): requests and packets of peers as this package performs or refuses them, the reset
handshake, and the ports and links. A peer's own memory lies behind its keys; what travels is one step. -/
namespace Sys2Proof.Machine

/-! ### Peers' requests (R357, R358) -/

/-- A request or packet is discarded and counted. -/
def dropPacket (s : State) : State :=
  { s with fab := { s.fab with regs := { s.fab.regs with drop := satAdd32 s.fab.regs.drop } } }
/-- The peer table has a valid entry for the peer; the entry of this package itself is ignored. -/
def peerValid (s : State) (p : Nat) : Bool :=
  let e := peerEntry s p 0
  s.fab.regs.peerBase.getLsbD 0 && p != s.fab.regs.self.toNat && e.getLsbD 63 && decide ((e.extractLsb' 60 2).toNat ≤ 1)
def peerHeard (s : State) (p : Nat) : Bool := peerValid s p && !peerDead s p
/-- A non-secure access of a bridge die. -/
def bridgeAgent : Agent := ⟨.task, false, 0xFFF, 0, .reset, .bridge 0, none, 0⟩
/-- The peer may reach the n bytes from d, and they exist. -/
def peerMayReach (s : State) (p d n : Nat) (need : Need) : Bool :=
  let lo := (peerEntry s p 2).toNat % 2 ^ 48 / 4096
  let hi := (peerEntry s p 3).toNat % 2 ^ 48 / 4096
  decide (0 < n) && decide (d + n ≤ dpaSpan) && (List.range n).all fun k =>
    decide (lo ≤ (d + k) / 4096) && decide ((d + k) / 4096 ≤ hi) &&
      (checkTarget s bridgeAgent need false (directTarget (d + k) false 0xFFF)).isNone
/-- A negative completion, as the value that goes back. -/
def nackWord : Word := BitVec.allOnes 64
def replyAll (s : State) (vs : List Word) : State := { s with replies := s.replies ++ vs }
def reply (s : State) (v : Word) : State := { s with replies := s.replies ++ [v] }
/-- Bytes in words, the lowest first. -/
def wordsOf : Nat → List Byte → List Word
  | 0, _ => []
  | n + 1, bs => BitVec.ofNat 64 (packLE (bs.take 8)) :: wordsOf n (bs.drop 8)
/-- A read at the home for an agent outside: its bytes, or none at a poisoned line. -/
def outsideRead (s : State) (d n : Nat) : State × Option (List Byte) :=
  let keys := (List.range n).map (d + ·)
  let s := fireReads s (linesOf keys)
  if (linesOf keys).any fun l => s.poison.contains l then (s, none)
  else (popReads s keys, some (keys.map (placeByte s)))
/-- A write at the home for an agent outside, acknowledged when it is performed. -/
def outsideWrite (s : State) (mode : Mode) (glob : Bool) (cells : List (Nat × Byte)) : State :=
  homeWrite (engCoherence s glob 0 cells) mode .outside 0xFFF cells
/-- An atomic operation at the home for an agent outside: the old value. -/
def outsideAtomic (s : State) (mode : Mode) (op : ItemOp) : State × Option Word :=
  let ls := linesOf op.locs
  let s := fireReads s ls
  if ls.any fun l => s.poison.contains l then (s, none)
  else
    let (cells, old) := opEffect (atomMem s op.addr) op
    (outsideWrite s mode true cells, some old)
/-- The atomics and reductions of a peer, by the number of the request (R359). -/
def peerAmo (kind : Nat) : Option AmoOp :=
  match kind with
  | 5 => some .add | 6 => some .and | 7 => some .or | 8 => some .xor | 9 => some .min | 10 => some .max
  | 11 => some .minn | 12 => some .maxn | 13 => some .swap | 14 => some .cas | 17 => some .fadd | 18 => some .fmax | _ => none
/-- A launch packet of a peer (R366). -/
def peerLaunch (s : State) (p : Nat) (pkt : BitVec 512) : State :=
  if peerHeard s p && (peerEntry s p 0).getLsbD 55 then
    receivePacket s (pktWithAsn pkt ((peerEntry s p 0).extractLsb' 32 12))
  else dropPacket s
/-- The operation of a counter request, atomic or reduction, or none where it is misaligned or of no size that it has. -/
def peerOp (s : State) (kind d : Nat) (data : List Byte) : Option ItemOp :=
  let word (bs : List Byte) : Word := BitVec.ofNat 64 (packLE bs)
  match kind with
  | 3 => if d % 8 = 0 then some (.cadd d (word (data.take 8))) else none
  | 4 => if d % 8 = 0 then some (.cmax d (word (data.take 8))) else none
  | 19 =>
    if data.length = 2 ∧ d % 2 = 0 then some (.store (cellsAt d (bytesLE 2 (credValue .addBf16 (memNat s.mem d 2) (packLE data)))))
    else none
  | _ =>
    let n := if kind = 14 then data.length / 2 else data.length
    match peerAmo kind with
    | some op =>
      if (n = 4 ∨ (n = 8 ∧ kind ≤ 14)) ∧ d % n = 0 then some (.amo op (n == 8) d (word (data.take n)) (word (data.drop n))) else none
    | none => none
/-- A request that passed its checks is performed at its home: what goes back, or nothing where it cannot be performed. A write to
a launch aperture is a launch packet if it has 64 bytes at a multiple of 64, and else it is discarded (R225, R366). -/
def peerPerform (s : State) (p kind d : Nat) (data : List Byte) : State × Option (List Word) :=
  match kind with
  | 0 =>
    (match outsideRead s d data.length with
     | (s, some bs) => (s, some (wordsOf ((data.length + 7) / 8) bs))
     | (s, none) => (s, none))
  | 1 | 2 =>
    (match keySpace s d with
     | .aperture _ o =>
       (if data.length = 64 ∧ o % 64 = 0 then peerLaunch s p (BitVec.ofNat 512 (packLE data)) else s, some [0])
     | _ => (outsideWrite s .task (kind == 2) (cellsAt d data), some [0]))
  | _ =>
    match peerOp s kind d data with
    | some op => (match outsideAtomic s .task op with
      | (s, some v) => (s, some [v])
      | (s, none) => (s, none))
    | none => (s, none)
/-- A negative completion of an access of this package (R358): a read brings UNCORRECTABLE, anything else ACK_TIMEOUT, a
command error 0x02; the peer is not marked dead. -/
def refusedByPeer (s : State) (p id : Nat) : State :=
  match s.item id, s.read id with
  | some i, _ =>
    if peerOf i.op.addr = some p ∧ i.status ≠ .performed ∧ i.status ≠ .failed ∧ i.status ≠ .waiting then loseItem s i 2 else s
  | none, some r =>
    if r.status == .sent && (r.cells.any fun x => peerOf x.1 == some p) then
      loseRead s r ⟨causeUncorrectable, 0, 0, r.acc, 0, r.va⟩
    else s
  | none, none => loseCmd s id 2 p
/-- How many bytes from its place on a request reaches, and how. -/
def PeerReq.need (r : PeerReq) : Need := if r.kind = 0 then .read else if r.kind ≤ 2 then .write else .both
def PeerReq.size (r : PeerReq) : Nat := if r.kind = 14 then r.data.length / 2 else r.data.length
/-- The line of a request: its sender, the sender's strand, the line and the home (R117). -/
def PeerReq.key (r : PeerReq) : BitVec 10 × Nat × BitVec 3 × Nat := (r.peer, r.from_.strand, r.from_.line, homeOf r.dpa)
/-- Only writes on a line 1 to 7 of an Irsere peer over UALink are put in order at their home (R117, R118, R361). -/
def PeerReq.inLine (r : PeerReq) (s : State) : Bool :=
  r.from_.line != 0 && r.kind != 0 && peerIrsere s r.peer.toNat && !peerEthernet s r.peer.toNat
/-- The number of the next item of a line. -/
def lineNext (s : State) (r : PeerReq) : Nat :=
  match s.fab.lines.find? fun e => e.1 == r.key with
  | some e => e.2
  | none => 0
def advanceLine (s : State) (r : PeerReq) : State :=
  { s with fab := { s.fab with lines := (r.key, r.from_.seq + 1) :: s.fab.lines.filter fun e => e.1 != r.key } }
/-- The request is performed and answered, and its transaction tag is kept with the answer (R360), or it is refused. -/
def answerRequest (s : State) (r : PeerReq) : State :=
  if peerMayReach s r.peer.toNat r.dpa r.size r.need then
    match peerPerform s r.peer.toNat r.kind r.dpa r.data with
    | (s, some ws) =>
      let s := replyAll { s with fab := { s.fab with performed := ((r.peer, r.tag), ws) :: s.fab.performed } } ws
      if r.inLine s then advanceLine s r else s
    | (s, none) => reply s nackWord
  else reply s nackWord
/-- Requests that their line holds are performed as their turn comes (R117). -/
def releaseLine : Nat → State → PeerReq → State
  | 0, s, _ => s
  | n + 1, s, r =>
    match s.fab.held.find? fun h => h.key == r.key && h.from_.seq == lineNext s r with
    | some h => releaseLine n (answerRequest { s with fab := { s.fab with held := s.fab.held.filter fun g => g != h } } h) r
    | none => s
/-- A request that its home takes: one performed before is only answered again, and one ahead of its line is held. A number that
the line has passed begins its numbering anew (R120, R363, log entry 95). -/
def takeRequest (s : State) (r : PeerReq) : State :=
  match s.fab.performed.find? fun e => e.1 == (r.peer, r.tag) with
  | some e => replyAll s e.2
  | none =>
    if r.inLine s && decide (lineNext s r < r.from_.seq) then
      (if s.fab.held.contains r then s else { s with fab := { s.fab with held := s.fab.held ++ [r] } })
    else
      let s := answerRequest s r
      releaseLine s.fab.held.length s r
/-- A peer's own write to its memory; the home reports it to this package's watches (R190). -/
def peerWrites (s : State) (p d : Nat) (data : List Byte) : State :=
  let cells := cellsAt ((p + 1) * dpaSpan + d) data
  if d + data.length ≤ dpaSpan then (if peerHeard s p then placeCells s 0xFFF cells else { s with mem := memWrite s.mem cells }) else s
/-- INCOMING_PEER_REQUEST: requests 0 read (as many bytes as `data` has), 1 `.e` write, 2 `.g` write, 3 counter add, 4 counter
maximum, 5 to 14 and 17, 18 the atomics and reductions, 19 a BF16 addition; 15 is a negative completion of the access `dpa` of this
package, and 16 a write of the peer to its own memory. The bridge dies take the peer's entry into their cache (R357). -/
def incomingRequest (s : State) (r : PeerReq) : State :=
  let p := r.peer.toNat
  let s := cachePeer s p
  if r.kind = 16 then peerWrites s p r.dpa r.data
  else if !peerHeard s p then dropPacket s
  else if r.kind = 15 then refusedByPeer s p r.dpa
  else takeRequest s r
def execIncomingPeerRequest (peer : BitVec 10) (kind dpa : Nat) (msg : PeerMsg) (s : State) : Out :=
  .next (incomingRequest s ⟨peer, kind, dpa, msg.data, msg.tag, msg.src⟩)
/-- PEER_LAUNCH_PACKET (R366), through either bridge die. -/
def execPeerLaunchPacket (path : PeerPath) (pkt : BitVec 512) (s : State) : Out :=
  .next (peerLaunch (cachePeer s path.peer.toNat) path.peer.toNat pkt)

/-! ### The reduction window (R364, R365) -/

/-- The packet's operations: 0 and 1 `.add` of 32 and 64 bits, 2 `.fadd`, 3 and 4 `.max` of 32 and 64 bits, 5 `.fmax`,
6 BF16 addition. -/
def packetOp (op addr : Nat) (v : Word) (old : Nat) : Option (ItemOp × Nat) :=
  match op with
  | 0 => some (.amo .add false addr v 0, 4)
  | 1 => some (.amo .add true addr v 0, 8)
  | 2 => some (.amo .fadd false addr v 0, 4)
  | 3 => some (.amo .max false addr v 0, 4)
  | 4 => some (.amo .max true addr v 0, 8)
  | 5 => some (.amo .fmax false addr v 0, 4)
  | 6 => some (.store (cellsAt addr (bytesLE 2 (credValue .addBf16 old (v.toNat % 2 ^ 16)))), 2)
  | _ => none
/-- A contribution, or a value merged on its way, is applied at its home as it arrives; a transaction tag that was already
performed is only answered again (R360). -/
def reducePacket (s : State) (peer : BitVec 10) (pid : Word) (addr op : Nat) (v : Word) : State :=
  if !peerHeard s peer.toNat then dropPacket s
  else if s.fab.performed.any fun e => e.1 == (peer, pid) then reply s pid
  else match packetOp op addr v (memNat s.mem addr 2) with
    | none => reply s nackWord
    | some (o, n) =>
      if peerMayReach s peer.toNat addr n .both && inWindow s addr && inWindow s (addr + n - 1) && addr % n == 0 then
        match outsideAtomic s .task o with
        | (s, some _) => reply { s with fab := { s.fab with performed := ((peer, pid), [pid]) :: s.fab.performed } } pid
        | (s, none) => reply s nackWord
      else reply s nackWord
def execReductionPacketArrival (peer : BitVec 10) (pid : Word) (addr : Nat) (op : BitVec 4) (_count : Nat) (v : Word)
    (s : State) : Out := .next (reducePacket (cachePeer s peer.toNat) peer pid addr op.toNat v)
/-- A reduction into the window is outstanding until it is acknowledged (R108), so its registers do not change. -/
def windowBusy (s : State) : Bool :=
  s.items.any fun i => !i.isWriteOp && i.status != .failed && inWindow s i.op.addr

/-! ### The reset handshake (R363, R371) -/

/-- FAB_DEADk: ones written to set bits start handshakes. -/
def writeDead (s : State) (k : BitVec 4) (v : Word) : State :=
  let ps := ((List.range 64).filter fun b => v.getLsbD b && s.fab.regs.dead.getLsbD (64 * k.toNat + b)).map fun b =>
    BitVec.ofNat 10 (64 * k.toNat + b)
  { s with fab := { s.fab with handshakes := s.fab.handshakes ++ ps.filter fun p => !s.fab.handshakes.contains p } }
def execFabDeadWrite (k : BitVec 4) (v : Word) (s : State) : Out := .next (writeDead s k v)
/-- The pair's sequence state and the items held for it are gone: the transaction tags and lines of the peer, what homes hold of its
requests, and what the peer held of this package, which is lost to its writers. -/
def discardPair (s : State) (p : Nat) : State :=
  let s := { s with fab := { s.fab with
    performed := s.fab.performed.filter fun q => q.1.1.toNat != p
    lines := s.fab.lines.filter fun e => e.1.1.toNat != p
    held := s.fab.held.filter fun r => r.peer.toNat != p } }
  (s.items.filter fun i => i.status == .held && peerOf i.op.addr == some p).foldl (fun s i => loseItem s i 5) s
/-- The peer replies: the bit is cleared. -/
def handshakeDone (s : State) (peer : BitVec 10) : State :=
  if s.fab.handshakes.contains peer then
    let s := discardPair s peer.toNat
    { s with fab := { s.fab with
      handshakes := s.fab.handshakes.filter fun q => q != peer
      regs := { s.fab.regs with dead := s.fab.regs.dead &&& ~~~(BitVec.twoPow 1024 peer.toNat) } } }
  else s
def execResetHandshakeReply (peer : BitVec 10) (s : State) : Out := .next (handshakeDone s peer)
/-- No reply came: the bit stays set. -/
def execResetHandshakeTimeout (peer : BitVec 10) (s : State) : Out :=
  .next { s with fab := { s.fab with handshakes := s.fab.handshakes.filter fun q => q != peer } }
/-- The word that answers a peer's reset message. -/
def resetReply (peer : BitVec 10) : Word := peer.setWidth 64
def execResetMessageReceived (peer : BitVec 10) (s : State) : Out := .next (reply (discardPair s peer.toNat) (resetReply peer))

/-! ### Ports and links (R367 to R369) -/

def State.port (s : State) (n : Fin 71) : Port := s.fab.ports.get n
def modPort (s : State) (n : Fin 71) (f : Port → Port) : State :=
  { s with fab := { s.fab with ports := s.fab.ports.set n.val (f (s.fab.ports.get n)) n.isLt } }
def satAdd16 (x : BitVec 16) : BitVec 16 := if x = BitVec.allOnes 16 then x else x + 1
/-- The pair of a strand and a peer leaves by the port that the hash names among those that reach the peer, and keeps it while it is
up (R360, R368). -/
def routePair (s : State) (sid p : Nat) : State :=
  match s.fab.pairs.find? fun x => x.1 == (sid, p) && (s.port x.2).up with
  | some _ => s
  | none =>
    let ps := portsTo s p
    let rest := s.fab.pairs.filter fun x => x.1 != (sid, p)
    { s with fab := { s.fab with pairs := match ps[Config.portHash sid p % ps.length]? with
      | some q => ((sid, p), q) :: rest
      | none => rest } }
/-- A flit is replayed and counted in the current window; the count that requests retraining starts it. -/
def countReplay (s : State) (n : Fin 71) : State :=
  if !(s.port n).up then s
  else
    let fresh := windowOver s (s.port n)
    modPort s n fun p =>
      let r : BitVec 32 := if fresh then 1 else satAdd32 p.replays
      { p with replays := r, since := if fresh then s.cycle else p.since, warned := p.warned && !fresh
               training := p.training || r == s.fab.regs.replayRetrain.setWidth 32 }
def execFlitReplay (port : Fin 71) (s : State) : Out := .next (countReplay s port)
/-- Replays in the window reach the warning count: an interrupt, and a record in the log of cube 0. -/
def warnReplays (s : State) (n : Fin 71) : State :=
  let p := s.port n
  let count := (s.fab.regs.replayWarn.setWidth 32).toNat
  if !p.warned && !windowOver s p && decide (count ≤ p.replays.toNat) then
    raiseIrq (logCe (modPort s n fun p => { p with warned := true }) 0 (logRecord 10 0 n.val)) (irqReplay n.val)
  else s
def execReplayWarning (port : Fin 71) (s : State) : Out := .next (warnReplays s port)
/-- The widest working width: a power of two of lanes that work. -/
def widest (w : Nat) : Nat := ([8, 4, 2, 1].find? fun n => decide (n ≤ w)).getD 0
/-- The attempts that a port has. -/
def retrainTries (s : State) : Nat := (s.fab.regs.replayRetrain.extractLsb' 32 4).toNat
/-- A port retrains: `lanes` of its lanes fail, ballast lanes take their places while any remain, and the rest narrow it to the
widest width of lanes that work (R10). `ok` tells whether the attempt succeeds; the last failed one takes the port down. -/
def retrainPort (s : State) (n : Fin 71) (lanes : Nat) (ok : Bool) : State :=
  let p := s.port n
  if !p.up then s
  else
    let spared := min lanes p.spares.toNat
    let left := p.working - (lanes - spared)
    let good := ok && decide (1 ≤ left)
    let last := !good && decide (retrainTries s ≤ p.tries + 1)
    let s := modPort s n fun p => { p with
      retrains := satAdd16 p.retrains
      spares := p.spares - BitVec.ofNat 4 spared
      working := left
      width := if good then BitVec.ofNat 4 (widest left) else p.width
      training := !good && !last
      up := !last
      tries := if good then 0 else p.tries + 1 }
    (List.range spared).foldl (fun s _ => logCe s 0 (logRecord 15 0 n.val)) s
def execPortRetrain (port : Fin 71) (lanes : Nat) (ok : Bool) (s : State) : Out := .next (retrainPort s port lanes ok)
/-- A port whose attempts are used up goes down. -/
def execPortDown (port : Fin 71) (s : State) : Out :=
  .next (if (s.port port).up && decide (retrainTries s ≤ (s.port port).tries) then
    modPort s port fun p => { p with up := false, training := false } else s)
/-- A port that is down finishes its training. -/
def execPortTrained (port : Fin 71) (ok : Bool) (s : State) : Out :=
  .next (if ok then modPort s port fun p => if p.up then p else { p with up := true, training := false, tries := 0, replays := 0, since := s.cycle }
    else s)

end Sys2Proof.Machine
end

