-- ==== Sys2Proof/Machine/Boot.lean ====
section
/-! DEFINITION. The host, boot and security (chapter 16), with the boot tests of R379: reset, the stages of boot, BAR2, HDM
decoders, debug, attestation, checkpoints. -/
namespace Sys2Proof.Machine

def modSecu (s : State) (f : Security → Security) : State := { s with secu := f s.secu }
/-- The stages of SEC_BOOT (R401). -/
def stageGesso : BitVec 4 := 1
def stageStudio : BitVec 4 := 3
def stageReady : BitVec 4 := 4
def stageFailed : BitVec 4 := 15
def bootFails (s : State) (code : BitVec 8) : State := modSecu s fun q => { q with stage := stageFailed, fail := code }

/-! ### Reset and boot (R379, R400) -/

def stageTests : BitVec 4 := 2
/-- Memory outside the package, which a reset of the package leaves as it is: the host's, the CXL expanders', the peers'. -/
def outsideMemory (m : List Host.Cell) : List Host.Cell := m.filter fun x => decide (0x300_0000_0000 ≤ x.1)
/-- The boot ROM accepts an image of gesso: both of its signatures verify, and it is no older than the fuses allow. -/
def gessoAccepted (i : FirmwareImage) : Bool := i.rsa && i.slh && decide (Config.fusedSvn.toNat ≤ i.version.toNat)
/-- The slot that gesso comes from: A, and B if A fails. -/
def bootSlot (f : FlashSlots) : Option FirmwareImage :=
  if gessoAccepted f.a then some f.a else if gessoAccepted f.b then some f.b else none
/-- The row histories and row repairs of the stacks, which the boot tests use, outlast a reset (R379). -/
def keepRows (s old : State) : State :=
  { s with cubes := Vector.ofFn fun c =>
      { s.cube c with con := { (s.cube c).con with rowLog := (old.cube c).con.rowLog, repaired := (old.cube c).con.repaired } } }
/-- A package reset: every register at its reset value, and gesso loaded and verified from one of its slots, or neither. What
the surroundings will bring next still comes (log entry 3). -/
def resetPackage (s : State) (f : FlashSlots) : State :=
  let s : State := keepRows { State.reset with agenda := s.agenda, mem := outsideMemory s.mem, freeCtr := s.freeCtr } s
  match bootSlot f with
  | some i => modSecu s fun q => { q with stage := stageGesso, svn := i.version, gesso := i.digest }
  | none => bootFails s 1
def execPackageReset (flash : FlashSlots) (s : State) : Out := .next (resetPackage s flash)

/-- The failed banks of one face of the die at a position. -/
def faceFails (r : BootResult) (pos : Nat) (b : Bool) : List Nat :=
  ((r.banks.filter fun x => x.pos == pos && x.faceB == b).map FailedBank.bank).eraseDups
/-- The positions whose die fails: by its own test, or by a second failed bank in one face. -/
def failedPositions (r : BootResult) : List Nat :=
  ((List.range 9).map (· + 1)).filter fun p =>
    r.positions.contains p || decide (2 ≤ (faceFails r p false).length) || decide (2 ≤ (faceFails r p true).length)
/-- How many faces of dies that do not fail had one failed bank, whose number their spare bank takes. -/
def spareBanks (r : BootResult) : Nat :=
  ((((List.range 9).map (· + 1)).filter fun p => !(failedPositions r).contains p).flatMap fun p =>
    faceFails r p false ++ faceFails r p true).length
/-- The rows that are to be repaired: logged uncorrectable, or corrected three times or more, since the last reset. -/
def badRows (q : ConRegs) : List Nat := (q.rowLog.filter fun e => e.2.2 || decide (3 ≤ e.2.1)).map Prod.fst
/-- A row of the stack is replaced by a spare row of its bank, or, when the bank has none left, with its whole bank; either is
logged. -/
def repairRow (s : State) (c : CubeId) (row : Nat) : State :=
  let q := (s.cube c).con
  let used := (q.repaired.filter fun x => Config.hbmBank x == Config.hbmBank row).length
  let s := if used < Config.hbmSpareRows (Config.hbmBank row) then modCon s c fun q => { q with repaired := row :: q.repaired } else s
  logCe s c (logRecord 15 0 0)
def repairRows (s : State) (c : CubeId) : State :=
  modCon ((badRows (s.cube c).con).foldl (fun s row => repairRow s c row) s) c fun q => { q with rowLog := [] }
/-- The position of layer l when position f is inactive (R13). -/
def positionOf (f l : Nat) : Nat := if l + 1 < f then l + 1 else l + 2
/-- DSC_LAYERl (R32) with position f inactive; `transit` tells that its die failed and delays the layers above it (R14). -/
def layerWord (f : Nat) (transit : Bool) (l : Nat) : Word :=
  let p := positionOf f l
  let banks := if p % 2 = 0 then 28 else 32
  BitVec.ofNat 64 (p * 2 ^ 28 + banks * 2 ^ 22 + banks * 2 ^ 16 + 64 * 2 ^ 8 + (if p % 2 = 0 then 2 ^ 7 else 0) +
    (if transit ∧ f < p then 2 * 2 ^ 4 else 0))
/-- The via rating that bounds the cube's current: that of the weakest die below the top active layer, the base die and a transit die
included (R385). -/
def cubeAmpsOf (f : Nat) (vias : List (BitVec 16)) : BitVec 16 :=
  (vias.take (positionOf f 7)).foldl (fun a v => if v.toNat < a.toNat then v else a) PwrRegs.reset.cubeAmps
/-- Gesso writes the map, the skew, the discovery registers and the current limit of a cube with position f inactive. -/
def mapCube (k : Cube) (f : Nat) (transit : Bool) (vias : List (BitVec 16)) : Cube :=
  { k with
    hw := { k.hw with
      lmap := BitVec.ofNat 32 ((List.range 8).foldl (fun a l => a + positionOf f l * 16 ^ l) 0)
      layers := Vector.ofFn fun l => layerWord f transit l.val
      dscSpare := BitVec.ofNat 64 (64 * 2 ^ 32 + (if transit then 16 else 0) + f) }
    eng := { k.eng with
      skew := BitVec.ofNat 32 ((List.range 8).foldl (fun a l => a + (if transit ∧ f < positionOf f l then 2 else 0) * 16 ^ l) 0) }
    pwr := { k.pwr with cubeAmps := cubeAmpsOf f vias } }
/-- The outcome of the tests of cube c: its map, its classes, its repairs and their records; two failed positions, or a failed
essential class, leave it in memory-only mode (R14, R380). No map has eight layers then, and the registers of the map and the current
limit stay as reset left them (DESIGN CHOICE, log entry 127). -/
def bootCube (s : State) (c : CubeId) (r : BootResult) : State :=
  let s := repairRows ((List.range (spareBanks r)).foldl (fun s _ => logCe s c (logRecord 15 0 0)) s) c
  let s := match failedPositions r with
    | [] => s.modCube c fun k => mapCube k 9 false r.vias
    | [f] => s.modCube c fun k => mapCube k f true r.vias
    | _ => s
  let s := s.modCube c fun k => { k with hw := { k.hw with caps := r.classes } }
  if 2 ≤ (failedPositions r).length ∨ !r.classes.getLsbD 0 ∨ !r.classes.getLsbD 5 ∨ !r.classes.getLsbD 24 then fenceCube s c else s
/-- Gesso's boot tests: they begin, and end with a result for each cube; tests that give none fail the boot. -/
def bootTests (s : State) : BootStep → State
  | .begin => if s.secu.stage = stageGesso then modSecu s fun q => { q with stage := stageTests } else s
  | .done rs =>
    if s.secu.stage ≠ stageTests then s
    else if rs.length ≠ 8 then bootFails s 2
    else
      let s := (List.finRange 8).foldl (fun s c => bootCube s c (rs.getD c.val default)) s
      modSecu s fun q => { q with stage := stageStudio }
def execGessoBootTests (b : BootStep) (s : State) : Out := .next (bootTests s b)
/-- A context with its code bounds and its handler's entry. -/
def Ctx.bounded (x : Ctx) (b : CodeBounds) (handler : Word) : Ctx :=
  let at_ (w : Word) : VA := w.setWidth 52 &&& ~~~(0xF : VA)
  { x with sys := { x.sys with codeLo := at_ b.lo, codeHi := at_ b.hi, tvec := at_ handler } }
/-- The bounds of the runtime and the secure context are set (R134), and the runtime context of a cube that computes starts the
studio firmware. -/
def startFirmware (s : State) (c : CubeId) (rt sec : CodeBounds) (h : HandlerEntries) : State :=
  let s := s.modCube c fun k =>
    let x := k.rt.bounded rt h.rt
    { k with rt := { x with pc := x.sys.codeLo }, sec := k.sec.bounded sec h.sec }
  if (s.cube c).computes then loadRuntime s c else s
/-- Gesso verifies the studio firmware by its two signatures and starts it on the atelier and in every cube's runtime context, and STAGE
reaches READY. -/
def startStudio (s : State) (i : FirmwareImage) (rt sec : CodeBounds) (h : HandlerEntries) : State :=
  if s.secu.stage ≠ stageStudio then s
  else if i.rsa && i.slh then
    let s := (List.finRange 8).foldl (fun s c => startFirmware s c rt sec h) s
    modSecu (s.modAtl fun a => { a with firmware := some i.digest }) fun q => { q with stage := stageReady }
  else bootFails s 3
def execStudioFirmwareStart (image : FirmwareImage) (rt sec : CodeBounds) (handlers : HandlerEntries) (s : State) : Out :=
  .next (startStudio s image rt sec handlers)

/-! ### The host (R398, R399, R403, R409) -/

/-- The host acts in runtime mode, in the non-secure world. -/
def hostAgent : Agent := ⟨.runtime, false, 0xFFF, 0, .whole, .bridge 0, none, 0⟩
/-- The n bytes of BAR2 from `off` are there, and the region table and the map let them through. -/
def hostMay (s : State) (off n : Nat) (need : Need) : Bool :=
  decide (0 < n) && decide (off + n ≤ 0x200_0000_0000) && s.secu.stage == stageReady && (List.range n).all fun k =>
    !regionNoHost s (off + k) && (checkTarget s hostAgent need false (directTarget (off + k) false 0xFFF)).isNone
/-- A refused request is aborted by its completer and performs nothing (R403; DESIGN CHOICE, log entry 128, for the word that says so). -/
def hostAbort (s : State) : State := reply s nackWord
/-- A counter operation of the host on an aligned 64-bit word (R24). -/
def hostCounter (s : State) (off size : Nat) (op : ItemOp) : State :=
  if size = 8 ∧ off % 8 = 0 ∧ hostMay s off size .both then
    match outsideAtomic s .runtime op with
    | (s, some _) => s
    | (s, none) => hostAbort s
  else hostAbort s
/-- The register that stands at an offset of BAR0 for a read: SEC_BOOT, or SEC_DBG of a cube. -/
def bar0Word (s : State) (off : Nat) : Option Word :=
  if off / 8 = 0x200 then some (regSec s (s.cube 0) 0x701)
  else if h : 0x400 ≤ off / 8 ∧ off / 8 - 0x400 < 8 then some (regSec s (s.cube ⟨off / 8 - 0x400, h.2⟩) 0x702)
  else none
/-- A read of BAR0, which answers at every stage of boot and after it has failed (R399, R400). -/
def bar0Read (s : State) (off size : Nat) : State :=
  match bar0Word s off with
  | some w => if 0 < size ∧ off % 8 + size ≤ 8 then reply s (BitVec.ofNat 64 (w.toNat / 256 ^ (off % 8) % 256 ^ size)) else hostAbort s
  | none => hostAbort s
/-- A request of the host. A read that is performed returns its bytes; `size` is the size of a read or of a counter. -/
def hostAccess (s : State) (op : HostOp) (off size : Nat) (v : Word) : State :=
  match op with
  | .read =>
    if hostMay s off size .read then
      match outsideRead s off size with
      | (s, some bs) => replyAll s (wordsOf ((size + 7) / 8) bs)
      | (s, none) => hostAbort s
    else hostAbort s
  | .write bs => if hostMay s off bs.length .write then outsideWrite s .runtime true (cellsAt off bs) else hostAbort s
  | .add => hostCounter s off size (.cadd off v)
  | .max => hostCounter s off size (.cmax off v)
  | .bar0 => bar0Read s off size
def execHostBar2Access (op : HostOp) (off size : Nat) (v : Word) (s : State) : Out := .next (hostAccess s op off size v)

/-! ### HDM decoders (R409). The layout of the capability structure is that of CXL 3.x (PRESUMED, log entry 118). -/

/-- How many decoders a port has, and how many targets a decoder may have. -/
def decoderCount : Nat :=
  let n := (Config.hdmCapability.extractLsb' 0 4).toNat
  if n = 0 then 1 else if n ≤ 8 then 2 * n else 4 * n - 16
def targetCount : Nat := (Config.hdmCapability.extractLsb' 4 4).toNat
/-- Interleave ways, as a control register codes them. -/
def waysOf (iw : BitVec 4) : Option Nat :=
  match iw.toNat with
  | 0 => some 1 | 1 => some 2 | 2 => some 4 | 3 => some 8
  | 4 => if Config.hdmCapability.getLsbD 12 then some 16 else none
  | 8 => if Config.hdmCapability.getLsbD 11 then some 3 else none
  | 9 => if Config.hdmCapability.getLsbD 11 then some 6 else none
  | 10 => if Config.hdmCapability.getLsbD 11 then some 12 else none
  | _ => none
/-- An interleave lies within the limits that the capability register reports. -/
def interleaveOk (il : Interleave) : Bool :=
  match waysOf il.ways with
  | none => false
  | some w => decide (w ≤ targetCount) && (w == 1 ||
      (if il.granularity.toNat ≤ 3 then Config.hdmCapability.getLsbD 8
       else il.granularity.toNat ≤ 6 && Config.hdmCapability.getLsbD 9))
/-- The key of a decoder's registers: base, size, control, and target list. -/
def decoderKey (p : DecoderPlace) : Nat :=
  bridgeBase p.bridge.val + 0x10_0000 + p.port.val * 0x1_0000 + Config.hdmOffset.val + 0x10 + 0x20 * p.index
/-- The decoder behind a byte of the component registers of bridge die b, and the byte's place in its registers. -/
def decoderByte (b off : Nat) : Option (DecoderPlace × Nat) :=
  let o := off % 0x1_0000
  let n := (o - (Config.hdmOffset.val + 0x10)) / 0x20
  if Config.hdmOffset.val + 0x10 ≤ o ∧ n < decoderCount then
    some (⟨Fin.ofNat 2 b, Fin.ofNat 16 (off / 0x1_0000), n⟩, (o - (Config.hdmOffset.val + 0x10)) % 0x20)
  else none
def decoderCommitted (s : State) (p : DecoderPlace) : Bool := s.secu.hdm.any fun h => h.place == p
/-- A byte of the component registers that a write leaves as it is: the capability register, and all but the control register of a
decoder that is committed. -/
def componentLocked (s : State) (b off : Nat) : Bool :=
  let o := off % 0x1_0000
  (decide (Config.hdmOffset.val ≤ o) && decide (o < Config.hdmOffset.val + 4)) ||
    match decoderByte b off with
    | some (p, n) => !(decide (0x10 ≤ n) && decide (n < 0x14)) && decoderCommitted s p
    | none => false
/-- The decoder as its registers describe it. One whose range lies outside the safe tier claims nothing. -/
def readDecoder (s : State) (p : DecoderPlace) : HdmDecoder :=
  let base := memNat s.mem (decoderKey p) 8 / 2 ^ 28 * 2 ^ 28
  let len := memNat s.mem (decoderKey p + 8) 8 / 2 ^ 28 * 2 ^ 28
  let ctl := BitVec.ofNat 32 (memNat s.mem (decoderKey p + 0x10) 4)
  let d := 0x400_0000_0000 + base
  ⟨p, d, if d + len ≤ 0x800_0000_0000 then len else 0,
    ⟨ctl.extractLsb' 4 4, ctl.extractLsb' 0 4, BitVec.ofNat 64 (memNat s.mem (decoderKey p + 0x18) 8)⟩⟩
/-- The control register of a decoder has been written: its commit bit (9) commits the decoder or takes it back, and bits 10 and 11
report whether it is committed or could not be. -/
def settleDecoder (s : State) (p : DecoderPlace) : State :=
  let h := readDecoder s p
  let rest := s.secu.hdm.filter fun x => x.place != p
  let report (s : State) (f : Nat) : State :=
    { s with mem := memWrite s.mem [(decoderKey p + 0x11, (memByte s.mem (decoderKey p + 0x11) &&& 0xF3) ||| BitVec.ofNat 8 f)] }
  if !(memByte s.mem (decoderKey p + 0x11)).getLsbD 1 then report (modSecu s fun q => { q with hdm := rest }) 0
  else if decoderCommitted s p then report s 4
  else if interleaveOk h.il then report (modSecu s fun q => { q with hdm := rest ++ [h] }) 4
  else report s 8
/-- A write to the component registers of the downstream ports of bridge die b. -/
def componentWrite (s : State) (b off : Nat) (bytes : List Byte) : State :=
  let cells := (cellsAt off bytes).filter fun x => !componentLocked s b x.1
  let ps := (cells.filterMap fun x => decoderByte b x.1).filter fun x => decide (0x10 ≤ x.2) && decide (x.2 < 0x14)
  (ps.map Prod.fst).eraseDups.foldl settleDecoder
    (placeCells s 0xFFF (cells.map fun x => (bridgeBase b + 0x10_0000 + x.1, x.2)))
/-- The firmware programs a decoder and commits it. -/
def commitDecoder (s : State) (p : DecoderPlace) (base len : Nat) (il : Interleave) : State :=
  let ctl := il.granularity.toNat + 16 * il.ways.toNat + 512
  componentWrite s p.bridge.val (decoderKey p - (bridgeBase p.bridge.val + 0x10_0000))
    (bytesLE 8 base ++ bytesLE 8 len ++ bytesLE 4 ctl ++ bytesLE 4 0 ++ bytesLE 8 il.targets.toNat)
def execHdmDecoderCommit (place : DecoderPlace) (base len : Nat) (il : Interleave) (s : State) : Out :=
  .next (commitDecoder s place base len il)
/-- Bridge 0's PCIe link goes down or comes back; host memory stays reachable through the other bridge (R398). -/
def execHostLinkDown (up : Bool) (s : State) : Out := .next (modSecu s fun q => { q with hostLink0 := up })

/-! ### Attestation and sessions (R405) -/

/-- A SHA-384 digest in words. -/
def digestWords (d : BitVec 384) : List Word := (List.range 6).map fun n => d.extractLsb' (64 * n) 64
/-- The measurements: of gesso, of the studio firmware once it runs, and of the layer maps. -/
def measurements (s : State) : List (BitVec 384) :=
  s.secu.gesso :: s.atl.firmware.toList ++ [Config.sha384 (s.cubes.toList.map fun k => k.hw.lmap.setWidth 64)]
/-- What a report says: the measurements, the verifier's nonce, and SVN. -/
def reportWords (s : State) (nonce : Word) : List Word :=
  (measurements s).flatMap digestWords ++ [nonce, s.secu.svn.setWidth 64]
/-- A report goes out under two signatures, by the key that gesso derives from the device's identity and the measurements. -/
def attest (s : State) (nonce : Word) : State :=
  let ws := reportWords s nonce
  let key := Config.attestationKey Config.deviceIdentity (measurements s)
  replyAll s (ws ++ Config.ecdsaP384 key ws ++ Config.slhDsaSha2128s key ws)
def execAttestationRequest (nonce : Word) (s : State) : Out := .next (attest s nonce)
def execJireskoSessionSetup (ok : Bool) (s : State) : Out := .next (modSecu s fun q => { q with session := q.session || ok })

/-! ### Debug (R404) -/

/-- HALT: the core stops at the next bundle boundary of a task context: at once, unless a strand there is leaving its core or still waits
for a value that its next bundle takes in. -/
def debugHalt (s : State) (c : CubeId) : State :=
  if Config.debugEnable then
    match (s.cube c).cur with
    | .shelf _ =>
      if (s.cube c).leave = .none ∧ !awaitsValue s (s.cube c).core then stopForDebug s c
      else s.modCube c fun k => { k with debugHaltPending := true }
    | _ => s.modCube c fun k => { k with debugHaltPending := true }
  else s
def execSecDbgHalt (c : CubeId) (s : State) : Out := .next (debugHalt s c)
/-- RESUME: the strand goes on with its live window as written. -/
def debugResume (s : State) (c : CubeId) : State :=
  if Config.debugEnable && (s.cube c).debugHalted then
    s.modCube c fun k => match k.cur with
      | .shelf i => { k.takePatches i with debugHalted := false }
      | _ => { k with debugHalted := false }
  else s
def execSecDbgResume (c : CubeId) (s : State) : Out := .next (debugResume s c)

/-! ### Checkpoints (R406) -/

def modFab (s : State) (f : FabRegs → FabRegs) : State := { s with fab := { s.fab with regs := f s.fab.regs } }
/-- FAB_CKPTCTL: STACKS, ERR and DONE written to be cleared, and GO, which a running copy ignores. -/
def writeCkptCtl (s : State) (v : Word) : State :=
  let old := s.fab.regs.ckptCtl
  let busy := old.getLsbD 1
  let go := v.getLsbD 0 && !busy
  let keep := old &&& 0xE &&& ~~~(v &&& 0xC)
  let s := modFab s fun r => { r with ckptCtl := (v &&& 0xFF0000) ||| keep ||| if go then 2 else 0 }
  if go then
    { s with fab := { s.fab with ckpt := some (v.extractLsb' 16 8, (s.fab.regs.ckptDst.extractLsb' 36 12).toNat * 2 ^ 36) } }
  else s
def execCkptGo (v : Word) (s : State) : Out := .next (writeCkptCtl s (v ||| 1))
def inStack (base a : Nat) : Bool := decide (base ≤ a) && decide (a < base + 2 ^ 36)
/-- Stack k as it stands is at its destination; poison goes with its line. -/
def copyStack (s : State) (k dst : Nat) : State :=
  let src := k * 2 ^ 36
  let cells := (s.mem.filter fun x => inStack src x.1).map fun x => (dst + (x.1 - src), x.2)
  { s with
    mem := memWrite (s.mem.filter fun x => !inStack dst x.1) cells
    poison := (s.poison.filter fun l => !inStack dst (l * 64)) ++
      ((s.poison.filter fun l => inStack src (l * 64)).map fun l => dst / 64 + (l - src / 64)) }
/-- After a failed copy, the bytes at a destination in the safe tier that were listed or would have been written are undefined. -/
def spoilStack (s : State) (k dst : Nat) : State :=
  let src := k * 2 ^ 36
  let locs := (((s.mem.filter fun x => inStack src x.1).map fun x => dst + (x.1 - src)) ++
    ((s.mem.filter fun x => inStack dst x.1).map Prod.fst)).filter fun a => (decoderOf s a).isSome
  { s with mem := memWrite s.mem (locs.mapIdx fun n a => (a, Config.freeByte (s.freeCtr + n))), freeCtr := s.freeCtr + locs.length }
/-- How far decoders that adjoin claim the safe tier from a place on. -/
def claimedTo : Nat → State → Nat → Nat
  | 0, _, a => a
  | n + 1, s, a =>
    match decoderOf s a with
    | some h => claimedTo n s (h.base + h.len)
    | none => a
/-- The whole destination of a stack is claimed by decoders. -/
def stackClaimed (s : State) (dst : Nat) : Bool := decide (dst + 2 ^ 36 ≤ claimedTo s.secu.hdm.length s dst)
/-- The bridge engines may not act somewhere in 64 GiB from a place: a secure region is there, and their SEC_WORLD bit is clear (R402,
R403). Regions are of whole 2 MiB. -/
def stackBarred (s : State) (base : Nat) : Bool :=
  !s.secu.world.getLsbD 6 && (List.range (2 ^ 15)).any fun n => regionSecure s (base + n * 2 ^ 21)
/-- Stack k can be copied: it answers, its destination exists, and the bridge engines may act on both. -/
def stackCopies (s : State) (k dst : Nat) : Bool :=
  (match dpaSpace s (k * 2 ^ 36) with | .hbm _ => true | _ => false) && stackClaimed s dst && !stackBarred s (k * 2 ^ 36) &&
    !stackBarred s dst
/-- The copy has read its stacks (R376), and ends with DONE, or with ERR when it failed or a stack could not be copied. -/
def endCkpt (s : State) (ok : Bool) : State :=
  match s.fab.ckpt with
  | none => s
  | some (sel, base) =>
    let ks := (List.range 8).filter fun k => sel.getLsbD k
    let good := ok && ks.all fun k => stackCopies s k (base + k * 2 ^ 36)
    let s := ks.foldl (fun s k => fireIn s (inStack (k * 2 ^ 36))) s
    let s := ks.foldl (fun s k => if good then copyStack s k (base + k * 2 ^ 36) else spoilStack s k (base + k * 2 ^ 36)) s
    let s := modFab s fun r => { r with ckptCtl := (r.ckptCtl &&& ~~~(2 : Word)) ||| if good then 4 else 8 }
    { s with fab := { s.fab with ckpt := none } }
def execCkptComplete (ok : Bool) (s : State) : Out := .next (endCkpt s ok)

end Sys2Proof.Machine
end

