-- ==== Sys2Proof/Machine/SysWrite.lean ====
section
/-! DEFINITION. Writes of system registers by number (R6, R7, R93, R165), writes to shelf windows (R92), and what a write that
has reached a window does there (R398). -/
namespace Sys2Proof.Machine

/-! ### Registers, chapter by chapter. A bit of a RES0 field is dropped (R6). -/

def field (v : Word) (mask : Word) : Word := v &&& mask
/-- An address of a bundle. -/
def bundleVA (v : Word) : VA := v.setWidth 52 &&& ~~~(0xF : VA)
def modCregs (s : State) (c : CubeId) (f : CoreRegs → CoreRegs) : State := s.modCube c fun k => { k with cregs := f k.cregs }
/-- SEQ_, NOISE_ and SCH_ registers. A write of SEQ_TVEC through a window lands in the context that runs (DESIGN CHOICE, log entry
140). -/
def writeSeq (s : State) (c : CubeId) (n : Nat) (v : Word) : State :=
  match n with
  | 0x001 => modCregs s c fun q => { q with brkHalt := v.getLsbD 8 }
  | 0x002 => if 5 ≤ (v.extractLsb' 0 3).toNat then s
    else s.modRunning c fun x => { x with sys := { x.sys with frm := v.setWidth 3 } }
  | 0x011 => s.modRunning c fun x => { x with sys := { x.sys with trec := { x.sys.trec with tpc := (bundleVA v).setWidth 64 } } }
  | 0x018 => s.modRunning c fun x => { x with sys := { x.sys with tvec := bundleVA v } }
  | 0x020 => s.modRunning c fun x => { x with sys := { x.sys with codeLo := bundleVA v } }
  | 0x021 => s.modRunning c fun x => { x with sys := { x.sys with codeHi := bundleVA v } }
  | 0x030 => modCregs s c fun q => { q with monFull := v.setWidth 32 }
  | 0x031 => s.modRunning c fun x => x.repairLines v
  | 0x032 => modCregs s c fun q => { q with wdog := v.setWidth 32 }
  | 0x040 => s.modRunning c fun x => x.writeSeedA v
  | 0x041 => s.modRunning c fun x => x.writeSeedB v
  | 0x042 => s.modRunning c fun x => x.writeNoiseMode v
  | 0x050 => s.modRunning c fun x => { x with sys := { x.sys with asn := v.setWidth 12 } }
  | 0x101 => modCregs s c fun q => { q with quantum := v.setWidth 32 }
  | 0x102 => modCregs s c fun q => { q with ackTimeout := v.setWidth 24 }
  | 0x110 => { s with astBase := field v 0x7FFFFFF8000 }
  | 0x112 => s.modAtl fun a => { a with saveBase := v.extractLsb' 16 27 }
  | 0x113 => s.modAtl fun a => { a with saveSize := v.setWidth 32 }
  | 0x120 => s.modRunning c fun x => if x.mode = .task then { x with sys := { x.sys with larg0 := v } } else x
  | 0x121 => s.modRunning c fun x => if x.mode = .task then { x with sys := { x.sys with larg1 := v } } else x
  | 0x130 => writeSchEnd s c v
  | _ => if 0x140 ≤ n ∧ n < 0x148 then writePart s (BitVec.ofNat 3 (n - 0x140)) v else s
/-- BLK_CTL: while EN is 1 only ASN and EN itself can change (R339). -/
def writeBlkCtl (s : State) (c : CubeId) (v : Word) : State :=
  let old := (s.cube c).eng.blkCtl
  if old.getLsbD 63 then
    let s := modEng s c fun e => { e with blkCtl := (old &&& ~~~(0x0FFF000000000000 : Word)) ||| (v &&& 0x0FFF000000000000) }
    if v.getLsbD 63 then s else blkDisable s c
  else
    let s := modEng s c fun e => { e with blkCtl := v &&& 0x0FFF0FFFFFFFFFFF }
    if v.getLsbD 63 then blkEnable s c else s
/-- A register of the block store's region, which EN locks. -/
def modRegion (s : State) (c : CubeId) (f : EngRegs → EngRegs) : State :=
  if (s.cube c).eng.blkCtl.getLsbD 63 then s else modEng s c f
/-- CUB_, DRN_, CPY_ and BLK_ registers. -/
def writeEng (s : State) (c : CubeId) (n : Nat) (v : Word) : State :=
  match n with
  | 0x200 => if v.getLsbD 0 then modEng s c fun e => { e with iovf := false } else s
  | 0x203 => s.modCube c fun k => { k with hw := { k.hw with caps := v.setWidth 29 } }
  | 0x204 => writeSkew s c (v.setWidth 32)
  | 0x280 => modEng s c fun e => { e with abft := v.getLsbD 1, nanovf := v.getLsbD 0 }
  | 0x281 => modEng s c fun e => { e with drnSeed := v }
  | 0x282 => modEng s c fun e => { e with drnTol := v.setWidth 16 }
  | 0x283 => modEng s c fun e => { e with drnSkip := v.extractLsb' 32 32, drnCor := v.setWidth 32 }
  | 0x301 => modEng s c fun e => { e with cpySeed := v }
  | 0x302 => modEng s c fun e => { e with fsLost := v.setWidth 32 }
  | 0x380 => modRegion s c fun e => { e with blkBase := v.extractLsb' 20 28 }
  | 0x381 => modRegion s c fun e => { e with blkSize := v.setWidth 17 }
  | 0x382 => modRegion s c fun e => { e with blkCode := v.setWidth 2 }
  | 0x383 => writeBlkCtl s c v
  | _ => s
/-- A register of the reduction window, which outstanding reductions lock (R364). -/
def modWindow (s : State) (f : FabRegs → FabRegs) : State := if windowBusy s then s else modFab s f
/-- FAB_ registers. -/
def writeFab (s : State) (n : Nat) (v : Word) : State :=
  match n with
  | 0x400 => if v.extractLsb' 0 10 = 0x3FF then s else modFab s fun r => { r with self := v.setWidth 10 }
  | 0x401 => modFab s fun r => { r with peerBase := field v 0x0000FFFFFFFF8001 }
  | 0x402 => modFab s fun r => { r with planeMap := v.setWidth 48 }
  | 0x403 => modFab s fun r => { r with drop := v.setWidth 32 }
  | 0x410 => modWindow s fun r => { r with rwBase := field v 0x03FFFFFFFFFFF000 }
  | 0x411 => modWindow s fun r => { r with rwSize := v.setWidth 32 }
  | 0x412 => modWindow s fun r => { r with rwGroup := v.setWidth 17 }
  | 0x413 => modWindow s fun r => { r with rwCount := field v 0xFFFFFFFF000007FF }
  | 0x420 => modFab s fun r => { r with migThresh := v.setWidth 32 }
  | 0x430 => modFab s fun r => { r with replayWarn := field v 0x0000FFFFFFFFFFFF }
  | 0x431 => modFab s fun r => { r with replayRetrain := field v 0x0000000FFFFFFFFF }
  | 0x480 => modFab s fun r => { r with ckptDst := field v 0x0000FFF000000000 }
  | 0x481 => writeCkptCtl s v
  | _ => if 0x440 ≤ n ∧ n < 0x450 then writeDead s (BitVec.ofNat 4 (n - 0x440)) v else s
/-- CON_RETIRE: REFUSED written to be cleared, then the command. -/
def writeRetire (s : State) (c : CubeId) (v : Word) : State :=
  let s := if v.getLsbD 12 then acceptRetire s c else s
  match (v.extractLsb' 0 2).toNat with
  | 1 => retireFence s c
  | 2 => retireEvacuate s c
  | 3 => retireFinish s c
  | _ => s
/-- CON_ registers. -/
def writeCon (s : State) (c : CubeId) (n : Nat) (v : Word) : State :=
  match n with
  | 0x500 => modCon s c fun q => { q with scrubRate := v.setWidth 16 }
  | 0x520 => writeInjAddr s c v
  | 0x521 => writeInjCtl s c v
  | 0x530 => modCon s c fun q => { q with fenceWindow := v.setWidth 32 }
  | 0x540 => writeRetire s c v
  | 0x541 => modCon s c fun q => { q with evacPlan := v.extractLsb' 9 39 }
  | _ => s
def modPwr (s : State) (c : CubeId) (f : PwrRegs → PwrRegs) : State := s.modCube c fun k => { k with pwr := f k.pwr }
/-- Thresholds that rise from warning to trip (R394). -/
def orderedThresholds (q : PwrRegs) : Bool := decide (q.tWarn.toNat < q.tThrot.toNat) && decide (q.tThrot.toNat < q.tTrip.toNat)
def writeThreshold (s : State) (c : CubeId) (f : PwrRegs → PwrRegs) : State :=
  if orderedThresholds (f (s.cube c).pwr) then modPwr s c f else s
def modPower (s : State) (f : PkgPower → PkgPower) : State := { s with power := f s.power }
/-- PWR_ registers. -/
def writePwr (s : State) (c : CubeId) (n : Nat) (v : Word) : State :=
  match n with
  | 0x600 => writeThreshold s c fun q => { q with tWarn := v.setWidth 8 }
  | 0x601 => writeThreshold s c fun q => { q with tThrot := v.setWidth 8 }
  | 0x602 => writeThreshold s c fun q => { q with tTrip := v.setWidth 8 }
  | 0x603 => modPwr s c fun q => { q with events := v }
  | 0x605 => modLayers s c fun l y => { y with migreq := y.migreq && !v.getLsbD (8 * l.val + 3) }
  | 0x608 => modPwr s c fun q => { q with cubeAmps := v.setWidth 16 }
  | 0x609 => modPwr s c fun q => { q with gateIdle := v.setWidth 16 }
  | 0x60C => modPower s fun q => { q with range := q.range && !v.getLsbD 16 }
  | 0x610 => modPwr s c fun q => { q with sticky := q.sticky &&& ~~~(v.extractLsb' 32 8) }
  | 0x611 => modPower s fun q => { q with pkgCap := v.setWidth 16 }
  | 0x612 => modPower s fun q => { q with hostCap := v.setWidth 16 }
  | 0x628 => modPwr s c fun q => { q with migStep := v.extractLsb' 32 3, migTime := v.setWidth 32 }
  | _ =>
    if 0x618 ≤ n ∧ n < 0x620 then
      modPower s fun q => { q with groups := Vector.ofFn fun g =>
        (let x := q.groups.get g
         if g.val = n - 0x618 then { x with cap := v.setWidth 16, rank := v.extractLsb' 40 3 } else x) }
    else s
/-- SEC_ registers. A HALT and a RESUME written together halt (R404). -/
def writeSec (s : State) (c : CubeId) (n : Nat) (v : Word) : State :=
  match n with
  | 0x700 => modSecu s fun q => { q with world := v.setWidth 7 }
  | 0x702 => if v.getLsbD 1 then debugHalt s c else if v.getLsbD 0 then debugResume s c else s
  | _ =>
    if 0x710 ≤ n ∧ n < 0x720 then
      modSecu s fun q => { q with regions := Vector.ofFn fun i =>
        if i.val = n - 0x710 then field v 0xE0FCFFFFFFE00000 else q.regions.get i }
    else s
/-- A write of register n of cube c in a mode; what the mode may not write stays as it was. -/
def sysWrite (s : State) (c : CubeId) (m : Mode) (n : Nat) (v : Word) : State :=
  if !mayWrite m n then s
  else if n < 0x200 then writeSeq s c n v
  else if n < 0x400 then writeEng s c n v
  else if n < 0x500 then writeFab s n v
  else if n < 0x600 then writeCon s c n v
  else if n < 0x700 then writePwr s c n v
  else writeSec s c n v
/-- SYSREG_WINDOW_WRITE: a write in runtime or secure mode. -/
def execSysregWindowWrite (c : CubeId) (n : BitVec 12) (v : Word) (secure : Bool) (s : State) : Out :=
  .next (sysWrite s c (if secure then .secure else .runtime) n.toNat v)
def execFabMigreqRead (c : CubeId) (s : State) : Out := .next (popRead s c 0x421)

/-! ### Windows (R92, R398) -/

/-- Who made a write that a window refuses learns of it (R92, R125): a strand takes a STORE_FAULT of kind PRIVILEGE, and a command
that has not failed ends with error 0x02, which breaks its line (R275). The strand's trap waits for a bundle boundary (log entry 97). -/
def refuseWrite (s : State) (who : Writer) : State :=
  match who with
  | .outside => s
  | .strand sid pos acc va => s.modSid sid fun x => x.addPending ⟨causeStore, 0, kPrivilege, acc, 0, va⟩ (placeOfId pos)
  | .command id va =>
    (List.finRange 8).foldl (fun s c =>
      match (s.cube c).cmd id with
      | some m =>
        if m.err.isSome then s
        else
          let e : EngErr := ⟨0x02, kPrivilege, va⟩
          (breakLine (faultRecord s c m 0 e) m.sid (cmdLine m) id).modCube c fun k => k.modCmd id fun q => { q with err := some e }
      | none => s) s
/-- A write through a shelf window: kept for the strand's next switch-in, discarded at an empty shelf, and refused while the
strand runs on a core that is not halted for debug. -/
def shelfWrite (s : State) (c : CubeId) (i : ShelfId) (off : Nat) (bytes : List Byte) (who : Writer) : State :=
  if ((s.cube c).shelves.get i).isNone then s
  else if shelfWriteRefused s c i.val then refuseWrite s who
  else s.modCube c fun k => { k with patches := k.patches ++ (cellsAt off bytes).map fun d => (i, d.1, d.2) }
def execShelfWindowWrite (c : CubeId) (shelf : ShelfId) (off size : Nat) (v : Word) (s : State) : Out :=
  .next (shelfWrite s c shelf off (bytesLE size v.toNat) .outside)
/-- What a write that has reached a window does there. -/
def windowOp (s : State) : WindowOp → State
  | .shelf c i off bytes who => shelfWrite s c i off bytes who
  | .sysreg c n v m => sysWrite s c m n.toNat v
  | .aperture _ bytes => if bytes.length = 64 then receivePacket s (BitVec.ofNat 512 (packLE bytes)) else s
  | .component b off bytes => componentWrite s b off bytes
/-- The oldest write at a window takes its effect. -/
def stepWindow (s : State) : State :=
  match s.winq with
  | [] => s
  | w :: t => windowOp { s with winq := t } w

end Sys2Proof.Machine
end

