-- ==== Sys2Proof/Machine/VInt.lean ====
section
/-! DEFINITION. Vector integer, logic and bit-field instructions (R200 to R204), and the element-wise operations that other
vector families share. -/
namespace Sys2Proof.Machine

/-! ### Element-wise operations -/

/-- A vector result of a slot: the new elements at a byte width, written where the mask has them active; with no active
element nothing is written (R201, R202). -/
def State.vout (s : State) (l : Nat) (u : Bool) (m : Mods) (d : VReg) (bytes : Nat) (k : MReg) (es : List Nat) : State :=
  s.writeV l u m d (packElems bytes es) (enables (s.ctx.m k) bytes)
/-- A result that writes the whole destination whatever the mask (R201). -/
def State.voutFull (s : State) (l : Nat) (u : Bool) (m : Mods) (d : VReg) (v : VWord) : State :=
  s.writeV l u m d v (BitVec.allOnes 256)
/-- An element-wise instruction of one operand. -/
def vmap1 (l : Nat) (f : Nat → Nat) (k : MReg) (u : Bool) (m : Mods) (d : VReg) (a : VSrc) (t : ElemT) (s : State) : Out :=
  .next (s.vout l u m d t.bytes k ((elems (s.ctx.vsrc t.bytes a) t.bytes).map f))
/-- One of two operands. -/
def vmap2 (l : Nat) (f : Nat → Nat → Nat) (k : MReg) (u : Bool) (m : Mods) (d : VReg) (a b : VSrc) (t : ElemT) (s : State) :
    Out :=
  .next (s.vout l u m d t.bytes k
    (List.zipWith f (elems (s.ctx.vsrc t.bytes a) t.bytes) (elems (s.ctx.vsrc t.bytes b) t.bytes)))
/-- One that also reads its destination. -/
def vmap3 (l : Nat) (f : Nat → Nat → Nat → Nat) (k : MReg) (u : Bool) (m : Mods) (d : VReg) (a b : VSrc) (t : ElemT)
    (s : State) : Out :=
  .next (s.vout l u m d t.bytes k
    ((elems (s.ctx.v d) t.bytes).zipWith (fun x (y : Nat × Nat) => f x y.1 y.2)
      ((elems (s.ctx.vsrc t.bytes a) t.bytes).zip (elems (s.ctx.vsrc t.bytes b) t.bytes))))
/-- Bits of an element. -/
def tbits (t : ElemT) : Nat := 8 * t.bytes

/-! ### VIA (R203): w-bit elements as numbers below 2^w -/

def satS (w : Nat) (i : Int) : Nat := intBits w (max (-(2 ^ (w - 1) : Nat)) (min (((2 ^ (w - 1) : Nat) : Int) - 1) i))
def satU (w : Nat) (i : Int) : Nat := (max 0 (min (((2 ^ w : Nat) : Int) - 1) i)).toNat
def minS (w x y : Nat) : Nat := if sint w x ≤ sint w y then x else y
def maxS (w x y : Nat) : Nat := if sint w x ≤ sint w y then y else x

def execVadd (k : MReg) (u : Bool) (m : Mods) (d : VReg) (a b : VSrc) (t : ElemT) (s : State) : Out :=
  vmap2 2 (fun x y => (x + y) % 2 ^ (tbits t)) k u m d a b t s
def execVsub (k : MReg) (u : Bool) (m : Mods) (d : VReg) (a b : VSrc) (t : ElemT) (s : State) : Out :=
  vmap2 2 (fun x y => intBits (tbits t) ((x : Int) - y)) k u m d a b t s
def execVadds (k : MReg) (u : Bool) (m : Mods) (d : VReg) (a b : VSrc) (t : ElemT) (s : State) : Out :=
  vmap2 2 (fun x y => satS (tbits t) (sint (tbits t) x + sint (tbits t) y)) k u m d a b t s
def execVsubs (k : MReg) (u : Bool) (m : Mods) (d : VReg) (a b : VSrc) (t : ElemT) (s : State) : Out :=
  vmap2 2 (fun x y => satS (tbits t) (sint (tbits t) x - sint (tbits t) y)) k u m d a b t s
def execVaddsn (k : MReg) (u : Bool) (m : Mods) (d : VReg) (a b : VSrc) (t : ElemT) (s : State) : Out :=
  vmap2 2 (fun x y => satU (tbits t) ((x : Int) + y)) k u m d a b t s
def execVsubsn (k : MReg) (u : Bool) (m : Mods) (d : VReg) (a b : VSrc) (t : ElemT) (s : State) : Out :=
  vmap2 2 (fun x y => satU (tbits t) ((x : Int) - y)) k u m d a b t s
def execVmul (k : MReg) (u : Bool) (m : Mods) (d : VReg) (a b : VSrc) (t : ElemT) (s : State) : Out :=
  vmap2 3 (fun x y => x * y % 2 ^ (tbits t)) k u m d a b t s
def execVmulh (k : MReg) (u : Bool) (m : Mods) (d : VReg) (a b : VSrc) (t : ElemT) (s : State) : Out :=
  vmap2 3 (fun x y => intBits (tbits t) (sint (tbits t) x * sint (tbits t) y / (2 ^ (tbits t) : Nat))) k u m d a b t s
def execVmulhn (k : MReg) (u : Bool) (m : Mods) (d : VReg) (a b : VSrc) (t : ElemT) (s : State) : Out :=
  vmap2 3 (fun x y => x * y / 2 ^ (tbits t)) k u m d a b t s
def execVmin (k : MReg) (u : Bool) (m : Mods) (d : VReg) (a b : VSrc) (t : ElemT) (s : State) : Out :=
  vmap2 2 (fun x y => minS (tbits t) x y) k u m d a b t s
def execVmax (k : MReg) (u : Bool) (m : Mods) (d : VReg) (a b : VSrc) (t : ElemT) (s : State) : Out :=
  vmap2 2 (fun x y => maxS (tbits t) x y) k u m d a b t s
def execVminn (k : MReg) (u : Bool) (m : Mods) (d : VReg) (a b : VSrc) (t : ElemT) (s : State) : Out :=
  vmap2 2 (fun x y => min x y) k u m d a b t s
def execVmaxn (k : MReg) (u : Bool) (m : Mods) (d : VReg) (a b : VSrc) (t : ElemT) (s : State) : Out :=
  vmap2 2 (fun x y => max x y) k u m d a b t s
def execVabs (k : MReg) (u : Bool) (m : Mods) (d : VReg) (a : VSrc) (t : ElemT) (s : State) : Out :=
  vmap1 2 (fun x => intBits (tbits t) (sint (tbits t) x).natAbs) k u m d a t s
def execVneg (k : MReg) (u : Bool) (m : Mods) (d : VReg) (a : VSrc) (t : ElemT) (s : State) : Out :=
  vmap1 2 (fun x => intBits (tbits t) (-(x : Int))) k u m d a t s
def execVavgn (k : MReg) (u : Bool) (m : Mods) (d : VReg) (a b : VSrc) (t : ElemT) (s : State) : Out :=
  vmap2 2 (fun x y => (x + y + 1) / 2) k u m d a b t s

/-! ### VLG (R204) -/

def rolBits (w x n : Nat) : Nat := x * 2 ^ n % 2 ^ w + x / 2 ^ (w - n)
def popBits (w x : Nat) : Nat := ((List.range w).filter fun k => x.testBit k).length
/-- The control of a field: offset b[5:0] and width b[13:8]. -/
def vecOff (y : Nat) : Nat := y % 64
def vecWid (y : Nat) : Nat := y / 256 % 64
def vecBfxs (w x y : Nat) : Nat :=
  if vecWid y = 0 then 0
  else intBits w (sint (vecWid y) (intBits (vecWid y) (sint w x / (2 ^ vecOff y : Nat))))
def vecBfxn (w x y : Nat) : Nat := x / 2 ^ vecOff y % 2 ^ vecWid y % 2 ^ w
def vecBfi (w o x y : Nat) : Nat :=
  let mask := (2 ^ vecWid y - 1) * 2 ^ vecOff y % 2 ^ w
  (o &&& (2 ^ w - 1 - mask)) ||| (x * 2 ^ vecOff y &&& mask)

def execVand (k : MReg) (u : Bool) (m : Mods) (d : VReg) (a b : VSrc) (t : ElemT) (s : State) : Out :=
  vmap2 2 (fun x y => x &&& y) k u m d a b t s
def execVor (k : MReg) (u : Bool) (m : Mods) (d : VReg) (a b : VSrc) (t : ElemT) (s : State) : Out :=
  vmap2 2 (fun x y => x ||| y) k u m d a b t s
def execVxor (k : MReg) (u : Bool) (m : Mods) (d : VReg) (a b : VSrc) (t : ElemT) (s : State) : Out :=
  vmap2 2 (fun x y => x ^^^ y) k u m d a b t s
def execVandn (k : MReg) (u : Bool) (m : Mods) (d : VReg) (a b : VSrc) (t : ElemT) (s : State) : Out :=
  vmap2 2 (fun x y => x &&& (2 ^ (tbits t) - 1 - y)) k u m d a b t s
def execVnot (k : MReg) (u : Bool) (m : Mods) (d : VReg) (a : VSrc) (t : ElemT) (s : State) : Out :=
  vmap1 2 (fun x => 2 ^ (tbits t) - 1 - x) k u m d a t s
def execVshl (k : MReg) (u : Bool) (m : Mods) (d : VReg) (a b : VSrc) (t : ElemT) (s : State) : Out :=
  vmap2 2 (fun x y => x * 2 ^ (y % (tbits t)) % 2 ^ (tbits t)) k u m d a b t s
def execVshr (k : MReg) (u : Bool) (m : Mods) (d : VReg) (a b : VSrc) (t : ElemT) (s : State) : Out :=
  vmap2 2 (fun x y => x / 2 ^ (y % (tbits t))) k u m d a b t s
def execVsar (k : MReg) (u : Bool) (m : Mods) (d : VReg) (a b : VSrc) (t : ElemT) (s : State) : Out :=
  vmap2 2 (fun x y => intBits (tbits t) (sint (tbits t) x / (2 ^ (y % (tbits t)) : Nat))) k u m d a b t s
def execVrol (k : MReg) (u : Bool) (m : Mods) (d : VReg) (a b : VSrc) (t : ElemT) (s : State) : Out :=
  vmap2 2 (fun x y => rolBits (tbits t) x (y % (tbits t))) k u m d a b t s
def execVbfxs (k : MReg) (u : Bool) (m : Mods) (d : VReg) (a b : VSrc) (t : ElemT) (s : State) : Out :=
  vmap2 2 (fun x y => vecBfxs (tbits t) x y) k u m d a b t s
def execVbfxn (k : MReg) (u : Bool) (m : Mods) (d : VReg) (a b : VSrc) (t : ElemT) (s : State) : Out :=
  vmap2 2 (fun x y => vecBfxn (tbits t) x y) k u m d a b t s
def execVbfi (k : MReg) (u : Bool) (m : Mods) (d : VReg) (a b : VSrc) (t : ElemT) (s : State) : Out :=
  vmap3 2 (fun o x y => vecBfi (tbits t) o x y) k u m d a b t s
def execVpopc (k : MReg) (u : Bool) (m : Mods) (d : VReg) (a : VSrc) (t : ElemT) (s : State) : Out :=
  vmap1 2 (fun x => popBits (tbits t) x) k u m d a t s
def execVclz (k : MReg) (u : Bool) (m : Mods) (d : VReg) (a : VSrc) (t : ElemT) (s : State) : Out :=
  vmap1 2 (fun x => if x = 0 then (tbits t) else (tbits t) - 1 - Nat.log2 x) k u m d a t s

end Sys2Proof.Machine
end

