-- ==== Sys2Proof/Machine/VFloat.lean ====
section
/-! DEFINITION. Vector floating point, the special functions, and dot products (R205 to R207, R216). -/
namespace Sys2Proof.Machine

/-- Operations on values, rounded once to the type by SEQ_FRM (R205). -/
def vfmap2 (f : RMode → FVal → FVal → FVal) (k : MReg) (u : Bool) (m : Mods) (d : VReg) (a b : VSrc) (t : ElemT) (s : State) :
    Out :=
  let r := s.ctx.rm
  vmap2 4 (fun x y => encode (numFmt t) r 0 (f r (decodeNum (numFmt t) x) (decodeNum (numFmt t) y))) k u m d a b t s
/-- The larger magnitude; NaN if either operand is NaN (R206). -/
def maxAbs (x y : FVal) : FVal := if x.isNan || y.isNan then .nan else x.abs.max2 y.abs

def execVfadd (k : MReg) (u : Bool) (m : Mods) (d : VReg) (a b : VSrc) (t : ElemT) (s : State) : Out :=
  vfmap2 (fun r x y => FVal.add r x y) k u m d a b t s
def execVfsub (k : MReg) (u : Bool) (m : Mods) (d : VReg) (a b : VSrc) (t : ElemT) (s : State) : Out :=
  vfmap2 (fun r x y => FVal.add r x y.neg) k u m d a b t s
def execVfmul (k : MReg) (u : Bool) (m : Mods) (d : VReg) (a b : VSrc) (t : ElemT) (s : State) : Out :=
  vfmap2 (fun _ x y => x.mul y) k u m d a b t s
def execVfmin (k : MReg) (u : Bool) (m : Mods) (d : VReg) (a b : VSrc) (t : ElemT) (s : State) : Out :=
  vfmap2 (fun _ x y => x.min2 y) k u m d a b t s
def execVfmax (k : MReg) (u : Bool) (m : Mods) (d : VReg) (a b : VSrc) (t : ElemT) (s : State) : Out :=
  vfmap2 (fun _ x y => x.max2 y) k u m d a b t s
def execVfmaxabs (k : MReg) (u : Bool) (m : Mods) (d : VReg) (a b : VSrc) (t : ElemT) (s : State) : Out :=
  vfmap2 (fun _ x y => maxAbs x y) k u m d a b t s
/-- One rounding of a × b + d. -/
def execVffma (k : MReg) (u : Bool) (m : Mods) (d : VReg) (a b : VSrc) (t : ElemT) (s : State) : Out :=
  let r := s.ctx.rm
  let f := numFmt t
  vmap3 4 (fun o x y => encode f r 0 (FVal.add r ((decodeNum f x).mul (decodeNum f y)) (decodeNum f o))) k u m d a b t s
def execVfabs (k : MReg) (u : Bool) (m : Mods) (d : VReg) (a : VSrc) (t : ElemT) (s : State) : Out :=
  vmap1 4 (fun x => x % 2 ^ ((tbits t) - 1)) k u m d a t s
def execVfneg (k : MReg) (u : Bool) (m : Mods) (d : VReg) (a : VSrc) (t : ElemT) (s : State) : Out :=
  vmap1 4 (fun x => x ^^^ 2 ^ ((tbits t) - 1)) k u m d a t s
def execVfcpsgn (k : MReg) (u : Bool) (m : Mods) (d : VReg) (a b : VSrc) (t : ElemT) (s : State) : Out :=
  vmap2 4 (fun x y => x % 2 ^ ((tbits t) - 1) + y / 2 ^ ((tbits t) - 1) * 2 ^ ((tbits t) - 1)) k u m d a b t s

/-! ### Special functions (R207): latency 8, also to b5 -/

/-- A result also goes to b5, merged as the unit latch is, at the same point (R202). -/
def vsfu (f : NFmt → Nat → FVal → Nat) (k : MReg) (u : Bool) (m : Mods) (d : VReg) (a : VSrc) (t : ElemT) (s : State) : Out :=
  let es := (elems (s.ctx.vsrc t.bytes a) t.bytes).map fun x => f (numFmt t) x (decodeNum (numFmt t) x)
  let en := enables (s.ctx.m k) t.bytes
  let r := vectorResult 8 u m d (packElems t.bytes es) en
  .next (if en = 0 then s else s.pushResult { r with also := 5 })
def execVexp2 (k : MReg) (u : Bool) (m : Mods) (d : VReg) (a : VSrc) (t : ElemT) (s : State) : Out := vsfu exp2Bits k u m d a t s
def execVlog2 (k : MReg) (u : Bool) (m : Mods) (d : VReg) (a : VSrc) (t : ElemT) (s : State) : Out := vsfu log2Bits k u m d a t s
def execVrcp (k : MReg) (u : Bool) (m : Mods) (d : VReg) (a : VSrc) (t : ElemT) (s : State) : Out :=
  vsfu (fun f _ x => encode f .rne 0 x.rcp) k u m d a t s
def execVrsq (k : MReg) (u : Bool) (m : Mods) (d : VReg) (a : VSrc) (t : ElemT) (s : State) : Out :=
  vsfu (fun f _ x => encode f .rne 0 x.rsq) k u m d a t s
def execVsqrt (k : MReg) (u : Bool) (m : Mods) (d : VReg) (a : VSrc) (t : ElemT) (s : State) : Out :=
  vsfu (fun f _ x => encode f .rne 0 x.sqrt) k u m d a t s
def execVtanh (k : MReg) (u : Bool) (m : Mods) (d : VReg) (a : VSrc) (t : ElemT) (s : State) : Out := vsfu tanhBits k u m d a t s
def execVsigm (k : MReg) (u : Bool) (m : Mods) (d : VReg) (a : VSrc) (t : ElemT) (s : State) : Out := vsfu sigmBits k u m d a t s

/-! ### Dot products (R216): the mask and the results are those of the 64 elements of 32 bits -/

/-- n products of element e's sources, at a source width. -/
def dotPairs (a b : VWord) (bytes n e : Nat) : List (Nat × Nat) :=
  (List.range n).map fun j => (elemAt a bytes (n * e + j), elemAt b bytes (n * e + j))
def vdot (bytes : Nat) (f : Nat → List (Nat × Nat) → Nat) (k : MReg) (u : Bool) (m : Mods) (d : VReg) (a b : VSrc) (s : State) :
    Out :=
  let va := s.ctx.vsrc bytes a
  let vb := s.ctx.vsrc bytes b
  .next (s.vout 4 u m d 4 k ((elems (s.ctx.v d) 4).mapIdx fun e o => f o (dotPairs va vb bytes (4 / bytes) e)))
def dotInt (g : Nat → Int) (o : Nat) (ps : List (Nat × Nat)) : Nat :=
  intBits 32 (ps.foldl (fun (x : Int) p => x + g p.1 * g p.2) o)
/-- Exact products and an exact sum of the three terms, rounded once to F32. -/
def dotFloat (f : NFmt) (r : RMode) (o : Nat) (ps : List (Nat × Nat)) : Nat :=
  enc32 r (sumExact r (dec32 o :: ps.map fun p => (decodeNum f p.1).mul (decodeNum f p.2)))
def execVdot4 (k : MReg) (u : Bool) (m : Mods) (d : VReg) (a b : VSrc) (s : State) : Out :=
  vdot 1 (dotInt (sint 8)) k u m d a b s
def execVdot4n (k : MReg) (u : Bool) (m : Mods) (d : VReg) (a b : VSrc) (s : State) : Out :=
  vdot 1 (dotInt Int.ofNat) k u m d a b s
def execVdot2 (k : MReg) (u : Bool) (m : Mods) (d : VReg) (a b : VSrc) (s : State) : Out :=
  vdot 2 (dotFloat .bf16 s.ctx.rm) k u m d a b s
def execVdot2h (k : MReg) (u : Bool) (m : Mods) (d : VReg) (a b : VSrc) (s : State) : Out :=
  vdot 2 (dotFloat .f16 s.ctx.rm) k u m d a b s

end Sys2Proof.Machine
end

