-- ==== Sys2Proof/Machine/VMask.lean ====
section
/-! DEFINITION. Vector compares into masks and mask operations (R208, R209). -/
namespace Sys2Proof.Machine

/-- The mask whose element e, in all its bytes, is f e (R208, R209). -/
def maskOf (bytes : Nat) (f : Nat → Bool) : MWord :=
  BitVec.ofNat 256 (((List.range (256 / bytes)).map fun e =>
    if f e then (2 ^ bytes - 1) * 2 ^ (bytes * e) else 0).foldl (· + ·) 0)
/-- A compare to mask n with combine c: plain, plain with the complement to mask n xor 1, AND and OR (R208). -/
def writeMasks (tv : Bool) (n : MReg) (c : BitVec 2) (v en : MWord) (s : State) : State :=
  match c.toNat with
  | 0 => s.writeM 2 tv n .plain v en
  | 1 => (s.writeM 2 tv n .plain v en).writeM 2 tv (n ^^^ 1) .plain (~~~v) en
  | 2 => s.writeM 2 tv n .and v en
  | _ => s.writeM 2 tv n .or v en
def vcompare (f : Nat → Nat → Bool) (k : MReg) (_u : Bool) (tv : Bool) (n : MReg) (c : BitVec 2) (a b : VSrc) (t : ElemT)
    (s : State) : Out :=
  let x := s.ctx.vsrc t.bytes a
  let y := s.ctx.vsrc t.bytes b
  .next (writeMasks tv n c (maskOf t.bytes fun e => f (elemAt x t.bytes e) (elemAt y t.bytes e))
    (enables (s.ctx.m k) t.bytes) s)
def vfcompare (f : FVal → FVal → Bool) (k : MReg) (u : Bool) (tv : Bool) (n : MReg) (c : BitVec 2) (a b : VSrc) (t : ElemT)
    (s : State) : Out :=
  vcompare (fun x y => f (decodeNum (numFmt t) x) (decodeNum (numFmt t) y)) k u tv n c a b t s

def execVcmpeq (k : MReg) (u : Bool) (tv : Bool) (n : MReg) (c : BitVec 2) (a b : VSrc) (t : ElemT) (s : State) : Out :=
  vcompare (fun x y => x == y) k u tv n c a b t s
def execVcmpne (k : MReg) (u : Bool) (tv : Bool) (n : MReg) (c : BitVec 2) (a b : VSrc) (t : ElemT) (s : State) : Out :=
  vcompare (fun x y => x != y) k u tv n c a b t s
def execVcmplt (k : MReg) (u : Bool) (tv : Bool) (n : MReg) (c : BitVec 2) (a b : VSrc) (t : ElemT) (s : State) : Out :=
  vcompare (fun x y => decide (sint (tbits t) x < sint (tbits t) y)) k u tv n c a b t s
def execVcmple (k : MReg) (u : Bool) (tv : Bool) (n : MReg) (c : BitVec 2) (a b : VSrc) (t : ElemT) (s : State) : Out :=
  vcompare (fun x y => decide (sint (tbits t) x ≤ sint (tbits t) y)) k u tv n c a b t s
def execVcmpltn (k : MReg) (u : Bool) (tv : Bool) (n : MReg) (c : BitVec 2) (a b : VSrc) (t : ElemT) (s : State) : Out :=
  vcompare (fun x y => decide (x < y)) k u tv n c a b t s
def execVcmplen (k : MReg) (u : Bool) (tv : Bool) (n : MReg) (c : BitVec 2) (a b : VSrc) (t : ElemT) (s : State) : Out :=
  vcompare (fun x y => decide (x ≤ y)) k u tv n c a b t s
def execVfcmpeq (k : MReg) (u : Bool) (tv : Bool) (n : MReg) (c : BitVec 2) (a b : VSrc) (t : ElemT) (s : State) : Out :=
  vfcompare (fun x y => x.eqv y) k u tv n c a b t s
def execVfcmplt (k : MReg) (u : Bool) (tv : Bool) (n : MReg) (c : BitVec 2) (a b : VSrc) (t : ElemT) (s : State) : Out :=
  vfcompare (fun x y => x.lt y) k u tv n c a b t s
def execVfcmple (k : MReg) (u : Bool) (tv : Bool) (n : MReg) (c : BitVec 2) (a b : VSrc) (t : ElemT) (s : State) : Out :=
  vfcompare (fun x y => x.le y) k u tv n c a b t s
def execVfcmpun (k : MReg) (u : Bool) (tv : Bool) (n : MReg) (c : BitVec 2) (a b : VSrc) (t : ElemT) (s : State) : Out :=
  vfcompare (fun x y => x.isNan || y.isNan) k u tv n c a b t s

/-! ### Mask operations (R209): latency 1, a full write of the destination -/

def State.maskOut (s : State) (tv : Bool) (d : MReg) (v : MWord) : State := s.writeM 1 tv d .plain v (BitVec.allOnes 256)
def execMand (_u tv : Bool) (d a b : MReg) (s : State) : Out := .next (s.maskOut tv d (s.ctx.m a &&& s.ctx.m b))
def execMor (_u tv : Bool) (d a b : MReg) (s : State) : Out := .next (s.maskOut tv d (s.ctx.m a ||| s.ctx.m b))
def execMxor (_u tv : Bool) (d a b : MReg) (s : State) : Out := .next (s.maskOut tv d (s.ctx.m a ^^^ s.ctx.m b))
def execMandn (_u tv : Bool) (d a b : MReg) (s : State) : Out := .next (s.maskOut tv d (s.ctx.m a &&& ~~~(s.ctx.m b)))
def execMnot (_u tv : Bool) (d a : MReg) (s : State) : Out := .next (s.maskOut tv d (~~~(s.ctx.m a)))
/-- Elements set in both masks. -/
def maskElems (t : ElemT) (v : MWord) : List Nat := (List.range (256 / t.bytes)).filter fun e => active v t.bytes e
/-- The counts are written whatever the mask (log entry 24). -/
def execMpop (k : MReg) (_u tv : Bool) (d : BitVec 5) (a : MReg) (t : ElemT) (s : State) : Out :=
  .next (s.writeS 1 0 ⟨false, tv⟩ (d.setWidth 6) (BitVec.ofNat 64 (maskElems t (s.ctx.m a &&& s.ctx.m k)).length))
def execMfirst (k : MReg) (_u tv : Bool) (d : BitVec 5) (a : MReg) (t : ElemT) (s : State) : Out :=
  .next (s.writeS 1 0 ⟨false, tv⟩ (d.setWidth 6)
    (BitVec.ofNat 64 ((maskElems t (s.ctx.m a &&& s.ctx.m k)).headD (256 / t.bytes))))
def execMfroms (_u tv : Bool) (d : MReg) (a : VSrc) (t : ElemT) (s : State) : Out :=
  .next (s.maskOut tv d (maskOf t.bytes fun e => decide (e < 64) && (s.ctx.vsrcScalar a).getLsbD e))
def execMlanes (_u tv : Bool) (d : MReg) (a : VSrc) (t : ElemT) (s : State) : Out :=
  .next (s.maskOut tv d (maskOf t.bytes fun e => decide (e < (s.ctx.vsrcScalar a).toNat)))

end Sys2Proof.Machine
end

