-- ==== Sys2Proof/Machine/VPerm.lean ====
section
/-! DEFINITION. Permutes, reductions and moves (R210 to R212). -/
namespace Sys2Proof.Machine

/-! ### Permutes: latency 3. The sources are read whole -/

/-- Element e of the result from the elements of a; only where it is active. -/
def vpick (f : List Nat → Nat → Nat) (k : MReg) (u : Bool) (m : Mods) (d : VReg) (a : VSrc) (t : ElemT) (s : State) : Out :=
  let xs := elems (s.ctx.vsrc t.bytes a) t.bytes
  .next (s.vout 3 u m d t.bytes k ((List.range xs.length).map (f xs)))
/-- The same from two vectors. -/
def vpick2 (f : List Nat → List Nat → Nat → Nat) (k : MReg) (u : Bool) (m : Mods) (d : VReg) (a b : VSrc) (t : ElemT)
    (s : State) : Out :=
  let ys := elems (s.ctx.vsrc t.bytes b) t.bytes
  vpick (fun xs e => f xs ys e) k u m d a t s
/-- A result that writes fewer elements than the mask has active, which still reaches the latch (R201, R202). -/
def State.voutSome (s : State) (l : Nat) (u : Bool) (m : Mods) (d : VReg) (bytes : Nat) (k : MReg) (es : List Nat)
    (w : Nat → Bool) : State :=
  let en := enables (s.ctx.m k) bytes
  if en = 0 then s else s.pushResult (vectorResult l u m d (packElems bytes es) (en &&& maskOf bytes w))
def elemCount (t : ElemT) : Nat := 256 / t.bytes

def execVperm (k : MReg) (u : Bool) (m : Mods) (d : VReg) (a b : VSrc) (t : ElemT) (s : State) : Out :=
  vpick2 (fun xs is e => xs.getD (is.getD e 0 % xs.length) 0) k u m d a b t s
def execVbcast (k : MReg) (u : Bool) (m : Mods) (d : VReg) (a b : VSrc) (t : ElemT) (s : State) : Out :=
  vpick (fun xs _ => xs.getD ((s.ctx.vsrcScalar b).toNat % xs.length) 0) k u m d a t s
def execVext (_u tv : Bool) (d : BitVec 5) (a b : VSrc) (t : ElemT) (s : State) : Out :=
  .next (s.writeS 3 0 ⟨false, tv⟩ (d.setWidth 6)
    (BitVec.ofNat 64 (elemAt (s.ctx.vsrc t.bytes a) t.bytes ((s.ctx.vsrcScalar b).toNat % elemCount t))))
def execVins (k : MReg) (u : Bool) (m : Mods) (d : VReg) (a b : VSrc) (t : ElemT) (s : State) : Out :=
  let j := (s.ctx.vsrcScalar b).toNat % elemCount t
  .next (s.voutSome 3 u m d t.bytes k ((List.range (elemCount t)).map fun _ => (s.ctx.vsrcScalar a).toNat) fun e => e == j)
/-- Active elements, lowest first. -/
def activeElems (t : ElemT) (v : MWord) : List Nat := (List.range (elemCount t)).filter fun e => active v t.bytes e
/-- `vcompress` also writes the number of active elements to s(vb). -/
def execVcompress (k : MReg) (u : Bool) (m : Mods) (d : VReg) (a : VSrc) (b : BitVec 5) (t : ElemT) (s : State) : Out :=
  let es := activeElems t (s.ctx.m k)
  let x := s.ctx.vsrc t.bytes a
  .next (s.pushResult { vectorResult 3 u m d (packElems t.bytes (es.map (elemAt x t.bytes))) (BitVec.allOnes 256) with
    sec := some (b.setWidth 6, BitVec.ofNat 64 es.length) })
def execVexpand (k : MReg) (u : Bool) (m : Mods) (d : VReg) (a : VSrc) (t : ElemT) (s : State) : Out :=
  let mk := s.ctx.m k
  vpick (fun xs e => xs.getD ((List.range e).filter fun j => active mk t.bytes j).length 0) k u m d a t s
def execVslideup (k : MReg) (u : Bool) (m : Mods) (d : VReg) (a b : VSrc) (t : ElemT) (s : State) : Out :=
  let n := min (s.ctx.vsrcScalar b).toNat (elemCount t)
  let xs := elems (s.ctx.vsrc t.bytes a) t.bytes
  .next (s.voutSome 3 u m d t.bytes k ((List.range (elemCount t)).map fun e => xs.getD (e - n) 0) fun e => decide (n ≤ e))
def execVslidedn (k : MReg) (u : Bool) (m : Mods) (d : VReg) (a b : VSrc) (t : ElemT) (s : State) : Out :=
  vpick (fun xs e => xs.getD (e + min (s.ctx.vsrcScalar b).toNat xs.length) 0) k u m d a t s
def execVzipl (k : MReg) (u : Bool) (m : Mods) (d : VReg) (a b : VSrc) (t : ElemT) (s : State) : Out :=
  vpick2 (fun xs ys e => if e % 2 = 0 then xs.getD (e / 2) 0 else ys.getD (e / 2) 0) k u m d a b t s
def execVziph (k : MReg) (u : Bool) (m : Mods) (d : VReg) (a b : VSrc) (t : ElemT) (s : State) : Out :=
  vpick2 (fun xs ys e => (if e % 2 = 0 then xs else ys).getD (xs.length / 2 + e / 2) 0) k u m d a b t s
def execVunzipe (k : MReg) (u : Bool) (m : Mods) (d : VReg) (a b : VSrc) (t : ElemT) (s : State) : Out :=
  vpick2 (fun xs ys e => let h := xs.length / 2; if e < h then xs.getD (2 * e) 0 else ys.getD (2 * (e - h)) 0) k u m d a b t s
def execVunzipo (k : MReg) (u : Bool) (m : Mods) (d : VReg) (a b : VSrc) (t : ElemT) (s : State) : Out :=
  vpick2 (fun xs ys e => let h := xs.length / 2; if e < h then xs.getD (2 * e + 1) 0 else ys.getD (2 * (e - h) + 1) 0)
    k u m d a b t s
def execViota (k : MReg) (u : Bool) (m : Mods) (d : VReg) (t : ElemT) (s : State) : Out :=
  let mk := s.ctx.m k
  .next (s.vout 3 u m d t.bytes k ((List.range (elemCount t)).map fun e =>
    ((List.range e).filter fun j => active mk t.bytes j).length))
def execVrev (k : MReg) (u : Bool) (m : Mods) (d : VReg) (a : VSrc) (t : ElemT) (s : State) : Out :=
  vpick (fun xs e => xs.getD (xs.length - 1 - e) 0) k u m d a t s

/-! ### Reductions (R84, R211): latency 6, element 0 the result and zero elsewhere -/

/-- The tree over the elements, inactive ones as the identity. -/
def vreduce (f : Nat → Nat → Nat) (one : Nat) (k : MReg) (u : Bool) (m : Mods) (d : VReg) (a : VSrc) (t : ElemT) (s : State) :
    Out :=
  let xs := (elems (s.ctx.vsrc t.bytes a) t.bytes).mapIdx fun e x => if active (s.ctx.m k) t.bytes e then x else one
  .next (s.voutFull 6 u m d (BitVec.ofNat 2048 ((treeReduce f 8 xs).headD one)))
def vfreduce (f : FVal → FVal → FVal) (one : FVal) (k : MReg) (u : Bool) (m : Mods) (d : VReg) (a : VSrc) (t : ElemT)
    (s : State) : Out :=
  let n := numFmt t
  vreduce (fun x y => encode n .rne 0 (f (decodeNum n x) (decodeNum n y))) (encode n .rne 0 one) k u m d a t s
def execVredadd (k : MReg) (u : Bool) (m : Mods) (d : VReg) (a : VSrc) (t : ElemT) (s : State) : Out :=
  vreduce (fun x y => (x + y) % 2 ^ (tbits t)) 0 k u m d a t s
def execVredmin (k : MReg) (u : Bool) (m : Mods) (d : VReg) (a : VSrc) (t : ElemT) (s : State) : Out :=
  vreduce (minS (tbits t)) (2 ^ ((tbits t) - 1) - 1) k u m d a t s
def execVredmax (k : MReg) (u : Bool) (m : Mods) (d : VReg) (a : VSrc) (t : ElemT) (s : State) : Out :=
  vreduce (maxS (tbits t)) (2 ^ ((tbits t) - 1)) k u m d a t s
def execVredminn (k : MReg) (u : Bool) (m : Mods) (d : VReg) (a : VSrc) (t : ElemT) (s : State) : Out :=
  vreduce min (2 ^ (tbits t) - 1) k u m d a t s
def execVredmaxn (k : MReg) (u : Bool) (m : Mods) (d : VReg) (a : VSrc) (t : ElemT) (s : State) : Out :=
  vreduce max 0 k u m d a t s
def execVfredadd (k : MReg) (u : Bool) (m : Mods) (d : VReg) (a : VSrc) (t : ElemT) (s : State) : Out :=
  vfreduce (fun x y => FVal.add .rne x y) (.fin true 0 0) k u m d a t s
def execVfredmin (k : MReg) (u : Bool) (m : Mods) (d : VReg) (a : VSrc) (t : ElemT) (s : State) : Out :=
  vfreduce (fun x y => x.min2 y) (.inf false) k u m d a t s
def execVfredmax (k : MReg) (u : Bool) (m : Mods) (d : VReg) (a : VSrc) (t : ElemT) (s : State) : Out :=
  vfreduce (fun x y => x.max2 y) (.inf true) k u m d a t s

/-! ### Moves (R212): latency 1 -/

def execVmov (k : MReg) (u : Bool) (m : Mods) (d : VReg) (a : VSrc) (t : ElemT) (s : State) : Out :=
  vmap1 1 (fun x => x) k u m d a t s
def execVsel (k : MReg) (u : Bool) (m : Mods) (d : VReg) (a b : VSrc) (t : ElemT) (s : State) : Out :=
  let x := s.ctx.vsrc t.bytes a
  let y := s.ctx.vsrc t.bytes b
  .next (s.voutFull 1 u m d (packElems t.bytes ((List.range (elemCount t)).map fun e =>
    if active (s.ctx.m k) t.bytes e then elemAt x t.bytes e else elemAt y t.bytes e)))
def execVsplati (k : MReg) (u : Bool) (m : Mods) (d : VReg) (imm : BitVec 17) (t : ElemT) (s : State) : Out :=
  .next (s.vout 1 u m d t.bytes k ((List.range (elemCount t)).map fun _ => intBits (tbits t) imm.toInt))
/-- A V slot that rounds stochastically pops the shared word, whatever its mask (R76). -/
def State.popShared (s : State) : State := s.modBundle fun b => { b with popV := true }
/-- Noise of element e on a unit (R76). -/
def unitNoise (s : State) (u : Bool) (e : Nat) : Nat := noiseLane s.bundle.noiseW (e + if u then 256 else 0)
def execVnoise (k : MReg) (u : Bool) (m : Mods) (d : VReg) (t : ElemT) (s : State) : Out :=
  .next (s.popShared.vout 1 u m d t.bytes k ((List.range (elemCount t)).map fun e => unitNoise s u e % 2 ^ (tbits t)))

end Sys2Proof.Machine
end

