-- ==== Sys2Proof/Machine/VCvt.lean ====
section
/-! DEFINITION. Vector conversions and the MX quantisers (R213 to R215). -/
namespace Sys2Proof.Machine

/-- The bits of an element converted from one type to another (R70, R73, R213). -/
def cvtElem (t e : ElemT) (r : RMode) (nz x : Nat) : Nat := encode (numFmt e) r nz (decodeNum (numFmt t) x)
/-- A conversion of part p (R213): a narrowing one writes its part, a widening one reads it. -/
def convert (r : RMode) (nz : Nat → Nat) (k : MReg) (u : Bool) (m : Mods) (d : VReg) (a : VSrc) (p : BitVec 2) (t e : ElemT)
    (s : State) : State :=
  let x := s.ctx.vsrc t.bytes a
  let n := 256 / max t.bytes e.bytes
  let off := p.toNat * n
  if e.bytes < t.bytes then
    s.voutSome 4 u m d e.bytes k ((List.range (256 / e.bytes)).map fun j => cvtElem t e r (nz j) (elemAt x t.bytes (j - off)))
      fun j => decide (off ≤ j) && decide (j < off + n)
  else
    s.vout 4 u m d e.bytes k ((List.range n).map fun j => cvtElem t e r (nz j) (elemAt x t.bytes (off + j)))
def execVcvt (k : MReg) (u : Bool) (m : Mods) (d : VReg) (a : VSrc) (p : BitVec 2) (t e : ElemT) (s : State) : Out := .next (convert s.ctx.rm (fun _ => 0) k u m d a p t e s)
def execVcvtsr (k : MReg) (u : Bool) (m : Mods) (d : VReg) (a : VSrc) (p : BitVec 2) (t e : ElemT) (s : State) : Out :=
  .next (convert .sr (unitNoise s u) k u m d a p t e s.popShared)

/-- The quantisers (R214): two blocks of 32, inactive elements as +0; the packed elements, and the scales to s(vb). -/
def quantise (f : MxFmt) (r : RMode) (nz : Nat → Nat) (k : MReg) (u : Bool) (m : Mods) (d : VReg) (a : VSrc) (b : BitVec 5)
    (s : State) : State :=
  let x := s.ctx.vsrc 4 a
  let val (e : Nat) : FVal := if active (s.ctx.m k) 4 e then dec32 (elemAt x 4 e) else .fin false 0 0
  let q0 := mxQuant f ((List.range 32).map val) r nz
  let q1 := mxQuant f ((List.range 32).map fun i => val (32 + i)) r fun i => nz (32 + i)
  s.pushResult { vectorResult 6 u m d (BitVec.ofNat 2048 (mxPack f (q0.2 ++ q1.2))) (BitVec.allOnes 256) with
    sec := some (b.setWidth 6, BitVec.ofNat 64 (q1.1 * 256 + q0.1)) }
/-- The stochastic quantisers: the word is popped, also when no element is active and nothing is written (R214, R221). -/
def quantiseSr (f : MxFmt) (k : MReg) (u : Bool) (m : Mods) (d : VReg) (a : VSrc) (b : BitVec 5) (s : State) : State :=
  if enables (s.ctx.m k) 4 = 0 then s.popShared else quantise f .sr (unitNoise s u) k u m d a b s.popShared
def execVqmx8 (k : MReg) (u : Bool) (m : Mods) (d : VReg) (a : VSrc) (b : BitVec 5) (s : State) : Out :=
  .next (quantise .mx8 s.ctx.rm (fun _ => 0) k u m d a b s)
def execVqmx6 (k : MReg) (u : Bool) (m : Mods) (d : VReg) (a : VSrc) (b : BitVec 5) (s : State) : Out :=
  .next (quantise .mx6 s.ctx.rm (fun _ => 0) k u m d a b s)
def execVqmx4 (k : MReg) (u : Bool) (m : Mods) (d : VReg) (a : VSrc) (b : BitVec 5) (s : State) : Out :=
  .next (quantise .mx4 s.ctx.rm (fun _ => 0) k u m d a b s)
def execVqmx8sr (k : MReg) (u : Bool) (m : Mods) (d : VReg) (a : VSrc) (b : BitVec 5) (s : State) : Out :=
  .next (quantiseSr .mx8 k u m d a b s)
def execVqmx6sr (k : MReg) (u : Bool) (m : Mods) (d : VReg) (a : VSrc) (b : BitVec 5) (s : State) : Out :=
  .next (quantiseSr .mx6 k u m d a b s)
def execVqmx4sr (k : MReg) (u : Bool) (m : Mods) (d : VReg) (a : VSrc) (b : BitVec 5) (s : State) : Out :=
  .next (quantiseSr .mx4 k u m d a b s)
/-- The dequantisers (R215): scales from bits 7:0 and 15:8 of s(vb). -/
def dequantise (f : MxFmt) (k : MReg) (u : Bool) (m : Mods) (d : VReg) (a b : VSrc) (s : State) : State :=
  let packed := (s.ctx.vsrc 4 a).toNat
  let sc := (s.ctx.vsrcScalar b).toNat
  s.vout 6 u m d 4 k ((List.range 64).map fun e =>
    enc32 .rne (mxDecode f (mxElem f packed e) (sc / 256 ^ (e / 32) % 256)))
def execVdqmx8 (k : MReg) (u : Bool) (m : Mods) (d : VReg) (a b : VSrc) (s : State) : Out := .next (dequantise .mx8 k u m d a b s)
def execVdqmx6 (k : MReg) (u : Bool) (m : Mods) (d : VReg) (a b : VSrc) (s : State) : Out := .next (dequantise .mx6 k u m d a b s)
def execVdqmx4 (k : MReg) (u : Bool) (m : Mods) (d : VReg) (a b : VSrc) (s : State) : Out := .next (dequantise .mx4 k u m d a b s)

end Sys2Proof.Machine
end

