-- ==== Sys2Proof/Machine/VMem.lean ====
section
/-! DEFINITION. Vector loads and stores (R217 to R220). -/
namespace Sys2Proof.Machine

/-! ### Addresses (R217) -/

/-- The element width of a mode, and the address of each element before the mask. -/
inductive VMode where
  | contig
  | strided (bytes : Nat) (stride : Word)
  | indexed (idx : VWord)
deriving DecidableEq, Repr
def VMode.bytes : VMode → Nat
  | .contig => 1 | .strided n _ => n | .indexed _ => 4
def VMode.addr (b : Word) (e : Nat) : VMode → VA
  | .contig => (b + BitVec.ofNat 64 e).setWidth 52
  | .strided _ st => (b + BitVec.ofNat 64 e * st).setWidth 52
  | .indexed i => (b + BitVec.ofNat 64 (elemAt i 4 e)).setWidth 52
/-- The active elements with their addresses, in element order. -/
def vElems (x : Ctx) (k : MReg) (b : Word) (md : VMode) : List (Nat × VA) :=
  ((List.range (256 / md.bytes)).filter fun e => active (x.m k) md.bytes e).map fun e => (e, md.addr b e)

/-! ### Checks (R219) -/

/-- The element of the lowest address. -/
def lowest : List (VA × Trap) → Option Trap
  | [] => none
  | a :: t => some (t.foldl (fun (m : VA × Trap) b => if b.1.toNat < m.1.toNat then b else m) a).2
/-- Which step of R219 a trap belongs to. -/
def vRank (t : Trap) : Nat :=
  if t.cause = causeDeadPeer then 3 else if t.cause = causeFenced then 5 else 4
/-- The traps of the elements that fail steps 3 to 5. -/
def vFails (s : State) (need : Need) (acc : BitVec 4) (es : List (Nat × VA)) : List (VA × Trap) :=
  es.filterMap fun e => (trapIn (reach s need acc (offWindow s) e.2)).map fun t => (e.2, t)
def vCheck (s : State) (need : Need) (acc : BitVec 4) (line : BitVec 3) (bytes : Nat) (es : List (Nat × VA)) : Option Trap :=
  let mis := (es.filter fun e => e.2.toNat % bytes != 0).map fun e => (e.2, s.slotTrapOf causeAlign 0 acc e.2)
  if !mis.isEmpty then lowest mis
  else if s.ctx.lineBad line then lowest (es.map fun e => (e.2, s.slotTrapOf causeLine 0 acc e.2))
  else
    let fs := vFails s need acc es
    let top := fs.foldl (fun n f => min n (vRank f.2)) 9
    lowest (fs.filter fun f => vRank f.2 == top)
/-- The targets of checked elements. -/
def vTargets (s : State) (es : List (Nat × VA)) : List (Nat × VA × Target) :=
  es.filterMap fun e =>
    match resolve s s.agent e.2 with
    | .ok t => some (e.1, e.2, t)
    | .fault _ => none
def lowVA (es : List (Nat × VA)) : VA :=
  match es with
  | [] => 0
  | e :: t => t.foldl (fun m f => if f.2.toNat < m.toNat then f.2 else m) e.2
/-- The MIGRATE pages of the elements, each once (R102). -/
def vMig (asn : BitVec 12) (ts : List (Nat × VA × Target)) : List (BitVec 12 × VA × Nat) :=
  (ts.flatMap fun t => migOf t.2.2 asn t.2.1).foldl (fun (l : List (BitVec 12 × VA × Nat)) m =>
    if l.any fun e => e.2.1.toNat / e.2.2 * e.2.2 == m.2.1.toNat / m.2.2 * m.2.2 then l else l ++ [m]) []

/-! ### Loads -/

/-- Served by the cube with an exposed latency: its own base scratch or constant store (R220). -/
def isNear (s : State) (key : Nat) : Bool :=
  match keySpace s key with
  | .scratch c _ => c == s.me
  | .constant c _ => c == s.me
  | _ => false
def vldCheck (s : State) (k : MReg) (b : Src) (md : VMode) : Option Trap :=
  vCheck s .read accVLoad 0 md.bytes (vElems s.ctx k (s.ctx.src b) md)
/-- The reads of the acquires that hold a span of memory (R113). -/
def heldBy (x : Ctx) (p : VA × Nat) : List Nat :=
  (x.acqs.filter fun a => a.regions.any fun r =>
    decide (p.1.toNat < r.1.toNat + r.2) && decide (r.1.toNat < p.1.toNat + p.2)).map AcqHold.read
/-- A vector load of checked elements; elements in regions that an acquire holds are read after it, and with them those at the same
locations, so that one location gives one value (R218, R220). A load of the cube's own stores that a fence in a lower slot of its
bundle delays is read then, and keeps its exposed latency (R196, R197). -/
def vload (s : State) (k : MReg) (u : Bool) (d : VReg) (b : Src) (md : VMode) : State :=
  let x := s.ctx
  let es := vElems x k (x.src b) md
  let ts := vTargets s es
  let en := enables (x.m k) md.bytes
  if ts.isEmpty then s
  else if ts.all fun t => isNear s t.2.2.key then
    let keys := ts.flatMap fun t => (List.range md.bytes).map fun j => (t.2.2.key + j, md.bytes * t.1 + j)
    let ls := linesOf (keys.map Prod.fst)
    if !(s.fencePrior true).past s s.me then
      sendRead (s.writeV 6 u ⟨false, false⟩ d 0 en) ⟨s.nextId, x.sid, s.me, accVLoad, lowVA es, keys, [], .exposed s.place, none, none,
        .sent, 0, en, false, [], .none, ([], [])⟩
    else
    let s := fireReads s ls
    if ls.any fun l => s.poison.contains l then
      s.modCtx fun y => y.addPending ⟨causeUncorrectable, 0, 0, accVLoad, 0, lowVA es⟩ s.place
    else
      s.writeV 6 u ⟨false, false⟩ d (lanesValue (keys.map fun y => (y.2, readByte s x.sid s.me false y.1))) en
  else
    let cellsOf (l : List (Nat × VA × Target)) : List (Nat × Nat) :=
      l.flatMap fun t => (List.range md.bytes).map fun j => (t.2.2.key + j, md.bytes * t.1 + j)
    let held := (ts.filter fun t => !(heldBy x (t.2.1, md.bytes)).isEmpty).map fun t => t.2.2.key
    let p := ts.partition fun t => !held.any fun k => decide (k < t.2.2.key + md.bytes) && decide (t.2.2.key < k + md.bytes)
    let acqs := (p.2.flatMap fun t => heldBy x (t.2.1, md.bytes)).eraseDups
    let now := if p.1.isEmpty then p.2 else p.1
    let late := if p.1.isEmpty then [] else p.2
    sendRead s ⟨s.nextId, x.sid, s.me, accVLoad, lowVA es, cellsOf now,
      linesOf ((ts.filter fun t => t.2.2.cached).flatMap fun t => (List.range md.bytes).map fun j => t.2.2.key + j),
      .vector d u, none, none, .sent, 0, en, false, vMig x.sys.asn ts,
      ⟨[], if p.1.isEmpty then acqs else [], []⟩, (cellsOf late, if p.1.isEmpty then [] else acqs)⟩
def vldAny (k : MReg) (u : Bool) (d : VReg) (b : Src) (md : VMode) (s : State) : Out :=
  .next (match vldCheck s k b md with
    | some t => takeTrap s s.me t
    | none => vload s k u d b md)
def execVld (k : MReg) (port : Bool) (d : VReg) (base : Src) (s : State) : Out := vldAny k port d base .contig s
def execVldStrided (k : MReg) (port : Bool) (d : VReg) (base stride : Src) (s : State) : Out :=
  vldAny k port d base (.strided 4 (s.ctx.src stride)) s
def execVldGather (k : MReg) (port : Bool) (d : VReg) (base : Src) (idx : VSrc) (s : State) : Out :=
  vldAny k port d base (.indexed (s.ctx.vsrc 4 idx)) s
def execVldStrided16 (k : MReg) (port : Bool) (d : VReg) (base stride : Src) (s : State) : Out :=
  vldAny k port d base (.strided 2 (s.ctx.src stride)) s

/-! ### Stores: one item for each home, with the elements in order -/

/-- Of several writes to one key the last stays. -/
def lastWins : List (Nat × Byte) → List (Nat × Byte)
  | [] => []
  | a :: t => if t.any fun b => b.1 == a.1 then lastWins t else a :: lastWins t
def vstCheck (s : State) (k : MReg) (b : Src) (md : VMode) (line : BitVec 3) : Option Trap :=
  vCheck s .write accVStore line md.bytes (vElems s.ctx k (s.ctx.src b) md)
/-- The item of a vector store towards one home; a trap for it names the lowest element of the whole store. -/
def vstItem (s : State) (x : Ctx) (glob : Bool) (line : BitVec 3) (bytes : Nat) (v : VWord) (low : VA) (h : Nat)
    (ts : List (Nat × VA × Target)) : State :=
  match ts.filter fun t => homeOf t.2.2.key == h with
  | [] => s
  | t :: rest =>
    let mine := t :: rest
    let cells := lastWins (mine.flatMap fun y => cellsAt y.2.2.key (bytesLE bytes (elemAt v bytes y.1)))
    sendItem s { coreItem s x t.2.2 (.store cells) low (mine.map fun y => (y.2.1, bytes)) accVStore with
      line := line, glob := glob, mig := vMig x.sys.asn mine
      tags := (((mine.filter fun y => y.2.2.tag != t.2.2.tag).map fun y => (lineOf y.2.2.key, y.2.2.tag))).eraseDups }
def vstAny (k : MReg) (glob : Bool) (d : VReg) (b : Src) (line : BitVec 3) (md : VMode) (s : State) : Out :=
  .next (match vstCheck s k b md line with
    | some t => takeTrap s s.me t
    | none =>
      let x := s.ctx
      let es := vElems x k (x.src b) md
      let ts := vTargets s es
      ((ts.map fun t => homeOf t.2.2.key).eraseDups).foldl (fun s h => vstItem s x glob line md.bytes (x.v d) (lowVA es) h ts) s)
def execVst (k : MReg) (glob : Bool) (d : VReg) (base : Src) (line : BitVec 3) (s : State) : Out :=
  vstAny k glob d base line .contig s
def execVstStrided (k : MReg) (glob : Bool) (d : VReg) (base stride : Src) (line : BitVec 3) (s : State) : Out :=
  vstAny k glob d base line (.strided 4 (s.ctx.src stride)) s
def execVstScatter (k : MReg) (glob : Bool) (d : VReg) (base : Src) (idx : VSrc) (line : BitVec 3) (s : State) : Out :=
  vstAny k glob d base line (.indexed (s.ctx.vsrc 4 idx)) s
def execVstStrided16 (k : MReg) (glob : Bool) (d : VReg) (base stride : Src) (line : BitVec 3) (s : State) : Out :=
  vstAny k glob d base line (.strided 2 (s.ctx.src stride)) s

end Sys2Proof.Machine
end

