-- ==== Sys2Proof/Machine/Dispatch.lean ====
section
/-! DEFINITION. The meaning of every instruction: one arm per constructor. -/
namespace Sys2Proof.Machine
open Sys2Proof

def exec (i : Instr) (s : State) : Host.Outcome State Fault Refusal :=
  match i with
  | .nop => Sys2Proof.Machine.execNop s
  | .halt g => Sys2Proof.Machine.execHalt g s
  | .yield g => Sys2Proof.Machine.execYield g s
  | .trap g code => Sys2Proof.Machine.execTrap g code s
  | .eret g => Sys2Proof.Machine.execEret g s
  | .iflush g => Sys2Proof.Machine.execIflush g s
  | .tlbi g d a code => Sys2Proof.Machine.execTlbi g d a code s
  | .noise g d => Sys2Proof.Machine.execNoise g d s
  | .cyc g d => Sys2Proof.Machine.execCyc g d s
  | .self g d => Sys2Proof.Machine.execSelf g d s
  | .brk g => Sys2Proof.Machine.execBrk g s
  | .sysrd g d n => Sys2Proof.Machine.execSysrd g d n s
  | .syswr g st n => Sys2Proof.Machine.execSyswr g st n s
  | .add g m d a b => Sys2Proof.Machine.execAdd g m d a b s
  | .sub g m d a b => Sys2Proof.Machine.execSub g m d a b s
  | .and g m d a b => Sys2Proof.Machine.execAnd g m d a b s
  | .or g m d a b => Sys2Proof.Machine.execOr g m d a b s
  | .xor g m d a b => Sys2Proof.Machine.execXor g m d a b s
  | .andn g m d a b => Sys2Proof.Machine.execAndn g m d a b s
  | .orn g m d a b => Sys2Proof.Machine.execOrn g m d a b s
  | .shl g m d a b => Sys2Proof.Machine.execShl g m d a b s
  | .shr g m d a b => Sys2Proof.Machine.execShr g m d a b s
  | .sar g m d a b => Sys2Proof.Machine.execSar g m d a b s
  | .rol g m d a b => Sys2Proof.Machine.execRol g m d a b s
  | .min g m d a b => Sys2Proof.Machine.execMin g m d a b s
  | .max g m d a b => Sys2Proof.Machine.execMax g m d a b s
  | .minn g m d a b => Sys2Proof.Machine.execMinn g m d a b s
  | .maxn g m d a b => Sys2Proof.Machine.execMaxn g m d a b s
  | .ror g m d a b => Sys2Proof.Machine.execRor g m d a b s
  | .mul g m d a b => Sys2Proof.Machine.execMul g m d a b s
  | .mulh g m d a b => Sys2Proof.Machine.execMulh g m d a b s
  | .mulhn g m d a b => Sys2Proof.Machine.execMulhn g m d a b s
  | .div g m d a b => Sys2Proof.Machine.execDiv g m d a b s
  | .divn g m d a b => Sys2Proof.Machine.execDivn g m d a b s
  | .rem g m d a b => Sys2Proof.Machine.execRem g m d a b s
  | .remn g m d a b => Sys2Proof.Machine.execRemn g m d a b s
  | .popc g m d a => Sys2Proof.Machine.execPopc g m d a s
  | .clz g m d a => Sys2Proof.Machine.execClz g m d a s
  | .ctz g m d a => Sys2Proof.Machine.execCtz g m d a s
  | .brev g m d a => Sys2Proof.Machine.execBrev g m d a s
  | .bswap g m d a => Sys2Proof.Machine.execBswap g m d a s
  | .abs g m d a => Sys2Proof.Machine.execAbs g m d a s
  | .sext g m d a b => Sys2Proof.Machine.execSext g m d a b s
  | .zext g m d a b => Sys2Proof.Machine.execZext g m d a b s
  | .bfxs g m d a b => Sys2Proof.Machine.execBfxs g m d a b s
  | .bfxn g m d a b => Sys2Proof.Machine.execBfxn g m d a b s
  | .bfi g m d a b => Sys2Proof.Machine.execBfi g m d a b s
  | .fshl g m d a b => Sys2Proof.Machine.execFshl g m d a b s
  | .fshr g m d a b => Sys2Proof.Machine.execFshr g m d a b s
  | .fadd g m d a b => Sys2Proof.Machine.execFadd g m d a b s
  | .fsub g m d a b => Sys2Proof.Machine.execFsub g m d a b s
  | .fmul g m d a b => Sys2Proof.Machine.execFmul g m d a b s
  | .ffma g m d a b => Sys2Proof.Machine.execFfma g m d a b s
  | .fmin g m d a b => Sys2Proof.Machine.execFmin g m d a b s
  | .fmax g m d a b => Sys2Proof.Machine.execFmax g m d a b s
  | .fabs g m d a => Sys2Proof.Machine.execFabs g m d a s
  | .fneg g m d a => Sys2Proof.Machine.execFneg g m d a s
  | .fcvtif g m d a => Sys2Proof.Machine.execFcvtif g m d a s
  | .fcvtnf g m d a => Sys2Proof.Machine.execFcvtnf g m d a s
  | .fcvtfi g m d a => Sys2Proof.Machine.execFcvtfi g m d a s
  | .fcvtfn g m d a => Sys2Proof.Machine.execFcvtfn g m d a s
  | .fsqrt g m d a => Sys2Proof.Machine.execFsqrt g m d a s
  | .addi g m d a imm => Sys2Proof.Machine.execAddi g m d a imm s
  | .andi g m d a imm => Sys2Proof.Machine.execAndi g m d a imm s
  | .ori g m d a imm => Sys2Proof.Machine.execOri g m d a imm s
  | .xori g m d a imm => Sys2Proof.Machine.execXori g m d a imm s
  | .shli g m d a imm => Sys2Proof.Machine.execShli g m d a imm s
  | .shri g m d a imm => Sys2Proof.Machine.execShri g m d a imm s
  | .sari g m d a imm => Sys2Proof.Machine.execSari g m d a imm s
  | .muli g m d a imm => Sys2Proof.Machine.execMuli g m d a imm s
  | .movi g m d imm => Sys2Proof.Machine.execMovi g m d imm s
  | .movhi g m d imm => Sys2Proof.Machine.execMovhi g m d imm s
  | .cmpeq g tv ct p q a b => Sys2Proof.Machine.execCmpeq g tv ct p q a b s
  | .cmpeqImm g tv ct p q a imm => Sys2Proof.Machine.execCmpeqImm g tv ct p q a imm s
  | .cmpne g tv ct p q a b => Sys2Proof.Machine.execCmpne g tv ct p q a b s
  | .cmpneImm g tv ct p q a imm => Sys2Proof.Machine.execCmpneImm g tv ct p q a imm s
  | .cmplt g tv ct p q a b => Sys2Proof.Machine.execCmplt g tv ct p q a b s
  | .cmpltImm g tv ct p q a imm => Sys2Proof.Machine.execCmpltImm g tv ct p q a imm s
  | .cmple g tv ct p q a b => Sys2Proof.Machine.execCmple g tv ct p q a b s
  | .cmpleImm g tv ct p q a imm => Sys2Proof.Machine.execCmpleImm g tv ct p q a imm s
  | .cmpltn g tv ct p q a b => Sys2Proof.Machine.execCmpltn g tv ct p q a b s
  | .cmpltnImm g tv ct p q a imm => Sys2Proof.Machine.execCmpltnImm g tv ct p q a imm s
  | .cmplen g tv ct p q a b => Sys2Proof.Machine.execCmplen g tv ct p q a b s
  | .cmplenImm g tv ct p q a imm => Sys2Proof.Machine.execCmplenImm g tv ct p q a imm s
  | .fcmpeq g tv ct p q a b => Sys2Proof.Machine.execFcmpeq g tv ct p q a b s
  | .fcmplt g tv ct p q a b => Sys2Proof.Machine.execFcmplt g tv ct p q a b s
  | .fcmple g tv ct p q a b => Sys2Proof.Machine.execFcmple g tv ct p q a b s
  | .fcmpun g tv ct p q a b => Sys2Proof.Machine.execFcmpun g tv ct p q a b s
  | .br g disp => Sys2Proof.Machine.execBr g disp s
  | .brl g disp => Sys2Proof.Machine.execBrl g disp s
  | .jr g a => Sys2Proof.Machine.execJr g a s
  | .jrl g a => Sys2Proof.Machine.execJrl g a s
  | .pand g d a b => Sys2Proof.Machine.execPand g d a b s
  | .por g d a b => Sys2Proof.Machine.execPor g d a b s
  | .pxor g d a b => Sys2Proof.Machine.execPxor g d a b s
  | .pandn g d a b => Sys2Proof.Machine.execPandn g d a b s
  | .pmovs g a => Sys2Proof.Machine.execPmovs g a s
  | .pmovp g d => Sys2Proof.Machine.execPmovp g d s
  | .lpop g => Sys2Proof.Machine.execLpop g s
  | .loop g c e => Sys2Proof.Machine.execLoop g c e s
  | .loopi g n e => Sys2Proof.Machine.execLoopi g n e s
  | .ld g nw d base z x off => Sys2Proof.Machine.execLd g nw d base z x off s
  | .st g data base z glob line off => Sys2Proof.Machine.execSt g data base z glob line off s
  | .amoAdd g d a b => Sys2Proof.Machine.execAmoAdd g d a b s
  | .amoAnd g d a b => Sys2Proof.Machine.execAmoAnd g d a b s
  | .amoOr g d a b => Sys2Proof.Machine.execAmoOr g d a b s
  | .amoXor g d a b => Sys2Proof.Machine.execAmoXor g d a b s
  | .amoMin g d a b => Sys2Proof.Machine.execAmoMin g d a b s
  | .amoMax g d a b => Sys2Proof.Machine.execAmoMax g d a b s
  | .amoMinn g d a b => Sys2Proof.Machine.execAmoMinn g d a b s
  | .amoMaxn g d a b => Sys2Proof.Machine.execAmoMaxn g d a b s
  | .amoSwap g d a b => Sys2Proof.Machine.execAmoSwap g d a b s
  | .amoCas g d a b => Sys2Proof.Machine.execAmoCas g d a b s
  | .amowAdd g d a b => Sys2Proof.Machine.execAmowAdd g d a b s
  | .amowAnd g d a b => Sys2Proof.Machine.execAmowAnd g d a b s
  | .amowOr g d a b => Sys2Proof.Machine.execAmowOr g d a b s
  | .amowXor g d a b => Sys2Proof.Machine.execAmowXor g d a b s
  | .amowMin g d a b => Sys2Proof.Machine.execAmowMin g d a b s
  | .amowMax g d a b => Sys2Proof.Machine.execAmowMax g d a b s
  | .amowMinn g d a b => Sys2Proof.Machine.execAmowMinn g d a b s
  | .amowMaxn g d a b => Sys2Proof.Machine.execAmowMaxn g d a b s
  | .amowSwap g d a b => Sys2Proof.Machine.execAmowSwap g d a b s
  | .amowCas g d a b => Sys2Proof.Machine.execAmowCas g d a b s
  | .amowFadd g d a b => Sys2Proof.Machine.execAmowFadd g d a b s
  | .amowFmax g d a b => Sys2Proof.Machine.execAmowFmax g d a b s
  | .redAdd g ord z a b => Sys2Proof.Machine.execRedAdd g ord z a b s
  | .redAnd g ord z a b => Sys2Proof.Machine.execRedAnd g ord z a b s
  | .redOr g ord z a b => Sys2Proof.Machine.execRedOr g ord z a b s
  | .redXor g ord z a b => Sys2Proof.Machine.execRedXor g ord z a b s
  | .redMin g ord z a b => Sys2Proof.Machine.execRedMin g ord z a b s
  | .redMax g ord z a b => Sys2Proof.Machine.execRedMax g ord z a b s
  | .redMinn g ord z a b => Sys2Proof.Machine.execRedMinn g ord z a b s
  | .redMaxn g ord z a b => Sys2Proof.Machine.execRedMaxn g ord z a b s
  | .redFadd g ord a b => Sys2Proof.Machine.execRedFadd g ord a b s
  | .redFmax g ord a b => Sys2Proof.Machine.execRedFmax g ord a b s
  | .cadd g line glob a b scope rel => Sys2Proof.Machine.execCadd g line glob a b scope rel s
  | .cmax g line glob a b scope rel => Sys2Proof.Machine.execCmax g line glob a b scope rel s
  | .cwait g d a b scope acq np => Sys2Proof.Machine.execCwait g d a b scope acq np s
  | .crd g d a scope acq => Sys2Proof.Machine.execCrd g d a scope acq s
  | .fence g kind scope => Sys2Proof.Machine.execFence g kind scope s
  | .qfence g mask => Sys2Proof.Machine.execQfence g mask s
  | .bind g d a b => Sys2Proof.Machine.execBind g d a b s
  | .unbind g d a b => Sys2Proof.Machine.execUnbind g d a b s
  | .join g d a => Sys2Proof.Machine.execJoin g d a s
  | .leave g d a => Sys2Proof.Machine.execLeave g d a s
  | .launch g d a b => Sys2Proof.Machine.execLaunch g d a b s
  | .trninfo g d a => Sys2Proof.Machine.execTrninfo g d a s
  | .vadd k u m d a b t => Sys2Proof.Machine.execVadd k u m d a b t s
  | .vsub k u m d a b t => Sys2Proof.Machine.execVsub k u m d a b t s
  | .vadds k u m d a b t => Sys2Proof.Machine.execVadds k u m d a b t s
  | .vsubs k u m d a b t => Sys2Proof.Machine.execVsubs k u m d a b t s
  | .vaddsn k u m d a b t => Sys2Proof.Machine.execVaddsn k u m d a b t s
  | .vsubsn k u m d a b t => Sys2Proof.Machine.execVsubsn k u m d a b t s
  | .vmul k u m d a b t => Sys2Proof.Machine.execVmul k u m d a b t s
  | .vmulh k u m d a b t => Sys2Proof.Machine.execVmulh k u m d a b t s
  | .vmulhn k u m d a b t => Sys2Proof.Machine.execVmulhn k u m d a b t s
  | .vmin k u m d a b t => Sys2Proof.Machine.execVmin k u m d a b t s
  | .vmax k u m d a b t => Sys2Proof.Machine.execVmax k u m d a b t s
  | .vminn k u m d a b t => Sys2Proof.Machine.execVminn k u m d a b t s
  | .vmaxn k u m d a b t => Sys2Proof.Machine.execVmaxn k u m d a b t s
  | .vabs k u m d a t => Sys2Proof.Machine.execVabs k u m d a t s
  | .vneg k u m d a t => Sys2Proof.Machine.execVneg k u m d a t s
  | .vavgn k u m d a b t => Sys2Proof.Machine.execVavgn k u m d a b t s
  | .vand k u m d a b t => Sys2Proof.Machine.execVand k u m d a b t s
  | .vor k u m d a b t => Sys2Proof.Machine.execVor k u m d a b t s
  | .vxor k u m d a b t => Sys2Proof.Machine.execVxor k u m d a b t s
  | .vandn k u m d a b t => Sys2Proof.Machine.execVandn k u m d a b t s
  | .vnot k u m d a t => Sys2Proof.Machine.execVnot k u m d a t s
  | .vshl k u m d a b t => Sys2Proof.Machine.execVshl k u m d a b t s
  | .vshr k u m d a b t => Sys2Proof.Machine.execVshr k u m d a b t s
  | .vsar k u m d a b t => Sys2Proof.Machine.execVsar k u m d a b t s
  | .vrol k u m d a b t => Sys2Proof.Machine.execVrol k u m d a b t s
  | .vbfxs k u m d a b t => Sys2Proof.Machine.execVbfxs k u m d a b t s
  | .vbfxn k u m d a b t => Sys2Proof.Machine.execVbfxn k u m d a b t s
  | .vbfi k u m d a b t => Sys2Proof.Machine.execVbfi k u m d a b t s
  | .vpopc k u m d a t => Sys2Proof.Machine.execVpopc k u m d a t s
  | .vclz k u m d a t => Sys2Proof.Machine.execVclz k u m d a t s
  | .vfadd k u m d a b t => Sys2Proof.Machine.execVfadd k u m d a b t s
  | .vfsub k u m d a b t => Sys2Proof.Machine.execVfsub k u m d a b t s
  | .vfmul k u m d a b t => Sys2Proof.Machine.execVfmul k u m d a b t s
  | .vffma k u m d a b t => Sys2Proof.Machine.execVffma k u m d a b t s
  | .vfmin k u m d a b t => Sys2Proof.Machine.execVfmin k u m d a b t s
  | .vfmax k u m d a b t => Sys2Proof.Machine.execVfmax k u m d a b t s
  | .vfabs k u m d a t => Sys2Proof.Machine.execVfabs k u m d a t s
  | .vfneg k u m d a t => Sys2Proof.Machine.execVfneg k u m d a t s
  | .vfcpsgn k u m d a b t => Sys2Proof.Machine.execVfcpsgn k u m d a b t s
  | .vfmaxabs k u m d a b t => Sys2Proof.Machine.execVfmaxabs k u m d a b t s
  | .vexp2 k u m d a t => Sys2Proof.Machine.execVexp2 k u m d a t s
  | .vlog2 k u m d a t => Sys2Proof.Machine.execVlog2 k u m d a t s
  | .vrcp k u m d a t => Sys2Proof.Machine.execVrcp k u m d a t s
  | .vrsq k u m d a t => Sys2Proof.Machine.execVrsq k u m d a t s
  | .vsqrt k u m d a t => Sys2Proof.Machine.execVsqrt k u m d a t s
  | .vtanh k u m d a t => Sys2Proof.Machine.execVtanh k u m d a t s
  | .vsigm k u m d a t => Sys2Proof.Machine.execVsigm k u m d a t s
  | .vcmpeq k u tv n c a b t => Sys2Proof.Machine.execVcmpeq k u tv n c a b t s
  | .vcmpne k u tv n c a b t => Sys2Proof.Machine.execVcmpne k u tv n c a b t s
  | .vcmplt k u tv n c a b t => Sys2Proof.Machine.execVcmplt k u tv n c a b t s
  | .vcmple k u tv n c a b t => Sys2Proof.Machine.execVcmple k u tv n c a b t s
  | .vcmpltn k u tv n c a b t => Sys2Proof.Machine.execVcmpltn k u tv n c a b t s
  | .vcmplen k u tv n c a b t => Sys2Proof.Machine.execVcmplen k u tv n c a b t s
  | .vfcmpeq k u tv n c a b t => Sys2Proof.Machine.execVfcmpeq k u tv n c a b t s
  | .vfcmplt k u tv n c a b t => Sys2Proof.Machine.execVfcmplt k u tv n c a b t s
  | .vfcmple k u tv n c a b t => Sys2Proof.Machine.execVfcmple k u tv n c a b t s
  | .vfcmpun k u tv n c a b t => Sys2Proof.Machine.execVfcmpun k u tv n c a b t s
  | .mand u tv d a b => Sys2Proof.Machine.execMand u tv d a b s
  | .mor u tv d a b => Sys2Proof.Machine.execMor u tv d a b s
  | .mxor u tv d a b => Sys2Proof.Machine.execMxor u tv d a b s
  | .mandn u tv d a b => Sys2Proof.Machine.execMandn u tv d a b s
  | .mnot u tv d a => Sys2Proof.Machine.execMnot u tv d a s
  | .mpop k u tv d a t => Sys2Proof.Machine.execMpop k u tv d a t s
  | .mfirst k u tv d a t => Sys2Proof.Machine.execMfirst k u tv d a t s
  | .mfroms u tv d a t => Sys2Proof.Machine.execMfroms u tv d a t s
  | .mlanes u tv d a t => Sys2Proof.Machine.execMlanes u tv d a t s
  | .vperm k u m d a b t => Sys2Proof.Machine.execVperm k u m d a b t s
  | .vbcast k u m d a b t => Sys2Proof.Machine.execVbcast k u m d a b t s
  | .vext u tv d a b t => Sys2Proof.Machine.execVext u tv d a b t s
  | .vins k u m d a b t => Sys2Proof.Machine.execVins k u m d a b t s
  | .vcompress k u m d a b t => Sys2Proof.Machine.execVcompress k u m d a b t s
  | .vexpand k u m d a t => Sys2Proof.Machine.execVexpand k u m d a t s
  | .vslideup k u m d a b t => Sys2Proof.Machine.execVslideup k u m d a b t s
  | .vslidedn k u m d a b t => Sys2Proof.Machine.execVslidedn k u m d a b t s
  | .vzipl k u m d a b t => Sys2Proof.Machine.execVzipl k u m d a b t s
  | .vziph k u m d a b t => Sys2Proof.Machine.execVziph k u m d a b t s
  | .vunzipe k u m d a b t => Sys2Proof.Machine.execVunzipe k u m d a b t s
  | .vunzipo k u m d a b t => Sys2Proof.Machine.execVunzipo k u m d a b t s
  | .viota k u m d t => Sys2Proof.Machine.execViota k u m d t s
  | .vrev k u m d a t => Sys2Proof.Machine.execVrev k u m d a t s
  | .vredadd k u m d a t => Sys2Proof.Machine.execVredadd k u m d a t s
  | .vredmin k u m d a t => Sys2Proof.Machine.execVredmin k u m d a t s
  | .vredmax k u m d a t => Sys2Proof.Machine.execVredmax k u m d a t s
  | .vredminn k u m d a t => Sys2Proof.Machine.execVredminn k u m d a t s
  | .vredmaxn k u m d a t => Sys2Proof.Machine.execVredmaxn k u m d a t s
  | .vfredadd k u m d a t => Sys2Proof.Machine.execVfredadd k u m d a t s
  | .vfredmin k u m d a t => Sys2Proof.Machine.execVfredmin k u m d a t s
  | .vfredmax k u m d a t => Sys2Proof.Machine.execVfredmax k u m d a t s
  | .vcvt k u m d a p t e => Sys2Proof.Machine.execVcvt k u m d a p t e s
  | .vcvtsr k u m d a p t e => Sys2Proof.Machine.execVcvtsr k u m d a p t e s
  | .vqmx8 k u m d a b => Sys2Proof.Machine.execVqmx8 k u m d a b s
  | .vqmx6 k u m d a b => Sys2Proof.Machine.execVqmx6 k u m d a b s
  | .vqmx4 k u m d a b => Sys2Proof.Machine.execVqmx4 k u m d a b s
  | .vdqmx8 k u m d a b => Sys2Proof.Machine.execVdqmx8 k u m d a b s
  | .vdqmx6 k u m d a b => Sys2Proof.Machine.execVdqmx6 k u m d a b s
  | .vdqmx4 k u m d a b => Sys2Proof.Machine.execVdqmx4 k u m d a b s
  | .vqmx8sr k u m d a b => Sys2Proof.Machine.execVqmx8sr k u m d a b s
  | .vqmx6sr k u m d a b => Sys2Proof.Machine.execVqmx6sr k u m d a b s
  | .vqmx4sr k u m d a b => Sys2Proof.Machine.execVqmx4sr k u m d a b s
  | .vld k port d base => Sys2Proof.Machine.execVld k port d base s
  | .vldStrided k port d base stride => Sys2Proof.Machine.execVldStrided k port d base stride s
  | .vldGather k port d base idx => Sys2Proof.Machine.execVldGather k port d base idx s
  | .vldStrided16 k port d base stride => Sys2Proof.Machine.execVldStrided16 k port d base stride s
  | .vst k glob d base line => Sys2Proof.Machine.execVst k glob d base line s
  | .vstStrided k glob d base stride line => Sys2Proof.Machine.execVstStrided k glob d base stride line s
  | .vstScatter k glob d base idx line => Sys2Proof.Machine.execVstScatter k glob d base idx line s
  | .vstStrided16 k glob d base stride line => Sys2Proof.Machine.execVstStrided16 k glob d base stride line s
  | .vmov k u m d a t => Sys2Proof.Machine.execVmov k u m d a t s
  | .vsel k u m d a b t => Sys2Proof.Machine.execVsel k u m d a b t s
  | .vsplati k u m d imm t => Sys2Proof.Machine.execVsplati k u m d imm t s
  | .vnoise k u m d t => Sys2Proof.Machine.execVnoise k u m d t s
  | .vdot4 k u m d a b => Sys2Proof.Machine.execVdot4 k u m d a b s
  | .vdot4n k u m d a b => Sys2Proof.Machine.execVdot4n k u m d a b s
  | .vdot2 k u m d a b => Sys2Proof.Machine.execVdot2 k u m d a b s
  | .vdot2h k u m d a b => Sys2Proof.Machine.execVdot2h k u m d a b s
  | .cmma g a b hb ha z => Sys2Proof.Machine.execCmma g a b hb ha z s
  | .cmmaMsk g a b c hb ha z => Sys2Proof.Machine.execCmmaMsk g a b c hb ha z s
  | .crotH32 g a => Sys2Proof.Machine.execCrotH32 g a s
  | .crotH64 g a => Sys2Proof.Machine.execCrotH64 g a s
  | .cdrain g a b c => Sys2Proof.Machine.execCdrain g a b c s
  | .cdrainP g a b c => Sys2Proof.Machine.execCdrainP g a b c s
  | .caccZero g a c => Sys2Proof.Machine.execCaccZero g a c s
  | .caccLd g a b c => Sys2Proof.Machine.execCaccLd g a b c s
  | .caccSt g a b c => Sys2Proof.Machine.execCaccSt g a b c s
  | .caccMove g a b c => Sys2Proof.Machine.execCaccMove g a b c s
  | .csplDef g a b c => Sys2Proof.Machine.execCsplDef g a b c s
  | .csplAdvp g a b => Sys2Proof.Machine.execCsplAdvp g a b s
  | .csplAdvc g a b => Sys2Proof.Machine.execCsplAdvc g a b s
  | .csplRdp g a b => Sys2Proof.Machine.execCsplRdp g a b s
  | .csplReset g a => Sys2Proof.Machine.execCsplReset g a s
  | .cpalSet g a b => Sys2Proof.Machine.execCpalSet g a b s
  | .cpalGet g a b => Sys2Proof.Machine.execCpalGet g a b s
  | .csyncJoin g a b c => Sys2Proof.Machine.execCsyncJoin g a b c s
  | .csyncStat g a => Sys2Proof.Machine.execCsyncStat g a s
  | .csyncSkew g a => Sys2Proof.Machine.execCsyncSkew g a s
  | .crcpDef g a b c => Sys2Proof.Machine.execCrcpDef g a b c s
  | .crcpGet g a b => Sys2Proof.Machine.execCrcpGet g a b s
  | .cpyLin g a b c q => Sys2Proof.Machine.execCpyLin g a b c q s
  | .cpyTwod g a b c q => Sys2Proof.Machine.execCpyTwod g a b c q s
  | .cpyThreed g a b c q => Sys2Proof.Machine.execCpyThreed g a b c q s
  | .cpyFill g a b c q => Sys2Proof.Machine.execCpyFill g a b c q s
  | .cpyLsplit g a b c q => Sys2Proof.Machine.execCpyLsplit g a b c q s
  | .cpyLgath g a b c q => Sys2Proof.Machine.execCpyLgath g a b c q s
  | .cpyMcast g a b c q => Sys2Proof.Machine.execCpyMcast g a b c q s
  | .cpyPfetch g a b c q => Sys2Proof.Machine.execCpyPfetch g a b c q s
  | .cgthGather g a b c q => Sys2Proof.Machine.execCgthGather g a b c q s
  | .cgthScatter g a b c q => Sys2Proof.Machine.execCgthScatter g a b c q s
  | .cgthGatheradd g a b c q => Sys2Proof.Machine.execCgthGatheradd g a b c q s
  | .credAddf32 g a b c q => Sys2Proof.Machine.execCredAddf32 g a b c q s
  | .credAddbf16 g a b c q => Sys2Proof.Machine.execCredAddbf16 g a b c q s
  | .credMaxf32 g a b c q => Sys2Proof.Machine.execCredMaxf32 g a b c q s
  | .credAddi32 g a b c q => Sys2Proof.Machine.execCredAddi32 g a b c q s
  | .blkAlloc g a b c => Sys2Proof.Machine.execBlkAlloc g a b c s
  | .blkFree g a b c => Sys2Proof.Machine.execBlkFree g a b c s
  | .blkShare g a b c => Sys2Proof.Machine.execBlkShare g a b c s
  | .blkXlate g a b c => Sys2Proof.Machine.execBlkXlate g a b c s
  | .blkFetch g a b c => Sys2Proof.Machine.execBlkFetch g a b c s
  | .blkAppend g a b c => Sys2Proof.Machine.execBlkAppend g a b c s
  | .blkStat g a b c => Sys2Proof.Machine.execBlkStat g a b c s
  | .emptyBundle c => Sys2Proof.Machine.execEmptyBundle c s
  | .exposedResultLands c k vote => Sys2Proof.Machine.execExposedResultLands c k vote s
  | .interlockedResultArrives r vote => Sys2Proof.Machine.execInterlockedResultArrives r vote s
  | .icacheMissFill c => Sys2Proof.Machine.execIcacheMissFill c s
  | .noiseWordAppend c => Sys2Proof.Machine.execNoiseWordAppend c s
  | .trapEntry c => Sys2Proof.Machine.execTrapEntry c s
  | .watchdog c => Sys2Proof.Machine.execWatchdog c s
  | .preemption c => Sys2Proof.Machine.execPreemption c s
  | .switchIn c => Sys2Proof.Machine.execSwitchIn c s
  | .quantumExpiry c => Sys2Proof.Machine.execQuantumExpiry c s
  | .noiseSeedaWrite c v => Sys2Proof.Machine.execNoiseSeedaWrite c v s
  | .noiseSeedbWrite c v => Sys2Proof.Machine.execNoiseSeedbWrite c v s
  | .noiseModeWrite c v => Sys2Proof.Machine.execNoiseModeWrite c v s
  | .seqLinesRepair c v => Sys2Proof.Machine.execSeqLinesRepair c v s
  | .schEndWrite c v => Sys2Proof.Machine.execSchEndWrite c v s
  | .shelfWindowWrite c shelf off size v => Sys2Proof.Machine.execShelfWindowWrite c shelf off size v s
  | .sysregWindowWrite c n v secure => Sys2Proof.Machine.execSysregWindowWrite c n v secure s
  | .fabMigreqRead c => Sys2Proof.Machine.execFabMigreqRead c s
  | .homeWriteArrives id => Sys2Proof.Machine.execHomeWriteArrives id s
  | .lineItemCommit id => Sys2Proof.Machine.execLineItemCommit id s
  | .homeRead r => Sys2Proof.Machine.execHomeRead r s
  | .homeAtomic id => Sys2Proof.Machine.execHomeAtomic id s
  | .homeCounterOp id => Sys2Proof.Machine.execHomeCounterOp id s
  | .sharerUpdate k => Sys2Proof.Machine.execSharerUpdate k s
  | .sharerInvalidate k => Sys2Proof.Machine.execSharerInvalidate k s
  | .writeAckArrives id => Sys2Proof.Machine.execWriteAckArrives id s
  | .releaseSend id => Sys2Proof.Machine.execReleaseSend id s
  | .ackTimeoutExpiry acc => Sys2Proof.Machine.execAckTimeoutExpiry acc s
  | .cwaitReadReturn c => Sys2Proof.Machine.execCwaitReadReturn c s
  | .monitorNotify c addr => Sys2Proof.Machine.execMonitorNotify c addr s
  | .monitorPoll c shelf => Sys2Proof.Machine.execMonitorPoll c shelf s
  | .cwaitSpinReread c => Sys2Proof.Machine.execCwaitSpinReread c s
  | .walkStart k => Sys2Proof.Machine.execWalkStart k s
  | .walkComplete k bad => Sys2Proof.Machine.execWalkComplete k bad s
  | .tlbiComplete id => Sys2Proof.Machine.execTlbiComplete id s
  | .launchPacketArrival bridge pkt => Sys2Proof.Machine.execLaunchPacketArrival bridge pkt s
  | .peerLaunchPacket path pkt => Sys2Proof.Machine.execPeerLaunchPacket path pkt s
  | .imageHeaderRead slot => Sys2Proof.Machine.execImageHeaderRead slot s
  | .batchHandoff slot c => Sys2Proof.Machine.execBatchHandoff slot c s
  | .schPartWrite part v => Sys2Proof.Machine.execSchPartWrite part v s
  | .taskAdmission c => Sys2Proof.Machine.execTaskAdmission c s
  | .taskStart c shelf => Sys2Proof.Machine.execTaskStart c shelf s
  | .evictionStart c shelf => Sys2Proof.Machine.execEvictionStart c shelf s
  | .evictionComplete c shelf => Sys2Proof.Machine.execEvictionComplete c shelf s
  | .readmission k c => Sys2Proof.Machine.execReadmission k c s
  | .migration c shelf => Sys2Proof.Machine.execMigration c shelf s
  | .haltComplete c shelf => Sys2Proof.Machine.execHaltComplete c shelf s
  | .strandEndError c shelf cause => Sys2Proof.Machine.execStrandEndError c shelf cause s
  | .atelierTakeover => Sys2Proof.Machine.execAtelierTakeover s
  | .copyCmdStart c id => Sys2Proof.Machine.execCopyCmdStart c id s
  | .spoolEntryLanded c id => Sys2Proof.Machine.execSpoolEntryLanded c id s
  | .copyCmdComplete c id => Sys2Proof.Machine.execCopyCmdComplete c id s
  | .completionAddSend c id => Sys2Proof.Machine.execCompletionAddSend c id s
  | .cubeCmdStart c id => Sys2Proof.Machine.execCubeCmdStart c id s
  | .cubeCmdComplete c id => Sys2Proof.Machine.execCubeCmdComplete c id s
  | .joinPointComplete c id => Sys2Proof.Machine.execJoinPointComplete c id s
  | .cubSkewWrite c v => Sys2Proof.Machine.execCubSkewWrite c v s
  | .cubSkewApply c => Sys2Proof.Machine.execCubSkewApply c s
  | .drainStart c id => Sys2Proof.Machine.execDrainStart c id s
  | .drainComplete c id => Sys2Proof.Machine.execDrainComplete c id s
  | .blkCmdPerform c id => Sys2Proof.Machine.execBlkCmdPerform c id s
  | .blkCmdComplete c id => Sys2Proof.Machine.execBlkCmdComplete c id s
  | .blkEnable c => Sys2Proof.Machine.execBlkEnable c s
  | .blkDisable c => Sys2Proof.Machine.execBlkDisable c s
  | .blkReady c => Sys2Proof.Machine.execBlkReady c s
  | .incomingPeerRequest peer kind dpa msg => Sys2Proof.Machine.execIncomingPeerRequest peer kind dpa msg s
  | .reductionPacketArrival peer pid addr op count v => Sys2Proof.Machine.execReductionPacketArrival peer pid addr op count v s
  | .flitReplay port => Sys2Proof.Machine.execFlitReplay port s
  | .replayWarning port => Sys2Proof.Machine.execReplayWarning port s
  | .portRetrain port lanes ok => Sys2Proof.Machine.execPortRetrain port lanes ok s
  | .portDown port => Sys2Proof.Machine.execPortDown port s
  | .fabDeadWrite k v => Sys2Proof.Machine.execFabDeadWrite k v s
  | .resetHandshakeReply peer => Sys2Proof.Machine.execResetHandshakeReply peer s
  | .resetHandshakeTimeout peer => Sys2Proof.Machine.execResetHandshakeTimeout peer s
  | .scrubLine c store outcome bit => Sys2Proof.Machine.execScrubLine c store outcome bit s
  | .conCelogRead c => Sys2Proof.Machine.execConCelogRead c s
  | .conUelogRead c => Sys2Proof.Machine.execConUelogRead c s
  | .conInjctlWrite c v => Sys2Proof.Machine.execConInjctlWrite c v s
  | .conInjaddrWrite c v => Sys2Proof.Machine.execConInjaddrWrite c v s
  | .selfTestStart c cls => Sys2Proof.Machine.execSelfTestStart c cls s
  | .selfTestResult c cls bad => Sys2Proof.Machine.execSelfTestResult c cls bad s
  | .conRetireFence c => Sys2Proof.Machine.execConRetireFence c s
  | .conRetireEvacuate c => Sys2Proof.Machine.execConRetireEvacuate c s
  | .evacGranuleCopied c => Sys2Proof.Machine.execEvacGranuleCopied c s
  | .conRetireFinish c => Sys2Proof.Machine.execConRetireFinish c s
  | .limiterPeriod c estimates => Sys2Proof.Machine.execLimiterPeriod c estimates s
  | .layerGate c l => Sys2Proof.Machine.execLayerGate c l s
  | .layerRampDone c l => Sys2Proof.Machine.execLayerRampDone c l s
  | .thermalSample c temps => Sys2Proof.Machine.execThermalSample c temps s
  | .thermalStepRaise c l => Sys2Proof.Machine.execThermalStepRaise c l s
  | .thermalStepLower c l => Sys2Proof.Machine.execThermalStepLower c l s
  | .migrationRequest c l => Sys2Proof.Machine.execMigrationRequest c l s
  | .capBroadcast bytes => Sys2Proof.Machine.execCapBroadcast bytes s
  | .governorPeriod powers => Sys2Proof.Machine.execGovernorPeriod powers s
  | .railOutOfRange mv => Sys2Proof.Machine.execRailOutOfRange mv s
  | .railPowerDown => Sys2Proof.Machine.execRailPowerDown s
  | .bridgeTripPowerDown heat => Sys2Proof.Machine.execBridgeTripPowerDown heat s
  | .packageReset flash => Sys2Proof.Machine.execPackageReset flash s
  | .gessoBootTests b => Sys2Proof.Machine.execGessoBootTests b s
  | .studioFirmwareStart image rt sec handlers => Sys2Proof.Machine.execStudioFirmwareStart image rt sec handlers s
  | .hostBar2Access op off size v => Sys2Proof.Machine.execHostBar2Access op off size v s
  | .hdmDecoderCommit place base len il => Sys2Proof.Machine.execHdmDecoderCommit place base len il s
  | .attestationRequest nonce => Sys2Proof.Machine.execAttestationRequest nonce s
  | .secDbgHalt c => Sys2Proof.Machine.execSecDbgHalt c s
  | .secDbgResume c => Sys2Proof.Machine.execSecDbgResume c s
  | .ckptGo v => Sys2Proof.Machine.execCkptGo v s
  | .ckptComplete ok => Sys2Proof.Machine.execCkptComplete ok s
  | .hostLinkDown up => Sys2Proof.Machine.execHostLinkDown up s
  | .resetMessageReceived peer => Sys2Proof.Machine.execResetMessageReceived peer s
  | .portTrained port ok => Sys2Proof.Machine.execPortTrained port ok s
  | .jireskoSessionSetup ok => Sys2Proof.Machine.execJireskoSessionSetup ok s

end Sys2Proof.Machine
end

