-- ==== Sys2Proof/Machine/Ports.lean ====
section
/-! DEFINITION. What a slot reads and writes, for the port limits and double writes of R42, the interlocks of R138 and the
guard of R39. -/
namespace Sys2Proof.Machine

/-- The registers of a slot. `sr` and `vr` are read through the register files' ports and counted, `qr` through the
queue-write path of the M and C units. `lr` are the latches it reads, and `pw` and `mw` the predicates and masks it writes
with their combine. -/
structure SlotUse where
  g : Option Guard
  sr : List SReg
  qr : List SReg
  sw : List SReg
  vr : List VReg
  vw : List VReg
  pw : List (PReg × Comb)
  mw : List (MReg × Comb)
  lr : List (BitVec 3)
deriving DecidableEq, Repr

def noUse : SlotUse := ⟨none, [], [], [], [], [], [], [], []⟩
def srcRegs : Src → List SReg
  | .reg r => [r]
  | .latch _ => []
def srcLats : Src → List (BitVec 3)
  | .reg _ => []
  | .latch n => [n]
def vsrcRegs : VSrc → List VReg
  | .reg r => [r]
  | .latch _ => []
def vsrcScalars : VSrc → List SReg
  | .reg r => [r.setWidth 6]
  | .latch _ => []
def vsrcLats : VSrc → List (BitVec 3)
  | .reg _ => []
  | .latch n => [n]
def destOf {α : Type} (m : Mods) (d : α) : List α := if m.nw then [] else [d]
/-- n registers of a group from r. -/
def groupRegs (r : SReg) (n : Nat) : List SReg := (List.range n).map fun k => r + BitVec.ofNat 6 k
/-- The five registers of a completion group, when field c is not zero (R298, R314). -/
def tailGroup (c : SReg) : List SReg := if c = 0 then [] else groupRegs c 5
def useG (g : Guard) : SlotUse := { noUse with g := some g }
/-- A scalar slot that reads some operands and writes some registers. -/
def useS (g : Guard) (os : List Src) (rs ds : List SReg) : SlotUse :=
  { noUse with g := some g, sr := os.flatMap srcRegs ++ rs, sw := ds, lr := os.flatMap srcLats }
/-- A scalar compare. -/
def useCmp (g : Guard) (c : Comb) (p q : PReg) (os : List Src) : SlotUse :=
  { useS g os [] [] with pw := [(p, c), (q, c)] }
/-- A vector slot that reads some vector operands and writes some registers. -/
def useV (os : List VSrc) (rs ds : List VReg) : SlotUse :=
  { noUse with vr := os.flatMap vsrcRegs ++ rs, vw := ds, lr := os.flatMap vsrcLats }
/-- A scalar operand or register added to a vector slot. -/
def SlotUse.andS (u : SlotUse) (os : List VSrc) (ds : List SReg) : SlotUse :=
  { u with sr := u.sr ++ os.flatMap vsrcScalars, lr := u.lr ++ os.flatMap vsrcLats, sw := u.sw ++ ds }
def SlotUse.andBase (u : SlotUse) (os : List Src) : SlotUse :=
  { u with sr := u.sr ++ os.flatMap srcRegs, lr := u.lr ++ os.flatMap srcLats }
/-- A slot of the M or C unit. -/
def useM (g : Guard) (qs ds : List SReg) : SlotUse := { noUse with g := some g, qr := qs, sw := ds }
/-- A vector compare (R208). -/
def useVcmp (n : MReg) (c : BitVec 2) (a b : VSrc) : SlotUse :=
  { useV [a, b] [] [] with
    mw := match c.toNat with
      | 0 => [(n, .plain)]
      | 1 => [(n, .plain), (n ^^^ 1, .plain)]
      | 2 => [(n, .and)]
      | _ => [(n, .or)] }
/-- A mask operation writes a mask. -/
def useMask (d : MReg) : SlotUse := { noUse with mw := [(d, .plain)] }

/-- The registers of an instruction. A step that is no slot has none. -/
def instrUse : Instr → SlotUse
  | .nop => noUse
  | .halt g => useG g
  | .yield g => useG g
  | .trap g _ => useG g
  | .eret g => useG g
  | .iflush g => useG g
  | .tlbi g d a _ => useS g [a] [d] []
  | .noise g d => useS g [] [] [d]
  | .cyc g d => useS g [] [] [d]
  | .self g d => useS g [] [] [d]
  | .brk g => useG g
  | .sysrd g d _ => useS g [] [] [d]
  | .syswr g s _ => useS g [] [s] []
  | .add g m d a b => useS g [a, b] [] (destOf m d)
  | .sub g m d a b => useS g [a, b] [] (destOf m d)
  | .and g m d a b => useS g [a, b] [] (destOf m d)
  | .or g m d a b => useS g [a, b] [] (destOf m d)
  | .xor g m d a b => useS g [a, b] [] (destOf m d)
  | .andn g m d a b => useS g [a, b] [] (destOf m d)
  | .orn g m d a b => useS g [a, b] [] (destOf m d)
  | .shl g m d a b => useS g [a, b] [] (destOf m d)
  | .shr g m d a b => useS g [a, b] [] (destOf m d)
  | .sar g m d a b => useS g [a, b] [] (destOf m d)
  | .rol g m d a b => useS g [a, b] [] (destOf m d)
  | .min g m d a b => useS g [a, b] [] (destOf m d)
  | .max g m d a b => useS g [a, b] [] (destOf m d)
  | .minn g m d a b => useS g [a, b] [] (destOf m d)
  | .maxn g m d a b => useS g [a, b] [] (destOf m d)
  | .ror g m d a b => useS g [a, b] [] (destOf m d)
  | .mul g m d a b => useS g [a, b] [] (destOf m d)
  | .mulh g m d a b => useS g [a, b] [] (destOf m d)
  | .mulhn g m d a b => useS g [a, b] [] (destOf m d)
  | .div g m d a b => useS g [a, b] [] (destOf m d)
  | .divn g m d a b => useS g [a, b] [] (destOf m d)
  | .rem g m d a b => useS g [a, b] [] (destOf m d)
  | .remn g m d a b => useS g [a, b] [] (destOf m d)
  | .popc g m d a => useS g [a] [] (destOf m d)
  | .clz g m d a => useS g [a] [] (destOf m d)
  | .ctz g m d a => useS g [a] [] (destOf m d)
  | .brev g m d a => useS g [a] [] (destOf m d)
  | .bswap g m d a => useS g [a] [] (destOf m d)
  | .abs g m d a => useS g [a] [] (destOf m d)
  | .sext g m d a b => useS g [a, b] [] (destOf m d)
  | .zext g m d a b => useS g [a, b] [] (destOf m d)
  | .bfxs g m d a b => useS g [a, b] [] (destOf m d)
  | .bfxn g m d a b => useS g [a, b] [] (destOf m d)
  | .bfi g m d a b => useS g [a, b] [d] (destOf m d)
  | .fshl g m d a b => useS g [a, b] [d] (destOf m d)
  | .fshr g m d a b => useS g [a, b] [d] (destOf m d)
  | .fadd g m d a b => useS g [a, b] [] (destOf m d)
  | .fsub g m d a b => useS g [a, b] [] (destOf m d)
  | .fmul g m d a b => useS g [a, b] [] (destOf m d)
  | .ffma g m d a b => useS g [a, b] [d] (destOf m d)
  | .fmin g m d a b => useS g [a, b] [] (destOf m d)
  | .fmax g m d a b => useS g [a, b] [] (destOf m d)
  | .fabs g m d a => useS g [a] [] (destOf m d)
  | .fneg g m d a => useS g [a] [] (destOf m d)
  | .fcvtif g m d a => useS g [a] [] (destOf m d)
  | .fcvtnf g m d a => useS g [a] [] (destOf m d)
  | .fcvtfi g m d a => useS g [a] [] (destOf m d)
  | .fcvtfn g m d a => useS g [a] [] (destOf m d)
  | .fsqrt g m d a => useS g [a] [] (destOf m d)
  | .addi g m d a _ => useS g [a] [] (destOf m d)
  | .andi g m d a _ => useS g [a] [] (destOf m d)
  | .ori g m d a _ => useS g [a] [] (destOf m d)
  | .xori g m d a _ => useS g [a] [] (destOf m d)
  | .shli g m d a _ => useS g [a] [] (destOf m d)
  | .shri g m d a _ => useS g [a] [] (destOf m d)
  | .sari g m d a _ => useS g [a] [] (destOf m d)
  | .muli g m d a _ => useS g [a] [] (destOf m d)
  | .movi g m d _ => useS g [] [] (destOf m d)
  | .movhi g m d _ => useS g [] [d] (destOf m d)
  | .cmpeq g _ ct p q a b => useCmp g ct p q [a, b]
  | .cmpeqImm g _ ct p q a _ => useCmp g ct p q [a]
  | .cmpne g _ ct p q a b => useCmp g ct p q [a, b]
  | .cmpneImm g _ ct p q a _ => useCmp g ct p q [a]
  | .cmplt g _ ct p q a b => useCmp g ct p q [a, b]
  | .cmpltImm g _ ct p q a _ => useCmp g ct p q [a]
  | .cmple g _ ct p q a b => useCmp g ct p q [a, b]
  | .cmpleImm g _ ct p q a _ => useCmp g ct p q [a]
  | .cmpltn g _ ct p q a b => useCmp g ct p q [a, b]
  | .cmpltnImm g _ ct p q a _ => useCmp g ct p q [a]
  | .cmplen g _ ct p q a b => useCmp g ct p q [a, b]
  | .cmplenImm g _ ct p q a _ => useCmp g ct p q [a]
  | .fcmpeq g _ ct p q a b => useCmp g ct p q [a, b]
  | .fcmplt g _ ct p q a b => useCmp g ct p q [a, b]
  | .fcmple g _ ct p q a b => useCmp g ct p q [a, b]
  | .fcmpun g _ ct p q a b => useCmp g ct p q [a, b]
  | .br g _ => useS g [] [] []
  | .brl g _ => useS g [] [] [63]
  | .jr g a => useS g [a] [] []
  | .jrl g a => useS g [a] [] [63]
  | .pand g d _ _ => { useG g with pw := [(d, .plain)] }
  | .por g d _ _ => { useG g with pw := [(d, .plain)] }
  | .pxor g d _ _ => { useG g with pw := [(d, .plain)] }
  | .pandn g d _ _ => { useG g with pw := [(d, .plain)] }
  | .pmovs g a => { useS g [a] [] [] with pw := (List.range 7).map fun k => (BitVec.ofNat 3 (k + 1), .plain) }
  | .pmovp g d => useS g [] [] [d]
  | .lpop g => useG g
  | .loop g c _ => useS g [] [c] []
  | .loopi g _ _ => useG g
  | .ld g nw d base _ _ _ => useS g [base] [] (if nw then [] else [d])
  | .st g data base _ _ _ _ => useS g [base] [data] []
  | .amoAdd g d a b => useS g [a, b] [] [d]
  | .amoAnd g d a b => useS g [a, b] [] [d]
  | .amoOr g d a b => useS g [a, b] [] [d]
  | .amoXor g d a b => useS g [a, b] [] [d]
  | .amoMin g d a b => useS g [a, b] [] [d]
  | .amoMax g d a b => useS g [a, b] [] [d]
  | .amoMinn g d a b => useS g [a, b] [] [d]
  | .amoMaxn g d a b => useS g [a, b] [] [d]
  | .amoSwap g d a b => useS g [a, b] [] [d]
  | .amoCas g d a b => useS g [a, b] (match b with | .reg r => [r + 1] | .latch _ => [1]) [d]
  | .amowAdd g d a b => useS g [a, b] [] [d]
  | .amowAnd g d a b => useS g [a, b] [] [d]
  | .amowOr g d a b => useS g [a, b] [] [d]
  | .amowXor g d a b => useS g [a, b] [] [d]
  | .amowMin g d a b => useS g [a, b] [] [d]
  | .amowMax g d a b => useS g [a, b] [] [d]
  | .amowMinn g d a b => useS g [a, b] [] [d]
  | .amowMaxn g d a b => useS g [a, b] [] [d]
  | .amowSwap g d a b => useS g [a, b] [] [d]
  | .amowCas g d a b => useS g [a, b] (match b with | .reg r => [r + 1] | .latch _ => [1]) [d]
  | .amowFadd g d a b => useS g [a, b] [] [d]
  | .amowFmax g d a b => useS g [a, b] [] [d]
  | .redAdd g _ _ a b => useS g [a, b] [] []
  | .redAnd g _ _ a b => useS g [a, b] [] []
  | .redOr g _ _ a b => useS g [a, b] [] []
  | .redXor g _ _ a b => useS g [a, b] [] []
  | .redMin g _ _ a b => useS g [a, b] [] []
  | .redMax g _ _ a b => useS g [a, b] [] []
  | .redMinn g _ _ a b => useS g [a, b] [] []
  | .redMaxn g _ _ a b => useS g [a, b] [] []
  | .redFadd g _ a b => useS g [a, b] [] []
  | .redFmax g _ a b => useS g [a, b] [] []
  | .cadd g _ _ a b _ _ => useS g [a, b] [] []
  | .cmax g _ _ a b _ _ => useS g [a, b] [] []
  | .cwait g d a b _ _ _ => useS g [a, b] [] [d]
  | .crd g d a _ _ => useS g [a] [] [d]
  | .fence g _ _ => useG g
  | .qfence g _ => useG g
  | .bind g d a b => useS g [a, b] [d] []
  | .unbind g d a b => useS g [a, b] [d] []
  | .join g d a => useS g [a] [] [d]
  | .leave g d a => useS g [a] [] [d]
  | .launch g d a b => useS g [a, b] [] [d]
  | .trninfo g d a => useS g [a] [] [d]
  | .vadd _ _ m d a b _ => useV [a, b] [] (destOf m d)
  | .vsub _ _ m d a b _ => useV [a, b] [] (destOf m d)
  | .vadds _ _ m d a b _ => useV [a, b] [] (destOf m d)
  | .vsubs _ _ m d a b _ => useV [a, b] [] (destOf m d)
  | .vaddsn _ _ m d a b _ => useV [a, b] [] (destOf m d)
  | .vsubsn _ _ m d a b _ => useV [a, b] [] (destOf m d)
  | .vmul _ _ m d a b _ => useV [a, b] [] (destOf m d)
  | .vmulh _ _ m d a b _ => useV [a, b] [] (destOf m d)
  | .vmulhn _ _ m d a b _ => useV [a, b] [] (destOf m d)
  | .vmin _ _ m d a b _ => useV [a, b] [] (destOf m d)
  | .vmax _ _ m d a b _ => useV [a, b] [] (destOf m d)
  | .vminn _ _ m d a b _ => useV [a, b] [] (destOf m d)
  | .vmaxn _ _ m d a b _ => useV [a, b] [] (destOf m d)
  | .vabs _ _ m d a _ => useV [a] [] (destOf m d)
  | .vneg _ _ m d a _ => useV [a] [] (destOf m d)
  | .vavgn _ _ m d a b _ => useV [a, b] [] (destOf m d)
  | .vand _ _ m d a b _ => useV [a, b] [] (destOf m d)
  | .vor _ _ m d a b _ => useV [a, b] [] (destOf m d)
  | .vxor _ _ m d a b _ => useV [a, b] [] (destOf m d)
  | .vandn _ _ m d a b _ => useV [a, b] [] (destOf m d)
  | .vnot _ _ m d a _ => useV [a] [] (destOf m d)
  | .vshl _ _ m d a b _ => useV [a, b] [] (destOf m d)
  | .vshr _ _ m d a b _ => useV [a, b] [] (destOf m d)
  | .vsar _ _ m d a b _ => useV [a, b] [] (destOf m d)
  | .vrol _ _ m d a b _ => useV [a, b] [] (destOf m d)
  | .vbfxs _ _ m d a b _ => useV [a, b] [] (destOf m d)
  | .vbfxn _ _ m d a b _ => useV [a, b] [] (destOf m d)
  | .vbfi _ _ m d a b _ => useV [a, b] [d] (destOf m d)
  | .vpopc _ _ m d a _ => useV [a] [] (destOf m d)
  | .vclz _ _ m d a _ => useV [a] [] (destOf m d)
  | .vfadd _ _ m d a b _ => useV [a, b] [] (destOf m d)
  | .vfsub _ _ m d a b _ => useV [a, b] [] (destOf m d)
  | .vfmul _ _ m d a b _ => useV [a, b] [] (destOf m d)
  | .vffma _ _ m d a b _ => useV [a, b] [d] (destOf m d)
  | .vfmin _ _ m d a b _ => useV [a, b] [] (destOf m d)
  | .vfmax _ _ m d a b _ => useV [a, b] [] (destOf m d)
  | .vfabs _ _ m d a _ => useV [a] [] (destOf m d)
  | .vfneg _ _ m d a _ => useV [a] [] (destOf m d)
  | .vfcpsgn _ _ m d a b _ => useV [a, b] [] (destOf m d)
  | .vfmaxabs _ _ m d a b _ => useV [a, b] [] (destOf m d)
  | .vexp2 _ _ m d a _ => useV [a] [] (destOf m d)
  | .vlog2 _ _ m d a _ => useV [a] [] (destOf m d)
  | .vrcp _ _ m d a _ => useV [a] [] (destOf m d)
  | .vrsq _ _ m d a _ => useV [a] [] (destOf m d)
  | .vsqrt _ _ m d a _ => useV [a] [] (destOf m d)
  | .vtanh _ _ m d a _ => useV [a] [] (destOf m d)
  | .vsigm _ _ m d a _ => useV [a] [] (destOf m d)
  | .vcmpeq _ _ _ n c a b _ => useVcmp n c a b
  | .vcmpne _ _ _ n c a b _ => useVcmp n c a b
  | .vcmplt _ _ _ n c a b _ => useVcmp n c a b
  | .vcmple _ _ _ n c a b _ => useVcmp n c a b
  | .vcmpltn _ _ _ n c a b _ => useVcmp n c a b
  | .vcmplen _ _ _ n c a b _ => useVcmp n c a b
  | .vfcmpeq _ _ _ n c a b _ => useVcmp n c a b
  | .vfcmplt _ _ _ n c a b _ => useVcmp n c a b
  | .vfcmple _ _ _ n c a b _ => useVcmp n c a b
  | .vfcmpun _ _ _ n c a b _ => useVcmp n c a b
  | .mand _ _ d _ _ => useMask d
  | .mor _ _ d _ _ => useMask d
  | .mxor _ _ d _ _ => useMask d
  | .mandn _ _ d _ _ => useMask d
  | .mnot _ _ d _ => useMask d
  | .mpop _ _ _ d _ _ => noUse.andS [] [d.setWidth 6]
  | .mfirst _ _ _ d _ _ => noUse.andS [] [d.setWidth 6]
  | .mfroms _ _ d a _ => (useMask d).andS [a] []
  | .mlanes _ _ d a _ => (useMask d).andS [a] []
  | .vperm _ _ m d a b _ => useV [a, b] [] (destOf m d)
  | .vbcast _ _ m d a b _ => (useV [a] [] (destOf m d)).andS [b] []
  | .vext _ _ d a b _ => (useV [a] [] []).andS [b] [d.setWidth 6]
  | .vins _ _ m d a b _ => (useV [] [] (destOf m d)).andS [a, b] []
  | .vcompress _ _ m d a b _ => (useV [a] [] (destOf m d)).andS [] [b.setWidth 6]
  | .vexpand _ _ m d a _ => useV [a] [] (destOf m d)
  | .vslideup _ _ m d a b _ => (useV [a] [] (destOf m d)).andS [b] []
  | .vslidedn _ _ m d a b _ => (useV [a] [] (destOf m d)).andS [b] []
  | .vzipl _ _ m d a b _ => useV [a, b] [] (destOf m d)
  | .vziph _ _ m d a b _ => useV [a, b] [] (destOf m d)
  | .vunzipe _ _ m d a b _ => useV [a, b] [] (destOf m d)
  | .vunzipo _ _ m d a b _ => useV [a, b] [] (destOf m d)
  | .viota _ _ m d _ => useV [] [] (destOf m d)
  | .vrev _ _ m d a _ => useV [a] [] (destOf m d)
  | .vredadd _ _ m d a _ => useV [a] [] (destOf m d)
  | .vredmin _ _ m d a _ => useV [a] [] (destOf m d)
  | .vredmax _ _ m d a _ => useV [a] [] (destOf m d)
  | .vredminn _ _ m d a _ => useV [a] [] (destOf m d)
  | .vredmaxn _ _ m d a _ => useV [a] [] (destOf m d)
  | .vfredadd _ _ m d a _ => useV [a] [] (destOf m d)
  | .vfredmin _ _ m d a _ => useV [a] [] (destOf m d)
  | .vfredmax _ _ m d a _ => useV [a] [] (destOf m d)
  | .vcvt _ _ m d a _ _ _ => useV [a] [] (destOf m d)
  | .vcvtsr _ _ m d a _ _ _ => useV [a] [] (destOf m d)
  | .vqmx8 _ _ m d a b => (useV [a] [] (destOf m d)).andS [] [b.setWidth 6]
  | .vqmx6 _ _ m d a b => (useV [a] [] (destOf m d)).andS [] [b.setWidth 6]
  | .vqmx4 _ _ m d a b => (useV [a] [] (destOf m d)).andS [] [b.setWidth 6]
  | .vdqmx8 _ _ m d a b => (useV [a] [] (destOf m d)).andS [b] []
  | .vdqmx6 _ _ m d a b => (useV [a] [] (destOf m d)).andS [b] []
  | .vdqmx4 _ _ m d a b => (useV [a] [] (destOf m d)).andS [b] []
  | .vqmx8sr _ _ m d a b => (useV [a] [] (destOf m d)).andS [] [b.setWidth 6]
  | .vqmx6sr _ _ m d a b => (useV [a] [] (destOf m d)).andS [] [b.setWidth 6]
  | .vqmx4sr _ _ m d a b => (useV [a] [] (destOf m d)).andS [] [b.setWidth 6]
  | .vld _ _ d base => (useV [] [] [d]).andBase [base]
  | .vldStrided _ _ d base stride => (useV [] [] [d]).andBase [base, stride]
  | .vldGather _ _ d base idx => (useV [idx] [] [d]).andBase [base]
  | .vldStrided16 _ _ d base stride => (useV [] [] [d]).andBase [base, stride]
  | .vst _ _ d base _ => (useV [] [d] []).andBase [base]
  | .vstStrided _ _ d base stride _ => (useV [] [d] []).andBase [base, stride]
  | .vstScatter _ _ d base idx _ => (useV [idx] [d] []).andBase [base]
  | .vstStrided16 _ _ d base stride _ => (useV [] [d] []).andBase [base, stride]
  | .vmov _ _ m d a _ => useV [a] [] (destOf m d)
  | .vsel _ _ m d a b _ => useV [a, b] [] (destOf m d)
  | .vsplati _ _ m d _ _ => useV [] [] (destOf m d)
  | .vnoise _ _ m d _ => useV [] [] (destOf m d)
  | .vdot4 _ _ m d a b => useV [a, b] [d] (destOf m d)
  | .vdot4n _ _ m d a b => useV [a, b] [d] (destOf m d)
  | .vdot2 _ _ m d a b => useV [a, b] [d] (destOf m d)
  | .vdot2h _ _ m d a b => useV [a, b] [d] (destOf m d)
  | .cmma g a b _ _ _ => useM g [a, b] []
  | .cmmaMsk g a b c _ _ _ => useM g (a :: b :: groupRegs c 3) []
  | .crotH32 g a => useM g [a] []
  | .crotH64 g a => useM g [a] []
  | .cdrain g a b c => useM g (a :: b :: tailGroup c) []
  | .cdrainP g a b c => useM g (a :: b :: tailGroup c) []
  | .caccZero g a c => useM g (a :: tailGroup c) []
  | .caccLd g a b c => useM g (a :: b :: tailGroup c) []
  | .caccSt g a b c => useM g (a :: b :: tailGroup c) []
  | .caccMove g a b c => useM g (a :: b :: tailGroup c) []
  | .csplDef g a b c => useM g [a, b, c] []
  | .csplAdvp g a b => useM g [a, b] []
  | .csplAdvc g a b => useM g [a, b] []
  | .csplRdp g a b => useM g [b] [a]
  | .csplReset g a => useM g [a] []
  | .cpalSet g a b => useM g [a, b] []
  | .cpalGet g a b => useM g [b] [a]
  | .csyncJoin g a b c => useM g [a, b, c] []
  | .csyncStat g a => useM g [] [a]
  | .csyncSkew g a => useM g [a] []
  | .crcpDef g a b c => useM g [a, b, c] []
  | .crcpGet g a b => useM g [b] [a]
  | .cpyLin g a b c _ => useM g (b :: c :: groupRegs a 4) []
  | .cpyTwod g a b c _ => useM g (b :: c :: groupRegs a 4) []
  | .cpyThreed g a b c _ => useM g (b :: c :: groupRegs a 6) []
  | .cpyFill g a b c _ => useM g (b :: c :: groupRegs a 4) []
  | .cpyLsplit g a b c _ => useM g (b :: c :: groupRegs a 4) []
  | .cpyLgath g a b c _ => useM g (b :: c :: groupRegs a 4) []
  | .cpyMcast g a b c _ => useM g (b :: c :: groupRegs a 4) []
  | .cpyPfetch g a b c _ => useM g (b :: c :: groupRegs a 4) []
  | .cgthGather g a b c _ => useM g (b :: c :: groupRegs a 4) []
  | .cgthScatter g a b c _ => useM g (b :: c :: groupRegs a 4) []
  | .cgthGatheradd g a b c _ => useM g (b :: c :: groupRegs a 4) []
  | .credAddf32 g a b c _ => useM g (b :: c :: groupRegs a 4) []
  | .credAddbf16 g a b c _ => useM g (b :: c :: groupRegs a 4) []
  | .credMaxf32 g a b c _ => useM g (b :: c :: groupRegs a 4) []
  | .credAddi32 g a b c _ => useM g (b :: c :: groupRegs a 4) []
  | .blkAlloc g a b c => useM g (b :: c :: groupRegs a 4) []
  | .blkFree g a b c => useM g (b :: c :: groupRegs a 4) []
  | .blkShare g a b c => useM g (b :: c :: groupRegs a 4) []
  | .blkXlate g a b c => useM g (b :: c :: groupRegs a 4) []
  | .blkFetch g a b c => useM g (b :: c :: groupRegs a 4) []
  | .blkAppend g a b c => useM g (b :: c :: groupRegs a 4) []
  | .blkStat g a b c => useM g (b :: c :: groupRegs a 4) []
  | _ => noUse

end Sys2Proof.Machine
end

