-- ==== Sys2Proof/Machine/Legal.lean ====
section
/-! DEFINITION. A fetched bundle: its slots and extension bytes (R33, R34), the units that its slots address (R33, R41), when
it is illegal (R42, R43), and the capability classes of its slots (R49). -/
namespace Sys2Proof.Machine

/-! ### Slots -/

def bundleWord (b : Bundle) (n : Nat) : BitVec 32 := b.extractLsb' (32 * n) 32
def majorOf (w : BitVec 32) : Nat := (w.extractLsb' 26 6).toNat
/-- Slot 0 is a header (R34). -/
def hasHeader (b : Bundle) : Bool := majorOf (bundleWord b 0) == 0x3F
/-- The extension byte of a slot. -/
def bundleExt (b : Bundle) (n : Nat) : BitVec 8 :=
  if hasHeader b && decide (1 ≤ n) then (bundleWord b 0).extractLsb' (8 * (3 - n)) 8 else 0
/-- A slot of a bundle with the instruction that it stands for, if any. -/
structure Slot where
  n : Nat
  word : BitVec 32
  ins : Option Instr
deriving DecidableEq, Repr
/-- The slots that carry instructions: all four, or the three behind a header. -/
def slotNumbers (b : Bundle) : List Nat := if hasHeader b then [1, 2, 3] else [0, 1, 2, 3]
noncomputable def slotsOf (b : Bundle) : List Slot :=
  (slotNumbers b).map fun n => ⟨n, bundleWord b n, decodeSlot (bundleWord b n) (bundleExt b n)⟩

/-! ### Units (R33, R41) -/

inductive SlotUnit where
  | none | s | v0 | v1 | m | c
deriving DecidableEq, Repr
/-- A `nop` takes no unit (log entry 10). -/
def Slot.isNop (s : Slot) : Bool := s.ins == some .nop
def Slot.isV (s : Slot) : Bool := decide (0x20 ≤ majorOf s.word) && decide (majorOf s.word ≤ 0x2D)
def Slot.isVst (s : Slot) : Bool := majorOf s.word == 0x2B
/-- The units that V slots other than stores name. -/
def namedUnits (ss : List Slot) : List Bool := (ss.filter fun s => s.isV && !s.isVst).map fun s => s.word.getLsbD 22
/-- The unit of the k-th VST of a bundle: one that no other V slot names, V0 before V1. -/
def vstUnitOf (ss : List Slot) (k : Nat) : Bool := ([false, true].filter fun u => !(namedUnits ss).contains u).getD k false
def vstRank (ss : List Slot) (s : Slot) : Nat := (ss.filter fun t => t.isVst && decide (t.n < s.n)).length
def Slot.unit (ss : List Slot) (s : Slot) : SlotUnit :=
  let m := majorOf s.word
  if s.word = 0 ∨ s.isNop then .none
  else if m < 0x20 then .s
  else if m < 0x2E then
    (if (if s.isVst then vstUnitOf ss (vstRank ss s) else s.word.getLsbD 22) then .v1 else .v0)
  else if 0x30 ≤ m ∧ m < 0x38 then .m
  else if 0x38 ≤ m ∧ m < 0x3C then .c
  else .none

/-! ### Legality (R42) -/

def Slot.use (s : Slot) : SlotUse := match s.ins with | some i => instrUse i | none => noUse
/-- Scalar registers counted at the read and the write ports. -/
def Slot.reads (s : Slot) : List SReg := s.use.sr.filter (· != 0)
def Slot.writes (s : Slot) : List SReg := s.use.sw.filter (· != 0)
def distinct {α : Type} [DecidableEq α] (l : List α) : Nat := l.eraseDups.length
/-- The slots of some property, when more than n stand in the bundle. -/
def tooMany (n : Nat) (ss : List Slot) : List Slot := if n < ss.length then ss else []
/-- Two writes of predicates or masks conflict unless both are of the AND family or both of the OR family. -/
def combClash (a b : Comb) : Bool := !(a == .and && b == .and) && !(a == .or && b == .or)
def clashes {α : Type} [DecidableEq α] (zero : List α) (xs ys : List (α × Comb)) : Bool :=
  xs.any fun x => ys.any fun y => x.1 == y.1 && !zero.contains x.1 && combClash x.2 y.2
/-- Two slots write one register, mask or predicate. -/
def doubleWrite (a b : SlotUse) : Bool :=
  a.sw.any (fun r => r != 0 && b.sw.contains r) || a.vw.any (fun r => b.vw.contains r) ||
  clashes [0] a.pw b.pw || clashes [] a.mw b.mw
/-- A compare into m0, or into one predicate twice. -/
def ownClash (u : SlotUse) : Bool :=
  u.mw.any (fun x => x.1 == 0) ||
  match u.pw with
  | [a, b] => a.1 == b.1 && a.1 != 0 && combClash a.2 b.2
  | _ => false
/-- The offending slots: the union over the conditions of R42. By its words an S-major slot is one of at most one, so that the
printed example `addi || vadd || ld` is illegal (DEDUCED, log entry 130). -/
def offending (b : Bundle) (ss : List Slot) : BitVec 4 :=
  let of (u : SlotUnit) : List Slot := ss.filter fun s => s.unit ss == u
  let readers := ss.filter fun s => !s.reads.isEmpty && s.unit ss != .m && s.unit ss != .c
  let writers := ss.filter fun s => !s.writes.isEmpty
  let vr := ss.filter fun s => !s.use.vr.isEmpty
  let vw := ss.filter fun s => !s.use.vw.isEmpty
  let bad : List Slot :=
    (ss.filter fun s => s.ins.isNone) ++ tooMany 1 (of .s) ++ tooMany 1 (of .m) ++ tooMany 2 (of .c) ++
    tooMany 1 (of .v0) ++ tooMany 1 (of .v1) ++
    (if 6 < distinct (readers.flatMap Slot.reads) then readers else []) ++
    (if 3 < distinct (writers.flatMap Slot.writes) then writers else []) ++
    (if 6 < distinct (vr.flatMap fun s => s.use.vr) then vr else []) ++
    (if 3 < distinct (vw.flatMap fun s => s.use.vw) then vw else []) ++
    (ss.filter fun s => ownClash s.use || ss.any fun t => t.n != s.n && doubleWrite s.use t.use)
  let head : BitVec 4 := if hasHeader b && (bundleWord b 0).extractLsb' 24 2 != 0 then 1 else 0
  bad.foldl (fun a s => a ||| BitVec.twoPow 4 s.n) head

/-! ### Capability classes that the encoding decides (R49) -/

/-- The class of a slot value; none for CMMA, whose class is found when it starts. -/
def classOf (w : BitVec 32) : Option Nat :=
  let m := majorOf w
  let fn := (w.extractLsb' 0 4).toNat
  if m ≤ 2 then some 0
  else if m = 3 then some (if fn ≤ 6 then 1 else 2)
  else if m = 4 then some 2
  else if m = 5 then some 3
  else if m = 6 then some (if (w.extractLsb' 7 3).toNat = 7 then 1 else 0)
  else if m ≤ 0x0E then some 0
  else if m ≤ 0x10 then some 3
  else if m ≤ 0x17 then some 0
  else if m ≤ 0x1A then some 4
  else if m ≤ 0x1E then some 5
  else if m = 0x1F then some (if fn ≤ 1 then 0 else 5)
  else if m ≤ 0x21 then some 6
  else if m = 0x22 then some 7
  else if m = 0x23 then some 8
  else if m = 0x24 then some (if fn ≤ 5 then 6 else 7)
  else if m = 0x25 then some 6
  else if m = 0x26 then some 9
  else if m = 0x27 then some (if fn ≤ 4 then 6 else 7)
  else if m = 0x28 then some 10
  else if m = 0x29 then some 11
  else if m ≤ 0x2B then some 13
  else if m = 0x2C then some (if fn = 3 then 10 else 6)
  else if m = 0x2D then some 12
  else if m = 0x30 then none
  else if m = 0x31 then some 21
  else if m = 0x32 ∨ m = 0x33 ∨ m = 0x37 then some 22
  else if m ≤ 0x36 then some 0
  else if m = 0x38 then some 24
  else if m = 0x39 then some 25
  else if m = 0x3A then some 26
  else if m = 0x3B then some 27
  else none
/-- The unit of a word checks a residue (R156): the S multiplier and divider, the scalar FPU, and the multiply and dot paths of
the V units. -/
def residueUnit (w : BitVec 32) : Bool :=
  let m := majorOf w
  let fn := (w.extractLsb' 0 4).toNat
  classOf w == some 1 || classOf w == some 3 || (m == 0x20 && decide (6 ≤ fn) && decide (fn ≤ 8)) ||
    (m == 0x22 && (fn == 2 || fn == 3)) || m == 0x2D

end Sys2Proof.Machine
end

