-- ==== Sys2Proof/Machine/Issue.lean ====
section
/-! DEFINITION. The issue of a bundle (R133 to R144, R147, R148, R157 to R161): the tests of R44 in their order, the stalls of
R139, the slots one after another, and what takes effect when the bundle has committed. -/
namespace Sys2Proof.Machine

/-! ### The slots of a bundle at issue -/

/-- A slot executes: its guard holds, or it has none (R39). -/
def Slot.executes (x : Ctx) (sl : Slot) : Bool := match sl.use.g with | some g => x.guard g | none => true
def vstOnV1 (ss : List Slot) (sl : Slot) : Bool := match sl.unit ss with | .v1 => true | _ => false
/-- The state in which a slot is tested and executed: its number, its unit and its class stand in the bundle's state. -/
def atSlot (s : State) (ss : List Slot) (sl : Slot) : State :=
  s.modBundle fun b =>
    { b with slot := BitVec.ofNat 2 sl.n, vstUnit := vstOnV1 ss sl, cls := (classOf sl.word).getD 0
             chk := residueUnit sl.word
             port := match sl.unit ss with | .v0 => 2 | .v1 => 3 | _ => 1 }

/-! ### Traps of a slot (R44) -/

/-- A privileged encoding, or a register number that the mode may not read or write. -/
def lacksPrivilege (m : Mode) : Instr → Bool
  | .eret _ => m == .task
  | .tlbi .. => m == .task
  | .csyncSkew .. => m == .task
  | .sysrd _ _ n => readTraps m n.toNat
  | .syswr _ _ n => writeTraps m n.toNat
  | _ => false
/-- Whether F.REM apart the class of a slot is fenced (R49). -/
def classFenced (k : Cube) (sl : Slot) : Bool :=
  match classOf sl.word with
  | some c => !k.hw.caps.getLsbD c
  | none => false
/-- The execution trap of a slot, on the state as the bundle finds it. -/
def slotTrap (s : State) : Instr → Option Trap
  | .jr _ a => jumpTrap s a
  | .jrl _ a => jumpTrap s a
  | .loop _ c _ => loopTrap s (s.ctx.s c).toNat
  | .loopi _ n _ => loopTrap s n.toNat
  | .ld _ _ _ base z _ off => trapIn (ldCheck s base z off)
  | .st _ _ base z _ line off => trapIn (stCheck s base z line off)
  | .amoAdd _ _ a _ => trapIn (amoCheck s false true .add a)
  | .amoAnd _ _ a _ => trapIn (amoCheck s false true .and a)
  | .amoOr _ _ a _ => trapIn (amoCheck s false true .or a)
  | .amoXor _ _ a _ => trapIn (amoCheck s false true .xor a)
  | .amoMin _ _ a _ => trapIn (amoCheck s false true .min a)
  | .amoMax _ _ a _ => trapIn (amoCheck s false true .max a)
  | .amoMinn _ _ a _ => trapIn (amoCheck s false true .minn a)
  | .amoMaxn _ _ a _ => trapIn (amoCheck s false true .maxn a)
  | .amoSwap _ _ a _ => trapIn (amoCheck s false true .swap a)
  | .amoCas _ _ a _ => trapIn (amoCheck s false true .cas a)
  | .amowAdd _ _ a _ => trapIn (amoCheck s false false .add a)
  | .amowAnd _ _ a _ => trapIn (amoCheck s false false .and a)
  | .amowOr _ _ a _ => trapIn (amoCheck s false false .or a)
  | .amowXor _ _ a _ => trapIn (amoCheck s false false .xor a)
  | .amowMin _ _ a _ => trapIn (amoCheck s false false .min a)
  | .amowMax _ _ a _ => trapIn (amoCheck s false false .max a)
  | .amowMinn _ _ a _ => trapIn (amoCheck s false false .minn a)
  | .amowMaxn _ _ a _ => trapIn (amoCheck s false false .maxn a)
  | .amowSwap _ _ a _ => trapIn (amoCheck s false false .swap a)
  | .amowCas _ _ a _ => trapIn (amoCheck s false false .cas a)
  | .amowFadd _ _ a _ => trapIn (amoCheck s false false .fadd a)
  | .amowFmax _ _ a _ => trapIn (amoCheck s false false .fmax a)
  | .redAdd _ _ z a _ => trapIn (amoCheck s true z .add a)
  | .redAnd _ _ z a _ => trapIn (amoCheck s true z .and a)
  | .redOr _ _ z a _ => trapIn (amoCheck s true z .or a)
  | .redXor _ _ z a _ => trapIn (amoCheck s true z .xor a)
  | .redMin _ _ z a _ => trapIn (amoCheck s true z .min a)
  | .redMax _ _ z a _ => trapIn (amoCheck s true z .max a)
  | .redMinn _ _ z a _ => trapIn (amoCheck s true z .minn a)
  | .redMaxn _ _ z a _ => trapIn (amoCheck s true z .maxn a)
  | .redFadd _ _ a _ => trapIn (amoCheck s true false .fadd a)
  | .redFmax _ _ a _ => trapIn (amoCheck s true false .fmax a)
  | .cadd _ line _ a _ _ _ => trapIn (counterCheck s false line a)
  | .cmax _ line _ a _ _ _ => trapIn (counterCheck s true line a)
  | .cwait _ _ a _ _ _ _ => match s.ctx.wait with | .none => trapIn (counterReadCheck s a) | _ => none
  | .crd _ _ a _ _ => trapIn (counterReadCheck s a)
  | .bind _ d a b => bindTrap s d a b
  | .join _ _ a => trapIn (trainCheck s a)
  | .leave _ _ a => trapIn (trainCheck s a)
  | .trninfo _ _ a => trapIn (trainCheck s a)
  | .launch _ _ a b => trapIn (launchCheck s a b)
  | .vld k _ _ base => vldCheck s k base .contig
  | .vldStrided k _ _ base stride => vldCheck s k base (.strided 4 (s.ctx.src stride))
  | .vldGather k _ _ base idx => vldCheck s k base (.indexed (s.ctx.vsrc 4 idx))
  | .vldStrided16 k _ _ base stride => vldCheck s k base (.strided 2 (s.ctx.src stride))
  | .vst k _ _ base line => vstCheck s k base .contig line
  | .vstStrided k _ _ base stride line => vstCheck s k base (.strided 4 (s.ctx.src stride)) line
  | .vstScatter k _ _ base idx line => vstCheck s k base (.indexed (s.ctx.vsrc 4 idx)) line
  | .vstStrided16 k _ _ base stride line => vstCheck s k base (.strided 2 (s.ctx.src stride)) line
  | .csplDef _ a b c => csplDefTrap s a b c
  | .csplAdvp _ a b => csplAdvpTrap s a b
  | .csplAdvc _ a b => csplAdvcTrap s a b
  | .csplRdp _ _ b => csplRdpTrap s b
  | .csplReset _ a => csplResetTrap s a
  | .cpalSet _ a b => cpalSetTrap s a b
  | .cpalGet _ _ b => cpalGetTrap s b
  | .crcpDef _ a b c => crcpDefTrap s a b c
  | .crcpGet _ _ b => crcpGetTrap s b
  | _ => none

/-! ### Memory accesses of a slot: addresses, and whether it reads or writes -/

inductive MemKind where
  | none | load | store | both
deriving DecidableEq, Repr
/-- How a slot accesses memory, for the fences of R122 and R196. -/
def memKind : Instr → MemKind
  | .ld .. => .load
  | .crd .. => .load
  | .cwait .. => .load
  | .vld .. => .load
  | .vldStrided .. => .load
  | .vldGather .. => .load
  | .vldStrided16 .. => .load
  | .st .. => .store
  | .cadd .. => .store
  | .cmax .. => .store
  | .vst .. => .store
  | .vstStrided .. => .store
  | .vstScatter .. => .store
  | .vstStrided16 .. => .store
  | .redAdd .. => .store
  | .redAnd .. => .store
  | .redOr .. => .store
  | .redXor .. => .store
  | .redMin .. => .store
  | .redMax .. => .store
  | .redMinn .. => .store
  | .redMaxn .. => .store
  | .redFadd .. => .store
  | .redFmax .. => .store
  | .amoAdd .. => .both
  | .amoAnd .. => .both
  | .amoOr .. => .both
  | .amoXor .. => .both
  | .amoMin .. => .both
  | .amoMax .. => .both
  | .amoMinn .. => .both
  | .amoMaxn .. => .both
  | .amoSwap .. => .both
  | .amoCas .. => .both
  | .amowAdd .. => .both
  | .amowAnd .. => .both
  | .amowOr .. => .both
  | .amowXor .. => .both
  | .amowMin .. => .both
  | .amowMax .. => .both
  | .amowMinn .. => .both
  | .amowMaxn .. => .both
  | .amowSwap .. => .both
  | .amowCas .. => .both
  | .amowFadd .. => .both
  | .amowFmax .. => .both
  | .join .. => .both
  | .leave .. => .both
  | .trninfo .. => .both
  | .launch .. => .both
  | _ => .none
/-- The addresses that a vector access reaches: its active elements. -/
def vecSpans (s : State) (k : MReg) (base : Src) (md : VMode) : List (VA × Nat) :=
  (vElems s.ctx k (s.ctx.src base) md).map fun e => (e.2, md.bytes)
/-- The spans of memory that a slot reaches, each within one granule. -/
def memSpans (s : State) (i : Instr) : List (VA × Nat) :=
  let x := s.ctx
  match i with
  | .ld _ _ _ base z _ off => [(effAddr x base off.toInt z.bytes, z.bytes)]
  | .st _ _ base z _ _ off => [(effAddr x base off.toInt z.bytes, z.bytes)]
  | .cadd _ _ _ a _ _ _ => [(addrOf x a, 8)]
  | .cmax _ _ _ a _ _ _ => [(addrOf x a, 8)]
  | .cwait _ _ a _ _ _ _ => [(addrOf x a, 8)]
  | .crd _ _ a _ _ => [(addrOf x a, 8)]
  | .join _ _ a => [(addrOf x a, 64)]
  | .leave _ _ a => [(addrOf x a, 64)]
  | .trninfo _ _ a => [(addrOf x a, 64)]
  | .launch _ _ a b => if launchTargetOk (x.src b) then [(addrOf x a, 64)] else []
  | .vld k _ _ base => vecSpans s k base .contig
  | .vldStrided k _ _ base stride => vecSpans s k base (.strided 4 (x.src stride))
  | .vldGather k _ _ base idx => vecSpans s k base (.indexed (x.vsrc 4 idx))
  | .vldStrided16 k _ _ base stride => vecSpans s k base (.strided 2 (x.src stride))
  | .vst k _ _ base _ => vecSpans s k base .contig
  | .vstStrided k _ _ base stride _ => vecSpans s k base (.strided 4 (x.src stride))
  | .vstScatter k _ _ base idx _ => vecSpans s k base (.indexed (x.vsrc 4 idx))
  | .vstStrided16 k _ _ base stride _ => vecSpans s k base (.strided 2 (x.src stride))
  | .amoAdd _ _ a _ | .amoAnd _ _ a _ | .amoOr _ _ a _ | .amoXor _ _ a _ | .amoMin _ _ a _ | .amoMax _ _ a _
  | .amoMinn _ _ a _ | .amoMaxn _ _ a _ | .amoSwap _ _ a _ | .amoCas _ _ a _ => [(addrOf x a, 8)]
  | .amowAdd _ _ a _ | .amowAnd _ _ a _ | .amowOr _ _ a _ | .amowXor _ _ a _ | .amowMin _ _ a _ | .amowMax _ _ a _
  | .amowMinn _ _ a _ | .amowMaxn _ _ a _ | .amowSwap _ _ a _ | .amowCas _ _ a _ | .amowFadd _ _ a _
  | .amowFmax _ _ a _ => [(addrOf x a, 4)]
  | .redAdd _ _ z a _ | .redAnd _ _ z a _ | .redOr _ _ z a _ | .redXor _ _ z a _ | .redMin _ _ z a _
  | .redMax _ _ z a _ | .redMinn _ _ z a _ | .redMaxn _ _ z a _ => [(addrOf x a, opWidth z)]
  | .redFadd _ _ a _ | .redFmax _ _ a _ => [(addrOf x a, 4)]
  | _ => []
/-- Addresses of a slot whose translations its port does not have at hand (R103). -/
def tlbMisses (s : State) (i : Instr) : List VA := ((memSpans s i).filter fun p => mustWalk s s.agent p.1).map Prod.fst

/-! ### Stalls (R138, R139) -/

/-- Registers and latches that interlocked operations of a strand will still write. -/
structure Busy where
  sr : List SReg
  vr : List VReg
  lats : List (BitVec 3)
deriving DecidableEq, Repr
def busyOf : ReadDest → Busy
  | .nothing => ⟨[], [], []⟩
  | .wait => ⟨[], [], []⟩
  | .scalar d nw _ _ => ⟨if nw then [] else [d], [], []⟩
  | .exposed _ => ⟨[], [], []⟩
  | .division d nw _ => ⟨if nw then [] else [d], [], [7]⟩
  | .vector d u => ⟨[], [d], [unitLatch u]⟩
def busySet (s : State) (sid : Nat) : Busy :=
  let bs := (s.reads.filter fun r => r.sid == sid).map fun r => busyOf r.dest
  let ds := (s.items.filter fun i => i.sid == sid).filterMap Item.dest
  ⟨(bs.flatMap Busy.sr ++ ds).filter (· != 0), bs.flatMap Busy.vr, bs.flatMap Busy.lats⟩
/-- A slot waits for the results that it names (R138). A latch that an interlocked operation will write holds its readers, no
writer of the latch (DEDUCED, log entry 133). -/
def slotBlocked (b : Busy) (sl : Slot) : Bool :=
  let u := sl.use
  (u.sr ++ u.qr ++ u.sw).any b.sr.contains || (u.vr ++ u.vw).any b.vr.contains || u.lr.any b.lats.contains
/-- The registers that an interlocked slot will write (R137). -/
def interlockedDest (s : State) (i : Instr) : List SReg × List VReg :=
  let far (k : MReg) (base : Src) (md : VMode) : Bool :=
    let ts := vTargets s (vElems s.ctx k (s.ctx.src base) md)
    !ts.isEmpty && !ts.all fun t => isNear s t.2.2.key
  match i with
  | .ld _ nw d base z _ off =>
    (match ldCheck s base z off with
     | .ok t => if nw || isScratch s t.key then ([], []) else ([d], [])
     | .error _ => ([], []))
  | .div _ m d _ _ | .divn _ m d _ _ | .rem _ m d _ _ | .remn _ m d _ _ => (destOf m d, [])
  | .amoAdd _ d _ _ | .amoAnd _ d _ _ | .amoOr _ d _ _ | .amoXor _ d _ _ | .amoMin _ d _ _ | .amoMax _ d _ _
  | .amoMinn _ d _ _ | .amoMaxn _ d _ _ | .amoSwap _ d _ _ | .amoCas _ d _ _
  | .amowAdd _ d _ _ | .amowAnd _ d _ _ | .amowOr _ d _ _ | .amowXor _ d _ _ | .amowMin _ d _ _ | .amowMax _ d _ _
  | .amowMinn _ d _ _ | .amowMaxn _ d _ _ | .amowSwap _ d _ _ | .amowCas _ d _ _ | .amowFadd _ d _ _
  | .amowFmax _ d _ _ => ([d], [])
  | .crd _ d _ _ _ => ([d], [])
  | .cwait _ d _ _ _ _ _ => ([d], [])
  | .join _ d _ => ([d], [])
  | .leave _ d _ => ([d], [])
  | .trninfo _ d _ => ([d], [])
  | .launch _ d _ _ => ([d], [])
  | .vld k _ d base => ([], if far k base .contig then [d] else [])
  | .vldStrided k _ d base stride => ([], if far k base (.strided 4 (s.ctx.src stride)) then [d] else [])
  | .vldGather k _ d base idx => ([], if far k base (.indexed (s.ctx.vsrc 4 idx)) then [d] else [])
  | .vldStrided16 k _ d base stride => ([], if far k base (.strided 2 (s.ctx.src stride)) then [d] else [])
  | _ => ([], [])
/-- An exposed result for a scalar or a vector register has not landed. -/
def pendingS (x : Ctx) (d : SReg) : Bool :=
  d != 0 && x.results.any fun r => (r.kind == .scalar && r.dest == d) || (match r.sec with | some p => p.1 == d | none => false)
def pendingV (x : Ctx) (d : VReg) : Bool := x.results.any fun r => r.kind == .vector && r.dest == d.setWidth 6
/-- The bundle is held for a pending exposed result of an interlocked destination (R138). -/
def mustHold (s : State) (i : Instr) : Bool :=
  let d := interlockedDest s i
  d.1.any (pendingS s.ctx) || d.2.any (pendingV s.ctx)
/-- The queue that a slot enters. -/
def queueOf : Instr → Option Queue
  | .cmma .. | .cmmaMsk .. | .crotH32 .. | .crotH64 .. | .caccZero .. | .caccLd .. | .caccSt .. | .caccMove .. => some .cubeq
  | .cdrain .. | .cdrainP .. => some .drainq
  | .cpyLin _ _ _ _ q | .cpyTwod _ _ _ _ q | .cpyThreed _ _ _ _ q | .cpyFill _ _ _ _ q | .cpyLsplit _ _ _ _ q
  | .cpyLgath _ _ _ _ q | .cpyMcast _ _ _ _ q | .cpyPfetch _ _ _ _ q | .cgthGather _ _ _ _ q | .cgthScatter _ _ _ _ q
  | .cgthGatheradd _ _ _ _ q | .credAddf32 _ _ _ _ q | .credAddbf16 _ _ _ _ q | .credMaxf32 _ _ _ _ q
  | .credAddi32 _ _ _ _ q => some (if q then .cq1 else .cq0)
  | .blkAlloc .. | .blkFree .. | .blkShare .. | .blkXlate .. | .blkFetch .. | .blkAppend .. | .blkStat .. => some .blkq
  | _ => none
/-- A queue has no room for what the bundle puts into it, or a ninth join point would be pending (R19, R303). -/
def queuesFull (s : State) (k : Cube) (is : List Instr) : Bool :=
  let qs := is.filterMap queueOf
  (qs.any fun q => decide (queueDepth q < k.used q + (qs.filter (· == q)).length)) ||
    is.any fun i => match i with
      | .csyncJoin _ a _ _ => (s.ctx.s a).setWidth 8 != (0 : BitVec 8) && joinsFull k
      | _ => false
/-- Slots that share the noise word W (R76). -/
def takesNoise : Instr → Bool
  | .vcvtsr .. | .vqmx8sr .. | .vqmx6sr .. | .vqmx4sr .. | .vnoise .. => true
  | _ => false
def popsNoise : Instr → Bool
  | .noise .. => true
  | _ => false
def noiseNeed (is : List Instr) : Nat := (if is.any popsNoise then 1 else 0) + if is.any takesNoise then 1 else 0

/-! ### Ordering (R113, R122, R196, R197, R229) -/

def orders (k : FenceKind) (m : MemKind) : Bool :=
  match k, m with
  | _, .none => false
  | .full, _ => true
  | .storeStore, .load => false
  | .loadLoad, .store => false
  | _, _ => true
/-- An acquire holds all that a load reads; of an interlocked vector load it may hold some elements only (R113, R220). -/
def heldWhole (s : State) (x : Ctx) (i : Instr) : Bool :=
  let held := (memSpans s i).filter fun p => !(heldBy x p).isEmpty
  !held.isEmpty && (held.length == (memSpans s i).length || (interlockedDest s i).2.isEmpty)
/-- What holds a memory operation: a fence in force, a `qfence` on the core, or, for a load, an acquire of its region. -/
def heldByOrder (s : State) (c : CubeId) (i : Instr) : Bool :=
  let x := (s.cube c).core
  let m := memKind i
  (x.fences.any fun f => orders f.kind m && !fenceEnds s f) ||
    (m != .none && x.qfences.any fun f => f.core && !qfencePast s c f) ||
    ((m == .load || m == .both) && heldWhole s x i)
/-- A fence of the bundle and a memory operation in a higher slot: it waits like one of a later bundle (R196, R197). -/
def fencedInside (s : State) (x : Ctx) (sl : Slot) (ss : List Slot) : Bool :=
  let later := (ss.filter fun t => decide (sl.n < t.n)).filterMap Slot.ins
  match sl.ins with
  | some (.fence _ kind scope) => (later.any fun i => orders kind (memKind i)) && !fenceEnds s (fenceHold s x kind scope)
  | some (.qfence _ mask) =>
    mask.getLsbD 5 && (later.any fun i => memKind i != .none) && (!fenceEnds s (fenceHold s x .full .pkg) ||
      (s.cube s.me).cmds.any fun m => m.sid == x.sid && mask.getLsbD (queueBit m.queue))
  | _ => false
/-- Writes of the strand that a slot waits for before it issues, and to which scope: every earlier one for `launch` (R229), the
bound ones for `join` and `leave`, which release on EPOCH (R112, R246). -/
def awaited (s : State) (x : Ctx) : Instr → List Nat × Scope
  | .launch _ _ _ b =>
    (if launchTargetOk (x.src b) then (s.items.filter fun i => i.sid == x.sid && i.cmd.isNone).map Item.id else [],
      if x.src b = 0 then .pkg else .fab)
  | .join _ _ a => (coveredBy s x (addrOf x a + 8), .pkg)
  | .leave _ _ a => (coveredBy s x (addrOf x a + 8), .pkg)
  | _ => ([], .pkg)
def mustAwait (s : State) (x : Ctx) (i : Instr) : Bool :=
  let w := awaited s x i
  !w.1.all (completedTo s w.2)
/-- The atelier's answer to a slot waits for the link or port to its record or packet (R10, R368). -/
def pathHeld (s : State) (i : Instr) : Bool :=
  match i with
  | .join .. | .leave .. | .trninfo .. | .launch .. => (memSpans s i).any fun p =>
      match resolve s s.agent p.1 with
      | .ok t => !pathCarries s s.me.val s.ctx.sid t.key
      | .fault _ => false
  | _ => false
/-- Lost writes that the slots wait for: their trap is raised (R124). -/
def lostFor (s : State) (c : CubeId) (is : List Instr) : List Nat :=
  let x := (s.cube c).core
  ((x.fences.filter fun f => is.any fun i => orders f.kind (memKind i)).flatMap FenceHold.items ++
    is.flatMap fun i => (awaited s x i).1).filter fun id => !(failedOf s [id]).isEmpty

/-! ### The verdict on a bundle -/

/-- What becomes of a bundle about to issue. -/
inductive Verdict where
  | go
  | trap (t : Trap) (launchTo : Option Word)
  | walk (vas : List (Fin 6 × VA))
  | lost (ids : List Nat)
  | stall
  | hold
deriving DecidableEq, Repr
/-- Traps whose test precedes the translation of addresses (R179, R219). -/
def beforeWalk (t : Trap) : Bool :=
  !(t.cause == causeLoad || t.cause == causeStore || t.cause == causeUncorrectable || t.cause == causeDeadPeer ||
    t.cause == causeFenced)
def launchTarget (s : State) : Instr → Option Word
  | .launch _ _ a b => if launchAligned s.ctx a then some (s.ctx.src b) else none
  | _ => none
/-- The execution traps of the slots, lowest first, with the walks that they need. -/
def slotVerdict (s : State) (c : CubeId) (ss : List Slot) : List Slot → Verdict
  | [] => .go
  | sl :: rest =>
    match sl.ins with
    | none => slotVerdict s c ss rest
    | some i =>
      let s' := atSlot s ss sl
      let ms := tlbMisses s' i
      let walk : Verdict := .walk (ms.map fun va => (s'.bundle.port, va))
      match slotTrap s' i with
      | some t => if ms.isEmpty || beforeWalk t then .trap t (launchTarget s' i) else walk
      | none => if ms.isEmpty then slotVerdict s c ss rest else walk
/-- The lowest slot that executes and meets a test, with the trap for it. -/
def firstTrap (s : State) (ss on : List Slot) (p : Slot → Bool) (cause : BitVec 8) : Option Trap :=
  match on.find? p with
  | some sl => some ((atSlot s ss sl).slotTrapOf cause 0 0 0)
  | none => none
/-- Steps 2 to 5 of R44. -/
def bundleTrap (s : State) (c : CubeId) (b : Bundle) (ss on : List Slot) : Option Trap :=
  let k := s.cube c
  if b = 0 then some { trapOf causeZero with slots := 0xF }
  else if offending b ss ≠ 0 then some { trapOf causeIllegal with slots := offending b ss }
  else
    match firstTrap s ss on (fun sl => match sl.ins with | some i => lacksPrivilege k.core.mode i | none => false) causePrivilege with
    | some t => some t
    | none => firstTrap s ss on (classFenced k) causeFenced
/-- The stalls that come before the execution traps and those that come after. -/
def earlyStall (s : State) (c : CubeId) (on : List Slot) (is : List Instr) : Bool :=
  let x := (s.cube c).core
  on.any (slotBlocked (busySet s x.sid)) || decide (x.noise.queue.length < noiseNeed is)
def lateStall (s : State) (c : CubeId) (on : List Slot) (is : List Instr) : Bool :=
  let k := s.cube c
  queuesFull s k is || is.any (heldByOrder s c) || on.any (fun sl => fencedInside s k.core sl on) || is.any (mustAwait s k.core) ||
    is.any (pathHeld s)
def verdict (s : State) (c : CubeId) (b : Bundle) (ss : List Slot) : Verdict :=
  let on := ss.filter (Slot.executes (s.cube c).core)
  let is := on.filterMap Slot.ins
  match bundleTrap s c b ss on with
  | some t => .trap t none
  | none =>
    if earlyStall s c on is then .stall
    else match slotVerdict s c ss on with
      | .go =>
        if !(lostFor s c is).isEmpty then .lost (lostFor s c is)
        else if lateStall s c on is then .stall
        else if is.any (mustHold s) then .hold
        else .go
      | v => v

/-! ### The end of a bundle -/

/-- `yield` (R159): behind the other ready strands of its priority; a switch when one of equal or higher priority is ready. -/
def yieldStrand (s : State) (c : CubeId) : State :=
  let k := s.cube c
  match k.cur, nextReady k with
  | .shelf _, some j => if k.core.task.prio.toNat ≤ shelfPrio k j ∧ k.computes then loadShelf (switchOut s c false) c j else s
  | _, _ => s
/-- A trapped strand resumes at an address: at once, or, when one of higher priority is ready, from the head of its list. Where the
shelf holds no trapped strand any more, the next ready strand runs (DESIGN CHOICE, log entry 135). -/
def resumeStrand (s : State) (c : CubeId) (i : ShelfId) (pc : VA) : State :=
  match (s.cube c).shelves.get i with
  | some y =>
    if y.status = .trapped then
      let s := s.modCube c fun k =>
        { k with
          shelves := k.shelves.set i (some { y with pc := pc, status := .ready }), ready := i :: k.ready
          patches := k.patches.filter fun p => !(p.1 == i && decide (0x280 ≤ p.2.1) && decide (p.2.1 < 0x288)) }
      match nextReady (s.cube c) with
      | some j => if shelfPrio (s.cube c) i < shelfPrio (s.cube c) j then loadShelf s c j else loadShelf s c i
      | none => loadShelf s c i
    else dispatchNext s c
  | none => dispatchNext s c
/-- The address that SEQ_TPC holds. -/
def tpcOf (x : Ctx) : VA := x.sys.trec.tpc.setWidth 52 &&& ~~~(0xF : VA)
/-- `eret` (R161). -/
def eret (s : State) (c : CubeId) : State :=
  let x := (s.cube c).core
  match (s.cube c).cur with
  | .runtime =>
    if x.sys.tshelf.getLsbD 4 then
      let s := s.modCube c fun k => k.modCore fun y => { y with sys := { y.sys with tshelf := y.sys.tshelf &&& 0xF } }
      resumeStrand (saveCore s c .ready) c (x.sys.tshelf.setWidth 4 : BitVec 4).toFin (tpcOf x)
    else s
  | .secure =>
    let s := (saveCore s c .ready).modCube c fun k => { k with rt := { k.rt with pc := tpcOf x } }
    loadRuntime s c
  | _ => s
/-- `halt` (R158): a strand waits off the core for its queues and writes, with its pc at this bundle; a runtime handler ends
and the next ready shelf runs; the secure context gives the core to the runtime. -/
def haltContext (s : State) (c : CubeId) (pc : VA) : State :=
  match (s.cube c).cur with
  | .shelf i =>
    let s := s.modCube c fun k => k.modCore fun x => { x with pc := pc }
    dispatchNext (freeMonitor (saveCore s c .halting) c i) c
  | .runtime => dispatchNext (saveCore s c .ready) c
  | .secure => loadRuntime (saveCore s c .ready) c
  | .none => s
/-- `iflush` (R162): the bundles of the address space leave the cache, and those of the physical window with them where the context
fetches through it (DESIGN CHOICE, log entry 106). -/
def flushCode (s : State) (c : CubeId) : State :=
  s.modCube c fun k => { k with
    icache := k.icache.filter fun e => !(if e.phys then k.core.mode != .task else e.asn == k.core.sys.asn) }
/-- What a control instruction does once its bundle at pc has committed and nothing keeps its context on the core. -/
def doControl (s : State) (c : CubeId) (pc : VA) (ctl : Control) : State :=
  match ctl with
  | .none => s
  | .halt => haltContext s c pc
  | .yield => yieldStrand s c
  | .eret => eret s c
  | .iflush => flushCode s c
  | .debugHalt => s.modCube c fun k => { (k.modCore landDue) with debugHalted := true }
/-- A control instruction that may take its context off the core. -/
def Control.leaves : Control → Bool
  | .halt | .yield | .eret | .debugHalt => true
  | .none | .iflush => false
/-- One that takes its context off the core waits there for the context's interlocked operations, and the core issues nothing more until
then (R152). -/
def applyControl (s : State) (c : CubeId) (pc : VA) (ctl : Control) : State :=
  if ctl.leaves && interlocksOut s (s.cube c).core.sid then s.modCube c fun k => { k with leave := .control ctl pc }
  else doControl s c pc ctl
/-- Words that a bundle took from the noise queue (R76). -/
def popNoise (x : Ctx) (b : BundleState) : Ctx :=
  let n := (if b.popS then 1 else 0) + if b.popV then 1 else 0
  { x with noise := { x.noise with queue := x.noise.queue.drop n } }
/-- The next address, and one more bundle issued (R133, R143). -/
def stepPc (x : Ctx) (b : BundleState) : Ctx :=
  let r := nextAddress x b
  advanceIssue { r.1 with pc := r.2 }
/-- After every slot has committed (R142, R143, R147, R157, R165): noise words, the next address, the palettes, the system
register, a post-commit trap, which waits for the bundle boundary, and what the control instruction does. -/
def endBundle (s : State) (c : CubeId) : State :=
  let b := (s.cube c).bundle
  let pc := (s.cube c).core.pc
  let mode := (s.cube c).core.mode
  let s := s.modCube c fun k =>
    { (k.modCore fun x => stepPc (popNoise x b) b) with
      pals := b.pals.foldl Palettes.put k.pals, stall := 0, bundle := .reset }
  let s := takeWalks s (.cube c) 0
  let s := match b.sysw with
    | some (n, v) => sysWrite s c mode n.toNat v
    | none => s
  let s := match b.post with
    | some t => s.modCube c fun k => k.modCore fun x => x.addPending t (placeOfId s.nextId)
    | none => s
  applyControl s c pc b.ctl

/-! ### Issue -/

def outState (s : State) : Out → State
  | .next t => t
  | .fault _ => s
  | .refused _ => s
/-- A fence that drops the edge cache before a memory operation in a higher slot of its own bundle (R122, R196). -/
def dropsInside (x : Ctx) (ss : List Slot) (sl : Slot) : Bool :=
  sl.executes x && (match sl.ins with
    | some (.fence _ kind scope) => kind != .storeStore && scope != .cube
    | some (.qfence _ mask) => mask.getLsbD 5
    | _ => false) && ss.any fun t => decide (sl.n < t.n) && match t.ins with | some i => memKind i != .none | none => false
/-- One slot executes; nothing more of a bundle executes once its context has left the core. -/
def execSlot (ss : List Slot) (c : CubeId) (sid : Nat) (s : State) (sl : Slot) : State :=
  match sl.ins with
  | some i =>
    if (s.cube c).running && (s.cube c).core.sid == sid then
      let s' := outState s (exec i (atSlot s ss sl))
      if dropsInside (s.cube c).core ss sl then s'.modCube c edgeClear else s'
    else s
  | none => s
/-- The shared noise word W of a bundle: the queue's second word when `noise` takes the first (R76). -/
def sharedWord (x : Ctx) (is : List Instr) : Word := x.noise.queue.getD (if is.any popsNoise then 1 else 0) 0
/-- The addresses of a slot come into the TLB of its port (R103). -/
def fillSlot (c : CubeId) (ss : List Slot) (s : State) (sl : Slot) : State :=
  match sl.ins with
  | some i =>
    let s' := atSlot s ss sl
    (memSpans s' i).foldl (fun s p => fillPort c s'.bundle.port s'.ctx.sys.asn s p.1) s
  | none => s
/-- The slots of a bundle execute in order, and the bundle ends. -/
def commit (s : State) (c : CubeId) (ss : List Slot) : State :=
  let s := (ss.filter (Slot.executes (s.cube c).core)).foldl (fillSlot c ss) s
  let x := (s.cube c).core
  let is := (ss.filter (Slot.executes x)).filterMap Slot.ins
  let s := s.modCube c fun k => k.modBundle fun _ => { BundleState.reset with noiseW := sharedWord x is, first := some s.nextId }
  let s := ss.foldl (execSlot ss c x.sid) s
  if (s.cube c).running && (s.cube c).core.sid == x.sid then endBundle s c else s
/-- A bundle stays stalled for one more attempt (R150). -/
def stalled (s : State) (c : CubeId) : State := s.modCube c fun k => { k with stall := k.stall + 1 }
/-- The slot whose counter read a bundle still has to wait for. -/
def waitingSlot (x : Ctx) (ss : List Slot) : Option Slot :=
  match x.wait with
  | .none => ss.find? fun sl => sl.executes x && match sl.ins with | some (.cwait ..) => true | _ => false
  | _ => none
/-- A bundle goes: the read of its `cwait` sets out first, and the bundle commits when that has come back (R186). -/
def goBundle (s : State) (c : CubeId) (ss : List Slot) : State :=
  let x := (s.cube c).core
  match waitingSlot x ss with
  | some sl => execSlot ss c x.sid s sl
  | none => commit s c ss
/-- The bundle that the context's pc names is in the cache. -/
noncomputable def issueBundle (s : State) (c : CubeId) (b : Bundle) : State :=
  let ss := slotsOf b
  match verdict s c b ss with
  | .go => goBundle s c ss
  | .trap t l => takeTrap (match l with | some w => markLostPeer s w | none => s) c t
  | .walk vas => stalled (vas.foldl (fun s v => requestWalk s ((s.cube c).core.agent c v.1) v.2) s) c
  | .lost ids => raiseFailed s (s.cube c).core.sid ids
  | .stall => stalled s c
  | .hold => { s.modCube c fun k => k.modBundle fun b => { b with held := true } with agenda := s.agenda ++ [.emptyBundle c] }
/-- Step 1 of R44, and the bundle behind it. -/
noncomputable def fetchAndIssue (s : State) (c : CubeId) : State :=
  let x := (s.cube c).core
  if x.pc.toNat < x.sys.codeLo.toNat ∨ x.sys.codeHi.toNat < x.pc.toNat then
    takeTrap s c ⟨causeCodeLimit, 0, 0, 1, 0, x.pc⟩
  else
    match fetchAt s c with
    | .hit b => issueBundle s c b
    | .fault t => takeTrap s c t
    | .walk => stalled (requestWalk s (x.agent c 0) x.pc) c
    | .miss _ => stalled s c
/-- A strand that is to end issues nothing, nor does one of a core that is due for a self-test (R378), nor any context of a core under test
or of a cube that computes no more (R380). -/
def mayIssue (k : Cube) : Bool :=
  k.running && k.computes && k.con.testing.isNone &&
    (match k.cur with | .shelf _ => k.core.task.ending.isNone && k.con.testsDue.isEmpty | _ => true)
/-- A `cwait` waits without stalling its core (R150). -/
def Ctx.waiting (x : Ctx) : Bool :=
  match x.wait with
  | .reading .. | .parked | .spinning _ => true
  | _ => false
def debugStops (k : Cube) : Bool := k.debugHaltPending && (match k.cur with | .shelf _ => true | _ => false)
/-- What a context that is to leave its core does once its interlocked operations are complete (R146, R152): a trap that is pending by
then goes first, and the precise trap is raised again when its bundle is re-issued (R148). -/
def leaveNow (s : State) (c : CubeId) : State :=
  let l := (s.cube c).leave
  if interlocksOut s (s.cube c).core.sid then s
  else
    let s := s.modCube c fun k => { (k.modCore landDue) with leave := .none }
    match l with
    | .none => s
    | .trap t => if (s.cube c).core.pending.isEmpty then enterTrap s c t else takePending s c
    | .control ctl pc => doControl s c pc ctl
/-- One attempt of cube c to issue. Results that are due land first. -/
noncomputable def issueCore (s : State) (c : CubeId) : State :=
  if (s.cube c).leave != .none then leaveNow s c
  else if !mayIssue (s.cube c) then s
  else if awaitsValue s (s.cube c).core then stalled s c
  else
    let s := s.modCube c fun k => k.modCore landDue
    if debugStops (s.cube c) then stopForDebug s c
    else if preempted (s.cube c) then preempt s c
    else if !(s.cube c).core.pending.isEmpty then
      if interlocksOut s (s.cube c).core.sid then stalled s c else takePending s c
    else if (s.cube c).core.waiting then s
    else fetchAndIssue (settleQfences (settleFences s c) c) c

end Sys2Proof.Machine
end

