-- ==== Sys2Proof/Machine/Turn.lean ====
section
/-! DEFINITION. How the parts of the package take turns (log entry 3): each cube attempts one bundle, then one event that is
due inside the package happens, and the clock advances. -/
namespace Sys2Proof.Machine

/-! ### Events that are due, each with the outcome that no surroundings disturb -/

noncomputable def itemEvents (s : State) : List Instr :=
  s.items.filterMap fun i =>
    match i.status with
    | .waiting => some (.releaseSend i.id)
    | .transit => (match i.op with
      | .store _ => some (.homeWriteArrives i.id)
      | .amo .. => some (.homeAtomic i.id)
      | .cadd .. | .cmax .. | .fetchAdd .. => some (.homeCounterOp i.id))
    | .held => some (.lineItemCommit i.id)
    | .performed => some (.writeAckArrives i.id)
    | .failed => none
noncomputable def readEvents (s : State) : List Instr :=
  s.reads.filterMap fun r =>
    match r.status, r.dest with
    | .sent, _ => some (.homeRead ⟨r.id, true⟩)
    | .served, .wait => none
    | .served, _ => some (.interlockedResultArrives r.id 0)
noncomputable def memoryEvents (s : State) : List Instr :=
  itemEvents s ++ readEvents s ++
  (s.msgs.mapIdx fun k m => if m.update.isNone then Instr.sharerInvalidate k else .sharerUpdate k) ++
  (s.notes.map fun n => Instr.monitorNotify n.1 n.2.1) ++
  (s.misses.mapIdx fun k m => if m.walking then Instr.walkComplete k false else .walkStart k) ++
  s.tlbis.map fun t => Instr.tlbiComplete t.id
noncomputable def atelierEvents (s : State) : List Instr :=
  (s.atl.board.flatMap fun l =>
    (if l.header.isNone then [Instr.imageHeaderRead l.slot] else []) ++
    (if l.untaken.isEmpty then [] else (List.finRange 8).map fun c => Instr.batchHandoff l.slot c)) ++
  (List.range s.atl.evicted.length).flatMap fun k => (List.finRange 8).map fun c => Instr.readmission k c
noncomputable def coreEvents (k : Cube) (c : CubeId) : List Instr :=
  (match k.core.wait with
   | .reading .. => [Instr.cwaitReadReturn c]
   | .spinning _ => [.cwaitSpinReread c]
   | _ => []) ++
  [.icacheMissFill c, .noiseWordAppend c, .watchdog c, .preemption c, .switchIn c, .quantumExpiry c] ++
  (k.monitors.filter Monitor.poll).map fun m => Instr.monitorPoll c m.shelf
noncomputable def commandEvent (c : CubeId) (m : Cmd) : Option Instr :=
  match m.status, m.queue with
  | .queued, .cq0 | .queued, .cq1 => some (.copyCmdStart c m.id)
  | .queued, .cubeq => some (.cubeCmdStart c m.id)
  | .queued, .drainq => some (.drainStart c m.id)
  | .queued, .blkq => some (.blkCmdPerform c m.id)
  | .started, .cq0 | .started, .cq1 => some (.copyCmdComplete c m.id)
  | .started, .cubeq => some (.cubeCmdComplete c m.id)
  | .started, .drainq => some (.drainComplete c m.id)
  | .started, .blkq => some (.blkCmdComplete c m.id)
  | .finished, q => some (if !m.res.isEmpty then .spoolEntryLanded c m.id
      else if q = .blkq then .blkCmdComplete c m.id else .completionAddSend c m.id)
  | .adding, _ => none
noncomputable def engineEvents (k : Cube) (c : CubeId) : List Instr :=
  k.cmds.filterMap (commandEvent c) ++ (k.joins.map fun j => Instr.joinPointComplete c j.id) ++
  (if k.eng.skewNext.isEmpty then [] else [.cubSkewApply c]) ++ if k.eng.blkBuilding then [.blkReady c] else []
noncomputable def testEvents (k : Cube) (c : CubeId) : List Instr :=
  (match k.con.testing with
   | some n => if h : n < 29 then [Instr.selfTestResult c ⟨n, h⟩ false] else []
   | none => k.con.testsDue.filterMap fun n => if h : n < 29 then some (Instr.selfTestStart c ⟨n, h⟩) else none) ++
  if k.con.evacTodo.isEmpty then [] else [.evacGranuleCopied c]
noncomputable def layerEvents (k : Cube) (c : CubeId) : List Instr :=
  (List.finRange 8).flatMap fun l =>
    let y := k.layerPwr l.val
    (if y.ramp then [Instr.layerRampDone c l] else []) ++ (if y.gated then [] else [.layerGate c l]) ++
    (if 50 ≤ y.hot then [.thermalStepRaise c l] else []) ++ (if 200 ≤ y.cool then [.thermalStepLower c l] else []) ++
    if y.migreq then [] else [.migrationRequest c l]
noncomputable def shelfEvents (c : CubeId) (x : ShelfId × Ctx) : List Instr :=
  (match x.2.status with
   | .starting => [Instr.taskStart c x.1]
   | .halting => [.haltComplete c x.1]
   | .evicting => [.evictionComplete c x.1]
   | _ => if x.2.task.away then [.migration c x.1] else []) ++ [.strandEndError c x.1 0, .evictionStart c x.1]
noncomputable def schedulerEvents (k : Cube) (c : CubeId) : List Instr :=
  (if k.admission.isEmpty then [] else [.taskAdmission c]) ++ k.strands.flatMap (shelfEvents c)
noncomputable def cubeEvents (s : State) (c : CubeId) : List Instr :=
  let k := s.cube c
  coreEvents k c ++ engineEvents k c ++ testEvents k c ++ layerEvents k c ++ schedulerEvents k c
/-- The link of two dies is down for good (R10). -/
def linkDown (s : State) (a b : Nat) : Bool := a != b && !(s.fab.ports.get (linkOf a b)).up
/-- A place that nothing reaches from a cube: a peer that is dead or to which no live port leads, or a die of the package behind a link
that is down (R368). -/
def noPath (s : State) (c : CubeId) (key : Nat) : Bool :=
  match peerOf key with
  | some p => peerDead s p || !(portsTo s p).any fun q => !linkDown s c.val (portBridge q)
  | none => linkDown s c.val (dieOf s key)
/-- Traffic that has no path any more times out, and a port that replays have told to retrain does so (R362, R367, R368). -/
noncomputable def fabricEvents (s : State) : List Instr :=
  ((s.items.filter fun i => noPath s i.cube i.op.addr).map fun i => Instr.ackTimeoutExpiry ⟨i.id, i.op.addr⟩) ++
  ((s.reads.filter fun r => r.cells.any fun x => noPath s r.cube x.1).map fun r => Instr.ackTimeoutExpiry ⟨r.id, 0⟩) ++
  ((List.finRange 71).filter fun n => (s.fab.ports.get n).training).map fun n => Instr.portRetrain n 0 true
/-- Every event that may be due. -/
noncomputable def dueEvents (s : State) : List Instr :=
  memoryEvents s ++ fabricEvents s ++ atelierEvents s ++ (if s.fab.ckpt.isSome then [.ckptComplete true] else []) ++
    (List.finRange 8).flatMap (cubeEvents s)
/-- The event does something now. -/
def acts (s : State) (i : Instr) : Bool :=
  match exec i s with
  | .next t => decide (t ≠ s)
  | .fault _ => false
  | .refused _ => false
def rotate {α : Type} (n : Nat) (l : List α) : List α := l.drop (n % (l.length + 1)) ++ l.take (n % (l.length + 1))
/-- The event that happens next: the first that does something, from a place that moves on with the clock. -/
noncomputable def nextInternal (s : State) : Option Instr := (rotate s.cycle.toNat (dueEvents s)).find? (acts s)

/-! ### Turns -/

/-- A running strand has used one more cycle of its quantum (R239). -/
def useCycle (k : Cube) : Cube :=
  match k.cur with
  | .shelf _ => if k.running then { k with quantumUsed := k.quantumUsed + 1 } else k
  | _ => k
/-- The bridge dies take the entries of peers with traffic out into their cache, and every pair has its port (R357, R360). -/
def routeTraffic (s : State) : State :=
  let pairs := (s.items.filterMap fun i => (peerOf i.op.addr).map fun p => (i.sid, p)) ++
    s.reads.flatMap fun r => r.cells.filterMap fun x => (peerOf x.1).map fun p => (r.sid, p)
  pairs.eraseDups.foldl (fun s p => routePair (cachePeer s p.2) p.1 p.2) s
/-- One cycle has passed (R164): join points note who has reached them (R303), monitors on dead peers wake (R191), queued tasks
that a cube can no longer run go back (R254), and traffic finds its ports (R360). -/
def tick (s : State) : State :=
  let s := routeTraffic { s with cycle := s.cycle + 1, cubes := s.cubes.map useCycle }
  (List.finRange 8).foldl (fun s c => returnUnfit (wakeDeadPeers (noteJoins s c) c) c) s
noncomputable def internalTurn (s : State) : State :=
  tick (match nextInternal s with
    | some i => outState s (exec i s)
    | none => s)
/-- Turns 0 to 7 are the cubes'; in turn 8 an event happens and the cycle ends. -/
noncomputable def takeTurn (s : State) : State :=
  if h : s.turn.val < 8 then { issueCore s ⟨s.turn.val, h⟩ with turn := s.turn + 1 }
  else { internalTurn s with turn := 0 }

/-! ### What the surroundings bring -/

/-- The bridge die through which a launch packet arrives, true for bridge 1: a packet of the host or of a peer, or a peer's write to a
launch aperture (R225, R366, R371). -/
def packetBridge : Instr → Option Bool
  | .launchPacketArrival b _ => some b
  | .peerLaunchPacket p _ => some p.bridge
  | .incomingPeerRequest _ kind dpa _ =>
    if kind = 1 ∨ kind = 2 then
      (if bridgeBase 0 ≤ dpa ∧ dpa < bridgeBase 0 + 0x1000 then some false
       else if bridgeBase 1 ≤ dpa ∧ dpa < bridgeBase 1 + 0x1000 then some true
       else none)
    else none
  | _ => none
/-- What still happens to a package that is powered down: a reset, and nothing else (R383). -/
def wakes : Instr → Bool
  | .packageReset _ => true
  | _ => false
/-- The event of the agenda that happens next, and those that are left: what stands there comes in one cycle, in which bridge 0's
launch packets go before bridge 1's (R225, R371). -/
def nextEvent : List Instr → Option (Instr × List Instr)
  | [] => none
  | i :: rest =>
    if packetBridge i = some true then
      match rest.find? fun j => packetBridge j == some false with
      | some j => some (j, i :: rest.erase j)
      | none => some (i, rest)
    else some (i, rest)

/-! ### A word where the next instruction is fetched (log entry 4) -/

/-- An address of the physical window, and its place in HBM. -/
def fetchVA : VA := 0xE000000001000
def fetchKey : Nat := 0x1000
/-- A bundle of one word and three `nop`s. -/
def soloBundle (w : BitVec 32) : Bundle := w.setWidth 128 ||| 0x00000001000000010000000100000000
/-- The runtime context of cube 0 is about to issue the bundle, which stands in memory and in the instruction cache. -/
def placeBundle (s : State) (b : Bundle) : State :=
  let k := s.cube 0
  let x := match k.cur with | .runtime => k.core | _ => k.rt
  let x := { x with
    pc := fetchVA, status := .running, pending := [], pendAt := [], wait := .none
    sys := { x.sys with codeLo := fetchVA, codeHi := fetchVA } }
  { s.setCube 0 { k with
      core := x, cur := .runtime, stopped := false, debugHalted := false, leave := .none
      icache := ⟨x.sys.asn, true, fetchVA, b⟩ :: k.icache } with
    mem := memWrite s.mem (cellsAt fetchKey (bytesLE 16 b.toNat)), agenda := [], winq := [], turn := 0
    secu := { s.secu with powered := true } }

end Sys2Proof.Machine
end

