-- ==== Sys2Proof/Machine/Step.lean ====
section
/-! DEFINITION. One step of the package: the next event of the agenda, else the oldest write at a register window, else
the next turn. -/
namespace Sys2Proof.Machine

/-- One step (log entry 3). What the surroundings bring stands on the agenda; a slot instruction is no event and is passed
over there, and so is all but a reset of a package that is powered down (R383). -/
noncomputable def step (s : State) : Host.Outcome State Fault Refusal :=
  match nextEvent s.agenda with
  | some (i, rest) =>
    if i.isSlot || !(s.secu.powered || wakes i) then .next { s with agenda := rest } else exec i { s with agenda := rest }
  | none =>
    if s.secu.powered then (if s.winq.isEmpty then .next (takeTurn s) else .next (stepWindow s)) else .fault .packageOff

/-- The state with a word where the next step fetches its instruction (log entry 4): slot 0 of a bundle whose other slots are
`nop`. -/
noncomputable def State.withFetchWord (s : State) (_nbits w : Nat) : State := placeBundle s (soloBundle (BitVec.ofNat 32 w))

end Sys2Proof.Machine
end

