-- ==== Sys2Proof/Safety.lean ====
section
/-! DEFINITION. What counts as a safe run: no step of it stops the machine, and the trapping of a strand is no stop. -/
namespace Sys2Proof

/-- The machine goes on from a state for n steps. -/
def SafeFor (n : Nat) (s : Machine.State) : Prop := ∃ t, core.run n s = .next t
/-- The machine goes on for ever. -/
def Safe (s : Machine.State) : Prop := ∀ n, SafeFor n s

end Sys2Proof
end

