-- ==== Sys2Proof/Certificates/Slice0/Obligations.lean ====
section
/-! DEFINITION. What this slice states about the model, and the words in which it is stated. -/
namespace Sys2Proof.Say
open Sys2Proof.Machine

/-! ### Results that become visible later (R136, R137, R140) -/

/-- n more bundles of a context issue, nothing else happens to it, and what is due lands after each. -/
def later (n : Nat) (x : Ctx) : Ctx := (fun y => landDue (advanceIssue y))^[n] x
/-- From x to y: for fewer than L bundles the two differ in nothing but results in flight, and after L bundles y is what f
makes of x. -/
def Lands (L : Nat) (f : Ctx → Ctx) (x y : Ctx) : Prop :=
  (∀ n, n < L → ∃ rs, later n y = { later n x with results := rs }) ∧ later L y = f (later L x)
/-- The instruction completes and changes nothing but the running context, where L bundles later f shows. -/
def Gives (s : State) (i : Instr) (L : Nat) (f : Ctx → Ctx) : Prop :=
  ∃ y, exec i s = .next (s.modCtx fun _ => y) ∧ Lands L f s.ctx y
/-- A latency, with the two bundles that TV adds (R137). -/
def lat (l : Nat) (tv : Bool) : Nat := if tv then l + 2 else l
/-- A scalar in its register and in a latch (0 none); NW leaves the register out (R36). s0 discards it. -/
def toScalar (latch : BitVec 3) (m : Mods) (d : SReg) (v : Word) (x : Ctx) : Ctx :=
  if m.nw then x.setLatchS latch v else (x.setS d v).setLatchS latch v
/-- A scalar in its register alone. -/
def toReg (d : SReg) (v : Word) (x : Ctx) : Ctx := x.setS d v

/-! ### Scalar instructions by the format of their operands -/

structure Row3 where
  op : Guard → Mods → SReg → Src → Src → Instr
  bundles : Nat
  latch : BitVec 3
  value : Ctx → Word → Word → Word → Word
structure Row1 where
  op : Guard → Mods → SReg → Src → Instr
  bundles : Nat
  latch : BitVec 3
  value : Ctx → Word → Word
structure RowI where
  op : Guard → Mods → SReg → Src → BitVec 14 → Instr
  bundles : Nat
  latch : BitVec 3
  value : Word → Word → Word

/-- ALU and ALU2 (R169, R172); the value is given from the old destination and the operands a and b. -/
noncomputable def aluRows : List Row3 :=
  [⟨.add, 1, 1, fun _ _ a b => a + b⟩, ⟨.sub, 1, 1, fun _ _ a b => a - b⟩, ⟨.and, 1, 1, fun _ _ a b => a &&& b⟩,
   ⟨.or, 1, 1, fun _ _ a b => a ||| b⟩, ⟨.xor, 1, 1, fun _ _ a b => a ^^^ b⟩, ⟨.andn, 1, 1, fun _ _ a b => a &&& ~~~b⟩,
   ⟨.orn, 1, 1, fun _ _ a b => a ||| ~~~b⟩, ⟨.shl, 1, 1, fun _ _ a b => a <<< (b.toNat % 64)⟩,
   ⟨.shr, 1, 1, fun _ _ a b => a >>> (b.toNat % 64)⟩, ⟨.sar, 1, 1, fun _ _ a b => a.sshiftRight (b.toNat % 64)⟩,
   ⟨.rol, 1, 1, fun _ _ a b => a.rotateLeft (b.toNat % 64)⟩, ⟨.ror, 1, 1, fun _ _ a b => a.rotateRight (b.toNat % 64)⟩,
   ⟨.min, 1, 1, fun _ _ a b => if a.toInt ≤ b.toInt then a else b⟩,
   ⟨.max, 1, 1, fun _ _ a b => if a.toInt ≤ b.toInt then b else a⟩,
   ⟨.minn, 1, 1, fun _ _ a b => if a.toNat ≤ b.toNat then a else b⟩,
   ⟨.maxn, 1, 1, fun _ _ a b => if a.toNat ≤ b.toNat then b else a⟩,
   ⟨.mul, 3, 7, fun _ _ a b => a * b⟩,
   ⟨.mulh, 3, 7, fun _ _ a b => BitVec.ofInt 64 (a.toInt * b.toInt / 2 ^ 64)⟩,
   ⟨.mulhn, 3, 7, fun _ _ a b => BitVec.ofNat 64 (a.toNat * b.toNat / 2 ^ 64)⟩,
   ⟨.sext, 1, 1, fun _ _ a b => BitVec.ofInt 64 (sint (b.toNat % 64 + 1) a.toNat)⟩,
   ⟨.zext, 1, 1, fun _ _ a b => BitVec.ofNat 64 (a.toNat % 2 ^ (b.toNat % 64 + 1))⟩]
/-- BITF (R173): with the offset o = b[5:0] and the width w = b[13:8] of a field, and the 128-bit word a:b of a funnel shift
by d[5:0]. -/
noncomputable def fieldRows : List Row3 :=
  [⟨.bfxs, 1, 1, fun _ _ a b =>
      if b.toNat / 256 % 64 = 0 then 0 else BitVec.ofInt 64 (sint (b.toNat / 256 % 64) (a.sshiftRight (b.toNat % 64)).toNat)⟩,
   ⟨.bfxn, 1, 1, fun _ _ a b => BitVec.ofNat 64 (a.toNat / 2 ^ (b.toNat % 64) % 2 ^ (b.toNat / 256 % 64))⟩,
   ⟨.bfi, 1, 1, fun _ d a b =>
      let mask : Word := BitVec.ofNat 64 ((2 ^ (b.toNat / 256 % 64) - 1) * 2 ^ (b.toNat % 64))
      (d &&& ~~~mask) ||| ((a <<< (b.toNat % 64)) &&& mask)⟩,
   ⟨.fshl, 1, 1, fun _ d a b => BitVec.ofNat 64 ((a.toNat * 2 ^ 64 + b.toNat) * 2 ^ (d.toNat % 64) / 2 ^ 64)⟩,
   ⟨.fshr, 1, 1, fun _ d a b => BitVec.ofNat 64 ((a.toNat * 2 ^ 64 + b.toNat) / 2 ^ (d.toNat % 64))⟩]
/-- Scalar floating point of two and three operands (R174, R175): F32 in bits [31:0], bits [63:32] cleared, SEQ_FRM. -/
noncomputable def floatRows : List Row3 :=
  let f (w : Word) : FVal := dec32 (w.toNat % 2 ^ 32)
  let r (x : Ctx) : RMode := .frm x.sys.frm
  let e (x : Ctx) (v : FVal) : Word := BitVec.ofNat 64 (enc32 (r x) v)
  [⟨.fadd, 4, 6, fun x _ a b => e x (FVal.add (r x) (f a) (f b))⟩,
   ⟨.fsub, 4, 6, fun x _ a b => e x (FVal.add (r x) (f a) (f b).neg)⟩,
   ⟨.fmul, 4, 6, fun x _ a b => e x ((f a).mul (f b))⟩,
   ⟨.ffma, 4, 6, fun x d a b => e x (FVal.add (r x) ((f a).mul (f b)) (f d))⟩,
   ⟨.fmin, 4, 6, fun x _ a b => e x ((f a).min2 (f b))⟩, ⟨.fmax, 4, 6, fun x _ a b => e x ((f a).max2 (f b))⟩]
/-- ALU2 of one operand (R172). -/
noncomputable def unaryRows : List Row1 :=
  [⟨.popc, 1, 1, fun _ a => BitVec.ofNat 64 ((List.range 64).filter fun k => a.getLsbD k).length⟩,
   ⟨.clz, 1, 1, fun _ a => BitVec.ofNat 64 (if a = 0 then 64 else 63 - Nat.log2 a.toNat)⟩,
   ⟨.ctz, 1, 1, fun _ a => BitVec.ofNat 64 (((List.range 64).find? fun k => a.getLsbD k).getD 64)⟩,
   ⟨.brev, 1, 1, fun _ a => a.reverse⟩,
   ⟨.bswap, 1, 1, fun _ a => BitVec.ofNat 64 (packLE (bytesLE 8 a.toNat).reverse)⟩,
   ⟨.abs, 1, 1, fun _ a => BitVec.ofNat 64 a.toInt.natAbs⟩]
/-- Scalar floating point of one operand (R174, R175). -/
noncomputable def floatUnaryRows : List Row1 :=
  let f (w : Word) : FVal := dec32 (w.toNat % 2 ^ 32)
  let r (x : Ctx) : RMode := .frm x.sys.frm
  [⟨.fabs, 4, 6, fun _ a => BitVec.ofNat 64 (a.toNat % 2 ^ 31)⟩,
   ⟨.fneg, 4, 6, fun _ a => (a &&& 0xFFFFFFFF) ^^^ 0x80000000⟩,
   ⟨.fcvtif, 4, 6, fun x a => BitVec.ofNat 64 (enc32 (r x) (.ofInt a.toInt))⟩,
   ⟨.fcvtnf, 4, 6, fun x a => BitVec.ofNat 64 (enc32 (r x) (.ofInt a.toNat))⟩,
   ⟨.fcvtfi, 4, 6, fun x a => BitVec.ofInt 64 (toIntSat (-(2 ^ 63)) (2 ^ 63 - 1) (r x) 0 (f a))⟩,
   ⟨.fcvtfn, 4, 6, fun x a => BitVec.ofInt 64 (toIntSat 0 (2 ^ 64 - 1) (r x) 0 (f a))⟩,
   ⟨.fsqrt, 12, 6, fun x a => BitVec.ofNat 64 (enc32 (r x) (f a).sqrt)⟩]
/-- ALUI (R170): the immediate is sign-extended. -/
noncomputable def immRows : List RowI :=
  [⟨.addi, 1, 1, fun a i => a + i⟩, ⟨.andi, 1, 1, fun a i => a &&& i⟩, ⟨.ori, 1, 1, fun a i => a ||| i⟩,
   ⟨.xori, 1, 1, fun a i => a ^^^ i⟩, ⟨.shli, 1, 1, fun a i => a <<< (i.toNat % 64)⟩,
   ⟨.shri, 1, 1, fun a i => a >>> (i.toNat % 64)⟩, ⟨.sari, 1, 1, fun a i => a.sshiftRight (i.toNat % 64)⟩,
   ⟨.muli, 3, 7, fun a i => a * i⟩]
/-- Every row completes under a guard that holds, with its value in the destination and the latch. -/
def Rows3 (rs : List Row3) : Prop :=
  ∀ r ∈ rs, ∀ (s : State) (g : Guard) (m : Mods) (d : SReg) (a b : Src), s.ctx.guard g = true →
    Gives s (r.op g m d a b) (lat r.bundles m.tv)
      (toScalar r.latch m d (r.value s.ctx (s.ctx.s d) (s.ctx.src a) (s.ctx.src b)))
def Rows1 (rs : List Row1) : Prop :=
  ∀ r ∈ rs, ∀ (s : State) (g : Guard) (m : Mods) (d : SReg) (a : Src), s.ctx.guard g = true →
    Gives s (r.op g m d a) (lat r.bundles m.tv) (toScalar r.latch m d (r.value s.ctx (s.ctx.src a)))

/-! ### Compares into predicates (R176, R177) -/

structure RowC where
  op : Guard → Bool → Comb → PReg → PReg → Src → Src → Instr
  bundles : Nat
  test : Word → Word → Bool
structure RowCI where
  op : Guard → Bool → Comb → PReg → PReg → Src → BitVec 13 → Instr
  signed : Bool
  test : Word → Word → Bool
noncomputable def cmpRows : List RowC :=
  let f (w : Word) : FVal := dec32 (w.toNat % 2 ^ 32)
  [⟨.cmpeq, 1, fun a b => a == b⟩, ⟨.cmpne, 1, fun a b => !(a == b)⟩, ⟨.cmplt, 1, fun a b => decide (a.toInt < b.toInt)⟩,
   ⟨.cmple, 1, fun a b => decide (a.toInt ≤ b.toInt)⟩, ⟨.cmpltn, 1, fun a b => decide (a.toNat < b.toNat)⟩,
   ⟨.cmplen, 1, fun a b => decide (a.toNat ≤ b.toNat)⟩, ⟨.fcmpeq, 2, fun a b => (f a).eqv (f b)⟩,
   ⟨.fcmplt, 2, fun a b => (f a).lt (f b)⟩, ⟨.fcmple, 2, fun a b => (f a).le (f b)⟩,
   ⟨.fcmpun, 2, fun a b => (f a).isNan || (f b).isNan⟩]
noncomputable def cmpImmRows : List RowCI :=
  [⟨.cmpeqImm, true, fun a b => a == b⟩, ⟨.cmpneImm, true, fun a b => !(a == b)⟩,
   ⟨.cmpltImm, true, fun a b => decide (a.toInt < b.toInt)⟩, ⟨.cmpleImm, true, fun a b => decide (a.toInt ≤ b.toInt)⟩,
   ⟨.cmpltnImm, false, fun a b => decide (a.toNat < b.toNat)⟩, ⟨.cmplenImm, false, fun a b => decide (a.toNat ≤ b.toNat)⟩]
/-- A truth value in a predicate by a family: plain replaces, AND and OR combine with what it then holds. p0 discards it. -/
def toPred (c : Comb) (p : PReg) (v : Bool) (x : Ctx) : Ctx :=
  x.setP p (match c with | .plain => v | .and => x.p p && v | .or => x.p p || v)

end Sys2Proof.Say

open Sys2Proof Sys2Proof.Machine Sys2Proof.Say

/-- R169, R172, R173 with R36, R136, R137: the value in the destination and the latch, at its latency, and nothing else. -/
def Sys2Proof.Say.ScalarInteger : Prop := Rows3 (aluRows ++ fieldRows) ∧ Rows1 unaryRows
/-- R174, R175: scalar floating point. -/
def Obligations.ScalarFloat : Prop := Rows3 floatRows ∧ Rows1 floatUnaryRows
/-- R170: immediates. -/
def Sys2Proof.Say.ScalarImmediate : Prop :=
  (∀ r ∈ immRows, ∀ (s : State) (g : Guard) (m : Mods) (d : SReg) (a : Src) (i : BitVec 14), s.ctx.guard g = true →
    Gives s (r.op g m d a i) (lat r.bundles m.tv) (toScalar r.latch m d (r.value (s.ctx.src a) (i.signExtend 64))))
/-- R176, R177: the outcome goes to the first predicate and its complement to the second, by the family of the compare. -/
def Sys2Proof.Say.ScalarCompare : Prop :=
  (∀ r ∈ cmpRows, ∀ (s : State) (g : Guard) (tv : Bool) (c : Comb) (p q : PReg) (a b : Src), s.ctx.guard g = true →
    Gives s (r.op g tv c p q a b) (lat r.bundles tv) fun x =>
      toPred c q (!r.test (s.ctx.src a) (s.ctx.src b)) (toPred c p (r.test (s.ctx.src a) (s.ctx.src b)) x)) ∧
  (∀ r ∈ cmpImmRows, ∀ (s : State) (g : Guard) (tv : Bool) (c : Comb) (p q : PReg) (a : Src) (i : BitVec 13),
    s.ctx.guard g = true →
    let v : Word := if r.signed then i.signExtend 64 else i.setWidth 64
    Gives s (r.op g tv c p q a i) (lat 1 tv) fun x =>
      toPred c q (!r.test (s.ctx.src a) v) (toPred c p (r.test (s.ctx.src a) v) x))
/-- R166: predicate operations, and the moves between the predicates and a word, whose bit 0 stands for p0. -/
def Sys2Proof.Say.PredicateOps : Prop :=
  (∀ r ∈ ([(.pand, fun a b => a && b), (.por, fun a b => a || b), (.pxor, fun a b => a != b), (.pandn, fun a b => a && !b)] :
      List ((Guard → PReg → PReg → PReg → Instr) × (Bool → Bool → Bool))),
    ∀ (s : State) (g : Guard) (d a b : PReg), s.ctx.guard g = true →
      Gives s (r.1 g d a b) 1 (toPred .plain d (r.2 (s.ctx.p a) (s.ctx.p b)))) ∧
  (∀ (s : State) (g : Guard) (a : Src), s.ctx.guard g = true →
    Gives s (.pmovs g a) 1 fun x => (List.range 7).foldl (fun x k =>
      toPred .plain (BitVec.ofNat 3 (k + 1)) ((s.ctx.src a).getLsbD (k + 1)) x) x) ∧
  (∀ (s : State) (g : Guard) (d : SReg), s.ctx.guard g = true →
    Gives s (.pmovp g d) 1 (toReg d (BitVec.ofNat 64
      ((List.range 8).foldl (fun n k => n + if s.ctx.p (BitVec.ofNat 3 k) then 2 ^ k else 0) 0))))

namespace Sys2Proof.Say
open Sys2Proof.Machine

/-! ### The end of a bundle (R143) -/

/-- Nothing of the running bundle but its transfer waits for its end. -/
def Closes (s : State) : Prop := s.bundle.ctl = .none ∧ s.bundle.sysw = none ∧ s.bundle.post = none
/-- The running context once its bundle has ended. -/
def ended (s : State) : Ctx := ((endBundle s s.me).cube s.me).core
/-- The bundle of s takes a transfer to an address, the context becoming y. -/
def branched (s : State) (y : Ctx) (t : VA) : State := (s.modCtx fun _ => y).modBundle fun b => { b with taken := some t }
/-- A transfer without a link: nothing but the bundle's target changes, and the bundle ends at the target. -/
def Jumps (s : State) (i : Instr) (t : VA) : Prop :=
  exec i s = .next (branched s s.ctx t) ∧ (ended (branched s s.ctx t)).pc = t ∧ (ended (branched s s.ctx t)).regs = s.ctx.regs
/-- A transfer that leaves the next bundle's address in s63 with latency 1. -/
def Calls (s : State) (i : Instr) (t : VA) : Prop :=
  ∃ y, exec i s = .next (branched s y t) ∧ Lands 1 (toReg 63 ((s.ctx.pc + 16).setWidth 64)) s.ctx y ∧
    (ended (branched s y t)).pc = t ∧ (ended (branched s y t)).regs = s.ctx.regs
def away (s : State) (bundles : Int) : VA := s.ctx.pc + BitVec.ofInt 52 (16 * bundles)
/-- The same state with other loop entries and no entry pushed by the bundle. -/
def withLoops (s : State) (ls : List LoopEntry) : State :=
  (s.modCtx fun x => { x with loops := ls }).modBundle fun b => { b with pushed := false }
/-- `loop` and `loopi` with a count and a displacement (R168). -/
def Loops (s : State) (i : Instr) (count disp : Nat) : Prop :=
  if count = 0 then Jumps s i (away s disp + 16)
  else exec i s = .next ((s.modCtx fun x => { x with
    loops := x.loops ++ [⟨x.pc + 16, away s disp, BitVec.ofNat 32 (Nat.min count (2 ^ 32 - 1))⟩] }).modBundle
      fun b => { b with pushed := true })

/-! ### Accesses -/

/-- No injected fault is armed anywhere (R376). -/
def Quiet (s : State) : Prop := ∀ c, (s.cube c).con.injArm = false
/-- The n bytes from a key as the running strand reads them, least significant first. -/
def readNat (s : State) (key n : Nat) : Nat := packLE ((List.range n).map fun k => readByte s s.ctx.sid s.me false (key + k))
/-- A loaded number extended to 64 bits (R178). -/
def extended (n : Nat) (sx : Bool) (v : Nat) : Word :=
  if sx then BitVec.ofInt 64 (sint (8 * n) v) else BitVec.ofNat 64 (v % 2 ^ (8 * n))
/-- No line of n bytes from a key is poisoned. -/
def Clean (s : State) (key n : Nat) : Prop := ∀ k, k < n → s.poison.contains ((key + k) / 64) = false
/-- A read request of the running strand sets out; nothing else changes. -/
def Asks (s : State) (i : Instr) (p : ReadReq → Prop) : Prop :=
  ∃ r, exec i s = .next { s with reads := s.reads ++ [r], nextId := s.nextId + 1 } ∧ r.id = s.nextId ∧ r.sid = s.ctx.sid ∧
    r.cube = s.me ∧ r.status = .sent ∧ p r
/-- An item of the running strand sets out behind all others: memory, the windows and every other cube are as before, and of
its own cube only the line's numbering and the edge cache may change. It waits at its source for the fences in lower slots of its bundle,
for what its place on its line and at its location follows, and for the writes that it releases (R112, R118, R119, R196). Its number
counts the items of its strand's line, whatever their homes (log entry 139). -/
def Sends (s : State) (i : Instr) (p : Item → Prop) : Prop :=
  ∃ u m, exec i s = .next u ∧ u.items = s.items ++ [m] ∧ u.nextId = s.nextId + 1 ∧ u.mem = s.mem ∧ u.winq = s.winq ∧
    u.reads = s.reads ∧ u.poison = s.poison ∧ (∀ c, c ≠ s.me → u.cube c = s.cube c) ∧
    (∃ e, u.cube s.me = { s.cube s.me with
      core := { s.ctx with lineSeq := s.ctx.lineSeq.set m.line.toNat (m.seq + 1) m.line.isLt }, edge := e }) ∧
    m.id = s.nextId ∧ m.sid = s.ctx.sid ∧ m.cube = s.me ∧ m.mode = s.ctx.mode ∧
    m.seq = s.ctx.lineSeq.toList.getD m.line.toNat 0 ∧
    m.prior = (s.fencePrior false).join ⟨sourcePrior s m, [], sourceCmds s m⟩ ∧
    m.status = (if m.mayLeave s then .transit else .waiting) ∧ p m
/-- A key does not lie in a window of the running cube. -/
def Leaves (s : State) (key : Nat) : Prop := homeOf key ≠ 8 + s.me.val
/-- The instruction takes a trap, with the running bundle not executed (R146). -/
def Traps (s : State) (i : Instr) (t : Trap) : Prop := exec i s = .next (takeTrap s s.me t)
/-- The trap of the slot in execution. -/
def slotTrapWith (s : State) (cause : BitVec 8) (kind acc : BitVec 4) (addr : VA) : Trap :=
  ⟨cause, 0, kind, acc, BitVec.twoPow 4 s.bundle.slot.toNat, addr⟩

/-! ### Atomics, reductions and counters -/

noncomputable def amoRows : List ((Guard → SReg → Src → Src → Instr) × AmoOp × Bool) :=
  [(.amoAdd, .add, true), (.amoAnd, .and, true), (.amoOr, .or, true), (.amoXor, .xor, true), (.amoMin, .min, true),
   (.amoMax, .max, true), (.amoMinn, .minn, true), (.amoMaxn, .maxn, true), (.amoSwap, .swap, true), (.amoCas, .cas, true),
   (.amowAdd, .add, false), (.amowAnd, .and, false), (.amowOr, .or, false), (.amowXor, .xor, false), (.amowMin, .min, false),
   (.amowMax, .max, false), (.amowMinn, .minn, false), (.amowMaxn, .maxn, false), (.amowSwap, .swap, false),
   (.amowCas, .cas, false), (.amowFadd, .fadd, false), (.amowFmax, .fmax, false)]
noncomputable def redRows : List ((Guard → Bool → Bool → Src → Src → Instr) × AmoOp) :=
  [(.redAdd, .add), (.redAnd, .and), (.redOr, .or), (.redXor, .xor), (.redMin, .min), (.redMax, .max), (.redMinn, .minn),
   (.redMaxn, .maxn), (fun g o _ a b => .redFadd g o a b, .fadd), (fun g o _ a b => .redFmax g o a b, .fmax)]
/-- The operations on 32-bit floating point, which have no 64-bit form. -/
def isFloatOp (op : AmoOp) : Bool := match op with | .fadd | .fmax => true | _ => false

end Sys2Proof.Say

open Sys2Proof Sys2Proof.Machine Sys2Proof.Say

/-- R143: where a bundle ends, with the loop entries that it leaves; only the entry on top that the bundle itself pushed is not
examined. -/
def Sys2Proof.Say.NextAddress : Prop :=
  ∀ s : State, Closes s →
    (ended s).regs = s.ctx.regs ∧ (ended s).issued = s.ctx.issued + 1 ∧
    (∀ t, s.bundle.taken = some t → (ended s).pc = t ∧ (ended s).loops = s.ctx.loops) ∧
    (s.bundle.taken = none → s.bundle.pushed = false → s.ctx.loops = [] →
      (ended s).pc = s.ctx.pc + 16 ∧ (ended s).loops = []) ∧
    (∀ front e, s.bundle.taken = none → s.bundle.pushed = false → s.ctx.loops = front ++ [e] →
      if e.last ≠ s.ctx.pc then (ended s).pc = s.ctx.pc + 16 ∧ (ended s).loops = s.ctx.loops
      else if 1 < e.count.toNat then (ended s).pc = e.start ∧ (ended s).loops = front ++ [{ e with count := e.count - 1 }]
      else (ended s).pc = (ended (withLoops s front)).pc ∧ (ended s).loops = (ended (withLoops s front)).loops) ∧
    (∀ front e, s.bundle.taken = none → s.bundle.pushed = true → s.ctx.loops = front ++ [e] →
      (ended s).pc = (ended (withLoops s front)).pc ∧ (ended s).loops = (ended (withLoops s front)).loops ++ [e])
/-- R166, R167: the bundle ends at the target; with a link, s63 holds the address of the bundle behind it one bundle later. -/
def Sys2Proof.Say.BranchesAndJumps : Prop :=
  ∀ (s : State) (g : Guard), s.ctx.guard g = true → Closes s →
    (∀ disp, Jumps s (.br g disp) (away s disp.toInt) ∧ Calls s (.brl g disp) (away s disp.toInt)) ∧
    (∀ a, (s.ctx.src a).toNat % 16 = 0 →
      Jumps s (.jr g a) ((s.ctx.src a).setWidth 52) ∧ Calls s (.jrl g a) ((s.ctx.src a).setWidth 52)) ∧
    (∀ a, (s.ctx.src a).toNat % 16 ≠ 0 → Traps s (.jr g a) (slotTrapWith s 0x08 0 1 ((s.ctx.src a).setWidth 52)) ∧
      Traps s (.jrl g a) (slotTrapWith s 0x08 0 1 ((s.ctx.src a).setWidth 52)))
/-- R144, R168: a count of 0 skips the body; any other pushes an entry with the count, at most 2^32 − 1; a fifth entry
traps. `lpop` drops the innermost entry. -/
def Sys2Proof.Say.HardwareLoops : Prop :=
  ∀ (s : State) (g : Guard), s.ctx.guard g = true → Closes s →
    (∀ c e, (s.ctx.s c = 0 ∨ s.ctx.loops.length < 4 → Loops s (.loop g c e) (s.ctx.s c).toNat e.toNat) ∧
      (s.ctx.s c ≠ 0 → 4 ≤ s.ctx.loops.length → Traps s (.loop g c e) (slotTrapWith s 0x15 0 0 0))) ∧
    (∀ n e, (n = 0 ∨ s.ctx.loops.length < 4 → Loops s (.loopi g n e) n.toNat e.toNat) ∧
      (n ≠ 0 → 4 ≤ s.ctx.loops.length → Traps s (.loopi g n e) (slotTrapWith s 0x15 0 0 0))) ∧
    exec (.lpop g) s = .next (s.modCtx fun x => { x with loops := x.loops.dropLast })
/-- R178, R138: a load from base scratch of the own cube shows after 4 bundles, also in b4; any other sends a read request,
whose value is interlocked. -/
def Sys2Proof.Say.ScalarLoad : Prop :=
  ∀ (s : State) (g : Guard) (nw : Bool) (d : SReg) (base : Src) (z : Size) (x : Bool) (off : BitVec 11) (t : Target),
    s.ctx.guard g = true → ldCheck s base z off = .ok t →
    if isScratch s t.key then
      Quiet s → Clean s t.key z.bytes →
        Gives s (.ld g nw d base z x off) 4 (toScalar 4 ⟨nw, false⟩ d (extended z.bytes x (readNat s t.key z.bytes)))
    else
      Asks s (.ld g nw d base z x off) fun r =>
        r.cells = (List.range z.bytes).map (fun k => (t.key + k, 0 + k)) ∧ r.dest = .scalar d nw z.bytes x ∧
        r.va = effAddr s.ctx base off.toInt z.bytes
/-- R178, R117: a store sends the low bytes of its data register as an item on its line; no byte of memory changes yet. Its number
counts the items of the whole line, where R117 counts those to its home (log entry 139). -/
def Sys2Proof.Say.ScalarStore : Prop :=
  ∀ (s : State) (g : Guard) (data : SReg) (base : Src) (z : Size) (glob : Bool) (line : BitVec 3) (off : BitVec 11)
    (t : Target), s.ctx.guard g = true → stCheck s base z line off = .ok t → Leaves s t.key →
    Sends s (.st g data base z glob line off) fun m =>
      m.op = .store (cellsAt t.key (bytesLE z.bytes (s.ctx.s data).toNat)) ∧ m.line = line ∧ m.glob = glob ∧ m.rel = false ∧
      m.home = homeOf t.key ∧ m.va = effAddr s.ctx base off.toInt z.bytes
/-- R179: misalignment traps before a broken line does, and that before everything that depends on the target. -/
def Obligations.AccessTraps : Prop :=
  ∀ (s : State) (g : Guard) (base : Src) (z : Size) (off : BitVec 11), s.ctx.guard g = true →
    let ea := effAddr s.ctx base off.toInt z.bytes
    (ea.toNat % z.bytes ≠ 0 →
      (∀ nw d x, Traps s (.ld g nw d base z x off) (slotTrapWith s 0x08 0 2 ea)) ∧
      (∀ data glob line, Traps s (.st g data base z glob line off) (slotTrapWith s 0x08 0 3 ea))) ∧
    (ea.toNat % z.bytes = 0 → ∀ data glob line, line ≠ 0 → s.ctx.sys.broken.getLsbD line.toNat = true →
      Traps s (.st g data base z glob line off) (slotTrapWith s 0x14 0 3 ea)) ∧
    (ea.toNat % z.bytes = 0 → ∀ k, k ≠ kWalkError → checkAccess s s.agent .read ea = .fault k →
      ∀ nw d x, Traps s (.ld g nw d base z x off) (slotTrapWith s 0x06 k 2 ea)) ∧
    (ea.toNat % z.bytes = 0 → checkAccess s s.agent .read ea = .dead →
      ∀ nw d x, Traps s (.ld g nw d base z x off) (slotTrapWith s 0x0A 0 2 ea)) ∧
    (ea.toNat % z.bytes = 0 → ∀ k data glob line, k ≠ kWalkError → (line = 0 ∨ s.ctx.sys.broken.getLsbD line.toNat = false) →
      checkAccess s s.agent .write ea = .fault k →
      Traps s (.st g data base z glob line off) (slotTrapWith s 0x07 k 3 ea))
/-- R181: an atomic sends its operation with its operands, a compare-and-swap with s(b+1) as the value to write, which `ItemsAtHome`
writes only where the old value equals s(b); its old value is to come back to the destination unless that is s0. Over a latch b the
new value is s1, by the model's choice (log entry 11), and an item's number counts its whole line (139). -/
def Sys2Proof.Say.Atomics : Prop :=
  ∀ r ∈ amoRows, ∀ (s : State) (g : Guard) (d : SReg) (a b : Src) (t : Target), s.ctx.guard g = true →
    amoCheck s false r.2.2 r.2.1 a = .ok t → (Leaves s t.key ∨ d ≠ 0) →
    Sends s (r.1 g d a b) fun m =>
      m.op = .amo r.2.1 r.2.2 t.key (s.ctx.src b) (match b with | .reg n => s.ctx.s (n + 1) | .latch _ => s.ctx.s 1) ∧ m.dest = (if d = 0 then none else some d) ∧
      m.home = homeOf t.key ∧ m.line = 0 ∧ m.ordered = false ∧ m.va = (s.ctx.src a).setWidth 52
/-- R183: a reduction sends its operation and returns nothing; only the ordered form keeps its place. -/
def Sys2Proof.Say.Reductions : Prop :=
  ∀ r ∈ redRows, ∀ (s : State) (g : Guard) (ord z : Bool) (a b : Src) (t : Target), s.ctx.guard g = true →
    (isFloatOp r.2 = true → z = false) → amoCheck s true z r.2 a = .ok t → Leaves s t.key →
    Sends s (r.1 g ord z a b) fun m =>
      m.op = .amo r.2 z t.key (s.ctx.src b) 0 ∧ m.dest = none ∧ m.ordered = ord ∧ m.home = homeOf t.key ∧ m.line = 0 ∧
      m.va = (s.ctx.src a).setWidth 52
/-- R185, R112: counter operations as items on their lines; a release waits at its source for the earlier writes into the
regions bound to its counter. -/
def Sys2Proof.Say.CounterOps : Prop :=
  ∀ (s : State) (g : Guard) (line : BitVec 3) (glob : Bool) (a b : Src) (scope : Scope) (rel : Bool) (t : Target),
    s.ctx.guard g = true → Leaves s t.key →
    (counterCheck s false line a = .ok t → keySpace s t.key ≠ .host → (∀ p, t.peer = some p → peerIrsere s p = true) →
      Sends s (.cadd g line glob a b scope rel) fun m =>
        m.op = .cadd t.key (s.ctx.src b) ∧ m.line = line ∧ m.glob = glob ∧ m.rel = rel ∧
        (rel = true → m.scope = scope ∧ ∀ id ∈ coveredBy s s.ctx ((s.ctx.src a).setWidth 52), id ∈ m.after)) ∧
    (counterCheck s true line a = .ok t →
      Sends s (.cmax g line glob a b scope rel) fun m =>
        m.op = .cmax t.key (s.ctx.src b) ∧ m.line = line ∧ m.glob = glob ∧ m.rel = rel ∧
        (rel = true → m.scope = scope ∧ ∀ id ∈ coveredBy s s.ctx ((s.ctx.src a).setWidth 52), id ∈ m.after))

namespace Sys2Proof.Say
open Sys2Proof.Machine

/-! ### Division (R172) -/

noncomputable def divRows : List ((Guard → Mods → SReg → Src → Src → Instr) × (Word → Word → Word)) :=
  [(.div, fun a b => if b = 0 then BitVec.allOnes 64 else BitVec.ofInt 64 (Int.tdiv a.toInt b.toInt)),
   (.divn, fun a b => if b = 0 then BitVec.allOnes 64 else BitVec.ofNat 64 (a.toNat / b.toNat)),
   (.rem, fun a b => if b = 0 then a else BitVec.ofInt 64 (Int.tmod a.toInt b.toInt)),
   (.remn, fun a b => if b = 0 then a else BitVec.ofNat 64 (a.toNat % b.toNat))]

/-! ### System instructions -/

/-- What a read of a register whose reads have an effect does beside giving its value (R102, R375). -/
def drained (s : State) (n : Nat) : State :=
  if n = 0x421 then { s with fab := { s.fab with migQueue := s.fab.migQueue.tail } }
  else if n = 0x510 then s.modCube s.me fun k => { k with con := { k.con with ceLog := k.con.ceLog.tail } }
  else if n = 0x511 then s.modCube s.me fun k => { k with con := { k.con with ueLog := k.con.ueLog.tail } }
  else s
/-- The bundle of s has a control instruction, a register write or a trap waiting for its end. -/
def withCtl (s : State) (c : Control) : State := s.modBundle fun b => { b with ctl := c }
def withWrite (s : State) (n : BitVec 12) (v : Word) : State := s.modBundle fun b => { b with sysw := some (n, v) }
def withTrap (s : State) (t : Trap) : State := s.modBundle fun b => { b with post := some t }
/-- No item and no read of a strand is in flight. -/
def AtRest (s : State) (sid : Nat) : Prop := (∀ m ∈ s.items, m.sid ≠ sid) ∧ ∀ r ∈ s.reads, r.sid ≠ sid
/-- The strand of shelf j runs, as y. -/
def OnCore (u : State) (c : CubeId) (j : ShelfId) (y : Ctx) : Prop :=
  (u.cube c).cur = .shelf j ∧ (u.cube c).core = { y with status := .running } ∧ (u.cube c).quantumUsed = 0
/-- The runtime context of e is off the core in u, with its registers and its system registers as they were. -/
def HandlerLeft (u e : State) (c : CubeId) : Prop :=
  (u.cube c).cur ≠ .runtime ∧ (u.cube c).rt.status = .ready ∧ (u.cube c).rt.mode = (e.cube c).core.mode ∧
    (u.cube c).rt.pc = (e.cube c).core.pc ∧ (u.cube c).rt.regs = (landDue (e.cube c).core).regs ∧
    (u.cube c).rt.sys = (e.cube c).core.sys ∧ u.mem = e.mem
/-- The running context writes a register of its cube; here for a register of the context itself. -/
def setsOwn (s : State) (n : BitVec 12) (v : Word) (f : Ctx → Ctx) : Prop :=
  ended (withWrite s n v) = f (ended s)

/-! ### Results of the atelier -/

/-- A value comes back as an interlocked result; what else the instruction does to s is u. -/
def Answers (s u : State) (i : Instr) (d : SReg) (v : Word) : Prop :=
  ∃ r, exec i s = .next { u with reads := u.reads ++ [r], nextId := u.nextId + 1 } ∧ r.id = u.nextId ∧ r.sid = u.ctx.sid ∧
    r.cube = u.me ∧ r.status = .served ∧ r.dest = .scalar d false 8 false ∧ r.value.setWidth 64 = v ∧ r.bad = false
/-- A fence holds later bundles of the strand, and in its own bundle the memory operations in higher slots, which wait for the
same accesses and for the commands that a `qfence` names (R196, R197). -/
def fencing (s : State) (f : FenceHold) (cmds : List Nat) : State :=
  (s.modBundle fun b => { b with prior := b.prior ++ [(f.kind, ⟨f.items.map fun i => (f.scope, i), f.reads, cmds⟩)] }).modCtx fun x =>
    { x with fences := x.fences ++ [f] }
/-- The entry that `bind` and `unbind` mean: whole 4 KiB granules, within the address space (R193). -/
def boundTo (k base size : Word) : Binding :=
  let lo := (base.toNat % 2 ^ 52) / 4096 * 4096
  ⟨k.setWidth 52, BitVec.ofNat 52 lo,
    Nat.min (((base.toNat % 2 ^ 52) + size.toNat + 4095) / 4096 * 4096) (2 ^ 52) - lo⟩

end Sys2Proof.Say

open Sys2Proof Sys2Proof.Machine Sys2Proof.Say

/-- R172, R138: the quotient or the remainder comes back as an interlocked result, which NW keeps out of the register. -/
def Sys2Proof.Say.Division : Prop :=
  ∀ r ∈ divRows, ∀ (s : State) (g : Guard) (m : Mods) (d : SReg) (a b : Src), s.ctx.guard g = true →
    ∃ q, exec (r.1 g m d a b) s = .next { s with reads := s.reads ++ [q], nextId := s.nextId + 1 } ∧
      q.id = s.nextId ∧ q.sid = s.ctx.sid ∧ q.status = .served ∧ q.dest = .division d m.nw m.tv ∧ q.bad = false ∧
      q.value.setWidth 64 = r.2 (s.ctx.src a) (s.ctx.src b)
/-- R157, R164, R165: what `nop`, `cyc`, `self`, `noise` and `sysrd` leave; a `noise` takes its word from the queue when its
bundle ends. -/
def Sys2Proof.Say.SystemValues : Prop :=
  ∀ (s : State) (g : Guard) (d : SReg), s.ctx.guard g = true →
    exec .nop s = .next s ∧ Gives s (.cyc g d) 1 (toReg d s.cycle) ∧
    Gives s (.self g d) 1 (toReg d (s.ctx.task.index.setWidth 64)) ∧
    (∀ w rest, s.ctx.noise.queue = w :: rest → ∃ y u, exec (.noise g d) s = .next u ∧
      u = (s.modCtx fun _ => y).modBundle (fun b => { b with popS := true }) ∧ Lands 1 (toReg d w) s.ctx y ∧
      (Closes s → s.bundle.popV = false → (ended u).noise.queue = rest)) ∧
    (∀ n : BitVec 12, readTraps s.ctx.mode n.toNat = false → ∃ y, exec (.sysrd g d n) s = .next (drained (s.modCtx fun _ => y) n.toNat) ∧
      Lands 2 (toReg d (regValue s s.me s.ctx n.toNat)) s.ctx y)
/-- R165: a `syswr` that its mode allows takes effect when its bundle ends; three registers of the context as examples, of
which the rounding mode refuses the reserved codes. -/
def Sys2Proof.Say.SystemWrites : Prop :=
  ∀ (s : State) (g : Guard) (r : SReg), s.ctx.guard g = true → Closes s →
    (∀ n : BitVec 12, writeTraps s.ctx.mode n.toNat = false →
      exec (.syswr g r n) s = .next (withWrite s n (s.ctx.s r)) ∧
      endBundle (withWrite s n (s.ctx.s r)) s.me = sysWrite (endBundle s s.me) s.me s.ctx.mode n.toNat (s.ctx.s r)) ∧
    (∀ v : Word, (s.cube s.me).cur ≠ .none →
      setsOwn s 0x002 v (fun x => if v.toNat % 8 < 5 then { x with sys := { x.sys with frm := v.setWidth 3 } } else x) ∧
      (s.ctx.mode ≠ .task → setsOwn s 0x050 v (fun x => { x with sys := { x.sys with asn := v.setWidth 12 } }) ∧
        setsOwn s 0x018 v (fun x => { x with sys := { x.sys with tvec := v.setWidth 52 &&& ~~~0xF } })))
/-- R158, R161, R162: what control instructions leave for the end of their bundle, and what stands there then, once the context's
interlocked operations are complete (R152). A strand that halts is off the core, with its own bundle as the place to go on from; a
handler that halts, or that returns, keeps its registers and its trap record. Which bundles an `iflush` drops is the model's choice
(log entry 106). -/
def Sys2Proof.Say.ControlAtEnd : Prop :=
  ∀ (s : State) (g : Guard), s.ctx.guard g = true → Closes s →
    let c := s.me
    let e := endBundle s c
    let after (x : Control) : State := endBundle (withCtl s x) c
    exec (.halt g) s = .next (withCtl s .halt) ∧
    exec (.iflush g) s = .next (withCtl s .iflush) ∧
    after .iflush = (e.modCube c fun k =>
      { k with icache := k.icache.filter fun e => !(if e.phys then s.ctx.mode != .task else e.asn == s.ctx.sys.asn) }) ∧
    (s.ctx.mode ≠ .task → exec (.eret g) s = .next (withCtl s .eret)) ∧
    (∀ x, x = .halt ∨ x = .eret → interlocksOut e s.ctx.sid = true →
      after x = e.modCube c fun k => { k with leave := .control x s.ctx.pc }) ∧
    (AtRest e s.ctx.sid →
      (∀ i, (s.cube c).cur = .shelf i →
        (∃ x, ((after .halt).cube c).shelves.get i = some x ∧ x.status = .halting ∧ x.pc = s.ctx.pc ∧
          x.mode = s.ctx.mode ∧ x.sid = s.ctx.sid ∧ x.regs = (landDue (e.cube c).core).regs ∧ x.sys = (e.cube c).core.sys) ∧
        (∀ m ∈ ((after .halt).cube c).monitors, m.shelf ≠ i) ∧ (after .halt).mem = e.mem ∧
        ((e.cube c).ready = [] → ((after .halt).cube c).cur = .none)) ∧
      ((s.cube c).cur = .runtime → HandlerLeft (after .halt) e c ∧ ((e.cube c).ready = [] → ((after .halt).cube c).cur = .none) ∧
        ∀ j y, nextReady (e.cube c) = some j → (e.cube c).hw.life = .live → (e.cube c).patches = [] →
          (e.cube c).shelves.get j = some y → OnCore (after .halt) c j y) ∧
      ((s.cube c).cur = .runtime → s.ctx.sys.tshelf.getLsbD 4 = false → after .eret = e) ∧
      (∀ (i : ShelfId) y, (s.cube c).cur = .runtime → s.ctx.sys.tshelf = 0x10 + BitVec.ofNat 5 i.val →
        (e.cube c).shelves.get i = some y → y.status = .trapped → (e.cube c).patches = [] →
        let back : Ctx := { y with pc := s.ctx.sys.trec.tpc.setWidth 52 &&& ~~~(0xF : VA) }
        HandlerLeft (after .eret) (e.modCube c fun k => k.modCore fun x =>
          { x with sys := { x.sys with tshelf := BitVec.ofNat 5 i.val } }) c ∧
        ((∀ j ∈ (e.cube c).ready, shelfPrio (e.cube c) j ≤ y.task.prio.toNat) → OnCore (after .eret) c i back) ∧
        ∀ j z, nextReady (e.cube c) = some j → j ≠ i → (e.cube c).shelves.get j = some z → y.task.prio.toNat < z.task.prio.toNat →
          OnCore (after .eret) c j z ∧ ((after .eret).cube c).shelves.get i = some { back with status := .ready } ∧
          ((after .eret).cube c).ready = i :: (e.cube c).ready.filter (· != j)) ∧
      ((s.cube c).cur = .secure → ∀ x, x = .halt ∨ x = .eret →
        ((after x).cube c).cur = .runtime ∧ ((after x).cube c).sec.regs = (landDue (e.cube c).core).regs ∧
        ((after x).cube c).sec.sys = (e.cube c).core.sys ∧ (after x).mem = e.mem ∧
        ((after x).cube c).core = { (e.cube c).rt with
          status := .running
          pc := if x = .eret then s.ctx.sys.trec.tpc.setWidth 52 &&& ~~~(0xF : VA) else (e.cube c).rt.pc }))
/-- R157, R163, R165: a `tlbi` sets out and is not waited for; in task mode the privileged instructions, and system registers
that the mode may not read or write, trap before their bundle commits. -/
def Sys2Proof.Say.Privileged : Prop :=
  ∀ (s : State) (g : Guard), s.ctx.guard g = true →
    (s.ctx.mode ≠ .task → ∀ d a code, exec (.tlbi g d a code) s = .next { s with
      tlbis := s.tlbis ++ [⟨s.nextId, s.ctx.sid, (s.ctx.s d).setWidth 12, (s.ctx.src a).setWidth 52, code.toNat⟩]
      nextId := s.nextId + 1 }) ∧
    (s.ctx.mode = .task → Traps s (.eret g) (slotTrapWith s 0x03 0 0 0) ∧
      ∀ d a code, Traps s (.tlbi g d a code) (slotTrapWith s 0x03 0 0 0)) ∧
    (∀ d n, readTraps s.ctx.mode n.toNat = true → Traps s (.sysrd g d n) (slotTrapWith s 0x03 0 0 0)) ∧
    (∀ r n, writeTraps s.ctx.mode n.toNat = true → Traps s (.syswr g r n) (slotTrapWith s 0x03 0 0 0))
/-- R186, R187: a `cwait` first reads its counter, with its bundle waiting, and when it has been satisfied gives the value to
the next bundle; an acquire changes nothing beside but the edge cache. A `crd` sends its read. -/
def Sys2Proof.Say.CounterReads : Prop :=
  ∀ (s : State) (g : Guard) (d : SReg) (a b : Src) (scope : Scope) (acq np : Bool) (t : Target), s.ctx.guard g = true →
    (counterReadCheck s a = .ok t → s.ctx.wait = .none → ∃ r w, exec (.cwait g d a b scope acq np) s =
        .next { s.modCtx (fun x => { x with wait := .reading s.nextId w }) with
          reads := s.reads ++ [r], nextId := s.nextId + 1 } ∧
      r.id = s.nextId ∧ r.dest = .wait ∧ r.status = .sent ∧ r.cells = (List.range 8).map (fun k => (t.key + k, 0 + k)) ∧
      r.cached = [] ∧ w.key = t.key ∧ w.va = (s.ctx.src a).setWidth 52 ∧ w.target = s.ctx.src b ∧
      (w.park = true ↔ s.ctx.mode = .task ∧ np = false)) ∧
    (∀ v, s.ctx.wait = .satisfied v → ∃ y e,
      exec (.cwait g d a b scope acq np) s = .next ((s.modCube s.me fun k => { k with edge := e }).modCtx fun _ => y) ∧
      Lands 1 (toReg d v) { s.ctx with wait := .none } y ∧ (acq = false → e = (s.cube s.me).edge)) ∧
    (counterReadCheck s a = .ok t → ∃ r u, exec (.crd g d a scope acq) s =
        .next { u with reads := s.reads ++ [r], nextId := s.nextId + 1 } ∧
      r.id = s.nextId ∧ r.sid = s.ctx.sid ∧ r.dest = .scalar d false 8 false ∧ r.status = .sent ∧
      r.cells = (List.range 8).map (fun k => (t.key + k, 0 + k)) ∧ r.cached = [] ∧
      u = if acq then s.modCtx fun x => { x with acqs := x.acqs ++ [⟨s.nextId, boundRegions x ((s.ctx.src a).setWidth 52)⟩] } else s)
/-- R122, R196, R197: a fence takes note of what the strand has in flight, of the kinds that it orders; a `qfence` of the
commands that it names, and with bit 5 of everything in flight; an empty mask of nothing. -/
def Sys2Proof.Say.Fences : Prop :=
  ∀ (s : State) (g : Guard), s.ctx.guard g = true →
    (∀ kind scope, ∃ f : FenceHold, exec (.fence g kind scope) s = .next (fencing s f []) ∧
      f.kind = kind ∧ f.scope = scope ∧
      (∀ m ∈ s.items, m.sid = s.ctx.sid → m.cmd = none → kind ≠ .loadLoad → m.id ∈ f.items) ∧
      (∀ r ∈ s.reads, r.sid = s.ctx.sid → kind ≠ .storeStore → r.id ∈ f.reads) ∧
      (∀ t ∈ s.tlbis, t.sid = s.ctx.sid → kind = .full → scope ≠ .cube → t.id ∈ f.tlbis)) ∧
    (∀ mask : BitVec 6, ∃ f : QFenceHold, f.mask = mask ∧ f.core = mask.getLsbD 5 ∧
      (∀ m ∈ (s.cube s.me).cmds, m.sid = s.ctx.sid → mask.getLsbD (queueBit m.queue) = true → m.id ∈ f.cmds) ∧
      (mask.getLsbD 5 = true → ∀ m ∈ s.items, m.sid = s.ctx.sid → m.cmd = none → m.id ∈ f.items) ∧
      exec (.qfence g mask) s = .next (
        if mask = 0 then s
        else if mask.getLsbD 5 then (fencing s (fenceHold s s.ctx .full .pkg) f.cmds).modCtx fun x => { x with qfences := x.qfences ++ [f] }
        else s.modCtx fun x => { x with qfences := x.qfences ++ [f] }))
/-- R193, R194: a binding in a free entry, once; a misaligned counter and a full table trap; `unbind` removes the counter's
bindings, or the one of exactly the region. -/
def Sys2Proof.Say.Bindings : Prop :=
  ∀ (s : State) (g : Guard) (d : SReg) (a b : Src), s.ctx.guard g = true →
    let e := boundTo (s.ctx.s d) (s.ctx.src a) (s.ctx.src b)
    let l := s.ctx.binds.toList
    ((s.ctx.s d).toNat % 8 ≠ 0 → Traps s (.bind g d a b) (slotTrapWith s 0x08 0 0 ((s.ctx.s d).setWidth 52))) ∧
    ((s.ctx.s d).toNat % 8 = 0 → s.ctx.src b = 0 ∨ some e ∈ l → exec (.bind g d a b) s = .next s) ∧
    ((s.ctx.s d).toNat % 8 = 0 → s.ctx.src b ≠ 0 → some e ∉ l → none ∉ l → Traps s (.bind g d a b) (slotTrapWith s 0x16 0 0 0)) ∧
    ((s.ctx.s d).toNat % 8 = 0 → s.ctx.src b ≠ 0 → some e ∉ l → none ∈ l → ∃ n : Fin 32, s.ctx.binds.get n = none ∧
      exec (.bind g d a b) s = .next (s.modCtx fun x => { x with binds := x.binds.set n.val (some e) n.isLt })) ∧
    ∃ bs, exec (.unbind g d a b) s = .next (s.modCtx fun x => { x with binds := bs }) ∧
      ∀ (n : Fin 32) f, bs.get n = some f ↔
        s.ctx.binds.get n = some f ∧ (if s.ctx.src b = 0 then f.counter ≠ e.counter else f ≠ e)

namespace Sys2Proof.Say
open Sys2Proof.Machine

/-! ### Trains and launches -/

/-- A train record of 64 bytes lies in HBM of this package, no cube of which is being evacuated (R381). -/
def RecordAt (s : State) (key : Nat) : Prop :=
  key % 64 = 0 ∧ Memory.wf s.mem ∧ (∃ n, keySpace s key = .hbm n) ∧ ∀ c, (s.cube c).hw.life ≠ .evacuating
/-- The bytes outside n bytes from a key read as before. -/
def ElseSame (s u : State) (key n : Nat) : Prop := ∀ a, a < key ∨ key + n ≤ a → memByte u.mem a = memByte s.mem a
/-- What a packet asks for, and the atelier's means to take it (R222 to R226). -/
def Acceptable (s : State) (p : BitVec 512) (slot : BitVec 8) : Prop :=
  pktMalformed p = false ∧ partClosed s (BitVec.ofNat 3 (pktField p 0x12 1)) = false ∧
    (∀ l ∈ s.atl.board, l.slot ≠ slot) ∧ ∀ n, n < slot → ∃ l ∈ s.atl.board, l.slot = n
/-- The scoreboard with the launch of a packet in a slot (R226). -/
def boarded (s : State) (p : BitVec 512) (slot : BitVec 8) : State :=
  { s with atl := { s.atl with
    board := s.atl.board ++ [pktLaunch p slot (s.atl.gens.get slot.toFin) s.atl.arrivals], arrivals := s.atl.arrivals + 1 } }
/-- The answer for a launch that is on the scoreboard. -/
def slotAnswer (s : State) (slot : BitVec 8) : Word :=
  BitVec.ofNat 64 ((s.atl.gens.get slot.toFin).toNat * 2 ^ 24 + slot.toNat * 2 ^ 16)
/-- The 64 bytes of a launch packet in memory as the strand reads them, with its own address space in their ASN field. -/
def packetAt (s : State) (t : Target) : BitVec 512 :=
  pktWithAsn (BitVec.ofNat 512 (packLE ((List.range 64).map fun k => readByte s s.ctx.sid s.me t.cached (t.key + k)))) s.ctx.sys.asn

end Sys2Proof.Say

open Sys2Proof Sys2Proof.Machine Sys2Proof.Say

/-- R246: the atelier's writes of a train record give COUNT, TRAIN and LIVE, add one to EPOCH, and touch nothing else of
memory. -/
def Sys2Proof.Say.TrainRecord : Prop :=
  ∀ (s : State) (key count entry : Nat), RecordAt s key → count ≤ 128 → entry < 512 →
    let u := setRecord s key count entry
    memNat u.mem key 1 = count ∧ (memNat u.mem key 8) / 2 ^ 16 % 2 ^ 9 = entry ∧
    recLive u key = decide (count ≠ 0) ∧ memWord u.mem (key + 8) = caddValue (memWord s.mem (key + 8)) 1 ∧ ElseSame s u key 16
/-- R228, R247, R374: `join`, `leave` and `trninfo` with their answers; a record on a poisoned line gives none, but a deferred trap.
That nothing of such a record changes is the model's reading (log entry 125). -/
def Sys2Proof.Say.Trains : Prop :=
  ∀ (s : State) (g : Guard) (d : SReg) (a : Src) (t : Target), s.ctx.guard g = true → trainCheck s a = .ok t → Quiet s →
    let n := recCount s t.key
    let mine := trainOf s s.ctx.sid
    let Poisoned (i : Instr) : Prop :=
      exec i s = .next (s.modCtx fun x => x.addPending ⟨0x09, 0, 0, 4, 0, (s.ctx.src a).setWidth 52⟩ s.place)
    (inHbm s t.key = false → Answers s s (.join g d a) d 4) ∧
    (s.poison.contains (t.key / 64) = true → (inHbm s t.key = true → Poisoned (.join g d a)) ∧ Poisoned (.leave g d a) ∧
      Poisoned (.trninfo g d a)) ∧
    (s.poison.contains (t.key / 64) = false →
    (inHbm s t.key = true → ∀ r, mine = some r → Answers s s (.join g d a) d (if r.key = t.key then 1 else 5)) ∧
    (inHbm s t.key = true → mine = none → recLive s t.key = false → (∀ e, e < 512 → ∃ r ∈ s.atl.trains, r.entry = e) →
      Answers s s (.join g d a) d 6) ∧
    (RecordAt s t.key → mine = none → recLive s t.key = false → (∃ e, e < 512 ∧ ∀ r ∈ s.atl.trains, r.entry ≠ e) → ∃ u e,
      Answers s u (.join g d a) d 256 ∧ e < 512 ∧ (∀ r ∈ s.atl.trains, r.entry ≠ e) ∧
      memNat u.mem t.key 8 = 1 + e * 2 ^ 16 + 2 ^ 31 ∧ memNat u.mem (t.key + 8) 8 = 1 ∧
      (∀ k, 16 ≤ k → k < 64 → memByte u.mem (t.key + k) = 0) ∧ ElseSame s u t.key 64 ∧
      u.atl.trains = (s.atl.trains ++ [(⟨e, t.key, []⟩ : Train)]).map fun r =>
        if r.key = t.key then { r with members := r.members ++ [s.ctx.sid] } else r) ∧
    (inHbm s t.key = true → mine = none → recLive s t.key = true → n = 128 → Answers s s (.join g d a) d 0x8002) ∧
    (inHbm s t.key = true → mine = none → recLive s t.key = true → n ≠ 128 → ∃ u,
      Answers s u (.join g d a) d (BitVec.ofNat 64 ((n + 1) * 256)) ∧
      u.mem = (setRecord s t.key (n + 1) (recEntry s t.key)).mem ∧
      u.atl.trains = s.atl.trains.map fun r => if r.key = t.key then { r with members := r.members ++ [s.ctx.sid] } else r) ∧
    ((∀ r, mine = some r → r.key ≠ t.key) → Answers s s (.leave g d a) d (BitVec.ofNat 64 (1 + n * 256))) ∧
    (∀ r, mine = some r → r.key = t.key → ∃ u,
      Answers s u (.leave g d a) d (BitVec.ofNat 64 (recCount u t.key * 256)) ∧
      u.mem = (setRecord s t.key (n - 1) r.entry).mem ∧
      u.atl.trains = if n - 1 = 0 then s.atl.trains.filter (fun q => q.entry != r.entry)
        else s.atl.trains.map fun q => if q.entry = r.entry then { q with members := q.members.filter (· != s.ctx.sid) } else q) ∧
    Answers s s (.trninfo g d a) d (BitVec.ofNat 64 n ||| (if (match mine with | some r => r.key == t.key | none => false) then 256 else 0) |||
      (if recLive s t.key then 512 else 0)))
/-- R224 to R226, R229, R230: the answer to a packet, at `launch` and where it arrives from outside; only an acceptable packet
takes a slot. That its form is tested before its partition, and that before the slots, and that it takes the lowest free slot, is the
model's choice (log entries 49 and 124). -/
def Sys2Proof.Say.PacketAnswers : Prop :=
  ∀ (s : State) (p : BitVec 512),
    (pktMalformed p = true → (acceptPacket s p).2 = 2) ∧
    (pktMalformed p = false → partClosed s (BitVec.ofNat 3 (pktField p 0x12 1)) = true → (acceptPacket s p).2 = 3) ∧
    (pktMalformed p = false → partClosed s (BitVec.ofNat 3 (pktField p 0x12 1)) = false →
      (∀ slot : BitVec 8, ∃ l ∈ s.atl.board, l.slot = slot) → (acceptPacket s p).2 = 1) ∧
    (∀ slot, Acceptable s p slot → acceptPacket s p = (boarded s p slot, slotAnswer s slot) ∧
      (s.secu.stage = 4 → ∀ bridge, exec (.launchPacketArrival bridge p) s = .next (boarded s p slot))) ∧
    (s.secu.stage ≠ 4 → ∀ bridge, exec (.launchPacketArrival bridge p) s = .next s)
/-- R229: `launch` with its answers: a malformed target, a priority above the strand's own, the atelier's answer, and 5 for a
packet that goes to a peer as a 64-byte write. -/
def Sys2Proof.Say.LaunchInstruction : Prop :=
  ∀ (s : State) (g : Guard) (d : SReg) (a b : Src), s.ctx.guard g = true → Quiet s →
    (launchCheck s a b = .ok none → Answers s s (.launch g d a b) d 2) ∧
    ∀ t, launchCheck s a b = .ok (some t) → s.poison.contains (t.key / 64) = false →
      let p := packetAt s t
      ((s.ctx.sys.tinfo.toNat / 2 ^ 32 % 4) < pktField p 2 1 → Answers s s (.launch g d a b) d 4) ∧
      (pktField p 2 1 ≤ (s.ctx.sys.tinfo.toNat / 2 ^ 32 % 4) → s.ctx.src b = 0 → ∀ slot, Acceptable s p slot →
        Answers s (boarded s p slot) (.launch g d a b) d (slotAnswer s slot)) ∧
      (pktField p 2 1 ≤ (s.ctx.sys.tinfo.toNat / 2 ^ 32 % 4) → s.ctx.src b ≠ 0 → ∃ u m,
        Answers s u (.launch g d a b) d 5 ∧ u.items = s.items ++ [m] ∧ u.mem = s.mem ∧
        m.op = .store (cellsAt (((s.ctx.src b).toNat % 1024 + 1) * 2 ^ 48 + 0x200_0000_0000) (bytesLE 64 p.toNat)))

namespace Sys2Proof.Say
open Sys2Proof.Machine

/-! ### Commands to the engines (R19, R20, R257) -/

/-- A command on lines 1 to 7 takes the strand's next number on its line (R117). -/
def numbered (m : Cmd) (x : Ctx) : Ctx :=
  if cmdLine m = 0 then x
  else { x with lineSeq := x.lineSeq.set (cmdLine m).toNat (x.lineSeq.get (cmdLine m).toFin + 1) (cmdLine m).isLt }
/-- A command in the cube queue: the layers of its plane queues are idle no longer, and a gated layer where it fires is requested
on (R387). Any other command leaves the layers as they are. -/
def wakened (q : Queue) (m : Cmd) (y : PwrRegs) : PwrRegs :=
  if q = .cubeq then { y with layers := Vector.ofFn fun l =>
    let x := y.layers.get l
    { x with idle := if m.planes.getLsbD l.val then 0 else x.idle
             pend := x.pend || ((fireLayers m).contains l.val && x.gated) } }
  else y
/-- A command enters its queue behind all others and takes its number on its line; nothing else changes, but for the layers that a
command of the cube queue needs. It waits for the fences on its queue (R197). -/
def Enqueues (s : State) (i : Instr) (q : Queue) (p : Cmd → Prop) : Prop :=
  ∃ m, exec i s = .next { s.modCube s.me (fun k => { k with
      core := numbered m k.core, cmds := k.cmds ++ [m], pwr := wakened q m k.pwr }) with nextId := s.nextId + 1 } ∧
    m.seq = s.ctx.lineSeq.toList.getD (cmdLine m).toNat 0 ∧ m.dead = s.ctx.lineBad (cmdLine m) ∧ m.acqs = s.ctx.acqs ∧
    m.id = s.nextId ∧ m.sid = s.ctx.sid ∧ m.queue = q ∧ m.mode = s.ctx.mode ∧ m.asn = s.ctx.sys.asn ∧
    m.part = s.ctx.part ∧ m.pals = (s.cube s.me).pals ∧ m.status = .queued ∧
    m.tag = BitVec.ofNat 32 (s.ctx.issued * 4 + s.bundle.slot.toNat) ∧
    (∀ f ∈ s.ctx.qfences, f.mask.getLsbD (queueBit q) = true → ∀ id ∈ f.cmds, id ∈ m.after) ∧ p m
/-- The queue has room for one more command (R19). -/
def HasRoom (s : State) (q : Queue) : Prop :=
  ((s.cube s.me).cmds.filter fun m => m.queue == q).length < (match q with | .cq0 | .cq1 => 64 | .cubeq | .drainq => 32 | .blkq => 16)

noncomputable def copyRows : List ((Guard → SReg → SReg → SReg → Bool → Instr) × CopyOp × Nat) :=
  [(.cpyLin, .lin, 4), (.cpyTwod, .twod, 4), (.cpyThreed, .threed, 6), (.cpyFill, .fill, 4), (.cpyLsplit, .lsplit, 4),
   (.cpyLgath, .lgath, 4), (.cpyMcast, .mcast, 4), (.cpyPfetch, .pfetch, 4), (.cgthGather, .gather, 4),
   (.cgthScatter, .scatter, 4), (.cgthGatheradd, .gatheradd, 4), (.credAddf32, .addF32, 4), (.credAddbf16, .addBf16, 4),
   (.credMaxf32, .maxF32, 4), (.credAddi32, .addI32, 4)]
noncomputable def blkRows : List ((Guard → SReg → SReg → SReg → Instr) × BlkOp) :=
  [(.blkAlloc, .alloc), (.blkFree, .free), (.blkShare, .share), (.blkXlate, .xlate), (.blkFetch, .fetch),
   (.blkAppend, .append), (.blkStat, .stat)]
noncomputable def accRows : List ((Guard → SReg → SReg → SReg → Instr) × CubeOp × Bool) :=
  [(fun g a _ c => .caccZero g a c, .zero, false), (.caccLd, .ld, true), (.caccSt, .st, true), (.caccMove, .move, true)]
/-- n registers from a on. -/
def regsFrom (x : Ctx) (a : SReg) (n : Nat) : List Word := (List.range n).map fun k => x.s (a + BitVec.ofNat 6 k)

/-! ### Spools -/

/-- Only contexts change, and the running one becomes f of itself. -/
def CtxBecomes (s : State) (i : Instr) (f : Ctx → Ctx) : Prop :=
  ∃ cs, exec i s = .next { s with cubes := cs } ∧ ({ s with cubes := cs } : State).ctx = f s.ctx
def withSpool (n : Fin 32) (f : Spool → Spool) (x : Ctx) : Ctx := { x with spools := x.spools.set n.val (f (x.spools.get n)) n.isLt }

/-! ### Guards -/

/-- The registers, latches and everything else of a state, but for what a slot that does not execute leaves alone: all. -/
def GuardedOff (i : Instr) : Prop := ∀ (s : State) (g : Guard), (instrUse i).g = some g → s.ctx.guard g = false → exec i s = .next s

end Sys2Proof.Say

open Sys2Proof Sys2Proof.Machine Sys2Proof.Say

/-- R255, R281, R288, R297, R298, R314, R336: every engine command enters its queue at the rear with its operands as the
registers then stand, and with the strand's address space, mode, partition and palettes. -/
def Obligations.EngineCommands : Prop :=
  ∀ (s : State) (g : Guard), s.ctx.guard g = true →
    (∀ r ∈ copyRows, ∀ a b c q, HasRoom s (if q then .cq1 else .cq0) →
      Enqueues s (r.1 g a b c q) (if q then .cq1 else .cq0) fun m =>
        m.kind = .copy r.2.1 ∧ m.grp = regsFrom s.ctx a r.2.2 ∧ m.ctr = s.ctx.s b ∧ m.amt = s.ctx.s c) ∧
    (∀ r ∈ blkRows, ∀ a b c, HasRoom s .blkq → Enqueues s (r.1 g a b c) .blkq fun m =>
      m.kind = .block r.2 ∧ m.grp = regsFrom s.ctx a 4 ∧ m.ctr = s.ctx.s b ∧ m.amt = s.ctx.s c) ∧
    (HasRoom s .cubeq → ∀ a b c hb ha z,
      Enqueues s (.cmma g a b hb ha z) .cubeq (fun m => m.kind = .cube (.mma z ha hb false) ∧
        m.grp = [s.ctx.s a, s.ctx.s b] ∧ m.planes = (s.ctx.s a).extractLsb' 27 8) ∧
      Enqueues s (.cmmaMsk g a b c hb ha z) .cubeq (fun m => m.kind = .cube (.mma z ha hb true) ∧
        m.grp = [s.ctx.s a, s.ctx.s b] ++ regsFrom s.ctx c 3 ∧ m.planes = (s.ctx.s a).extractLsb' 27 8) ∧
      Enqueues s (.crotH32 g a) .cubeq (fun m => m.kind = .cube (.rot false) ∧ m.grp = [s.ctx.s a]) ∧
      Enqueues s (.crotH64 g a) .cubeq (fun m => m.kind = .cube (.rot true) ∧ m.grp = [s.ctx.s a]) ∧
      ∀ r ∈ accRows, Enqueues s (r.1 g a b c) .cubeq (fun m => m.kind = .cube r.2.1 ∧
        m.grp = [s.ctx.s a, if r.2.2 then s.ctx.s b else 0] ++ (if c = 0 then [] else regsFrom s.ctx c 5) ∧
        (c ≠ 0 → m.ctr = s.ctx.s (c + 3) ∧ m.amt = s.ctx.s (c + 4)))) ∧
    (HasRoom s .drainq → ∀ a b c p, Enqueues s (if p then .cdrainP g a b c else .cdrain g a b c) .drainq fun m =>
      m.kind = .drain p ∧ m.grp = [s.ctx.s a, s.ctx.s b] ++ (if c = 0 then [] else regsFrom s.ctx c 5) ∧
      m.recipe = s.ctx.recipes.toList.getD ((s.ctx.s a).toNat / 2 ^ 16 % 16) 0 ∧
      (c ≠ 0 → s.ctx.s c ≠ 0 → m.ctr = s.ctx.s (c + 3) ∧ m.amt = s.ctx.s (c + 4)))
/-- R300, R301: spools are defined and reset whole; an advance of P or C on a spool at rest moves it at once when no store or
load of the strand is in flight; `cspl.rdp` reads both; what R300 forbids traps. -/
def Obligations.SpoolOps : Prop :=
  ∀ (s : State) (g : Guard) (a b c : SReg) (n : Fin 32), s.ctx.guard g = true → (s.cube s.me).cur ≠ .none →
    (∀ t, csplDefTrap s a b c = some t → t = slotTrapWith s 0x0D 0 0 0 ∧ Traps s (.csplDef g a b c) t) ∧
    (csplDefTrap s a b c = none → s.ctx.s a = BitVec.ofNat 64 n.val →
      CtxBecomes s (.csplDef g a b c) (withSpool n fun _ => ⟨s.ctx.s b, s.ctx.s c, 0, 0, [], [], []⟩)) ∧
    (csplResetTrap s a = none → s.ctx.s a = BitVec.ofNat 64 n.val →
      CtxBecomes s (.csplReset g a) (withSpool n fun sp =>
        ⟨(settleSpool s sp).loc, (settleSpool s sp).size, 0, 0, [], [], []⟩)) ∧
    (∀ sp : Spool, s.ctx.spools.get n = sp → sp.queueP = [] → sp.queueC = [] → sp.held = [] →
      s.findSid s.ctx.sid = some s.ctx → s.items = [] → s.reads = [] → s.ctx.s a = BitVec.ofNat 64 n.val → sp.region ≠ 0 →
      sp.cap ≤ 4096 →
      ((s.ctx.s b).toNat ≤ sp.cap - (sp.p - sp.c).toNat →
        CtxBecomes s (.csplAdvp g a b) (withSpool n fun sp => { sp with p := sp.p + (s.ctx.s b).setWidth 32 })) ∧
      ((s.ctx.s b).toNat ≤ (sp.p - sp.c).toNat → (s.ctx.s b).toNat ≤ 4096 →
        CtxBecomes s (.csplAdvc g a b) (withSpool n fun sp => { sp with c := sp.c + (s.ctx.s b).setWidth 32 })) ∧
      (∀ d, Gives s (.csplRdp g d a) 2 (toReg d (sp.p.setWidth 64 ||| (sp.c.setWidth 64 <<< 32))))) ∧
    (∀ sp : Spool, s.findSid s.ctx.sid = some s.ctx → s.ctx.spools.get n = sp → sp.held = [] → s.ctx.s a = BitVec.ofNat 64 n.val →
      (sp.region = 0 → Traps s (.csplAdvp g a b) (slotTrapWith s 0x0D 0 0 0) ∧ Traps s (.csplAdvc g a b) (slotTrapWith s 0x0D 0 0 0)) ∧
      (sp.cap - (sp.p - sp.c).toNat - sp.queueP.length < (s.ctx.s b).toNat → Traps s (.csplAdvp g a b) (slotTrapWith s 0x0D 0 0 0)) ∧
      ((sp.p - sp.c).toNat - sp.queueC.length < (s.ctx.s b).toNat → Traps s (.csplAdvc g a b) (slotTrapWith s 0x0D 0 0 0)))
/-- R302, R69: `cpal.set` leaves palettes for the end of its bundle, which puts them in place; `cpal.get`, `crcp.def` and
`crcp.get` act on the palettes and the recipes (R319). -/
def Sys2Proof.Say.PalettesAndRecipes : Prop :=
  ∀ (s : State) (g : Guard) (a b c : SReg), s.ctx.guard g = true →
    (cpalSetTrap s a b = none → ∀ ps, ps = (bankIndex s.ctx.part (s.ctx.s a)).map (fun i => (i.1, i.2, (s.ctx.s b).setWidth 7)) →
      exec (.cpalSet g a b) s = .next (s.modBundle fun u => { u with pals := u.pals ++ ps }) ∧
      (Closes s → ((endBundle (s.modBundle fun u => { u with pals := u.pals ++ ps }) s.me).cube s.me).pals =
        ps.foldl (fun (p : Palettes) (i : Nat × Nat × BitVec 7) =>
          if i.1 = 0 then (if h : i.2.1 < 32 then { p with scr := p.scr.set i.2.1 i.2.2 } else p)
          else (if h : i.2.1 < 512 then { p with face := p.face.set i.2.1 i.2.2 } else p))
          ((endBundle s s.me).cube s.me).pals)) ∧
    (cpalGetTrap s b = none → ∀ i, bankIndex s.ctx.part (s.ctx.s b) = [i] →
      Gives s (.cpalGet g a b) 2 (toReg a ((if i.1 = 0 then (s.cube s.me).pals.scr.toList.getD i.2 0
        else (s.cube s.me).pals.face.toList.getD i.2 0).setWidth 64))) ∧
    (∀ n : Fin 16, s.ctx.s a = BitVec.ofNat 64 n.val → crcpDefTrap s a b c = none →
      exec (.crcpDef g a b c) s = .next (s.modCtx fun x => { x with
        recipes := x.recipes.set n.val ((s.ctx.s c).append (s.ctx.s b)) n.isLt })) ∧
    (∀ (n : Fin 16) (hi : Bool), s.ctx.s b = BitVec.ofNat 64 (n.val + if hi then 16 else 0) →
      Gives s (.crcpGet g a b) 2 (toReg a ((s.ctx.recipes.get n).extractLsb' (if hi then 64 else 0) 64))) ∧
    (cpalSetTrap s a b ≠ none → Traps s (.cpalSet g a b) (slotTrapWith s 0x0D 0 0 0)) ∧
    (cpalGetTrap s b ≠ none → Traps s (.cpalGet g a b) (slotTrapWith s 0x0D 0 0 0)) ∧
    (crcpDefTrap s a b c ≠ none → Traps s (.crcpDef g a b c) (slotTrapWith s 0x0D 0 0 0)) ∧
    (32 ≤ (s.ctx.s b).toNat → Traps s (.crcpGet g a b) (slotTrapWith s 0x0D 0 0 0))
/-- R303 to R305: a join point notes the strand's incomplete commands on each layer that it names; `csync.stat` reads the state
of the planes; `csync.skew`, a privileged instruction, leaves a write to CUB_SKEW for when the commands before it are done. -/
def Sys2Proof.Say.SyncCommands : Prop :=
  ∀ (s : State) (g : Guard) (a b c : SReg), s.ctx.guard g = true →
    ((s.ctx.s a).toNat % 256 ≠ 0 → (s.cube s.me).joins.length < 8 → ∃ u j, exec (.csyncJoin g a b c) s = .next u ∧
      u.nextId = s.nextId + 1 ∧ (∀ o, o ≠ s.me → u.cube o = s.cube o) ∧ u.mem = s.mem ∧ u.ctx = s.ctx ∧
      (u.cube s.me).joins.map Join.id = (s.cube s.me).joins.map Join.id ++ [s.nextId] ∧ j ∈ (u.cube s.me).joins ∧
      j.id = s.nextId ∧ j.sid = s.ctx.sid ∧ j.layers = (s.ctx.s a).setWidth 8 ∧ j.ctr = s.ctx.s b ∧ j.amt = s.ctx.s c ∧
      ∀ (l : Nat) (m : Cmd), l < 8 → j.layers.getLsbD l = true → m ∈ (s.cube s.me).cmds → m.sid = s.ctx.sid → m.queue = .cubeq →
        m.planes.getLsbD l = true → (l, m.id) ∈ j.waits) ∧
    Gives s (.csyncStat g a) 2 (toReg a ((s.ctx.sys.jmask.setWidth 64 <<< 56) ||| (s.ctx.sys.jskew.setWidth 64 <<< 32) |||
      ((planesBusy (s.cube s.me)).setWidth 64 <<< 24) ||| fields8 3 (effStep s (s.cube s.me)))) ∧
    (s.ctx.mode ≠ .task → exec (.csyncSkew g a) s = .next (s.modCube s.me fun k => { k with
      eng := { k.eng with skewNext := k.eng.skewNext ++ [(s.nextId, (s.ctx.s a).setWidth 32)] } })) ∧
    (s.ctx.mode = .task → Traps s (.csyncSkew g a) (slotTrapWith s 0x03 0 0 0))
/-- R39: an instruction whose guard does not hold completes and changes nothing at all. -/
def Obligations.GuardFails : Prop := ∀ i : Instr, GuardedOff i

namespace Sys2Proof.Say
open Sys2Proof.Machine

/-! ### Vectors by their elements (R200 to R202) -/

/-- The vector whose element e is f e. -/
def vecOf (bytes : Nat) (f : Nat → Nat) : VWord := packElems bytes ((List.range (256 / bytes)).map f)
/-- A vector in its register and in the latch of its unit; NW leaves the register out. -/
def toVector (u : Bool) (m : Mods) (d : VReg) (v : VWord) (x : Ctx) : Ctx :=
  (if m.nw then x else x.setV d v).setLatchV (if u then 3 else 2) v
/-- Element e becomes `new e` where the mask has it active and `on` holds; what stands there when the result lands stays
elsewhere. With no active element nothing at all happens. `also` is what the result does beside. -/
def VecGives (s : State) (i : Instr) (l : Nat) (u : Bool) (m : Mods) (d : VReg) (bytes : Nat) (k : MReg) (on : Nat → Bool)
    (new : Nat → Nat) (also : VWord → Ctx → Ctx) : Prop :=
  if ∃ e, e < 256 / bytes ∧ active (s.ctx.m k) bytes e = true then
    Gives s i (lat l m.tv) fun x =>
      let v := vecOf bytes fun e => if active (s.ctx.m k) bytes e && on e then new e else elemAt (x.v d) bytes e
      also v (toVector u m d v x)
  else exec i s = .next s
/-- The whole vector is written, whatever the mask. -/
def VecGivesAll (s : State) (i : Instr) (l : Nat) (u : Bool) (m : Mods) (d : VReg) (v : VWord) : Prop :=
  Gives s i (lat l m.tv) (toVector u m d v)
abbrev V1 := MReg → Bool → Mods → VReg → VSrc → ElemT → Instr
abbrev V2 := MReg → Bool → Mods → VReg → VSrc → VSrc → ElemT → Instr
/-- A signed number brought to w bits. -/
def toBits (w : Nat) (i : Int) : Nat := (i % (2 ^ w : Nat)).toNat
/-- Clamped to the signed and to the unsigned numbers of w bits. -/
def clampS (w : Nat) (i : Int) : Nat := toBits w (max (-(2 ^ (w - 1) : Nat)) (min (((2 ^ (w - 1) : Nat) : Int) - 1) i))
def clampU (w : Nat) (i : Int) : Nat := (max 0 (min (((2 ^ w : Nat) : Int) - 1) i)).toNat
def allOn : Nat → Bool := fun _ => true
def nothingElse : VWord → Ctx → Ctx := fun _ x => x
/-- Element-wise instructions: latency, and the element made of the width in bits and the operands' elements. -/
def Elementwise1 (rs : List (V1 × Nat × (Nat → Nat → Nat))) : Prop :=
  ∀ r ∈ rs, ∀ (s : State) (k : MReg) (u : Bool) (m : Mods) (d : VReg) (a : VSrc) (t : ElemT),
    VecGives s (r.1 k u m d a t) r.2.1 u m d t.bytes k allOn
      (fun e => r.2.2 (8 * t.bytes) (elemAt (s.ctx.vsrc t.bytes a) t.bytes e)) nothingElse
def Elementwise2 (rs : List (V2 × Nat × (Nat → Nat → Nat → Nat))) : Prop :=
  ∀ r ∈ rs, ∀ (s : State) (k : MReg) (u : Bool) (m : Mods) (d : VReg) (a b : VSrc) (t : ElemT),
    VecGives s (r.1 k u m d a b t) r.2.1 u m d t.bytes k allOn
      (fun e => r.2.2 (8 * t.bytes) (elemAt (s.ctx.vsrc t.bytes a) t.bytes e) (elemAt (s.ctx.vsrc t.bytes b) t.bytes e))
      nothingElse
/-- VIA (R203). -/
noncomputable def viaRows : List (V2 × Nat × (Nat → Nat → Nat → Nat)) :=
  [(.vadd, 2, fun w x y => (x + y) % 2 ^ w), (.vsub, 2, fun w x y => toBits w (x - y)),
   (.vadds, 2, fun w x y => clampS w (sint w x + sint w y)), (.vsubs, 2, fun w x y => clampS w (sint w x - sint w y)),
   (.vaddsn, 2, fun w x y => clampU w (x + y)), (.vsubsn, 2, fun w x y => clampU w (x - y)),
   (.vmul, 3, fun w x y => x * y % 2 ^ w), (.vmulh, 3, fun w x y => toBits w (sint w x * sint w y / (2 ^ w : Nat))),
   (.vmulhn, 3, fun w x y => x * y / 2 ^ w),
   (.vmin, 2, fun w x y => if sint w x ≤ sint w y then x else y), (.vmax, 2, fun w x y => if sint w x ≤ sint w y then y else x),
   (.vminn, 2, fun _ x y => min x y), (.vmaxn, 2, fun _ x y => max x y), (.vavgn, 2, fun _ x y => (x + y + 1) / 2)]
/-- VLG (R204). -/
noncomputable def vlgRows : List (V2 × Nat × (Nat → Nat → Nat → Nat)) :=
  [(.vand, 2, fun _ x y => x &&& y), (.vor, 2, fun _ x y => x ||| y), (.vxor, 2, fun _ x y => x ^^^ y),
   (.vandn, 2, fun w x y => x &&& (2 ^ w - 1 - y)), (.vshl, 2, fun w x y => x * 2 ^ (y % w) % 2 ^ w),
   (.vshr, 2, fun w x y => x / 2 ^ (y % w)), (.vsar, 2, fun w x y => toBits w (sint w x / (2 ^ (y % w) : Nat))),
   (.vrol, 2, fun w x y => x * 2 ^ (y % w) % 2 ^ w + x / 2 ^ (w - y % w)),
   (.vbfxn, 2, fun w x y => x / 2 ^ (y % 64) % 2 ^ (y / 256 % 64) % 2 ^ w),
   (.vbfxs, 2, fun w x y => if y / 256 % 64 = 0 then 0
      else toBits w (sint (y / 256 % 64) (toBits (y / 256 % 64) (sint w x / (2 ^ (y % 64) : Nat)))))]
noncomputable def intUnaryRows : List (V1 × Nat × (Nat → Nat → Nat)) :=
  [(.vabs, 2, fun w x => toBits w (sint w x).natAbs), (.vneg, 2, fun w x => toBits w (-x)),
   (.vnot, 2, fun w x => 2 ^ w - 1 - x), (.vpopc, 2, fun w x => ((List.range w).filter fun j => x.testBit j).length),
   (.vclz, 2, fun w x => if x = 0 then w else w - 1 - Nat.log2 x), (.vmov, 1, fun _ x => x)]

/-! ### Vector floating point (R205 to R207) -/

/-- Floating point of two operands, rounded once to the type by SEQ_FRM. -/
noncomputable def vfRows : List (V2 × (RMode → FVal → FVal → FVal)) :=
  [(.vfadd, fun r x y => FVal.add r x y), (.vfsub, fun r x y => FVal.add r x y.neg), (.vfmul, fun _ x y => x.mul y),
   (.vfmin, fun _ x y => x.min2 y), (.vfmax, fun _ x y => x.max2 y),
   (.vfmaxabs, fun _ x y => if x.isNan || y.isNan then .nan else x.abs.max2 y.abs)]
/-- The bits of a sign are those of the type's top bit. -/
noncomputable def signRows : List (V1 × Nat × (Nat → Nat → Nat)) :=
  [(.vfabs, 4, fun w x => x % 2 ^ (w - 1)), (.vfneg, 4, fun w x => x ^^^ 2 ^ (w - 1))]
/-- The special functions: reciprocal, reciprocal root and root are rounded to nearest even. -/
noncomputable def sfuRows : List (V1 × (NFmt → Nat → FVal → Nat)) :=
  [(.vexp2, exp2Bits), (.vlog2, log2Bits), (.vtanh, tanhBits), (.vsigm, sigmBits),
   (.vrcp, fun f _ x => Sys2Proof.Machine.encode f .rne 0 x.rcp), (.vrsq, fun f _ x => Sys2Proof.Machine.encode f .rne 0 x.rsq),
   (.vsqrt, fun f _ x => Sys2Proof.Machine.encode f .rne 0 x.sqrt)]

/-! ### Masks (R208, R209) -/

/-- A mask bit for each byte: that of its element. -/
def maskFrom (bytes : Nat) (f : Nat → Bool) : MWord := BitVec.ofBoolListLE ((List.range 256).map fun j => f (j / bytes)) |>.setWidth 256
/-- A mask becomes f of what it holds when it lands. m0 discards it. -/
def toMask (d : MReg) (f : MWord → MWord) (x : Ctx) : Ctx := x.setM d (f (x.m d))
abbrev VC := MReg → Bool → Bool → MReg → BitVec 2 → VSrc → VSrc → ElemT → Instr
noncomputable def vcmpRows : List (VC × (Nat → Nat → Nat → Bool)) :=
  [(.vcmpeq, fun _ x y => x == y), (.vcmpne, fun _ x y => !(x == y)), (.vcmplt, fun w x y => decide (sint w x < sint w y)),
   (.vcmple, fun w x y => decide (sint w x ≤ sint w y)), (.vcmpltn, fun _ x y => decide (x < y)),
   (.vcmplen, fun _ x y => decide (x ≤ y))]
noncomputable def vfcmpRows : List (VC × (FVal → FVal → Bool)) :=
  [(.vfcmpeq, fun x y => x.eqv y), (.vfcmplt, fun x y => x.lt y), (.vfcmple, fun x y => x.le y),
   (.vfcmpun, fun x y => x.isNan || y.isNan)]
/-- Where the masks of a compare land: by the combine, plain, plain with the complement to the neighbour, AND, OR. -/
def compared (n : MReg) (c : BitVec 2) (bytes : Nat) (k : MWord) (test : Nat → Bool) (x : Ctx) : Ctx :=
  let merge (f : Bool → Bool → Bool) (old : MWord) : MWord :=
    BitVec.ofBoolListLE ((List.range 256).map fun j =>
      if active k bytes (j / bytes) then f (old.getLsbD j) (test (j / bytes)) else old.getLsbD j) |>.setWidth 256
  match c.toNat with
  | 0 => toMask n (merge fun _ v => v) x
  | 1 => toMask (n ^^^ 1) (merge fun _ v => !v) (toMask n (merge fun _ v => v) x)
  | 2 => toMask n (merge fun o v => o && v) x
  | _ => toMask n (merge fun o v => o || v) x
/-- The elements that are active in a mask, lowest first. -/
def activeIn (bytes : Nat) (v : MWord) : List Nat := (List.range (256 / bytes)).filter fun e => active v bytes e

end Sys2Proof.Say

open Sys2Proof Sys2Proof.Machine Sys2Proof.Say

/-- R200 to R204: vector integer and logic operations, element by element under the mask. -/
def Obligations.VectorInteger : Prop :=
  Elementwise2 (viaRows ++ vlgRows) ∧ Elementwise1 intUnaryRows ∧
  ∀ (s : State) (k : MReg) (u : Bool) (m : Mods) (d : VReg) (a b : VSrc) (t : ElemT),
    VecGives s (.vbfi k u m d a b t) 2 u m d t.bytes k allOn (fun e =>
      let y := elemAt (s.ctx.vsrc t.bytes b) t.bytes e
      let mask := (2 ^ (y / 256 % 64) - 1) * 2 ^ (y % 64) % 2 ^ (8 * t.bytes)
      (elemAt (s.ctx.v d) t.bytes e &&& (2 ^ (8 * t.bytes) - 1 - mask)) |||
        (elemAt (s.ctx.vsrc t.bytes a) t.bytes e * 2 ^ (y % 64) &&& mask)) nothingElse
/-- R205 to R207: vector floating point and the special functions, which also go to b5. The special functions give what the model's
transcendental functions give; where the spec leaves a value within a bound, that value is free (log entries 5 and 6). -/
def Obligations.VectorFloat : Prop :=
  (∀ r ∈ vfRows, ∀ (s : State) (k : MReg) (u : Bool) (m : Mods) (d : VReg) (a b : VSrc) (t : ElemT),
    VecGives s (r.1 k u m d a b t) 4 u m d t.bytes k allOn (fun e =>
      Sys2Proof.Machine.encode (numFmt t) (.frm s.ctx.sys.frm) 0 (r.2 (.frm s.ctx.sys.frm)
        (decodeNum (numFmt t) (elemAt (s.ctx.vsrc t.bytes a) t.bytes e))
        (decodeNum (numFmt t) (elemAt (s.ctx.vsrc t.bytes b) t.bytes e)))) nothingElse) ∧
  Elementwise1 signRows ∧
  Elementwise2 [(.vfcpsgn, 4, fun w x y => x % 2 ^ (w - 1) + y / 2 ^ (w - 1) * 2 ^ (w - 1))] ∧
  (∀ (s : State) (k : MReg) (u : Bool) (m : Mods) (d : VReg) (a b : VSrc) (t : ElemT),
    let f := decodeNum (numFmt t)
    VecGives s (.vffma k u m d a b t) 4 u m d t.bytes k allOn (fun e =>
      Sys2Proof.Machine.encode (numFmt t) (.frm s.ctx.sys.frm) 0 (FVal.add (.frm s.ctx.sys.frm)
        ((f (elemAt (s.ctx.vsrc t.bytes a) t.bytes e)).mul (f (elemAt (s.ctx.vsrc t.bytes b) t.bytes e)))
        (f (elemAt (s.ctx.v d) t.bytes e)))) nothingElse) ∧
  ∀ r ∈ sfuRows, ∀ (s : State) (k : MReg) (u : Bool) (m : Mods) (d : VReg) (a : VSrc) (t : ElemT),
    VecGives s (r.1 k u m d a t) 8 u m d t.bytes k allOn (fun e =>
      let x := elemAt (s.ctx.vsrc t.bytes a) t.bytes e
      r.2 (numFmt t) x (decodeNum (numFmt t) x)) fun v x => x.setLatchV 5 v
/-- R208: a vector compare writes the bytes of its active elements in one mask or two, by its combine. -/
def Sys2Proof.Say.VectorCompare : Prop :=
  ∀ (s : State) (k : MReg) (u tv : Bool) (n : MReg) (c : BitVec 2) (a b : VSrc) (t : ElemT),
    let x := elemAt (s.ctx.vsrc t.bytes a) t.bytes
    let y := elemAt (s.ctx.vsrc t.bytes b) t.bytes
    let f := decodeNum (numFmt t)
    (∀ r ∈ vcmpRows, Gives s (r.1 k u tv n c a b t) (lat 2 tv)
      (compared n c t.bytes (s.ctx.m k) fun e => r.2 (8 * t.bytes) (x e) (y e))) ∧
    ∀ r ∈ vfcmpRows, Gives s (r.1 k u tv n c a b t) (lat 2 tv) (compared n c t.bytes (s.ctx.m k) fun e => r.2 (f (x e)) (f (y e)))
/-- R209: mask logic, masks made of a scalar, and the count and the lowest of a mask's active elements. -/
def Sys2Proof.Say.MaskOps : Prop :=
  ∀ (s : State) (u tv : Bool) (d a b k : MReg) (sd : BitVec 5) (v : VSrc) (t : ElemT),
    let whole (w : MWord) : Ctx → Ctx := toMask d fun _ => w
    Gives s (.mand u tv d a b) (lat 1 tv) (whole (s.ctx.m a &&& s.ctx.m b)) ∧
    Gives s (.mor u tv d a b) (lat 1 tv) (whole (s.ctx.m a ||| s.ctx.m b)) ∧
    Gives s (.mxor u tv d a b) (lat 1 tv) (whole (s.ctx.m a ^^^ s.ctx.m b)) ∧
    Gives s (.mandn u tv d a b) (lat 1 tv) (whole (s.ctx.m a &&& ~~~s.ctx.m b)) ∧
    Gives s (.mnot u tv d a) (lat 1 tv) (whole (~~~s.ctx.m a)) ∧
    Gives s (.mfroms u tv d v t) (lat 1 tv)
      (whole (maskFrom t.bytes fun e => decide (e < 64) && (s.ctx.vsrcScalar v).getLsbD e)) ∧
    Gives s (.mlanes u tv d v t) (lat 1 tv) (whole (maskFrom t.bytes fun e => decide (e < (s.ctx.vsrcScalar v).toNat))) ∧
    Gives s (.mpop k u tv sd a t) (lat 1 tv)
      (toReg (sd.setWidth 6) (BitVec.ofNat 64 (activeIn t.bytes (s.ctx.m a &&& s.ctx.m k)).length)) ∧
    Gives s (.mfirst k u tv sd a t) (lat 1 tv)
      (toReg (sd.setWidth 6) (BitVec.ofNat 64 ((activeIn t.bytes (s.ctx.m a &&& s.ctx.m k)).headD (256 / t.bytes))))

namespace Sys2Proof.Say
open Sys2Proof.Machine

/-! ### Permutes (R210) -/

/-- The source elements x and y of a permute of n elements, the mask's activity, a scalar, and the element that it picks. -/
abbrev Pick := Nat → (Nat → Nat) → (Nat → Nat) → (Nat → Bool) → Nat → Nat → Nat
def countBelow (act : Nat → Bool) (e : Nat) : Nat := ((List.range e).filter act).length
noncomputable def pickRows : List ((MReg → Bool → Mods → VReg → VSrc → VSrc → ElemT → Instr) × Pick) :=
  [(.vperm, fun n x y _ _ e => x (y e % n)), (.vbcast, fun n x _ _ b _ => x (b % n)),
   (.vslidedn, fun n x _ _ b e => if e + b < n then x (e + b) else 0),
   (.vzipl, fun _ x y _ _ e => if e % 2 = 0 then x (e / 2) else y (e / 2)),
   (.vziph, fun n x y _ _ e => if e % 2 = 0 then x (n / 2 + e / 2) else y (n / 2 + e / 2)),
   (.vunzipe, fun n x y _ _ e => if e < n / 2 then x (2 * e) else y (2 * (e - n / 2))),
   (.vunzipo, fun n x y _ _ e => if e < n / 2 then x (2 * e + 1) else y (2 * (e - n / 2) + 1)),
   (fun k u m d a _ t => .vexpand k u m d a t, fun _ x _ act _ e => x (countBelow act e)),
   (fun k u m d a _ t => .vrev k u m d a t, fun n x _ _ _ e => x (n - 1 - e)),
   (fun k u m d _ _ t => .viota k u m d t, fun _ _ _ act _ e => countBelow act e)]

/-! ### Reductions (R84, R211) -/

/-- The tree of R84 over 2^n elements from the e-th on: neighbours first. -/
def tree (f : Nat → Nat → Nat) (x : Nat → Nat) : Nat → Nat → Nat
  | 0, e => x e
  | n + 1, e => f (tree f x n (2 * e)) (tree f x n (2 * e + 1))
/-- The instruction, its operation on elements of a type, and the identity that stands for inactive elements. -/
noncomputable def reduceRows : List (V1 × (ElemT → Nat → Nat → Nat) × (ElemT → Nat)) :=
  let f (g : FVal → FVal → FVal) (t : ElemT) (x y : Nat) : Nat :=
    Sys2Proof.Machine.encode (numFmt t) .rne 0 (g (decodeNum (numFmt t) x) (decodeNum (numFmt t) y))
  let c (v : FVal) (t : ElemT) : Nat := Sys2Proof.Machine.encode (numFmt t) .rne 0 v
  [(.vredadd, fun t x y => (x + y) % 2 ^ (8 * t.bytes), fun _ => 0),
   (.vredmin, fun t x y => if sint (8 * t.bytes) x ≤ sint (8 * t.bytes) y then x else y, fun t => 2 ^ (8 * t.bytes - 1) - 1),
   (.vredmax, fun t x y => if sint (8 * t.bytes) x ≤ sint (8 * t.bytes) y then y else x, fun t => 2 ^ (8 * t.bytes - 1)),
   (.vredminn, fun _ x y => min x y, fun t => 2 ^ (8 * t.bytes) - 1), (.vredmaxn, fun _ x y => max x y, fun _ => 0),
   (.vfredadd, f fun x y => FVal.add .rne x y, c (.fin true 0 0)), (.vfredmin, f fun x y => x.min2 y, c (.inf false)),
   (.vfredmax, f fun x y => x.max2 y, c (.inf true))]

/-! ### Conversions and quantisers (R213 to R215) -/

/-- Noise of element e for a slot on a unit (R76). -/
def noiseFor (s : State) (u : Bool) (e : Nat) : Nat := noiseLane s.bundle.noiseW (e + if u then 256 else 0)
/-- The shared noise word counts as used by the bundle. -/
def usesNoise (s : State) : State := s.modBundle fun b => { b with popV := true }
/-- An instruction that also uses the shared noise word gives what it would give in a state where the word counts as used. -/
def GivesNoisy (s : State) (i : Instr) (L : Nat) (f : Ctx → Ctx) : Prop :=
  ∃ y, exec i s = .next ((usesNoise s).modCtx fun _ => y) ∧ Lands L f s.ctx y
/-- The two blocks of 32 numbers that a quantiser takes, inactive elements as +0, and what it makes of them. -/
def blocksOf (s : State) (k : MReg) (a : VSrc) (h : Nat) : List FVal :=
  (List.range 32).map fun i =>
    if active (s.ctx.m k) 4 (32 * h + i) then dec32 (elemAt (s.ctx.vsrc 4 a) 4 (32 * h + i)) else .fin false 0 0
def quantised (f : MxFmt) (r : RMode) (nz : Nat → Nat) (s : State) (k : MReg) (u : Bool) (m : Mods) (d : VReg) (a : VSrc)
    (b : BitVec 5) (x : Ctx) : Ctx :=
  let q0 := mxQuant f (blocksOf s k a 0) r nz
  let q1 := mxQuant f (blocksOf s k a 1) r fun i => nz (32 + i)
  toVector u m d (BitVec.ofNat 2048 (mxPack f (q0.2 ++ q1.2))) (toReg (b.setWidth 6) (BitVec.ofNat 64 (q1.1 * 256 + q0.1)) x)
/-- The bits of an element converted. -/
def converted (t e : ElemT) (r : RMode) (nz x : Nat) : Nat :=
  Sys2Proof.Machine.encode (numFmt e) r nz (decodeNum (numFmt t) x)
/-- What a conversion of part p gives: a narrowing one fills its part, a widening or equal one reads it. -/
def ConvertsTo (s : State) (k : MReg) (p : BitVec 2) (a : VSrc) (t e : ElemT) (r : RMode) (nz : Nat → Nat) (u : Bool) (m : Mods)
    (d : VReg) (x : Ctx) : Ctx :=
  let n := 256 / max t.bytes e.bytes
  let src := elemAt (s.ctx.vsrc t.bytes a) t.bytes
  toVector u m d (vecOf e.bytes fun j =>
    if e.bytes < t.bytes then
      (if active (s.ctx.m k) e.bytes j && decide (p.toNat * n ≤ j) && decide (j < p.toNat * n + n) then
        converted t e r (nz j) (src (j - p.toNat * n)) else elemAt (x.v d) e.bytes j)
    else if active (s.ctx.m k) e.bytes j then converted t e r (nz j) (src (p.toNat * n + j)) else elemAt (x.v d) e.bytes j) x
/-- Some element of a width is active. -/
def SomeActive (s : State) (k : MReg) (bytes : Nat) : Prop := ∃ e, e < 256 / bytes ∧ active (s.ctx.m k) bytes e = true

/-! ### Dot products (R216) -/

def dotS (a b : VWord) (bytes n e : Nat) (g : Nat → Int) (o : Nat) : Nat :=
  toBits 32 ((List.range n).foldl (fun (x : Int) j => x + g (elemAt a bytes (n * e + j)) * g (elemAt b bytes (n * e + j))) o)
def dotF (a b : VWord) (e : Nat) (f : NFmt) (r : RMode) (o : Nat) : Nat :=
  enc32 r (sumExact r (dec32 o :: (List.range 2).map fun j =>
    (decodeNum f (elemAt a 2 (2 * e + j))).mul (decodeNum f (elemAt b 2 (2 * e + j)))))

end Sys2Proof.Say

open Sys2Proof Sys2Proof.Machine Sys2Proof.Say

/-- R210: permutes by the element that each picks; `vins` and `vslideup` write only some elements; `vext` and the count of
`vcompress` go to scalars. That the latch takes the merged register value where `vins` or `vslideup` writes no element is the model's
choice (log entry 35). -/
def Sys2Proof.Say.VectorPermute : Prop :=
  ∀ (s : State) (k : MReg) (u : Bool) (m : Mods) (d : VReg) (a b : VSrc) (t : ElemT),
    let n := 256 / t.bytes
    let x := elemAt (s.ctx.vsrc t.bytes a) t.bytes
    let act := active (s.ctx.m k) t.bytes
    let sb := (s.ctx.vsrcScalar b).toNat
    (∀ r ∈ pickRows, VecGives s (r.1 k u m d a b t) 3 u m d t.bytes k allOn
      (fun e => r.2 n x (elemAt (s.ctx.vsrc t.bytes b) t.bytes) act sb e) nothingElse) ∧
    VecGives s (.vins k u m d a b t) 3 u m d t.bytes k (fun e => e == sb % n)
      (fun _ => (s.ctx.vsrcScalar a).toNat % 2 ^ (8 * t.bytes)) nothingElse ∧
    VecGives s (.vslideup k u m d a b t) 3 u m d t.bytes k (fun e => decide (min sb n ≤ e)) (fun e => x (e - min sb n)) nothingElse ∧
    (∀ tv (sd : BitVec 5), Gives s (.vext u tv sd a b t) (lat 3 tv) (toReg (sd.setWidth 6) (BitVec.ofNat 64 (x (sb % n))))) ∧
    ∀ sd : BitVec 5, Gives s (.vcompress k u m d a sd t) (lat 3 m.tv) fun y =>
      toVector u m d (packElems t.bytes ((activeIn t.bytes (s.ctx.m k)).map x))
        (toReg (sd.setWidth 6) (BitVec.ofNat 64 (activeIn t.bytes (s.ctx.m k)).length) y)
/-- R84, R211: a reduction leaves the tree of the active elements in element 0 and zero elsewhere. -/
def Sys2Proof.Say.VectorReduce : Prop :=
  ∀ r ∈ reduceRows, ∀ (s : State) (k : MReg) (u : Bool) (m : Mods) (d : VReg) (a : VSrc) (t : ElemT),
    ∃ n, 2 ^ n = 256 / t.bytes ∧
      VecGivesAll s (r.1 k u m d a t) 6 u m d (BitVec.ofNat 2048 (tree (r.2.1 t) (fun e =>
        if active (s.ctx.m k) t.bytes e then elemAt (s.ctx.vsrc t.bytes a) t.bytes e else r.2.2 t) n 0))
/-- R212, R76: moves; `vnoise` fills elements with noise of the bundle's shared word. -/
def Sys2Proof.Say.VectorMoves : Prop :=
  ∀ (s : State) (k : MReg) (u : Bool) (m : Mods) (d : VReg) (a b : VSrc) (t : ElemT),
    VecGivesAll s (.vsel k u m d a b t) 1 u m d (vecOf t.bytes fun e =>
      if active (s.ctx.m k) t.bytes e then elemAt (s.ctx.vsrc t.bytes a) t.bytes e else elemAt (s.ctx.vsrc t.bytes b) t.bytes e) ∧
    (∀ imm : BitVec 17, VecGives s (.vsplati k u m d imm t) 1 u m d t.bytes k allOn
      (fun _ => toBits (8 * t.bytes) imm.toInt) nothingElse) ∧
    (SomeActive s k t.bytes → GivesNoisy s (.vnoise k u m d t) (lat 1 m.tv) fun x => toVector u m d (vecOf t.bytes fun e =>
      if active (s.ctx.m k) t.bytes e then noiseFor s u e % 2 ^ (8 * t.bytes) else elemAt (x.v d) t.bytes e) x) ∧
    (¬SomeActive s k t.bytes → exec (.vnoise k u m d t) s = .next (usesNoise s))
/-- R213 to R215, R76: conversions by parts, the MX quantisers with their scales, and the dequantisers; the stochastic forms
use the shared noise word, and with no active element write nothing (R221; that the other quantisers then write is log entry 24). -/
def Obligations.VectorConvert : Prop :=
  ∀ (s : State) (k : MReg) (u : Bool) (m : Mods) (d : VReg) (a b : VSrc) (sb : BitVec 5) (p : BitVec 2) (t e : ElemT),
    let frm : RMode := .frm s.ctx.sys.frm
    (SomeActive s k e.bytes →
      Gives s (.vcvt k u m d a p t e) (lat 4 m.tv) (ConvertsTo s k p a t e frm (fun _ => 0) u m d) ∧
      GivesNoisy s (.vcvtsr k u m d a p t e) (lat 4 m.tv) (ConvertsTo s k p a t e .sr (noiseFor s u) u m d)) ∧
    (¬SomeActive s k e.bytes → exec (.vcvt k u m d a p t e) s = .next s ∧ exec (.vcvtsr k u m d a p t e) s = .next (usesNoise s)) ∧
    (∀ r ∈ ([(.vqmx8, .vqmx8sr, .mx8), (.vqmx6, .vqmx6sr, .mx6), (.vqmx4, .vqmx4sr, .mx4)] :
        List ((MReg → Bool → Mods → VReg → VSrc → BitVec 5 → Instr) × (MReg → Bool → Mods → VReg → VSrc → BitVec 5 → Instr) × MxFmt)),
      Gives s (r.1 k u m d a sb) (lat 6 m.tv) (quantised r.2.2 frm (fun _ => 0) s k u m d a sb) ∧
      (SomeActive s k 4 → GivesNoisy s (r.2.1 k u m d a sb) (lat 6 m.tv) (quantised r.2.2 .sr (noiseFor s u) s k u m d a sb)) ∧
      (¬SomeActive s k 4 → exec (r.2.1 k u m d a sb) s = .next (usesNoise s))) ∧
    ∀ r ∈ ([(.vdqmx8, .mx8), (.vdqmx6, .mx6), (.vdqmx4, .mx4)] : List ((MReg → Bool → Mods → VReg → VSrc → VSrc → Instr) × MxFmt)),
      VecGives s (r.1 k u m d a b) 6 u m d 4 k allOn (fun j =>
        enc32 .rne (mxDecode r.2 (mxElem r.2 (s.ctx.vsrc 4 a).toNat j) ((s.ctx.vsrcScalar b).toNat / 256 ^ (j / 32) % 256))) nothingElse
/-- R216: dot products into elements of 32 bits. -/
def Sys2Proof.Say.VectorDot : Prop :=
  ∀ (s : State) (k : MReg) (u : Bool) (m : Mods) (d : VReg) (a b : VSrc),
    let o := elemAt (s.ctx.v d) 4
    let frm : RMode := .frm s.ctx.sys.frm
    VecGives s (.vdot4 k u m d a b) 4 u m d 4 k allOn (fun e => dotS (s.ctx.vsrc 1 a) (s.ctx.vsrc 1 b) 1 4 e (sint 8) (o e)) nothingElse ∧
    VecGives s (.vdot4n k u m d a b) 4 u m d 4 k allOn (fun e => dotS (s.ctx.vsrc 1 a) (s.ctx.vsrc 1 b) 1 4 e (fun x => x) (o e)) nothingElse ∧
    VecGives s (.vdot2 k u m d a b) 4 u m d 4 k allOn (fun e => dotF (s.ctx.vsrc 2 a) (s.ctx.vsrc 2 b) e .bf16 frm (o e)) nothingElse ∧
    VecGives s (.vdot2h k u m d a b) 4 u m d 4 k allOn (fun e => dotF (s.ctx.vsrc 2 a) (s.ctx.vsrc 2 b) e .f16 frm (o e)) nothingElse

namespace Sys2Proof.Say
open Sys2Proof.Machine

/-! ### Bytes that are performed -/

/-- From s, whose memory is in its canonical form, to u just these bytes of memory change, to just these values. -/
def Stored (s u : State) (cells : List (Nat × Byte)) : Prop :=
  Memory.wf s.mem → (∀ a, (∀ d ∈ cells, d.1 ≠ a) → memByte u.mem a = memByte s.mem a) ∧
  ((cells.map Prod.fst).Nodup → ∀ d ∈ cells, memByte u.mem d.1 = d.2)
/-- Places that are no window, of which no second copy is kept (R381). -/
def Plain (s : State) (locs : List Nat) : Prop :=
  (∀ a ∈ locs, (keySpace s a).isWindow = false) ∧ ∀ c, (s.cube c).hw.life ≠ .evacuating

/-! ### Vector loads and stores (R217 to R220) -/

/-- The forms of a vector access: contiguous bytes, strided elements of 32 or 16 bits, indexed elements. -/
noncomputable def loadForms (s : State) (k : MReg) (u : Bool) (d : VReg) (base st : Src) (idx : VSrc) : List (Instr × VMode) :=
  [(.vld k u d base, .contig), (.vldStrided k u d base st, .strided 4 (s.ctx.src st)),
   (.vldStrided16 k u d base st, .strided 2 (s.ctx.src st)), (.vldGather k u d base idx, .indexed (s.ctx.vsrc 4 idx))]
noncomputable def storeForms (s : State) (k : MReg) (glob : Bool) (d : VReg) (base st : Src) (idx : VSrc) (line : BitVec 3) :
    List (Instr × VMode) :=
  [(.vst k glob d base line, .contig), (.vstStrided k glob d base st line, .strided 4 (s.ctx.src st)),
   (.vstStrided16 k glob d base st line, .strided 2 (s.ctx.src st)),
   (.vstScatter k glob d base idx line, .indexed (s.ctx.vsrc 4 idx))]
/-- Address of element e (R217). -/
def elemVA (b : Word) (md : VMode) (e : Nat) : VA :=
  BitVec.ofNat 52 (b.toNat + (match md with
    | .contig => e
    | .strided _ st => e * st.toNat
    | .indexed i => elemAt i 4 e))
/-- The active elements of an access, lowest first. -/
def elemsOf (s : State) (k : MReg) (md : VMode) : List Nat :=
  (List.range (256 / md.bytes)).filter fun e => active (s.ctx.m k) md.bytes e
/-- Where the active elements of an access lie. -/
def Reaches (s : State) (k : MReg) (base : Src) (md : VMode) (at_ : Nat → Target) : Prop :=
  ∀ e ∈ elemsOf s k md, resolve s s.agent (elemVA (s.ctx.src base) md e) = .ok (at_ e)
/-- Later elements win over earlier ones at the same place. -/
def latest (cells : List (Nat × Byte)) : List (Nat × Byte) :=
  cells.reverse.foldl (fun acc d => if acc.any fun e => e.1 == d.1 then acc else d :: acc) []

end Sys2Proof.Say

open Sys2Proof Sys2Proof.Machine Sys2Proof.Say

/-- R196, R217, R219, R220: a vector load without active elements does nothing; one from the cube's own base scratch or constants
shows after 6 bundles, merged under the mask, and is read later when a fence in a lower slot of its bundle delays it; any other sends
one read of all its elements, of which those that an acquire holds may stay behind; what fails traps. -/
def Obligations.VectorLoad : Prop :=
  ∀ (s : State) (k : MReg) (u : Bool) (d : VReg) (base st : Src) (idx : VSrc), ∀ r ∈ loadForms s k u d base st idx,
    (∀ t, vldCheck s k base r.2 = some t → Traps s r.1 t) ∧
    (elemsOf s k r.2 = [] → exec r.1 s = .next s) ∧
    ∀ at_ : Nat → Target, vldCheck s k base r.2 = none → elemsOf s k r.2 ≠ [] → Reaches s k base r.2 at_ →
      let all := (elemsOf s k r.2).flatMap fun e => (List.range r.2.bytes).map fun j => ((at_ e).key + j, r.2.bytes * e + j)
      ((∀ e ∈ elemsOf s k r.2, isNear s (at_ e).key = true ∧ Clean s (at_ e).key r.2.bytes) → Quiet s →
        (s.fencePrior true).past s s.me = true →
        Gives s r.1 6 fun x => toVector u ⟨false, false⟩ d (vecOf r.2.bytes fun e =>
          if active (s.ctx.m k) r.2.bytes e then readNat s (at_ e).key r.2.bytes else elemAt (x.v d) r.2.bytes e) x) ∧
      ((∀ e ∈ elemsOf s k r.2, isNear s (at_ e).key = true) → (s.fencePrior true).past s s.me = false → ∃ (w : Result) (q : ReadReq),
        exec r.1 s = .next { s.modCtx (fun x => { x with results := x.results ++ [w] }) with
          reads := s.reads ++ [q], nextId := s.nextId + 1 } ∧
        w.rem = 6 ∧ w.kind = .vector ∧ w.dest.setWidth 5 = d ∧ w.en = enables (s.ctx.m k) r.2.bytes ∧ w.pos = s.place ∧
        q.id = s.nextId ∧ q.sid = s.ctx.sid ∧ q.status = .sent ∧ q.dest = .exposed s.place ∧ q.cells = all ∧ q.prior = s.fencePrior true) ∧
      ((∃ e ∈ elemsOf s k r.2, isNear s (at_ e).key = false) → Asks s r.1 fun q =>
        (q.cells ++ q.late.1).Perm all ∧ (s.ctx.acqs = [] → q.cells = all) ∧
        q.dest = .vector d u ∧ q.en = enables (s.ctx.m k) r.2.bytes)
/-- R217, R218: a vector store sends one item to each home that its active elements reach, with their bytes; no byte of memory
changes yet. An item's number counts its whole line (log entry 139). -/
def Obligations.VectorStore : Prop :=
  ∀ (s : State) (k : MReg) (glob : Bool) (d : VReg) (base st : Src) (idx : VSrc) (line : BitVec 3),
    ∀ r ∈ storeForms s k glob d base st idx line,
    (∀ t, vstCheck s k base r.2 line = some t → Traps s r.1 t) ∧
    ∀ at_ : Nat → Target, vstCheck s k base r.2 line = none → Reaches s k base r.2 at_ →
      (∀ e ∈ elemsOf s k r.2, Leaves s (at_ e).key) →
      ∃ w ms, exec r.1 s = .next w ∧ w.items = s.items ++ ms ∧ w.mem = s.mem ∧ w.reads = s.reads ∧ w.ctx.regs = s.ctx.regs ∧
        (∀ c, c ≠ s.me → w.cube c = s.cube c) ∧ (ms.map Item.home).Nodup ∧
        (∀ m ∈ ms, m.line = line ∧ m.glob = glob ∧ m.sid = s.ctx.sid ∧
          m.op = .store (latest (((elemsOf s k r.2).filter fun e => homeOf (at_ e).key == m.home).flatMap fun e =>
            cellsAt (at_ e).key (bytesLE r.2.bytes (elemAt (s.ctx.v d) r.2.bytes e))))) ∧
        ∀ e ∈ elemsOf s k r.2, ∃ m ∈ ms, m.home = homeOf (at_ e).key
/-- R117: a scalar store to the cube's own base scratch, with nothing else in flight, no fence before it in its bundle and no other
cube's copies, is performed at once: exactly its bytes of memory change. That it is performed as it commits, on any line, is the
model's reading (log entry 18). -/
def Obligations.StoreToOwnScratch : Prop :=
  ∀ (s : State) (g : Guard) (data : SReg) (base : Src) (z : Size) (glob : Bool) (line : BitVec 3) (off : BitVec 11)
    (t : Target), s.ctx.guard g = true → stCheck s base z line off = .ok t → s.items = [] → (s.cube s.me).cmds = [] →
    s.bundle.prior = [] → homeOf t.key = 8 + s.me.val →
    t.migrate = false → peerOf t.key = none → (∀ c, (s.cube c).edge = []) → Memory.wf s.mem →
    Plain s ((List.range z.bytes).map (t.key + ·)) →
    ∃ u, exec (.st g data base z glob line off) s = .next u ∧ u.items = [] ∧ u.ctx.regs = s.ctx.regs ∧ u.reads = s.reads ∧
      Stored s u (cellsAt t.key (bytesLE z.bytes (s.ctx.s data).toNat))

namespace Sys2Proof.Say
open Sys2Proof.Machine

/-! ### Items, reads and messages on their way -/

/-- An item of a strand stands in flight under its number and may be performed at its home now: no fault is armed, no line of
its places is poisoned, no second copy is kept, its page counts no accesses, and towards a peer its turn at the port has come (R360). -/
def Performable (s : State) (m : Item) (st : ItemStatus) : Prop :=
  s.item m.id = some m ∧ m.status = st ∧ m.cmd = none ∧ m.mig = [] ∧ m.tags = [] ∧ canPerform s m = true ∧
    mayArrive s m.cube m.sid m.id m.op.addr = true ∧
    Plain s m.op.locs ∧ (keySpace s (m.op.addr / 8 * 8)).isWindow = false ∧ Quiet s ∧ (∀ a ∈ m.op.locs, s.poison.contains (a / 64) = false) ∧ Memory.wf s.mem
/-- The item is performed: its bytes, and the old value that it found, stand. -/
def Performs (s : State) (i : Instr) (m : Item) (cells : List (Nat × Byte)) (old : Word) : Prop :=
  ∃ u, exec i s = .next u ∧ u.item m.id = some { m with status := .performed, old := old } ∧ Stored s u cells ∧
    (∀ c, (u.cube c).core = (s.cube c).core) ∧ u.reads = s.reads
/-- The sum of a counter and an amount: 63 bits of count, saturating, and the poison of either (R184, R185). -/
def counterSum (old amt : Word) : Word :=
  BitVec.ofNat 64 (Nat.min (old.toNat % 2 ^ 63 + amt.toNat % 2 ^ 63) (2 ^ 63 - 1)) ||| ((old ||| amt) &&& 0x8000000000000000)
def counterMax (old amt : Word) : Word :=
  BitVec.ofNat 64 (Nat.max (old.toNat % 2 ^ 63) (amt.toNat % 2 ^ 63)) ||| ((old ||| amt) &&& 0x8000000000000000)
/-- The number that an atomic leaves, from the old one and its operand, both of w bits (R181). -/
noncomputable def combined (op : AmoOp) (w old b b1 : Nat) : Nat :=
  match op with
  | .add => (old + b) % 2 ^ w
  | .and => old &&& b
  | .or => old ||| b
  | .xor => old ^^^ b
  | .min => if sint w old ≤ sint w b then old else b
  | .max => if sint w old ≤ sint w b then b else old
  | .minn => Nat.min old b
  | .maxn => Nat.max old b
  | .swap => b
  | .cas => if old = b then b1 else old
  | .fadd => enc32 .rne (FVal.add .rne (dec32 old) (dec32 b))
  | .fmax => if (dec32 old).isNan || (dec32 b).isNan then enc32 .rne .nan else enc32 .rne ((dec32 old).max2 (dec32 b))
/-- A context of a cube runs and waits for its counter as w says. -/
def Awaits (s : State) (c : CubeId) (id : Nat) (w : WaitInfo) (r : ReadReq) : Prop :=
  (s.cube c).cur ≠ .none ∧ (s.cube c).core.wait = .reading id w ∧ s.read id = some r ∧ r.status = .served ∧ r.bad = false

end Sys2Proof.Say

open Sys2Proof Sys2Proof.Machine Sys2Proof.Say

/-- R101, R117, R181, R184, R185: what items do at their homes: stores, atomics, counter operations; one that may not be
performed yet is held, and commits later. -/
def Obligations.ItemsAtHome : Prop :=
  ∀ (s : State) (m : Item),
    (∀ cells, m.op = .store cells →
      (Performable s m .transit → Performs s (.homeWriteArrives m.id) m cells 0) ∧
      (Performable s m .held → Performs s (.lineItemCommit m.id) m cells 0)) ∧
    (∀ op wide a b b1, m.op = .amo op wide a b b1 → Performable s m .transit →
      let n := if wide then 8 else 4
      let old := memNat s.mem a n
      Performs s (.homeAtomic m.id) m
        (cellsAt a (bytesLE n (combined op (8 * n) old (b.toNat % 2 ^ (8 * n)) (b1.toNat % 2 ^ (8 * n))))) (BitVec.ofNat 64 old)) ∧
    (∀ a v, (m.op = .cadd a v → Performable s m .transit → Performs s (.homeCounterOp m.id) m
        (cellsAt a (bytesLE 8 (counterSum (memWord s.mem a) v).toNat)) (memWord s.mem a)) ∧
      (m.op = .cmax a v → Performable s m .transit → Performs s (.homeCounterOp m.id) m
        (cellsAt a (bytesLE 8 (counterMax (memWord s.mem a) v).toNat)) (memWord s.mem a))) ∧
    (∀ cells, s.item m.id = some m → m.status = .transit → m.op = .store cells → m.mig = [] →
      mayArrive s m.cube m.sid m.id m.op.addr = true → canPerform s m = false →
      ∃ u, exec (.homeWriteArrives m.id) s = .next u ∧ u.mem = s.mem ∧ u.item m.id = some { m with status := .held })
/-- R101, R108, R109, R112, R120, R124: messages to edge caches, acknowledgements, reads that are served, releases that set
out, and an acknowledgement that never comes. -/
def Obligations.MemoryMessages : Prop :=
  ∀ s : State,
    (∀ k m cells, s.msgs[k]? = some m → m.update = some cells → firstOfLine s k m = true → ownUpdate s m = false →
      exec (.sharerUpdate k) s = .next { s.modCube m.cube (fun q => edgeRetag (edgeUpdate q cells) m.line (lineOwner s (m.line * 64)))
        with msgs := s.msgs.eraseIdx k }) ∧
    (∀ k m, s.msgs[k]? = some m → m.update = none →
      exec (.sharerInvalidate k) s = .next { s.modCube m.cube (fun q => { q with edge := q.edge.filter fun e => e.line != m.line })
        with msgs := s.msgs.eraseIdx k }) ∧
    (∀ m, s.item m.id = some m → m.status = .performed → silent s m.op.addr = false → s.msgs = [] →
      ∃ rs, exec (.writeAckArrives m.id) s = .next { s with items := s.items.filter (fun j => j.id != m.id), reads := s.reads ++ rs } ∧
        (m.dest = none → rs = []) ∧
        ∀ d, m.dest = some d → ∃ r, rs = [r] ∧ r.id = m.id ∧ r.sid = m.sid ∧ r.status = .served ∧
          r.dest = .scalar d false (match m.op with | .amo _ wide _ _ _ => if wide then 8 else 4 | _ => 8) false ∧
          r.value.setWidth 64 = m.old) ∧
    (∀ r, s.read r.id = some r → r.status = .sent → readBlocked s r = false → r.mig = [] → r.cached = [] → r.watch = none →
      r.bad = false → r.prior = .none → r.late = ([], []) → Quiet s → (∀ x ∈ r.cells, s.poison.contains (x.1 / 64) = false ∧ (keySpace s (x.1 / 8 * 8)).isWindow = false) →
      ∀ room, ∃ u, exec (.homeRead ⟨r.id, room⟩) s = .next u ∧ u.mem = s.mem ∧ u.items = s.items ∧
        u.read r.id = some { r with status := .served,
                                    value := r.value ||| lanesValue (r.cells.map fun x => (x.2, readByte s r.sid r.cube false x.1)) }) ∧
    (∀ m, s.item m.id = some m → m.status = .waiting →
      (m.mayLeave s = true → (∀ p, peerOf m.op.addr = some p → peerDead s p = false) → ∃ u, exec (.releaseSend m.id) s = .next u ∧
        u.item m.id = some { m with status := .transit } ∧ u.mem = s.mem) ∧
      ((∃ j ∈ s.items, j.status = .failed ∧ (j.id ∈ m.after ∨ ∃ w ∈ m.prior.writes, w.2 = j.id)) → ∃ u,
        exec (.releaseSend m.id) s = .next u ∧ u.item m.id = none ∧ u.mem = s.mem)) ∧
    (∀ m cells, s.item m.id = some m → m.op = .store cells → m.glob = true → m.cmd = none → m.line = 0 →
      m.status = .transit → homeOf m.op.addr ≠ 8 + m.cube.val → peerOf m.op.addr = none → ∃ u,
        (∀ h, exec (.ackTimeoutExpiry ⟨m.id, h⟩) s = .next u) ∧ u.items = s.items.filter (fun j => j.id != m.id) ∧ u.mem = s.mem ∧
        ∀ c, (s.cube c).cur ≠ .none → (s.cube c).core.sid = m.sid → (s.cube c).core.pending = [] →
          (u.cube c).core.pending = [⟨0x0B, 0, 0, m.acc, 0, m.va⟩])
/-- R186, R189 to R191: a counter's value satisfies its `cwait`, or the strand parks with a monitor, or it spins; a
notification, or a poll, that meets a monitor's target makes its strand ready. -/
def Obligations.CounterWaits : Prop :=
  ∀ (s : State) (c : CubeId) (id : Nat) (w : WaitInfo) (r : ReadReq),
    (Awaits s c id w r → w.target.toNat ≤ (r.value.toNat % 2 ^ 64) → ∃ u, exec (.cwaitReadReturn c) s = .next u ∧
      (u.cube c).core = { (s.cube c).core with wait := .satisfied (r.value.setWidth 64) } ∧ u.mem = s.mem ∧ u.items = s.items) ∧
    (Awaits s c id w r → r.value.toNat % 2 ^ 64 < w.target.toNat → w.park = true → (s.cube c).monitors.length < 64 →
      ∀ i, (s.cube c).cur = .shelf i → (s.cube c).ready = [] → ∃ u, exec (.cwaitReadReturn c) s = .next u ∧
        (u.cube c).core = { (s.cube c).core with wait := .parked } ∧ (u.cube c).cur = .shelf i ∧
        (u.cube c).monitors = (s.cube c).monitors ++ [⟨i, w.key, w.target, w.va, !(w.watched && s.watches.contains (w.key, c))⟩]) ∧
    (Awaits s c id w r → r.value.toNat % 2 ^ 64 < w.target.toNat → w.park = false → ∃ u, exec (.cwaitReadReturn c) s = .next u ∧
      (u.cube c).core = { (s.cube c).core with wait := .spinning { w with counted := true } } ∧
      (u.cube c).monitors = (s.cube c).monitors) ∧
    ((s.cube c).core.wait = .spinning w → (s.cube c).running = true → ∃ q, exec (.cwaitSpinReread c) s =
      .next { s.modCube c (fun k => k.modCore fun x => { x with wait := .reading s.nextId w }) with
        reads := s.reads ++ [q], nextId := s.nextId + 1 } ∧ q.id = s.nextId ∧ q.dest = .wait ∧ q.status = .sent) ∧
    ∀ (m : Monitor) (x : Ctx) (v : Word), (s.cube c).monitors = [m] → (s.cube c).cur ≠ .shelf m.shelf →
      (s.cube c).shelves.get m.shelf = some x → x.status = .parked → m.target.toNat ≤ v.toNat →
      let Woken (u : State) : Prop := (u.cube c).shelves.get m.shelf = some { x with wait := .none, status := .ready } ∧
        (u.cube c).ready = (s.cube c).ready ++ [m.shelf] ∧ (u.cube c).monitors = [] ∧ u.mem = s.mem
      (readAhead s c m.addr = false → s.notes = [(c, m.addr, v)] → ∃ u, exec (.monitorNotify c m.addr) s = .next u ∧
        u.notes = [] ∧ Woken u) ∧
      (m.poll = true → Quiet s → pathCarries s c.val x.sid m.addr = true → packLE ((List.range 8).map fun k => placeByte s (m.addr + k)) = v.toNat →
        ∃ u, exec (.monitorPoll c m.shelf) s = .next u ∧ Woken u)
/-- A `tlbi` names translations of n bytes from b in an address space (R163). -/
def Sys2Proof.Say.Names (t : Tlbi) (asn : BitVec 12) (b n : Nat) : Prop :=
  t.code = 63 ∨ (asn = t.asn ∧ (t.code = 0 ∨ ∃ m, m = pageSize t.code ∧
    b < t.va.toNat / m * m + m ∧ t.va.toNat / m * m < b + n))
/-- R97, R103 to R106, R163, R357: walks start in the requesters' round within their limits, and leave what they found in the TLBs of
the cubes that missed, but no fault, and what they gave for those that wait; a `tlbi` that is complete has dropped what it names. That a
new translation goes to the front of a TLB, and the oldest beyond 4,096 is dropped, is the model's choice (log entry 8). -/
def Obligations.Translations : Prop :=
  ∀ s : State,
    (∀ k m, s.misses[k]? = some m → m.walking = false → m.res = none → walksOf s m.req < 8 →
      (s.misses.filter fun n => n.walking).length < 64 →
      (∀ j n, j < k → s.misses[j]? = some n → n.req ≠ m.req ∨ n.walking = true ∨ n.res.isSome = true) →
      (∀ n ∈ s.misses, n.startable s = true → walkRank s m.req ≤ walkRank s n.req) →
      exec (.walkStart k) s = .next { s with
        misses := s.misses.set k { m with walking := true }, walkTurn := Fin.ofNat 10 (m.req.place + 1) }) ∧
    (∀ k m, s.misses[k]? = some m → m.walking = true → Quiet s →
      let va : VA := BitVec.ofNat 52 (m.vpn * 4096)
      (∀ a ∈ (walkPath s m.asn va).1, linkCarries s 8 (dieOf s a) = true) →
      let x := walk s m.asn va
      ∃ u, exec (.walkComplete k false) s = .next u ∧ u.mem = s.mem ∧
        u.misses = (if m.waiters = [] then s.misses.eraseIdx k else s.misses.set k { m with walking := false, res := some x }) ∧
        (∀ f, x = .fault f → u.cubes = s.cubes ∧ u.walkCache = s.walkCache) ∧
        ∀ c p l, x = .leaf p l →
          ((m.req = .cube c ∨ ∃ w ∈ m.waiters, w.1 = .cube c) →
            (u.cube c).tlb = tlbEntryOf m.asn va p l :: (s.cube c).tlb.take 4095 ∧ (u.cube c).core = (s.cube c).core) ∧
          (m.req ≠ .cube c → (∀ w ∈ m.waiters, w.1 ≠ .cube c) → u.cube c = s.cube c)) ∧
    ∀ t, s.tlbis = [t] → (∀ c, (s.cube c).cmds = []) → ∃ u, exec (.tlbiComplete t.id) s = .next u ∧ u.tlbis = [] ∧ u.mem = s.mem ∧
      (∀ c e, e ∈ (u.cube c).tlb ↔ e ∈ (s.cube c).tlb ∧ ¬Names t e.asn e.base e.size) ∧
      (∀ c (n : Fin 6) e, e ∈ (u.cube c).small.get n ↔ e ∈ (s.cube c).small.get n ∧ ¬Names t e.asn e.base e.size) ∧
      (t.code = 63 → u.fab.entries = [] ∧ u.walkCache = [])

namespace Sys2Proof.Say
open Sys2Proof.Machine

/-! ### The sequencer of a cube -/

/-- The context that a cube runs may act (R146, R404). -/
def Acts (s : State) (c : CubeId) : Prop :=
  (s.cube c).cur ≠ .none ∧ (s.cube c).stopped = false ∧ (s.cube c).debugHalted = false
/-- The event completes, the running context of the cube becomes f of itself, and nothing else changes. -/
def CoreBecomes (s : State) (i : Instr) (c : CubeId) (f : Ctx → Ctx) : Prop :=
  exec i s = .next (s.modCube c fun k => { k with core := f k.core })
/-- What a switch keeps of a context: its results that are due have landed, and it waits for nothing (R152). -/
def saved (x : Ctx) (st : Status) : Ctx := { landDue x with status := st, wait := .none }
/-- The strand of shelf j runs in place of that of shelf i, which is ready. -/
def Switched (s u : State) (c : CubeId) (i j : ShelfId) : Prop :=
  (u.cube c).cur = .shelf j ∧ (∀ y, (s.cube c).shelves.get j = some y → (u.cube c).core = { y with status := .running }) ∧
    (u.cube c).shelves.get i = some (saved (s.cube c).core .ready) ∧ (u.cube c).quantumUsed = 0 ∧ u.mem = s.mem
/-- The record of a trap (R148): cause, accessed kind, fault kind and code; then the address of the next bundle, the address
of the access and the slots. -/
def recordOf (t : Trap) (pc : VA) : TrapRec :=
  ⟨t.cause.setWidth 64 ||| (t.acc.setWidth 64 <<< 12) ||| (t.kind.setWidth 64 <<< 16) ||| (t.code.setWidth 64 <<< 24),
    pc.setWidth 64, t.addr.setWidth 64, t.slots.setWidth 64⟩

end Sys2Proof.Say

open Sys2Proof Sys2Proof.Machine Sys2Proof.Say

/-- R133, R136, R138, R140, R147, R155, R156, R178, R220: an empty bundle in place of a held one; a result that lands with its copies in
agreement, or corrected, a compare's two predicates together; a split vote and a failed residue check, which suppress the write; and
interlocked results that arrive: a load's, with NW or without, a vector load's, a division's with b7 and its votes, and data that an
uncorrectable error has spoiled. That a compare's two predicates land together, and that the outcome of a vote comes with the event, is
the model's choice (log entry 48). -/
def Obligations.ResultEvents : Prop :=
  ∀ (s : State) (c : CubeId), Acts s c →
    ((s.cube c).bundle.held = true → awaitsValue s (s.cube c).core = false → exec (.emptyBundle c) s = .next (s.modCube c fun k => { k with
      core := { landDue k.core with issued := k.core.issued + 1,
                                    results := (landDue k.core).results.map fun r => { r with rem := r.rem - 1 } }
      bundle := { k.bundle with held := false }, stall := 0 })) ∧
    (∀ (front rest : List Result) (r : Result), (s.cube c).core.results = front ++ r :: rest → r.rem = 0 →
      awaitsValue s (s.cube c).core = false →
      (∀ q ∈ front, q.rem ≠ 0) →
      let twins := rest.filter (twinOf r)
      let left : List Result := front ++ rest.filter fun t => !twinOf r t
      let landed : Ctx := (r :: twins).foldl landResult { (s.cube c).core with results := left }
      CoreBecomes s (.exposedResultLands c front.length 0) c (fun _ => landed) ∧
      (r.tv = true → ∃ u, exec (.exposedResultLands c front.length 1) s = .next u ∧ (u.cube c).core = landed) ∧
      (r.tv = true → twins = [] → ∃ u, exec (.exposedResultLands c front.length 2) s = .next u ∧
        (u.cube c).core = ({ (s.cube c).core with results := left }).addPending ⟨0x12, 0, 0, 0, 0, 0⟩ r.pos) ∧
      (r.tv = false → r.kind = .scalar → r.chk = true → twins = [] → ∃ u, exec (.exposedResultLands c front.length 3) s = .next u ∧
        (u.cube c).core = ({ (s.cube c).core with results := left }).addPending ⟨0x13, 0, 0, 0, 0, 0⟩ r.pos)) ∧
    ∀ q : ReadReq, s.read q.id = some q → q.status = .served → (s.cube c).core.sid = q.sid →
      let Arrives (vote : BitVec 2) (f : Ctx → Ctx) : Prop := ∃ u,
        exec (.interlockedResultArrives q.id vote) s = .next u ∧ u.reads = s.reads.filter (fun r => r.id != q.id) ∧
        (u.cube c).core = { f (s.cube c).core with acqs := (s.cube c).core.acqs.filter fun a => a.read != q.id } ∧ u.mem = s.mem
      (∀ d nw n sx, q.dest = .scalar d nw n sx →
        (q.bad = false → Arrives 0 fun x => if nw then x else x.setS d (extended n sx (q.value.toNat % 2 ^ 64))) ∧
        (q.bad = true → Arrives 0 fun x => x.addPending ⟨0x09, 0, 0, q.acc, 0, q.va⟩ (4 * q.id))) ∧
      (∀ d v, q.dest = .vector d v →
        (q.bad = false → Arrives 0 fun x => toVector v ⟨false, false⟩ d (vecOf 1 fun j =>
          if q.en.getLsbD j then elemAt q.value 1 j else elemAt (x.v d) 1 j) x) ∧
        (q.bad = true → Arrives 0 fun x => x.addPending ⟨0x09, 0, 0, q.acc, 0, q.va⟩ (4 * q.id))) ∧
      (∀ p, q.dest = .exposed p → q.bad = false → Arrives 0 fun x => { x with
        results := x.results.map fun r => if r.pos = p ∧ r.kind = .vector then { r with vec := q.value } else r }) ∧
      ∀ d nw tv, q.dest = .division d nw tv →
        let lands (x : Ctx) : Ctx := (if nw then x else x.setS d (q.value.setWidth 64)).setLatchS 7 (q.value.setWidth 64)
        Arrives 0 lands ∧ (tv = true → Arrives 1 lands ∧ Arrives 2 fun x => x.addPending ⟨0x12, 0, 0, 0, 0, 0⟩ (4 * q.id)) ∧
        (tv = false → Arrives 3 fun x => x.addPending ⟨0x13, 0, 0, 0, 0, 0⟩ (4 * q.id))
/-- R135, R406, R74: a missing bundle arrives from HBM, or its poisoned line leaves a deferred trap; and the noise generator
appends the next word of xorshift128+ while its queue has room. That the cache holds single bundles, 32,768 of them, with the oldest
replaced and those of the physical window kept apart, is the model's reading (log entry 19). -/
def Obligations.FetchAndNoise : Prop :=
  ∀ (s : State) (c : CubeId), Acts s c →
    (∀ t, fetchAt s c = .miss t → t.migrate = false → Quiet s →
      ∃ u, exec (.icacheMissFill c) s = .next u ∧ u.mem = s.mem ∧ (∀ o, o ≠ c → u.cube o = s.cube o) ∧
        let x := (s.cube c).core
        (s.poison.contains (t.key / 64) = false → (u.cube c).core = x ∧ (u.cube c).icache =
          ⟨x.sys.asn, x.pc.extractLsb' 48 4 == 0xE, x.pc, BitVec.ofNat 128 (memNat s.mem t.key 16)⟩ :: (s.cube c).icache.take 32767) ∧
        (s.poison.contains (t.key / 64) = true → (u.cube c).icache = (s.cube c).icache ∧
          (u.cube c).core = x.addPending ⟨0x09, 0, 0, 1, 0, x.pc⟩ (placeOfId s.nextId))) ∧
    ((s.cube c).core.noise.queue.length < 64 → (s.cube c).core.wait ≠ .parked →
      let n := (s.cube c).core.noise
      (n.ent = false →
        let t := n.a ^^^ (n.a <<< 23)
        let b := t ^^^ n.b ^^^ (t >>> 17) ^^^ (n.b >>> 26)
        CoreBecomes s (.noiseWordAppend c) c fun x => { x with noise := { n with queue := n.queue ++ [b + n.b], a := n.b, b := b } }) ∧
      (n.ent = true → ∃ w u, exec (.noiseWordAppend c) s = .next u ∧
        (u.cube c).core = { (s.cube c).core with noise := { n with queue := n.queue ++ [w] } }))
/-- R151, R152, R238, R239: a strand of higher priority displaces the running one, which goes to the head of its ready list; a
free core takes the next ready strand; a quantum that has passed gives the core to the next strand of the same priority, and
restarts when there is none; a strand of higher priority that is ready then comes first. -/
def Obligations.Switches : Prop :=
  ∀ (s : State) (c : CubeId), (s.cube c).stopped = false → (s.cube c).debugHalted = false → (s.cube c).hw.life = .live →
    (s.cube c).con.testing = none → (s.cube c).patches = [] → (s.cube c).leave = .none →
    (∀ j y, (s.cube c).cur = .none → nextReady (s.cube c) = some j → (s.cube c).shelves.get j = some y → ∃ u,
      exec (.switchIn c) s = .next u ∧ (u.cube c).cur = .shelf j ∧ (u.cube c).core = { y with status := .running } ∧
      (u.cube c).ready = (s.cube c).ready.filter (· != j) ∧ u.mem = s.mem ∧ u.items = s.items) ∧
    (preempted (s.cube c) = true → exec (.quantumExpiry c) s = exec (.preemption c) s) ∧
    (∀ i, (s.cube c).cur = .shelf i → AtRest s (s.cube c).core.sid → (s.cube c).core.wait ≠ .parked →
      (∀ j y, nextReady (s.cube c) = some j → j ≠ i → (s.cube c).shelves.get j = some y →
        (s.cube c).core.task.prio.toNat < y.task.prio.toNat → ∃ u, exec (.preemption c) s = .next u ∧ Switched s u c i j ∧
        (u.cube c).ready = i :: (s.cube c).ready.filter (· != j)) ∧
      ((s.cube c).cregs.quantum ≠ 0 →
        (s.cube c).cregs.quantum.toNat * Config.cyclesPerUs ≤ (s.cube c).quantumUsed → preempted (s.cube c) = false →
        (∀ j y, ((s.cube c).ready.find? fun j => shelfPrio (s.cube c) j == (s.cube c).core.task.prio.toNat) = some j → j ≠ i →
          (s.cube c).shelves.get j = some y → ∃ u, exec (.quantumExpiry c) s = .next u ∧ Switched s u c i j ∧
          (u.cube c).ready = (s.cube c).ready.filter (· != j) ++ [i]) ∧
        ((∀ j ∈ (s.cube c).ready, shelfPrio (s.cube c) j ≠ (s.cube c).core.task.prio.toNat) →
          exec (.quantumExpiry c) s = .next (s.modCube c fun k => { k with quantumUsed := 0 }))))
/-- R146, R148, R150, R191: a pending trap and the watchdog's are taken, once the interlocked operations are complete; until then the
core issues nothing. A task strand's trap saves its image, trapped, with the record, frees its monitor and starts the runtime context
at SEQ_TVEC with the record and the shelf; one of the runtime context goes to secure mode, where gesso's answer leaves the core to the
next ready strand; one in secure mode halts the core. That gesso answers within the same step, and that the watchdog counts the attempts
to issue, is the model's choice (log entries 20 and 64). -/
def Obligations.TrapEntry : Prop :=
  ∀ (s : State) (c : CubeId),
    (∀ t ts, Acts s c → (s.cube c).core.pending = t :: ts → AtRest s (s.cube c).core.sid → exec (.trapEntry c) s =
      .next (enterTrap (s.modCube c fun k => { k with core := { k.core with pending := ts, pendAt := k.core.pendAt.drop 1 } }) c t)) ∧
    (Acts s c → (s.cube c).leave = .none → (s.cube c).cregs.wdog ≠ 0 → (s.cube c).cregs.wdog.toNat * 1024 ≤ (s.cube c).stall →
      (s.cube c).core.wait = .none → exec (.watchdog c) s = .next (takeTrap s c ⟨0x11, 0, 0, 0, 0, 0⟩)) ∧
    (∀ t : Trap, t.cause ≠ 0x0A → (s.cube c).cur ≠ .none →
      (interlocksOut s (s.cube c).core.sid = true → takeTrap s c t = s.modCube c fun k => { k with leave := .trap t }) ∧
      (interlocksOut s (s.cube c).core.sid = false → takeTrap s c t = enterTrap s c t)) ∧
    (∀ t, (s.cube c).leave = .trap t →
      (interlocksOut s (s.cube c).core.sid = true → issueCore s c = s) ∧
      (interlocksOut s (s.cube c).core.sid = false → (s.cube c).core.pending = [] →
        issueCore s c = enterTrap (s.modCube c fun k => { k with core := landDue k.core, leave := .none }) c t)) ∧
    ∀ t : Trap, AtRest s (s.cube c).core.sid →
      let u := enterTrap s c t
      let old := recordOf t (s.cube c).core.pc
      (∀ i, (s.cube c).cur = .shelf i →
        (u.cube c).cur = .runtime ∧ (u.cube c).core.mode = (s.cube c).rt.mode ∧ (u.cube c).core.pc = (s.cube c).rt.sys.tvec ∧
        (u.cube c).core.regs = (s.cube c).rt.regs ∧ (u.cube c).core.sys.trec = old ∧
        (u.cube c).core.sys.tshelf = 0x10 + BitVec.ofNat 5 i.val ∧
        (u.cube c).monitors = (s.cube c).monitors.filter (fun m => m.shelf != i) ∧ u.mem = s.mem ∧
        ∃ x, (u.cube c).shelves.get i = some x ∧ x.status = .trapped ∧ x.sys.lastTrap = old ∧ x.pc = (s.cube c).core.pc ∧
          x.wait = .none ∧ x.regs = (landDue (s.cube c).core).regs) ∧
      ((s.cube c).cur = .runtime → (s.cube c).ready = [] → AtRest s (s.cube c).sec.sid →
        (u.cube c).cur = .none ∧ (u.cube c).sec.sys.trec = old ∧ (u.cube c).sec.pc = (s.cube c).sec.sys.tvec ∧ (u.cube c).rt.status = .trapped ∧
        (u.cube c).rt.sys.lastTrap = old ∧ u.mem = s.mem) ∧
      ((s.cube c).cur = .secure → (u.cube c).stopped = true ∧ (u.cube c).core = (s.cube c).core ∧ u.mem = s.mem)

namespace Sys2Proof.Say
open Sys2Proof.Machine

/-! ### Registers that are written or read as events -/

/-- The generator after a write: the queue is flushed, and two zero words become 0 and 1 (R74, R75). -/
def reseeded (n : Noise) : Noise := { n with queue := [], b := if n.a = 0 ∧ n.b = 0 then 1 else n.b }
/-- A context with these noise registers. -/
def withNoise (x : Ctx) (n : Noise) : Ctx := { x with noise := n }
/-- The conservator of a cube becomes f of itself, and nothing else changes. -/
def ConBecomes (s : State) (i : Instr) (c : CubeId) (f : ConRegs → ConRegs) : Prop :=
  exec i s = .next (s.modCube c fun k => { k with con := f k.con })
/-- A line that lies in the home stack of a cube or in its window (R376). -/
def InCube (c : CubeId) (line : Nat) : Prop :=
  line * 64 / 2 ^ 36 = c.val ∨ (windowBase c ≤ line * 64 ∧ line * 64 < windowBase c + 2 ^ 32)
/-- A counter of the launch's address space in HBM of this package that the schedulers may add to. -/
def Countable (s : State) (l : Launch) (va : VA) (t : Target) : Prop :=
  va.toNat % 8 = 0 ∧ svcTarget s l.asn .both va = some t ∧ t.peer = none ∧ (∃ n, keySpace s t.key = .hbm n) ∧ t.key % 8 = 0 ∧
    s.poison.contains (t.key / 64) = false ∧ Plain s ((List.range 8).map (t.key + ·)) ∧ Memory.wf s.mem
/-- A cube belongs to a partition register other than n. -/
def Elsewhere (s : State) (n : BitVec 3) (cubes : BitVec 8) : Prop :=
  ∃ m : Fin 8, m ≠ n.toFin ∧ (s.atl.parts.get m).cubes &&& cubes ≠ 0

end Sys2Proof.Say

open Sys2Proof Sys2Proof.Machine Sys2Proof.Say

/-- R75, R92, R93, R102, R120, R230, R251, R305, R363, R375, R376: what a write of a register, a write at a window, and a read
that pops an entry do; one that closes a partition refuses the tasks that were not started. That a window write of SEQ_TVEC lands in
whichever context runs, and that strands of a cube that leaves a closed partition migrate, is the model's choice (log entries 140 and
137). -/
def Obligations.RegisterEvents : Prop :=
  ∀ (s : State) (c : CubeId),
    (∀ v : Word, (s.cube c).cur ≠ .none →
      CoreBecomes s (.noiseSeedaWrite c v) c (fun x => withNoise x (reseeded { x.noise with a := v, seedA := v })) ∧
      CoreBecomes s (.noiseSeedbWrite c v) c (fun x => withNoise x (reseeded { x.noise with b := v, seedB := v })) ∧
      CoreBecomes s (.noiseModeWrite c v) c (fun x => withNoise x (reseeded { x.noise with ent := v.getLsbD 0 })) ∧
      CoreBecomes s (.seqLinesRepair c v) c (fun x => { x with
        sys := { x.sys with broken := x.sys.broken &&& ~~~(v.setWidth 8) }
        lineSeq := Vector.ofFn fun n => if v.getLsbD n.val ∧ x.sys.broken.getLsbD n.val then 0 else x.lineSeq.get n }) ∧
      CoreBecomes s (.sysregWindowWrite c 0x018 v false) c
        (fun x => { x with sys := { x.sys with tvec := v.setWidth 52 &&& ~~~(0xF : VA) } })) ∧
    (∀ (v : Word) (i : ShelfId) (x : Ctx), v.toNat % 32 = 16 + i.val → (s.cube c).cur ≠ .shelf i →
      (s.cube c).shelves.get i = some x → x.status = .trapped → exec (.schEndWrite c v) s = .next (s.modCube c fun k => { k with
        shelves := k.shelves.set i.val (some { x with
          status := .ending, task := { x.task with ending := some (v.extractLsb' 8 8) } }) i.isLt })) ∧
    (∀ (i : ShelfId) (off n : Nat) (v : Word),
      ((s.cube c).shelves.get i = none → exec (.shelfWindowWrite c i off n v) s = .next s) ∧
      ((s.cube c).shelves.get i ≠ none → ((s.cube c).cur ≠ .shelf i ∨ (s.cube c).debugHalted = true) →
        exec (.shelfWindowWrite c i off n v) s = .next (s.modCube c fun k => { k with
          patches := k.patches ++ (cellsAt off (bytesLE n v.toNat)).map fun d => (i, d.1, d.2) }))) ∧
    (∀ (v : Word) (m : BitVec 12), exec (.sysregWindowWrite c 0x101 v false) s =
        .next (s.modCube c fun k => { k with cregs := { k.cregs with quantum := v.setWidth 32 } }) ∧
      exec (.sysregWindowWrite c 0x700 v true) s = .next { s with secu := { s.secu with world := v.setWidth 7 } } ∧
      (mayWrite .runtime m.toNat = false → exec (.sysregWindowWrite c m v false) s = .next s)) ∧
    exec (.fabMigreqRead c) s = .next { s with fab := { s.fab with migQueue := s.fab.migQueue.drop 1 } } ∧
    ConBecomes s (.conCelogRead c) c (fun q => { q with ceLog := q.ceLog.drop 1 }) ∧
    ConBecomes s (.conUelogRead c) c (fun q => { q with ueLog := q.ueLog.drop 1 }) ∧
    (∀ v : Word, ConBecomes s (.conInjaddrWrite c v) c (fun q => { q with injAddr := v.extractLsb' 6 42, injArm := false }) ∧
      ∃ arm, ConBecomes s (.conInjctlWrite c v) c (fun q => { q with
        injKind := v.extractLsb' 1 2, injFired := q.injFired && !v.getLsbD 4, injArm := arm }) ∧
        (arm = true ↔ (s.cube c).con.injArm = false ∧ v.getLsbD 0 = true ∧ v.extractLsb' 1 2 ≠ 3 ∧
          InCube c (s.cube c).con.injAddr.toNat)) ∧
    (∀ v : Word, exec (.cubSkewWrite c v) s = .next (s.modCube c fun k => { k with
      eng := { k.eng with skewNext := k.eng.skewNext ++ [(s.nextId, v.setWidth 32)] } })) ∧
    (∀ (n : BitVec 4) (v : Word), ∃ ps : List (BitVec 10), exec (.fabDeadWrite n v) s =
        .next { s with fab := { s.fab with handshakes := s.fab.handshakes ++ ps } } ∧
      ∀ p : BitVec 10, p ∈ s.fab.handshakes ++ ps ↔ p ∈ s.fab.handshakes ∨
        (p.toNat / 64 = n.toNat ∧ v.getLsbD (p.toNat % 64) = true ∧ s.fab.regs.dead.getLsbD p.toNat = true)) ∧
    ∀ (n : BitVec 3) (v : Word),
      (Elsewhere s n (v.setWidth 8) → exec (.schPartWrite n v) s = .next s) ∧
      (¬ Elsewhere s n (v.setWidth 8) → v.getLsbD 8 = true → v.setWidth 8 ≠ (0 : BitVec 8) → ∃ u, exec (.schPartWrite n v) s = .next u ∧
        u.atl = { s.atl with parts := s.atl.parts.set n.toNat ⟨true, v.setWidth 8⟩ n.isLt } ∧ u.mem = s.mem ∧
        ∀ d : CubeId, v.getLsbD d.val = true → u.cube d = s.cube d) ∧
      (¬ Elsewhere s n (v.setWidth 8) → v.getLsbD 8 = false ∨ v.setWidth 8 = (0 : BitVec 8) →
        let closed := s.atl.parts.set n.toNat ⟨v.getLsbD 8, v.setWidth 8⟩ n.isLt
        ((∀ l ∈ s.atl.board, l.part ≠ n) → exec (.schPartWrite n v) s = .next { s with atl := { s.atl with parts := closed } }) ∧
        ∀ (l : Launch) (t : Target) (first k : Nat), s.atl.board = [l] → l.part = n → l.report = 0 → (∀ d, (s.cube d).admission = []) →
          l.untaken = [(first, k)] → 0 < k → l.retired + l.refused + k < l.ntasks → Countable s l l.done t → Quiet s → ∃ u,
          exec (.schPartWrite n v) s = .next u ∧ u.atl.parts = closed ∧
          u.launch l.slot = some { l with untaken := [], refused := l.refused + k } ∧
          memWord u.mem t.key = counterSum (memWord s.mem t.key) (BitVec.ofNat 64 k ||| 0x8000000000000000) ∧
          ∀ (d : CubeId) (i : ShelfId) (x : Ctx), (s.cube d).shelves.get i = some x → (u.cube d).shelves.get i =
            some (if x.task.slot = l.slot ∧ v.getLsbD d.val = false then { x with task := { x.task with away := true } } else x))

namespace Sys2Proof.Say
open Sys2Proof.Machine

/-! ### The atelier and the cube schedulers -/

/-- The launch of a slot becomes f of itself; nothing else of the scoreboard changes. -/
def boardWith (s : State) (slot : BitVec 8) (f : Launch → Launch) : List Launch :=
  s.atl.board.map fun l => if l.slot = slot then f l else l
/-- Packets that a peer may launch: its table entry is valid, it is not dead, and LAUNCH is set (R366). -/
def MayLaunch (s : State) (p : Nat) : Prop := peerHeard s p = true ∧ (peerEntry s p 0).getLsbD 55 = true
/-- What a service needs is at hand: there is no walk to wait for, and links and ports carry its traffic (R10, R104, R368). -/
def AtHand (s : State) (asn : BitVec 12) (vas : List VA) : Prop :=
  ∀ va ∈ vas, mustWalk s (svcAgent s asn) va = false ∧ svcCarried s asn va = true
/-- What a start has read of its image: MIGRATE pages are counted, and injected faults have fired. -/
def imageRead (s : State) (l : Launch) (h : Header) (x : Ctx) : State :=
  (imageRanges l h x).foldl (fun s r => svcTouch s l.asn .read r.1 r.2) s
/-- A strand off the core stands on a shelf in a state, with nothing of it in flight (R123, R158, R241). -/
def OnShelf (s : State) (c : CubeId) (i : ShelfId) (x : Ctx) (st : Status) : Prop :=
  (s.cube c).shelves.get i = some x ∧ (s.cube c).cur ≠ .shelf i ∧ x.status = st ∧ AtRest s x.sid ∧
    (∀ m ∈ (s.cube c).cmds, m.sid ≠ x.sid) ∧
    (∀ d, ∀ m ∈ (s.cube d).cmds, m.kind = .copy .mcast → x.sid ∉ m.ents) ∧ (∀ j ∈ (s.cube c).joins, j.sid ≠ x.sid) ∧ trainOf s x.sid = none
/-- The shelf is free again. -/
def Freed (s u : State) (c : CubeId) (i : ShelfId) : Prop :=
  (u.cube c).shelves.get i = none ∧ (∀ j, j ≠ i → (u.cube c).shelves.get j = (s.cube c).shelves.get j) ∧
    (u.cube c).monitors = (s.cube c).monitors.filter (fun m => m.shelf != i) ∧
    (u.cube c).ready = (s.cube c).ready.filter (fun j => j != i)
/-- One more strand of a launch has ended; with the last one its slot is free, and its next generation is one higher (R226). -/
def Retires (u : State) (l : Launch) : Prop :=
  if l.retired + 1 + l.refused = l.ntasks then
    u.launch l.slot = none ∧ u.atl.gens.get l.slot.toFin = l.gen + 1
  else u.launch l.slot = some { l with retired := l.retired + 1 }

end Sys2Proof.Say

open Sys2Proof Sys2Proof.Machine Sys2Proof.Say

/-- R57, R226, R227, R231, R232, R253, R366: packets of peers, the header of an image, the hand-out of a batch, and the takeover by
bridge 1. That a takeover is logged on cube 0, that refusals are tested in this order, and that a packet takes the lowest free slot, is
the model's choice (log entries 53, 49 and 124). -/
def Obligations.LaunchEvents : Prop :=
  ∀ s : State,
    (∀ (bridge : Bool) (peer : BitVec 10) (p : BitVec 512), Quiet s →
      let u := cachePeer s peer.toNat
      (¬ MayLaunch s peer.toNat → exec (.peerLaunchPacket ⟨bridge, peer⟩ p) s = .next { u with fab := { u.fab with regs := { u.fab.regs with
        drop := if s.fab.regs.drop = BitVec.allOnes 32 then s.fab.regs.drop else s.fab.regs.drop + 1 } } }) ∧
      (MayLaunch s peer.toNat → s.secu.stage = 4 →
        ∀ slot, Acceptable s (pktWithAsn p ((peerEntry s peer.toNat 0).extractLsb' 32 12)) slot → exec (.peerLaunchPacket ⟨bridge, peer⟩ p) s =
          .next (boarded u (pktWithAsn p ((peerEntry s peer.toNat 0).extractLsb' 32 12)) slot))) ∧
    (∀ (l : Launch) (h : List Byte), s.launch l.slot = some l → l.header = none →
      AtHand s l.asn [l.image] →
      let t := svcTouch s l.asn .read l.image 128
      svcRead t l.asn l.image 128 = some h →
      (headerOk h = true → ∃ u, exec (.imageHeaderRead l.slot) s = .next u ∧ u.mem = t.mem ∧ u.cubes = t.cubes ∧
        u.atl = { t.atl with board := boardWith t l.slot fun q => { q with header := some (parseHeader h) } }) ∧
      (headerOk h = false → Quiet s → l.retired = 0 → l.refused = 0 → l.ntasks ≠ 0 → l.untaken = [(0, l.ntasks)] → AtHand s l.asn l.answers → ∃ u, exec (.imageHeaderRead l.slot) s = .next u ∧
        u.atl.board = s.atl.board.filter (fun q => q.slot != l.slot) ∧ u.atl.gens.get l.slot.toFin = l.gen + 1)) ∧
    (∀ (l : Launch) (h : Header) (c : CubeId) (first count : Nat) (rest : List (Nat × Nat)), s.launch l.slot = some l →
      l.header = some h → l.untaken = (first, count) :: rest → (∀ m ∈ s.atl.board, before m l = false) →
      (allocate h []).isSome = true → bestCube s (cubesFor s l h) = some c → ∃ u, exec (.batchHandoff l.slot c) s = .next u ∧
        let n := Nat.min (Nat.min 64 (64 - (s.cube c).admission.length)) count
        (∀ q, q ∈ (u.cube c).admission ↔
          q ∈ (s.cube c).admission ∨ ∃ j, j < n ∧ q = ⟨l.slot, BitVec.ofNat 24 (first + j), l.prio⟩) ∧
        u.launch l.slot = some { l with
          untaken := if n < count then (first + n, count - n) :: rest else rest
          batches := l.batches ++ [⟨c, first, n, (List.range n).map (first + ·)⟩] } ∧
        (∀ m, m.slot ≠ l.slot → (m ∈ u.atl.board ↔ m ∈ s.atl.board)) ∧ u.mem = s.mem ∧ ∀ d, d ≠ c → u.cube d = s.cube d) ∧
    (s.atl.onBridge1 = false → ∃ u, exec .atelierTakeover s = .next u ∧ u.atl = { s.atl with onBridge1 := true } ∧
      u.mem = s.mem ∧ (u.cube 0).core = (s.cube 0).core)
/-- R233 to R236, R58, R149, R74: a task is admitted to the lowest free shelf with a partition, and starts as its image says. That its
registers are then 0, and its predicates and masks false, is the model's choice (log entry 1). -/
def Obligations.TaskEvents : Prop :=
  ∀ (s : State) (c : CubeId) (i : ShelfId) (l : Launch) (h : Header) (p : Partition), s.launch l.slot = some l → l.header = some h →
    (∀ q : QTask, q.slot = l.slot → (s.cube c).admission = [q] → mayRunOn s l.part h.opmask c = true → orderOk l q.index.toNat = true →
      s.atl.evicted = [] → (s.cube c).shelves.get i = none → (∀ j : ShelfId, j < i → (s.cube c).shelves.get j ≠ none) →
      roomFor s c q = some p → ∃ x, exec (.taskAdmission c) s =
        .next { s.modCube c (fun k => { k with shelves := k.shelves.set i.val (some x) i.isLt, admission := [] }) with
          nextId := s.nextId + 1 } ∧
        x.sid = s.nextId ∧ x.mode = .task ∧ x.status = .starting ∧ x.part = p ∧ x.sys.asn = l.asn ∧ x.task.slot = q.slot ∧
        x.task.index = q.index ∧ x.task.prio = q.prio ∧ x.task.opmask = h.opmask ∧ x.pending = [] ∧ x.results = [] ∧
        (∀ r, x.s r = 0) ∧ (∀ r, x.v r = 0) ∧ (∀ r, x.p r = (r == 0)) ∧ ∀ r, x.m r = if r = 0 then BitVec.allOnes 256 else 0) ∧
    ∀ (x : Ctx) (ps : List (Nat × Nat × BitVec 7)) (sps : List (Nat × Spool)) (s' : State), (s.cube c).shelves.get i = some x →
      (s.cube c).cur ≠ .shelf i → x.status = .starting → x.task.slot = l.slot → l.reports = false →
      Quiet s → AtHand s l.asn ((imageRanges l h x).flatMap fun r => granules r.1 r.2) →
      let t := imageRead s l h x
      imagePalettes t l h x.part = some ps → imageSpools t l h x.part = some sps → loadStores t c l h x = some s' →
      ∃ u y m, exec (.taskStart c i) s = .next u ∧ (u.cube c).shelves.get i = some y ∧ u.mem = s'.mem ∧
        y.sid = x.sid ∧ y.status = .ready ∧ y.regs = x.regs ∧ y.part = x.part ∧ y.pc = (l.image + 128 + BitVec.ofNat 52 h.entry) &&& ~~~(0xF : VA) ∧
        y.sys.asn = l.asn ∧ y.sys.codeLo = l.image + 128 ∧ y.sys.codeHi = l.image + 128 + BitVec.ofNat 52 h.text - 16 ∧
        y.sys.larg0 = l.arg0 ∧ y.sys.larg1 = l.arg1 ∧ y.sys.tinfo = ((l.prio.setWidth 64 <<< 32) ||| (l.gen.setWidth 64 <<< 24) |||
          (l.slot.setWidth 64 <<< 16) ||| if l.ordered then 1 else 0) ∧
        y.noise = fillNoise 64 (Noise.reset x.task.index.toNat) ∧ y.noise.queue.length = 64 ∧
        (u.cube c).ready = (s.cube c).ready ++ [i] ∧ u.launch l.slot = some m ∧ m.started = l.started + 1 ∧
        u.atl.starts = s.atl.starts + 1
/-- R241 to R245, R158, R250 to R252: an eviction and a migration begin; a quiet strand's record is written and its shelf is
free; it returns, ready, to a shelf of the cube that it left; a halted strand adds 1 to DONE, and one that ends in error adds 1
and poison. That a record's place is reserved when the eviction starts, and that an owner tag is an address space, is the model's
choice (log entries 57 and 27). -/
def Obligations.StrandEvents : Prop :=
  ∀ (s : State) (c : CubeId) (i : ShelfId) (x : Ctx),
    (∀ st unit, OnShelf s c i x st → x.evictable = true → (∀ t ∈ x.pending, t.cause ≠ 0x0B) → poolFit s x.part = some unit →
      let reserved : State := { s with atl := { s.atl with saves := s.atl.saves ++ [(x.sid, unit, recordUnits x.part)] } }
      let leaving (y : Ctx) : Cube := { s.cube c with
        shelves := (s.cube c).shelves.set i.val (some y) i.isLt, monitors := (s.cube c).monitors.filter fun m => m.shelf != i,
        ready := (s.cube c).ready.filter fun j => j != i }
      (nextVictim s c = some i → exec (.evictionStart c i) s =
        .next (reserved.modCube c fun _ => leaving { x with status := .evicting, wait := .none })) ∧
      exec (.migration c i) s = .next (reserved.modCube c fun _ =>
        leaving { x with status := .evicting, wait := .none, task := { x.task with away := true } })) ∧
    (∀ unit n, OnShelf s c i x .evicting → (∀ t ∈ x.pending, t.cause ≠ 0x0B) → Quiet s →
      s.atl.saves.find? (fun r => r.1 == x.sid) = some (x.sid, unit, n) → (s.cube c).patches = [] → ∃ u,
      exec (.evictionComplete c i) s = .next u ∧ Freed s u c i ∧ u.atl.saves = s.atl.saves.filter (fun r => r.1 != x.sid) ∧
      u.atl.evicted = s.atl.evicted ++ [⟨x, c, unit, n, x.task.away⟩] ∧ u.mem = (saveRecord s c x unit).mem) ∧
    (∀ e p, s.atl.evicted = [e] → e.cube = c → e.ctx.task.ending = none → trainOf s e.ctx.sid = none → mayTake s e c = true →
      (s.cube c).admission = [] → Quiet s → (∀ n ∈ constVAs s e, AtHand s n.1 [n.2]) →
      allocate (sizesOf e.ctx.part) (partitionsBut (s.cube c) fun _ => false) = some p →
      (s.cube c).shelves.get i = none → (∀ j : ShelfId, j < i → (s.cube c).shelves.get j ≠ none) → ∃ u y,
        exec (.readmission 0 c) s = .next u ∧ (u.cube c).shelves.get i = some y ∧ y.sid = e.ctx.sid ∧ y.status = .ready ∧
        y.wait = .none ∧ y.part = p ∧ y.task = { e.ctx.task with away := false, owner := y.sys.asn } ∧ y.sys.jmask = 0 ∧ y.sys.jskew = 0 ∧ (u.cube c).ready = (s.cube c).ready ++ [i] ∧
        u.atl.evicted = []) ∧
    ∀ (l : Launch) (t : Target), s.launch l.slot = some l → x.task.slot = l.slot → Countable s l l.done t → Quiet s →
      AtHand s l.asn [l.done] →
      (OnShelf s c i x .halting → x.pending = [] → ∃ u, exec (.haltComplete c i) s = .next u ∧ Freed s u c i ∧ Retires u l ∧
        memWord u.mem t.key = counterSum (memWord s.mem t.key) 1) ∧
      (∀ st z, OnShelf s c i x st → st ≠ .evicting → st ≠ .starting → x.task.ending = some z → l.faultRec = 0 → ∀ cause, ∃ u,
        exec (.strandEndError c i cause) s = .next u ∧ Freed s u c i ∧ Retires u l ∧
        memWord u.mem t.key = counterSum (memWord s.mem t.key) 0x8000000000000001)

namespace Sys2Proof.Say
open Sys2Proof.Machine

/-! ### Commands at work (R255, R271, R272, R292, R328) -/

/-- A command stands in its queue, no walk holds the queue (R104), and no write of the command waits at a shelf window. -/
def Stands (s : State) (c : CubeId) (m : Cmd) : Prop :=
  (s.cube c).cmd m.id = some m ∧ queueWalks s c m = false ∧ awaitsWindow s m.id = false
/-- A command waits in its queue, and what it was fenced by is over (R197, R303). -/
def Waiting (s : State) (c : CubeId) (m : Cmd) : Prop := Stands s c m ∧ m.status = .queued ∧ unfenced s c m = true
/-- A started command whose strand's earlier stores are at their homes; nothing disturbs its accesses. -/
def Going (s : State) (c : CubeId) (m : Cmd) : Prop := Stands s c m ∧ m.status = .started ∧ storesDone s m = true ∧ Quiet s
/-- The command starts with these entries reserved for what it produces and for what it consumes. -/
def Starts (s : State) (i : Instr) (c : CubeId) (m : Cmd) (res took : List (Nat × Nat × Nat)) : Prop :=
  ∃ u, exec i s = .next u ∧ u.mem = s.mem ∧ u.items = s.items ∧
    ∃ es os hs, (u.cube c).cmd m.id = some { m with
      status := .started, res := res, took := took, ents := es, out := os, homes := hs, seed := (s.cube c).eng.cpySeed }
/-- The work of a command is done without an error: it waits for its entries to land and for its completion add, or, with
neither, leaves its queue. -/
def Ended (u : State) (c : CubeId) (m : Cmd) (wrote : List Nat) : Prop :=
  ∃ hs d, (u.cube c).cmd m.id = if m.res = [] ∧ m.amt = 0 then none
    else some { m with status := .finished, err := none, wrote := wrote, took := [], homes := hs, lost := none, addDead := d }
/-- Bytes that a command writes: their places and their values. -/
def cellsOf (os : List OutByte) : List (Nat × Byte) := os.map fun o => (o.1, o.2.2)
/-- The command is performed: its bytes stand, and nothing else of memory changes. -/
def Wrote (s : State) (i : Instr) (c : CubeId) (m : Cmd) (os : List OutByte) : Prop :=
  Plain s (os.map Prod.fst) → ∃ u, exec i s = .next u ∧ Stored s u (cellsOf os) ∧ Ended u c m (homesOf os)
/-- The entries that a spool side needs are there, and the next ones are reserved; any other side reserves nothing (R260). -/
def Room (s : State) (m : Cmd) (produced : Bool) (need : Spool → Option Nat) (f : AddrForm) (r : List (Nat × Nat × Nat)) : Prop :=
  match f with
  | .spool n _ => ∃ k, need (strandSpool s m.sid n) = some k ∧
      if produced then k ≤ (strandSpool s m.sid n).free ∧ r = [(n, (strandSpool s m.sid n).nextP, k)]
      else k ≤ (strandSpool s m.sid n).unreserved ∧ r = [(n, (strandSpool s m.sid n).nextC, k)]
  | _ => r = []
/-- The sides that a copy reads and writes by rows: a pattern and index lists are none. -/
def rowSource (op : CopyOp) (m : Cmd) : AddrForm := if op = .fill ∨ isGather op then .bad else srcForm m
def rowTarget (op : CopyOp) (m : Cmd) : AddrForm := if op = .scatter then .bad else dstForm m
/-- A cube command may start: first in its plane queues, no test, no skew write before it, its layers awake (R292, R387). -/
def PlanesFree (s : State) (c : CubeId) (m : Cmd) : Prop :=
  testHolds (s.cube c) = false ∧ skewHolds (s.cube c) m = false ∧ planeReady (s.cube c) m = true ∧
    ∀ l ∈ fireLayers m, layerAsleep (s.cube c) l = false

end Sys2Proof.Say

open Sys2Proof Sys2Proof.Machine Sys2Proof.Say

/-- R23, R258, R268, R270, R271, R272, R275: copies start in their queue's order and are performed; entries land in order and move
P; the completion add leaves as an item that releases the command's writes. That a command's reads and writes happen in one step is
the model's choice (log entry 7). -/
def Sys2Proof.Say.CopyEvents : Prop :=
  ∀ (s : State) (c : CubeId) (m : Cmd) (op : CopyOp), m.kind = .copy op →
    (Waiting s c m → (∀ q ∈ earlierOf (s.cube c) m, q.status ≠ .queued) → m.res = [] → m.took = [] →
      (copyEmpty m = true → ∃ u, exec (.copyCmdStart c m.id) s = .next u ∧ u.mem = s.mem ∧ Ended u c m []) ∧
      (copyEmpty m = false → copyLimits s m = true → m.dead = false →
        (op = .pfetch ∨ isCred op = true → Starts s (.copyCmdStart c m.id) c m [] []) ∧
        (op ≠ .pfetch → isCred op = false → isSplit op = false → (op = .mcast → mcastHeld s m = false) →
          ∀ p, copyPlan s c m = .ok p → (op = .mcast → mcastOk s m p.dstRow = true) → ∀ res took,
            Room s m false (fun sp => entriesNeeded sp (p.planes * m.rows * p.srcRow)) (rowSource op m) took →
            Room s m true (fun sp => entriesNeeded sp (if op = .gatheradd then p.dstRow else p.planes * m.rows * p.dstRow))
              (rowTarget op m) res →
            (∃ w, copyElems s c { m with res := res, took := took } op = .ok w) → Starts s (.copyCmdStart c m.id) c m res took) ∧
        (isSplit op = true → ∀ l0 o faces rp E, splitPlan s c m = .ok (l0, o, faces, rp, E) → ∀ res took,
          let rows (sp : Spool) := entriesNeeded sp (m.rows * splitRow faces rp E)
          Room s m false (if op = .lsplit then rows else fun _ => some 1) (srcForm m) took →
          Room s m true (if op = .lsplit then fun _ => some 1 else rows) (dstForm m) res →
          Starts s (.copyCmdStart c m.id) c m res took))) ∧
    (Going s c m → (∀ q ∈ earlierOf (s.cube c) m, q.status ≠ .started) → m.dead = false → lineHeld s c m = false →
      acqHeld s c m op = false →
      (op = .pfetch → (∀ x ∈ traversal 1 m.rows m.rowBytes, ∀ e,
          engTarget s c m .read ((m.dw 0).setWidth 52 + BitVec.ofInt 52 (x.2.1 * m.sstride + x.2.2)) = .error e → e.waits = false) →
        ∃ u, exec (.copyCmdComplete c m.id) s = .next u ∧ u.mem = s.mem ∧ Ended u c m []) ∧
      (isCred op = true → m.rowBytes % credWidth op = 0 → (m.dw 0).toNat % 2 ^ 52 % credWidth op = 0 →
        (m.dw 1).toNat % 2 ^ 52 % credWidth op = 0 → (m.rows ≤ 1 ∨ m.sstride % credWidth op = 0 ∧ m.dstride % credWidth op = 0) →
        let pairs := credPairs m (credWidth op) ((m.dw 0).setWidth 52) ((m.dw 1).setWidth 52)
        let s0 := countCopy s c m (pairs.flatMap fun p => [p.1, p.2])
        ∀ s' hs, credRun c m op (credWindow s0 c m ((m.dw 1).setWidth 52)) pairs s0 [] = (s', none, hs) →
        ∃ u, exec (.copyCmdComplete c m.id) s = .next u ∧ u.mem = s'.mem) ∧
      (op ≠ .pfetch → isCred op = false → ∀ os, copyWork s c m op = (os, none) →
        Wrote s (.copyCmdComplete c m.id) c m os)) ∧
    (∀ n first k rest, (s.cube c).cmd m.id = some m → m.status = .finished → m.res = (n, first, k) :: rest → m.amt ≠ 0 → ∃ u,
      exec (.spoolEntryLanded c m.id) s = .next u ∧ u.mem = s.mem ∧ (u.cube c).cmd m.id =
        some { m with res := if k ≤ 1 then rest else (n, (first + 1) % 2 ^ 32, k - 1) :: rest } ∧
      ∀ (d : CubeId) (hn : n < 32) (sp : Spool), (s.cube d).cur ≠ .none → (s.cube d).core.sid = m.sid →
        (s.cube d).core.spools.get ⟨n, hn⟩ = sp → sp.held = [] → ∀ qs, sp.queueP = (first, false) :: qs →
        (∀ q, qs.head? = some q → q.2 = false) →
        (u.cube d).core.spools.get ⟨n, hn⟩ = { sp with p := BitVec.ofNat 32 (first + 1), queueP := qs })
/-- R255, R258, R271, R275: the completion add of any command leaves as an item at the command's own place on its line, with its
amount, poisoned when the command failed; without one the command is over. A finished command behind a failed item of its line,
unless it is an empty one, fails first, by the broken line. -/
def Sys2Proof.Say.CompletionAdds : Prop :=
  ∀ (s : State) (c : CubeId) (m : Cmd), Stands s c m → m.status = .finished → addReady s c m = true →
    let adding := { s.modCube c fun k => k.modCmd m.id fun q => { q with status := .adding } with nextId := s.nextId + 1 }
    let Done (i : Instr) : Prop :=
      (m.amt = 0 → ∃ u, exec i s = .next u ∧ (u.cube c).cmd m.id = none ∧ u.mem = s.mem ∧ u.items = s.items) ∧
      (m.amt ≠ 0 → m.dead = true → m.err = none → m.empty = false → ∃ u, exec i s = .next u ∧ u.items = s.items ∧
        (u.cube c).cmd m.id = some { m with err := some ⟨0x0B, 0, m.ctr.setWidth 52⟩ }) ∧
      (m.amt ≠ 0 → (m.dead = true → m.err = none → m.empty = true) → ∀ t n, addTarget s c m = .ok t → t.peer = none → keySpace s t.key = .hbm n → homeOf t.key ≠ 8 + c.val → ∃ u j,
        exec i s = .next u ∧ u.items = s.items ++ [j] ∧ u.mem = s.mem ∧ u.nextId = s.nextId + 1 ∧ j.id = s.nextId ∧ j.sid = m.sid ∧
        j.op = .cadd t.key (if m.err = none then m.amt else m.amt ||| 0x8000000000000000) ∧ j.rel = true ∧ j.cmd = some m.id ∧
        j.pos = m.id ∧ j.line = cmdLine m ∧ j.seq = m.seq ∧ j.status = (if j.mayLeave adding then .transit else .waiting) ∧
        (u.cube c).cmd m.id = some { m with status := .adding })
    Done (.completionAddSend c m.id) ∧ (∀ op, m.kind = .block op → Done (.blkCmdComplete c m.id))
/-- R281, R285, R287, R291, R292, R297, R298, R303, R305, R308: cube commands start in plane order with the entries that they
consume, or wake their layers, and are performed; a join point completes when its layers have reached it; a write of CUB_SKEW
takes effect, with no field below its layer's DELAY. The model's readings: a command's reads and writes happen in its completion, as
one step (log entry 7); a poisoned line that a command reads is error 0x03 (37); an entry lies in the strand's own face banks (38); a
command waits for every layer that it fires or writes to be awake (41). -/
def Obligations.CubeEvents : Prop :=
  ∀ (s : State) (c : CubeId),
    (∀ (m : Cmd) (op : CubeOp), m.kind = .cube op → Waiting s c m →
      (PlanesFree s c m →
        ((op = .zero ∨ op = .ld ∨ op = .st ∨ op = .move) → tileOk m.part false (m.dw 0) = true →
          (op = .move → tileOk m.part false (m.dw 1) = true) →
          (op = .ld ∨ op = .st → (m.dw 1).toNat % 4 = 0 ∧ accStride m % 4 = 0) → Starts s (.cubeCmdStart c m.id) c m [] []) ∧
        (∀ h, op = .rot h → tileOk m.part true (m.dw 0) = true → Quiet s →
          poisoned s (tileReads c m.part (tileWord (m.dw 0)) (List.range 64) (List.range 64)) = none →
          Starts s (.cubeCmdStart c m.id) c m [] []) ∧
        (∀ z ha hb k, op = .mma z ha hb k → mmShapeBad m = false → mmSpoolsBad s m = false → Quiet s → s.poison = [] →
          let a := strandSpool s m.sid m.spoolA
          let b := strandSpool s m.sid m.spoolB
          let as := m.mmLayers.map (mmOpnd c m false (a.entryOff a.nextC))
          let bs := m.mmLayers.map (mmOpnd c m true (b.entryOff b.nextC))
          a.unreserved ≠ 0 → b.unreserved ≠ 0 → mmEntryBad (s.cube c) m a false as = false → mmEntryBad (s.cube c) m b true bs = false →
          mmFormatBad m as bs = false → mmYields s c m = false → (∀ x ∈ (mmWidth as bs).2, (s.cube c).hw.caps.getLsbD x = true) →
          Starts s (.cubeCmdStart c m.id) c m []
            ((if ha then [] else [(m.spoolA, a.nextC, 1)]) ++ if hb then [] else [(m.spoolB, b.nextC, 1)]))) ∧
      (testHolds (s.cube c) = false → skewHolds (s.cube c) m = false → planeReady (s.cube c) m = true →
        ∀ l : Fin 8, l.val ∈ fireLayers m → ((s.cube c).pwr.layers.get l).gated = true → ∃ u, exec (.cubeCmdStart c m.id) s = .next u ∧
          (u.cube c).pwr.layers.get l = { (s.cube c).pwr.layers.get l with pend := true } ∧ (u.cube c).cmd m.id = some m)) ∧
    (∀ (m : Cmd) (op : CubeOp), m.kind = .cube op → Going s c m → planeEarlier (s.cube c) m = [] →
      (∀ l ∈ fireLayers m, ((s.cube c).layerPwr l).held = false) →
      (∀ z ha hb k, op = .mma z ha hb k → ∃ u, exec (.cubeCmdComplete c m.id) s = .next u ∧ u.mem = (mmDo s c m z).mem ∧
        (u.cube c).recs = ((mmDo s c m z).cube c).recs ∧ Ended u c m []) ∧
      (∀ h, op = .rot h → ∃ u, exec (.cubeCmdComplete c m.id) s = .next u ∧ u.mem = (rotDo s c m (if h then 64 else 32)).mem ∧
        Ended u c m []) ∧
      ((op = .zero ∨ op = .ld ∨ op = .st ∨ op = .move) → ∀ os, accWork s c m op = (os, none) →
        Wrote s (.cubeCmdComplete c m.id) c m os)) ∧
    (∀ j : Join, ((s.cube c).joins.find? fun q => q.id == j.id) = some j → j.amt = 0 → j.last = none →
      walkOut s (.cube c) j.id = false →
      (∀ w ∈ j.waits, (s.cube c).cmd w.2 = none) → ∀ a, j.first = some a → ∃ u, exec (.joinPointComplete c j.id) s = .next u ∧
        (∀ q ∈ (u.cube c).joins, q.id ≠ j.id) ∧ u.mem = s.mem ∧ u.items = s.items ∧
        ∀ d : CubeId, (s.cube d).cur ≠ .none → (s.cube d).core.sid = j.sid →
          (u.cube d).core.sys.jmask = j.layers ∧ (u.cube d).core.sys.jskew = BitVec.ofNat 16 (Nat.min (s.cycle - a).toNat 65535)) ∧
    ∀ id v rest, (s.cube c).eng.skewNext = (id, v) :: rest → (∀ m ∈ (s.cube c).cmds, m.queue = .cubeq → id ≤ m.id) → ∃ w : BitVec 32,
      exec (.cubSkewApply c) s = .next (s.modCube c fun k => { k with eng := { k.eng with skew := w, skewNext := rest } }) ∧
      ∀ l, l < 8 → w.toNat / 2 ^ (4 * l) % 16 = Nat.max (((s.cube c).hw.layers.toList.getD l 0).extractLsb' 4 3).toNat (v.toNat / 2 ^ (4 * l) % 16)
/-- R314, R317, R327 to R330: a drain whose tile agrees with its record, or has none, starts with its entry and with the bytes
that it will write, and is performed. That it writes all of them in its completion, as one step, is the model's choice (log entry
7). -/
def Obligations.DrainEvents : Prop :=
  ∀ (s : State) (c : CubeId) (m : Cmd) (p : Bool), m.kind = .drain p →
    (∀ l, Waiting s c m → storesDone s m = true → (∀ q ∈ earlierOf (s.cube c) m, q.status ≠ .queued) → drainRoom s m = true →
      testHolds (s.cube c) = false → drainLayout s c m none = .ok l → Quiet s → s.poison = [] →
      let t := tileWordAt s (tileKey c m.part (drainTile m))
      let Start (s0 u : State) : Prop := exec (.drainStart c m.id) s = .next u ∧ u.mem = s.mem ∧
        (u.cube c).cmd m.id = some { m with
          status := .started, res := drainEntry s0 m, took := [], out := drainCells s0 c m l (drainIn s0 c m l t)
          seed := (s.cube c).eng.cpySeed }
      let skipped := s.modCube c fun k => { k with eng := { k.eng with drnSkip := satAdd32 k.eng.drnSkip } }
      ((∀ r ∈ (s.cube c).recs, r.tile ≠ recNumber m.part (drainTile m)) → ∃ u, Start skipped u ∧
        (u.cube c).eng.drnSkip = satAdd32 (s.cube c).eng.drnSkip) ∧
      (∀ r, (s.cube c).recs = [r] → r.tile = recNumber m.part (drainTile m) → r.i32 = drainI32 m → (s.cube c).eng.abft = true →
        compareTile r (s.cube c).eng.drnTol.toNat t = .clean → ∃ u, Start s u ∧ (u.cube c).eng = (s.cube c).eng)) ∧
    (Stands s c m → m.status = .started → (∀ q ∈ earlierOf (s.cube c) m, q.status ≠ .started) →
      Plain s (m.out.map Prod.fst) → ∃ u,
      exec (.drainComplete c m.id) s = .next u ∧ Stored s u m.out ∧ Ended u c m [8 + c.val])

namespace Sys2Proof.Say
open Sys2Proof.Machine

/-! ### Block stores (R338 to R352) -/

/-- The registers of the engines of a cube become f of themselves, and nothing else changes. -/
def EngBecomes (s : State) (i : Instr) (c : CubeId) (f : EngRegs → EngRegs) : Prop :=
  exec i s = .next (s.modCube c fun k => { k with eng := f k.eng })
/-- The bytes that a command performed at its store writes: the table and the blocks, a fetch's destination, the record. -/
def blkCells (r : BlkRun) (rp : Option (Nat × BitVec 12)) : List (Nat × Byte) :=
  r.b.out ++ cellsOf r.dest ++ (match rp, r.record with
    | some (a, _), some (w0, w1) => cellsAt a (bytesLE 8 w0 ++ bytesLE 8 w1)
    | _, _ => [])

end Sys2Proof.Say

open Sys2Proof Sys2Proof.Machine Sys2Proof.Say

/-- R339, R342, R345, R346: enabling builds a table without a key, whose free list begins at block 0; disabling stops the store; a
command that is let through is performed there. That it is performed as one step is the model's choice (log entry 7); the order of
its checks, and that nothing of it stays on an uncorrectable error, are the model's reading (66). -/
def Obligations.BlockEvents : Prop :=
  ∀ (s : State) (c : CubeId),
    let e := (s.cube c).eng
    (e.blkCtl.getLsbD 63 = false → (blkFits e c e.blkCtl = false → exec (.blkEnable c) s = .next s) ∧
      (blkFits e c e.blkCtl = true → EngBecomes s (.blkEnable c) c fun e => { e with
        blkCtl := e.blkCtl ||| 0x8000000000000000, blkBuilding := true, blkReady := false })) ∧
    EngBecomes s (.blkDisable c) c (fun e => { e with
      blkCtl := e.blkCtl &&& 0x7FFFFFFFFFFFFFFF, blkBuilding := false, blkReady := false }) ∧
    (e.blkBuilding = true → (∀ d, (s.cube d).hw.life ≠ .evacuating) → Memory.wf s.mem →
      (s.secu.world.getLsbD 4 = true ∨ ∀ d ∈ builtCells (blkOf s c), regionSecure s d.1 = false) → ∃ u, exec (.blkReady c) s = .next u ∧
      (u.cube c).eng = { e with blkBuilding := false, blkReady := true, blkHead := 0, blkFree := e.nb, blkKeys := 0 } ∧
      let base := e.blkBase.toNat * 2 ^ 20
      (∀ h, h < 2 * e.nb → memNat u.mem (base + 16 * h) 16 = 0) ∧
      (∀ i, i < e.nb → memNat u.mem (base + 32 * e.nb + 8 * i) 8 = (if i + 1 = e.nb then 0xFFFFFFFF else i + 1) * 2 ^ 32) ∧
      ∀ a, a < base ∨ base + 40 * e.nb ≤ a → memByte u.mem a = memByte s.mem a) ∧
    ∀ (m : Cmd) (op : BlkOp) (rp : Option (Nat × BitVec 12)), m.kind = .block op → Waiting s c m → storesDone s m = true →
      earlierOf (s.cube c) m = [] → lineHeld s c m = false → blkGroupBad m = false → m.dead = false → storeState s m = 1 → resultPlace s c m = .ok rp →
      (op = .fetch → fetchWaits s c m (blkOf s m.bstack) = false) → Quiet s → s.poison = [] → m.res = [] →
      pathCarries s c.val m.sid (blkOf s m.bstack).base = true →
      let r := blkRun s c m (blkOf s m.bstack)
      r.b.secureHit s m = false → r.err = none → Plain s ((blkCells r rp).map Prod.fst) → ∃ u w sd, exec (.blkCmdPerform c m.id) s = .next u ∧
        (∀ a, memByte u.mem a = memByte (memWrite s.mem (blkCells r rp)) a) ∧ Ended u c { m with res := r.res, seed := sd } w ∧
        (u.cube m.bstack).eng.blkHead = BitVec.ofNat 32 r.b.head ∧ (u.cube m.bstack).eng.blkFree = r.b.free ∧
        (u.cube m.bstack).eng.blkKeys = r.b.keys

namespace Sys2Proof.Say
open Sys2Proof.Machine

/-! ### The fabric (chapter 13) -/

/-- n bytes at a place of this package that a peer may reach (R357, R358): no window, no armed fault, no poisoned line, no second
copy. -/
def Open (s : State) (p d n : Nat) (need : Need) : Prop :=
  peerMayReach s p d n need = true ∧ Quiet s ∧ Memory.wf s.mem ∧
    Plain s ((List.range n).map (d + ·)) ∧ (∀ k, k < n → (keySpace s ((d + k) / 8 * 8)).isWindow = false) ∧ Clean s d n
/-- A request that its home takes now: its sender is heard, it was not performed before, it is not ahead of its line (R117, R360),
and no other waits for its turn. -/
def Taken (s : State) (r : PeerReq) : Prop :=
  peerHeard s r.peer.toNat = true ∧ (s.fab.performed.find? fun e => e.1 == (r.peer, r.tag)) = none ∧
    (r.inLine s = true → r.from_.seq ≤ lineNext s r) ∧ s.fab.held = []
/-- The event of a request. -/
noncomputable def asks (r : PeerReq) : Instr := .incomingPeerRequest r.peer r.kind r.dpa ⟨r.data, r.tag, r.from_⟩
/-- The request is performed: it puts bytes into memory, is answered, is known as performed, and its line goes on (R117, R360). -/
def Serves (s : State) (r : PeerReq) (cells : List (Nat × Byte)) (ws : List Word) : Prop :=
  ∃ u, exec (asks r) s = .next u ∧ Stored s u cells ∧ u.replies = s.replies ++ ws ∧ u.items = s.items ∧ u.reads = s.reads ∧
    u.fab.performed = ((r.peer, r.tag), ws) :: s.fab.performed ∧ (r.inLine s = true → lineNext u r = r.from_.seq + 1)
/-- One port becomes f of itself. -/
def withPort (s : State) (n : Fin 71) (f : Port → Port) : State :=
  { s with fab := { s.fab with ports := s.fab.ports.set n.val (f (s.fab.ports.get n)) n.isLt } }
/-- A record of the logs (R375): its kind, the owner tag and where. -/
def record (kind : Nat) (o : BitVec 12) (place : Nat) : Word := BitVec.ofNat 64 (kind * 2 ^ 60 + o.toNat * 2 ^ 48 + place)
/-- The logs of the cube have room for two more records. -/
def LogRoom (s : State) (c : CubeId) : Prop := (s.cube c).con.ceLog.length < 255 ∧ (s.cube c).con.ueLog.length < 255
/-- The bytes that an atomic of a width leaves. -/
noncomputable def atomCells (s : State) (op : AmoOp) (n d : Nat) (b b1 : Nat) : List (Nat × Byte) :=
  cellsAt d (bytesLE n (combined op (8 * n) (memNat s.mem d n) b b1))

end Sys2Proof.Say

open Sys2Proof Sys2Proof.Machine Sys2Proof.Say

/-- R117, R118, R190, R357 to R361, R364, R365: requests and reduction packets of peers: discarded, refused, held for their turn on
a line, or performed at their homes and answered; one that was performed before is only answered again. The bridge dies take the
peer's entry into their cache. The model's choices: the numbers of the requests (log entry 74); a contribution is applied as it
arrives, and its tag is kept with the answer (75); a number that a line has passed begins the line anew (95). -/
def Obligations.PeerRequests : Prop :=
  ∀ (s : State) (r : PeerReq), Quiet s →
    let p := r.peer.toNat
    let d := r.dpa
    let n := r.data.length
    let w : Word := BitVec.ofNat 64 (packLE (r.data.take 8))
    let s0 := cachePeer s p
    let v := packLE r.data
    (peerHeard s p = false → r.kind ≠ 16 → exec (asks r) s = .next { s0 with fab := { s0.fab with
      regs := { s.fab.regs with drop := if s.fab.regs.drop = BitVec.allOnes 32 then s.fab.regs.drop else s.fab.regs.drop + 1 } } }) ∧
    (peerHeard s p = true → r.kind ≠ 15 → r.kind ≠ 16 → ∀ ws,
      (s.fab.performed.find? fun e => e.1 == (r.peer, r.tag)) = some ((r.peer, r.tag), ws) →
      exec (asks r) s = .next { s0 with replies := s.replies ++ ws }) ∧
    (peerHeard s p = true → r.kind ≠ 15 → r.kind ≠ 16 → (s.fab.performed.find? fun e => e.1 == (r.peer, r.tag)) = none →
      r.inLine s = true → lineNext s r < r.from_.seq → r ∉ s.fab.held →
      exec (asks r) s = .next { s0 with fab := { s0.fab with held := s.fab.held ++ [r] } }) ∧
    (Taken s r →
      (r.kind ≠ 15 → r.kind ≠ 16 → peerMayReach s p d r.size r.need = false →
        exec (asks r) s = .next { s0 with replies := s.replies ++ [BitVec.allOnes 64] }) ∧
      (r.kind = 0 → Open s p d n .read → Serves s r []
        ((List.range ((n + 7) / 8)).map fun j => BitVec.ofNat 64 (memNat s.mem (d + 8 * j) (Nat.min 8 (n - 8 * j))))) ∧
      ((r.kind = 1 ∨ r.kind = 2) → Open s p d n .write → Serves s r (cellsAt d r.data) [0]) ∧
      (Open s p d n .both →
        (n = 8 → d % 8 = 0 →
          (r.kind = 3 → Serves s r (cellsAt d (bytesLE 8 (counterSum (memWord s.mem d) w).toNat)) [memWord s.mem d]) ∧
          (r.kind = 4 → Serves s r (cellsAt d (bytesLE 8 (counterMax (memWord s.mem d) w).toNat)) [memWord s.mem d])) ∧
        (d % n = 0 → ∀ x ∈ ([(5, .add), (6, .and), (7, .or), (8, .xor), (9, .min), (10, .max), (11, .minn), (12, .maxn),
            (13, .swap), (17, .fadd), (18, .fmax)] : List (Nat × AmoOp)), r.kind = x.1 → (n = 4 ∨ n = 8 ∧ x.1 ≤ 13) →
          Serves s r (atomCells s x.2 n d v 0) [BitVec.ofNat 64 (memNat s.mem d n)]) ∧
        (r.kind = 19 → n = 2 → d % 2 = 0 → Serves s r (cellsAt d (bytesLE 2 (credValue .addBf16 (memNat s.mem d 2) v))) [0])) ∧
      (r.kind = 14 → (n = 8 ∨ n = 16) → d % (n / 2) = 0 → Open s p d (n / 2) .both → Serves s r
        (atomCells s .cas (n / 2) d (packLE (r.data.take (n / 2))) (packLE (r.data.drop (n / 2))))
          [BitVec.ofNat 64 (memNat s.mem d (n / 2))])) ∧
    (r.kind = 16 → d + n ≤ dpaSpan → Memory.wf s.mem → (∀ c, (s.cube c).hw.life ≠ .evacuating) → ∃ u, exec (asks r) s = .next u ∧
      Stored s u (cellsAt ((p + 1) * dpaSpan + d) r.data) ∧ u.replies = s.replies) ∧
    (r.kind = 15 → peerHeard s p = true → s.item d = none →
      (∀ (c : CubeId) (q : ReadReq), s.read d = some q → q.id = d → q.status = .sent → q.dest ≠ .wait →
        (∃ x ∈ q.cells, peerOf x.1 = some p) → (s.cube c).cur ≠ .none → (s.cube c).core.sid = q.sid → (s.cube c).core.pending = [] →
        ∃ u, exec (asks r) s = .next u ∧ u.reads = s.reads.filter (fun r => r.id != q.id) ∧
          (u.cube c).core.pending = [⟨0x09, 0, 0, q.acc, 0, q.va⟩] ∧ u.fab.regs = s.fab.regs) ∧
      ∀ (c : CubeId) (m : Cmd), s.read d = none → (s.cube c).cmd d = some m → m.status = .started → ∃ u, exec (asks r) s = .next u ∧
        (u.cube c).cmd d = some { m with lost := some (2, p) } ∧ u.fab.regs = s.fab.regs) ∧
    ∀ (pid a : Word) (count : Nat), peerHeard s p = true →
      ((∃ e ∈ s.fab.performed, e.1 = (r.peer, pid)) → ∀ op,
        exec (.reductionPacketArrival r.peer pid d op count a) s = .next { s0 with replies := s.replies ++ [pid] }) ∧
      ((∀ e ∈ s.fab.performed, e.1 ≠ (r.peer, pid)) → inWindow s d = true →
        let Applied (op : BitVec 4) (n : Nat) (cells : List (Nat × Byte)) : Prop :=
          Open s p d n .both → inWindow s (d + n - 1) = true → d % n = 0 → ∃ u,
            exec (.reductionPacketArrival r.peer pid d op count a) s = .next u ∧ Stored s u cells ∧ u.replies = s.replies ++ [pid] ∧
            u.fab.performed = ((r.peer, pid), [pid]) :: s.fab.performed
        (∀ x ∈ ([(0, .add, 4), (1, .add, 8), (2, .fadd, 4), (3, .max, 4), (4, .max, 8), (5, .fmax, 4)] :
          List (BitVec 4 × AmoOp × Nat)), Applied x.1 x.2.2 (atomCells s x.2.1 x.2.2 d (a.toNat % 2 ^ (8 * x.2.2)) 0)) ∧
        Applied 6 2 (cellsAt d (bytesLE 2 (credValue .addBf16 (memNat s.mem d 2) (a.toNat % 2 ^ 16)))))
/-- R363, R367 to R369, R371: replays are counted in their window and warned of, with an interrupt and a record of the conservator;
ports retrain with ballast lanes or fewer lanes, go down and come up; a handshake's reply clears the dead bit and drops the state of
the pair, and without one the bit stays. The model's choices: the number of the interrupt (log entry 73), lanes that an attempt has
lost stay lost (77), and what brings a retraining about and takes a port down (110). -/
def Obligations.PortEvents : Prop :=
  ∀ s : State,
    (∀ n : Fin 71, let p := s.fab.ports.get n
      (p.up = true → windowOver s p = false →
        let r := if p.replays = BitVec.allOnes 32 then p.replays else p.replays + 1
        exec (.flitReplay n) s = .next (withPort s n fun p => { p with
          replays := r, training := p.training || r == s.fab.regs.replayRetrain.setWidth 32 })) ∧
      (p.up = true → windowOver s p = true → exec (.flitReplay n) s = .next (withPort s n fun p => { p with
        replays := 1, since := s.cycle, warned := false, training := p.training || 1 == s.fab.regs.replayRetrain.setWidth 32 })) ∧
      (p.warned = false → windowOver s p = false → s.fab.regs.replayWarn.toNat % 2 ^ 32 ≤ p.replays.toNat → ∃ u,
        exec (.replayWarning n) s = .next u ∧ u.irqs = s.irqs ++ [0x100 + n.val] ∧
        (LogRoom s 0 → (u.cube 0).con.ceLog = (s.cube 0).con.ceLog ++ [record 10 0 n.val]) ∧
        u.fab = (withPort s n fun p => { p with warned := true }).fab ∧ u.mem = s.mem) ∧
      (∀ lanes, p.up = true → 0 < p.working → lanes < p.working + p.spares.toNat →
        let spared := Nat.min lanes p.spares.toNat
        let left := p.working - (lanes - spared)
        let tries := s.fab.regs.replayRetrain.toNat / 2 ^ 32 % 16
        let Becomes (ok : Bool) (f : Port → Port) : Prop := ∃ u, exec (.portRetrain n lanes ok) s = .next u ∧ u.mem = s.mem ∧
          u.irqs = s.irqs ∧ u.fab = (withPort s n fun p => { f p with
            retrains := if p.retrains = BitVec.allOnes 16 then p.retrains else p.retrains + 1
            spares := p.spares - BitVec.ofNat 4 spared, working := left }).fab
        Becomes true (fun p => { p with tries := 0, training := false
                                        width := if 8 ≤ left then 8 else if 4 ≤ left then 4 else if 2 ≤ left then 2 else 1 }) ∧
        (p.tries + 1 < tries → Becomes false fun p => { p with tries := p.tries + 1, training := true }) ∧
        (tries ≤ p.tries + 1 → Becomes false fun p => { p with tries := p.tries + 1, training := false, up := false })) ∧
      (p.up = true → s.fab.regs.replayRetrain.toNat / 2 ^ 32 % 16 ≤ p.tries →
        exec (.portDown n) s = .next (withPort s n fun p => { p with up := false, training := false })) ∧
      (p.up = false → exec (.portTrained n true) s = .next (withPort s n fun p => { p with
        up := true, training := false, tries := 0, replays := 0, since := s.cycle }))) ∧
    ∀ peer : BitVec 10,
      (peer ∈ s.fab.handshakes → (∀ m ∈ s.items, m.status = .held → peerOf m.op.addr ≠ some peer.toNat) →
        exec (.resetHandshakeReply peer) s = .next { s with fab := { s.fab with
          performed := s.fab.performed.filter fun q => q.1.1.toNat != peer.toNat
          lines := s.fab.lines.filter fun e => e.1.1.toNat != peer.toNat
          held := s.fab.held.filter fun r => r.peer.toNat != peer.toNat
          handshakes := s.fab.handshakes.filter fun q => q != peer
          regs := { s.fab.regs with dead := s.fab.regs.dead &&& ~~~(BitVec.twoPow 1024 peer.toNat) } } }) ∧
      exec (.resetHandshakeTimeout peer) s = .next { s with fab := { s.fab with
        handshakes := s.fab.handshakes.filter fun q => q != peer } } ∧
      ((∀ m ∈ s.items, m.status = .held → peerOf m.op.addr ≠ some peer.toNat) → exec (.resetMessageReceived peer) s =
        .next { s with fab := { s.fab with
                         performed := s.fab.performed.filter fun q => q.1.1.toNat != peer.toNat
                         lines := s.fab.lines.filter fun e => e.1.1.toNat != peer.toNat
                         held := s.fab.held.filter fun r => r.peer.toNat != peer.toNat }
                       replies := s.replies ++ [peer.setWidth 64] })

namespace Sys2Proof.Say
open Sys2Proof.Machine

/-! ### The conservator (chapter 14) -/

/-- It is the turn of a store of the cube, whose next line has this key and is not damaged already (R372). -/
def Scrubs (s : State) (c : CubeId) (st : Fin 6) (key : Nat) : Prop :=
  (s.cube c).con.scrubRate ≠ 0 ∧ (s.cube c).hw.life ≠ .retired ∧ (s.cube c).con.scrubTurn = st ∧
    scrubKey s c st ((s.cube c).con.scrubPos.get st) = some key ∧ s.poison.contains (key / 64) = false ∧
    (st = 4 → edgeBad (s.cube c) (key / 64) = false)
/-- The turn passes to the next store, and the store goes on behind its line, or from its start. -/
def scrubbed (s : State) (c : CubeId) (st : Fin 6) (q : ConRegs) : ConRegs :=
  { q with
    scrubTurn := st + 1
    scrubPos := q.scrubPos.set st.val
      (if (scrubKey s c st (q.scrubPos.get st + 1)).isSome then q.scrubPos.get st + 1 else 0) st.isLt }
/-- The cube computes no more (R380). -/
def Fenced (u : State) (c : CubeId) : Prop := (u.cube c).hw.life = .memoryOnly ∧ (u.cube c).hw.caps = 0
/-- What an uncorrectable error on a line leaves: the mark, the record of its kind, and the end of its owner's strands, or of the
cube's computing (R374). -/
def Spoils (s u : State) (c : CubeId) (kind : Nat) (o : BitVec 12) (key : Nat) : Prop :=
  u.poison = (key / 64) :: s.poison ∧ u.mem = s.mem ∧
    (o ≠ 0xFFF → (u.cube c).con.ueLog = (s.cube c).con.ueLog ++ [record kind o key] ∧
      ∀ (d : CubeId) (i : ShelfId) (x : Ctx), (s.cube d).shelves.get i = some x →
        (x.mode = .task → x.sys.asn = o → x.task.ending = none →
          (u.cube d).shelves.get i = some { x with task := { x.task with ending := some 0x09 } }) ∧
        (x.sys.asn ≠ o → (u.cube d).shelves.get i = some x)) ∧
    (o = 0xFFF → (s.cube c).hw.life = .live → Fenced u c ∧
      (u.cube c).con.ueLog = (s.cube c).con.ueLog ++ [record kind o key, record 14 0 0])
/-- What the conservator knows of a row of its HBM: corrected errors, and whether one could not be corrected (R379). -/
def rowSeen (q : ConRegs) (row : Nat) : Nat × Bool :=
  match q.rowLog.find? fun e => e.1 == row with
  | some e => e.2
  | none => (0, false)
/-- gesso's context runs on the core of a cube (R151). -/
def inSecure (k : Cube) : Cube := { k with core := { k.sec with status := .running }, cur := .secure, stall := 0, quantumUsed := 0 }
/-- A test of a class is due and may start: no other runs, and an M or D class waits for empty queues (R378). -/
def TestDue (s : State) (c : CubeId) (cls : Nat) : Prop :=
  cls ∈ (s.cube c).con.testsDue ∧ (s.cube c).con.testing = none ∧ (s.cube c).debugHalted = false ∧
    (14 ≤ cls ∧ cls ≤ 23 → (s.cube c).used .cubeq = 0 ∧ (s.cube c).used .drainq = 0)

end Sys2Proof.Say

open Sys2Proof Sys2Proof.Machine Sys2Proof.Say

/-- R372 to R375, R378, R379: a line of one of the six stores that the scrubber finds good, correctable, or beyond repair, with its
record and, in HBM, the history of its row; a self-test that starts, with gesso in secure mode, and its outcomes. What a damaged copy
in the edge cache brings about, and that the outcome of a test comes with the event, are the model's reading (log entries 126, 68). -/
def Obligations.ScrubAndSelfTest : Prop :=
  ∀ (s : State) (c : CubeId), LogRoom s c →
    (∀ (st : Fin 6) (key n : Nat), Scrubs s c st key →
      let sc (k : BitVec 2) : Instr := .scrubLine c (BitVec.ofNat 3 st.val) k n
      let o := if st = 4 then (match (s.cube c).edge.find? fun e => e.line == key / 64 with | some e => e.tag | none => 0xFFF)
        else lineOwner s key
      let row := Config.hbmRow (key / 64 % 2 ^ 30)
      let old := rowSeen (s.cube c).con row
      ConBecomes s (sc 0) c (scrubbed s c st) ∧
      (st ≠ 5 → ConBecomes s (sc 1) c (fun q => { scrubbed s c st q with ceLog := q.ceLog ++ [record 1 o key] }) ∧
        ∃ u, exec (sc 2) s = .next u ∧ Spoils s u c 3 o key ∧ (st = 4 → edgeBad (u.cube c) (key / 64) = true)) ∧
      (st = 5 → o = ownerOf s.owners (key / 64) ∧
        ConBecomes s (sc 1) c (fun q => { scrubbed s c st q with
          ceLog := q.ceLog ++ [record 2 o key]
          rowLog := (row, old.1 + 1, old.2) :: q.rowLog.filter fun e => e.1 != row }) ∧
        ∃ u, exec (sc 2) s = .next u ∧ Spoils s u c 4 o key ∧
          (u.cube c).con.rowLog = (row, old.1, true) :: (s.cube c).con.rowLog.filter fun e => e.1 != row)) ∧
    ∀ cls : Fin 29,
      let begun (q : ConRegs) : ConRegs := { q with testing := some cls.val, testsDue := q.testsDue.filter fun n => n != cls.val }
      let passed (q : ConRegs) : ConRegs := { q with
        testing := none, fails := q.fails.filter fun f => f.1 != cls.val, ceLog := q.ceLog ++ [record 12 0 (cls.val * 2 ^ 40)] }
      (TestDue s c cls.val → (s.cube c).cur = .none → exec (.selfTestStart c cls) s = .next (s.modCube c fun k =>
        { inSecure k with con := begun k.con })) ∧
      (∀ i, TestDue s c cls.val → (s.cube c).cur = .shelf i → AtRest s (s.cube c).core.sid → (s.cube c).leave = .none →
        ∃ u, exec (.selfTestStart c cls) s = .next u ∧ (u.cube c).cur = .secure ∧
          (u.cube c).core = { (s.cube c).sec with status := .running } ∧ (u.cube c).con = begun (s.cube c).con ∧ u.mem = s.mem ∧
          ((s.cube c).core.wait ≠ .parked → (u.cube c).shelves.get i = some (saved (s.cube c).core .ready) ∧
            (u.cube c).ready = i :: (s.cube c).ready) ∧
          ((s.cube c).core.wait = .parked → (u.cube c).shelves.get i = some { landDue (s.cube c).core with status := .parked } ∧
            (u.cube c).ready = (s.cube c).ready)) ∧
      ((s.cube c).con.testing = some cls.val →
        ((s.cube c).cur ≠ .secure → ConBecomes s (.selfTestResult c cls false) c passed) ∧
        (∀ j y, (s.cube c).cur = .secure → (s.cube c).hw.life = .live → (s.cube c).patches = [] → nextReady (s.cube c) = some j →
          (s.cube c).shelves.get j = some y → ∃ u, exec (.selfTestResult c cls false) s = .next u ∧ (u.cube c).cur = .shelf j ∧
            (u.cube c).core = { y with status := .running } ∧ (u.cube c).con = passed (s.cube c).con ∧ u.mem = s.mem) ∧
        ∃ u, exec (.selfTestResult c cls true) s = .next u ∧ (u.cube c).con.testing = none ∧ u.mem = s.mem ∧
          (cls ≠ 0 → cls ≠ 5 → cls ≠ 24 → (u.cube c).hw = { (s.cube c).hw with
              caps := (s.cube c).hw.caps &&& ~~~(BitVec.twoPow 29 cls.val) } ∧
            (u.cube c).con.ueLog = (s.cube c).con.ueLog ++ [record 11 0 (cls.val * 2 ^ 40)]) ∧
          (cls = 0 ∨ cls = 5 ∨ cls = 24 → (s.cube c).hw.life = .live → Fenced u c ∧
            (u.cube c).con.ueLog = (s.cube c).con.ueLog ++ [record 11 0 (cls.val * 2 ^ 40), record 14 0 0]))
/-- R380, R381: the commands of CON_RETIRE, each refused in a state that does not allow it, and the copy of a granule, which goes on to
where a destination that has itself been copied from an evacuating stack is written as well. That an accepted
command clears REFUSED, and that a plan which cannot be read is refused, is the model's reading (log entry 69). -/
def Obligations.Retirement : Prop :=
  ∀ (s : State) (c : CubeId), LogRoom s c →
    let Refused (i : Instr) : Prop := ConBecomes s i c fun q => { q with refused := true }
    let Turns (i : Instr) (l : CubeLife) (f : ConRegs → ConRegs) : Prop := exec i s = .next (s.modCube c fun k => { k with
      hw := { k.hw with life := l }, con := { f k.con with refused := false, ueLog := k.con.ueLog ++ [record 14 0 0] } })
    ((s.cube c).hw.life ≠ .live → Refused (.conRetireFence c)) ∧
    ((s.cube c).hw.life = .live → ∃ u, exec (.conRetireFence c) s = .next u ∧ Fenced u c ∧ (u.cube c).con.refused = false ∧
      (u.cube c).con.ueLog = (s.cube c).con.ueLog ++ [record 14 0 0] ∧ u.mem = s.mem) ∧
    ((s.cube c).hw.life ≠ .memoryOnly ∨ planGood s c = false → Quiet s → Refused (.conRetireEvacuate c)) ∧
    ((s.cube c).hw.life = .memoryOnly → planGood s c = true → Quiet s → ∃ todo,
      Turns (.conRetireEvacuate c) .evacuating (fun q => { q with evacTodo := todo, evacMap := [] }) ∧
      ∀ g d, (g, d) ∈ todo ↔ g < 64 ∧ (planWord s c g).getLsbD 63 = true ∧ d = (planWord s c g).toNat % 2 ^ 48 / 2 ^ 30 * 2 ^ 30) ∧
    ((s.cube c).hw.life ≠ .evacuating ∨ (s.cube c).con.evacTodo ≠ [] → Refused (.conRetireFinish c)) ∧
    ((s.cube c).hw.life = .evacuating → (s.cube c).con.evacTodo = [] → Turns (.conRetireFinish c) .retired id) ∧
    ∀ g d rest, (s.cube c).hw.life = .evacuating → (s.cube c).con.evacTodo = (g, d) :: rest → Quiet s → Memory.wf s.mem →
      (s.secu.world.getLsbD 5 = true ∨ ∀ a, regionSecure s a = false) →
      let src := c.val * 2 ^ 36 + g * 2 ^ 30
      let apart (x y : Nat) : Prop := x + 2 ^ 30 ≤ y ∨ y + 2 ^ 30 ≤ x
      let ds := d :: chainOf 8 s d
      (∀ x ∈ ds, apart src x) → ds.Pairwise apart → ∃ u, exec (.evacGranuleCopied c) s = .next u ∧
        (u.cube c).con = { (s.cube c).con with evacTodo := rest, evacMap := (s.cube c).con.evacMap ++ [(g, d)] } ∧
        (∀ x ∈ ds, ∀ j, j < 2 ^ 30 → memByte u.mem (x + j) = memByte s.mem (src + j)) ∧
        ∀ a, (∀ x ∈ ds, a < x ∨ x + 2 ^ 30 ≤ a) → memByte u.mem a = memByte s.mem a

namespace Sys2Proof.Say
open Sys2Proof.Machine

/-! ### Power and temperature (chapter 15) -/

/-- The event completes, memory stays as it is, and the power state of a layer goes from y to z y. -/
def LayerBecomes (s : State) (i : Instr) (c : CubeId) (l : Fin 8) (z : LayerPwr → LayerPwr) : Prop :=
  ∃ u, exec i s = .next u ∧ (u.cube c).pwr.layers.get l = z ((s.cube c).pwr.layers.get l) ∧ u.mem = s.mem ∧
    ∀ d m, (d, m) ≠ (c, l) → (u.cube d).pwr.layers.get m = (s.cube d).pwr.layers.get m
def stepUp (x : BitVec 3) : BitVec 3 := if x = 7 then 7 else x + 1
def stepDown (x : BitVec 3) : BitVec 3 := if x = 0 then 0 else x - 1
/-- The 16 bytes of a broadcast (R391). -/
def castBytes (b : Broadcast) : List Byte :=
  [0x01, 0x0C, (if b.active then 1 else 0), b.rank.setWidth 8, b.frac.setWidth 8, 0, 0, 0] ++ bytesLE 4 b.seq.toNat ++ [0, 0, 0, 0]
/-- No cap but the groups' own is in force. -/
def OwnCapsOnly (s : State) : Prop :=
  s.power.pkgCap = 0 ∧ s.power.hostCap = 0 ∧ s.power.next = none ∧ s.power.bcast.active = false

end Sys2Proof.Say

open Sys2Proof Sys2Proof.Machine Sys2Proof.Say

/-- R386 to R388, R390: the current limiter's periods, gating and waking, and the temperatures' steps. How a waking layer is fitted
into the budget is the model's reading of R387 (log entry 70). -/
def Obligations.LayerEvents : Prop :=
  ∀ (s : State) (c : CubeId) (l : Fin 8),
    let y := (s.cube c).pwr.layers.get l
    let q := (s.cube c).pwr
    (∀ es : List Nat, ∃ u, exec (.limiterPeriod c es) s = .next u ∧ u.mem = s.mem ∧
      let n := ((List.range 8).filter fun m => !((s.cube c).layerPwr m).gated).length
      let e := es.getD l.val 0
      let budget := 9 * q.cubeAmps.toNat
      (y.gated = false → budget < e * 10 * n →
        (u.cube c).pwr.layers.get l = { y with lim := stepUp y.lim, low := 0, estimate := e }) ∧
      (y.gated = false → e * 10 * n ≤ budget → 3 * budget ≤ e * 40 * n →
        (u.cube c).pwr.layers.get l = { y with low := 0, estimate := e }) ∧
      (y.gated = false → e * 10 * n ≤ budget → e * 40 * n < 3 * budget → (u.cube c).pwr.layers.get l =
        if y.low < 4 then { y with low := y.low + 1, estimate := e } else { y with lim := stepDown y.lim, low := 0, estimate := e }) ∧
      (y.gated = true → y.pend = false → (u.cube c).pwr.layers.get l = y) ∧
      (y.gated = true → y.pend = true → mayWake (s.cube c) es l = true → (∀ m, m < l.val → ((s.cube c).layerPwr m).pend = false) →
        (u.cube c).pwr.layers.get l = { y with gated := false, pend := false, ramp := true, idle := 0 })) ∧
    (q.gateIdle ≠ 0 → (planesBusy (s.cube c)).getLsbD l.val = false → y.gated = false → q.gateIdle.toNat ≤ y.idle →
      LayerBecomes s (.layerGate c l) c l fun y => { y with gated := true, pend := false, ramp := false, idle := 0, estimate := 0 }) ∧
    (q.gateIdle = 0 ∨ (planesBusy (s.cube c)).getLsbD l.val = true ∨ y.idle < q.gateIdle.toNat →
      exec (.layerGate c l) s = .next s) ∧
    LayerBecomes s (.layerRampDone c l) c l (fun y => { y with ramp := false }) ∧
    (∀ ts : Temps, ∃ u, exec (.thermalSample c ts) s = .next u ∧ u.mem = s.mem ∧
      let own := ts.layers.getD l.val []
      let rest := ts.inactive ++ ts.base
      let z := (u.cube c).pwr.layers.get l
      let t := z.temp
      (∀ x ∈ own, x.toNat ≤ t.toNat) ∧ (own ≠ [] → t ∈ own) ∧ z.hot = (if q.tThrot.toNat < t.toNat then y.hot + 1 else 0) ∧
      z.cool = (if t.toNat < q.tWarn.toNat then y.cool + 1 else 0) ∧
      (q.tTrip.toNat ≤ t.toNat → z.held = true ∧ z.therm = 7) ∧ (t.toNat < q.tTrip.toNat → z.therm = y.therm) ∧
      ((∃ x ∈ rest, q.tTrip.toNat ≤ x.toNat) → z.held = true) ∧
      (q.tThrot.toNat ≤ q.tTrip.toNat → t.toNat < q.tThrot.toNat → (∀ x ∈ rest, x.toNat < q.tThrot.toNat) → z.held = false)) ∧
    (50 ≤ y.hot → LayerBecomes s (.thermalStepRaise c l) c l fun y => { y with therm := stepUp y.therm, hot := 0 }) ∧
    (y.hot < 50 → exec (.thermalStepRaise c l) s = .next s) ∧
    (200 ≤ y.cool → LayerBecomes s (.thermalStepLower c l) c l fun y => { y with therm := stepDown y.therm, cool := 0 }) ∧
    (y.cool < 200 → exec (.thermalStepLower c l) s = .next s) ∧
    (q.migTime ≠ 0 → q.migTime.toNat ≤ y.high → y.migreq = false →
      LayerBecomes s (.migrationRequest c l) c l fun y => { y with migreq := true }) ∧
    (q.migTime = 0 ∨ y.high < q.migTime.toNat ∨ y.migreq = true → exec (.migrationRequest c l) s = .next s)
/-- R383, R388, R391 to R393, R401: cap broadcasts, the governor's periods for a partition's own cap, which ten measurements below
15/16 of it let go down a step, the rail, and a bridge die too hot. The number of the rail's interrupt, and that PWR_TTRIP of cube 0
holds for the bridge dies, are the model's choice (log entries 73 and 123). -/
def Obligations.PackagePower : Prop :=
  ∀ s : State,
    (∀ b : Broadcast, s.secu.session = true → s.power.next = none → s.power.bcast.seq.toNat < b.seq.toNat →
      exec (.capBroadcast (castBytes b)) s = .next { s with power := { s.power with next := some b } }) ∧
    (∀ b : Broadcast, s.secu.session = false ∨ b.seq.toNat ≤ s.power.bcast.seq.toNat →
      exec (.capBroadcast (castBytes b)) s = .next s) ∧
    (∀ bytes, bytes.length ≠ 16 → exec (.capBroadcast bytes) s = .next s) ∧
    (∀ ps, ∃ u, exec (.governorPeriod ps) s = .next u ∧ u.mem = s.mem ∧ u.power.next = none ∧
      u.power.bcast = s.power.next.getD s.power.bcast ∧
      (OwnCapsOnly s → ∀ n : Fin 9,
        let g := s.power.groups.get n
        let z := u.power.groups.get n
        let p := ps.getD n.val 0
        let h := (p, ps.getD 9 ((ps.take 9).foldl (· + ·) 0)) :: g.hist.take 9
        let low := h.length = 10 ∧ ∀ x ∈ h, 16 * x.1 < 15 * g.cap.toNat
        g.cap ≠ 0 → g.lastCap = 128 * g.cap.toNat + 1 → p < 2 ^ 16 →
        z.power = BitVec.ofNat 16 p ∧
        (g.cap.toNat < p → z.step = stepUp g.step ∧ z.byPart = true ∧ z.hist = []) ∧
        (p ≤ g.cap.toNat → low → z.step = stepDown g.step ∧ z.hist = []) ∧
        (p ≤ g.cap.toNat → ¬ low → z.step = g.step ∧ z.hist = h))) ∧
    (∀ mv, (1350 ≤ mv → mv ≤ 1650 → exec (.railOutOfRange mv) s = .next { s with power := { s.power with mv := BitVec.ofNat 16 mv } }) ∧
      (mv < 1350 ∨ 1650 < mv → exec (.railOutOfRange mv) s = .next { s with
        power := { s.power with mv := BitVec.ofNat 16 mv, range := true }, irqs := s.irqs ++ [1] })) ∧
    (s.power.mv.toNat < 1250 ∨ 1750 < s.power.mv.toNat → exec .railPowerDown s =
      .next { s with secu := { s.secu with stage := 15, fail := 4, powered := false } }) ∧
    (1250 ≤ s.power.mv.toNat → s.power.mv.toNat ≤ 1750 → exec .railPowerDown s = .next s) ∧
    ∀ b : BridgeHeat, let trip := (s.cube 0).pwr.tTrip.toNat
      (trip ≤ b.temp.toNat → exec (.bridgeTripPowerDown b) s =
        .next { s with secu := { s.secu with stage := 15, fail := 4, powered := false } }) ∧
      (b.temp.toNat < trip → exec (.bridgeTripPowerDown b) s = .next s)

namespace Sys2Proof.Say
open Sys2Proof.Machine

/-! ### Boot, the host and security (chapter 16) -/

/-- SEC_BOOT goes to stage FAILED with a code. -/
def BootFails (s : State) (i : Instr) (code : BitVec 8) : Prop :=
  exec i s = .next { s with secu := { s.secu with stage := 15, fail := code } }
/-- The classes that every computing cube has: S.INT, S.CNT and C.CPY. -/
def Essential (r : BootResult) : Prop := r.classes.getLsbD 0 = true ∧ r.classes.getLsbD 5 = true ∧ r.classes.getLsbD 24 = true
/-- The die at position n of the nine positions, counted from 1, failed in the tests, by itself or by two failed banks in one face. -/
def DieFails (r : BootResult) (n : Nat) : Prop :=
  n ∈ r.positions ∨ ∃ x ∈ r.banks, ∃ y ∈ r.banks, x.pos = n ∧ y.pos = n ∧ x.faceB = y.faceB ∧ x.bank ≠ y.bank
/-- The boot ROM takes an image of gesso: its two signatures verify, and it is not older than the fuses allow. -/
def Accepted (i : FirmwareImage) : Prop := i.rsa = true ∧ i.slh = true ∧ Config.fusedSvn.toNat ≤ i.version.toNat
/-- Gesso runs from an image. -/
def Loaded (u : State) (i : FirmwareImage) : Prop := u.secu.stage = 1 ∧ u.secu.svn = i.version ∧ u.secu.gesso = i.digest
/-- The current limit of a cube is bounded by the via ratings of the dies below its top active layer (R385). -/
def AmpsOf (a : BitVec 16) (vias : List (BitVec 16)) : Prop :=
  a.toNat ≤ 240 ∧ (∀ v ∈ vias, a.toNat ≤ v.toNat) ∧ (a = 240 ∨ a ∈ vias)
/-- The physical position of logical layer l when position f is inactive (R13). -/
def placeOf (f l : Nat) : Nat := if l + 1 < f then l + 1 else l + 2
/-- A context has the code bounds and the handler's entry that firmware gave it (R134, R146). -/
def Bounded (x : Ctx) (b : CodeBounds) (handler : Word) : Prop :=
  x.sys.codeLo = BitVec.ofNat 52 (b.lo.toNat / 16 * 16) ∧ x.sys.codeHi = BitVec.ofNat 52 (b.hi.toNat / 16 * 16) ∧
    x.sys.tvec = BitVec.ofNat 52 (handler.toNat / 16 * 16)
/-- The event puts bytes into memory, and nothing is sent back. -/
def Puts (s : State) (i : Instr) (cells : List (Nat × Byte)) : Prop :=
  ∃ u, exec i s = .next u ∧ Stored s u cells ∧ u.replies = s.replies ∧ u.items = s.items ∧ u.reads = s.reads
/-- A request of the host within BAR2 that the boot stage, the region table and the map let through (R399, R403). -/
def HostMay (s : State) (off n : Nat) (need : Need) : Prop :=
  0 < n ∧ off + n ≤ 0x200_0000_0000 ∧ s.secu.stage = 4 ∧ ∀ k, k < n → regionNoHost s (off + k) = false ∧
    checkTarget s hostAgent need false (directTarget (off + k) false 0xFFF) = none
/-- The event changes nothing and gives back some words. -/
def Returns (s : State) (i : Instr) (ws : List Word) : Prop := exec i s = .next { s with replies := s.replies ++ ws }
/-- The request is aborted: nothing of it is performed (R403). -/
def Aborts (s : State) (i : Instr) : Prop := Returns s i [BitVec.allOnes 64]
/-- The port has a decoder of this number. -/
def InPort (p : DecoderPlace) : Prop := p.index < decoderCount

end Sys2Proof.Say

open Sys2Proof Sys2Proof.Machine Sys2Proof.Say

/-- R13, R14, R379, R380, R385, R400 to R402: package reset, with gesso from the first of its two slots that is accepted; gesso's boot
tests, with their maps, current limits and failures; and the start of the studio firmware. That missing test results fail the boot, and
what a package reset keeps, is the model's choice (log entries 79 and 78). -/
def Obligations.BootEvents : Prop :=
  ∀ s : State,
    (∀ f : FlashSlots, ∃ u, exec (.packageReset f) s = .next u ∧
      (Accepted f.a → Loaded u f.a) ∧ (¬ Accepted f.a → Accepted f.b → Loaded u f.b) ∧
      (¬ Accepted f.a → ¬ Accepted f.b → u.secu.stage = 15 ∧ u.secu.fail = 1) ∧
      (∀ c : CubeId, u.cube c = { State.reset.cube c with con := { (State.reset.cube c).con with
        rowLog := (s.cube c).con.rowLog, repaired := (s.cube c).con.repaired } }) ∧
      u.atl = State.reset.atl ∧ u.fab = State.reset.fab ∧ u.power = State.reset.power ∧
      u.items = [] ∧ u.reads = [] ∧ u.poison = [] ∧ u.agenda = s.agenda ∧
      (Memory.wf s.mem → ∀ a, memByte u.mem a = if 0x300_0000_0000 ≤ a then memByte s.mem a else 0)) ∧
    (s.secu.stage = 1 → exec (.gessoBootTests .begin) s = .next { s with secu := { s.secu with stage := 2 } }) ∧
    (s.secu.stage ≠ 1 → exec (.gessoBootTests .begin) s = .next s) ∧
    (∀ rs : List BootResult,
      let e : Instr := .gessoBootTests (.done rs)
      (s.secu.stage ≠ 2 → exec e s = .next s) ∧
      (s.secu.stage = 2 → rs.length ≠ 8 → BootFails s e 2) ∧
      (s.secu.stage = 2 → rs.length = 8 → ∃ u, exec e s = .next u ∧ u.secu = { s.secu with stage := 3 } ∧
        u.mem = s.mem ∧ ∀ c : CubeId, (u.cube c).con.rowLog = [] ∧ ((s.cube c).hw.life = .live →
          let r := rs.getD c.val default
          let hw := (u.cube c).hw
          (Essential r → (∀ n, 1 ≤ n → n ≤ 9 → ¬ DieFails r n) → hw.life = .live ∧ hw.caps = r.classes ∧
            hw.lmap = 0x87654321 ∧ (u.cube c).eng.skew = 0 ∧ AmpsOf (u.cube c).pwr.cubeAmps (r.vias.take 8)) ∧
          (∀ f, Essential r → 1 ≤ f → f ≤ 9 → DieFails r f → (∀ n, 1 ≤ n → n ≤ 9 → n ≠ f → ¬ DieFails r n) →
            hw.life = .live ∧ hw.caps = r.classes ∧ AmpsOf (u.cube c).pwr.cubeAmps (r.vias.take (placeOf f 7)) ∧
            ∀ l, l < 8 → hw.lmap.toNat / 16 ^ l % 16 = placeOf f l ∧
              (u.cube c).eng.skew.toNat / 16 ^ l % 16 = if f < placeOf f l then 2 else 0) ∧
          (¬ Essential r ∨ (∃ n m, 1 ≤ n ∧ n < m ∧ m ≤ 9 ∧ DieFails r n ∧ DieFails r m) → Fenced u c)))) ∧
    ∀ (i : FirmwareImage) rt sec hs,
      let e : Instr := .studioFirmwareStart i rt sec hs
      (s.secu.stage ≠ 3 → exec e s = .next s) ∧
      (s.secu.stage = 3 → (i.rsa = false ∨ i.slh = false → BootFails s e 3) ∧
        (i.rsa = true → i.slh = true → ∃ u, exec e s = .next u ∧ u.secu = { s.secu with stage := 4 } ∧ u.mem = s.mem ∧
          u.atl.firmware = some i.digest ∧
          ∀ c : CubeId, Bounded (u.cube c).sec sec hs.sec ∧ (u.cube c).sec.regs = (s.cube c).sec.regs ∧
            ((s.cube c).hw.life = .live → (u.cube c).cur = .runtime ∧ (u.cube c).core.mode = (s.cube c).rt.mode ∧
              (u.cube c).core.regs = (s.cube c).rt.regs ∧ (u.cube c).core.pc = (u.cube c).core.sys.codeLo ∧
              Bounded (u.cube c).core rt hs.rt)))
/-- R24, R398, R399, R403 to R405, R409: accesses and counter operations of the host through BAR2, its reads of BAR0, decoders, the
link, attestation, sessions, and debug halts. The word of a refused request and the layout of a decoder's registers are not the
spec's (log entries 128 and 118). -/
def Sys2Proof.Say.HostEvents : Prop :=
  ∀ s : State,
    (∀ off n v bs, let does (op : HostOp) : Instr := .hostBar2Access op off n v
      (¬ HostMay s off n .read → Aborts s (does .read)) ∧
      (¬ HostMay s off bs.length .write → Aborts s (does (.write bs))) ∧
      (n ≠ 8 ∨ off % 8 ≠ 0 ∨ ¬ HostMay s off n .both → Aborts s (does .add) ∧ Aborts s (does .max)) ∧
      (∀ m, Quiet s → Clean s off m → (∀ k, k < m → (keySpace s ((off + k) / 8 * 8)).isWindow = false) →
        Plain s ((List.range m).map (off + ·)) →
        (m = n → HostMay s off n .read → Returns s (does .read)
          ((List.range ((n + 7) / 8)).map fun j => BitVec.ofNat 64 (memNat s.mem (off + 8 * j) (Nat.min 8 (n - 8 * j))))) ∧
        (m = bs.length → HostMay s off bs.length .write → Puts s (does (.write bs)) (cellsAt off bs)) ∧
        (m = n → n = 8 → off % 8 = 0 → HostMay s off n .both →
          Puts s (does .add) (cellsAt off (bytesLE 8 (counterSum (memWord s.mem off) v).toNat)) ∧
          Puts s (does .max) (cellsAt off (bytesLE 8 (counterMax (memWord s.mem off) v).toNat)))) ∧
      (n = 8 → off = 0x1000 → Returns s (does .bar0)
        [BitVec.ofNat 64 (s.secu.svn.toNat * 2 ^ 16 + s.secu.fail.toNat * 2 ^ 8 + s.secu.stage.toNat)]) ∧
      (∀ c : CubeId, n = 8 → off = 0x2000 + 8 * c.val → Returns s (does .bar0) [if (s.cube c).debugHalted then 0x100 else 0]) ∧
      ((off < 0x1000 ∨ 0x1008 ≤ off ∧ off < 0x2000 ∨ 0x2040 ≤ off) → Aborts s (does .bar0))) ∧
    (∀ (p : DecoderPlace) (base len : Nat) (il : Interleave), InPort p → Memory.wf s.mem → base < 2 ^ 64 → len < 2 ^ 64 →
      let b := 0x400_0000_0000 + base / 2 ^ 28 * 2 ^ 28
      let n := len / 2 ^ 28 * 2 ^ 28
      let hdm := s.secu.hdm ++
        (if (∀ h ∈ s.secu.hdm, h.place ≠ p) ∧ interleaveOk il = true then [⟨p, b, if b + n ≤ 0x800_0000_0000 then n else 0, il⟩] else [])
      ∃ u, exec (.hdmDecoderCommit p base len il) s = .next u ∧ u.secu = { s.secu with hdm := hdm }) ∧
    (∀ up, exec (.hostLinkDown up) s = .next { s with secu := { s.secu with hostLink0 := up } }) ∧
    (∀ nonce, let ms := s.secu.gesso :: s.atl.firmware.toList ++ [Config.sha384 (s.cubes.toList.map fun k => k.hw.lmap.setWidth 64)]
      let key := Config.attestationKey Config.deviceIdentity ms
      let ws := ms.flatMap (fun m => (List.range 6).map fun j => m.extractLsb' (64 * j) 64) ++ [nonce, s.secu.svn.setWidth 64]
      Returns s (.attestationRequest nonce) (ws ++ Config.ecdsaP384 key ws ++ Config.slhDsaSha2128s key ws)) ∧
    (∀ ok, exec (.jireskoSessionSetup ok) s = .next { s with secu := { s.secu with session := s.secu.session || ok } }) ∧
    ∀ c : CubeId,
      (Config.debugEnable = false → exec (.secDbgHalt c) s = .next s ∧ exec (.secDbgResume c) s = .next s) ∧
      (Config.debugEnable = true →
        (∀ i, (s.cube c).cur = .shelf i → (s.cube c).leave = .none → awaitsValue s (s.cube c).core = false → ∃ u,
          exec (.secDbgHalt c) s = .next u ∧ u.mem = s.mem ∧ u.items = s.items ∧ (u.cube c).debugHalted = true ∧
          (u.cube c).debugHaltPending = false ∧ (u.cube c).core.regs = (landDue (s.cube c).core).regs ∧ (u.cube c).core.pc = (s.cube c).core.pc ∧ (u.cube c).core.wait ≠ .parked ∧ (∀ m ∈ (u.cube c).monitors, m.shelf ≠ i) ∧
          ∀ r ∈ u.reads, r.sid = (s.cube c).core.sid → r.dest ≠ .wait) ∧
        ((∀ i, (s.cube c).cur ≠ .shelf i) ∨ (s.cube c).leave ≠ .none ∨ awaitsValue s (s.cube c).core = true →
          exec (.secDbgHalt c) s = .next (s.modCube c fun k => { k with debugHaltPending := true })) ∧
        ((s.cube c).debugHalted = false → exec (.secDbgResume c) s = .next s) ∧
        ((s.cube c).debugHalted = true → (s.cube c).patches = [] →
          exec (.secDbgResume c) s = .next (s.modCube c fun k => { k with debugHalted := false })))
/-- R402, R403, R406: a checkpoint is started with its stacks and destination, and ends with DONE when every destination is claimed and
no secure region bars the bridge engines, each stack's bytes standing there; else with ERR. That the bytes are those at the end of the
copy is the model's choice (log entry 82). -/
def Sys2Proof.Say.Checkpoints : Prop :=
  ∀ s : State,
    (∀ v : Word, s.fab.regs.ckptCtl.getLsbD 1 = false → ∃ u, exec (.ckptGo v) s = .next u ∧
      u.fab.ckpt = some (v.extractLsb' 16 8, s.fab.regs.ckptDst.toNat % 2 ^ 48 / 2 ^ 36 * 2 ^ 36) ∧
      u.fab.regs.ckptCtl = (v &&& 0xFF0000) ||| (s.fab.regs.ckptCtl &&& 0xC &&& ~~~v) ||| 2 ∧ u.mem = s.mem) ∧
    (∀ v : Word, s.fab.regs.ckptCtl.getLsbD 1 = true → ∃ u, exec (.ckptGo v) s = .next u ∧ u.fab.ckpt = s.fab.ckpt ∧
      u.fab.regs.ckptCtl.getLsbD 1 = true ∧ u.mem = s.mem) ∧
    (s.fab.ckpt = none → ∀ ok, exec (.ckptComplete ok) s = .next s) ∧
    ∀ (k : Fin 8) (dst : Nat), s.fab.ckpt = some (BitVec.twoPow 8 k.val, dst) → Memory.wf s.mem → 0x400_0000_0000 ≤ dst →
      let at_ := dst + k.val * 2 ^ 36
      let Claimed : Prop := ∀ a, at_ ≤ a → a < at_ + 2 ^ 36 → ∃ h ∈ s.secu.hdm, h.base ≤ a ∧ a < h.base + h.len
      let Barred : Prop := s.secu.world.getLsbD 6 = false ∧ ∃ n, n < 2 ^ 15 ∧
        (regionSecure s (k.val * 2 ^ 36 + n * 2 ^ 21) = true ∨ regionSecure s (at_ + n * 2 ^ 21) = true)
      let Copies : Prop := Claimed ∧ (s.cube k).hw.life ≠ .retired ∧ ¬ Barred
      let Outside (u : State) : Prop := ∀ a, a < at_ ∨ at_ + 2 ^ 36 ≤ a → memByte u.mem a = memByte s.mem a
      (Copies → ∃ u, exec (.ckptComplete true) s = .next u ∧ u.fab.ckpt = none ∧
        u.fab.regs.ckptCtl = (s.fab.regs.ckptCtl &&& ~~~2) ||| 4 ∧ Outside u ∧
        ∀ j, j < 2 ^ 36 → memByte u.mem (at_ + j) = memByte s.mem (k.val * 2 ^ 36 + j)) ∧
      (∀ ok, ok = false ∨ ¬ Copies → ∃ u, exec (.ckptComplete ok) s = .next u ∧ u.fab.ckpt = none ∧
        u.fab.regs.ckptCtl = (s.fab.regs.ckptCtl &&& ~~~2) ||| 8 ∧ Outside u)

namespace Sys2Proof.Say
open Sys2Proof.Machine

/-! ### Bundles and steps -/

/-- Cube c is to issue: it is its turn, its context runs, no strand of higher priority is ready, it waits for nothing, has no trap or fence pending and is not to end, its
pc lies between its code limits, and the bundle there is at hand; the cube computes, and no self-test is due there. -/
def Issues (s : State) (c : CubeId) (b : Bundle) : Prop :=
  s.agenda = [] ∧ s.secu.powered = true ∧ s.winq = [] ∧ s.turn.val = c.val ∧ (s.cube c).leave = .none ∧
    (s.cube c).hw.life = .live ∧ (s.cube c).con.testing = none ∧ (s.cube c).con.testsDue = [] ∧ (s.cube c).cur ≠ .none ∧ (s.cube c).stopped = false ∧ (s.cube c).debugHalted = false ∧ (s.cube c).debugHaltPending = false ∧
    (s.cube c).core.task.ending = none ∧ (s.cube c).core.pending = [] ∧ (s.cube c).core.wait = .none ∧
    preempted (s.cube c) = false ∧ (s.cube c).core.fences = [] ∧ (s.cube c).core.qfences = [] ∧ (s.cube c).core.results = [] ∧
    (s.cube c).core.sys.codeLo.toNat ≤ (s.cube c).core.pc.toNat ∧ (s.cube c).core.pc.toNat ≤ (s.cube c).core.sys.codeHi.toNat ∧
    fetchAt s c = .hit b
/-- The state in which the instruction of slot 0 executes: the translations that its accesses use have come into its port's TLB,
and the bundle has begun and has its shared noise word (R76, R103). -/
noncomputable def opened (s : State) (c : CubeId) (b : Bundle) : State :=
  let ss := slotsOf b
  let on := ss.filter (Slot.executes (s.cube c).core)
  let s := on.foldl (fillSlot c ss) s
  let s := s.modCube c fun k => k.modBundle fun _ => { BundleState.reset with noiseW := sharedWord k.core (on.filterMap Slot.ins), first := some s.nextId }
  match ss.head? with
  | some sl => atSlot s ss sl
  | none => s
/-- The bundle holds an instruction in slot 0 and three `nop`s. -/
def Alone (b : Bundle) (i : Instr) : Prop :=
  hasHeader b = false ∧ decodeSlot (bundleWord b 0) 0 = some i ∧ ∀ n, 1 ≤ n → n ≤ 3 → bundleWord b n = 1
/-- The slot of an instruction is not guarded off. -/
def Executes (s : State) (c : CubeId) (i : Instr) : Prop := ∀ g, (instrUse i).g = some g → (s.cube c).core.guard g = true
/-- A `cwait`, whose bundle issues twice (R186). -/
def isCwait : Instr → Prop
  | .cwait .. => True
  | _ => False

end Sys2Proof.Say

open Sys2Proof Sys2Proof.Machine Sys2Proof.Say

/-- R133, R142, R143, log entries 3 and 4: one step. An event at the head of the agenda happens, launch packets of bridge 0 before those of bridge 1 (R225); without power nothing happens but a package reset (R383); the
bundle that is to issue does. One that nothing holds or traps commits, and with a single instruction beside `nop`s it is the
meaning of the instruction that its word decodes to, between the beginning and the end of the bundle. -/
def Obligations.StepRunsBundle : Prop :=
  ∀ s : State,
    (∀ i rest, s.agenda = i :: rest → (packetBridge i ≠ some true ∨ ∀ j ∈ rest, packetBridge j ≠ some false) →
      (i.isSlot = false → s.secu.powered = true ∨ (∃ f, i = .packageReset f) → step s = exec i { s with agenda := rest }) ∧
      (i.isSlot = true ∨ s.secu.powered = false ∧ (∀ f, i ≠ .packageReset f) → step s = .next { s with agenda := rest })) ∧
    (∀ i rest j, s.agenda = i :: rest → packetBridge i = some true → (rest.find? fun j => packetBridge j == some false) = some j →
      step s = if s.secu.powered then exec j { s with agenda := i :: rest.erase j } else .next { s with agenda := i :: rest.erase j }) ∧
    (s.agenda = [] → s.secu.powered = false → step s = .fault .packageOff) ∧
    ∀ (c : CubeId) (b : Bundle), Issues s c b →
      step s = .next { issueBundle s c b with turn := s.turn + 1 } ∧
      ∀ i, Alone b i → Executes s c i → ¬ isCwait i → verdict s c b (slotsOf b) = .go →
        ∀ t, exec i (opened s c b) = .next t → (t.cube c).cur = (s.cube c).cur → (t.cube c).stopped = false →
          (t.cube c).debugHalted = false → (t.cube c).core.sid = (s.cube c).core.sid → t.turn = s.turn →
          ∃ n v cls chk port, step s = .next { endBundle (t.modCube c fun k => { k with
            bundle := { k.bundle with slot := n, vstUnit := v, cls := cls, chk := chk, port := port } }) c with turn := s.turn + 1 }
/-- R43: the slot value 0 is illegal everywhere and a bundle of zeros traps as such; `nop` is the one word 1, without extension. -/
def Obligations.ZeroAndNop : Prop :=
  (∀ x, decodeSlot 0 x = none) ∧ decodeSlot 1 0 = some .nop ∧ (∀ x, x ≠ 0 → decodeSlot 1 x = none) ∧
  (∀ (w : BitVec 32) (x : BitVec 8), w.extractLsb' 26 6 = 0 → w.extractLsb' 0 4 = 1 → w ≠ 1 → decodeSlot w x = none) ∧
  ∀ (s : State) (c : CubeId) (b : Bundle),
    (b = 0 → issueBundle s c b = takeTrap s c ⟨0x02, 0, 0, 0, 0xF, 0⟩) ∧
    (b ≠ 0 → ∀ n, n < 4 → bundleWord b n = 0 → ∃ t : Trap, t.cause = 0x01 ∧ t.slots.getLsbD n = true ∧
      issueBundle s c b = takeTrap s c t)
/-- R171: the immediate moves: their encodings with and without an extension byte, their results with latency 1 and in b1, the
register that `movhi` reads, and the rule's two words. -/
def Obligations.MoveImmediates : Prop :=
  (∀ (s : State) (g : Guard) (m : Mods) (d : SReg) (i : BitVec 23), s.ctx.guard g = true →
    Gives s (.movi g m d i) (lat 1 m.tv) (toScalar 1 m d (i.signExtend 64)) ∧
    Gives s (.movhi g m d i) (lat 1 m.tv) (toScalar 1 m d ((s.ctx.s d <<< 16) ||| i.setWidth 64))) ∧
  (∀ (g : BitVec 4) (d : SReg) (i : BitVec 16) (x : BitVec 7),
    let guard : Guard := ⟨g.getLsbD 3, g.setWidth 3⟩
    let plain : Mods := ⟨false, false⟩
    let word (major : BitVec 6) : BitVec 32 := major ++ g ++ d ++ i
    decodeSlot (word 0x07) 0 = some (.movi guard plain d (i.signExtend 23)) ∧
    decodeSlot (word 0x08) 0 = some (.movhi guard plain d (i.setWidth 23)) ∧
    (x ≠ 0 → decodeSlot (word 0x07) (x.setWidth 8) = some (.movi guard plain d (x ++ i)) ∧
      decodeSlot (word 0x08) (x.setWidth 8) = some (.movhi guard plain d (x ++ i)))) ∧
  (∀ g m d i, (instrUse (.movhi g m d i)).sr = [d] ∧ (instrUse (.movi g m d i)).sr = []) ∧
  classOf 0x1C0A000F = some 0 ∧ classOf 0x200AF000 = some 0 ∧
  decodeSlot 0x1C0A000F 0 = some (.movi ⟨false, 0⟩ ⟨false, false⟩ 10 0xF) ∧
  decodeSlot 0x200AF000 0 = some (.movhi ⟨false, 0⟩ ⟨false, false⟩ 10 0xF000)
/-- R335: DRN_QSTAT reads as the number of drain commands in the queue in every mode, cannot be written in any, and is 0 at
reset. -/
def Obligations.DrainQueueStatus : Prop :=
  (∀ (s : State) (g : Guard) (d : SReg), s.ctx.guard g = true →
    Gives s (.sysrd g d 0x284) 2 (toReg d (BitVec.ofNat 64 ((s.cube s.me).cmds.filter fun m => m.queue == .drainq).length))) ∧
  (∀ (s : State) (g : Guard) (r : SReg), s.ctx.guard g = true → s.ctx.mode ≠ .secure →
    Traps s (.syswr g r 0x284) (slotTrapWith s 0x03 0 0 0)) ∧
  (∀ (s : State) (g : Guard) (r : SReg), s.ctx.guard g = true → s.ctx.mode = .secure → Closes s →
    ∃ u, exec (.syswr g r 0x284) s = .next u ∧ endBundle u s.me = endBundle s s.me) ∧
  ∀ c : CubeId, (State.reset.cube c).cmds = []
/-- R50, R39, R141: s0 reads 0, p0 true and m0 all ones, and writes of them are discarded; every other register reads as it was
written, and no write of one changes another. -/
def Obligations.HardWired : Prop :=
  ∀ x : Ctx,
    (x.s 0 = 0 ∧ x.p 0 = true ∧ x.m 0 = BitVec.allOnes 256) ∧
    (∀ v w u, x.setS 0 v = x ∧ x.setP 0 w = x ∧ x.setM 0 u = x) ∧
    (∀ r v q, r ≠ 0 → (x.setS r v).s q = if q = r then v else x.s q) ∧
    (∀ r v q, r ≠ 0 → (x.setP r v).p q = if q = r then v else x.p q) ∧
    (∀ r v q, r ≠ 0 → (x.setM r v).m q = if q = r then v else x.m q) ∧
    (∀ r v q, (x.setV r v).v q = if q = r then v else x.v q) ∧
    ∀ g : Guard, g.pred = 0 → x.guard g = !g.neg
/-- R31, R75, R150, R230, R239, R308, R309, R332, R333, R338, R364, R375, R394, R395, R401: what the spec says that reset leaves,
and that reset memory has its form. -/
def Obligations.ResetState : Prop :=
  let s := State.reset
  Memory.wf s.mem ∧ s.secu.stage = 0 ∧ s.secu.fail = 0 ∧ s.secu.world = 0 ∧ s.power.pkgCap = 3200 ∧ s.power.hostCap = 0 ∧
    s.fab.regs.rwCount = 0x0000000A00000001 ∧ s.fab.regs.self = 0 ∧ s.fab.regs.dead = 0 ∧
    (∀ n : Fin 8, s.atl.parts.get n = if n = 0 then ⟨true, 0xFF⟩ else ⟨false, 0⟩) ∧
    ∀ c : CubeId, (s.cube c).hw.life = .live ∧ (s.cube c).hw.caps = 0x1FFFFFFF ∧ (s.cube c).hw.lmap = 0x87654321 ∧
      (s.cube c).hw.dscSpare = 0x0000004000000009 ∧ (s.cube c).cregs.wdog = 16384 ∧ (s.cube c).cregs.quantum = 100 ∧
      (s.cube c).eng.drnSeed = 0x6A09E667F3BCC909 ∧ (s.cube c).eng.drnTol = 256 ∧ (s.cube c).eng.drnSkip = 0 ∧
      (s.cube c).eng.drnCor = 0 ∧ (s.cube c).eng.blkBase = 0 ∧ (s.cube c).con.ceLog = [] ∧ (s.cube c).con.ueLog = [] ∧
      (s.cube c).pwr.tWarn = 85 ∧ (s.cube c).pwr.tThrot = 95 ∧ (s.cube c).pwr.tTrip = 110
/-- R45 to R47 and the rules' own sample words: what these words stand for. -/
def Obligations.DecodeWords : Prop :=
  let g : Guard := ⟨false, 0⟩
  let m : Mods := ⟨false, false⟩
  decodeSlot 0x44BFFFFD 0 = some (.br ⟨false, 2⟩ (-3)) ∧ decodeSlot 0x4C030422 0 = some (.pand g 3 1 2) ∧
    decodeSlot 0x4C005001 0 = some (.jrl g (.reg 20)) ∧ decodeSlot 0x54080003 0 = some (.loopi g 512 3) ∧
    decodeSlot 0x50040005 0 = some (.loop g 4 5) ∧ decodeSlot 0x04070002 0 = some (.sysrd g 7 2) ∧
    decodeSlot 0x04058040 0 = some (.syswr g 5 0x40) ∧ decodeSlot 0x18040C8F 0 = some (.andi g m 4 (.reg 3) 15) ∧
    decodeSlot 0x0C050420 0 = some (.mul g m 5 (.reg 1) (.reg 2)) ∧ decodeSlot 0x140824A3 0 = some (.ffma g m 8 (.reg 9) (.reg 10)) ∧
    decodeSlot 0x10041871 0 = some (.bfxn g m 4 (.reg 6) (.reg 7)) ∧
    decodeSlot 0x7809100E 0 = some (.crd g 9 (.reg 4) .sys true) ∧
    decodeSlot 0x2C014105 0 = some (.cmplt g false .plain 1 2 (.reg 4) (.reg 5)) ∧
    decodeSlot 0x240311C0 0 = some (.cmpeqImm g false .plain 3 0 (.reg 7) 0) ∧
    decodeSlot 0xD80F3500 0 = some (.csyncJoin g 15 13 16)
/-- R45 to R48, R54: every slot instruction that is well formed has a word and an extension byte, which stand for exactly it. -/
def Obligations.DecodeEncodeAgree : Prop :=
  ∀ i : Instr, i.isSlot = true → i.wellFormed = true → ∃ w, Sys2Proof.encode i = some w ∧ decodeSlot w.word w.ext = some i
/-- Every step keeps memory in its canonical form: addresses rising, and no entry that an unlisted address would read as. -/
def Obligations.MemoryStaysCanonical : Prop :=
  ∀ s t : State, Memory.wf s.mem → step s = .next t → Memory.wf t.mem

open Sys2Proof Sys2Proof.Machine Sys2Proof.Say

/-- R159: `yield` takes effect behind its bundle: the strand goes behind the ready strands of its priority when one of equal or
higher priority is ready, which then runs; else nothing happens. No register changes and the strand does not park. -/
def Obligations.YieldRule : Prop :=
  ∀ (s : State) (g : Guard) (i : ShelfId), s.ctx.guard g = true → Closes s → (s.cube s.me).cur = .shelf i →
    (s.cube s.me).patches = [] → AtRest s s.ctx.sid → s.ctx.wait = .none → (s.cube s.me).hw.life = .live →
    let e := endBundle s s.me
    let u := endBundle (withCtl s .yield) s.me
    exec (.yield g) s = .next (withCtl s .yield) ∧
    ((∀ j ∈ (e.cube s.me).ready, shelfPrio (e.cube s.me) j < s.ctx.task.prio.toNat) → u = e) ∧
    ∀ j y, nextReady (e.cube s.me) = some j → j ≠ i → (e.cube s.me).shelves.get j = some y →
      s.ctx.task.prio.toNat ≤ y.task.prio.toNat →
      Switched e u s.me i j ∧ (u.cube s.me).ready = (e.cube s.me).ready.filter (· != j) ++ [i]
/-- R160: `trap` and `brk` leave their traps for the end of their bundle, `trap` with its immediate as CODE; with BRKHALT set,
`brk` halts the core there without a trap, once its interlocked operations are complete, and the strand's live window becomes writable; guarded off, neither does anything. -/
def Obligations.TrapAndBreak : Prop :=
  ∀ (s : State) (g : Guard), Closes s →
    (s.ctx.guard g = false → (∀ code, exec (.trap g code) s = .next s) ∧ exec (.brk g) s = .next s) ∧
    (s.ctx.guard g = true →
      (∀ code, exec (.trap g code) s = .next (withTrap s ⟨0x10, code, 0, 0, BitVec.twoPow 4 s.bundle.slot.toNat, 0⟩)) ∧
      ((s.cube s.me).cregs.brkHalt = false →
        exec (.brk g) s = .next (withTrap s ⟨0x0F, 0, 0, 0, BitVec.twoPow 4 s.bundle.slot.toNat, 0⟩)) ∧
      (∀ t, s.ctx.pending = [] → (ended (withTrap s t)).pending = [t] ∧ (ended (withTrap s t)).regs = (ended s).regs) ∧
      (∀ t, (s.cube s.me).cur ≠ .none → AtRest s s.ctx.sid → ((takeTrap s s.me t).cube s.me).cur = .runtime →
        ((takeTrap s s.me t).cube s.me).core.sys.trec.cause.toNat / 2 ^ 24 % 64 = t.code.toNat) ∧
      ((s.cube s.me).cregs.brkHalt = true → exec (.brk g) s = .next (withCtl s .debugHalt) ∧
        let u := endBundle (withCtl s .debugHalt) s.me
        (interlocksOut (endBundle s s.me) s.ctx.sid = true →
          u = ((endBundle s s.me).modCube s.me fun k => { k with leave := .control .debugHalt s.ctx.pc })) ∧
        (interlocksOut (endBundle s s.me) s.ctx.sid = false →
          u = ((endBundle s s.me).modCube s.me fun k => { k with core := landDue k.core, debugHalted := true })) ∧ (ended (withCtl s .debugHalt)).pending = s.ctx.pending ∧
        ∀ (i : ShelfId) (off n : Nat) (v : Word), interlocksOut (endBundle s s.me) s.ctx.sid = false →
          (u.cube s.me).cur = .shelf i → (u.cube s.me).shelves.get i ≠ none → exec (.shelfWindowWrite s.me i off n v) u = .next (u.modCube s.me fun k => { k with
            patches := k.patches ++ (cellsAt off (bytesLE n v.toNat)).map fun d => (i, d.1, d.2) })))

/-- Scalar integer, bit-field, immediate and division instructions: value, destination, latch, latency, and nothing else. -/
def Obligations.ScalarIntegerResults : Prop := ScalarInteger ∧ ScalarImmediate ∧ Division
/-- Compares write two predicates by their family; predicate operations; moves between predicates and a word. -/
def Obligations.ComparesAndPredicates : Prop := ScalarCompare ∧ PredicateOps
/-- Where a bundle ends; branches, jumps with links and their alignment trap; hardware loops and their depth trap. -/
def Obligations.ControlTransfers : Prop := NextAddress ∧ BranchesAndJumps ∧ HardwareLoops
/-- Scalar loads give the extended bytes or send a read; scalar stores send one item on their line. -/
def Obligations.ScalarMemory : Prop := ScalarLoad ∧ ScalarStore
/-- Atomics, reductions, counter operations and counter reads: what each sends, what waits, and nothing else. -/
def Obligations.AtomicsAndCounters : Prop := Atomics ∧ Reductions ∧ CounterOps ∧ CounterReads
/-- nop, cyc, self, noise, sysrd: the values they give; a permitted syswr takes effect when its bundle ends. -/
def Obligations.SystemRegisters : Prop := SystemValues ∧ SystemWrites
/-- halt, iflush and eret act at the end of their bundle, and what halt and eret leave; tlbi sets out; privileged forms trap in task
mode. Which bundles of the physical window iflush drops is the model's choice (log entry 106). -/
def Obligations.ControlAndPrivilege : Prop := ControlAtEnd ∧ Privileged
/-- fence and qfence note what they order; bind and unbind change the binding table. -/
def Obligations.FencesAndBindings : Prop := Fences ∧ Bindings
/-- The train record and what join, leave and trninfo do to it and answer. What a record on a poisoned line answers is the model's
choice (log entry 125). -/
def Obligations.TrainsAndRecords : Prop := TrainRecord ∧ Trains
/-- The atelier's answer to a launch packet, and the launch instruction. The order in which a packet is refused, and that it takes the
lowest free slot, is the model's choice (log entries 49 and 124). -/
def Obligations.LaunchPackets : Prop := PacketAnswers ∧ LaunchInstruction
/-- Palettes, recipes, join points, csync.stat and csync.skew. -/
def Obligations.PalettesAndSync : Prop := PalettesAndRecipes ∧ SyncCommands
/-- Vector compares into masks, mask logic, masks from scalars, counts of masks. -/
def Obligations.MasksAndCompares : Prop := VectorCompare ∧ MaskOps
/-- Permutes, inserts, slides, extracts and compresses; vsel, vsplati and vnoise. What the latch takes where an insert or a slide
writes no element is the model's choice (log entry 35). -/
def Obligations.PermutesAndMoves : Prop := VectorPermute ∧ VectorMoves
/-- Reductions as trees over the active elements, and dot products. -/
def Obligations.VectorFolds : Prop := VectorReduce ∧ VectorDot
/-- Copy commands start and complete, and completion adds go to their counters. That a copy's accesses are one step is the model's
choice (log entry 7). -/
def Obligations.CopyCommands : Prop := CopyEvents ∧ CompletionAdds
/-- Host accesses, decoders, attestation, sessions, debug halts; checkpoints (their moment of copy is the model's choice, log entry 82). -/
def Obligations.HostAndCheckpoints : Prop := HostEvents ∧ Checkpoints
end

