-- ==== Sys2Proof/Laws/Dispatch.lean ====
section
/-! SUPPORT. One equation for each arm of `exec`: which meaning an instruction has. A proof about an instruction starts with
its equation and never unfolds the dispatch. -/
namespace Sys2Proof.Machine

set_option Elab.async false

theorem exec_nop (s : State) :
    exec .nop s = execNop s := rfl
theorem exec_halt (g : Guard) (s : State) :
    exec (.halt g) s = execHalt g s := rfl
theorem exec_yield (g : Guard) (s : State) :
    exec (.yield g) s = execYield g s := rfl
theorem exec_trap (g : Guard) (code : BitVec 6) (s : State) :
    exec (.trap g code) s = execTrap g code s := rfl
theorem exec_eret (g : Guard) (s : State) :
    exec (.eret g) s = execEret g s := rfl
theorem exec_iflush (g : Guard) (s : State) :
    exec (.iflush g) s = execIflush g s := rfl
theorem exec_tlbi (g : Guard) (d : SReg) (a : Src) (code : BitVec 6) (s : State) :
    exec (.tlbi g d a code) s = execTlbi g d a code s := rfl
theorem exec_noise (g : Guard) (d : SReg) (s : State) :
    exec (.noise g d) s = execNoise g d s := rfl
theorem exec_cyc (g : Guard) (d : SReg) (s : State) :
    exec (.cyc g d) s = execCyc g d s := rfl
theorem exec_self (g : Guard) (d : SReg) (s : State) :
    exec (.self g d) s = execSelf g d s := rfl
theorem exec_brk (g : Guard) (s : State) :
    exec (.brk g) s = execBrk g s := rfl
theorem exec_sysrd (g : Guard) (d : SReg) (n : BitVec 12) (s : State) :
    exec (.sysrd g d n) s = execSysrd g d n s := rfl
theorem exec_syswr (g : Guard) (st : SReg) (n : BitVec 12) (s : State) :
    exec (.syswr g st n) s = execSyswr g st n s := rfl
theorem exec_add (g : Guard) (m : Mods) (d : SReg) (a : Src) (b : Src) (s : State) :
    exec (.add g m d a b) s = execAdd g m d a b s := rfl
theorem exec_sub (g : Guard) (m : Mods) (d : SReg) (a : Src) (b : Src) (s : State) :
    exec (.sub g m d a b) s = execSub g m d a b s := rfl
theorem exec_and (g : Guard) (m : Mods) (d : SReg) (a : Src) (b : Src) (s : State) :
    exec (.and g m d a b) s = execAnd g m d a b s := rfl
theorem exec_or (g : Guard) (m : Mods) (d : SReg) (a : Src) (b : Src) (s : State) :
    exec (.or g m d a b) s = execOr g m d a b s := rfl
theorem exec_xor (g : Guard) (m : Mods) (d : SReg) (a : Src) (b : Src) (s : State) :
    exec (.xor g m d a b) s = execXor g m d a b s := rfl
theorem exec_andn (g : Guard) (m : Mods) (d : SReg) (a : Src) (b : Src) (s : State) :
    exec (.andn g m d a b) s = execAndn g m d a b s := rfl
theorem exec_orn (g : Guard) (m : Mods) (d : SReg) (a : Src) (b : Src) (s : State) :
    exec (.orn g m d a b) s = execOrn g m d a b s := rfl
theorem exec_shl (g : Guard) (m : Mods) (d : SReg) (a : Src) (b : Src) (s : State) :
    exec (.shl g m d a b) s = execShl g m d a b s := rfl
theorem exec_shr (g : Guard) (m : Mods) (d : SReg) (a : Src) (b : Src) (s : State) :
    exec (.shr g m d a b) s = execShr g m d a b s := rfl
theorem exec_sar (g : Guard) (m : Mods) (d : SReg) (a : Src) (b : Src) (s : State) :
    exec (.sar g m d a b) s = execSar g m d a b s := rfl
theorem exec_rol (g : Guard) (m : Mods) (d : SReg) (a : Src) (b : Src) (s : State) :
    exec (.rol g m d a b) s = execRol g m d a b s := rfl
theorem exec_min (g : Guard) (m : Mods) (d : SReg) (a : Src) (b : Src) (s : State) :
    exec (.min g m d a b) s = execMin g m d a b s := rfl
theorem exec_max (g : Guard) (m : Mods) (d : SReg) (a : Src) (b : Src) (s : State) :
    exec (.max g m d a b) s = execMax g m d a b s := rfl
theorem exec_minn (g : Guard) (m : Mods) (d : SReg) (a : Src) (b : Src) (s : State) :
    exec (.minn g m d a b) s = execMinn g m d a b s := rfl
theorem exec_maxn (g : Guard) (m : Mods) (d : SReg) (a : Src) (b : Src) (s : State) :
    exec (.maxn g m d a b) s = execMaxn g m d a b s := rfl
theorem exec_ror (g : Guard) (m : Mods) (d : SReg) (a : Src) (b : Src) (s : State) :
    exec (.ror g m d a b) s = execRor g m d a b s := rfl
theorem exec_mul (g : Guard) (m : Mods) (d : SReg) (a : Src) (b : Src) (s : State) :
    exec (.mul g m d a b) s = execMul g m d a b s := rfl
theorem exec_mulh (g : Guard) (m : Mods) (d : SReg) (a : Src) (b : Src) (s : State) :
    exec (.mulh g m d a b) s = execMulh g m d a b s := rfl
theorem exec_mulhn (g : Guard) (m : Mods) (d : SReg) (a : Src) (b : Src) (s : State) :
    exec (.mulhn g m d a b) s = execMulhn g m d a b s := rfl
theorem exec_div (g : Guard) (m : Mods) (d : SReg) (a : Src) (b : Src) (s : State) :
    exec (.div g m d a b) s = execDiv g m d a b s := rfl
theorem exec_divn (g : Guard) (m : Mods) (d : SReg) (a : Src) (b : Src) (s : State) :
    exec (.divn g m d a b) s = execDivn g m d a b s := rfl
theorem exec_rem (g : Guard) (m : Mods) (d : SReg) (a : Src) (b : Src) (s : State) :
    exec (.rem g m d a b) s = execRem g m d a b s := rfl
theorem exec_remn (g : Guard) (m : Mods) (d : SReg) (a : Src) (b : Src) (s : State) :
    exec (.remn g m d a b) s = execRemn g m d a b s := rfl
theorem exec_popc (g : Guard) (m : Mods) (d : SReg) (a : Src) (s : State) :
    exec (.popc g m d a) s = execPopc g m d a s := rfl
theorem exec_clz (g : Guard) (m : Mods) (d : SReg) (a : Src) (s : State) :
    exec (.clz g m d a) s = execClz g m d a s := rfl
theorem exec_ctz (g : Guard) (m : Mods) (d : SReg) (a : Src) (s : State) :
    exec (.ctz g m d a) s = execCtz g m d a s := rfl
theorem exec_brev (g : Guard) (m : Mods) (d : SReg) (a : Src) (s : State) :
    exec (.brev g m d a) s = execBrev g m d a s := rfl
theorem exec_bswap (g : Guard) (m : Mods) (d : SReg) (a : Src) (s : State) :
    exec (.bswap g m d a) s = execBswap g m d a s := rfl
theorem exec_abs (g : Guard) (m : Mods) (d : SReg) (a : Src) (s : State) :
    exec (.abs g m d a) s = execAbs g m d a s := rfl
theorem exec_sext (g : Guard) (m : Mods) (d : SReg) (a : Src) (b : Src) (s : State) :
    exec (.sext g m d a b) s = execSext g m d a b s := rfl
theorem exec_zext (g : Guard) (m : Mods) (d : SReg) (a : Src) (b : Src) (s : State) :
    exec (.zext g m d a b) s = execZext g m d a b s := rfl
theorem exec_bfxs (g : Guard) (m : Mods) (d : SReg) (a : Src) (b : Src) (s : State) :
    exec (.bfxs g m d a b) s = execBfxs g m d a b s := rfl
theorem exec_bfxn (g : Guard) (m : Mods) (d : SReg) (a : Src) (b : Src) (s : State) :
    exec (.bfxn g m d a b) s = execBfxn g m d a b s := rfl
theorem exec_bfi (g : Guard) (m : Mods) (d : SReg) (a : Src) (b : Src) (s : State) :
    exec (.bfi g m d a b) s = execBfi g m d a b s := rfl
theorem exec_fshl (g : Guard) (m : Mods) (d : SReg) (a : Src) (b : Src) (s : State) :
    exec (.fshl g m d a b) s = execFshl g m d a b s := rfl
theorem exec_fshr (g : Guard) (m : Mods) (d : SReg) (a : Src) (b : Src) (s : State) :
    exec (.fshr g m d a b) s = execFshr g m d a b s := rfl
theorem exec_fadd (g : Guard) (m : Mods) (d : SReg) (a : Src) (b : Src) (s : State) :
    exec (.fadd g m d a b) s = execFadd g m d a b s := rfl
theorem exec_fsub (g : Guard) (m : Mods) (d : SReg) (a : Src) (b : Src) (s : State) :
    exec (.fsub g m d a b) s = execFsub g m d a b s := rfl
theorem exec_fmul (g : Guard) (m : Mods) (d : SReg) (a : Src) (b : Src) (s : State) :
    exec (.fmul g m d a b) s = execFmul g m d a b s := rfl
theorem exec_ffma (g : Guard) (m : Mods) (d : SReg) (a : Src) (b : Src) (s : State) :
    exec (.ffma g m d a b) s = execFfma g m d a b s := rfl
theorem exec_fmin (g : Guard) (m : Mods) (d : SReg) (a : Src) (b : Src) (s : State) :
    exec (.fmin g m d a b) s = execFmin g m d a b s := rfl
theorem exec_fmax (g : Guard) (m : Mods) (d : SReg) (a : Src) (b : Src) (s : State) :
    exec (.fmax g m d a b) s = execFmax g m d a b s := rfl
theorem exec_fabs (g : Guard) (m : Mods) (d : SReg) (a : Src) (s : State) :
    exec (.fabs g m d a) s = execFabs g m d a s := rfl
theorem exec_fneg (g : Guard) (m : Mods) (d : SReg) (a : Src) (s : State) :
    exec (.fneg g m d a) s = execFneg g m d a s := rfl
theorem exec_fcvtif (g : Guard) (m : Mods) (d : SReg) (a : Src) (s : State) :
    exec (.fcvtif g m d a) s = execFcvtif g m d a s := rfl
theorem exec_fcvtnf (g : Guard) (m : Mods) (d : SReg) (a : Src) (s : State) :
    exec (.fcvtnf g m d a) s = execFcvtnf g m d a s := rfl
theorem exec_fcvtfi (g : Guard) (m : Mods) (d : SReg) (a : Src) (s : State) :
    exec (.fcvtfi g m d a) s = execFcvtfi g m d a s := rfl
theorem exec_fcvtfn (g : Guard) (m : Mods) (d : SReg) (a : Src) (s : State) :
    exec (.fcvtfn g m d a) s = execFcvtfn g m d a s := rfl
theorem exec_fsqrt (g : Guard) (m : Mods) (d : SReg) (a : Src) (s : State) :
    exec (.fsqrt g m d a) s = execFsqrt g m d a s := rfl
theorem exec_addi (g : Guard) (m : Mods) (d : SReg) (a : Src) (imm : BitVec 14) (s : State) :
    exec (.addi g m d a imm) s = execAddi g m d a imm s := rfl
theorem exec_andi (g : Guard) (m : Mods) (d : SReg) (a : Src) (imm : BitVec 14) (s : State) :
    exec (.andi g m d a imm) s = execAndi g m d a imm s := rfl
theorem exec_ori (g : Guard) (m : Mods) (d : SReg) (a : Src) (imm : BitVec 14) (s : State) :
    exec (.ori g m d a imm) s = execOri g m d a imm s := rfl
theorem exec_xori (g : Guard) (m : Mods) (d : SReg) (a : Src) (imm : BitVec 14) (s : State) :
    exec (.xori g m d a imm) s = execXori g m d a imm s := rfl
theorem exec_shli (g : Guard) (m : Mods) (d : SReg) (a : Src) (imm : BitVec 14) (s : State) :
    exec (.shli g m d a imm) s = execShli g m d a imm s := rfl
theorem exec_shri (g : Guard) (m : Mods) (d : SReg) (a : Src) (imm : BitVec 14) (s : State) :
    exec (.shri g m d a imm) s = execShri g m d a imm s := rfl
theorem exec_sari (g : Guard) (m : Mods) (d : SReg) (a : Src) (imm : BitVec 14) (s : State) :
    exec (.sari g m d a imm) s = execSari g m d a imm s := rfl
theorem exec_muli (g : Guard) (m : Mods) (d : SReg) (a : Src) (imm : BitVec 14) (s : State) :
    exec (.muli g m d a imm) s = execMuli g m d a imm s := rfl
theorem exec_movi (g : Guard) (m : Mods) (d : SReg) (imm : BitVec 23) (s : State) :
    exec (.movi g m d imm) s = execMovi g m d imm s := rfl
theorem exec_movhi (g : Guard) (m : Mods) (d : SReg) (imm : BitVec 23) (s : State) :
    exec (.movhi g m d imm) s = execMovhi g m d imm s := rfl
theorem exec_cmpeq (g : Guard) (tv : Bool) (ct : Comb) (p : PReg) (q : PReg) (a : Src) (b : Src) (s : State) :
    exec (.cmpeq g tv ct p q a b) s = execCmpeq g tv ct p q a b s := rfl
theorem exec_cmpeqImm (g : Guard) (tv : Bool) (ct : Comb) (p : PReg) (q : PReg) (a : Src) (imm : BitVec 13) (s : State) :
    exec (.cmpeqImm g tv ct p q a imm) s = execCmpeqImm g tv ct p q a imm s := rfl
theorem exec_cmpne (g : Guard) (tv : Bool) (ct : Comb) (p : PReg) (q : PReg) (a : Src) (b : Src) (s : State) :
    exec (.cmpne g tv ct p q a b) s = execCmpne g tv ct p q a b s := rfl
theorem exec_cmpneImm (g : Guard) (tv : Bool) (ct : Comb) (p : PReg) (q : PReg) (a : Src) (imm : BitVec 13) (s : State) :
    exec (.cmpneImm g tv ct p q a imm) s = execCmpneImm g tv ct p q a imm s := rfl
theorem exec_cmplt (g : Guard) (tv : Bool) (ct : Comb) (p : PReg) (q : PReg) (a : Src) (b : Src) (s : State) :
    exec (.cmplt g tv ct p q a b) s = execCmplt g tv ct p q a b s := rfl
theorem exec_cmpltImm (g : Guard) (tv : Bool) (ct : Comb) (p : PReg) (q : PReg) (a : Src) (imm : BitVec 13) (s : State) :
    exec (.cmpltImm g tv ct p q a imm) s = execCmpltImm g tv ct p q a imm s := rfl
theorem exec_cmple (g : Guard) (tv : Bool) (ct : Comb) (p : PReg) (q : PReg) (a : Src) (b : Src) (s : State) :
    exec (.cmple g tv ct p q a b) s = execCmple g tv ct p q a b s := rfl
theorem exec_cmpleImm (g : Guard) (tv : Bool) (ct : Comb) (p : PReg) (q : PReg) (a : Src) (imm : BitVec 13) (s : State) :
    exec (.cmpleImm g tv ct p q a imm) s = execCmpleImm g tv ct p q a imm s := rfl
theorem exec_cmpltn (g : Guard) (tv : Bool) (ct : Comb) (p : PReg) (q : PReg) (a : Src) (b : Src) (s : State) :
    exec (.cmpltn g tv ct p q a b) s = execCmpltn g tv ct p q a b s := rfl
theorem exec_cmpltnImm (g : Guard) (tv : Bool) (ct : Comb) (p : PReg) (q : PReg) (a : Src) (imm : BitVec 13) (s : State) :
    exec (.cmpltnImm g tv ct p q a imm) s = execCmpltnImm g tv ct p q a imm s := rfl
theorem exec_cmplen (g : Guard) (tv : Bool) (ct : Comb) (p : PReg) (q : PReg) (a : Src) (b : Src) (s : State) :
    exec (.cmplen g tv ct p q a b) s = execCmplen g tv ct p q a b s := rfl
theorem exec_cmplenImm (g : Guard) (tv : Bool) (ct : Comb) (p : PReg) (q : PReg) (a : Src) (imm : BitVec 13) (s : State) :
    exec (.cmplenImm g tv ct p q a imm) s = execCmplenImm g tv ct p q a imm s := rfl
theorem exec_fcmpeq (g : Guard) (tv : Bool) (ct : Comb) (p : PReg) (q : PReg) (a : Src) (b : Src) (s : State) :
    exec (.fcmpeq g tv ct p q a b) s = execFcmpeq g tv ct p q a b s := rfl
theorem exec_fcmplt (g : Guard) (tv : Bool) (ct : Comb) (p : PReg) (q : PReg) (a : Src) (b : Src) (s : State) :
    exec (.fcmplt g tv ct p q a b) s = execFcmplt g tv ct p q a b s := rfl
theorem exec_fcmple (g : Guard) (tv : Bool) (ct : Comb) (p : PReg) (q : PReg) (a : Src) (b : Src) (s : State) :
    exec (.fcmple g tv ct p q a b) s = execFcmple g tv ct p q a b s := rfl
theorem exec_fcmpun (g : Guard) (tv : Bool) (ct : Comb) (p : PReg) (q : PReg) (a : Src) (b : Src) (s : State) :
    exec (.fcmpun g tv ct p q a b) s = execFcmpun g tv ct p q a b s := rfl
theorem exec_br (g : Guard) (disp : BitVec 29) (s : State) :
    exec (.br g disp) s = execBr g disp s := rfl
theorem exec_brl (g : Guard) (disp : BitVec 29) (s : State) :
    exec (.brl g disp) s = execBrl g disp s := rfl
theorem exec_jr (g : Guard) (a : Src) (s : State) :
    exec (.jr g a) s = execJr g a s := rfl
theorem exec_jrl (g : Guard) (a : Src) (s : State) :
    exec (.jrl g a) s = execJrl g a s := rfl
theorem exec_pand (g : Guard) (d : PReg) (a : PReg) (b : PReg) (s : State) :
    exec (.pand g d a b) s = execPand g d a b s := rfl
theorem exec_por (g : Guard) (d : PReg) (a : PReg) (b : PReg) (s : State) :
    exec (.por g d a b) s = execPor g d a b s := rfl
theorem exec_pxor (g : Guard) (d : PReg) (a : PReg) (b : PReg) (s : State) :
    exec (.pxor g d a b) s = execPxor g d a b s := rfl
theorem exec_pandn (g : Guard) (d : PReg) (a : PReg) (b : PReg) (s : State) :
    exec (.pandn g d a b) s = execPandn g d a b s := rfl
theorem exec_pmovs (g : Guard) (a : Src) (s : State) :
    exec (.pmovs g a) s = execPmovs g a s := rfl
theorem exec_pmovp (g : Guard) (d : SReg) (s : State) :
    exec (.pmovp g d) s = execPmovp g d s := rfl
theorem exec_lpop (g : Guard) (s : State) :
    exec (.lpop g) s = execLpop g s := rfl
theorem exec_loop (g : Guard) (c : SReg) (e : BitVec 21) (s : State) :
    exec (.loop g c e) s = execLoop g c e s := rfl
theorem exec_loopi (g : Guard) (n : BitVec 19) (e : BitVec 10) (s : State) :
    exec (.loopi g n e) s = execLoopi g n e s := rfl
theorem exec_ld (g : Guard) (nw : Bool) (d : SReg) (base : Src) (z : Size) (x : Bool) (off : BitVec 11) (s : State) :
    exec (.ld g nw d base z x off) s = execLd g nw d base z x off s := rfl
theorem exec_st (g : Guard) (data : SReg) (base : Src) (z : Size) (glob : Bool) (line : BitVec 3) (off : BitVec 11) (s : State) :
    exec (.st g data base z glob line off) s = execSt g data base z glob line off s := rfl
theorem exec_amoAdd (g : Guard) (d : SReg) (a : Src) (b : Src) (s : State) :
    exec (.amoAdd g d a b) s = execAmoAdd g d a b s := rfl
theorem exec_amoAnd (g : Guard) (d : SReg) (a : Src) (b : Src) (s : State) :
    exec (.amoAnd g d a b) s = execAmoAnd g d a b s := rfl
theorem exec_amoOr (g : Guard) (d : SReg) (a : Src) (b : Src) (s : State) :
    exec (.amoOr g d a b) s = execAmoOr g d a b s := rfl
theorem exec_amoXor (g : Guard) (d : SReg) (a : Src) (b : Src) (s : State) :
    exec (.amoXor g d a b) s = execAmoXor g d a b s := rfl
theorem exec_amoMin (g : Guard) (d : SReg) (a : Src) (b : Src) (s : State) :
    exec (.amoMin g d a b) s = execAmoMin g d a b s := rfl
theorem exec_amoMax (g : Guard) (d : SReg) (a : Src) (b : Src) (s : State) :
    exec (.amoMax g d a b) s = execAmoMax g d a b s := rfl
theorem exec_amoMinn (g : Guard) (d : SReg) (a : Src) (b : Src) (s : State) :
    exec (.amoMinn g d a b) s = execAmoMinn g d a b s := rfl
theorem exec_amoMaxn (g : Guard) (d : SReg) (a : Src) (b : Src) (s : State) :
    exec (.amoMaxn g d a b) s = execAmoMaxn g d a b s := rfl
theorem exec_amoSwap (g : Guard) (d : SReg) (a : Src) (b : Src) (s : State) :
    exec (.amoSwap g d a b) s = execAmoSwap g d a b s := rfl
theorem exec_amoCas (g : Guard) (d : SReg) (a : Src) (b : Src) (s : State) :
    exec (.amoCas g d a b) s = execAmoCas g d a b s := rfl
theorem exec_amowAdd (g : Guard) (d : SReg) (a : Src) (b : Src) (s : State) :
    exec (.amowAdd g d a b) s = execAmowAdd g d a b s := rfl
theorem exec_amowAnd (g : Guard) (d : SReg) (a : Src) (b : Src) (s : State) :
    exec (.amowAnd g d a b) s = execAmowAnd g d a b s := rfl
theorem exec_amowOr (g : Guard) (d : SReg) (a : Src) (b : Src) (s : State) :
    exec (.amowOr g d a b) s = execAmowOr g d a b s := rfl
theorem exec_amowXor (g : Guard) (d : SReg) (a : Src) (b : Src) (s : State) :
    exec (.amowXor g d a b) s = execAmowXor g d a b s := rfl
theorem exec_amowMin (g : Guard) (d : SReg) (a : Src) (b : Src) (s : State) :
    exec (.amowMin g d a b) s = execAmowMin g d a b s := rfl
theorem exec_amowMax (g : Guard) (d : SReg) (a : Src) (b : Src) (s : State) :
    exec (.amowMax g d a b) s = execAmowMax g d a b s := rfl
theorem exec_amowMinn (g : Guard) (d : SReg) (a : Src) (b : Src) (s : State) :
    exec (.amowMinn g d a b) s = execAmowMinn g d a b s := rfl
theorem exec_amowMaxn (g : Guard) (d : SReg) (a : Src) (b : Src) (s : State) :
    exec (.amowMaxn g d a b) s = execAmowMaxn g d a b s := rfl
theorem exec_amowSwap (g : Guard) (d : SReg) (a : Src) (b : Src) (s : State) :
    exec (.amowSwap g d a b) s = execAmowSwap g d a b s := rfl
theorem exec_amowCas (g : Guard) (d : SReg) (a : Src) (b : Src) (s : State) :
    exec (.amowCas g d a b) s = execAmowCas g d a b s := rfl
theorem exec_amowFadd (g : Guard) (d : SReg) (a : Src) (b : Src) (s : State) :
    exec (.amowFadd g d a b) s = execAmowFadd g d a b s := rfl
theorem exec_amowFmax (g : Guard) (d : SReg) (a : Src) (b : Src) (s : State) :
    exec (.amowFmax g d a b) s = execAmowFmax g d a b s := rfl
theorem exec_redAdd (g : Guard) (ord : Bool) (z : Bool) (a : Src) (b : Src) (s : State) :
    exec (.redAdd g ord z a b) s = execRedAdd g ord z a b s := rfl
theorem exec_redAnd (g : Guard) (ord : Bool) (z : Bool) (a : Src) (b : Src) (s : State) :
    exec (.redAnd g ord z a b) s = execRedAnd g ord z a b s := rfl
theorem exec_redOr (g : Guard) (ord : Bool) (z : Bool) (a : Src) (b : Src) (s : State) :
    exec (.redOr g ord z a b) s = execRedOr g ord z a b s := rfl
theorem exec_redXor (g : Guard) (ord : Bool) (z : Bool) (a : Src) (b : Src) (s : State) :
    exec (.redXor g ord z a b) s = execRedXor g ord z a b s := rfl
theorem exec_redMin (g : Guard) (ord : Bool) (z : Bool) (a : Src) (b : Src) (s : State) :
    exec (.redMin g ord z a b) s = execRedMin g ord z a b s := rfl
theorem exec_redMax (g : Guard) (ord : Bool) (z : Bool) (a : Src) (b : Src) (s : State) :
    exec (.redMax g ord z a b) s = execRedMax g ord z a b s := rfl
theorem exec_redMinn (g : Guard) (ord : Bool) (z : Bool) (a : Src) (b : Src) (s : State) :
    exec (.redMinn g ord z a b) s = execRedMinn g ord z a b s := rfl
theorem exec_redMaxn (g : Guard) (ord : Bool) (z : Bool) (a : Src) (b : Src) (s : State) :
    exec (.redMaxn g ord z a b) s = execRedMaxn g ord z a b s := rfl
theorem exec_redFadd (g : Guard) (ord : Bool) (a : Src) (b : Src) (s : State) :
    exec (.redFadd g ord a b) s = execRedFadd g ord a b s := rfl
theorem exec_redFmax (g : Guard) (ord : Bool) (a : Src) (b : Src) (s : State) :
    exec (.redFmax g ord a b) s = execRedFmax g ord a b s := rfl
theorem exec_cadd (g : Guard) (line : BitVec 3) (glob : Bool) (a : Src) (b : Src) (scope : Scope) (rel : Bool) (s : State) :
    exec (.cadd g line glob a b scope rel) s = execCadd g line glob a b scope rel s := rfl
theorem exec_cmax (g : Guard) (line : BitVec 3) (glob : Bool) (a : Src) (b : Src) (scope : Scope) (rel : Bool) (s : State) :
    exec (.cmax g line glob a b scope rel) s = execCmax g line glob a b scope rel s := rfl
theorem exec_cwait (g : Guard) (d : SReg) (a : Src) (b : Src) (scope : Scope) (acq : Bool) (np : Bool) (s : State) :
    exec (.cwait g d a b scope acq np) s = execCwait g d a b scope acq np s := rfl
theorem exec_crd (g : Guard) (d : SReg) (a : Src) (scope : Scope) (acq : Bool) (s : State) :
    exec (.crd g d a scope acq) s = execCrd g d a scope acq s := rfl
theorem exec_fence (g : Guard) (kind : FenceKind) (scope : Scope) (s : State) :
    exec (.fence g kind scope) s = execFence g kind scope s := rfl
theorem exec_qfence (g : Guard) (mask : BitVec 6) (s : State) :
    exec (.qfence g mask) s = execQfence g mask s := rfl
theorem exec_bind (g : Guard) (d : SReg) (a : Src) (b : Src) (s : State) :
    exec (.bind g d a b) s = execBind g d a b s := rfl
theorem exec_unbind (g : Guard) (d : SReg) (a : Src) (b : Src) (s : State) :
    exec (.unbind g d a b) s = execUnbind g d a b s := rfl
theorem exec_join (g : Guard) (d : SReg) (a : Src) (s : State) :
    exec (.join g d a) s = execJoin g d a s := rfl
theorem exec_leave (g : Guard) (d : SReg) (a : Src) (s : State) :
    exec (.leave g d a) s = execLeave g d a s := rfl
theorem exec_launch (g : Guard) (d : SReg) (a : Src) (b : Src) (s : State) :
    exec (.launch g d a b) s = execLaunch g d a b s := rfl
theorem exec_trninfo (g : Guard) (d : SReg) (a : Src) (s : State) :
    exec (.trninfo g d a) s = execTrninfo g d a s := rfl
theorem exec_vadd (k : MReg) (u : Bool) (m : Mods) (d : VReg) (a : VSrc) (b : VSrc) (t : ElemT) (s : State) :
    exec (.vadd k u m d a b t) s = execVadd k u m d a b t s := rfl
theorem exec_vsub (k : MReg) (u : Bool) (m : Mods) (d : VReg) (a : VSrc) (b : VSrc) (t : ElemT) (s : State) :
    exec (.vsub k u m d a b t) s = execVsub k u m d a b t s := rfl
theorem exec_vadds (k : MReg) (u : Bool) (m : Mods) (d : VReg) (a : VSrc) (b : VSrc) (t : ElemT) (s : State) :
    exec (.vadds k u m d a b t) s = execVadds k u m d a b t s := rfl
theorem exec_vsubs (k : MReg) (u : Bool) (m : Mods) (d : VReg) (a : VSrc) (b : VSrc) (t : ElemT) (s : State) :
    exec (.vsubs k u m d a b t) s = execVsubs k u m d a b t s := rfl
theorem exec_vaddsn (k : MReg) (u : Bool) (m : Mods) (d : VReg) (a : VSrc) (b : VSrc) (t : ElemT) (s : State) :
    exec (.vaddsn k u m d a b t) s = execVaddsn k u m d a b t s := rfl
theorem exec_vsubsn (k : MReg) (u : Bool) (m : Mods) (d : VReg) (a : VSrc) (b : VSrc) (t : ElemT) (s : State) :
    exec (.vsubsn k u m d a b t) s = execVsubsn k u m d a b t s := rfl
theorem exec_vmul (k : MReg) (u : Bool) (m : Mods) (d : VReg) (a : VSrc) (b : VSrc) (t : ElemT) (s : State) :
    exec (.vmul k u m d a b t) s = execVmul k u m d a b t s := rfl
theorem exec_vmulh (k : MReg) (u : Bool) (m : Mods) (d : VReg) (a : VSrc) (b : VSrc) (t : ElemT) (s : State) :
    exec (.vmulh k u m d a b t) s = execVmulh k u m d a b t s := rfl
theorem exec_vmulhn (k : MReg) (u : Bool) (m : Mods) (d : VReg) (a : VSrc) (b : VSrc) (t : ElemT) (s : State) :
    exec (.vmulhn k u m d a b t) s = execVmulhn k u m d a b t s := rfl
theorem exec_vmin (k : MReg) (u : Bool) (m : Mods) (d : VReg) (a : VSrc) (b : VSrc) (t : ElemT) (s : State) :
    exec (.vmin k u m d a b t) s = execVmin k u m d a b t s := rfl
theorem exec_vmax (k : MReg) (u : Bool) (m : Mods) (d : VReg) (a : VSrc) (b : VSrc) (t : ElemT) (s : State) :
    exec (.vmax k u m d a b t) s = execVmax k u m d a b t s := rfl
theorem exec_vminn (k : MReg) (u : Bool) (m : Mods) (d : VReg) (a : VSrc) (b : VSrc) (t : ElemT) (s : State) :
    exec (.vminn k u m d a b t) s = execVminn k u m d a b t s := rfl
theorem exec_vmaxn (k : MReg) (u : Bool) (m : Mods) (d : VReg) (a : VSrc) (b : VSrc) (t : ElemT) (s : State) :
    exec (.vmaxn k u m d a b t) s = execVmaxn k u m d a b t s := rfl
theorem exec_vabs (k : MReg) (u : Bool) (m : Mods) (d : VReg) (a : VSrc) (t : ElemT) (s : State) :
    exec (.vabs k u m d a t) s = execVabs k u m d a t s := rfl
theorem exec_vneg (k : MReg) (u : Bool) (m : Mods) (d : VReg) (a : VSrc) (t : ElemT) (s : State) :
    exec (.vneg k u m d a t) s = execVneg k u m d a t s := rfl
theorem exec_vavgn (k : MReg) (u : Bool) (m : Mods) (d : VReg) (a : VSrc) (b : VSrc) (t : ElemT) (s : State) :
    exec (.vavgn k u m d a b t) s = execVavgn k u m d a b t s := rfl
theorem exec_vand (k : MReg) (u : Bool) (m : Mods) (d : VReg) (a : VSrc) (b : VSrc) (t : ElemT) (s : State) :
    exec (.vand k u m d a b t) s = execVand k u m d a b t s := rfl
theorem exec_vor (k : MReg) (u : Bool) (m : Mods) (d : VReg) (a : VSrc) (b : VSrc) (t : ElemT) (s : State) :
    exec (.vor k u m d a b t) s = execVor k u m d a b t s := rfl
theorem exec_vxor (k : MReg) (u : Bool) (m : Mods) (d : VReg) (a : VSrc) (b : VSrc) (t : ElemT) (s : State) :
    exec (.vxor k u m d a b t) s = execVxor k u m d a b t s := rfl
theorem exec_vandn (k : MReg) (u : Bool) (m : Mods) (d : VReg) (a : VSrc) (b : VSrc) (t : ElemT) (s : State) :
    exec (.vandn k u m d a b t) s = execVandn k u m d a b t s := rfl
theorem exec_vnot (k : MReg) (u : Bool) (m : Mods) (d : VReg) (a : VSrc) (t : ElemT) (s : State) :
    exec (.vnot k u m d a t) s = execVnot k u m d a t s := rfl
theorem exec_vshl (k : MReg) (u : Bool) (m : Mods) (d : VReg) (a : VSrc) (b : VSrc) (t : ElemT) (s : State) :
    exec (.vshl k u m d a b t) s = execVshl k u m d a b t s := rfl
theorem exec_vshr (k : MReg) (u : Bool) (m : Mods) (d : VReg) (a : VSrc) (b : VSrc) (t : ElemT) (s : State) :
    exec (.vshr k u m d a b t) s = execVshr k u m d a b t s := rfl
theorem exec_vsar (k : MReg) (u : Bool) (m : Mods) (d : VReg) (a : VSrc) (b : VSrc) (t : ElemT) (s : State) :
    exec (.vsar k u m d a b t) s = execVsar k u m d a b t s := rfl
theorem exec_vrol (k : MReg) (u : Bool) (m : Mods) (d : VReg) (a : VSrc) (b : VSrc) (t : ElemT) (s : State) :
    exec (.vrol k u m d a b t) s = execVrol k u m d a b t s := rfl
theorem exec_vbfxs (k : MReg) (u : Bool) (m : Mods) (d : VReg) (a : VSrc) (b : VSrc) (t : ElemT) (s : State) :
    exec (.vbfxs k u m d a b t) s = execVbfxs k u m d a b t s := rfl
theorem exec_vbfxn (k : MReg) (u : Bool) (m : Mods) (d : VReg) (a : VSrc) (b : VSrc) (t : ElemT) (s : State) :
    exec (.vbfxn k u m d a b t) s = execVbfxn k u m d a b t s := rfl
theorem exec_vbfi (k : MReg) (u : Bool) (m : Mods) (d : VReg) (a : VSrc) (b : VSrc) (t : ElemT) (s : State) :
    exec (.vbfi k u m d a b t) s = execVbfi k u m d a b t s := rfl
theorem exec_vpopc (k : MReg) (u : Bool) (m : Mods) (d : VReg) (a : VSrc) (t : ElemT) (s : State) :
    exec (.vpopc k u m d a t) s = execVpopc k u m d a t s := rfl
theorem exec_vclz (k : MReg) (u : Bool) (m : Mods) (d : VReg) (a : VSrc) (t : ElemT) (s : State) :
    exec (.vclz k u m d a t) s = execVclz k u m d a t s := rfl
theorem exec_vfadd (k : MReg) (u : Bool) (m : Mods) (d : VReg) (a : VSrc) (b : VSrc) (t : ElemT) (s : State) :
    exec (.vfadd k u m d a b t) s = execVfadd k u m d a b t s := rfl
theorem exec_vfsub (k : MReg) (u : Bool) (m : Mods) (d : VReg) (a : VSrc) (b : VSrc) (t : ElemT) (s : State) :
    exec (.vfsub k u m d a b t) s = execVfsub k u m d a b t s := rfl
theorem exec_vfmul (k : MReg) (u : Bool) (m : Mods) (d : VReg) (a : VSrc) (b : VSrc) (t : ElemT) (s : State) :
    exec (.vfmul k u m d a b t) s = execVfmul k u m d a b t s := rfl
theorem exec_vffma (k : MReg) (u : Bool) (m : Mods) (d : VReg) (a : VSrc) (b : VSrc) (t : ElemT) (s : State) :
    exec (.vffma k u m d a b t) s = execVffma k u m d a b t s := rfl
theorem exec_vfmin (k : MReg) (u : Bool) (m : Mods) (d : VReg) (a : VSrc) (b : VSrc) (t : ElemT) (s : State) :
    exec (.vfmin k u m d a b t) s = execVfmin k u m d a b t s := rfl
theorem exec_vfmax (k : MReg) (u : Bool) (m : Mods) (d : VReg) (a : VSrc) (b : VSrc) (t : ElemT) (s : State) :
    exec (.vfmax k u m d a b t) s = execVfmax k u m d a b t s := rfl
theorem exec_vfabs (k : MReg) (u : Bool) (m : Mods) (d : VReg) (a : VSrc) (t : ElemT) (s : State) :
    exec (.vfabs k u m d a t) s = execVfabs k u m d a t s := rfl
theorem exec_vfneg (k : MReg) (u : Bool) (m : Mods) (d : VReg) (a : VSrc) (t : ElemT) (s : State) :
    exec (.vfneg k u m d a t) s = execVfneg k u m d a t s := rfl
theorem exec_vfcpsgn (k : MReg) (u : Bool) (m : Mods) (d : VReg) (a : VSrc) (b : VSrc) (t : ElemT) (s : State) :
    exec (.vfcpsgn k u m d a b t) s = execVfcpsgn k u m d a b t s := rfl
theorem exec_vfmaxabs (k : MReg) (u : Bool) (m : Mods) (d : VReg) (a : VSrc) (b : VSrc) (t : ElemT) (s : State) :
    exec (.vfmaxabs k u m d a b t) s = execVfmaxabs k u m d a b t s := rfl
theorem exec_vexp2 (k : MReg) (u : Bool) (m : Mods) (d : VReg) (a : VSrc) (t : ElemT) (s : State) :
    exec (.vexp2 k u m d a t) s = execVexp2 k u m d a t s := rfl
theorem exec_vlog2 (k : MReg) (u : Bool) (m : Mods) (d : VReg) (a : VSrc) (t : ElemT) (s : State) :
    exec (.vlog2 k u m d a t) s = execVlog2 k u m d a t s := rfl
theorem exec_vrcp (k : MReg) (u : Bool) (m : Mods) (d : VReg) (a : VSrc) (t : ElemT) (s : State) :
    exec (.vrcp k u m d a t) s = execVrcp k u m d a t s := rfl
theorem exec_vrsq (k : MReg) (u : Bool) (m : Mods) (d : VReg) (a : VSrc) (t : ElemT) (s : State) :
    exec (.vrsq k u m d a t) s = execVrsq k u m d a t s := rfl
theorem exec_vsqrt (k : MReg) (u : Bool) (m : Mods) (d : VReg) (a : VSrc) (t : ElemT) (s : State) :
    exec (.vsqrt k u m d a t) s = execVsqrt k u m d a t s := rfl
theorem exec_vtanh (k : MReg) (u : Bool) (m : Mods) (d : VReg) (a : VSrc) (t : ElemT) (s : State) :
    exec (.vtanh k u m d a t) s = execVtanh k u m d a t s := rfl
theorem exec_vsigm (k : MReg) (u : Bool) (m : Mods) (d : VReg) (a : VSrc) (t : ElemT) (s : State) :
    exec (.vsigm k u m d a t) s = execVsigm k u m d a t s := rfl
theorem exec_vcmpeq (k : MReg) (u : Bool) (tv : Bool) (n : MReg) (c : BitVec 2) (a : VSrc) (b : VSrc) (t : ElemT) (s : State) :
    exec (.vcmpeq k u tv n c a b t) s = execVcmpeq k u tv n c a b t s := rfl
theorem exec_vcmpne (k : MReg) (u : Bool) (tv : Bool) (n : MReg) (c : BitVec 2) (a : VSrc) (b : VSrc) (t : ElemT) (s : State) :
    exec (.vcmpne k u tv n c a b t) s = execVcmpne k u tv n c a b t s := rfl
theorem exec_vcmplt (k : MReg) (u : Bool) (tv : Bool) (n : MReg) (c : BitVec 2) (a : VSrc) (b : VSrc) (t : ElemT) (s : State) :
    exec (.vcmplt k u tv n c a b t) s = execVcmplt k u tv n c a b t s := rfl
theorem exec_vcmple (k : MReg) (u : Bool) (tv : Bool) (n : MReg) (c : BitVec 2) (a : VSrc) (b : VSrc) (t : ElemT) (s : State) :
    exec (.vcmple k u tv n c a b t) s = execVcmple k u tv n c a b t s := rfl
theorem exec_vcmpltn (k : MReg) (u : Bool) (tv : Bool) (n : MReg) (c : BitVec 2) (a : VSrc) (b : VSrc) (t : ElemT) (s : State) :
    exec (.vcmpltn k u tv n c a b t) s = execVcmpltn k u tv n c a b t s := rfl
theorem exec_vcmplen (k : MReg) (u : Bool) (tv : Bool) (n : MReg) (c : BitVec 2) (a : VSrc) (b : VSrc) (t : ElemT) (s : State) :
    exec (.vcmplen k u tv n c a b t) s = execVcmplen k u tv n c a b t s := rfl
theorem exec_vfcmpeq (k : MReg) (u : Bool) (tv : Bool) (n : MReg) (c : BitVec 2) (a : VSrc) (b : VSrc) (t : ElemT) (s : State) :
    exec (.vfcmpeq k u tv n c a b t) s = execVfcmpeq k u tv n c a b t s := rfl
theorem exec_vfcmplt (k : MReg) (u : Bool) (tv : Bool) (n : MReg) (c : BitVec 2) (a : VSrc) (b : VSrc) (t : ElemT) (s : State) :
    exec (.vfcmplt k u tv n c a b t) s = execVfcmplt k u tv n c a b t s := rfl
theorem exec_vfcmple (k : MReg) (u : Bool) (tv : Bool) (n : MReg) (c : BitVec 2) (a : VSrc) (b : VSrc) (t : ElemT) (s : State) :
    exec (.vfcmple k u tv n c a b t) s = execVfcmple k u tv n c a b t s := rfl
theorem exec_vfcmpun (k : MReg) (u : Bool) (tv : Bool) (n : MReg) (c : BitVec 2) (a : VSrc) (b : VSrc) (t : ElemT) (s : State) :
    exec (.vfcmpun k u tv n c a b t) s = execVfcmpun k u tv n c a b t s := rfl
theorem exec_mand (u : Bool) (tv : Bool) (d : MReg) (a : MReg) (b : MReg) (s : State) :
    exec (.mand u tv d a b) s = execMand u tv d a b s := rfl
theorem exec_mor (u : Bool) (tv : Bool) (d : MReg) (a : MReg) (b : MReg) (s : State) :
    exec (.mor u tv d a b) s = execMor u tv d a b s := rfl
theorem exec_mxor (u : Bool) (tv : Bool) (d : MReg) (a : MReg) (b : MReg) (s : State) :
    exec (.mxor u tv d a b) s = execMxor u tv d a b s := rfl
theorem exec_mandn (u : Bool) (tv : Bool) (d : MReg) (a : MReg) (b : MReg) (s : State) :
    exec (.mandn u tv d a b) s = execMandn u tv d a b s := rfl
theorem exec_mnot (u : Bool) (tv : Bool) (d : MReg) (a : MReg) (s : State) :
    exec (.mnot u tv d a) s = execMnot u tv d a s := rfl
theorem exec_mpop (k : MReg) (u : Bool) (tv : Bool) (d : BitVec 5) (a : MReg) (t : ElemT) (s : State) :
    exec (.mpop k u tv d a t) s = execMpop k u tv d a t s := rfl
theorem exec_mfirst (k : MReg) (u : Bool) (tv : Bool) (d : BitVec 5) (a : MReg) (t : ElemT) (s : State) :
    exec (.mfirst k u tv d a t) s = execMfirst k u tv d a t s := rfl
theorem exec_mfroms (u : Bool) (tv : Bool) (d : MReg) (a : VSrc) (t : ElemT) (s : State) :
    exec (.mfroms u tv d a t) s = execMfroms u tv d a t s := rfl
theorem exec_mlanes (u : Bool) (tv : Bool) (d : MReg) (a : VSrc) (t : ElemT) (s : State) :
    exec (.mlanes u tv d a t) s = execMlanes u tv d a t s := rfl
theorem exec_vperm (k : MReg) (u : Bool) (m : Mods) (d : VReg) (a : VSrc) (b : VSrc) (t : ElemT) (s : State) :
    exec (.vperm k u m d a b t) s = execVperm k u m d a b t s := rfl
theorem exec_vbcast (k : MReg) (u : Bool) (m : Mods) (d : VReg) (a : VSrc) (b : VSrc) (t : ElemT) (s : State) :
    exec (.vbcast k u m d a b t) s = execVbcast k u m d a b t s := rfl
theorem exec_vext (u : Bool) (tv : Bool) (d : BitVec 5) (a : VSrc) (b : VSrc) (t : ElemT) (s : State) :
    exec (.vext u tv d a b t) s = execVext u tv d a b t s := rfl
theorem exec_vins (k : MReg) (u : Bool) (m : Mods) (d : VReg) (a : VSrc) (b : VSrc) (t : ElemT) (s : State) :
    exec (.vins k u m d a b t) s = execVins k u m d a b t s := rfl
theorem exec_vcompress (k : MReg) (u : Bool) (m : Mods) (d : VReg) (a : VSrc) (b : BitVec 5) (t : ElemT) (s : State) :
    exec (.vcompress k u m d a b t) s = execVcompress k u m d a b t s := rfl
theorem exec_vexpand (k : MReg) (u : Bool) (m : Mods) (d : VReg) (a : VSrc) (t : ElemT) (s : State) :
    exec (.vexpand k u m d a t) s = execVexpand k u m d a t s := rfl
theorem exec_vslideup (k : MReg) (u : Bool) (m : Mods) (d : VReg) (a : VSrc) (b : VSrc) (t : ElemT) (s : State) :
    exec (.vslideup k u m d a b t) s = execVslideup k u m d a b t s := rfl
theorem exec_vslidedn (k : MReg) (u : Bool) (m : Mods) (d : VReg) (a : VSrc) (b : VSrc) (t : ElemT) (s : State) :
    exec (.vslidedn k u m d a b t) s = execVslidedn k u m d a b t s := rfl
theorem exec_vzipl (k : MReg) (u : Bool) (m : Mods) (d : VReg) (a : VSrc) (b : VSrc) (t : ElemT) (s : State) :
    exec (.vzipl k u m d a b t) s = execVzipl k u m d a b t s := rfl
theorem exec_vziph (k : MReg) (u : Bool) (m : Mods) (d : VReg) (a : VSrc) (b : VSrc) (t : ElemT) (s : State) :
    exec (.vziph k u m d a b t) s = execVziph k u m d a b t s := rfl
theorem exec_vunzipe (k : MReg) (u : Bool) (m : Mods) (d : VReg) (a : VSrc) (b : VSrc) (t : ElemT) (s : State) :
    exec (.vunzipe k u m d a b t) s = execVunzipe k u m d a b t s := rfl
theorem exec_vunzipo (k : MReg) (u : Bool) (m : Mods) (d : VReg) (a : VSrc) (b : VSrc) (t : ElemT) (s : State) :
    exec (.vunzipo k u m d a b t) s = execVunzipo k u m d a b t s := rfl
theorem exec_viota (k : MReg) (u : Bool) (m : Mods) (d : VReg) (t : ElemT) (s : State) :
    exec (.viota k u m d t) s = execViota k u m d t s := rfl
theorem exec_vrev (k : MReg) (u : Bool) (m : Mods) (d : VReg) (a : VSrc) (t : ElemT) (s : State) :
    exec (.vrev k u m d a t) s = execVrev k u m d a t s := rfl
theorem exec_vredadd (k : MReg) (u : Bool) (m : Mods) (d : VReg) (a : VSrc) (t : ElemT) (s : State) :
    exec (.vredadd k u m d a t) s = execVredadd k u m d a t s := rfl
theorem exec_vredmin (k : MReg) (u : Bool) (m : Mods) (d : VReg) (a : VSrc) (t : ElemT) (s : State) :
    exec (.vredmin k u m d a t) s = execVredmin k u m d a t s := rfl
theorem exec_vredmax (k : MReg) (u : Bool) (m : Mods) (d : VReg) (a : VSrc) (t : ElemT) (s : State) :
    exec (.vredmax k u m d a t) s = execVredmax k u m d a t s := rfl
theorem exec_vredminn (k : MReg) (u : Bool) (m : Mods) (d : VReg) (a : VSrc) (t : ElemT) (s : State) :
    exec (.vredminn k u m d a t) s = execVredminn k u m d a t s := rfl
theorem exec_vredmaxn (k : MReg) (u : Bool) (m : Mods) (d : VReg) (a : VSrc) (t : ElemT) (s : State) :
    exec (.vredmaxn k u m d a t) s = execVredmaxn k u m d a t s := rfl
theorem exec_vfredadd (k : MReg) (u : Bool) (m : Mods) (d : VReg) (a : VSrc) (t : ElemT) (s : State) :
    exec (.vfredadd k u m d a t) s = execVfredadd k u m d a t s := rfl
theorem exec_vfredmin (k : MReg) (u : Bool) (m : Mods) (d : VReg) (a : VSrc) (t : ElemT) (s : State) :
    exec (.vfredmin k u m d a t) s = execVfredmin k u m d a t s := rfl
theorem exec_vfredmax (k : MReg) (u : Bool) (m : Mods) (d : VReg) (a : VSrc) (t : ElemT) (s : State) :
    exec (.vfredmax k u m d a t) s = execVfredmax k u m d a t s := rfl
theorem exec_vcvt (k : MReg) (u : Bool) (m : Mods) (d : VReg) (a : VSrc) (p : BitVec 2) (t : ElemT) (e : ElemT) (s : State) :
    exec (.vcvt k u m d a p t e) s = execVcvt k u m d a p t e s := rfl
theorem exec_vcvtsr (k : MReg) (u : Bool) (m : Mods) (d : VReg) (a : VSrc) (p : BitVec 2) (t : ElemT) (e : ElemT) (s : State) :
    exec (.vcvtsr k u m d a p t e) s = execVcvtsr k u m d a p t e s := rfl
theorem exec_vqmx8 (k : MReg) (u : Bool) (m : Mods) (d : VReg) (a : VSrc) (b : BitVec 5) (s : State) :
    exec (.vqmx8 k u m d a b) s = execVqmx8 k u m d a b s := rfl
theorem exec_vqmx6 (k : MReg) (u : Bool) (m : Mods) (d : VReg) (a : VSrc) (b : BitVec 5) (s : State) :
    exec (.vqmx6 k u m d a b) s = execVqmx6 k u m d a b s := rfl
theorem exec_vqmx4 (k : MReg) (u : Bool) (m : Mods) (d : VReg) (a : VSrc) (b : BitVec 5) (s : State) :
    exec (.vqmx4 k u m d a b) s = execVqmx4 k u m d a b s := rfl
theorem exec_vdqmx8 (k : MReg) (u : Bool) (m : Mods) (d : VReg) (a : VSrc) (b : VSrc) (s : State) :
    exec (.vdqmx8 k u m d a b) s = execVdqmx8 k u m d a b s := rfl
theorem exec_vdqmx6 (k : MReg) (u : Bool) (m : Mods) (d : VReg) (a : VSrc) (b : VSrc) (s : State) :
    exec (.vdqmx6 k u m d a b) s = execVdqmx6 k u m d a b s := rfl
theorem exec_vdqmx4 (k : MReg) (u : Bool) (m : Mods) (d : VReg) (a : VSrc) (b : VSrc) (s : State) :
    exec (.vdqmx4 k u m d a b) s = execVdqmx4 k u m d a b s := rfl
theorem exec_vqmx8sr (k : MReg) (u : Bool) (m : Mods) (d : VReg) (a : VSrc) (b : BitVec 5) (s : State) :
    exec (.vqmx8sr k u m d a b) s = execVqmx8sr k u m d a b s := rfl
theorem exec_vqmx6sr (k : MReg) (u : Bool) (m : Mods) (d : VReg) (a : VSrc) (b : BitVec 5) (s : State) :
    exec (.vqmx6sr k u m d a b) s = execVqmx6sr k u m d a b s := rfl
theorem exec_vqmx4sr (k : MReg) (u : Bool) (m : Mods) (d : VReg) (a : VSrc) (b : BitVec 5) (s : State) :
    exec (.vqmx4sr k u m d a b) s = execVqmx4sr k u m d a b s := rfl
theorem exec_vld (k : MReg) (port : Bool) (d : VReg) (base : Src) (s : State) :
    exec (.vld k port d base) s = execVld k port d base s := rfl
theorem exec_vldStrided (k : MReg) (port : Bool) (d : VReg) (base : Src) (stride : Src) (s : State) :
    exec (.vldStrided k port d base stride) s = execVldStrided k port d base stride s := rfl
theorem exec_vldGather (k : MReg) (port : Bool) (d : VReg) (base : Src) (idx : VSrc) (s : State) :
    exec (.vldGather k port d base idx) s = execVldGather k port d base idx s := rfl
theorem exec_vldStrided16 (k : MReg) (port : Bool) (d : VReg) (base : Src) (stride : Src) (s : State) :
    exec (.vldStrided16 k port d base stride) s = execVldStrided16 k port d base stride s := rfl
theorem exec_vst (k : MReg) (glob : Bool) (d : VReg) (base : Src) (line : BitVec 3) (s : State) :
    exec (.vst k glob d base line) s = execVst k glob d base line s := rfl
theorem exec_vstStrided (k : MReg) (glob : Bool) (d : VReg) (base : Src) (stride : Src) (line : BitVec 3) (s : State) :
    exec (.vstStrided k glob d base stride line) s = execVstStrided k glob d base stride line s := rfl
theorem exec_vstScatter (k : MReg) (glob : Bool) (d : VReg) (base : Src) (idx : VSrc) (line : BitVec 3) (s : State) :
    exec (.vstScatter k glob d base idx line) s = execVstScatter k glob d base idx line s := rfl
theorem exec_vstStrided16 (k : MReg) (glob : Bool) (d : VReg) (base : Src) (stride : Src) (line : BitVec 3) (s : State) :
    exec (.vstStrided16 k glob d base stride line) s = execVstStrided16 k glob d base stride line s := rfl
theorem exec_vmov (k : MReg) (u : Bool) (m : Mods) (d : VReg) (a : VSrc) (t : ElemT) (s : State) :
    exec (.vmov k u m d a t) s = execVmov k u m d a t s := rfl
theorem exec_vsel (k : MReg) (u : Bool) (m : Mods) (d : VReg) (a : VSrc) (b : VSrc) (t : ElemT) (s : State) :
    exec (.vsel k u m d a b t) s = execVsel k u m d a b t s := rfl
theorem exec_vsplati (k : MReg) (u : Bool) (m : Mods) (d : VReg) (imm : BitVec 17) (t : ElemT) (s : State) :
    exec (.vsplati k u m d imm t) s = execVsplati k u m d imm t s := rfl
theorem exec_vnoise (k : MReg) (u : Bool) (m : Mods) (d : VReg) (t : ElemT) (s : State) :
    exec (.vnoise k u m d t) s = execVnoise k u m d t s := rfl
theorem exec_vdot4 (k : MReg) (u : Bool) (m : Mods) (d : VReg) (a : VSrc) (b : VSrc) (s : State) :
    exec (.vdot4 k u m d a b) s = execVdot4 k u m d a b s := rfl
theorem exec_vdot4n (k : MReg) (u : Bool) (m : Mods) (d : VReg) (a : VSrc) (b : VSrc) (s : State) :
    exec (.vdot4n k u m d a b) s = execVdot4n k u m d a b s := rfl
theorem exec_vdot2 (k : MReg) (u : Bool) (m : Mods) (d : VReg) (a : VSrc) (b : VSrc) (s : State) :
    exec (.vdot2 k u m d a b) s = execVdot2 k u m d a b s := rfl
theorem exec_vdot2h (k : MReg) (u : Bool) (m : Mods) (d : VReg) (a : VSrc) (b : VSrc) (s : State) :
    exec (.vdot2h k u m d a b) s = execVdot2h k u m d a b s := rfl
theorem exec_cmma (g : Guard) (a : SReg) (b : SReg) (hb : Bool) (ha : Bool) (z : Bool) (s : State) :
    exec (.cmma g a b hb ha z) s = execCmma g a b hb ha z s := rfl
theorem exec_cmmaMsk (g : Guard) (a : SReg) (b : SReg) (c : SReg) (hb : Bool) (ha : Bool) (z : Bool) (s : State) :
    exec (.cmmaMsk g a b c hb ha z) s = execCmmaMsk g a b c hb ha z s := rfl
theorem exec_crotH32 (g : Guard) (a : SReg) (s : State) :
    exec (.crotH32 g a) s = execCrotH32 g a s := rfl
theorem exec_crotH64 (g : Guard) (a : SReg) (s : State) :
    exec (.crotH64 g a) s = execCrotH64 g a s := rfl
theorem exec_cdrain (g : Guard) (a : SReg) (b : SReg) (c : SReg) (s : State) :
    exec (.cdrain g a b c) s = execCdrain g a b c s := rfl
theorem exec_cdrainP (g : Guard) (a : SReg) (b : SReg) (c : SReg) (s : State) :
    exec (.cdrainP g a b c) s = execCdrainP g a b c s := rfl
theorem exec_caccZero (g : Guard) (a : SReg) (c : SReg) (s : State) :
    exec (.caccZero g a c) s = execCaccZero g a c s := rfl
theorem exec_caccLd (g : Guard) (a : SReg) (b : SReg) (c : SReg) (s : State) :
    exec (.caccLd g a b c) s = execCaccLd g a b c s := rfl
theorem exec_caccSt (g : Guard) (a : SReg) (b : SReg) (c : SReg) (s : State) :
    exec (.caccSt g a b c) s = execCaccSt g a b c s := rfl
theorem exec_caccMove (g : Guard) (a : SReg) (b : SReg) (c : SReg) (s : State) :
    exec (.caccMove g a b c) s = execCaccMove g a b c s := rfl
theorem exec_csplDef (g : Guard) (a : SReg) (b : SReg) (c : SReg) (s : State) :
    exec (.csplDef g a b c) s = execCsplDef g a b c s := rfl
theorem exec_csplAdvp (g : Guard) (a : SReg) (b : SReg) (s : State) :
    exec (.csplAdvp g a b) s = execCsplAdvp g a b s := rfl
theorem exec_csplAdvc (g : Guard) (a : SReg) (b : SReg) (s : State) :
    exec (.csplAdvc g a b) s = execCsplAdvc g a b s := rfl
theorem exec_csplRdp (g : Guard) (a : SReg) (b : SReg) (s : State) :
    exec (.csplRdp g a b) s = execCsplRdp g a b s := rfl
theorem exec_csplReset (g : Guard) (a : SReg) (s : State) :
    exec (.csplReset g a) s = execCsplReset g a s := rfl
theorem exec_cpalSet (g : Guard) (a : SReg) (b : SReg) (s : State) :
    exec (.cpalSet g a b) s = execCpalSet g a b s := rfl
theorem exec_cpalGet (g : Guard) (a : SReg) (b : SReg) (s : State) :
    exec (.cpalGet g a b) s = execCpalGet g a b s := rfl
theorem exec_csyncJoin (g : Guard) (a : SReg) (b : SReg) (c : SReg) (s : State) :
    exec (.csyncJoin g a b c) s = execCsyncJoin g a b c s := rfl
theorem exec_csyncStat (g : Guard) (a : SReg) (s : State) :
    exec (.csyncStat g a) s = execCsyncStat g a s := rfl
theorem exec_csyncSkew (g : Guard) (a : SReg) (s : State) :
    exec (.csyncSkew g a) s = execCsyncSkew g a s := rfl
theorem exec_crcpDef (g : Guard) (a : SReg) (b : SReg) (c : SReg) (s : State) :
    exec (.crcpDef g a b c) s = execCrcpDef g a b c s := rfl
theorem exec_crcpGet (g : Guard) (a : SReg) (b : SReg) (s : State) :
    exec (.crcpGet g a b) s = execCrcpGet g a b s := rfl
theorem exec_cpyLin (g : Guard) (a : SReg) (b : SReg) (c : SReg) (q : Bool) (s : State) :
    exec (.cpyLin g a b c q) s = execCpyLin g a b c q s := rfl
theorem exec_cpyTwod (g : Guard) (a : SReg) (b : SReg) (c : SReg) (q : Bool) (s : State) :
    exec (.cpyTwod g a b c q) s = execCpyTwod g a b c q s := rfl
theorem exec_cpyThreed (g : Guard) (a : SReg) (b : SReg) (c : SReg) (q : Bool) (s : State) :
    exec (.cpyThreed g a b c q) s = execCpyThreed g a b c q s := rfl
theorem exec_cpyFill (g : Guard) (a : SReg) (b : SReg) (c : SReg) (q : Bool) (s : State) :
    exec (.cpyFill g a b c q) s = execCpyFill g a b c q s := rfl
theorem exec_cpyLsplit (g : Guard) (a : SReg) (b : SReg) (c : SReg) (q : Bool) (s : State) :
    exec (.cpyLsplit g a b c q) s = execCpyLsplit g a b c q s := rfl
theorem exec_cpyLgath (g : Guard) (a : SReg) (b : SReg) (c : SReg) (q : Bool) (s : State) :
    exec (.cpyLgath g a b c q) s = execCpyLgath g a b c q s := rfl
theorem exec_cpyMcast (g : Guard) (a : SReg) (b : SReg) (c : SReg) (q : Bool) (s : State) :
    exec (.cpyMcast g a b c q) s = execCpyMcast g a b c q s := rfl
theorem exec_cpyPfetch (g : Guard) (a : SReg) (b : SReg) (c : SReg) (q : Bool) (s : State) :
    exec (.cpyPfetch g a b c q) s = execCpyPfetch g a b c q s := rfl
theorem exec_cgthGather (g : Guard) (a : SReg) (b : SReg) (c : SReg) (q : Bool) (s : State) :
    exec (.cgthGather g a b c q) s = execCgthGather g a b c q s := rfl
theorem exec_cgthScatter (g : Guard) (a : SReg) (b : SReg) (c : SReg) (q : Bool) (s : State) :
    exec (.cgthScatter g a b c q) s = execCgthScatter g a b c q s := rfl
theorem exec_cgthGatheradd (g : Guard) (a : SReg) (b : SReg) (c : SReg) (q : Bool) (s : State) :
    exec (.cgthGatheradd g a b c q) s = execCgthGatheradd g a b c q s := rfl
theorem exec_credAddf32 (g : Guard) (a : SReg) (b : SReg) (c : SReg) (q : Bool) (s : State) :
    exec (.credAddf32 g a b c q) s = execCredAddf32 g a b c q s := rfl
theorem exec_credAddbf16 (g : Guard) (a : SReg) (b : SReg) (c : SReg) (q : Bool) (s : State) :
    exec (.credAddbf16 g a b c q) s = execCredAddbf16 g a b c q s := rfl
theorem exec_credMaxf32 (g : Guard) (a : SReg) (b : SReg) (c : SReg) (q : Bool) (s : State) :
    exec (.credMaxf32 g a b c q) s = execCredMaxf32 g a b c q s := rfl
theorem exec_credAddi32 (g : Guard) (a : SReg) (b : SReg) (c : SReg) (q : Bool) (s : State) :
    exec (.credAddi32 g a b c q) s = execCredAddi32 g a b c q s := rfl
theorem exec_blkAlloc (g : Guard) (a : SReg) (b : SReg) (c : SReg) (s : State) :
    exec (.blkAlloc g a b c) s = execBlkAlloc g a b c s := rfl
theorem exec_blkFree (g : Guard) (a : SReg) (b : SReg) (c : SReg) (s : State) :
    exec (.blkFree g a b c) s = execBlkFree g a b c s := rfl
theorem exec_blkShare (g : Guard) (a : SReg) (b : SReg) (c : SReg) (s : State) :
    exec (.blkShare g a b c) s = execBlkShare g a b c s := rfl
theorem exec_blkXlate (g : Guard) (a : SReg) (b : SReg) (c : SReg) (s : State) :
    exec (.blkXlate g a b c) s = execBlkXlate g a b c s := rfl
theorem exec_blkFetch (g : Guard) (a : SReg) (b : SReg) (c : SReg) (s : State) :
    exec (.blkFetch g a b c) s = execBlkFetch g a b c s := rfl
theorem exec_blkAppend (g : Guard) (a : SReg) (b : SReg) (c : SReg) (s : State) :
    exec (.blkAppend g a b c) s = execBlkAppend g a b c s := rfl
theorem exec_blkStat (g : Guard) (a : SReg) (b : SReg) (c : SReg) (s : State) :
    exec (.blkStat g a b c) s = execBlkStat g a b c s := rfl
theorem exec_emptyBundle (c : CubeId) (s : State) :
    exec (.emptyBundle c) s = execEmptyBundle c s := rfl
theorem exec_exposedResultLands (c : CubeId) (k : Nat) (vote : BitVec 2) (s : State) :
    exec (.exposedResultLands c k vote) s = execExposedResultLands c k vote s := rfl
theorem exec_interlockedResultArrives (r : Nat) (vote : BitVec 2) (s : State) :
    exec (.interlockedResultArrives r vote) s = execInterlockedResultArrives r vote s := rfl
theorem exec_icacheMissFill (c : CubeId) (s : State) :
    exec (.icacheMissFill c) s = execIcacheMissFill c s := rfl
theorem exec_noiseWordAppend (c : CubeId) (s : State) :
    exec (.noiseWordAppend c) s = execNoiseWordAppend c s := rfl
theorem exec_trapEntry (c : CubeId) (s : State) :
    exec (.trapEntry c) s = execTrapEntry c s := rfl
theorem exec_watchdog (c : CubeId) (s : State) :
    exec (.watchdog c) s = execWatchdog c s := rfl
theorem exec_preemption (c : CubeId) (s : State) :
    exec (.preemption c) s = execPreemption c s := rfl
theorem exec_switchIn (c : CubeId) (s : State) :
    exec (.switchIn c) s = execSwitchIn c s := rfl
theorem exec_quantumExpiry (c : CubeId) (s : State) :
    exec (.quantumExpiry c) s = execQuantumExpiry c s := rfl
theorem exec_noiseSeedaWrite (c : CubeId) (v : Word) (s : State) :
    exec (.noiseSeedaWrite c v) s = execNoiseSeedaWrite c v s := rfl
theorem exec_noiseSeedbWrite (c : CubeId) (v : Word) (s : State) :
    exec (.noiseSeedbWrite c v) s = execNoiseSeedbWrite c v s := rfl
theorem exec_noiseModeWrite (c : CubeId) (v : Word) (s : State) :
    exec (.noiseModeWrite c v) s = execNoiseModeWrite c v s := rfl
theorem exec_seqLinesRepair (c : CubeId) (v : Word) (s : State) :
    exec (.seqLinesRepair c v) s = execSeqLinesRepair c v s := rfl
theorem exec_schEndWrite (c : CubeId) (v : Word) (s : State) :
    exec (.schEndWrite c v) s = execSchEndWrite c v s := rfl
theorem exec_shelfWindowWrite (c : CubeId) (shelf : ShelfId) (off : Nat) (size : Nat) (v : Word) (s : State) :
    exec (.shelfWindowWrite c shelf off size v) s = execShelfWindowWrite c shelf off size v s := rfl
theorem exec_sysregWindowWrite (c : CubeId) (n : BitVec 12) (v : Word) (secure : Bool) (s : State) :
    exec (.sysregWindowWrite c n v secure) s = execSysregWindowWrite c n v secure s := rfl
theorem exec_fabMigreqRead (c : CubeId) (s : State) :
    exec (.fabMigreqRead c) s = execFabMigreqRead c s := rfl
theorem exec_homeWriteArrives (id : Nat) (s : State) :
    exec (.homeWriteArrives id) s = execHomeWriteArrives id s := rfl
theorem exec_lineItemCommit (id : Nat) (s : State) :
    exec (.lineItemCommit id) s = execLineItemCommit id s := rfl
theorem exec_homeRead (r : ReadServe) (s : State) :
    exec (.homeRead r) s = execHomeRead r s := rfl
theorem exec_homeAtomic (id : Nat) (s : State) :
    exec (.homeAtomic id) s = execHomeAtomic id s := rfl
theorem exec_homeCounterOp (id : Nat) (s : State) :
    exec (.homeCounterOp id) s = execHomeCounterOp id s := rfl
theorem exec_sharerUpdate (k : Nat) (s : State) :
    exec (.sharerUpdate k) s = execSharerUpdate k s := rfl
theorem exec_sharerInvalidate (k : Nat) (s : State) :
    exec (.sharerInvalidate k) s = execSharerInvalidate k s := rfl
theorem exec_writeAckArrives (id : Nat) (s : State) :
    exec (.writeAckArrives id) s = execWriteAckArrives id s := rfl
theorem exec_releaseSend (id : Nat) (s : State) :
    exec (.releaseSend id) s = execReleaseSend id s := rfl
theorem exec_ackTimeoutExpiry (acc : LostAccess) (s : State) :
    exec (.ackTimeoutExpiry acc) s = execAckTimeoutExpiry acc s := rfl
theorem exec_cwaitReadReturn (c : CubeId) (s : State) :
    exec (.cwaitReadReturn c) s = execCwaitReadReturn c s := rfl
theorem exec_monitorNotify (c : CubeId) (addr : Nat) (s : State) :
    exec (.monitorNotify c addr) s = execMonitorNotify c addr s := rfl
theorem exec_monitorPoll (c : CubeId) (shelf : ShelfId) (s : State) :
    exec (.monitorPoll c shelf) s = execMonitorPoll c shelf s := rfl
theorem exec_cwaitSpinReread (c : CubeId) (s : State) :
    exec (.cwaitSpinReread c) s = execCwaitSpinReread c s := rfl
theorem exec_walkStart (k : Nat) (s : State) :
    exec (.walkStart k) s = execWalkStart k s := rfl
theorem exec_walkComplete (k : Nat) (bad : Bool) (s : State) :
    exec (.walkComplete k bad) s = execWalkComplete k bad s := rfl
theorem exec_tlbiComplete (id : Nat) (s : State) :
    exec (.tlbiComplete id) s = execTlbiComplete id s := rfl
theorem exec_launchPacketArrival (bridge : Bool) (pkt : BitVec 512) (s : State) :
    exec (.launchPacketArrival bridge pkt) s = execLaunchPacketArrival bridge pkt s := rfl
theorem exec_peerLaunchPacket (path : PeerPath) (pkt : BitVec 512) (s : State) :
    exec (.peerLaunchPacket path pkt) s = execPeerLaunchPacket path pkt s := rfl
theorem exec_imageHeaderRead (slot : BitVec 8) (s : State) :
    exec (.imageHeaderRead slot) s = execImageHeaderRead slot s := rfl
theorem exec_batchHandoff (slot : BitVec 8) (c : CubeId) (s : State) :
    exec (.batchHandoff slot c) s = execBatchHandoff slot c s := rfl
theorem exec_schPartWrite (part : BitVec 3) (v : Word) (s : State) :
    exec (.schPartWrite part v) s = execSchPartWrite part v s := rfl
theorem exec_taskAdmission (c : CubeId) (s : State) :
    exec (.taskAdmission c) s = execTaskAdmission c s := rfl
theorem exec_taskStart (c : CubeId) (shelf : ShelfId) (s : State) :
    exec (.taskStart c shelf) s = execTaskStart c shelf s := rfl
theorem exec_evictionStart (c : CubeId) (shelf : ShelfId) (s : State) :
    exec (.evictionStart c shelf) s = execEvictionStart c shelf s := rfl
theorem exec_evictionComplete (c : CubeId) (shelf : ShelfId) (s : State) :
    exec (.evictionComplete c shelf) s = execEvictionComplete c shelf s := rfl
theorem exec_readmission (k : Nat) (c : CubeId) (s : State) :
    exec (.readmission k c) s = execReadmission k c s := rfl
theorem exec_migration (c : CubeId) (shelf : ShelfId) (s : State) :
    exec (.migration c shelf) s = execMigration c shelf s := rfl
theorem exec_haltComplete (c : CubeId) (shelf : ShelfId) (s : State) :
    exec (.haltComplete c shelf) s = execHaltComplete c shelf s := rfl
theorem exec_strandEndError (c : CubeId) (shelf : ShelfId) (cause : BitVec 8) (s : State) :
    exec (.strandEndError c shelf cause) s = execStrandEndError c shelf cause s := rfl
theorem exec_atelierTakeover (s : State) :
    exec .atelierTakeover s = execAtelierTakeover s := rfl
theorem exec_copyCmdStart (c : CubeId) (id : Nat) (s : State) :
    exec (.copyCmdStart c id) s = execCopyCmdStart c id s := rfl
theorem exec_spoolEntryLanded (c : CubeId) (id : Nat) (s : State) :
    exec (.spoolEntryLanded c id) s = execSpoolEntryLanded c id s := rfl
theorem exec_copyCmdComplete (c : CubeId) (id : Nat) (s : State) :
    exec (.copyCmdComplete c id) s = execCopyCmdComplete c id s := rfl
theorem exec_completionAddSend (c : CubeId) (id : Nat) (s : State) :
    exec (.completionAddSend c id) s = execCompletionAddSend c id s := rfl
theorem exec_cubeCmdStart (c : CubeId) (id : Nat) (s : State) :
    exec (.cubeCmdStart c id) s = execCubeCmdStart c id s := rfl
theorem exec_cubeCmdComplete (c : CubeId) (id : Nat) (s : State) :
    exec (.cubeCmdComplete c id) s = execCubeCmdComplete c id s := rfl
theorem exec_joinPointComplete (c : CubeId) (id : Nat) (s : State) :
    exec (.joinPointComplete c id) s = execJoinPointComplete c id s := rfl
theorem exec_cubSkewWrite (c : CubeId) (v : Word) (s : State) :
    exec (.cubSkewWrite c v) s = execCubSkewWrite c v s := rfl
theorem exec_cubSkewApply (c : CubeId) (s : State) :
    exec (.cubSkewApply c) s = execCubSkewApply c s := rfl
theorem exec_drainStart (c : CubeId) (id : Nat) (s : State) :
    exec (.drainStart c id) s = execDrainStart c id s := rfl
theorem exec_drainComplete (c : CubeId) (id : Nat) (s : State) :
    exec (.drainComplete c id) s = execDrainComplete c id s := rfl
theorem exec_blkCmdPerform (c : CubeId) (id : Nat) (s : State) :
    exec (.blkCmdPerform c id) s = execBlkCmdPerform c id s := rfl
theorem exec_blkCmdComplete (c : CubeId) (id : Nat) (s : State) :
    exec (.blkCmdComplete c id) s = execBlkCmdComplete c id s := rfl
theorem exec_blkEnable (c : CubeId) (s : State) :
    exec (.blkEnable c) s = execBlkEnable c s := rfl
theorem exec_blkDisable (c : CubeId) (s : State) :
    exec (.blkDisable c) s = execBlkDisable c s := rfl
theorem exec_blkReady (c : CubeId) (s : State) :
    exec (.blkReady c) s = execBlkReady c s := rfl
theorem exec_incomingPeerRequest (peer : BitVec 10) (kind : Nat) (dpa : Nat) (msg : PeerMsg) (s : State) :
    exec (.incomingPeerRequest peer kind dpa msg) s = execIncomingPeerRequest peer kind dpa msg s := rfl
theorem exec_reductionPacketArrival (peer : BitVec 10) (pid : Word) (addr : Nat) (op : BitVec 4) (count : Nat) (v : Word) (s : State) :
    exec (.reductionPacketArrival peer pid addr op count v) s = execReductionPacketArrival peer pid addr op count v s := rfl
theorem exec_flitReplay (port : Fin 71) (s : State) :
    exec (.flitReplay port) s = execFlitReplay port s := rfl
theorem exec_replayWarning (port : Fin 71) (s : State) :
    exec (.replayWarning port) s = execReplayWarning port s := rfl
theorem exec_portRetrain (port : Fin 71) (lanes : Nat) (ok : Bool) (s : State) :
    exec (.portRetrain port lanes ok) s = execPortRetrain port lanes ok s := rfl
theorem exec_portDown (port : Fin 71) (s : State) :
    exec (.portDown port) s = execPortDown port s := rfl
theorem exec_fabDeadWrite (k : BitVec 4) (v : Word) (s : State) :
    exec (.fabDeadWrite k v) s = execFabDeadWrite k v s := rfl
theorem exec_resetHandshakeReply (peer : BitVec 10) (s : State) :
    exec (.resetHandshakeReply peer) s = execResetHandshakeReply peer s := rfl
theorem exec_resetHandshakeTimeout (peer : BitVec 10) (s : State) :
    exec (.resetHandshakeTimeout peer) s = execResetHandshakeTimeout peer s := rfl
theorem exec_scrubLine (c : CubeId) (store : BitVec 3) (outcome : BitVec 2) (bit : Nat) (s : State) :
    exec (.scrubLine c store outcome bit) s = execScrubLine c store outcome bit s := rfl
theorem exec_conCelogRead (c : CubeId) (s : State) :
    exec (.conCelogRead c) s = execConCelogRead c s := rfl
theorem exec_conUelogRead (c : CubeId) (s : State) :
    exec (.conUelogRead c) s = execConUelogRead c s := rfl
theorem exec_conInjctlWrite (c : CubeId) (v : Word) (s : State) :
    exec (.conInjctlWrite c v) s = execConInjctlWrite c v s := rfl
theorem exec_conInjaddrWrite (c : CubeId) (v : Word) (s : State) :
    exec (.conInjaddrWrite c v) s = execConInjaddrWrite c v s := rfl
theorem exec_selfTestStart (c : CubeId) (cls : Fin 29) (s : State) :
    exec (.selfTestStart c cls) s = execSelfTestStart c cls s := rfl
theorem exec_selfTestResult (c : CubeId) (cls : Fin 29) (bad : Bool) (s : State) :
    exec (.selfTestResult c cls bad) s = execSelfTestResult c cls bad s := rfl
theorem exec_conRetireFence (c : CubeId) (s : State) :
    exec (.conRetireFence c) s = execConRetireFence c s := rfl
theorem exec_conRetireEvacuate (c : CubeId) (s : State) :
    exec (.conRetireEvacuate c) s = execConRetireEvacuate c s := rfl
theorem exec_evacGranuleCopied (c : CubeId) (s : State) :
    exec (.evacGranuleCopied c) s = execEvacGranuleCopied c s := rfl
theorem exec_conRetireFinish (c : CubeId) (s : State) :
    exec (.conRetireFinish c) s = execConRetireFinish c s := rfl
theorem exec_limiterPeriod (c : CubeId) (estimates : List Nat) (s : State) :
    exec (.limiterPeriod c estimates) s = execLimiterPeriod c estimates s := rfl
theorem exec_layerGate (c : CubeId) (l : Fin 8) (s : State) :
    exec (.layerGate c l) s = execLayerGate c l s := rfl
theorem exec_layerRampDone (c : CubeId) (l : Fin 8) (s : State) :
    exec (.layerRampDone c l) s = execLayerRampDone c l s := rfl
theorem exec_thermalSample (c : CubeId) (temps : Temps) (s : State) :
    exec (.thermalSample c temps) s = execThermalSample c temps s := rfl
theorem exec_thermalStepRaise (c : CubeId) (l : Fin 8) (s : State) :
    exec (.thermalStepRaise c l) s = execThermalStepRaise c l s := rfl
theorem exec_thermalStepLower (c : CubeId) (l : Fin 8) (s : State) :
    exec (.thermalStepLower c l) s = execThermalStepLower c l s := rfl
theorem exec_migrationRequest (c : CubeId) (l : Fin 8) (s : State) :
    exec (.migrationRequest c l) s = execMigrationRequest c l s := rfl
theorem exec_capBroadcast (bytes : List Byte) (s : State) :
    exec (.capBroadcast bytes) s = execCapBroadcast bytes s := rfl
theorem exec_governorPeriod (powers : List Nat) (s : State) :
    exec (.governorPeriod powers) s = execGovernorPeriod powers s := rfl
theorem exec_railOutOfRange (mv : Nat) (s : State) :
    exec (.railOutOfRange mv) s = execRailOutOfRange mv s := rfl
theorem exec_railPowerDown (s : State) :
    exec .railPowerDown s = execRailPowerDown s := rfl
theorem exec_bridgeTripPowerDown (heat : BridgeHeat) (s : State) :
    exec (.bridgeTripPowerDown heat) s = execBridgeTripPowerDown heat s := rfl
theorem exec_packageReset (flash : FlashSlots) (s : State) :
    exec (.packageReset flash) s = execPackageReset flash s := rfl
theorem exec_gessoBootTests (b : BootStep) (s : State) :
    exec (.gessoBootTests b) s = execGessoBootTests b s := rfl
theorem exec_studioFirmwareStart (image : FirmwareImage) (rt : CodeBounds) (sec : CodeBounds) (handlers : HandlerEntries) (s : State) :
    exec (.studioFirmwareStart image rt sec handlers) s = execStudioFirmwareStart image rt sec handlers s := rfl
theorem exec_hostBar2Access (op : HostOp) (off : Nat) (size : Nat) (v : Word) (s : State) :
    exec (.hostBar2Access op off size v) s = execHostBar2Access op off size v s := rfl
theorem exec_hdmDecoderCommit (place : DecoderPlace) (base : Nat) (len : Nat) (il : Interleave) (s : State) :
    exec (.hdmDecoderCommit place base len il) s = execHdmDecoderCommit place base len il s := rfl
theorem exec_attestationRequest (nonce : Word) (s : State) :
    exec (.attestationRequest nonce) s = execAttestationRequest nonce s := rfl
theorem exec_secDbgHalt (c : CubeId) (s : State) :
    exec (.secDbgHalt c) s = execSecDbgHalt c s := rfl
theorem exec_secDbgResume (c : CubeId) (s : State) :
    exec (.secDbgResume c) s = execSecDbgResume c s := rfl
theorem exec_ckptGo (v : Word) (s : State) :
    exec (.ckptGo v) s = execCkptGo v s := rfl
theorem exec_ckptComplete (ok : Bool) (s : State) :
    exec (.ckptComplete ok) s = execCkptComplete ok s := rfl
theorem exec_hostLinkDown (up : Bool) (s : State) :
    exec (.hostLinkDown up) s = execHostLinkDown up s := rfl
theorem exec_resetMessageReceived (peer : BitVec 10) (s : State) :
    exec (.resetMessageReceived peer) s = execResetMessageReceived peer s := rfl
theorem exec_portTrained (port : Fin 71) (ok : Bool) (s : State) :
    exec (.portTrained port ok) s = execPortTrained port ok s := rfl
theorem exec_jireskoSessionSetup (ok : Bool) (s : State) :
    exec (.jireskoSessionSetup ok) s = execJireskoSessionSetup ok s := rfl

end Sys2Proof.Machine
end

