-- ==== Sys2Proof/Laws/State.lean ====
section
/-! SUPPORT. One lemma for each field and each update of the state's records, so that no later proof unfolds a record
update, and the reads of what an update has written. -/
namespace Sys2Proof.Machine

set_option Elab.async false

/-! ### Cubes -/

@[simp] theorem cube_setCube_self (s : State) (c : CubeId) (k : Cube) : (s.setCube c k).cube c = k := by
  simp [State.setCube, State.cube, Vector.get_eq_getElem]
theorem cube_setCube_ne (s : State) (c d : CubeId) (k : Cube) (h : d ≠ c) : (s.setCube c k).cube d = s.cube d := by
  have : c.val ≠ d.val := fun e => h (Fin.ext e.symm)
  simp [State.setCube, State.cube, Vector.get_eq_getElem, this]
@[simp] theorem cube_modCube_self (s : State) (c : CubeId) (f : Cube → Cube) : (s.modCube c f).cube c = f (s.cube c) :=
  cube_setCube_self s c _
theorem cube_modCube_ne (s : State) (c d : CubeId) (f : Cube → Cube) (h : d ≠ c) : (s.modCube c f).cube d = s.cube d :=
  cube_setCube_ne s c d _ h
theorem cube_modCube (s : State) (c d : CubeId) (f : Cube → Cube) :
    (s.modCube c f).cube d = if d = c then f (s.cube d) else s.cube d := by
  split
  · next h => subst h; exact cube_modCube_self s d f
  · next h => exact cube_modCube_ne s c d f h
@[simp] theorem me_setCube (s : State) (c : CubeId) (k : Cube) : (s.setCube c k).me = s.me := rfl
@[simp] theorem me_modCube (s : State) (c : CubeId) (f : Cube → Cube) : (s.modCube c f).me = s.me := rfl
@[simp] theorem me_modCtx (s : State) (f : Ctx → Ctx) : (s.modCtx f).me = s.me := rfl
@[simp] theorem me_modBundle (s : State) (f : BundleState → BundleState) : (s.modBundle f).me = s.me := rfl
@[simp] theorem me_pushResult (s : State) (r : Result) : (s.pushResult r).me = s.me := rfl
@[simp] theorem ctx_modCtx (s : State) (f : Ctx → Ctx) : (s.modCtx f).ctx = f s.ctx := by
  simp [State.ctx, State.modCtx, Cube.modCore]
@[simp] theorem bundle_modCtx (s : State) (f : Ctx → Ctx) : (s.modCtx f).bundle = s.bundle := by
  simp [State.bundle, State.modCtx, Cube.modCore]
@[simp] theorem ctx_modBundle (s : State) (f : BundleState → BundleState) : (s.modBundle f).ctx = s.ctx := by
  simp [State.ctx, State.modBundle, Cube.modBundle]
@[simp] theorem bundle_modBundle (s : State) (f : BundleState → BundleState) : (s.modBundle f).bundle = f s.bundle := by
  simp [State.bundle, State.modBundle, Cube.modBundle]
@[simp] theorem ctx_pushResult (s : State) (r : Result) :
    (s.pushResult r).ctx = { s.ctx with results := s.ctx.results ++ [{ r with cls := s.bundle.cls, pos := s.place, chk := s.bundle.chk }] } := by
  simp [State.pushResult]
@[simp] theorem bundle_pushResult (s : State) (r : Result) : (s.pushResult r).bundle = s.bundle := by
  simp [State.pushResult]
/-- An update of the running context reaches no other cube. -/
theorem cube_modCtx_ne (s : State) (f : Ctx → Ctx) (d : CubeId) (h : d ≠ s.me) : (s.modCtx f).cube d = s.cube d :=
  cube_modCube_ne s _ d _ h

/-! ### The other fields of the state -/

@[simp] theorem agenda_setCube (s : State) (c : CubeId) (k : Cube) : (s.setCube c k).agenda = s.agenda := rfl
@[simp] theorem turn_setCube (s : State) (c : CubeId) (k : Cube) : (s.setCube c k).turn = s.turn := rfl
@[simp] theorem cycle_setCube (s : State) (c : CubeId) (k : Cube) : (s.setCube c k).cycle = s.cycle := rfl
@[simp] theorem freeCtr_setCube (s : State) (c : CubeId) (k : Cube) : (s.setCube c k).freeCtr = s.freeCtr := rfl
@[simp] theorem nextId_setCube (s : State) (c : CubeId) (k : Cube) : (s.setCube c k).nextId = s.nextId := rfl
@[simp] theorem mem_setCube (s : State) (c : CubeId) (k : Cube) : (s.setCube c k).mem = s.mem := rfl
@[simp] theorem owners_setCube (s : State) (c : CubeId) (k : Cube) : (s.setCube c k).owners = s.owners := rfl
@[simp] theorem poison_setCube (s : State) (c : CubeId) (k : Cube) : (s.setCube c k).poison = s.poison := rfl
@[simp] theorem items_setCube (s : State) (c : CubeId) (k : Cube) : (s.setCube c k).items = s.items := rfl
@[simp] theorem reads_setCube (s : State) (c : CubeId) (k : Cube) : (s.setCube c k).reads = s.reads := rfl
@[simp] theorem msgs_setCube (s : State) (c : CubeId) (k : Cube) : (s.setCube c k).msgs = s.msgs := rfl
@[simp] theorem watches_setCube (s : State) (c : CubeId) (k : Cube) : (s.setCube c k).watches = s.watches := rfl
@[simp] theorem notes_setCube (s : State) (c : CubeId) (k : Cube) : (s.setCube c k).notes = s.notes := rfl
@[simp] theorem winq_setCube (s : State) (c : CubeId) (k : Cube) : (s.setCube c k).winq = s.winq := rfl
@[simp] theorem misses_setCube (s : State) (c : CubeId) (k : Cube) : (s.setCube c k).misses = s.misses := rfl
@[simp] theorem walkCache_setCube (s : State) (c : CubeId) (k : Cube) : (s.setCube c k).walkCache = s.walkCache := rfl
@[simp] theorem walkTurn_setCube (s : State) (c : CubeId) (k : Cube) : (s.setCube c k).walkTurn = s.walkTurn := rfl
@[simp] theorem tlbis_setCube (s : State) (c : CubeId) (k : Cube) : (s.setCube c k).tlbis = s.tlbis := rfl
@[simp] theorem astBase_setCube (s : State) (c : CubeId) (k : Cube) : (s.setCube c k).astBase = s.astBase := rfl
@[simp] theorem fab_setCube (s : State) (c : CubeId) (k : Cube) : (s.setCube c k).fab = s.fab := rfl
@[simp] theorem secu_setCube (s : State) (c : CubeId) (k : Cube) : (s.setCube c k).secu = s.secu := rfl
@[simp] theorem atl_setCube (s : State) (c : CubeId) (k : Cube) : (s.setCube c k).atl = s.atl := rfl
@[simp] theorem power_setCube (s : State) (c : CubeId) (k : Cube) : (s.setCube c k).power = s.power := rfl
@[simp] theorem irqs_setCube (s : State) (c : CubeId) (k : Cube) : (s.setCube c k).irqs = s.irqs := rfl
@[simp] theorem replies_setCube (s : State) (c : CubeId) (k : Cube) : (s.setCube c k).replies = s.replies := rfl
@[simp] theorem agenda_modCube (s : State) (c : CubeId) (f : Cube → Cube) : (s.modCube c f).agenda = s.agenda := rfl
@[simp] theorem turn_modCube (s : State) (c : CubeId) (f : Cube → Cube) : (s.modCube c f).turn = s.turn := rfl
@[simp] theorem cycle_modCube (s : State) (c : CubeId) (f : Cube → Cube) : (s.modCube c f).cycle = s.cycle := rfl
@[simp] theorem freeCtr_modCube (s : State) (c : CubeId) (f : Cube → Cube) : (s.modCube c f).freeCtr = s.freeCtr := rfl
@[simp] theorem nextId_modCube (s : State) (c : CubeId) (f : Cube → Cube) : (s.modCube c f).nextId = s.nextId := rfl
@[simp] theorem mem_modCube (s : State) (c : CubeId) (f : Cube → Cube) : (s.modCube c f).mem = s.mem := rfl
@[simp] theorem owners_modCube (s : State) (c : CubeId) (f : Cube → Cube) : (s.modCube c f).owners = s.owners := rfl
@[simp] theorem poison_modCube (s : State) (c : CubeId) (f : Cube → Cube) : (s.modCube c f).poison = s.poison := rfl
@[simp] theorem items_modCube (s : State) (c : CubeId) (f : Cube → Cube) : (s.modCube c f).items = s.items := rfl
@[simp] theorem reads_modCube (s : State) (c : CubeId) (f : Cube → Cube) : (s.modCube c f).reads = s.reads := rfl
@[simp] theorem msgs_modCube (s : State) (c : CubeId) (f : Cube → Cube) : (s.modCube c f).msgs = s.msgs := rfl
@[simp] theorem watches_modCube (s : State) (c : CubeId) (f : Cube → Cube) : (s.modCube c f).watches = s.watches := rfl
@[simp] theorem notes_modCube (s : State) (c : CubeId) (f : Cube → Cube) : (s.modCube c f).notes = s.notes := rfl
@[simp] theorem winq_modCube (s : State) (c : CubeId) (f : Cube → Cube) : (s.modCube c f).winq = s.winq := rfl
@[simp] theorem misses_modCube (s : State) (c : CubeId) (f : Cube → Cube) : (s.modCube c f).misses = s.misses := rfl
@[simp] theorem walkCache_modCube (s : State) (c : CubeId) (f : Cube → Cube) : (s.modCube c f).walkCache = s.walkCache := rfl
@[simp] theorem walkTurn_modCube (s : State) (c : CubeId) (f : Cube → Cube) : (s.modCube c f).walkTurn = s.walkTurn := rfl
@[simp] theorem tlbis_modCube (s : State) (c : CubeId) (f : Cube → Cube) : (s.modCube c f).tlbis = s.tlbis := rfl
@[simp] theorem astBase_modCube (s : State) (c : CubeId) (f : Cube → Cube) : (s.modCube c f).astBase = s.astBase := rfl
@[simp] theorem fab_modCube (s : State) (c : CubeId) (f : Cube → Cube) : (s.modCube c f).fab = s.fab := rfl
@[simp] theorem secu_modCube (s : State) (c : CubeId) (f : Cube → Cube) : (s.modCube c f).secu = s.secu := rfl
@[simp] theorem atl_modCube (s : State) (c : CubeId) (f : Cube → Cube) : (s.modCube c f).atl = s.atl := rfl
@[simp] theorem power_modCube (s : State) (c : CubeId) (f : Cube → Cube) : (s.modCube c f).power = s.power := rfl
@[simp] theorem irqs_modCube (s : State) (c : CubeId) (f : Cube → Cube) : (s.modCube c f).irqs = s.irqs := rfl
@[simp] theorem replies_modCube (s : State) (c : CubeId) (f : Cube → Cube) : (s.modCube c f).replies = s.replies := rfl
@[simp] theorem agenda_modCtx (s : State) (f : Ctx → Ctx) : (s.modCtx f).agenda = s.agenda := rfl
@[simp] theorem turn_modCtx (s : State) (f : Ctx → Ctx) : (s.modCtx f).turn = s.turn := rfl
@[simp] theorem cycle_modCtx (s : State) (f : Ctx → Ctx) : (s.modCtx f).cycle = s.cycle := rfl
@[simp] theorem freeCtr_modCtx (s : State) (f : Ctx → Ctx) : (s.modCtx f).freeCtr = s.freeCtr := rfl
@[simp] theorem nextId_modCtx (s : State) (f : Ctx → Ctx) : (s.modCtx f).nextId = s.nextId := rfl
@[simp] theorem mem_modCtx (s : State) (f : Ctx → Ctx) : (s.modCtx f).mem = s.mem := rfl
@[simp] theorem owners_modCtx (s : State) (f : Ctx → Ctx) : (s.modCtx f).owners = s.owners := rfl
@[simp] theorem poison_modCtx (s : State) (f : Ctx → Ctx) : (s.modCtx f).poison = s.poison := rfl
@[simp] theorem items_modCtx (s : State) (f : Ctx → Ctx) : (s.modCtx f).items = s.items := rfl
@[simp] theorem reads_modCtx (s : State) (f : Ctx → Ctx) : (s.modCtx f).reads = s.reads := rfl
@[simp] theorem msgs_modCtx (s : State) (f : Ctx → Ctx) : (s.modCtx f).msgs = s.msgs := rfl
@[simp] theorem watches_modCtx (s : State) (f : Ctx → Ctx) : (s.modCtx f).watches = s.watches := rfl
@[simp] theorem notes_modCtx (s : State) (f : Ctx → Ctx) : (s.modCtx f).notes = s.notes := rfl
@[simp] theorem winq_modCtx (s : State) (f : Ctx → Ctx) : (s.modCtx f).winq = s.winq := rfl
@[simp] theorem misses_modCtx (s : State) (f : Ctx → Ctx) : (s.modCtx f).misses = s.misses := rfl
@[simp] theorem walkCache_modCtx (s : State) (f : Ctx → Ctx) : (s.modCtx f).walkCache = s.walkCache := rfl
@[simp] theorem walkTurn_modCtx (s : State) (f : Ctx → Ctx) : (s.modCtx f).walkTurn = s.walkTurn := rfl
@[simp] theorem tlbis_modCtx (s : State) (f : Ctx → Ctx) : (s.modCtx f).tlbis = s.tlbis := rfl
@[simp] theorem astBase_modCtx (s : State) (f : Ctx → Ctx) : (s.modCtx f).astBase = s.astBase := rfl
@[simp] theorem fab_modCtx (s : State) (f : Ctx → Ctx) : (s.modCtx f).fab = s.fab := rfl
@[simp] theorem secu_modCtx (s : State) (f : Ctx → Ctx) : (s.modCtx f).secu = s.secu := rfl
@[simp] theorem atl_modCtx (s : State) (f : Ctx → Ctx) : (s.modCtx f).atl = s.atl := rfl
@[simp] theorem power_modCtx (s : State) (f : Ctx → Ctx) : (s.modCtx f).power = s.power := rfl
@[simp] theorem irqs_modCtx (s : State) (f : Ctx → Ctx) : (s.modCtx f).irqs = s.irqs := rfl
@[simp] theorem replies_modCtx (s : State) (f : Ctx → Ctx) : (s.modCtx f).replies = s.replies := rfl
@[simp] theorem agenda_modBundle (s : State) (f : BundleState → BundleState) : (s.modBundle f).agenda = s.agenda := rfl
@[simp] theorem turn_modBundle (s : State) (f : BundleState → BundleState) : (s.modBundle f).turn = s.turn := rfl
@[simp] theorem cycle_modBundle (s : State) (f : BundleState → BundleState) : (s.modBundle f).cycle = s.cycle := rfl
@[simp] theorem freeCtr_modBundle (s : State) (f : BundleState → BundleState) : (s.modBundle f).freeCtr = s.freeCtr := rfl
@[simp] theorem nextId_modBundle (s : State) (f : BundleState → BundleState) : (s.modBundle f).nextId = s.nextId := rfl
@[simp] theorem mem_modBundle (s : State) (f : BundleState → BundleState) : (s.modBundle f).mem = s.mem := rfl
@[simp] theorem owners_modBundle (s : State) (f : BundleState → BundleState) : (s.modBundle f).owners = s.owners := rfl
@[simp] theorem poison_modBundle (s : State) (f : BundleState → BundleState) : (s.modBundle f).poison = s.poison := rfl
@[simp] theorem items_modBundle (s : State) (f : BundleState → BundleState) : (s.modBundle f).items = s.items := rfl
@[simp] theorem reads_modBundle (s : State) (f : BundleState → BundleState) : (s.modBundle f).reads = s.reads := rfl
@[simp] theorem msgs_modBundle (s : State) (f : BundleState → BundleState) : (s.modBundle f).msgs = s.msgs := rfl
@[simp] theorem watches_modBundle (s : State) (f : BundleState → BundleState) : (s.modBundle f).watches = s.watches := rfl
@[simp] theorem notes_modBundle (s : State) (f : BundleState → BundleState) : (s.modBundle f).notes = s.notes := rfl
@[simp] theorem winq_modBundle (s : State) (f : BundleState → BundleState) : (s.modBundle f).winq = s.winq := rfl
@[simp] theorem misses_modBundle (s : State) (f : BundleState → BundleState) : (s.modBundle f).misses = s.misses := rfl
@[simp] theorem walkCache_modBundle (s : State) (f : BundleState → BundleState) : (s.modBundle f).walkCache = s.walkCache := rfl
@[simp] theorem walkTurn_modBundle (s : State) (f : BundleState → BundleState) : (s.modBundle f).walkTurn = s.walkTurn := rfl
@[simp] theorem tlbis_modBundle (s : State) (f : BundleState → BundleState) : (s.modBundle f).tlbis = s.tlbis := rfl
@[simp] theorem astBase_modBundle (s : State) (f : BundleState → BundleState) : (s.modBundle f).astBase = s.astBase := rfl
@[simp] theorem fab_modBundle (s : State) (f : BundleState → BundleState) : (s.modBundle f).fab = s.fab := rfl
@[simp] theorem secu_modBundle (s : State) (f : BundleState → BundleState) : (s.modBundle f).secu = s.secu := rfl
@[simp] theorem atl_modBundle (s : State) (f : BundleState → BundleState) : (s.modBundle f).atl = s.atl := rfl
@[simp] theorem power_modBundle (s : State) (f : BundleState → BundleState) : (s.modBundle f).power = s.power := rfl
@[simp] theorem irqs_modBundle (s : State) (f : BundleState → BundleState) : (s.modBundle f).irqs = s.irqs := rfl
@[simp] theorem replies_modBundle (s : State) (f : BundleState → BundleState) : (s.modBundle f).replies = s.replies := rfl
@[simp] theorem agenda_pushResult (s : State) (r : Result) : (s.pushResult r).agenda = s.agenda := rfl
@[simp] theorem turn_pushResult (s : State) (r : Result) : (s.pushResult r).turn = s.turn := rfl
@[simp] theorem cycle_pushResult (s : State) (r : Result) : (s.pushResult r).cycle = s.cycle := rfl
@[simp] theorem freeCtr_pushResult (s : State) (r : Result) : (s.pushResult r).freeCtr = s.freeCtr := rfl
@[simp] theorem nextId_pushResult (s : State) (r : Result) : (s.pushResult r).nextId = s.nextId := rfl
@[simp] theorem mem_pushResult (s : State) (r : Result) : (s.pushResult r).mem = s.mem := rfl
@[simp] theorem owners_pushResult (s : State) (r : Result) : (s.pushResult r).owners = s.owners := rfl
@[simp] theorem poison_pushResult (s : State) (r : Result) : (s.pushResult r).poison = s.poison := rfl
@[simp] theorem items_pushResult (s : State) (r : Result) : (s.pushResult r).items = s.items := rfl
@[simp] theorem reads_pushResult (s : State) (r : Result) : (s.pushResult r).reads = s.reads := rfl
@[simp] theorem msgs_pushResult (s : State) (r : Result) : (s.pushResult r).msgs = s.msgs := rfl
@[simp] theorem watches_pushResult (s : State) (r : Result) : (s.pushResult r).watches = s.watches := rfl
@[simp] theorem notes_pushResult (s : State) (r : Result) : (s.pushResult r).notes = s.notes := rfl
@[simp] theorem winq_pushResult (s : State) (r : Result) : (s.pushResult r).winq = s.winq := rfl
@[simp] theorem misses_pushResult (s : State) (r : Result) : (s.pushResult r).misses = s.misses := rfl
@[simp] theorem walkCache_pushResult (s : State) (r : Result) : (s.pushResult r).walkCache = s.walkCache := rfl
@[simp] theorem walkTurn_pushResult (s : State) (r : Result) : (s.pushResult r).walkTurn = s.walkTurn := rfl
@[simp] theorem tlbis_pushResult (s : State) (r : Result) : (s.pushResult r).tlbis = s.tlbis := rfl
@[simp] theorem astBase_pushResult (s : State) (r : Result) : (s.pushResult r).astBase = s.astBase := rfl
@[simp] theorem fab_pushResult (s : State) (r : Result) : (s.pushResult r).fab = s.fab := rfl
@[simp] theorem secu_pushResult (s : State) (r : Result) : (s.pushResult r).secu = s.secu := rfl
@[simp] theorem atl_pushResult (s : State) (r : Result) : (s.pushResult r).atl = s.atl := rfl
@[simp] theorem power_pushResult (s : State) (r : Result) : (s.pushResult r).power = s.power := rfl
@[simp] theorem irqs_pushResult (s : State) (r : Result) : (s.pushResult r).irqs = s.irqs := rfl
@[simp] theorem replies_pushResult (s : State) (r : Result) : (s.pushResult r).replies = s.replies := rfl
@[simp] theorem agenda_dropItem (s : State) (i : Nat) : (s.dropItem i).agenda = s.agenda := rfl
@[simp] theorem turn_dropItem (s : State) (i : Nat) : (s.dropItem i).turn = s.turn := rfl
@[simp] theorem cycle_dropItem (s : State) (i : Nat) : (s.dropItem i).cycle = s.cycle := rfl
@[simp] theorem freeCtr_dropItem (s : State) (i : Nat) : (s.dropItem i).freeCtr = s.freeCtr := rfl
@[simp] theorem nextId_dropItem (s : State) (i : Nat) : (s.dropItem i).nextId = s.nextId := rfl
@[simp] theorem cubes_dropItem (s : State) (i : Nat) : (s.dropItem i).cubes = s.cubes := rfl
@[simp] theorem mem_dropItem (s : State) (i : Nat) : (s.dropItem i).mem = s.mem := rfl
@[simp] theorem owners_dropItem (s : State) (i : Nat) : (s.dropItem i).owners = s.owners := rfl
@[simp] theorem poison_dropItem (s : State) (i : Nat) : (s.dropItem i).poison = s.poison := rfl
@[simp] theorem reads_dropItem (s : State) (i : Nat) : (s.dropItem i).reads = s.reads := rfl
@[simp] theorem msgs_dropItem (s : State) (i : Nat) : (s.dropItem i).msgs = s.msgs := rfl
@[simp] theorem watches_dropItem (s : State) (i : Nat) : (s.dropItem i).watches = s.watches := rfl
@[simp] theorem notes_dropItem (s : State) (i : Nat) : (s.dropItem i).notes = s.notes := rfl
@[simp] theorem winq_dropItem (s : State) (i : Nat) : (s.dropItem i).winq = s.winq := rfl
@[simp] theorem misses_dropItem (s : State) (i : Nat) : (s.dropItem i).misses = s.misses := rfl
@[simp] theorem walkCache_dropItem (s : State) (i : Nat) : (s.dropItem i).walkCache = s.walkCache := rfl
@[simp] theorem walkTurn_dropItem (s : State) (i : Nat) : (s.dropItem i).walkTurn = s.walkTurn := rfl
@[simp] theorem tlbis_dropItem (s : State) (i : Nat) : (s.dropItem i).tlbis = s.tlbis := rfl
@[simp] theorem astBase_dropItem (s : State) (i : Nat) : (s.dropItem i).astBase = s.astBase := rfl
@[simp] theorem fab_dropItem (s : State) (i : Nat) : (s.dropItem i).fab = s.fab := rfl
@[simp] theorem secu_dropItem (s : State) (i : Nat) : (s.dropItem i).secu = s.secu := rfl
@[simp] theorem atl_dropItem (s : State) (i : Nat) : (s.dropItem i).atl = s.atl := rfl
@[simp] theorem power_dropItem (s : State) (i : Nat) : (s.dropItem i).power = s.power := rfl
@[simp] theorem irqs_dropItem (s : State) (i : Nat) : (s.dropItem i).irqs = s.irqs := rfl
@[simp] theorem replies_dropItem (s : State) (i : Nat) : (s.dropItem i).replies = s.replies := rfl
@[simp] theorem agenda_dropRead (s : State) (i : Nat) : (s.dropRead i).agenda = s.agenda := rfl
@[simp] theorem turn_dropRead (s : State) (i : Nat) : (s.dropRead i).turn = s.turn := rfl
@[simp] theorem cycle_dropRead (s : State) (i : Nat) : (s.dropRead i).cycle = s.cycle := rfl
@[simp] theorem freeCtr_dropRead (s : State) (i : Nat) : (s.dropRead i).freeCtr = s.freeCtr := rfl
@[simp] theorem nextId_dropRead (s : State) (i : Nat) : (s.dropRead i).nextId = s.nextId := rfl
@[simp] theorem cubes_dropRead (s : State) (i : Nat) : (s.dropRead i).cubes = s.cubes := rfl
@[simp] theorem mem_dropRead (s : State) (i : Nat) : (s.dropRead i).mem = s.mem := rfl
@[simp] theorem owners_dropRead (s : State) (i : Nat) : (s.dropRead i).owners = s.owners := rfl
@[simp] theorem poison_dropRead (s : State) (i : Nat) : (s.dropRead i).poison = s.poison := rfl
@[simp] theorem items_dropRead (s : State) (i : Nat) : (s.dropRead i).items = s.items := rfl
@[simp] theorem msgs_dropRead (s : State) (i : Nat) : (s.dropRead i).msgs = s.msgs := rfl
@[simp] theorem watches_dropRead (s : State) (i : Nat) : (s.dropRead i).watches = s.watches := rfl
@[simp] theorem notes_dropRead (s : State) (i : Nat) : (s.dropRead i).notes = s.notes := rfl
@[simp] theorem winq_dropRead (s : State) (i : Nat) : (s.dropRead i).winq = s.winq := rfl
@[simp] theorem misses_dropRead (s : State) (i : Nat) : (s.dropRead i).misses = s.misses := rfl
@[simp] theorem walkCache_dropRead (s : State) (i : Nat) : (s.dropRead i).walkCache = s.walkCache := rfl
@[simp] theorem walkTurn_dropRead (s : State) (i : Nat) : (s.dropRead i).walkTurn = s.walkTurn := rfl
@[simp] theorem tlbis_dropRead (s : State) (i : Nat) : (s.dropRead i).tlbis = s.tlbis := rfl
@[simp] theorem astBase_dropRead (s : State) (i : Nat) : (s.dropRead i).astBase = s.astBase := rfl
@[simp] theorem fab_dropRead (s : State) (i : Nat) : (s.dropRead i).fab = s.fab := rfl
@[simp] theorem secu_dropRead (s : State) (i : Nat) : (s.dropRead i).secu = s.secu := rfl
@[simp] theorem atl_dropRead (s : State) (i : Nat) : (s.dropRead i).atl = s.atl := rfl
@[simp] theorem power_dropRead (s : State) (i : Nat) : (s.dropRead i).power = s.power := rfl
@[simp] theorem irqs_dropRead (s : State) (i : Nat) : (s.dropRead i).irqs = s.irqs := rfl
@[simp] theorem replies_dropRead (s : State) (i : Nat) : (s.dropRead i).replies = s.replies := rfl

@[simp] theorem cube_dropItem (s : State) (i : Nat) (c : CubeId) : (s.dropItem i).cube c = s.cube c := rfl
@[simp] theorem cube_dropRead (s : State) (i : Nat) (c : CubeId) : (s.dropRead i).cube c = s.cube c := rfl

/-! ### Fields of a cube -/

@[simp] theorem Cube.core_modCore (k : Cube) (f : Ctx → Ctx) : (k.modCore f).core = f k.core := rfl
@[simp] theorem Cube.cur_modCore (k : Cube) (f : Ctx → Ctx) : (k.modCore f).cur = k.cur := rfl
@[simp] theorem Cube.leave_modCore (k : Cube) (f : Ctx → Ctx) : (k.modCore f).leave = k.leave := rfl
@[simp] theorem Cube.bundle_modCore (k : Cube) (f : Ctx → Ctx) : (k.modCore f).bundle = k.bundle := rfl
@[simp] theorem Cube.stall_modCore (k : Cube) (f : Ctx → Ctx) : (k.modCore f).stall = k.stall := rfl
@[simp] theorem Cube.quantumUsed_modCore (k : Cube) (f : Ctx → Ctx) : (k.modCore f).quantumUsed = k.quantumUsed := rfl
@[simp] theorem Cube.shelves_modCore (k : Cube) (f : Ctx → Ctx) : (k.modCore f).shelves = k.shelves := rfl
@[simp] theorem Cube.rt_modCore (k : Cube) (f : Ctx → Ctx) : (k.modCore f).rt = k.rt := rfl
@[simp] theorem Cube.sec_modCore (k : Cube) (f : Ctx → Ctx) : (k.modCore f).sec = k.sec := rfl
@[simp] theorem Cube.cregs_modCore (k : Cube) (f : Ctx → Ctx) : (k.modCore f).cregs = k.cregs := rfl
@[simp] theorem Cube.hw_modCore (k : Cube) (f : Ctx → Ctx) : (k.modCore f).hw = k.hw := rfl
@[simp] theorem Cube.icache_modCore (k : Cube) (f : Ctx → Ctx) : (k.modCore f).icache = k.icache := rfl
@[simp] theorem Cube.tlb_modCore (k : Cube) (f : Ctx → Ctx) : (k.modCore f).tlb = k.tlb := rfl
@[simp] theorem Cube.small_modCore (k : Cube) (f : Ctx → Ctx) : (k.modCore f).small = k.small := rfl
@[simp] theorem Cube.edge_modCore (k : Cube) (f : Ctx → Ctx) : (k.modCore f).edge = k.edge := rfl
@[simp] theorem Cube.monitors_modCore (k : Cube) (f : Ctx → Ctx) : (k.modCore f).monitors = k.monitors := rfl
@[simp] theorem Cube.ready_modCore (k : Cube) (f : Ctx → Ctx) : (k.modCore f).ready = k.ready := rfl
@[simp] theorem Cube.patches_modCore (k : Cube) (f : Ctx → Ctx) : (k.modCore f).patches = k.patches := rfl
@[simp] theorem Cube.pals_modCore (k : Cube) (f : Ctx → Ctx) : (k.modCore f).pals = k.pals := rfl
@[simp] theorem Cube.cmds_modCore (k : Cube) (f : Ctx → Ctx) : (k.modCore f).cmds = k.cmds := rfl
@[simp] theorem Cube.joins_modCore (k : Cube) (f : Ctx → Ctx) : (k.modCore f).joins = k.joins := rfl
@[simp] theorem Cube.recs_modCore (k : Cube) (f : Ctx → Ctx) : (k.modCore f).recs = k.recs := rfl
@[simp] theorem Cube.eng_modCore (k : Cube) (f : Ctx → Ctx) : (k.modCore f).eng = k.eng := rfl
@[simp] theorem Cube.con_modCore (k : Cube) (f : Ctx → Ctx) : (k.modCore f).con = k.con := rfl
@[simp] theorem Cube.pwr_modCore (k : Cube) (f : Ctx → Ctx) : (k.modCore f).pwr = k.pwr := rfl
@[simp] theorem Cube.admission_modCore (k : Cube) (f : Ctx → Ctx) : (k.modCore f).admission = k.admission := rfl
@[simp] theorem Cube.debugHalted_modCore (k : Cube) (f : Ctx → Ctx) : (k.modCore f).debugHalted = k.debugHalted := rfl
@[simp] theorem Cube.debugHaltPending_modCore (k : Cube) (f : Ctx → Ctx) : (k.modCore f).debugHaltPending = k.debugHaltPending := rfl
@[simp] theorem Cube.stopped_modCore (k : Cube) (f : Ctx → Ctx) : (k.modCore f).stopped = k.stopped := rfl
@[simp] theorem Cube.core_modBundle (k : Cube) (f : BundleState → BundleState) : (k.modBundle f).core = k.core := rfl
@[simp] theorem Cube.cur_modBundle (k : Cube) (f : BundleState → BundleState) : (k.modBundle f).cur = k.cur := rfl
@[simp] theorem Cube.leave_modBundle (k : Cube) (f : BundleState → BundleState) : (k.modBundle f).leave = k.leave := rfl
@[simp] theorem Cube.bundle_modBundle (k : Cube) (f : BundleState → BundleState) : (k.modBundle f).bundle = f k.bundle := rfl
@[simp] theorem Cube.stall_modBundle (k : Cube) (f : BundleState → BundleState) : (k.modBundle f).stall = k.stall := rfl
@[simp] theorem Cube.quantumUsed_modBundle (k : Cube) (f : BundleState → BundleState) : (k.modBundle f).quantumUsed = k.quantumUsed := rfl
@[simp] theorem Cube.shelves_modBundle (k : Cube) (f : BundleState → BundleState) : (k.modBundle f).shelves = k.shelves := rfl
@[simp] theorem Cube.rt_modBundle (k : Cube) (f : BundleState → BundleState) : (k.modBundle f).rt = k.rt := rfl
@[simp] theorem Cube.sec_modBundle (k : Cube) (f : BundleState → BundleState) : (k.modBundle f).sec = k.sec := rfl
@[simp] theorem Cube.cregs_modBundle (k : Cube) (f : BundleState → BundleState) : (k.modBundle f).cregs = k.cregs := rfl
@[simp] theorem Cube.hw_modBundle (k : Cube) (f : BundleState → BundleState) : (k.modBundle f).hw = k.hw := rfl
@[simp] theorem Cube.icache_modBundle (k : Cube) (f : BundleState → BundleState) : (k.modBundle f).icache = k.icache := rfl
@[simp] theorem Cube.tlb_modBundle (k : Cube) (f : BundleState → BundleState) : (k.modBundle f).tlb = k.tlb := rfl
@[simp] theorem Cube.small_modBundle (k : Cube) (f : BundleState → BundleState) : (k.modBundle f).small = k.small := rfl
@[simp] theorem Cube.edge_modBundle (k : Cube) (f : BundleState → BundleState) : (k.modBundle f).edge = k.edge := rfl
@[simp] theorem Cube.monitors_modBundle (k : Cube) (f : BundleState → BundleState) : (k.modBundle f).monitors = k.monitors := rfl
@[simp] theorem Cube.ready_modBundle (k : Cube) (f : BundleState → BundleState) : (k.modBundle f).ready = k.ready := rfl
@[simp] theorem Cube.patches_modBundle (k : Cube) (f : BundleState → BundleState) : (k.modBundle f).patches = k.patches := rfl
@[simp] theorem Cube.pals_modBundle (k : Cube) (f : BundleState → BundleState) : (k.modBundle f).pals = k.pals := rfl
@[simp] theorem Cube.cmds_modBundle (k : Cube) (f : BundleState → BundleState) : (k.modBundle f).cmds = k.cmds := rfl
@[simp] theorem Cube.joins_modBundle (k : Cube) (f : BundleState → BundleState) : (k.modBundle f).joins = k.joins := rfl
@[simp] theorem Cube.recs_modBundle (k : Cube) (f : BundleState → BundleState) : (k.modBundle f).recs = k.recs := rfl
@[simp] theorem Cube.eng_modBundle (k : Cube) (f : BundleState → BundleState) : (k.modBundle f).eng = k.eng := rfl
@[simp] theorem Cube.con_modBundle (k : Cube) (f : BundleState → BundleState) : (k.modBundle f).con = k.con := rfl
@[simp] theorem Cube.pwr_modBundle (k : Cube) (f : BundleState → BundleState) : (k.modBundle f).pwr = k.pwr := rfl
@[simp] theorem Cube.admission_modBundle (k : Cube) (f : BundleState → BundleState) : (k.modBundle f).admission = k.admission := rfl
@[simp] theorem Cube.debugHalted_modBundle (k : Cube) (f : BundleState → BundleState) : (k.modBundle f).debugHalted = k.debugHalted := rfl
@[simp] theorem Cube.debugHaltPending_modBundle (k : Cube) (f : BundleState → BundleState) : (k.modBundle f).debugHaltPending = k.debugHaltPending := rfl
@[simp] theorem Cube.stopped_modBundle (k : Cube) (f : BundleState → BundleState) : (k.modBundle f).stopped = k.stopped := rfl

/-! ### Fields of a context -/

@[simp] theorem Ctx.sid_setS (x : Ctx) (r : SReg) (v : Word) : (x.setS r v).sid = x.sid := by unfold Ctx.setS; split <;> rfl
@[simp] theorem Ctx.mode_setS (x : Ctx) (r : SReg) (v : Word) : (x.setS r v).mode = x.mode := by unfold Ctx.setS; split <;> rfl
@[simp] theorem Ctx.lat_setS (x : Ctx) (r : SReg) (v : Word) : (x.setS r v).lat = x.lat := by unfold Ctx.setS; split <;> rfl
@[simp] theorem Ctx.pc_setS (x : Ctx) (r : SReg) (v : Word) : (x.setS r v).pc = x.pc := by unfold Ctx.setS; split <;> rfl
@[simp] theorem Ctx.issued_setS (x : Ctx) (r : SReg) (v : Word) : (x.setS r v).issued = x.issued := by unfold Ctx.setS; split <;> rfl
@[simp] theorem Ctx.loops_setS (x : Ctx) (r : SReg) (v : Word) : (x.setS r v).loops = x.loops := by unfold Ctx.setS; split <;> rfl
@[simp] theorem Ctx.sys_setS (x : Ctx) (r : SReg) (v : Word) : (x.setS r v).sys = x.sys := by unfold Ctx.setS; split <;> rfl
@[simp] theorem Ctx.lineSeq_setS (x : Ctx) (r : SReg) (v : Word) : (x.setS r v).lineSeq = x.lineSeq := by unfold Ctx.setS; split <;> rfl
@[simp] theorem Ctx.pending_setS (x : Ctx) (r : SReg) (v : Word) : (x.setS r v).pending = x.pending := by unfold Ctx.setS; split <;> rfl
@[simp] theorem Ctx.pendAt_setS (x : Ctx) (r : SReg) (v : Word) : (x.setS r v).pendAt = x.pendAt := by unfold Ctx.setS; split <;> rfl
@[simp] theorem Ctx.results_setS (x : Ctx) (r : SReg) (v : Word) : (x.setS r v).results = x.results := by unfold Ctx.setS; split <;> rfl
@[simp] theorem Ctx.noise_setS (x : Ctx) (r : SReg) (v : Word) : (x.setS r v).noise = x.noise := by unfold Ctx.setS; split <;> rfl
@[simp] theorem Ctx.spools_setS (x : Ctx) (r : SReg) (v : Word) : (x.setS r v).spools = x.spools := by unfold Ctx.setS; split <;> rfl
@[simp] theorem Ctx.binds_setS (x : Ctx) (r : SReg) (v : Word) : (x.setS r v).binds = x.binds := by unfold Ctx.setS; split <;> rfl
@[simp] theorem Ctx.recipes_setS (x : Ctx) (r : SReg) (v : Word) : (x.setS r v).recipes = x.recipes := by unfold Ctx.setS; split <;> rfl
@[simp] theorem Ctx.fences_setS (x : Ctx) (r : SReg) (v : Word) : (x.setS r v).fences = x.fences := by unfold Ctx.setS; split <;> rfl
@[simp] theorem Ctx.qfences_setS (x : Ctx) (r : SReg) (v : Word) : (x.setS r v).qfences = x.qfences := by unfold Ctx.setS; split <;> rfl
@[simp] theorem Ctx.acqs_setS (x : Ctx) (r : SReg) (v : Word) : (x.setS r v).acqs = x.acqs := by unfold Ctx.setS; split <;> rfl
@[simp] theorem Ctx.wait_setS (x : Ctx) (r : SReg) (v : Word) : (x.setS r v).wait = x.wait := by unfold Ctx.setS; split <;> rfl
@[simp] theorem Ctx.status_setS (x : Ctx) (r : SReg) (v : Word) : (x.setS r v).status = x.status := by unfold Ctx.setS; split <;> rfl
@[simp] theorem Ctx.part_setS (x : Ctx) (r : SReg) (v : Word) : (x.setS r v).part = x.part := by unfold Ctx.setS; split <;> rfl
@[simp] theorem Ctx.task_setS (x : Ctx) (r : SReg) (v : Word) : (x.setS r v).task = x.task := by unfold Ctx.setS; split <;> rfl
@[simp] theorem Ctx.sid_setP (x : Ctx) (r : PReg) (v : Bool) : (x.setP r v).sid = x.sid := by unfold Ctx.setP; split <;> rfl
@[simp] theorem Ctx.mode_setP (x : Ctx) (r : PReg) (v : Bool) : (x.setP r v).mode = x.mode := by unfold Ctx.setP; split <;> rfl
@[simp] theorem Ctx.lat_setP (x : Ctx) (r : PReg) (v : Bool) : (x.setP r v).lat = x.lat := by unfold Ctx.setP; split <;> rfl
@[simp] theorem Ctx.pc_setP (x : Ctx) (r : PReg) (v : Bool) : (x.setP r v).pc = x.pc := by unfold Ctx.setP; split <;> rfl
@[simp] theorem Ctx.issued_setP (x : Ctx) (r : PReg) (v : Bool) : (x.setP r v).issued = x.issued := by unfold Ctx.setP; split <;> rfl
@[simp] theorem Ctx.loops_setP (x : Ctx) (r : PReg) (v : Bool) : (x.setP r v).loops = x.loops := by unfold Ctx.setP; split <;> rfl
@[simp] theorem Ctx.sys_setP (x : Ctx) (r : PReg) (v : Bool) : (x.setP r v).sys = x.sys := by unfold Ctx.setP; split <;> rfl
@[simp] theorem Ctx.lineSeq_setP (x : Ctx) (r : PReg) (v : Bool) : (x.setP r v).lineSeq = x.lineSeq := by unfold Ctx.setP; split <;> rfl
@[simp] theorem Ctx.pending_setP (x : Ctx) (r : PReg) (v : Bool) : (x.setP r v).pending = x.pending := by unfold Ctx.setP; split <;> rfl
@[simp] theorem Ctx.pendAt_setP (x : Ctx) (r : PReg) (v : Bool) : (x.setP r v).pendAt = x.pendAt := by unfold Ctx.setP; split <;> rfl
@[simp] theorem Ctx.results_setP (x : Ctx) (r : PReg) (v : Bool) : (x.setP r v).results = x.results := by unfold Ctx.setP; split <;> rfl
@[simp] theorem Ctx.noise_setP (x : Ctx) (r : PReg) (v : Bool) : (x.setP r v).noise = x.noise := by unfold Ctx.setP; split <;> rfl
@[simp] theorem Ctx.spools_setP (x : Ctx) (r : PReg) (v : Bool) : (x.setP r v).spools = x.spools := by unfold Ctx.setP; split <;> rfl
@[simp] theorem Ctx.binds_setP (x : Ctx) (r : PReg) (v : Bool) : (x.setP r v).binds = x.binds := by unfold Ctx.setP; split <;> rfl
@[simp] theorem Ctx.recipes_setP (x : Ctx) (r : PReg) (v : Bool) : (x.setP r v).recipes = x.recipes := by unfold Ctx.setP; split <;> rfl
@[simp] theorem Ctx.fences_setP (x : Ctx) (r : PReg) (v : Bool) : (x.setP r v).fences = x.fences := by unfold Ctx.setP; split <;> rfl
@[simp] theorem Ctx.qfences_setP (x : Ctx) (r : PReg) (v : Bool) : (x.setP r v).qfences = x.qfences := by unfold Ctx.setP; split <;> rfl
@[simp] theorem Ctx.acqs_setP (x : Ctx) (r : PReg) (v : Bool) : (x.setP r v).acqs = x.acqs := by unfold Ctx.setP; split <;> rfl
@[simp] theorem Ctx.wait_setP (x : Ctx) (r : PReg) (v : Bool) : (x.setP r v).wait = x.wait := by unfold Ctx.setP; split <;> rfl
@[simp] theorem Ctx.status_setP (x : Ctx) (r : PReg) (v : Bool) : (x.setP r v).status = x.status := by unfold Ctx.setP; split <;> rfl
@[simp] theorem Ctx.part_setP (x : Ctx) (r : PReg) (v : Bool) : (x.setP r v).part = x.part := by unfold Ctx.setP; split <;> rfl
@[simp] theorem Ctx.task_setP (x : Ctx) (r : PReg) (v : Bool) : (x.setP r v).task = x.task := by unfold Ctx.setP; split <;> rfl
@[simp] theorem Ctx.sid_setV (x : Ctx) (r : VReg) (v : VWord) : (x.setV r v).sid = x.sid := rfl
@[simp] theorem Ctx.mode_setV (x : Ctx) (r : VReg) (v : VWord) : (x.setV r v).mode = x.mode := rfl
@[simp] theorem Ctx.lat_setV (x : Ctx) (r : VReg) (v : VWord) : (x.setV r v).lat = x.lat := rfl
@[simp] theorem Ctx.pc_setV (x : Ctx) (r : VReg) (v : VWord) : (x.setV r v).pc = x.pc := rfl
@[simp] theorem Ctx.issued_setV (x : Ctx) (r : VReg) (v : VWord) : (x.setV r v).issued = x.issued := rfl
@[simp] theorem Ctx.loops_setV (x : Ctx) (r : VReg) (v : VWord) : (x.setV r v).loops = x.loops := rfl
@[simp] theorem Ctx.sys_setV (x : Ctx) (r : VReg) (v : VWord) : (x.setV r v).sys = x.sys := rfl
@[simp] theorem Ctx.lineSeq_setV (x : Ctx) (r : VReg) (v : VWord) : (x.setV r v).lineSeq = x.lineSeq := rfl
@[simp] theorem Ctx.pending_setV (x : Ctx) (r : VReg) (v : VWord) : (x.setV r v).pending = x.pending := rfl
@[simp] theorem Ctx.pendAt_setV (x : Ctx) (r : VReg) (v : VWord) : (x.setV r v).pendAt = x.pendAt := rfl
@[simp] theorem Ctx.results_setV (x : Ctx) (r : VReg) (v : VWord) : (x.setV r v).results = x.results := rfl
@[simp] theorem Ctx.noise_setV (x : Ctx) (r : VReg) (v : VWord) : (x.setV r v).noise = x.noise := rfl
@[simp] theorem Ctx.spools_setV (x : Ctx) (r : VReg) (v : VWord) : (x.setV r v).spools = x.spools := rfl
@[simp] theorem Ctx.binds_setV (x : Ctx) (r : VReg) (v : VWord) : (x.setV r v).binds = x.binds := rfl
@[simp] theorem Ctx.recipes_setV (x : Ctx) (r : VReg) (v : VWord) : (x.setV r v).recipes = x.recipes := rfl
@[simp] theorem Ctx.fences_setV (x : Ctx) (r : VReg) (v : VWord) : (x.setV r v).fences = x.fences := rfl
@[simp] theorem Ctx.qfences_setV (x : Ctx) (r : VReg) (v : VWord) : (x.setV r v).qfences = x.qfences := rfl
@[simp] theorem Ctx.acqs_setV (x : Ctx) (r : VReg) (v : VWord) : (x.setV r v).acqs = x.acqs := rfl
@[simp] theorem Ctx.wait_setV (x : Ctx) (r : VReg) (v : VWord) : (x.setV r v).wait = x.wait := rfl
@[simp] theorem Ctx.status_setV (x : Ctx) (r : VReg) (v : VWord) : (x.setV r v).status = x.status := rfl
@[simp] theorem Ctx.part_setV (x : Ctx) (r : VReg) (v : VWord) : (x.setV r v).part = x.part := rfl
@[simp] theorem Ctx.task_setV (x : Ctx) (r : VReg) (v : VWord) : (x.setV r v).task = x.task := rfl
@[simp] theorem Ctx.sid_setM (x : Ctx) (r : MReg) (v : MWord) : (x.setM r v).sid = x.sid := by unfold Ctx.setM; split <;> rfl
@[simp] theorem Ctx.mode_setM (x : Ctx) (r : MReg) (v : MWord) : (x.setM r v).mode = x.mode := by unfold Ctx.setM; split <;> rfl
@[simp] theorem Ctx.lat_setM (x : Ctx) (r : MReg) (v : MWord) : (x.setM r v).lat = x.lat := by unfold Ctx.setM; split <;> rfl
@[simp] theorem Ctx.pc_setM (x : Ctx) (r : MReg) (v : MWord) : (x.setM r v).pc = x.pc := by unfold Ctx.setM; split <;> rfl
@[simp] theorem Ctx.issued_setM (x : Ctx) (r : MReg) (v : MWord) : (x.setM r v).issued = x.issued := by unfold Ctx.setM; split <;> rfl
@[simp] theorem Ctx.loops_setM (x : Ctx) (r : MReg) (v : MWord) : (x.setM r v).loops = x.loops := by unfold Ctx.setM; split <;> rfl
@[simp] theorem Ctx.sys_setM (x : Ctx) (r : MReg) (v : MWord) : (x.setM r v).sys = x.sys := by unfold Ctx.setM; split <;> rfl
@[simp] theorem Ctx.lineSeq_setM (x : Ctx) (r : MReg) (v : MWord) : (x.setM r v).lineSeq = x.lineSeq := by unfold Ctx.setM; split <;> rfl
@[simp] theorem Ctx.pending_setM (x : Ctx) (r : MReg) (v : MWord) : (x.setM r v).pending = x.pending := by unfold Ctx.setM; split <;> rfl
@[simp] theorem Ctx.pendAt_setM (x : Ctx) (r : MReg) (v : MWord) : (x.setM r v).pendAt = x.pendAt := by unfold Ctx.setM; split <;> rfl
@[simp] theorem Ctx.results_setM (x : Ctx) (r : MReg) (v : MWord) : (x.setM r v).results = x.results := by unfold Ctx.setM; split <;> rfl
@[simp] theorem Ctx.noise_setM (x : Ctx) (r : MReg) (v : MWord) : (x.setM r v).noise = x.noise := by unfold Ctx.setM; split <;> rfl
@[simp] theorem Ctx.spools_setM (x : Ctx) (r : MReg) (v : MWord) : (x.setM r v).spools = x.spools := by unfold Ctx.setM; split <;> rfl
@[simp] theorem Ctx.binds_setM (x : Ctx) (r : MReg) (v : MWord) : (x.setM r v).binds = x.binds := by unfold Ctx.setM; split <;> rfl
@[simp] theorem Ctx.recipes_setM (x : Ctx) (r : MReg) (v : MWord) : (x.setM r v).recipes = x.recipes := by unfold Ctx.setM; split <;> rfl
@[simp] theorem Ctx.fences_setM (x : Ctx) (r : MReg) (v : MWord) : (x.setM r v).fences = x.fences := by unfold Ctx.setM; split <;> rfl
@[simp] theorem Ctx.qfences_setM (x : Ctx) (r : MReg) (v : MWord) : (x.setM r v).qfences = x.qfences := by unfold Ctx.setM; split <;> rfl
@[simp] theorem Ctx.acqs_setM (x : Ctx) (r : MReg) (v : MWord) : (x.setM r v).acqs = x.acqs := by unfold Ctx.setM; split <;> rfl
@[simp] theorem Ctx.wait_setM (x : Ctx) (r : MReg) (v : MWord) : (x.setM r v).wait = x.wait := by unfold Ctx.setM; split <;> rfl
@[simp] theorem Ctx.status_setM (x : Ctx) (r : MReg) (v : MWord) : (x.setM r v).status = x.status := by unfold Ctx.setM; split <;> rfl
@[simp] theorem Ctx.part_setM (x : Ctx) (r : MReg) (v : MWord) : (x.setM r v).part = x.part := by unfold Ctx.setM; split <;> rfl
@[simp] theorem Ctx.task_setM (x : Ctx) (r : MReg) (v : MWord) : (x.setM r v).task = x.task := by unfold Ctx.setM; split <;> rfl
@[simp] theorem Ctx.sid_setLatchS (x : Ctx) (n : BitVec 3) (v : Word) : (x.setLatchS n v).sid = x.sid := by unfold Ctx.setLatchS; split <;> rfl
@[simp] theorem Ctx.mode_setLatchS (x : Ctx) (n : BitVec 3) (v : Word) : (x.setLatchS n v).mode = x.mode := by unfold Ctx.setLatchS; split <;> rfl
@[simp] theorem Ctx.regs_setLatchS (x : Ctx) (n : BitVec 3) (v : Word) : (x.setLatchS n v).regs = x.regs := by unfold Ctx.setLatchS; split <;> rfl
@[simp] theorem Ctx.pc_setLatchS (x : Ctx) (n : BitVec 3) (v : Word) : (x.setLatchS n v).pc = x.pc := by unfold Ctx.setLatchS; split <;> rfl
@[simp] theorem Ctx.issued_setLatchS (x : Ctx) (n : BitVec 3) (v : Word) : (x.setLatchS n v).issued = x.issued := by unfold Ctx.setLatchS; split <;> rfl
@[simp] theorem Ctx.loops_setLatchS (x : Ctx) (n : BitVec 3) (v : Word) : (x.setLatchS n v).loops = x.loops := by unfold Ctx.setLatchS; split <;> rfl
@[simp] theorem Ctx.sys_setLatchS (x : Ctx) (n : BitVec 3) (v : Word) : (x.setLatchS n v).sys = x.sys := by unfold Ctx.setLatchS; split <;> rfl
@[simp] theorem Ctx.lineSeq_setLatchS (x : Ctx) (n : BitVec 3) (v : Word) : (x.setLatchS n v).lineSeq = x.lineSeq := by unfold Ctx.setLatchS; split <;> rfl
@[simp] theorem Ctx.pending_setLatchS (x : Ctx) (n : BitVec 3) (v : Word) : (x.setLatchS n v).pending = x.pending := by unfold Ctx.setLatchS; split <;> rfl
@[simp] theorem Ctx.pendAt_setLatchS (x : Ctx) (n : BitVec 3) (v : Word) : (x.setLatchS n v).pendAt = x.pendAt := by unfold Ctx.setLatchS; split <;> rfl
@[simp] theorem Ctx.results_setLatchS (x : Ctx) (n : BitVec 3) (v : Word) : (x.setLatchS n v).results = x.results := by unfold Ctx.setLatchS; split <;> rfl
@[simp] theorem Ctx.noise_setLatchS (x : Ctx) (n : BitVec 3) (v : Word) : (x.setLatchS n v).noise = x.noise := by unfold Ctx.setLatchS; split <;> rfl
@[simp] theorem Ctx.spools_setLatchS (x : Ctx) (n : BitVec 3) (v : Word) : (x.setLatchS n v).spools = x.spools := by unfold Ctx.setLatchS; split <;> rfl
@[simp] theorem Ctx.binds_setLatchS (x : Ctx) (n : BitVec 3) (v : Word) : (x.setLatchS n v).binds = x.binds := by unfold Ctx.setLatchS; split <;> rfl
@[simp] theorem Ctx.recipes_setLatchS (x : Ctx) (n : BitVec 3) (v : Word) : (x.setLatchS n v).recipes = x.recipes := by unfold Ctx.setLatchS; split <;> rfl
@[simp] theorem Ctx.fences_setLatchS (x : Ctx) (n : BitVec 3) (v : Word) : (x.setLatchS n v).fences = x.fences := by unfold Ctx.setLatchS; split <;> rfl
@[simp] theorem Ctx.qfences_setLatchS (x : Ctx) (n : BitVec 3) (v : Word) : (x.setLatchS n v).qfences = x.qfences := by unfold Ctx.setLatchS; split <;> rfl
@[simp] theorem Ctx.acqs_setLatchS (x : Ctx) (n : BitVec 3) (v : Word) : (x.setLatchS n v).acqs = x.acqs := by unfold Ctx.setLatchS; split <;> rfl
@[simp] theorem Ctx.wait_setLatchS (x : Ctx) (n : BitVec 3) (v : Word) : (x.setLatchS n v).wait = x.wait := by unfold Ctx.setLatchS; split <;> rfl
@[simp] theorem Ctx.status_setLatchS (x : Ctx) (n : BitVec 3) (v : Word) : (x.setLatchS n v).status = x.status := by unfold Ctx.setLatchS; split <;> rfl
@[simp] theorem Ctx.part_setLatchS (x : Ctx) (n : BitVec 3) (v : Word) : (x.setLatchS n v).part = x.part := by unfold Ctx.setLatchS; split <;> rfl
@[simp] theorem Ctx.task_setLatchS (x : Ctx) (n : BitVec 3) (v : Word) : (x.setLatchS n v).task = x.task := by unfold Ctx.setLatchS; split <;> rfl
@[simp] theorem Ctx.sid_setLatchV (x : Ctx) (n : BitVec 3) (v : VWord) : (x.setLatchV n v).sid = x.sid := by unfold Ctx.setLatchV; split <;> rfl
@[simp] theorem Ctx.mode_setLatchV (x : Ctx) (n : BitVec 3) (v : VWord) : (x.setLatchV n v).mode = x.mode := by unfold Ctx.setLatchV; split <;> rfl
@[simp] theorem Ctx.regs_setLatchV (x : Ctx) (n : BitVec 3) (v : VWord) : (x.setLatchV n v).regs = x.regs := by unfold Ctx.setLatchV; split <;> rfl
@[simp] theorem Ctx.pc_setLatchV (x : Ctx) (n : BitVec 3) (v : VWord) : (x.setLatchV n v).pc = x.pc := by unfold Ctx.setLatchV; split <;> rfl
@[simp] theorem Ctx.issued_setLatchV (x : Ctx) (n : BitVec 3) (v : VWord) : (x.setLatchV n v).issued = x.issued := by unfold Ctx.setLatchV; split <;> rfl
@[simp] theorem Ctx.loops_setLatchV (x : Ctx) (n : BitVec 3) (v : VWord) : (x.setLatchV n v).loops = x.loops := by unfold Ctx.setLatchV; split <;> rfl
@[simp] theorem Ctx.sys_setLatchV (x : Ctx) (n : BitVec 3) (v : VWord) : (x.setLatchV n v).sys = x.sys := by unfold Ctx.setLatchV; split <;> rfl
@[simp] theorem Ctx.lineSeq_setLatchV (x : Ctx) (n : BitVec 3) (v : VWord) : (x.setLatchV n v).lineSeq = x.lineSeq := by unfold Ctx.setLatchV; split <;> rfl
@[simp] theorem Ctx.pending_setLatchV (x : Ctx) (n : BitVec 3) (v : VWord) : (x.setLatchV n v).pending = x.pending := by unfold Ctx.setLatchV; split <;> rfl
@[simp] theorem Ctx.pendAt_setLatchV (x : Ctx) (n : BitVec 3) (v : VWord) : (x.setLatchV n v).pendAt = x.pendAt := by unfold Ctx.setLatchV; split <;> rfl
@[simp] theorem Ctx.results_setLatchV (x : Ctx) (n : BitVec 3) (v : VWord) : (x.setLatchV n v).results = x.results := by unfold Ctx.setLatchV; split <;> rfl
@[simp] theorem Ctx.noise_setLatchV (x : Ctx) (n : BitVec 3) (v : VWord) : (x.setLatchV n v).noise = x.noise := by unfold Ctx.setLatchV; split <;> rfl
@[simp] theorem Ctx.spools_setLatchV (x : Ctx) (n : BitVec 3) (v : VWord) : (x.setLatchV n v).spools = x.spools := by unfold Ctx.setLatchV; split <;> rfl
@[simp] theorem Ctx.binds_setLatchV (x : Ctx) (n : BitVec 3) (v : VWord) : (x.setLatchV n v).binds = x.binds := by unfold Ctx.setLatchV; split <;> rfl
@[simp] theorem Ctx.recipes_setLatchV (x : Ctx) (n : BitVec 3) (v : VWord) : (x.setLatchV n v).recipes = x.recipes := by unfold Ctx.setLatchV; split <;> rfl
@[simp] theorem Ctx.fences_setLatchV (x : Ctx) (n : BitVec 3) (v : VWord) : (x.setLatchV n v).fences = x.fences := by unfold Ctx.setLatchV; split <;> rfl
@[simp] theorem Ctx.qfences_setLatchV (x : Ctx) (n : BitVec 3) (v : VWord) : (x.setLatchV n v).qfences = x.qfences := by unfold Ctx.setLatchV; split <;> rfl
@[simp] theorem Ctx.acqs_setLatchV (x : Ctx) (n : BitVec 3) (v : VWord) : (x.setLatchV n v).acqs = x.acqs := by unfold Ctx.setLatchV; split <;> rfl
@[simp] theorem Ctx.wait_setLatchV (x : Ctx) (n : BitVec 3) (v : VWord) : (x.setLatchV n v).wait = x.wait := by unfold Ctx.setLatchV; split <;> rfl
@[simp] theorem Ctx.status_setLatchV (x : Ctx) (n : BitVec 3) (v : VWord) : (x.setLatchV n v).status = x.status := by unfold Ctx.setLatchV; split <;> rfl
@[simp] theorem Ctx.part_setLatchV (x : Ctx) (n : BitVec 3) (v : VWord) : (x.setLatchV n v).part = x.part := by unfold Ctx.setLatchV; split <;> rfl
@[simp] theorem Ctx.task_setLatchV (x : Ctx) (n : BitVec 3) (v : VWord) : (x.setLatchV n v).task = x.task := by unfold Ctx.setLatchV; split <;> rfl
@[simp] theorem Ctx.sid_addPending (x : Ctx) (t : Trap) (n : Nat) : (x.addPending t n).sid = x.sid := by simp only [Ctx.addPending]; split <;> rfl
@[simp] theorem Ctx.mode_addPending (x : Ctx) (t : Trap) (n : Nat) : (x.addPending t n).mode = x.mode := by simp only [Ctx.addPending]; split <;> rfl
@[simp] theorem Ctx.regs_addPending (x : Ctx) (t : Trap) (n : Nat) : (x.addPending t n).regs = x.regs := by simp only [Ctx.addPending]; split <;> rfl
@[simp] theorem Ctx.lat_addPending (x : Ctx) (t : Trap) (n : Nat) : (x.addPending t n).lat = x.lat := by simp only [Ctx.addPending]; split <;> rfl
@[simp] theorem Ctx.pc_addPending (x : Ctx) (t : Trap) (n : Nat) : (x.addPending t n).pc = x.pc := by simp only [Ctx.addPending]; split <;> rfl
@[simp] theorem Ctx.issued_addPending (x : Ctx) (t : Trap) (n : Nat) : (x.addPending t n).issued = x.issued := by simp only [Ctx.addPending]; split <;> rfl
@[simp] theorem Ctx.loops_addPending (x : Ctx) (t : Trap) (n : Nat) : (x.addPending t n).loops = x.loops := by simp only [Ctx.addPending]; split <;> rfl
@[simp] theorem Ctx.sys_addPending (x : Ctx) (t : Trap) (n : Nat) : (x.addPending t n).sys = x.sys := by simp only [Ctx.addPending]; split <;> rfl
@[simp] theorem Ctx.lineSeq_addPending (x : Ctx) (t : Trap) (n : Nat) : (x.addPending t n).lineSeq = x.lineSeq := by simp only [Ctx.addPending]; split <;> rfl
@[simp] theorem Ctx.results_addPending (x : Ctx) (t : Trap) (n : Nat) : (x.addPending t n).results = x.results := by simp only [Ctx.addPending]; split <;> rfl
@[simp] theorem Ctx.noise_addPending (x : Ctx) (t : Trap) (n : Nat) : (x.addPending t n).noise = x.noise := by simp only [Ctx.addPending]; split <;> rfl
@[simp] theorem Ctx.spools_addPending (x : Ctx) (t : Trap) (n : Nat) : (x.addPending t n).spools = x.spools := by simp only [Ctx.addPending]; split <;> rfl
@[simp] theorem Ctx.binds_addPending (x : Ctx) (t : Trap) (n : Nat) : (x.addPending t n).binds = x.binds := by simp only [Ctx.addPending]; split <;> rfl
@[simp] theorem Ctx.recipes_addPending (x : Ctx) (t : Trap) (n : Nat) : (x.addPending t n).recipes = x.recipes := by simp only [Ctx.addPending]; split <;> rfl
@[simp] theorem Ctx.fences_addPending (x : Ctx) (t : Trap) (n : Nat) : (x.addPending t n).fences = x.fences := by simp only [Ctx.addPending]; split <;> rfl
@[simp] theorem Ctx.qfences_addPending (x : Ctx) (t : Trap) (n : Nat) : (x.addPending t n).qfences = x.qfences := by simp only [Ctx.addPending]; split <;> rfl
@[simp] theorem Ctx.acqs_addPending (x : Ctx) (t : Trap) (n : Nat) : (x.addPending t n).acqs = x.acqs := by simp only [Ctx.addPending]; split <;> rfl
@[simp] theorem Ctx.wait_addPending (x : Ctx) (t : Trap) (n : Nat) : (x.addPending t n).wait = x.wait := by simp only [Ctx.addPending]; split <;> rfl
@[simp] theorem Ctx.status_addPending (x : Ctx) (t : Trap) (n : Nat) : (x.addPending t n).status = x.status := by simp only [Ctx.addPending]; split <;> rfl
@[simp] theorem Ctx.part_addPending (x : Ctx) (t : Trap) (n : Nat) : (x.addPending t n).part = x.part := by simp only [Ctx.addPending]; split <;> rfl
@[simp] theorem Ctx.task_addPending (x : Ctx) (t : Trap) (n : Nat) : (x.addPending t n).task = x.task := by simp only [Ctx.addPending]; split <;> rfl

/-! ### Registers: what a write leaves to read (R50) -/

@[simp] theorem Ctx.s_zero (x : Ctx) : x.s 0 = 0 := rfl
@[simp] theorem Ctx.p_zero (x : Ctx) : x.p 0 = true := rfl
@[simp] theorem Ctx.m_zero (x : Ctx) : x.m 0 = BitVec.allOnes 256 := rfl
@[simp] theorem Ctx.setS_zero (x : Ctx) (v : Word) : x.setS 0 v = x := rfl
@[simp] theorem Ctx.setP_zero (x : Ctx) (v : Bool) : x.setP 0 v = x := rfl
@[simp] theorem Ctx.setM_zero (x : Ctx) (v : MWord) : x.setM 0 v = x := rfl
theorem Ctx.s_setS (x : Ctx) (d r : SReg) (v : Word) :
    (x.setS d v).s r = if r = d ∧ d ≠ 0 then v else x.s r := by
  by_cases hd : d = 0
  · subst hd; rw [Ctx.setS_zero, if_neg fun h => h.2 rfl]
  · by_cases hr : r = 0
    · subst hr; rw [if_neg fun h => hd h.1.symm]; rfl
    · have hs : (x.setS d v).regs.s = x.regs.s.set d.toNat v d.isLt := by rw [Ctx.setS, if_neg hd]
      have h1 : ∀ y : Ctx, y.s r = y.regs.s.get r.toFin := fun _ => if_neg hr
      rw [h1, h1, hs]
      by_cases e : r = d
      · subst e; rw [if_pos ⟨rfl, hd⟩]; simp [Vector.get_eq_getElem]
      · have : d.toNat ≠ r.toNat := fun h => e (BitVec.eq_of_toNat_eq h.symm)
        rw [if_neg fun h => e h.1]; simp [Vector.get_eq_getElem, this]
theorem Ctx.p_setP (x : Ctx) (d r : PReg) (v : Bool) :
    (x.setP d v).p r = if r = d ∧ d ≠ 0 then v else x.p r := by
  by_cases hd : d = 0
  · subst hd; rw [Ctx.setP_zero, if_neg fun h => h.2 rfl]
  · by_cases hr : r = 0
    · subst hr; rw [if_neg fun h => hd h.1.symm]; rfl
    · have hs : (x.setP d v).regs.p = x.regs.p.set d.toNat v d.isLt := by rw [Ctx.setP, if_neg hd]
      have h1 : ∀ y : Ctx, y.p r = y.regs.p.get r.toFin := fun _ => if_neg hr
      rw [h1, h1, hs]
      by_cases e : r = d
      · subst e; rw [if_pos ⟨rfl, hd⟩]; simp [Vector.get_eq_getElem]
      · have : d.toNat ≠ r.toNat := fun h => e (BitVec.eq_of_toNat_eq h.symm)
        rw [if_neg fun h => e h.1]; simp [Vector.get_eq_getElem, this]
theorem Ctx.v_setV (x : Ctx) (d r : VReg) (v : VWord) :
    (x.setV d v).v r = if r = d then v else x.v r := by
  unfold Ctx.setV Ctx.v
  by_cases e : r = d
  · subst e; simp [Vector.get_eq_getElem]
  · have : d.toNat ≠ r.toNat := fun h => e (BitVec.eq_of_toNat_eq h.symm)
    simp [e, Vector.get_eq_getElem, this]
theorem Ctx.m_setM (x : Ctx) (d r : MReg) (v : MWord) :
    (x.setM d v).m r = if r = d ∧ d ≠ 0 then v else x.m r := by
  by_cases hd : d = 0
  · subst hd; rw [Ctx.setM_zero, if_neg fun h => h.2 rfl]
  · by_cases hr : r = 0
    · subst hr; rw [if_neg fun h => hd h.1.symm]; rfl
    · have hs : (x.setM d v).regs.m = x.regs.m.set d.toNat v d.isLt := by rw [Ctx.setM, if_neg hd]
      have h1 : ∀ y : Ctx, y.m r = y.regs.m.get r.toFin := fun _ => if_neg hr
      rw [h1, h1, hs]
      by_cases e : r = d
      · subst e; rw [if_pos ⟨rfl, hd⟩]; simp [Vector.get_eq_getElem]
      · have : d.toNat ≠ r.toNat := fun h => e (BitVec.eq_of_toNat_eq h.symm)
        rw [if_neg fun h => e h.1]; simp [Vector.get_eq_getElem, this]

end Sys2Proof.Machine
end

