-- ==== Sys2Proof/Laws/Results.lean ====
section
/-! SUPPORT. Exposed results (R136, R140): what a result in flight does until it lands, and where it lands. -/
namespace Sys2Proof.Machine

/-! ### Landing -/

/-- Landing one result changes registers and latches alone. -/
theorem landResult_eq (x : Ctx) (r : Result) :
    landResult x r = { x with regs := (landResult x r).regs, lat := (landResult x r).lat } := by
  have hs : ∀ (y : Ctx) (d : SReg) (v : Word), y.setS d v = { y with regs := (y.setS d v).regs } := by
    intro y d v; unfold Ctx.setS; split <;> rfl
  have hp : ∀ (y : Ctx) (d : PReg) (v : Bool), y.setP d v = { y with regs := (y.setP d v).regs } := by
    intro y d v; unfold Ctx.setP; split <;> rfl
  have hm : ∀ (y : Ctx) (d : MReg) (v : MWord), y.setM d v = { y with regs := (y.setM d v).regs } := by
    intro y d v; unfold Ctx.setM; split <;> rfl
  have hls : ∀ (y : Ctx) (n : BitVec 3) (v : Word), y.setLatchS n v = { y with lat := (y.setLatchS n v).lat } := by
    intro y n v; unfold Ctx.setLatchS; split <;> rfl
  have hlv : ∀ (y : Ctx) (n : BitVec 3) (v : VWord), y.setLatchV n v = { y with lat := (y.setLatchV n v).lat } := by
    intro y n v; unfold Ctx.setLatchV; split <;> rfl
  unfold landResult
  have hsec : ∀ y : Ctx, y = { x with regs := y.regs } →
      ∀ z : Ctx, z = { y with regs := z.regs, lat := z.lat } → z = { x with regs := z.regs, lat := z.lat } := by
    intro y hy z hz; rw [hz, hy]
  cases hr : r.sec with
  | none =>
    dsimp only
    cases r.kind <;> dsimp only
    · rw [hls, hs]
    · rw [hp]
    · rw [hlv, hlv]; rfl
    · rw [hm]
    · rw [hls]
    · rw [hlv, hlv]
  | some p =>
    obtain ⟨d, v⟩ := p
    dsimp only
    refine hsec (x.setS d v) (hs x d v) _ ?_
    cases r.kind <;> dsimp only
    · rw [hls, hs]
    · rw [hp]
    · rw [hlv, hlv]; rfl
    · rw [hm]
    · rw [hls]
    · rw [hlv, hlv]
/-- Landing does not look at the results in flight, and leaves them alone. -/
theorem landResult_results (x : Ctx) (r : Result) (rs : List Result) :
    landResult { x with results := rs } r = { landResult x r with results := rs } := by
  have e : ∀ (y : Ctx) (d : SReg) (v : Word), ({ y with results := rs } : Ctx).setS d v = { y.setS d v with results := rs } := by
    intro y d v; unfold Ctx.setS; split <;> rfl
  have ep : ∀ (y : Ctx) (d : PReg) (v : Bool), ({ y with results := rs } : Ctx).setP d v = { y.setP d v with results := rs } := by
    intro y d v; unfold Ctx.setP; split <;> rfl
  have em : ∀ (y : Ctx) (d : MReg) (v : MWord), ({ y with results := rs } : Ctx).setM d v = { y.setM d v with results := rs } := by
    intro y d v; unfold Ctx.setM; split <;> rfl
  have els : ∀ (y : Ctx) (n : BitVec 3) (v : Word),
      ({ y with results := rs } : Ctx).setLatchS n v = { y.setLatchS n v with results := rs } := by
    intro y n v; unfold Ctx.setLatchS; split <;> rfl
  have elv : ∀ (y : Ctx) (n : BitVec 3) (v : VWord),
      ({ y with results := rs } : Ctx).setLatchV n v = { y.setLatchV n v with results := rs } := by
    intro y n v; unfold Ctx.setLatchV; split <;> rfl
  have ev : ∀ (y : Ctx) (d : VReg) (v : VWord), ({ y with results := rs } : Ctx).setV d v = { y.setV d v with results := rs } :=
    fun _ _ _ => rfl
  unfold landResult
  cases r.sec with
  | none =>
    cases r.kind <;> dsimp only
    · rw [e, els]
    · rw [ep]; rfl
    · rw [ev, elv, elv]; rfl
    · rw [em]; rfl
    · rw [els]
    · rw [elv, elv]; rfl
  | some p =>
    cases r.kind <;> dsimp only
    · rw [e, e, els]
    · rw [e, ep]; rfl
    · rw [e, ev, elv, elv]; rfl
    · rw [e, em]; rfl
    · rw [e, els]
    · rw [e, elv, elv]; rfl
theorem foldl_landResult_results (due : List Result) (x : Ctx) (rs : List Result) :
    due.foldl landResult { x with results := rs } = { due.foldl landResult x with results := rs } := by
  induction due generalizing x with
  | nil => rfl
  | cons r t ih => rw [List.foldl_cons, landResult_results, ih]; rfl
theorem foldl_landResult_append (due : List Result) (x : Ctx) (rs qs : List Result) :
    due.foldl landResult { x with results := rs ++ qs } =
      { due.foldl landResult { x with results := rs } with
        results := (due.foldl landResult { x with results := rs }).results ++ qs } := by
  rw [foldl_landResult_results due x (rs ++ qs), foldl_landResult_results due x rs]

/-! ### One more bundle -/

/-- A bundle issues, and the results then due land. -/
def passBundle (x : Ctx) : Ctx := landDue (advanceIssue x)
/-- A result one bundle nearer. -/
def nearer (k : Nat) (r : Result) : Result := { r with rem := r.rem - k }

theorem filter_due (rs : List Result) (L : Nat) (h : ∀ r ∈ rs, r.rem = L + 1) :
    (rs.map (nearer 1)).filter (fun r => r.rem == 0) = if L = 0 then rs.map (nearer 1) else [] := by
  split
  · next e =>
    exact List.filter_eq_self.2 fun r hr => by
        obtain ⟨q, hq, rfl⟩ := List.mem_map.1 hr
        simp [nearer, h q hq, e]
  · next e =>
    exact List.filter_eq_nil_iff.2 fun r hr => by
        obtain ⟨q, hq, rfl⟩ := List.mem_map.1 hr
        simp [nearer, h q hq, e]
theorem filter_notDue (rs : List Result) (L : Nat) (h : ∀ r ∈ rs, r.rem = L + 1) :
    (rs.map (nearer 1)).filter (fun r => r.rem != 0) = if L = 0 then [] else rs.map (nearer 1) := by
  split
  · next e =>
    exact List.filter_eq_nil_iff.2 fun r hr => by
        obtain ⟨q, hq, rfl⟩ := List.mem_map.1 hr
        simp [nearer, h q hq, e]
  · next e =>
    exact List.filter_eq_self.2 fun r hr => by
        obtain ⟨q, hq, rfl⟩ := List.mem_map.1 hr
        simp [nearer, h q hq, e]
/-- Results that are not due stay in flight behind those that were there, one bundle nearer. -/
theorem passBundle_push (x : Ctx) (rs : List Result) (L : Nat) (h : ∀ r ∈ rs, r.rem = L + 1) (hL : L ≠ 0) :
    passBundle { x with results := x.results ++ rs } =
      { passBundle x with results := (passBundle x).results ++ rs.map (nearer 1) } := by
  have h1 := filter_due rs L h
  have h2 := filter_notDue rs L h
  rw [if_neg hL] at h1 h2
  unfold passBundle landDue advanceIssue
  simp only [List.map_append, List.filter_append]
  rw [show (rs.map fun r => ({ r with rem := r.rem - 1 } : Result)) = rs.map (nearer 1) from rfl, h1, h2, List.append_nil]
  exact foldl_landResult_append _ { x with issued := x.issued + 1 } _ _
/-- Results that become due land after those that were there. -/
theorem passBundle_land (x : Ctx) (rs : List Result) (h : ∀ r ∈ rs, r.rem = 0 + 1) :
    passBundle { x with results := x.results ++ rs } = (rs.map (nearer 1)).foldl landResult (passBundle x) := by
  have h1 := filter_due rs 0 h
  have h2 := filter_notDue rs 0 h
  rw [if_pos rfl] at h1 h2
  unfold passBundle landDue advanceIssue
  simp only [List.map_append, List.filter_append]
  rw [show (rs.map fun r => ({ r with rem := r.rem - 1 } : Result)) = rs.map (nearer 1) from rfl, h1, h2, List.append_nil,
    List.foldl_append]
/-- Bundles pass: results of latency above k change nothing but themselves for k bundles. -/
theorem iterate_passBundle_push (x : Ctx) (rs : List Result) (L k : Nat) (h : ∀ r ∈ rs, r.rem = L) (hk : k < L) :
    passBundle^[k] { x with results := x.results ++ rs } =
      { passBundle^[k] x with results := (passBundle^[k] x).results ++ rs.map (nearer k) } := by
  induction k generalizing x rs L with
  | zero =>
    simp only [Function.iterate_zero, id_eq]
    rw [show rs.map (nearer 0) = rs from List.map_id rs]
  | succ k ih =>
    obtain ⟨M, rfl⟩ : ∃ M, L = M + 1 := ⟨L - 1, by omega⟩
    rw [Function.iterate_succ_apply, Function.iterate_succ_apply, passBundle_push x rs M h (by omega),
      ih (passBundle x) (rs.map (nearer 1)) M (fun r hr => by
        obtain ⟨q, hq, rfl⟩ := List.mem_map.1 hr; simp [nearer, h q hq]) (by omega), List.map_map,
      show nearer k ∘ nearer 1 = nearer (k + 1) from funext fun r => by simp [nearer, Nat.sub_sub, Nat.add_comm]]
/-- They land together with the bundle of their latency, in the order in which they were pushed. -/
theorem iterate_passBundle_land (x : Ctx) (rs : List Result) (L : Nat) (h : ∀ r ∈ rs, r.rem = L) (hL : 0 < L) :
    passBundle^[L] { x with results := x.results ++ rs } = (rs.map (nearer L)).foldl landResult (passBundle^[L] x) := by
  obtain ⟨M, rfl⟩ : ∃ M, L = M + 1 := ⟨L - 1, by omega⟩
  rw [Function.iterate_succ_apply', Function.iterate_succ_apply', iterate_passBundle_push x rs (M + 1) M h (by omega),
    passBundle_land _ _ (fun r hr => by obtain ⟨q, hq, rfl⟩ := List.mem_map.1 hr; simp [nearer, h q hq]), List.map_map,
    show nearer 1 ∘ nearer M = nearer (M + 1) from funext fun r => by simp [nearer, Nat.sub_sub]]

/-! ### What writing a result does to the state -/

/-- A result pushed reaches the running context alone. -/
theorem pushResult_eq (s : State) (r : Result) :
    s.pushResult r = s.modCtx fun c => { c with results := c.results ++ [{ r with cls := s.bundle.cls, pos := s.place, chk := s.bundle.chk }] } := rfl
/-- An instruction under a guard: its effect, or nothing (R39). -/
theorem guarded_true (s : State) (g : Guard) (f : Ctx → State → State) (h : s.ctx.guard g = true) :
    s.guarded g f = .next (f s.ctx s) := by simp [State.guarded, h]
theorem guarded_false (s : State) (g : Guard) (f : Ctx → State → State) (h : s.ctx.guard g = false) :
    s.guarded g f = .next s := by simp [State.guarded, h]

end Sys2Proof.Machine
end

