-- ==== Sys2Proof/Laws/Items.lean ====
section
/-! SUPPORT. What the shared operations on memory traffic do: an item that sets out, a quiet store of errors, and an update
that leaves a record as it was. -/
namespace Sys2Proof.Machine

/-! ### Updates that change nothing -/

theorem vector_set_get {α : Type} {n : Nat} (v : Vector α n) (i : Fin n) : v.set i.val (v.get i) i.isLt = v := by
  ext j hj
  by_cases h : i.val = j
  · subst h; simp [Vector.get_eq_getElem]
  · simp [h]
theorem setCube_cube (s : State) (c : CubeId) : s.setCube c (s.cube c) = s := by
  unfold State.setCube State.cube
  rw [vector_set_get]
theorem modCube_id (s : State) (c : CubeId) : s.modCube c (fun k => k) = s := setCube_cube s c
theorem modCtx_id (s : State) : s.modCtx (fun x => x) = s := modCube_id s s.me
/-- Only the value at the running context matters to an update of it. -/
theorem modCtx_const (s : State) (f : Ctx → Ctx) : s.modCtx f = s.modCtx fun _ => f s.ctx := rfl
theorem modCtx_ctx (s : State) : s.modCtx (fun _ => s.ctx) = s := (modCtx_const s id).symm.trans (modCtx_id s)
theorem modCube_modCube (s : State) (c : CubeId) (f g : Cube → Cube) :
    (s.modCube c f).modCube c g = s.modCube c fun k => g (f k) := by
  unfold State.modCube
  rw [cube_setCube_self]
  unfold State.setCube
  simp
theorem modCtx_modCtx (s : State) (f g : Ctx → Ctx) : (s.modCtx f).modCtx g = s.modCtx fun x => g (f x) :=
  modCube_modCube s s.me _ _

/-- Taking what walks gave touches no cube (R104). -/
theorem cube_takeWalks (s : State) (req : Requester) (w : Nat) (c : CubeId) : (takeWalks s req w).cube c = s.cube c := rfl

/-! ### Errors in storage -/

/-- With no injected fault armed, a read of lines brings none (R376). -/
theorem fireReads_quiet (s : State) (h : ∀ c, (s.cube c).con.injArm = false) (ls : List Nat) : fireReads s ls = s := by
  have : ((List.finRange 8).any fun c => (s.cube c).con.injArm) = false := by
    rw [List.any_eq_false]; intro c _; simp [h c]
  unfold fireReads; rw [this]; rfl

/-! ### An item that sets out (R108, R117, R121) -/

/-- Taking on tags changes nothing but the edge cache (R373). -/
theorem edgeRetag_fold (f : Nat → BitVec 12) (ls : List Nat) (k : Cube) :
    ∃ e, ls.foldl (fun k l => edgeRetag k l (f l)) k = { k with edge := e } := by
  induction ls generalizing k with
  | nil => exact ⟨k.edge, rfl⟩
  | cons l ls ih => obtain ⟨e, he⟩ := ih (edgeRetag k l (f l)); exact ⟨e, he⟩
/-- An item whose home is not a window of its own cube, or which brings a value back, stands behind all others in flight; it waits
for what its place says, and sets out unless that is still to come; of the rest only the edge cache of its cube may change. -/
theorem issueItem_away (s : State) (i : Item) (h : i.home ≠ 8 + i.cube.val ∨ i.dest.isSome = true) :
    ∃ j e, issueItem s i = { s.modCube i.cube (fun k => { k with edge := e }) with items := s.items ++ [j] } ∧
      j = { i with prior := i.prior.join ⟨sourcePrior s i, [], sourceCmds s i⟩, status := j.status } ∧
      j.status = if j.mayLeave s then .transit else .waiting := by
  unfold issueItem
  have hno : ∀ (st : ItemStatus) (t : State) (q : Item), ((st == .transit && i.home == 8 + i.cube.val && i.dest.isNone &&
      canPerform t q) = true) → False := by
    intro st t q hq
    simp only [Bool.and_eq_true, beq_iff_eq] at hq
    rcases h with h | h
    · exact h hq.1.1.2
    · have := hq.1.2; rw [Option.isNone_iff_eq_none] at this; simp [this] at h
  simp only []
  rw [if_neg (fun hq => hno _ _ _ hq)]
  have e0 : ∀ its : List Item, ∃ e, ({ s with items := its } : State) =
      { s.modCube i.cube (fun k => { k with edge := e }) with items := its } := by
    intro its
    have : s.modCube i.cube (fun k => { k with edge := (s.cube i.cube).edge }) = s := setCube_cube s i.cube
    exact ⟨(s.cube i.cube).edge, by rw [this]⟩
  have e1 : ∀ (its : List Item) (q : Item) (_ : q.cube = i.cube), ∃ e, departItem { s with items := its } q =
      { s.modCube i.cube (fun k => { k with edge := e }) with items := its } := by
    intro its q hq
    unfold departItem
    split
    · split
      · next cells _ _ =>
        obtain ⟨e, he⟩ := edgeRetag_fold q.tagOf (linesOf q.op.locs) (edgeUpdate (s.cube i.cube) cells)
        rw [hq]
        refine ⟨e, ?_⟩
        show State.setCube _ i.cube _ = _
        exact congrArg (State.setCube _ i.cube) he
      · exact e0 its
    · exact e0 its
  by_cases hl : Item.mayLeave s { i with prior := i.prior.join ⟨sourcePrior s i, [], sourceCmds s i⟩ } = true
  · rw [if_pos hl]
    obtain ⟨e, he⟩ := e1 (s.items ++ [_]) _ rfl
    exact ⟨_, e, he, rfl, (if_pos hl).symm⟩
  · rw [if_neg hl]
    obtain ⟨e, he⟩ := e0 (s.items ++ [_])
    exact ⟨_, e, he, rfl, (if_neg hl).symm⟩

end Sys2Proof.Machine
end

