-- ==== Sys2Proof/Laws/Memory.lean ====
section
/-! SUPPORT. Memory as data: every operation on it keeps the canonical form, and a byte reads as it was last written. -/
namespace Sys2Proof.Machine

/-! ### The canonical form -/

/-- A list in canonical form from some address on is so from every lower one. -/
theorem memOk_mono {lo hi : Nat} (m : List Host.Cell) (h : memOk hi m = true) (le : lo ≤ hi) : memOk lo m = true := by
  cases m with
  | nil => rfl
  | cons c t =>
    obtain ⟨a, v⟩ := c
    simp only [memOk, Bool.and_eq_true, decide_eq_true_eq] at h ⊢
    exact ⟨⟨by omega, h.1.2⟩, h.2⟩
/-- A byte written at or above the first address keeps the form. -/
theorem memOk_memSet (m : List Host.Cell) (lo a : Nat) (v : Byte) (h : memOk lo m = true) (la : lo ≤ a) :
    memOk lo (memSet m a v) = true := by
  induction m generalizing lo with
  | nil => by_cases hv : v = unlisted <;> simp [memSet, memOk, hv, la]
  | cons c t ih =>
    obtain ⟨b, w⟩ := c
    simp only [memOk, Bool.and_eq_true, decide_eq_true_eq] at h
    unfold memSet
    split
    · next hab =>
      split
      · simp [memOk, h]
      · next hv => simp [memOk, hv, la, h.1.2, h.2, Nat.succ_le_of_lt hab]
    · next hab =>
      split
      · next e =>
        split
        · exact memOk_mono t h.2 (by omega)
        · next hv => subst e; simp [memOk, hv, la, h.2]
      · next e => simp only [memOk, Bool.and_eq_true, decide_eq_true_eq]; exact ⟨h.1, ih (b + 1) h.2 (by omega)⟩
theorem wf_memSet (m : List Host.Cell) (a : Nat) (v : Byte) (h : Memory.wf m) : Memory.wf (memSet m a v) :=
  memOk_memSet m 0 a v h (Nat.zero_le a)
theorem wf_memWrite (m : List Host.Cell) (cells : List (Nat × Byte)) (h : Memory.wf m) : Memory.wf (memWrite m cells) := by
  induction cells generalizing m with
  | nil => exact h
  | cons c t ih => exact ih _ (wf_memSet m c.1 c.2 h)
/-- Cells taken out leave the form, as a reset does with memory that loses its contents. -/
theorem memOk_filter (p : Host.Cell → Bool) (m : List Host.Cell) (lo : Nat) (h : memOk lo m = true) :
    memOk lo (m.filter p) = true := by
  induction m generalizing lo with
  | nil => rfl
  | cons c t ih =>
    obtain ⟨a, v⟩ := c
    simp only [memOk, Bool.and_eq_true, decide_eq_true_eq] at h
    rw [List.filter_cons]
    split
    · simp only [memOk, Bool.and_eq_true, decide_eq_true_eq]; exact ⟨h.1, ih (a + 1) h.2⟩
    · exact ih lo (memOk_mono t h.2 (by omega))
theorem wf_filter (p : Host.Cell → Bool) (m : List Host.Cell) (h : Memory.wf m) : Memory.wf (m.filter p) :=
  memOk_filter p m 0 h
theorem wf_reset : Memory.wf State.reset.mem := rfl

/-! ### Bytes -/

theorem memByte_below (m : List Host.Cell) (lo a : Nat) (h : memOk lo m = true) (ha : a < lo) : memByte m a = unlisted := by
  cases m with
  | nil => rfl
  | cons c t =>
    obtain ⟨b, v⟩ := c
    simp only [memOk, Bool.and_eq_true, decide_eq_true_eq] at h
    have h1 : b ≠ a := by omega
    have h2 : a < b := by omega
    simp [memByte, h1, h2]
/-- A byte reads as it was written, and every other byte as before. -/
theorem memByte_memSet (m : List Host.Cell) (lo a b : Nat) (v : Byte) (h : memOk lo m = true) :
    memByte (memSet m a v) b = if b = a then v else memByte m b := by
  induction m generalizing lo with
  | nil =>
    by_cases hv : v = unlisted
    · by_cases hb : b = a <;> simp [memSet, memByte, hv, hb]
    · by_cases hb : b = a
      · simp [memSet, memByte, hv, hb]
      · simp [memSet, memByte, hv, hb, Ne.symm hb]
  | cons c t ih =>
    obtain ⟨d, w⟩ := c
    simp only [memOk, Bool.and_eq_true, decide_eq_true_eq] at h
    unfold memSet
    split
    · next had =>
      by_cases hb : b = a
      · subst hb
        have h1 : d ≠ b := by omega
        by_cases hv : v = unlisted
        · simp [memByte, hv, h1, had]
        · simp [memByte, hv]
      · by_cases hv : v = unlisted
        · simp [hv, hb]
        · rw [if_neg hv, if_neg hb, memByte, if_neg (Ne.symm hb)]
          split
          · next hab =>
            have h1 : d ≠ b := by omega
            have h2 : b < d := by omega
            simp [memByte, h1, h2]
          · rfl
    · next had =>
      split
      · next e =>
        subst e
        by_cases hb : b = d
        · subst hb
          by_cases hv : v = unlisted
          · simp only [hv, if_true]; exact memByte_below t (b + 1) b h.2 (by omega)
          · simp [memByte, hv]
        · by_cases hv : v = unlisted
          · simp only [hv, if_true, if_neg hb, memByte, if_neg (Ne.symm hb)]
            split
            · exact memByte_below t (d + 1) b h.2 (by omega)
            · rfl
          · simp [memByte, hv, hb, Ne.symm hb]
      · next e =>
        simp only [memByte]
        by_cases hd : d = b
        · subst hd; simp [e]
        · simp only [if_neg hd]
          split
          · next hbd => rw [if_neg (by omega)]
          · exact ih (d + 1) h.2
theorem memByte_memSet_self (m : List Host.Cell) (a : Nat) (v : Byte) (h : Memory.wf m) : memByte (memSet m a v) a = v := by
  rw [memByte_memSet m 0 a a v h, if_pos rfl]
theorem memByte_memSet_ne (m : List Host.Cell) (a b : Nat) (v : Byte) (h : Memory.wf m) (ne : b ≠ a) :
    memByte (memSet m a v) b = memByte m b := by
  rw [memByte_memSet m 0 a b v h, if_neg ne]
/-- A byte that no cell names reads as before. -/
theorem memByte_memWrite_ne (m : List Host.Cell) (cells : List (Nat × Byte)) (a : Nat) (h : Memory.wf m)
    (ne : ∀ c ∈ cells, c.1 ≠ a) : memByte (memWrite m cells) a = memByte m a := by
  induction cells generalizing m with
  | nil => rfl
  | cons c t ih =>
    have h1 := ih (memSet m c.1 c.2) (wf_memSet m c.1 c.2 h) fun d hd => ne d (List.mem_cons_of_mem c hd)
    exact h1.trans (memByte_memSet_ne m c.1 a c.2 h fun e => ne c List.mem_cons_self e.symm)
/-- A byte that exactly the last of some cells names reads as that cell. -/
theorem memByte_memWrite_last (m : List Host.Cell) (front back : List (Nat × Byte)) (a : Nat) (v : Byte) (h : Memory.wf m)
    (ne : ∀ c ∈ back, c.1 ≠ a) : memByte (memWrite m (front ++ (a, v) :: back)) a = v := by
  have e : memWrite m (front ++ (a, v) :: back) = memWrite (memSet (memWrite m front) a v) back := by
    simp [memWrite, List.foldl_append]
  rw [e, memByte_memWrite_ne _ back a (wf_memSet _ a v (wf_memWrite m front h)) ne,
    memByte_memSet_self _ a v (wf_memWrite m front h)]

/-! ### Numbers and their bytes (R5) -/

theorem length_bytesLE (n v : Nat) : (bytesLE n v).length = n := by
  induction n generalizing v with
  | zero => rfl
  | succ n ih => simp [bytesLE, ih]
/-- The bytes of a number, packed again, are the number modulo their range. -/
theorem packLE_bytesLE (n v : Nat) : packLE (bytesLE n v) = v % 256 ^ n := by
  induction n generalizing v with
  | zero => simp [bytesLE, packLE, Nat.mod_one]
  | succ n ih =>
    have h : packLE (bytesLE (n + 1) v) = v % 256 + 256 * packLE (bytesLE n (v / 256)) := by
      simp [bytesLE, packLE]
    rw [h, ih, Nat.pow_succ, Nat.mul_comm (256 ^ n) 256, Nat.mod_mul]

end Sys2Proof.Machine
end

