-- ==== Sys2Proof/Laws/Home.lean ====
section
/-! SUPPORT. What writing bytes at their home does: the bytes, and everything else that may change. -/
namespace Sys2Proof.Machine

/-- What stands beside memory: everything but the marks on lines, the checksum records of cubes, the notes to watchers and the
writes that wait at windows. -/
theorem voidTiles_eq (s : State) (locs : List Nat) :
    ∃ cs, voidTiles s locs = { s with cubes := cs } ∧ ∀ c, ∃ r, cs.get c = { s.cube c with recs := r } := by
  unfold voidTiles
  generalize (List.filterMap _ _ : List (CubeId × Nat)).eraseDups = ts
  suffices h : ∀ (ts : List (CubeId × Nat)) (u : State) (cs : Vector Cube 8), u = { s with cubes := cs } →
      (∀ c, ∃ r, cs.get c = { s.cube c with recs := r }) →
      ∃ cs', (ts.foldl (fun s t => s.modCube t.1 fun k => { k with recs := k.recs.filter fun r => r.tile != t.2 }) u) =
        { s with cubes := cs' } ∧ ∀ c, ∃ r, cs'.get c = { s.cube c with recs := r } from
    h ts s s.cubes rfl fun c => ⟨(s.cube c).recs, rfl⟩
  intro ts
  induction ts with
  | nil => exact fun u cs hu hc => ⟨cs, hu, hc⟩
  | cons t ts ih =>
    intro u cs hu hc
    subst hu
    refine ih _ (cs.set t.1.val { cs.get t.1 with recs := (cs.get t.1).recs.filter fun r => r.tile != t.2 } t.1.isLt) rfl ?_
    intro c
    by_cases h : c = t.1
    · subst h
      obtain ⟨r, hr⟩ := hc t.1
      exact ⟨r.filter fun q => q.tile != t.2, by rw [hr]; simp [Vector.get_eq_getElem]⟩
    · obtain ⟨r, hr⟩ := hc c
      refine ⟨r, ?_⟩
      rw [← hr]
      have : t.1.val ≠ c.val := fun e => h (Fin.ext e.symm)
      simp [Vector.get_eq_getElem, this]
/-- Bytes at places that are no window, none of them mirrored, change memory by just those bytes. -/
theorem homeWrite_plain (s : State) (m : Mode) (who : Writer) (tag : BitVec 12) (cells : List (Nat × Byte))
    (hp : ∀ d ∈ cells, (keySpace s d.1).isWindow = false) (hm : mirrorCells s cells = []) (hne : cells ≠ []) :
    ∃ cs ow po no, homeWrite s m who tag cells =
        { s with mem := memWrite s.mem cells, cubes := cs, owners := ow, poison := po, notes := no } ∧
      ∀ c, ∃ r, cs.get c = { s.cube c with recs := r } := by
  have h1 : cells.filter (fun d => (keySpace s d.1).isWindow) = [] := by
    rw [List.filter_eq_nil_iff]; intro d hd; simp [hp d hd]
  have h2 : cells.filter (fun d => !(keySpace s d.1).isWindow) = cells := by
    rw [List.filter_eq_self]; intro d hd; simp [hp d hd]
  have h3 : cells.isEmpty = false := by cases cells with | nil => exact absurd rfl hne | cons _ _ => rfl
  unfold homeWrite
  rw [h1, h2]
  simp only [h3, Bool.false_eq_true, if_false]
  obtain ⟨cs, hcs, hr⟩ := voidTiles_eq (placeCells s tag cells) (cells.map Prod.fst)
  have hw : ∀ u : State, windowOps u m who [] = [] := fun _ => rfl
  rw [hcs, hw]
  have hpc : ∃ ow po no, placeCells s tag cells =
      { s with mem := memWrite s.mem cells, owners := ow, poison := po, notes := no } := by
    unfold placeCells
    rw [hm, List.append_nil]
    have hcp : ∀ (u : State) (l : List Nat), ∃ po, clearPoison u l = { u with poison := po } := by
      intro u l; unfold clearPoison; split
      · exact ⟨u.poison, rfl⟩
      · exact ⟨_, rfl⟩
    obtain ⟨po, h⟩ := hcp (tagLines { s with mem := memWrite s.mem cells } (cells.map Prod.fst) tag) (cells.map Prod.fst)
    simp only [h]
    exact ⟨_, _, _, rfl⟩
  obtain ⟨ow, po, no, hpc⟩ := hpc
  rw [hpc] at hr ⊢
  refine ⟨cs, ow, po, no, ?_, hr⟩
  rw [List.append_nil]
/-- Where no cube is being evacuated, writes have no second place (R381). -/
theorem mirrorCells_none (s : State) (h : ∀ c, (s.cube c).hw.life ≠ .evacuating) (cells : List (Nat × Byte)) :
    mirrorCells s cells = [] := by
  have hs : mirrorStep s cells = [] := by
    unfold mirrorStep
    rw [List.flatMap_eq_nil_iff]
    intro d _
    split
    · next hd =>
      have := h ⟨d.1 / 0x10_0000_0000, hd⟩
      simp [this]
    · rfl
  unfold mirrorCells mirrorFrom
  simp [hs]
theorem cellsAt_ne_nil (a : Nat) (bs : List Byte) (h : bs ≠ []) : cellsAt a bs ≠ [] := by
  intro e
  apply h
  have := congrArg List.length e
  simpa [cellsAt] using this

end Sys2Proof.Machine
end

