-- ==== Sys2Proof/Laws/PerInstr.lean ====
section
/-! SUPPORT. Per instruction: which instructions the encoder of chapter 02 encodes. -/
namespace Sys2Proof.Laws.EncodedIffSlot

set_option Elab.async false

/-- The encoder gives words to exactly the instructions that stand in slots. -/
def Statement (i : Instr) : Prop := (encode i).isSome = i.isSlot

theorem nop : Statement .nop := rfl
theorem halt (g : Guard) : Statement (.halt g) := rfl
theorem yield (g : Guard) : Statement (.yield g) := rfl
theorem trap (g : Guard) (code : BitVec 6) : Statement (.trap g code) := rfl
theorem eret (g : Guard) : Statement (.eret g) := rfl
theorem iflush (g : Guard) : Statement (.iflush g) := rfl
theorem tlbi (g : Guard) (d : SReg) (a : Src) (code : BitVec 6) : Statement (.tlbi g d a code) := rfl
theorem noise (g : Guard) (d : SReg) : Statement (.noise g d) := rfl
theorem cyc (g : Guard) (d : SReg) : Statement (.cyc g d) := rfl
theorem self (g : Guard) (d : SReg) : Statement (.self g d) := rfl
theorem brk (g : Guard) : Statement (.brk g) := rfl
theorem sysrd (g : Guard) (d : SReg) (n : BitVec 12) : Statement (.sysrd g d n) := rfl
theorem syswr (g : Guard) (s : SReg) (n : BitVec 12) : Statement (.syswr g s n) := rfl
theorem add (g : Guard) (m : Mods) (d : SReg) (a : Src) (b : Src) : Statement (.add g m d a b) := rfl
theorem sub (g : Guard) (m : Mods) (d : SReg) (a : Src) (b : Src) : Statement (.sub g m d a b) := rfl
theorem and (g : Guard) (m : Mods) (d : SReg) (a : Src) (b : Src) : Statement (.and g m d a b) := rfl
theorem or (g : Guard) (m : Mods) (d : SReg) (a : Src) (b : Src) : Statement (.or g m d a b) := rfl
theorem xor (g : Guard) (m : Mods) (d : SReg) (a : Src) (b : Src) : Statement (.xor g m d a b) := rfl
theorem andn (g : Guard) (m : Mods) (d : SReg) (a : Src) (b : Src) : Statement (.andn g m d a b) := rfl
theorem orn (g : Guard) (m : Mods) (d : SReg) (a : Src) (b : Src) : Statement (.orn g m d a b) := rfl
theorem shl (g : Guard) (m : Mods) (d : SReg) (a : Src) (b : Src) : Statement (.shl g m d a b) := rfl
theorem shr (g : Guard) (m : Mods) (d : SReg) (a : Src) (b : Src) : Statement (.shr g m d a b) := rfl
theorem sar (g : Guard) (m : Mods) (d : SReg) (a : Src) (b : Src) : Statement (.sar g m d a b) := rfl
theorem rol (g : Guard) (m : Mods) (d : SReg) (a : Src) (b : Src) : Statement (.rol g m d a b) := rfl
theorem min (g : Guard) (m : Mods) (d : SReg) (a : Src) (b : Src) : Statement (.min g m d a b) := rfl
theorem max (g : Guard) (m : Mods) (d : SReg) (a : Src) (b : Src) : Statement (.max g m d a b) := rfl
theorem minn (g : Guard) (m : Mods) (d : SReg) (a : Src) (b : Src) : Statement (.minn g m d a b) := rfl
theorem maxn (g : Guard) (m : Mods) (d : SReg) (a : Src) (b : Src) : Statement (.maxn g m d a b) := rfl
theorem ror (g : Guard) (m : Mods) (d : SReg) (a : Src) (b : Src) : Statement (.ror g m d a b) := rfl
theorem mul (g : Guard) (m : Mods) (d : SReg) (a : Src) (b : Src) : Statement (.mul g m d a b) := rfl
theorem mulh (g : Guard) (m : Mods) (d : SReg) (a : Src) (b : Src) : Statement (.mulh g m d a b) := rfl
theorem mulhn (g : Guard) (m : Mods) (d : SReg) (a : Src) (b : Src) : Statement (.mulhn g m d a b) := rfl
theorem div (g : Guard) (m : Mods) (d : SReg) (a : Src) (b : Src) : Statement (.div g m d a b) := rfl
theorem divn (g : Guard) (m : Mods) (d : SReg) (a : Src) (b : Src) : Statement (.divn g m d a b) := rfl
theorem rem (g : Guard) (m : Mods) (d : SReg) (a : Src) (b : Src) : Statement (.rem g m d a b) := rfl
theorem remn (g : Guard) (m : Mods) (d : SReg) (a : Src) (b : Src) : Statement (.remn g m d a b) := rfl
theorem popc (g : Guard) (m : Mods) (d : SReg) (a : Src) : Statement (.popc g m d a) := rfl
theorem clz (g : Guard) (m : Mods) (d : SReg) (a : Src) : Statement (.clz g m d a) := rfl
theorem ctz (g : Guard) (m : Mods) (d : SReg) (a : Src) : Statement (.ctz g m d a) := rfl
theorem brev (g : Guard) (m : Mods) (d : SReg) (a : Src) : Statement (.brev g m d a) := rfl
theorem bswap (g : Guard) (m : Mods) (d : SReg) (a : Src) : Statement (.bswap g m d a) := rfl
theorem abs (g : Guard) (m : Mods) (d : SReg) (a : Src) : Statement (.abs g m d a) := rfl
theorem sext (g : Guard) (m : Mods) (d : SReg) (a : Src) (b : Src) : Statement (.sext g m d a b) := rfl
theorem zext (g : Guard) (m : Mods) (d : SReg) (a : Src) (b : Src) : Statement (.zext g m d a b) := rfl
theorem bfxs (g : Guard) (m : Mods) (d : SReg) (a : Src) (b : Src) : Statement (.bfxs g m d a b) := rfl
theorem bfxn (g : Guard) (m : Mods) (d : SReg) (a : Src) (b : Src) : Statement (.bfxn g m d a b) := rfl
theorem bfi (g : Guard) (m : Mods) (d : SReg) (a : Src) (b : Src) : Statement (.bfi g m d a b) := rfl
theorem fshl (g : Guard) (m : Mods) (d : SReg) (a : Src) (b : Src) : Statement (.fshl g m d a b) := rfl
theorem fshr (g : Guard) (m : Mods) (d : SReg) (a : Src) (b : Src) : Statement (.fshr g m d a b) := rfl
theorem fadd (g : Guard) (m : Mods) (d : SReg) (a : Src) (b : Src) : Statement (.fadd g m d a b) := rfl
theorem fsub (g : Guard) (m : Mods) (d : SReg) (a : Src) (b : Src) : Statement (.fsub g m d a b) := rfl
theorem fmul (g : Guard) (m : Mods) (d : SReg) (a : Src) (b : Src) : Statement (.fmul g m d a b) := rfl
theorem ffma (g : Guard) (m : Mods) (d : SReg) (a : Src) (b : Src) : Statement (.ffma g m d a b) := rfl
theorem fmin (g : Guard) (m : Mods) (d : SReg) (a : Src) (b : Src) : Statement (.fmin g m d a b) := rfl
theorem fmax (g : Guard) (m : Mods) (d : SReg) (a : Src) (b : Src) : Statement (.fmax g m d a b) := rfl
theorem fabs (g : Guard) (m : Mods) (d : SReg) (a : Src) : Statement (.fabs g m d a) := rfl
theorem fneg (g : Guard) (m : Mods) (d : SReg) (a : Src) : Statement (.fneg g m d a) := rfl
theorem fcvtif (g : Guard) (m : Mods) (d : SReg) (a : Src) : Statement (.fcvtif g m d a) := rfl
theorem fcvtnf (g : Guard) (m : Mods) (d : SReg) (a : Src) : Statement (.fcvtnf g m d a) := rfl
theorem fcvtfi (g : Guard) (m : Mods) (d : SReg) (a : Src) : Statement (.fcvtfi g m d a) := rfl
theorem fcvtfn (g : Guard) (m : Mods) (d : SReg) (a : Src) : Statement (.fcvtfn g m d a) := rfl
theorem fsqrt (g : Guard) (m : Mods) (d : SReg) (a : Src) : Statement (.fsqrt g m d a) := rfl
theorem addi (g : Guard) (m : Mods) (d : SReg) (a : Src) (imm : BitVec 14) : Statement (.addi g m d a imm) := rfl
theorem andi (g : Guard) (m : Mods) (d : SReg) (a : Src) (imm : BitVec 14) : Statement (.andi g m d a imm) := rfl
theorem ori (g : Guard) (m : Mods) (d : SReg) (a : Src) (imm : BitVec 14) : Statement (.ori g m d a imm) := rfl
theorem xori (g : Guard) (m : Mods) (d : SReg) (a : Src) (imm : BitVec 14) : Statement (.xori g m d a imm) := rfl
theorem shli (g : Guard) (m : Mods) (d : SReg) (a : Src) (imm : BitVec 14) : Statement (.shli g m d a imm) := rfl
theorem shri (g : Guard) (m : Mods) (d : SReg) (a : Src) (imm : BitVec 14) : Statement (.shri g m d a imm) := rfl
theorem sari (g : Guard) (m : Mods) (d : SReg) (a : Src) (imm : BitVec 14) : Statement (.sari g m d a imm) := rfl
theorem muli (g : Guard) (m : Mods) (d : SReg) (a : Src) (imm : BitVec 14) : Statement (.muli g m d a imm) := rfl
theorem movi (g : Guard) (m : Mods) (d : SReg) (imm : BitVec 23) : Statement (.movi g m d imm) := rfl
theorem movhi (g : Guard) (m : Mods) (d : SReg) (imm : BitVec 23) : Statement (.movhi g m d imm) := rfl
theorem cmpeq (g : Guard) (tv : Bool) (ct : Comb) (p : PReg) (q : PReg) (a : Src) (b : Src) :
    Statement (.cmpeq g tv ct p q a b) := rfl
theorem cmpeqImm (g : Guard) (tv : Bool) (ct : Comb) (p : PReg) (q : PReg) (a : Src) (imm : BitVec 13) :
    Statement (.cmpeqImm g tv ct p q a imm) := rfl
theorem cmpne (g : Guard) (tv : Bool) (ct : Comb) (p : PReg) (q : PReg) (a : Src) (b : Src) :
    Statement (.cmpne g tv ct p q a b) := rfl
theorem cmpneImm (g : Guard) (tv : Bool) (ct : Comb) (p : PReg) (q : PReg) (a : Src) (imm : BitVec 13) :
    Statement (.cmpneImm g tv ct p q a imm) := rfl
theorem cmplt (g : Guard) (tv : Bool) (ct : Comb) (p : PReg) (q : PReg) (a : Src) (b : Src) :
    Statement (.cmplt g tv ct p q a b) := rfl
theorem cmpltImm (g : Guard) (tv : Bool) (ct : Comb) (p : PReg) (q : PReg) (a : Src) (imm : BitVec 13) :
    Statement (.cmpltImm g tv ct p q a imm) := rfl
theorem cmple (g : Guard) (tv : Bool) (ct : Comb) (p : PReg) (q : PReg) (a : Src) (b : Src) :
    Statement (.cmple g tv ct p q a b) := rfl
theorem cmpleImm (g : Guard) (tv : Bool) (ct : Comb) (p : PReg) (q : PReg) (a : Src) (imm : BitVec 13) :
    Statement (.cmpleImm g tv ct p q a imm) := rfl
theorem cmpltn (g : Guard) (tv : Bool) (ct : Comb) (p : PReg) (q : PReg) (a : Src) (b : Src) :
    Statement (.cmpltn g tv ct p q a b) := rfl
theorem cmpltnImm (g : Guard) (tv : Bool) (ct : Comb) (p : PReg) (q : PReg) (a : Src) (imm : BitVec 13) :
    Statement (.cmpltnImm g tv ct p q a imm) := rfl
theorem cmplen (g : Guard) (tv : Bool) (ct : Comb) (p : PReg) (q : PReg) (a : Src) (b : Src) :
    Statement (.cmplen g tv ct p q a b) := rfl
theorem cmplenImm (g : Guard) (tv : Bool) (ct : Comb) (p : PReg) (q : PReg) (a : Src) (imm : BitVec 13) :
    Statement (.cmplenImm g tv ct p q a imm) := rfl
theorem fcmpeq (g : Guard) (tv : Bool) (ct : Comb) (p : PReg) (q : PReg) (a : Src) (b : Src) :
    Statement (.fcmpeq g tv ct p q a b) := rfl
theorem fcmplt (g : Guard) (tv : Bool) (ct : Comb) (p : PReg) (q : PReg) (a : Src) (b : Src) :
    Statement (.fcmplt g tv ct p q a b) := rfl
theorem fcmple (g : Guard) (tv : Bool) (ct : Comb) (p : PReg) (q : PReg) (a : Src) (b : Src) :
    Statement (.fcmple g tv ct p q a b) := rfl
theorem fcmpun (g : Guard) (tv : Bool) (ct : Comb) (p : PReg) (q : PReg) (a : Src) (b : Src) :
    Statement (.fcmpun g tv ct p q a b) := rfl
theorem br (g : Guard) (disp : BitVec 29) : Statement (.br g disp) := rfl
theorem brl (g : Guard) (disp : BitVec 29) : Statement (.brl g disp) := rfl
theorem jr (g : Guard) (a : Src) : Statement (.jr g a) := rfl
theorem jrl (g : Guard) (a : Src) : Statement (.jrl g a) := rfl
theorem pand (g : Guard) (d : PReg) (a : PReg) (b : PReg) : Statement (.pand g d a b) := rfl
theorem por (g : Guard) (d : PReg) (a : PReg) (b : PReg) : Statement (.por g d a b) := rfl
theorem pxor (g : Guard) (d : PReg) (a : PReg) (b : PReg) : Statement (.pxor g d a b) := rfl
theorem pandn (g : Guard) (d : PReg) (a : PReg) (b : PReg) : Statement (.pandn g d a b) := rfl
theorem pmovs (g : Guard) (a : Src) : Statement (.pmovs g a) := rfl
theorem pmovp (g : Guard) (d : SReg) : Statement (.pmovp g d) := rfl
theorem lpop (g : Guard) : Statement (.lpop g) := rfl
theorem loop (g : Guard) (c : SReg) (e : BitVec 21) : Statement (.loop g c e) := rfl
theorem loopi (g : Guard) (n : BitVec 19) (e : BitVec 10) : Statement (.loopi g n e) := rfl
theorem ld (g : Guard) (nw : Bool) (d : SReg) (base : Src) (z : Size) (x : Bool) (off : BitVec 11) :
    Statement (.ld g nw d base z x off) := rfl
theorem st (g : Guard) (data : SReg) (base : Src) (z : Size) (glob : Bool) (line : BitVec 3) (off : BitVec 11) :
    Statement (.st g data base z glob line off) := rfl
theorem amoAdd (g : Guard) (d : SReg) (a : Src) (b : Src) : Statement (.amoAdd g d a b) := rfl
theorem amoAnd (g : Guard) (d : SReg) (a : Src) (b : Src) : Statement (.amoAnd g d a b) := rfl
theorem amoOr (g : Guard) (d : SReg) (a : Src) (b : Src) : Statement (.amoOr g d a b) := rfl
theorem amoXor (g : Guard) (d : SReg) (a : Src) (b : Src) : Statement (.amoXor g d a b) := rfl
theorem amoMin (g : Guard) (d : SReg) (a : Src) (b : Src) : Statement (.amoMin g d a b) := rfl
theorem amoMax (g : Guard) (d : SReg) (a : Src) (b : Src) : Statement (.amoMax g d a b) := rfl
theorem amoMinn (g : Guard) (d : SReg) (a : Src) (b : Src) : Statement (.amoMinn g d a b) := rfl
theorem amoMaxn (g : Guard) (d : SReg) (a : Src) (b : Src) : Statement (.amoMaxn g d a b) := rfl
theorem amoSwap (g : Guard) (d : SReg) (a : Src) (b : Src) : Statement (.amoSwap g d a b) := rfl
theorem amoCas (g : Guard) (d : SReg) (a : Src) (b : Src) : Statement (.amoCas g d a b) := rfl
theorem amowAdd (g : Guard) (d : SReg) (a : Src) (b : Src) : Statement (.amowAdd g d a b) := rfl
theorem amowAnd (g : Guard) (d : SReg) (a : Src) (b : Src) : Statement (.amowAnd g d a b) := rfl
theorem amowOr (g : Guard) (d : SReg) (a : Src) (b : Src) : Statement (.amowOr g d a b) := rfl
theorem amowXor (g : Guard) (d : SReg) (a : Src) (b : Src) : Statement (.amowXor g d a b) := rfl
theorem amowMin (g : Guard) (d : SReg) (a : Src) (b : Src) : Statement (.amowMin g d a b) := rfl
theorem amowMax (g : Guard) (d : SReg) (a : Src) (b : Src) : Statement (.amowMax g d a b) := rfl
theorem amowMinn (g : Guard) (d : SReg) (a : Src) (b : Src) : Statement (.amowMinn g d a b) := rfl
theorem amowMaxn (g : Guard) (d : SReg) (a : Src) (b : Src) : Statement (.amowMaxn g d a b) := rfl
theorem amowSwap (g : Guard) (d : SReg) (a : Src) (b : Src) : Statement (.amowSwap g d a b) := rfl
theorem amowCas (g : Guard) (d : SReg) (a : Src) (b : Src) : Statement (.amowCas g d a b) := rfl
theorem amowFadd (g : Guard) (d : SReg) (a : Src) (b : Src) : Statement (.amowFadd g d a b) := rfl
theorem amowFmax (g : Guard) (d : SReg) (a : Src) (b : Src) : Statement (.amowFmax g d a b) := rfl
theorem redAdd (g : Guard) (ord : Bool) (z : Bool) (a : Src) (b : Src) : Statement (.redAdd g ord z a b) := rfl
theorem redAnd (g : Guard) (ord : Bool) (z : Bool) (a : Src) (b : Src) : Statement (.redAnd g ord z a b) := rfl
theorem redOr (g : Guard) (ord : Bool) (z : Bool) (a : Src) (b : Src) : Statement (.redOr g ord z a b) := rfl
theorem redXor (g : Guard) (ord : Bool) (z : Bool) (a : Src) (b : Src) : Statement (.redXor g ord z a b) := rfl
theorem redMin (g : Guard) (ord : Bool) (z : Bool) (a : Src) (b : Src) : Statement (.redMin g ord z a b) := rfl
theorem redMax (g : Guard) (ord : Bool) (z : Bool) (a : Src) (b : Src) : Statement (.redMax g ord z a b) := rfl
theorem redMinn (g : Guard) (ord : Bool) (z : Bool) (a : Src) (b : Src) : Statement (.redMinn g ord z a b) := rfl
theorem redMaxn (g : Guard) (ord : Bool) (z : Bool) (a : Src) (b : Src) : Statement (.redMaxn g ord z a b) := rfl
theorem redFadd (g : Guard) (ord : Bool) (a : Src) (b : Src) : Statement (.redFadd g ord a b) := rfl
theorem redFmax (g : Guard) (ord : Bool) (a : Src) (b : Src) : Statement (.redFmax g ord a b) := rfl
theorem cadd (g : Guard) (line : BitVec 3) (glob : Bool) (a : Src) (b : Src) (scope : Scope) (rel : Bool) :
    Statement (.cadd g line glob a b scope rel) := rfl
theorem cmax (g : Guard) (line : BitVec 3) (glob : Bool) (a : Src) (b : Src) (scope : Scope) (rel : Bool) :
    Statement (.cmax g line glob a b scope rel) := rfl
theorem cwait (g : Guard) (d : SReg) (a : Src) (b : Src) (scope : Scope) (acq : Bool) (np : Bool) :
    Statement (.cwait g d a b scope acq np) := rfl
theorem crd (g : Guard) (d : SReg) (a : Src) (scope : Scope) (acq : Bool) : Statement (.crd g d a scope acq) := rfl
theorem fence (g : Guard) (kind : FenceKind) (scope : Scope) : Statement (.fence g kind scope) := rfl
theorem qfence (g : Guard) (mask : BitVec 6) : Statement (.qfence g mask) := rfl
theorem bind (g : Guard) (d : SReg) (a : Src) (b : Src) : Statement (.bind g d a b) := rfl
theorem unbind (g : Guard) (d : SReg) (a : Src) (b : Src) : Statement (.unbind g d a b) := rfl
theorem join (g : Guard) (d : SReg) (a : Src) : Statement (.join g d a) := rfl
theorem leave (g : Guard) (d : SReg) (a : Src) : Statement (.leave g d a) := rfl
theorem launch (g : Guard) (d : SReg) (a : Src) (b : Src) : Statement (.launch g d a b) := rfl
theorem trninfo (g : Guard) (d : SReg) (a : Src) : Statement (.trninfo g d a) := rfl
theorem vadd (k : MReg) (u : Bool) (m : Mods) (d : VReg) (a : VSrc) (b : VSrc) (t : ElemT) :
    Statement (.vadd k u m d a b t) := rfl
theorem vsub (k : MReg) (u : Bool) (m : Mods) (d : VReg) (a : VSrc) (b : VSrc) (t : ElemT) :
    Statement (.vsub k u m d a b t) := rfl
theorem vadds (k : MReg) (u : Bool) (m : Mods) (d : VReg) (a : VSrc) (b : VSrc) (t : ElemT) :
    Statement (.vadds k u m d a b t) := rfl
theorem vsubs (k : MReg) (u : Bool) (m : Mods) (d : VReg) (a : VSrc) (b : VSrc) (t : ElemT) :
    Statement (.vsubs k u m d a b t) := rfl
theorem vaddsn (k : MReg) (u : Bool) (m : Mods) (d : VReg) (a : VSrc) (b : VSrc) (t : ElemT) :
    Statement (.vaddsn k u m d a b t) := rfl
theorem vsubsn (k : MReg) (u : Bool) (m : Mods) (d : VReg) (a : VSrc) (b : VSrc) (t : ElemT) :
    Statement (.vsubsn k u m d a b t) := rfl
theorem vmul (k : MReg) (u : Bool) (m : Mods) (d : VReg) (a : VSrc) (b : VSrc) (t : ElemT) :
    Statement (.vmul k u m d a b t) := rfl
theorem vmulh (k : MReg) (u : Bool) (m : Mods) (d : VReg) (a : VSrc) (b : VSrc) (t : ElemT) :
    Statement (.vmulh k u m d a b t) := rfl
theorem vmulhn (k : MReg) (u : Bool) (m : Mods) (d : VReg) (a : VSrc) (b : VSrc) (t : ElemT) :
    Statement (.vmulhn k u m d a b t) := rfl
theorem vmin (k : MReg) (u : Bool) (m : Mods) (d : VReg) (a : VSrc) (b : VSrc) (t : ElemT) :
    Statement (.vmin k u m d a b t) := rfl
theorem vmax (k : MReg) (u : Bool) (m : Mods) (d : VReg) (a : VSrc) (b : VSrc) (t : ElemT) :
    Statement (.vmax k u m d a b t) := rfl
theorem vminn (k : MReg) (u : Bool) (m : Mods) (d : VReg) (a : VSrc) (b : VSrc) (t : ElemT) :
    Statement (.vminn k u m d a b t) := rfl
theorem vmaxn (k : MReg) (u : Bool) (m : Mods) (d : VReg) (a : VSrc) (b : VSrc) (t : ElemT) :
    Statement (.vmaxn k u m d a b t) := rfl
theorem vabs (k : MReg) (u : Bool) (m : Mods) (d : VReg) (a : VSrc) (t : ElemT) : Statement (.vabs k u m d a t) := rfl
theorem vneg (k : MReg) (u : Bool) (m : Mods) (d : VReg) (a : VSrc) (t : ElemT) : Statement (.vneg k u m d a t) := rfl
theorem vavgn (k : MReg) (u : Bool) (m : Mods) (d : VReg) (a : VSrc) (b : VSrc) (t : ElemT) :
    Statement (.vavgn k u m d a b t) := rfl
theorem vand (k : MReg) (u : Bool) (m : Mods) (d : VReg) (a : VSrc) (b : VSrc) (t : ElemT) :
    Statement (.vand k u m d a b t) := rfl
theorem vor (k : MReg) (u : Bool) (m : Mods) (d : VReg) (a : VSrc) (b : VSrc) (t : ElemT) :
    Statement (.vor k u m d a b t) := rfl
theorem vxor (k : MReg) (u : Bool) (m : Mods) (d : VReg) (a : VSrc) (b : VSrc) (t : ElemT) :
    Statement (.vxor k u m d a b t) := rfl
theorem vandn (k : MReg) (u : Bool) (m : Mods) (d : VReg) (a : VSrc) (b : VSrc) (t : ElemT) :
    Statement (.vandn k u m d a b t) := rfl
theorem vnot (k : MReg) (u : Bool) (m : Mods) (d : VReg) (a : VSrc) (t : ElemT) : Statement (.vnot k u m d a t) := rfl
theorem vshl (k : MReg) (u : Bool) (m : Mods) (d : VReg) (a : VSrc) (b : VSrc) (t : ElemT) :
    Statement (.vshl k u m d a b t) := rfl
theorem vshr (k : MReg) (u : Bool) (m : Mods) (d : VReg) (a : VSrc) (b : VSrc) (t : ElemT) :
    Statement (.vshr k u m d a b t) := rfl
theorem vsar (k : MReg) (u : Bool) (m : Mods) (d : VReg) (a : VSrc) (b : VSrc) (t : ElemT) :
    Statement (.vsar k u m d a b t) := rfl
theorem vrol (k : MReg) (u : Bool) (m : Mods) (d : VReg) (a : VSrc) (b : VSrc) (t : ElemT) :
    Statement (.vrol k u m d a b t) := rfl
theorem vbfxs (k : MReg) (u : Bool) (m : Mods) (d : VReg) (a : VSrc) (b : VSrc) (t : ElemT) :
    Statement (.vbfxs k u m d a b t) := rfl
theorem vbfxn (k : MReg) (u : Bool) (m : Mods) (d : VReg) (a : VSrc) (b : VSrc) (t : ElemT) :
    Statement (.vbfxn k u m d a b t) := rfl
theorem vbfi (k : MReg) (u : Bool) (m : Mods) (d : VReg) (a : VSrc) (b : VSrc) (t : ElemT) :
    Statement (.vbfi k u m d a b t) := rfl
theorem vpopc (k : MReg) (u : Bool) (m : Mods) (d : VReg) (a : VSrc) (t : ElemT) : Statement (.vpopc k u m d a t) := rfl
theorem vclz (k : MReg) (u : Bool) (m : Mods) (d : VReg) (a : VSrc) (t : ElemT) : Statement (.vclz k u m d a t) := rfl
theorem vfadd (k : MReg) (u : Bool) (m : Mods) (d : VReg) (a : VSrc) (b : VSrc) (t : ElemT) :
    Statement (.vfadd k u m d a b t) := rfl
theorem vfsub (k : MReg) (u : Bool) (m : Mods) (d : VReg) (a : VSrc) (b : VSrc) (t : ElemT) :
    Statement (.vfsub k u m d a b t) := rfl
theorem vfmul (k : MReg) (u : Bool) (m : Mods) (d : VReg) (a : VSrc) (b : VSrc) (t : ElemT) :
    Statement (.vfmul k u m d a b t) := rfl
theorem vffma (k : MReg) (u : Bool) (m : Mods) (d : VReg) (a : VSrc) (b : VSrc) (t : ElemT) :
    Statement (.vffma k u m d a b t) := rfl
theorem vfmin (k : MReg) (u : Bool) (m : Mods) (d : VReg) (a : VSrc) (b : VSrc) (t : ElemT) :
    Statement (.vfmin k u m d a b t) := rfl
theorem vfmax (k : MReg) (u : Bool) (m : Mods) (d : VReg) (a : VSrc) (b : VSrc) (t : ElemT) :
    Statement (.vfmax k u m d a b t) := rfl
theorem vfabs (k : MReg) (u : Bool) (m : Mods) (d : VReg) (a : VSrc) (t : ElemT) : Statement (.vfabs k u m d a t) := rfl
theorem vfneg (k : MReg) (u : Bool) (m : Mods) (d : VReg) (a : VSrc) (t : ElemT) : Statement (.vfneg k u m d a t) := rfl
theorem vfcpsgn (k : MReg) (u : Bool) (m : Mods) (d : VReg) (a : VSrc) (b : VSrc) (t : ElemT) :
    Statement (.vfcpsgn k u m d a b t) := rfl
theorem vfmaxabs (k : MReg) (u : Bool) (m : Mods) (d : VReg) (a : VSrc) (b : VSrc) (t : ElemT) :
    Statement (.vfmaxabs k u m d a b t) := rfl
theorem vexp2 (k : MReg) (u : Bool) (m : Mods) (d : VReg) (a : VSrc) (t : ElemT) : Statement (.vexp2 k u m d a t) := rfl
theorem vlog2 (k : MReg) (u : Bool) (m : Mods) (d : VReg) (a : VSrc) (t : ElemT) : Statement (.vlog2 k u m d a t) := rfl
theorem vrcp (k : MReg) (u : Bool) (m : Mods) (d : VReg) (a : VSrc) (t : ElemT) : Statement (.vrcp k u m d a t) := rfl
theorem vrsq (k : MReg) (u : Bool) (m : Mods) (d : VReg) (a : VSrc) (t : ElemT) : Statement (.vrsq k u m d a t) := rfl
theorem vsqrt (k : MReg) (u : Bool) (m : Mods) (d : VReg) (a : VSrc) (t : ElemT) : Statement (.vsqrt k u m d a t) := rfl
theorem vtanh (k : MReg) (u : Bool) (m : Mods) (d : VReg) (a : VSrc) (t : ElemT) : Statement (.vtanh k u m d a t) := rfl
theorem vsigm (k : MReg) (u : Bool) (m : Mods) (d : VReg) (a : VSrc) (t : ElemT) : Statement (.vsigm k u m d a t) := rfl
theorem vcmpeq (k : MReg) (u : Bool) (tv : Bool) (n : MReg) (c : BitVec 2) (a : VSrc) (b : VSrc) (t : ElemT) :
    Statement (.vcmpeq k u tv n c a b t) := rfl
theorem vcmpne (k : MReg) (u : Bool) (tv : Bool) (n : MReg) (c : BitVec 2) (a : VSrc) (b : VSrc) (t : ElemT) :
    Statement (.vcmpne k u tv n c a b t) := rfl
theorem vcmplt (k : MReg) (u : Bool) (tv : Bool) (n : MReg) (c : BitVec 2) (a : VSrc) (b : VSrc) (t : ElemT) :
    Statement (.vcmplt k u tv n c a b t) := rfl
theorem vcmple (k : MReg) (u : Bool) (tv : Bool) (n : MReg) (c : BitVec 2) (a : VSrc) (b : VSrc) (t : ElemT) :
    Statement (.vcmple k u tv n c a b t) := rfl
theorem vcmpltn (k : MReg) (u : Bool) (tv : Bool) (n : MReg) (c : BitVec 2) (a : VSrc) (b : VSrc) (t : ElemT) :
    Statement (.vcmpltn k u tv n c a b t) := rfl
theorem vcmplen (k : MReg) (u : Bool) (tv : Bool) (n : MReg) (c : BitVec 2) (a : VSrc) (b : VSrc) (t : ElemT) :
    Statement (.vcmplen k u tv n c a b t) := rfl
theorem vfcmpeq (k : MReg) (u : Bool) (tv : Bool) (n : MReg) (c : BitVec 2) (a : VSrc) (b : VSrc) (t : ElemT) :
    Statement (.vfcmpeq k u tv n c a b t) := rfl
theorem vfcmplt (k : MReg) (u : Bool) (tv : Bool) (n : MReg) (c : BitVec 2) (a : VSrc) (b : VSrc) (t : ElemT) :
    Statement (.vfcmplt k u tv n c a b t) := rfl
theorem vfcmple (k : MReg) (u : Bool) (tv : Bool) (n : MReg) (c : BitVec 2) (a : VSrc) (b : VSrc) (t : ElemT) :
    Statement (.vfcmple k u tv n c a b t) := rfl
theorem vfcmpun (k : MReg) (u : Bool) (tv : Bool) (n : MReg) (c : BitVec 2) (a : VSrc) (b : VSrc) (t : ElemT) :
    Statement (.vfcmpun k u tv n c a b t) := rfl
theorem mand (u : Bool) (tv : Bool) (d : MReg) (a : MReg) (b : MReg) : Statement (.mand u tv d a b) := rfl
theorem mor (u : Bool) (tv : Bool) (d : MReg) (a : MReg) (b : MReg) : Statement (.mor u tv d a b) := rfl
theorem mxor (u : Bool) (tv : Bool) (d : MReg) (a : MReg) (b : MReg) : Statement (.mxor u tv d a b) := rfl
theorem mandn (u : Bool) (tv : Bool) (d : MReg) (a : MReg) (b : MReg) : Statement (.mandn u tv d a b) := rfl
theorem mnot (u : Bool) (tv : Bool) (d : MReg) (a : MReg) : Statement (.mnot u tv d a) := rfl
theorem mpop (k : MReg) (u : Bool) (tv : Bool) (d : BitVec 5) (a : MReg) (t : ElemT) : Statement (.mpop k u tv d a t) := rfl
theorem mfirst (k : MReg) (u : Bool) (tv : Bool) (d : BitVec 5) (a : MReg) (t : ElemT) :
    Statement (.mfirst k u tv d a t) := rfl
theorem mfroms (u : Bool) (tv : Bool) (d : MReg) (a : VSrc) (t : ElemT) : Statement (.mfroms u tv d a t) := rfl
theorem mlanes (u : Bool) (tv : Bool) (d : MReg) (a : VSrc) (t : ElemT) : Statement (.mlanes u tv d a t) := rfl
theorem vperm (k : MReg) (u : Bool) (m : Mods) (d : VReg) (a : VSrc) (b : VSrc) (t : ElemT) :
    Statement (.vperm k u m d a b t) := rfl
theorem vbcast (k : MReg) (u : Bool) (m : Mods) (d : VReg) (a : VSrc) (b : VSrc) (t : ElemT) :
    Statement (.vbcast k u m d a b t) := rfl
theorem vext (u : Bool) (tv : Bool) (d : BitVec 5) (a : VSrc) (b : VSrc) (t : ElemT) : Statement (.vext u tv d a b t) := rfl
theorem vins (k : MReg) (u : Bool) (m : Mods) (d : VReg) (a : VSrc) (b : VSrc) (t : ElemT) :
    Statement (.vins k u m d a b t) := rfl
theorem vcompress (k : MReg) (u : Bool) (m : Mods) (d : VReg) (a : VSrc) (b : BitVec 5) (t : ElemT) :
    Statement (.vcompress k u m d a b t) := rfl
theorem vexpand (k : MReg) (u : Bool) (m : Mods) (d : VReg) (a : VSrc) (t : ElemT) : Statement (.vexpand k u m d a t) := rfl
theorem vslideup (k : MReg) (u : Bool) (m : Mods) (d : VReg) (a : VSrc) (b : VSrc) (t : ElemT) :
    Statement (.vslideup k u m d a b t) := rfl
theorem vslidedn (k : MReg) (u : Bool) (m : Mods) (d : VReg) (a : VSrc) (b : VSrc) (t : ElemT) :
    Statement (.vslidedn k u m d a b t) := rfl
theorem vzipl (k : MReg) (u : Bool) (m : Mods) (d : VReg) (a : VSrc) (b : VSrc) (t : ElemT) :
    Statement (.vzipl k u m d a b t) := rfl
theorem vziph (k : MReg) (u : Bool) (m : Mods) (d : VReg) (a : VSrc) (b : VSrc) (t : ElemT) :
    Statement (.vziph k u m d a b t) := rfl
theorem vunzipe (k : MReg) (u : Bool) (m : Mods) (d : VReg) (a : VSrc) (b : VSrc) (t : ElemT) :
    Statement (.vunzipe k u m d a b t) := rfl
theorem vunzipo (k : MReg) (u : Bool) (m : Mods) (d : VReg) (a : VSrc) (b : VSrc) (t : ElemT) :
    Statement (.vunzipo k u m d a b t) := rfl
theorem viota (k : MReg) (u : Bool) (m : Mods) (d : VReg) (t : ElemT) : Statement (.viota k u m d t) := rfl
theorem vrev (k : MReg) (u : Bool) (m : Mods) (d : VReg) (a : VSrc) (t : ElemT) : Statement (.vrev k u m d a t) := rfl
theorem vredadd (k : MReg) (u : Bool) (m : Mods) (d : VReg) (a : VSrc) (t : ElemT) : Statement (.vredadd k u m d a t) := rfl
theorem vredmin (k : MReg) (u : Bool) (m : Mods) (d : VReg) (a : VSrc) (t : ElemT) : Statement (.vredmin k u m d a t) := rfl
theorem vredmax (k : MReg) (u : Bool) (m : Mods) (d : VReg) (a : VSrc) (t : ElemT) : Statement (.vredmax k u m d a t) := rfl
theorem vredminn (k : MReg) (u : Bool) (m : Mods) (d : VReg) (a : VSrc) (t : ElemT) :
    Statement (.vredminn k u m d a t) := rfl
theorem vredmaxn (k : MReg) (u : Bool) (m : Mods) (d : VReg) (a : VSrc) (t : ElemT) :
    Statement (.vredmaxn k u m d a t) := rfl
theorem vfredadd (k : MReg) (u : Bool) (m : Mods) (d : VReg) (a : VSrc) (t : ElemT) :
    Statement (.vfredadd k u m d a t) := rfl
theorem vfredmin (k : MReg) (u : Bool) (m : Mods) (d : VReg) (a : VSrc) (t : ElemT) :
    Statement (.vfredmin k u m d a t) := rfl
theorem vfredmax (k : MReg) (u : Bool) (m : Mods) (d : VReg) (a : VSrc) (t : ElemT) :
    Statement (.vfredmax k u m d a t) := rfl
theorem vcvt (k : MReg) (u : Bool) (m : Mods) (d : VReg) (a : VSrc) (p : BitVec 2) (t : ElemT) (e : ElemT) :
    Statement (.vcvt k u m d a p t e) := rfl
theorem vcvtsr (k : MReg) (u : Bool) (m : Mods) (d : VReg) (a : VSrc) (p : BitVec 2) (t : ElemT) (e : ElemT) :
    Statement (.vcvtsr k u m d a p t e) := rfl
theorem vqmx8 (k : MReg) (u : Bool) (m : Mods) (d : VReg) (a : VSrc) (b : BitVec 5) : Statement (.vqmx8 k u m d a b) := rfl
theorem vqmx6 (k : MReg) (u : Bool) (m : Mods) (d : VReg) (a : VSrc) (b : BitVec 5) : Statement (.vqmx6 k u m d a b) := rfl
theorem vqmx4 (k : MReg) (u : Bool) (m : Mods) (d : VReg) (a : VSrc) (b : BitVec 5) : Statement (.vqmx4 k u m d a b) := rfl
theorem vdqmx8 (k : MReg) (u : Bool) (m : Mods) (d : VReg) (a : VSrc) (b : VSrc) : Statement (.vdqmx8 k u m d a b) := rfl
theorem vdqmx6 (k : MReg) (u : Bool) (m : Mods) (d : VReg) (a : VSrc) (b : VSrc) : Statement (.vdqmx6 k u m d a b) := rfl
theorem vdqmx4 (k : MReg) (u : Bool) (m : Mods) (d : VReg) (a : VSrc) (b : VSrc) : Statement (.vdqmx4 k u m d a b) := rfl
theorem vqmx8sr (k : MReg) (u : Bool) (m : Mods) (d : VReg) (a : VSrc) (b : BitVec 5) :
    Statement (.vqmx8sr k u m d a b) := rfl
theorem vqmx6sr (k : MReg) (u : Bool) (m : Mods) (d : VReg) (a : VSrc) (b : BitVec 5) :
    Statement (.vqmx6sr k u m d a b) := rfl
theorem vqmx4sr (k : MReg) (u : Bool) (m : Mods) (d : VReg) (a : VSrc) (b : BitVec 5) :
    Statement (.vqmx4sr k u m d a b) := rfl
theorem vld (k : MReg) (port : Bool) (d : VReg) (base : Src) : Statement (.vld k port d base) := rfl
theorem vldStrided (k : MReg) (port : Bool) (d : VReg) (base : Src) (stride : Src) :
    Statement (.vldStrided k port d base stride) := rfl
theorem vldGather (k : MReg) (port : Bool) (d : VReg) (base : Src) (idx : VSrc) :
    Statement (.vldGather k port d base idx) := rfl
theorem vldStrided16 (k : MReg) (port : Bool) (d : VReg) (base : Src) (stride : Src) :
    Statement (.vldStrided16 k port d base stride) := rfl
theorem vst (k : MReg) (glob : Bool) (d : VReg) (base : Src) (line : BitVec 3) : Statement (.vst k glob d base line) := rfl
theorem vstStrided (k : MReg) (glob : Bool) (d : VReg) (base : Src) (stride : Src) (line : BitVec 3) :
    Statement (.vstStrided k glob d base stride line) := rfl
theorem vstScatter (k : MReg) (glob : Bool) (d : VReg) (base : Src) (idx : VSrc) (line : BitVec 3) :
    Statement (.vstScatter k glob d base idx line) := rfl
theorem vstStrided16 (k : MReg) (glob : Bool) (d : VReg) (base : Src) (stride : Src) (line : BitVec 3) :
    Statement (.vstStrided16 k glob d base stride line) := rfl
theorem vmov (k : MReg) (u : Bool) (m : Mods) (d : VReg) (a : VSrc) (t : ElemT) : Statement (.vmov k u m d a t) := rfl
theorem vsel (k : MReg) (u : Bool) (m : Mods) (d : VReg) (a : VSrc) (b : VSrc) (t : ElemT) :
    Statement (.vsel k u m d a b t) := rfl
theorem vsplati (k : MReg) (u : Bool) (m : Mods) (d : VReg) (imm : BitVec 17) (t : ElemT) :
    Statement (.vsplati k u m d imm t) := rfl
theorem vnoise (k : MReg) (u : Bool) (m : Mods) (d : VReg) (t : ElemT) : Statement (.vnoise k u m d t) := rfl
theorem vdot4 (k : MReg) (u : Bool) (m : Mods) (d : VReg) (a : VSrc) (b : VSrc) : Statement (.vdot4 k u m d a b) := rfl
theorem vdot4n (k : MReg) (u : Bool) (m : Mods) (d : VReg) (a : VSrc) (b : VSrc) : Statement (.vdot4n k u m d a b) := rfl
theorem vdot2 (k : MReg) (u : Bool) (m : Mods) (d : VReg) (a : VSrc) (b : VSrc) : Statement (.vdot2 k u m d a b) := rfl
theorem vdot2h (k : MReg) (u : Bool) (m : Mods) (d : VReg) (a : VSrc) (b : VSrc) : Statement (.vdot2h k u m d a b) := rfl
theorem cmma (g : Guard) (a : SReg) (b : SReg) (hb : Bool) (ha : Bool) (z : Bool) : Statement (.cmma g a b hb ha z) := rfl
theorem cmmaMsk (g : Guard) (a : SReg) (b : SReg) (c : SReg) (hb : Bool) (ha : Bool) (z : Bool) :
    Statement (.cmmaMsk g a b c hb ha z) := rfl
theorem crotH32 (g : Guard) (a : SReg) : Statement (.crotH32 g a) := rfl
theorem crotH64 (g : Guard) (a : SReg) : Statement (.crotH64 g a) := rfl
theorem cdrain (g : Guard) (a : SReg) (b : SReg) (c : SReg) : Statement (.cdrain g a b c) := rfl
theorem cdrainP (g : Guard) (a : SReg) (b : SReg) (c : SReg) : Statement (.cdrainP g a b c) := rfl
theorem caccZero (g : Guard) (a : SReg) (c : SReg) : Statement (.caccZero g a c) := rfl
theorem caccLd (g : Guard) (a : SReg) (b : SReg) (c : SReg) : Statement (.caccLd g a b c) := rfl
theorem caccSt (g : Guard) (a : SReg) (b : SReg) (c : SReg) : Statement (.caccSt g a b c) := rfl
theorem caccMove (g : Guard) (a : SReg) (b : SReg) (c : SReg) : Statement (.caccMove g a b c) := rfl
theorem csplDef (g : Guard) (a : SReg) (b : SReg) (c : SReg) : Statement (.csplDef g a b c) := rfl
theorem csplAdvp (g : Guard) (a : SReg) (b : SReg) : Statement (.csplAdvp g a b) := rfl
theorem csplAdvc (g : Guard) (a : SReg) (b : SReg) : Statement (.csplAdvc g a b) := rfl
theorem csplRdp (g : Guard) (a : SReg) (b : SReg) : Statement (.csplRdp g a b) := rfl
theorem csplReset (g : Guard) (a : SReg) : Statement (.csplReset g a) := rfl
theorem cpalSet (g : Guard) (a : SReg) (b : SReg) : Statement (.cpalSet g a b) := rfl
theorem cpalGet (g : Guard) (a : SReg) (b : SReg) : Statement (.cpalGet g a b) := rfl
theorem csyncJoin (g : Guard) (a : SReg) (b : SReg) (c : SReg) : Statement (.csyncJoin g a b c) := rfl
theorem csyncStat (g : Guard) (a : SReg) : Statement (.csyncStat g a) := rfl
theorem csyncSkew (g : Guard) (a : SReg) : Statement (.csyncSkew g a) := rfl
theorem crcpDef (g : Guard) (a : SReg) (b : SReg) (c : SReg) : Statement (.crcpDef g a b c) := rfl
theorem crcpGet (g : Guard) (a : SReg) (b : SReg) : Statement (.crcpGet g a b) := rfl
theorem cpyLin (g : Guard) (a : SReg) (b : SReg) (c : SReg) (q : Bool) : Statement (.cpyLin g a b c q) := rfl
theorem cpyTwod (g : Guard) (a : SReg) (b : SReg) (c : SReg) (q : Bool) : Statement (.cpyTwod g a b c q) := rfl
theorem cpyThreed (g : Guard) (a : SReg) (b : SReg) (c : SReg) (q : Bool) : Statement (.cpyThreed g a b c q) := rfl
theorem cpyFill (g : Guard) (a : SReg) (b : SReg) (c : SReg) (q : Bool) : Statement (.cpyFill g a b c q) := rfl
theorem cpyLsplit (g : Guard) (a : SReg) (b : SReg) (c : SReg) (q : Bool) : Statement (.cpyLsplit g a b c q) := rfl
theorem cpyLgath (g : Guard) (a : SReg) (b : SReg) (c : SReg) (q : Bool) : Statement (.cpyLgath g a b c q) := rfl
theorem cpyMcast (g : Guard) (a : SReg) (b : SReg) (c : SReg) (q : Bool) : Statement (.cpyMcast g a b c q) := rfl
theorem cpyPfetch (g : Guard) (a : SReg) (b : SReg) (c : SReg) (q : Bool) : Statement (.cpyPfetch g a b c q) := rfl
theorem cgthGather (g : Guard) (a : SReg) (b : SReg) (c : SReg) (q : Bool) : Statement (.cgthGather g a b c q) := rfl
theorem cgthScatter (g : Guard) (a : SReg) (b : SReg) (c : SReg) (q : Bool) : Statement (.cgthScatter g a b c q) := rfl
theorem cgthGatheradd (g : Guard) (a : SReg) (b : SReg) (c : SReg) (q : Bool) : Statement (.cgthGatheradd g a b c q) := rfl
theorem credAddf32 (g : Guard) (a : SReg) (b : SReg) (c : SReg) (q : Bool) : Statement (.credAddf32 g a b c q) := rfl
theorem credAddbf16 (g : Guard) (a : SReg) (b : SReg) (c : SReg) (q : Bool) : Statement (.credAddbf16 g a b c q) := rfl
theorem credMaxf32 (g : Guard) (a : SReg) (b : SReg) (c : SReg) (q : Bool) : Statement (.credMaxf32 g a b c q) := rfl
theorem credAddi32 (g : Guard) (a : SReg) (b : SReg) (c : SReg) (q : Bool) : Statement (.credAddi32 g a b c q) := rfl
theorem blkAlloc (g : Guard) (a : SReg) (b : SReg) (c : SReg) : Statement (.blkAlloc g a b c) := rfl
theorem blkFree (g : Guard) (a : SReg) (b : SReg) (c : SReg) : Statement (.blkFree g a b c) := rfl
theorem blkShare (g : Guard) (a : SReg) (b : SReg) (c : SReg) : Statement (.blkShare g a b c) := rfl
theorem blkXlate (g : Guard) (a : SReg) (b : SReg) (c : SReg) : Statement (.blkXlate g a b c) := rfl
theorem blkFetch (g : Guard) (a : SReg) (b : SReg) (c : SReg) : Statement (.blkFetch g a b c) := rfl
theorem blkAppend (g : Guard) (a : SReg) (b : SReg) (c : SReg) : Statement (.blkAppend g a b c) := rfl
theorem blkStat (g : Guard) (a : SReg) (b : SReg) (c : SReg) : Statement (.blkStat g a b c) := rfl
theorem emptyBundle (c : CubeId) : Statement (.emptyBundle c) := rfl
theorem exposedResultLands (c : CubeId) (k : Nat) (vote : BitVec 2) : Statement (.exposedResultLands c k vote) := rfl
theorem interlockedResultArrives (r : Nat) (vote : BitVec 2) : Statement (.interlockedResultArrives r vote) := rfl
theorem icacheMissFill (c : CubeId) : Statement (.icacheMissFill c) := rfl
theorem noiseWordAppend (c : CubeId) : Statement (.noiseWordAppend c) := rfl
theorem trapEntry (c : CubeId) : Statement (.trapEntry c) := rfl
theorem watchdog (c : CubeId) : Statement (.watchdog c) := rfl
theorem preemption (c : CubeId) : Statement (.preemption c) := rfl
theorem switchIn (c : CubeId) : Statement (.switchIn c) := rfl
theorem quantumExpiry (c : CubeId) : Statement (.quantumExpiry c) := rfl
theorem noiseSeedaWrite (c : CubeId) (v : Word) : Statement (.noiseSeedaWrite c v) := rfl
theorem noiseSeedbWrite (c : CubeId) (v : Word) : Statement (.noiseSeedbWrite c v) := rfl
theorem noiseModeWrite (c : CubeId) (v : Word) : Statement (.noiseModeWrite c v) := rfl
theorem seqLinesRepair (c : CubeId) (v : Word) : Statement (.seqLinesRepair c v) := rfl
theorem schEndWrite (c : CubeId) (v : Word) : Statement (.schEndWrite c v) := rfl
theorem shelfWindowWrite (c : CubeId) (shelf : ShelfId) (off : Nat) (size : Nat) (v : Word) :
    Statement (.shelfWindowWrite c shelf off size v) := rfl
theorem sysregWindowWrite (c : CubeId) (n : BitVec 12) (v : Word) (secure : Bool) :
    Statement (.sysregWindowWrite c n v secure) := rfl
theorem fabMigreqRead (c : CubeId) : Statement (.fabMigreqRead c) := rfl
theorem homeWriteArrives (id : Nat) : Statement (.homeWriteArrives id) := rfl
theorem lineItemCommit (id : Nat) : Statement (.lineItemCommit id) := rfl
theorem homeRead (r : ReadServe) : Statement (.homeRead r) := rfl
theorem homeAtomic (id : Nat) : Statement (.homeAtomic id) := rfl
theorem homeCounterOp (id : Nat) : Statement (.homeCounterOp id) := rfl
theorem sharerUpdate (k : Nat) : Statement (.sharerUpdate k) := rfl
theorem sharerInvalidate (k : Nat) : Statement (.sharerInvalidate k) := rfl
theorem writeAckArrives (id : Nat) : Statement (.writeAckArrives id) := rfl
theorem releaseSend (id : Nat) : Statement (.releaseSend id) := rfl
theorem ackTimeoutExpiry (acc : LostAccess) : Statement (.ackTimeoutExpiry acc) := rfl
theorem cwaitReadReturn (c : CubeId) : Statement (.cwaitReadReturn c) := rfl
theorem monitorNotify (c : CubeId) (addr : Nat) : Statement (.monitorNotify c addr) := rfl
theorem monitorPoll (c : CubeId) (shelf : ShelfId) : Statement (.monitorPoll c shelf) := rfl
theorem cwaitSpinReread (c : CubeId) : Statement (.cwaitSpinReread c) := rfl
theorem walkStart (k : Nat) : Statement (.walkStart k) := rfl
theorem walkComplete (k : Nat) (bad : Bool) : Statement (.walkComplete k bad) := rfl
theorem tlbiComplete (id : Nat) : Statement (.tlbiComplete id) := rfl
theorem launchPacketArrival (bridge : Bool) (pkt : BitVec 512) : Statement (.launchPacketArrival bridge pkt) := rfl
theorem peerLaunchPacket (path : PeerPath) (pkt : BitVec 512) : Statement (.peerLaunchPacket path pkt) := rfl
theorem imageHeaderRead (slot : BitVec 8) : Statement (.imageHeaderRead slot) := rfl
theorem batchHandoff (slot : BitVec 8) (c : CubeId) : Statement (.batchHandoff slot c) := rfl
theorem schPartWrite (part : BitVec 3) (v : Word) : Statement (.schPartWrite part v) := rfl
theorem taskAdmission (c : CubeId) : Statement (.taskAdmission c) := rfl
theorem taskStart (c : CubeId) (shelf : ShelfId) : Statement (.taskStart c shelf) := rfl
theorem evictionStart (c : CubeId) (shelf : ShelfId) : Statement (.evictionStart c shelf) := rfl
theorem evictionComplete (c : CubeId) (shelf : ShelfId) : Statement (.evictionComplete c shelf) := rfl
theorem readmission (k : Nat) (c : CubeId) : Statement (.readmission k c) := rfl
theorem migration (c : CubeId) (shelf : ShelfId) : Statement (.migration c shelf) := rfl
theorem haltComplete (c : CubeId) (shelf : ShelfId) : Statement (.haltComplete c shelf) := rfl
theorem strandEndError (c : CubeId) (shelf : ShelfId) (cause : BitVec 8) : Statement (.strandEndError c shelf cause) := rfl
theorem atelierTakeover : Statement .atelierTakeover := rfl
theorem copyCmdStart (c : CubeId) (id : Nat) : Statement (.copyCmdStart c id) := rfl
theorem spoolEntryLanded (c : CubeId) (id : Nat) : Statement (.spoolEntryLanded c id) := rfl
theorem copyCmdComplete (c : CubeId) (id : Nat) : Statement (.copyCmdComplete c id) := rfl
theorem completionAddSend (c : CubeId) (id : Nat) : Statement (.completionAddSend c id) := rfl
theorem cubeCmdStart (c : CubeId) (id : Nat) : Statement (.cubeCmdStart c id) := rfl
theorem cubeCmdComplete (c : CubeId) (id : Nat) : Statement (.cubeCmdComplete c id) := rfl
theorem joinPointComplete (c : CubeId) (id : Nat) : Statement (.joinPointComplete c id) := rfl
theorem cubSkewWrite (c : CubeId) (v : Word) : Statement (.cubSkewWrite c v) := rfl
theorem cubSkewApply (c : CubeId) : Statement (.cubSkewApply c) := rfl
theorem drainStart (c : CubeId) (id : Nat) : Statement (.drainStart c id) := rfl
theorem drainComplete (c : CubeId) (id : Nat) : Statement (.drainComplete c id) := rfl
theorem blkCmdPerform (c : CubeId) (id : Nat) : Statement (.blkCmdPerform c id) := rfl
theorem blkCmdComplete (c : CubeId) (id : Nat) : Statement (.blkCmdComplete c id) := rfl
theorem blkEnable (c : CubeId) : Statement (.blkEnable c) := rfl
theorem blkDisable (c : CubeId) : Statement (.blkDisable c) := rfl
theorem blkReady (c : CubeId) : Statement (.blkReady c) := rfl
theorem incomingPeerRequest (peer : BitVec 10) (kind : Nat) (dpa : Nat) (msg : PeerMsg) :
    Statement (.incomingPeerRequest peer kind dpa msg) := rfl
theorem reductionPacketArrival (peer : BitVec 10) (pid : Word) (addr : Nat) (op : BitVec 4) (count : Nat) (v : Word) :
    Statement (.reductionPacketArrival peer pid addr op count v) := rfl
theorem flitReplay (port : Fin 71) : Statement (.flitReplay port) := rfl
theorem replayWarning (port : Fin 71) : Statement (.replayWarning port) := rfl
theorem portRetrain (port : Fin 71) (lanes : Nat) (ok : Bool) : Statement (.portRetrain port lanes ok) := rfl
theorem portDown (port : Fin 71) : Statement (.portDown port) := rfl
theorem fabDeadWrite (k : BitVec 4) (v : Word) : Statement (.fabDeadWrite k v) := rfl
theorem resetHandshakeReply (peer : BitVec 10) : Statement (.resetHandshakeReply peer) := rfl
theorem resetHandshakeTimeout (peer : BitVec 10) : Statement (.resetHandshakeTimeout peer) := rfl
theorem scrubLine (c : CubeId) (store : BitVec 3) (outcome : BitVec 2) (bit : Nat) :
    Statement (.scrubLine c store outcome bit) := rfl
theorem conCelogRead (c : CubeId) : Statement (.conCelogRead c) := rfl
theorem conUelogRead (c : CubeId) : Statement (.conUelogRead c) := rfl
theorem conInjctlWrite (c : CubeId) (v : Word) : Statement (.conInjctlWrite c v) := rfl
theorem conInjaddrWrite (c : CubeId) (v : Word) : Statement (.conInjaddrWrite c v) := rfl
theorem selfTestStart (c : CubeId) (cls : Fin 29) : Statement (.selfTestStart c cls) := rfl
theorem selfTestResult (c : CubeId) (cls : Fin 29) (bad : Bool) : Statement (.selfTestResult c cls bad) := rfl
theorem conRetireFence (c : CubeId) : Statement (.conRetireFence c) := rfl
theorem conRetireEvacuate (c : CubeId) : Statement (.conRetireEvacuate c) := rfl
theorem evacGranuleCopied (c : CubeId) : Statement (.evacGranuleCopied c) := rfl
theorem conRetireFinish (c : CubeId) : Statement (.conRetireFinish c) := rfl
theorem limiterPeriod (c : CubeId) (estimates : List Nat) : Statement (.limiterPeriod c estimates) := rfl
theorem layerGate (c : CubeId) (l : Fin 8) : Statement (.layerGate c l) := rfl
theorem layerRampDone (c : CubeId) (l : Fin 8) : Statement (.layerRampDone c l) := rfl
theorem thermalSample (c : CubeId) (temps : Temps) : Statement (.thermalSample c temps) := rfl
theorem thermalStepRaise (c : CubeId) (l : Fin 8) : Statement (.thermalStepRaise c l) := rfl
theorem thermalStepLower (c : CubeId) (l : Fin 8) : Statement (.thermalStepLower c l) := rfl
theorem migrationRequest (c : CubeId) (l : Fin 8) : Statement (.migrationRequest c l) := rfl
theorem capBroadcast (bytes : List Byte) : Statement (.capBroadcast bytes) := rfl
theorem governorPeriod (powers : List Nat) : Statement (.governorPeriod powers) := rfl
theorem railOutOfRange (mv : Nat) : Statement (.railOutOfRange mv) := rfl
theorem railPowerDown : Statement .railPowerDown := rfl
theorem bridgeTripPowerDown (heat : BridgeHeat) : Statement (.bridgeTripPowerDown heat) := rfl
theorem packageReset (flash : FlashSlots) : Statement (.packageReset flash) := rfl
theorem gessoBootTests (b : BootStep) : Statement (.gessoBootTests b) := rfl
theorem studioFirmwareStart (image : FirmwareImage) (rt : CodeBounds) (sec : CodeBounds) (handlers : HandlerEntries) :
    Statement (.studioFirmwareStart image rt sec handlers) := rfl
theorem hostBar2Access (op : HostOp) (off : Nat) (size : Nat) (v : Word) : Statement (.hostBar2Access op off size v) := rfl
theorem hdmDecoderCommit (place : DecoderPlace) (base : Nat) (len : Nat) (il : Interleave) :
    Statement (.hdmDecoderCommit place base len il) := rfl
theorem attestationRequest (nonce : Word) : Statement (.attestationRequest nonce) := rfl
theorem secDbgHalt (c : CubeId) : Statement (.secDbgHalt c) := rfl
theorem secDbgResume (c : CubeId) : Statement (.secDbgResume c) := rfl
theorem ckptGo (v : Word) : Statement (.ckptGo v) := rfl
theorem ckptComplete (ok : Bool) : Statement (.ckptComplete ok) := rfl
theorem hostLinkDown (up : Bool) : Statement (.hostLinkDown up) := rfl
theorem resetMessageReceived (peer : BitVec 10) : Statement (.resetMessageReceived peer) := rfl
theorem portTrained (port : Fin 71) (ok : Bool) : Statement (.portTrained port ok) := rfl
theorem jireskoSessionSetup (ok : Bool) : Statement (.jireskoSessionSetup ok) := rfl

end Sys2Proof.Laws.EncodedIffSlot
end

