-- ==== Sys2Proof/Laws/Vector.lean ====
section
/-! SUPPORT. Vectors by bits and by elements (R200, R201): what packing, enabling and merging leave at each bit and each
element. -/
namespace Sys2Proof.Machine

/-! ### Sums of disjoint fields, bit by bit -/

/-- Fields of w bits laid side by side, the first lowest. -/
theorem testBit_fields (w n k : Nat) (p : Nat → Bool) (j : Nat) (hw : 0 < w) :
    (((List.range n).map fun e => if p (k + e) then (2 ^ w - 1) * 2 ^ (w * e) else 0).foldl (· + ·) 0).testBit j =
      (decide (j < w * n) && p (k + j / w)) := by
  have key : ∀ n, ((((List.range n).map fun e => if p (k + e) then (2 ^ w - 1) * 2 ^ (w * e) else 0).foldl (· + ·) 0)
      < 2 ^ (w * n)) ∧ ∀ j, ((((List.range n).map fun e => if p (k + e) then (2 ^ w - 1) * 2 ^ (w * e) else 0).foldl
        (· + ·) 0).testBit j = (decide (j < w * n) && p (k + j / w))) := by
    intro n
    induction n with
    | zero => simp
    | succ n ih =>
      obtain ⟨lt, bits⟩ := ih
      rw [List.range_succ, List.map_append, List.foldl_append]
      simp only [List.map_cons, List.map_nil, List.foldl_cons, List.foldl_nil]
      generalize ((List.range n).map fun e => if p (k + e) then (2 ^ w - 1) * 2 ^ (w * e) else 0).foldl (· + ·) 0 = S at lt bits
      have hp : 0 < 2 ^ w := Nat.two_pow_pos w
      have hf : (if p (k + n) then (2 ^ w - 1) * 2 ^ (w * n) else 0) =
          2 ^ (w * n) * (if p (k + n) then 2 ^ w - 1 else 0) := by
        split <;> simp [Nat.mul_comm]
      rw [hf, Nat.add_comm S]
      constructor
      · have : (if p (k + n) then 2 ^ w - 1 else 0) ≤ 2 ^ w - 1 := by split <;> omega
        calc 2 ^ (w * n) * (if p (k + n) then 2 ^ w - 1 else 0) + S
            < 2 ^ (w * n) * (2 ^ w - 1) + 2 ^ (w * n) := Nat.add_lt_add_of_le_of_lt (Nat.mul_le_mul_left _ this) lt
          _ = 2 ^ (w * (n + 1)) := by
            rw [Nat.mul_add w n 1, Nat.mul_one, Nat.pow_add, ← Nat.mul_succ, Nat.succ_eq_add_one, Nat.sub_add_cancel hp]
      · intro j
        rw [Nat.testBit_two_pow_mul_add _ lt]
        by_cases hj : j < w * n
        · have h1 : j < w * (n + 1) := by rw [Nat.mul_add]; omega
          simp [hj, h1, bits]
        · rw [if_neg hj]
          have hm : w * (n + 1) = w * n + w := by rw [Nat.mul_add, Nat.mul_one]
          by_cases h1 : j < w * (n + 1)
          · have hd : j / w = n := by
              apply Nat.div_eq_of_lt_le
              · rw [Nat.mul_comm]; omega
              · rw [Nat.mul_comm]; exact h1
            rw [hd]
            have : j - w * n < w := by omega
            split <;> simp_all [Nat.testBit_two_pow_sub_one]
          · have h2 : ¬ j - w * n < w := by omega
            rw [decide_eq_false h1, Bool.false_and]
            split
            · rw [Nat.testBit_two_pow_sub_one, decide_eq_false h2]
            · exact Nat.zero_testBit _
  exact (key n).2 j

/-- An element at a width is active when the mask has the bit of its first byte (R201). -/
theorem enables_bit (m : MWord) (bytes j : Nat) (hb : 0 < bytes) (hd : bytes ∣ 256) :
    (enables m bytes).getLsbD j = (decide (j < 256) && active m bytes (j / bytes)) := by
  unfold enables
  rw [BitVec.getLsbD_ofNat]
  have h := testBit_fields bytes (256 / bytes) 0 (active m bytes) j hb
  simp only [Nat.zero_add] at h
  rw [h, Nat.mul_div_cancel' hd]
  by_cases hj : j < 256 <;> simp [hj]
/-- A mask built from elements has every byte of an element alike (R208). -/
theorem maskOf_bit (bytes j : Nat) (f : Nat → Bool) (hb : 0 < bytes) (hd : bytes ∣ 256) :
    (maskOf bytes f).getLsbD j = (decide (j < 256) && f (j / bytes)) := by
  unfold maskOf
  rw [BitVec.getLsbD_ofNat]
  have h := testBit_fields bytes (256 / bytes) 0 f j hb
  simp only [Nat.zero_add] at h
  rw [h, Nat.mul_div_cancel' hd]
  by_cases hj : j < 256 <;> simp [hj]

/-! ### Bytes spread and merged -/

theorem spreadBytes_testBit (en : MWord) (n k j : Nat) :
    (spreadBytes en n k).testBit j = (decide (j < 8 * n) && en.getLsbD (k + j / 8)) := by
  induction n generalizing k j with
  | zero => simp [spreadBytes]
  | succ n ih =>
    have h255 : (if en.getLsbD k then 255 else 0) < 2 ^ 8 := by split <;> decide
    have e : spreadBytes en (n + 1) k = 2 ^ 8 * spreadBytes en n (k + 1) + if en.getLsbD k then 255 else 0 := by
      rw [spreadBytes, Nat.add_comm]; rfl
    rw [e, Nat.testBit_two_pow_mul_add _ h255]
    by_cases hj : j < 8
    · have h0 : j / 8 = 0 := Nat.div_eq_of_lt hj
      have h1 : j < 8 * (n + 1) := by omega
      simp only [hj, if_true, h0, Nat.add_zero, h1, decide_true, Bool.true_and]
      by_cases hk : en.getLsbD k
      · simp only [hk, if_true]; rw [show (255 : Nat) = 2 ^ 8 - 1 from rfl, Nat.testBit_two_pow_sub_one]; simpa using hj
      · simp [hk]
    · rw [if_neg hj, ih]
      have h1 : (j - 8) / 8 = j / 8 - 1 := by omega
      have h2 : 1 ≤ j / 8 := by omega
      have h3 : k + 1 + (j / 8 - 1) = k + j / 8 := by omega
      have h4 : (j - 8 < 8 * n) = (j < 8 * (n + 1)) := by simp only [eq_iff_iff]; omega
      rw [h1, h3]; simp only [h4]
/-- A merge takes each bit of an enabled byte from the new value and every other from the old (R201). -/
theorem mergeBytes_bit (old v : VWord) (en : MWord) (j : Nat) (hj : j < 2048) :
    (mergeBytes old v en).getLsbD j = if en.getLsbD (j / 8) then v.getLsbD j else old.getLsbD j := by
  unfold mergeBytes
  split
  · next h =>
    have h1 : j / 8 < 256 := by omega
    rw [h, BitVec.getLsbD_allOnes, decide_eq_true h1, if_pos rfl]
  · have hs : (BitVec.ofNat 2048 (spreadBytes en 256 0)).getLsbD j = en.getLsbD (j / 8) := by
      rw [BitVec.getLsbD_ofNat, spreadBytes_testBit]; simp [hj]
    simp only [BitVec.getLsbD_or, BitVec.getLsbD_and, BitVec.getLsbD_not, hs, hj, decide_true, Bool.true_and]
    by_cases he : en.getLsbD (j / 8) <;> simp [he]

/-! ### Elements -/

theorem elemAt_eq (v : VWord) (bytes e : Nat) : elemAt v bytes e = v.toNat / 2 ^ (8 * bytes * e) % 2 ^ (8 * bytes) := by
  simp [elemAt, Nat.shiftRight_eq_div_pow]
theorem elemAt_testBit (v : VWord) (bytes e j : Nat) :
    (elemAt v bytes e).testBit j = (decide (j < 8 * bytes) && v.getLsbD (8 * bytes * e + j)) := by
  rw [elemAt_eq, Nat.testBit_mod_two_pow, Nat.testBit_div_two_pow, BitVec.getLsbD, Nat.add_comm j]
theorem elemAt_lt (v : VWord) (bytes e : Nat) : elemAt v bytes e < 2 ^ (8 * bytes) := by
  rw [elemAt_eq]; exact Nat.mod_lt _ (Nat.two_pow_pos _)
/-- Packed elements by bits. -/
theorem packNat_testBit (w : Nat) (es : List Nat) (j : Nat) (hw : 0 < w) :
    (es.foldr (fun x a => x % 2 ^ w + 2 ^ w * a) 0).testBit j = (es.getD (j / w) 0).testBit (j % w) := by
  induction es generalizing j with
  | nil => simp
  | cons x t ih =>
    rw [List.foldr_cons, Nat.add_comm, Nat.testBit_two_pow_mul_add _ (Nat.mod_lt _ (Nat.two_pow_pos w))]
    by_cases hj : j < w
    · simp [hj, Nat.div_eq_of_lt hj, Nat.mod_eq_of_lt hj, Nat.testBit_mod_two_pow]
    · rw [if_neg hj, ih]
      have hge : w ≤ j := Nat.le_of_not_lt hj
      have h1 : j / w = (j - w) / w + 1 := by
        conv => lhs; rw [← Nat.sub_add_cancel hge]
        rw [Nat.add_div_right _ hw]
      have h2 : j % w = (j - w) % w := by
        conv => lhs; rw [← Nat.sub_add_cancel hge]
        rw [Nat.add_mod_right]
      rw [h1, h2]; rfl
/-- Element e of packed elements, at the width at which they were packed. -/
theorem elemAt_packElems (bytes : Nat) (es : List Nat) (e : Nat) (hb : 0 < bytes) (he : e < 256 / bytes) :
    elemAt (packElems bytes es) bytes e = es.getD e 0 % 2 ^ (8 * bytes) := by
  apply Nat.eq_of_testBit_eq
  intro j
  rw [elemAt_testBit, Nat.testBit_mod_two_pow]
  by_cases hj : j < 8 * bytes
  · have h8 : 0 < 8 * bytes := by omega
    have hlt : 8 * bytes * e + j < 2048 := by
      have h1 : bytes * (e + 1) ≤ 256 := Nat.le_trans (Nat.mul_le_mul_left bytes he) (Nat.mul_div_le 256 bytes)
      have h2 : 8 * bytes * e + 8 * bytes = 8 * (bytes * (e + 1)) := by rw [Nat.mul_add, Nat.mul_one, Nat.mul_add, Nat.mul_assoc]
      omega
    unfold packElems
    rw [BitVec.getLsbD_ofNat, packNat_testBit _ _ _ h8]
    have h1 : (8 * bytes * e + j) / (8 * bytes) = e := by
      rw [Nat.mul_add_div h8, Nat.div_eq_of_lt hj, Nat.add_zero]
    have h2 : (8 * bytes * e + j) % (8 * bytes) = j := by rw [Nat.mul_add_mod, Nat.mod_eq_of_lt hj]
    simp [hj, hlt, h1, h2]
  · simp [hj]
/-- Elements merged under a mask: an active one is the new one, any other stays (R201). -/
theorem elemAt_mergeBytes (old v : VWord) (m : MWord) (bytes e : Nat) (hb : 0 < bytes) (hd : bytes ∣ 256)
    (he : e < 256 / bytes) :
    elemAt (mergeBytes old v (enables m bytes)) bytes e =
      if active m bytes e then elemAt v bytes e else elemAt old bytes e := by
  apply Nat.eq_of_testBit_eq
  intro j
  rw [elemAt_testBit]
  by_cases hj : j < 8 * bytes
  · have h1 : bytes * (e + 1) ≤ 256 := Nat.le_trans (Nat.mul_le_mul_left bytes he) (Nat.mul_div_le 256 bytes)
    have h2 : 8 * bytes * e + 8 * bytes = 8 * (bytes * (e + 1)) := by rw [Nat.mul_add, Nat.mul_one, Nat.mul_add, Nat.mul_assoc]
    have hlt : 8 * bytes * e + j < 2048 := by omega
    have hq : (8 * bytes * e + j) / 8 = bytes * e + j / 8 := by
      rw [Nat.mul_assoc, Nat.mul_add_div (by decide)]
    have hlt2 : bytes * e + j / 8 < 256 := by rw [Nat.mul_add, Nat.mul_one] at h1; omega
    have hdiv : (bytes * e + j / 8) / bytes = e := by
      rw [Nat.mul_add_div hb, Nat.div_eq_of_lt (by omega), Nat.add_zero]
    rw [mergeBytes_bit _ _ _ _ hlt, hq, enables_bit m bytes _ hb hd, hdiv]
    simp only [hlt2, hj, decide_true, Bool.true_and]
    split <;> simp [elemAt_testBit, hj]
  · split <;> simp [elemAt_testBit, hj]
/-- A whole write takes the new value. -/
theorem mergeBytes_full (old v : VWord) : mergeBytes old v (BitVec.allOnes 256) = v := if_pos rfl
theorem length_elems (v : VWord) (bytes : Nat) : (elems v bytes).length = 256 / bytes := by simp [elems]
theorem elems_getD (v : VWord) (bytes e d : Nat) (he : e < 256 / bytes) : (elems v bytes).getD e d = elemAt v bytes e := by
  simp [elems, List.getD_eq_getElem?_getD, he]

/-! ### Widths of types -/

theorem bytes_pos (t : ElemT) : 0 < t.bytes := by cases t <;> decide
theorem bytes_dvd (t : ElemT) : t.bytes ∣ 256 := by cases t <;> decide

end Sys2Proof.Machine
end

