-- ==== Sys2Proof/Tests/Slice0.lean ====
section
/-! SUPPORT. Tests of the model: terms that are not well formed, the words of the opcode table, and single steps whose results
come from the spec's own examples or from calculation by hand. -/
set_option Elab.async false
set_option maxRecDepth 4000
namespace Sys2Proof.Tests
open Sys2Proof.Machine

/-! ### Small states -/

/-- A guard that holds, no modifiers, and small contexts. -/
def yes : Guard := ⟨false, 0⟩
def plain : Mods := ⟨false, false⟩
def rt : Ctx := { Ctx.reset 0 .runtime with status := .running }
def task : Ctx := { Ctx.reset 20 .task with status := .running, part := .whole }
/-- Cube 0 of the reset state changed. -/
def onCube (f : Cube → Cube) : State := State.reset.modCube 0 f
/-- Cube 0 runs a runtime context, or a strand of shelf 0. -/
def runs (x : Ctx) : State := onCube fun k => { k with cur := .runtime, core := x }
def strand (x : Ctx) : State := onCube fun k => { k with cur := .shelf 0, core := x, shelves := k.shelves.set 0 (some x) }
def withS (l : List (SReg × Word)) (x : Ctx) : Ctx := l.foldl (fun x d => x.setS d.1 d.2) x
/-- What is left of a state after an instruction, and of its running context n bundles later. -/
def post (s : State) (i : Instr) : State := outState s (exec i s)
def bundles (n : Nat) (x : Ctx) : Ctx := (fun y => landDue (advanceIssue y))^[n] x
def after (n : Nat) (s : State) (i : Instr) : Ctx := bundles n (post s i).ctx
/-- A step on one word at the place where the machine fetches. -/
noncomputable def stepOn (w : Nat) : State := outState State.reset (step (State.reset.withFetchWord 32 w))

/-! ### Well-formedness: one term for each check, which refuses it -/

def refused (l : List Instr) : Bool := l.all fun i => !i.wellFormed
theorem test_ill_formed_scalar : refused
    [.tlbi yes 1 (.reg 2) 11, .tlbi yes 1 (.reg 2) 63, .tlbi yes 1 (.latch 0) 1, .add yes plain 1 (.latch 0) (.reg 1), .add yes plain 1 (.reg 1) (.latch 2),
     .popc yes plain 1 (.latch 0), .addi yes ⟨true, false⟩ 1 (.reg 1) 64, .addi yes plain 1 (.latch 1) 64, .movi yes ⟨true, false⟩ 1 0x8000,
     .movhi yes ⟨false, true⟩ 1 0x10000, .cmpeqImm yes true .plain 1 2 (.reg 1) 32, .cmpltnImm yes true .plain 1 2 (.reg 1) 64,
     .loop yes 1 0, .loopi yes 1 0, .ld yes false 1 (.reg 1) .d true 0, .ld yes true 1 (.reg 1) .w true 8, .st yes 1 (.latch 1) .w true 0 8,
     .amoCas yes 1 (.reg 1) (.reg 63), .jr yes (.latch 0), .crd yes 1 (.latch 0) .pkg true] = true := by decide +kernel
theorem test_ill_formed_vector : refused
    [.vadd 0 false plain 1 (.reg 1) (.reg 2) .f32, .vadd 0 false plain 1 (.latch 0) (.reg 2) .b8, .vadd 0 false plain 1 (.reg 1) (.latch 2) .b8,
     .vfadd 0 false plain 1 (.reg 1) (.reg 2) .b32, .vfadd 0 false plain 1 (.reg 1) (.reg 2) .e4, .vexp2 0 false plain 1 (.reg 1) .f16,
     .vbfi 0 false plain 1 (.reg 1) (.reg 2) .b8, .mand false false 0 1 2, .mlanes false false 0 (.reg 1) .b8, .mlanes false false 1 (.reg 1) .f32,
     .mpop 0 false false 1 2 .f32, .vcvt 0 false plain 1 (.reg 1) 1 .b32 .f32, .vcvt 0 false plain 1 (.reg 1) 2 .b16 .f32,
     .vredadd 0 false plain 1 (.reg 1) .f32, .vfredadd 0 false plain 1 (.reg 1) .b32, .viota 0 false plain 1 .e5,
     .vsplati 0 false ⟨true, false⟩ 1 0x400 .b32, .vsplati 0 false plain 1 1 .f32, .vld 0 false 1 (.latch 0),
     .vldStrided 0 false 1 (.reg 1) (.latch 2), .vldGather 0 false 1 (.reg 1) (.latch 2)] = true := by decide +kernel
theorem test_ill_formed_engines : refused
    [.cmmaMsk yes 1 2 0 false false false, .cmmaMsk yes 1 2 62 false false false, .cdrain yes 1 2 60, .cpyLin yes 61 1 2 false,
     .cpyThreed yes 59 1 2 false, .blkAlloc yes 61 1 2] = true := by decide +kernel
/-- The last operand values that still have an encoding. -/
theorem test_well_formed_bounds : ([.tlbi yes 1 (.reg 2) 10, .tlbi yes 0 (.reg 0) 63, .addi yes plain 1 (.reg 1) 128, .addi yes ⟨true, true⟩ 1 (.latch 7) 63,
     .amoCas yes 1 (.reg 1) (.reg 62), .cmmaMsk yes 1 2 61 false false false, .cdrain yes 1 2 59, .cpyLin yes 60 1 2 false,
     .cpyThreed yes 58 1 2 false, .vcvt 0 false plain 1 (.reg 1) 1 .b16 .f32] : List Instr).all (·.wellFormed) = true := by decide +kernel

/-! ### Decoding: words made of the opcode table's fixed bits and field places, every slot instruction once -/

noncomputable def read (ws : List Nat) : List (Option Instr) := ws.map (decodeTableWord 32)
theorem test_decode_sys : read [0x00000001, 0x01C00002, 0x03400003, 0x02000364, 0x03800005, 0x03000006, 0x01DC80A7, 0x024C0008, 0x00B30009, 0x021E000A, 0x0280000B, 0x067202FA, 0x045C84DA] =
    [.nop, .halt ⟨false, 7⟩, .yield ⟨true, 5⟩,
     .trap ⟨true, 0⟩ 54, .eret ⟨true, 6⟩, .iflush ⟨true, 4⟩,
     .tlbi ⟨false, 7⟩ 28 (.reg 32) 10, .noise ⟨true, 1⟩ 12, .cyc ⟨false, 2⟩ 51,
     .self ⟨true, 0⟩ 30, .brk ⟨true, 2⟩, .sysrd ⟨true, 1⟩ 50 762,
     .syswr ⟨false, 1⟩ 28 1242].map some := by decide +kernel
theorem test_decode_alu : read [0x08858B30, 0x0BACA021, 0x0A7E67D2, 0x09E9BE73, 0x0A8A9C94, 0x0B611035, 0x080CE0F6, 0x0A41C5D7, 0x095C9758, 0x08E13A89, 0x091F26AA, 0x085DA51B, 0x09BF8FFC, 0x0BB516DD, 0x0914C0EE, 0x0A12044F] =
    [.add ⟨false, 2⟩ plain 5 (.reg 34) (.reg 51), .sub ⟨true, 6⟩ plain 44 (.reg 40) (.reg 2), .and ⟨true, 1⟩ plain 62 (.reg 25) (.reg 61),
     .or ⟨false, 7⟩ plain 41 (.reg 47) (.reg 39), .xor ⟨true, 2⟩ plain 10 (.reg 39) (.reg 9), .andn ⟨true, 5⟩ plain 33 (.reg 4) (.reg 3),
     .orn ⟨false, 0⟩ plain 12 (.reg 56) (.reg 15), .shl ⟨true, 1⟩ plain 1 (.reg 49) (.reg 29), .shr ⟨false, 5⟩ plain 28 (.reg 37) (.reg 53),
     .sar ⟨false, 3⟩ plain 33 (.reg 14) (.reg 40), .rol ⟨false, 4⟩ plain 31 (.reg 9) (.reg 42), .min ⟨false, 1⟩ plain 29 (.reg 41) (.reg 17),
     .max ⟨false, 6⟩ plain 63 (.reg 35) (.reg 63), .minn ⟨true, 6⟩ plain 53 (.reg 5) (.reg 45), .maxn ⟨false, 4⟩ plain 20 (.reg 48) (.reg 14),
     .ror ⟨true, 0⟩ plain 18 (.reg 1) (.reg 4)].map some := by decide +kernel
theorem test_decode_alu2 : read [0x0E711990, 0x0C764981, 0x0C7D0762, 0x0E8034D3, 0x0FBA0DE4, 0x0DBEB595, 0x0D849286, 0x0CF1AC07, 0x0D151408, 0x0D152409, 0x0FDAC00A, 0x0F87200B, 0x0CED180C, 0x0C03773D, 0x0DCBAE3E, 0x10DC80C0, 0x13EEC481, 0x11A96072, 0x119AFCD3, 0x1011DFE4] =
    [.mul ⟨true, 1⟩ plain 49 (.reg 6) (.reg 25), .mulh ⟨false, 1⟩ plain 54 (.reg 18) (.reg 24), .mulhn ⟨false, 1⟩ plain 61 (.reg 1) (.reg 54),
     .div ⟨true, 2⟩ plain 0 (.reg 13) (.reg 13), .divn ⟨true, 6⟩ plain 58 (.reg 3) (.reg 30), .rem ⟨false, 6⟩ plain 62 (.reg 45) (.reg 25),
     .remn ⟨false, 6⟩ plain 4 (.reg 36) (.reg 40), .popc ⟨false, 3⟩ plain 49 (.reg 43), .clz ⟨false, 4⟩ plain 21 (.reg 5),
     .ctz ⟨false, 4⟩ plain 21 (.reg 9), .brev ⟨true, 7⟩ plain 26 (.reg 48), .bswap ⟨true, 6⟩ plain 7 (.reg 8),
     .abs ⟨false, 3⟩ plain 45 (.reg 6), .sext ⟨false, 0⟩ plain 3 (.reg 29) (.reg 51), .zext ⟨false, 7⟩ plain 11 (.reg 43) (.reg 35),
     .bfxs ⟨false, 3⟩ plain 28 (.reg 32) (.reg 12), .bfxn ⟨true, 7⟩ plain 46 (.reg 49) (.reg 8), .bfi ⟨false, 6⟩ plain 41 (.reg 24) (.reg 7),
     .fshl ⟨false, 6⟩ plain 26 (.reg 63) (.reg 13), .fshr ⟨false, 0⟩ plain 17 (.reg 55) (.reg 62)].map some := by decide +kernel
theorem test_decode_fpu : read [0x17F39530, 0x17F804D1, 0x1499FF62, 0x16699063, 0x143F24D4, 0x15D02715, 0x1655D406, 0x15181007, 0x14453408, 0x16683C09, 0x14265C0A, 0x1567740B, 0x14BD940C, 0x19F59011, 0x1B582CD0, 0x1893E91D, 0x1B673DDC, 0x18CABE50, 0x1BE332D7, 0x1BD8E33D, 0x1A456B86, 0x1C4609E8, 0x223D4153] =
    [.fadd ⟨true, 7⟩ plain 51 (.reg 37) (.reg 19), .fsub ⟨true, 7⟩ plain 56 (.reg 1) (.reg 13), .fmul ⟨false, 2⟩ plain 25 (.reg 63) (.reg 54),
     .ffma ⟨true, 1⟩ plain 41 (.reg 36) (.reg 6), .fmin ⟨false, 0⟩ plain 63 (.reg 9) (.reg 13), .fmax ⟨false, 7⟩ plain 16 (.reg 9) (.reg 49),
     .fabs ⟨true, 1⟩ plain 21 (.reg 53), .fneg ⟨false, 4⟩ plain 24 (.reg 4), .fcvtif ⟨false, 1⟩ plain 5 (.reg 13),
     .fcvtnf ⟨true, 1⟩ plain 40 (.reg 15), .fcvtfi ⟨false, 0⟩ plain 38 (.reg 23), .fcvtfn ⟨false, 5⟩ plain 39 (.reg 29),
     .fsqrt ⟨false, 2⟩ plain 61 (.reg 37), .addi ⟨false, 7⟩ plain 53 (.reg 36) 17, .andi ⟨true, 5⟩ plain 24 (.reg 11) (-48),
     .ori ⟨false, 2⟩ plain 19 (.reg 58) 29, .xori ⟨true, 5⟩ plain 39 (.reg 15) (-36), .shli ⟨false, 3⟩ plain 10 (.reg 47) (-48),
     .shri ⟨true, 7⟩ plain 35 (.reg 12) (-41), .sari ⟨true, 7⟩ plain 24 (.reg 56) 61, .muli ⟨true, 1⟩ plain 5 (.reg 26) 6,
     .movi ⟨false, 1⟩ plain 6 2536, .movhi ⟨true, 0⟩ plain 61 16723].map some := by decide +kernel
theorem test_decode_compare : read [0x24D3A41A, 0x274BB4A1, 0x288BA108, 0x28C3BDA7, 0x2E43AEBA, 0x2CD3B45A, 0x31CBA2D2, 0x314BB205, 0x354BAF95, 0x3693B97C, 0x388BA05E, 0x3B93BF42, 0x3C0BA784, 0x3ED3BFC4, 0x4043ABC2, 0x438BBB48] =
    [.cmpeq ⟨false, 3⟩ false .or 3 5 (.reg 16) (.reg 26), .cmpeqImm ⟨true, 5⟩ false .and 3 5 (.reg 18) (-31), .cmpne ⟨false, 2⟩ false .and 3 5 (.reg 4) (.reg 8),
     .cmpneImm ⟨false, 3⟩ false .plain 3 5 (.reg 54) (-25), .cmplt ⟨true, 1⟩ false .plain 3 5 (.reg 58) (.reg 58), .cmpltImm ⟨false, 3⟩ false .or 3 5 (.reg 17) 26,
     .cmple ⟨false, 7⟩ false .and 3 5 (.reg 11) (.reg 18), .cmpleImm ⟨false, 5⟩ false .and 3 5 (.reg 8) 5, .cmpltn ⟨false, 5⟩ false .and 3 5 (.reg 62) (.reg 21),
     .cmpltnImm ⟨true, 2⟩ false .or 3 5 (.reg 37) 60, .cmplen ⟨false, 2⟩ false .and 3 5 (.reg 1) (.reg 30), .cmplenImm ⟨true, 6⟩ false .or 3 5 (.reg 61) 2,
     .fcmpeq ⟨false, 0⟩ false .and 3 5 (.reg 30) (.reg 4), .fcmplt ⟨true, 3⟩ false .or 3 5 (.reg 63) (.reg 4), .fcmple ⟨false, 1⟩ false .plain 3 5 (.reg 47) (.reg 2),
     .fcmpun ⟨true, 6⟩ false .and 3 5 (.reg 45) (.reg 8)].map some := by decide +kernel
theorem test_decode_control : read [0x473DA801, 0x4B95DD01, 0x4D401400, 0x4E807801, 0x4F801862, 0x4D871803, 0x4F431004, 0x4E450C35, 0x4E402406, 0x4E440007, 0x4C400008, 0x50680765, 0x57D07784] =
    [.br ⟨true, 4⟩ (-153599), .brl ⟨true, 6⟩ 1432833, .jr ⟨false, 5⟩ (.reg 5),
     .jrl ⟨true, 2⟩ (.reg 30), .pand ⟨true, 6⟩ 0 6 6, .por ⟨false, 6⟩ 7 6 0,
     .pxor ⟨true, 5⟩ 3 4 0, .pandn ⟨true, 1⟩ 5 3 3, .pmovs ⟨true, 1⟩ (.reg 9),
     .pmovp ⟨true, 1⟩ 4, .lpop ⟨false, 1⟩, .loop ⟨false, 1⟩ 40 1893,
     .loopi ⟨true, 7⟩ 1053 900].map some := by decide +kernel
theorem test_decode_scalar_memory : read [0x59AE558B, 0x5EE57568, 0x6061C200, 0x60139851, 0x61C13BD2, 0x62C77F13, 0x626AE9F4, 0x61392575, 0x6109AE76, 0x60E12B07, 0x6395ABB8, 0x61DFE4F9] =
    [.ld ⟨false, 6⟩ false 46 (.reg 21) .h true (-5), .st ⟨true, 3⟩ 37 (.reg 29) .h false 6 (-8), .amoAdd ⟨false, 1⟩ 33 (.reg 48) (.reg 32),
     .amoAnd ⟨false, 0⟩ 19 (.reg 38) (.reg 5), .amoOr ⟨false, 7⟩ 1 (.reg 14) (.reg 61), .amoXor ⟨true, 3⟩ 7 (.reg 31) (.reg 49),
     .amoMin ⟨true, 1⟩ 42 (.reg 58) (.reg 31), .amoMax ⟨false, 4⟩ 57 (.reg 9) (.reg 23), .amoMinn ⟨false, 4⟩ 9 (.reg 43) (.reg 39),
     .amoMaxn ⟨false, 3⟩ 33 (.reg 10) (.reg 48), .amoSwap ⟨true, 6⟩ 21 (.reg 42) (.reg 59), .amoCas ⟨false, 7⟩ 31 (.reg 57) (.reg 15)].map some := by decide +kernel
theorem test_decode_atomics : read [0x6559A900, 0x64E86F31, 0x6730E8C2, 0x678D60E3, 0x667A50D4, 0x64887D65, 0x6779D826, 0x66C4F3E7, 0x65342878, 0x65DE47B9, 0x64F5698A, 0x66A17EBB, 0x6964D7E0, 0x6A401351, 0x68049822, 0x6AA09163, 0x69249014, 0x6A8074C5, 0x682444F6, 0x6B040FE7, 0x6A80706A, 0x6AA0A68B] =
    [.amowAdd ⟨false, 5⟩ 25 (.reg 42) (.reg 16), .amowAnd ⟨false, 3⟩ 40 (.reg 27) (.reg 51), .amowOr ⟨true, 4⟩ 48 (.reg 58) (.reg 12),
     .amowXor ⟨true, 6⟩ 13 (.reg 24) (.reg 14), .amowMin ⟨true, 1⟩ 58 (.reg 20) (.reg 13), .amowMax ⟨false, 2⟩ 8 (.reg 31) (.reg 22),
     .amowMinn ⟨true, 5⟩ 57 (.reg 54) (.reg 2), .amowMaxn ⟨true, 3⟩ 4 (.reg 60) (.reg 62), .amowSwap ⟨false, 4⟩ 52 (.reg 10) (.reg 7),
     .amowCas ⟨false, 7⟩ 30 (.reg 17) (.reg 59), .amowFadd ⟨false, 3⟩ 53 (.reg 26) (.reg 24), .amowFmax ⟨true, 2⟩ 33 (.reg 31) (.reg 43),
     .redAdd ⟨false, 5⟩ true true (.reg 53) (.reg 62), .redAnd ⟨true, 1⟩ false false (.reg 4) (.reg 53), .redOr ⟨false, 0⟩ false true (.reg 38) (.reg 2),
     .redXor ⟨true, 2⟩ true false (.reg 36) (.reg 22), .redMin ⟨false, 4⟩ true true (.reg 36) (.reg 1), .redMax ⟨true, 2⟩ false false (.reg 29) (.reg 12),
     .redMinn ⟨false, 0⟩ true true (.reg 17) (.reg 15), .redMaxn ⟨true, 4⟩ false true (.reg 3) (.reg 62), .redFadd ⟨true, 2⟩ false (.reg 28) (.reg 6),
     .redFmax ⟨true, 2⟩ true (.reg 41) (.reg 40)].map some := by decide +kernel
theorem test_decode_counters : read [0x6F1412B0, 0x73582ED2, 0x75E2B420, 0x7B16880A, 0x7E0000A0, 0x7FC00301, 0x7C99DB22, 0x7EF93853, 0x7DBBE404, 0x7ED82005, 0x7DDD3286, 0x7FBA2407] =
    [.cadd ⟨true, 4⟩ 2 true (.reg 4) (.reg 43) .cube false, .cmax ⟨true, 5⟩ 3 false (.reg 11) (.reg 45) .cube true, .cwait ⟨false, 7⟩ 34 (.reg 45) (.reg 2) .cube false false,
     .crd ⟨true, 4⟩ 22 (.reg 34) .fab true, .fence ⟨true, 0⟩ .loadLoad .fab, .qfence ⟨true, 7⟩ 48,
     .bind ⟨false, 2⟩ 25 (.reg 54) (.reg 50), .unbind ⟨true, 3⟩ 57 (.reg 14) (.reg 5), .join ⟨false, 6⟩ 59 (.reg 57),
     .leave ⟨true, 3⟩ 24 (.reg 8), .launch ⟨false, 7⟩ 29 (.reg 12) (.reg 40), .trninfo ⟨true, 6⟩ 58 (.reg 9)].map some := by decide +kernel
theorem test_decode_via : read [0x81E54E20, 0x81A9F311, 0x80B8CFA2, 0x8273D513, 0x81441724, 0x831FD015, 0x81C25896, 0x81BF0E27, 0x83DF2F18, 0x831D0899, 0x8275D8AA, 0x82BDBD9B, 0x8149E8AC, 0x820CD01D, 0x8226C01E, 0x82591C9F] =
    [.vadd 3 true plain 18 (.reg 20) (.reg 28) .b32, .vsub 3 false plain 20 (.reg 31) (.reg 6) .b16, .vadds 1 false plain 28 (.reg 12) (.reg 31) .b32,
     .vsubs 4 true plain 25 (.reg 29) (.reg 10) .b16, .vaddsn 2 true plain 2 (.reg 1) (.reg 14) .b32, .vsubsn 6 false plain 15 (.reg 29) (.reg 0) .b16,
     .vmul 3 true plain 1 (.reg 5) (.reg 17) .b16, .vmulh 3 false plain 31 (.reg 16) (.reg 28) .b32, .vmulhn 7 true plain 15 (.reg 18) (.reg 30) .b16,
     .vmin 6 false plain 14 (.reg 16) (.reg 17) .b16, .vmax 4 true plain 26 (.reg 29) (.reg 17) .b32, .vminn 5 false plain 30 (.reg 27) (.reg 27) .b16,
     .vmaxn 2 true plain 4 (.reg 30) (.reg 17) .b32, .vabs 4 false plain 6 (.reg 13) .b16, .vneg 4 false plain 19 (.reg 12) .b16,
     .vavgn 4 true plain 12 (.reg 17) (.reg 25) .b16].map some := by decide +kernel
theorem test_decode_vlg : read [0x85AC5120, 0x85FD9EA1, 0x849E4522, 0x86066693, 0x87896014, 0x84087025, 0x85567996, 0x85E43DA7, 0x86AD0E18, 0x85DBA819, 0x8637489A, 0x8637199B, 0x84EF402C, 0x8795301D] =
    [.vand 3 false plain 22 (.reg 5) (.reg 2) .b32, .vor 3 true plain 30 (.reg 25) (.reg 29) .b32, .vxor 1 false plain 15 (.reg 4) (.reg 10) .b32,
     .vandn 4 false plain 3 (.reg 6) (.reg 13) .b16, .vnot 7 false plain 4 (.reg 22) .b16, .vshl 0 false plain 4 (.reg 7) (.reg 0) .b32,
     .vshr 2 true plain 11 (.reg 7) (.reg 19) .b16, .vsar 3 true plain 18 (.reg 3) (.reg 27) .b32, .vrol 5 false plain 22 (.reg 16) (.reg 28) .b16,
     .vbfxs 3 true plain 13 (.reg 26) (.reg 16) .b16, .vbfxn 4 false plain 27 (.reg 20) (.reg 17) .b16, .vbfi 4 false plain 27 (.reg 17) (.reg 19) .b16,
     .vpopc 1 true plain 23 (.reg 20) .b32, .vclz 7 false plain 10 (.reg 19) .b16].map some := by decide +kernel
theorem test_decode_vfp : read [0x88FE6E40, 0x8B897151, 0x8835E6C2, 0x88A95CC3, 0x88EABED4, 0x88614C45, 0x8B1E3046, 0x8B670057, 0x888A3348, 0x8BBB51C9, 0x8CEAE040, 0x8D1CD051, 0x8DA6B042, 0x8F0AD053, 0x8E99D044, 0x8C720045, 0x8F6DC056] =
    [.vfadd 1 true plain 31 (.reg 6) (.reg 28) .bf16, .vfsub 7 false plain 4 (.reg 23) (.reg 2) .f32, .vfmul 0 false plain 26 (.reg 30) (.reg 13) .bf16,
     .vffma 1 false plain 20 (.reg 21) (.reg 25) .bf16, .vfmin 1 true plain 21 (.reg 11) (.reg 29) .f32, .vfmax 0 true plain 16 (.reg 20) (.reg 24) .bf16,
     .vfabs 6 false plain 15 (.reg 3) .bf16, .vfneg 6 true plain 19 (.reg 16) .f32, .vfcpsgn 1 false plain 5 (.reg 3) (.reg 6) .bf16,
     .vfmaxabs 7 false plain 29 (.reg 21) (.reg 3) .bf16, .vexp2 1 true plain 21 (.reg 14) .bf16, .vlog2 2 false plain 14 (.reg 13) .f32,
     .vrcp 3 false plain 19 (.reg 11) .bf16, .vrsq 6 false plain 5 (.reg 13) .f32, .vsqrt 5 false plain 12 (.reg 29) .bf16,
     .vtanh 0 true plain 25 (.reg 0) .bf16, .vsigm 6 true plain 22 (.reg 28) .f32].map some := by decide +kernel
theorem test_decode_vcmp : read [0x92652FA0, 0x91557C21, 0x90F71B22, 0x931172A3, 0x9111C594, 0x90A75495, 0x92A11156, 0x92B18647, 0x90547458, 0x92114649, 0x94042380, 0x94084201, 0x940E4202, 0x944E0283, 0x940C5004, 0x94665015, 0x95FE1026, 0x9443B017, 0x940EF028] =
    [.vcmpeq 4 true false 4 2 (.reg 18) (.reg 31) .b32, .vcmpne 2 true false 2 2 (.reg 23) (.reg 24) .b32, .vcmplt 1 true false 6 3 (.reg 17) (.reg 22) .b32,
     .vcmple 6 false false 2 0 (.reg 23) (.reg 5) .b32, .vcmpltn 2 false false 2 0 (.reg 28) (.reg 11) .b16, .vcmplen 1 false false 4 3 (.reg 21) (.reg 9) .b16,
     .vfcmpeq 5 false false 4 0 (.reg 17) (.reg 2) .f32, .vfcmplt 5 false false 6 0 (.reg 24) (.reg 12) .bf16, .vfcmple 0 true false 2 2 (.reg 7) (.reg 8) .f32,
     .vfcmpun 4 false false 2 0 (.reg 20) (.reg 12) .bf16, .mand false false 2 2 7, .mor false false 4 4 4,
     .mxor false false 7 4 4, .mandn true false 7 0 5, .mnot false false 6 5,
     .mpop 0 true false 19 5 .b16, .mfirst 3 true false 31 1 .b32, .mfroms true false 1 (.reg 27) .b16,
     .mlanes false false 7 (.reg 15) .b32].map some := by decide +kernel
theorem test_decode_vprm : read [0x9A2695A0, 0x99D11EA1, 0x98018392, 0x9A9B8A93, 0x9BAEC0A4, 0x98787025, 0x99707096, 0x9BEFD717, 0x9A4619A8, 0x98361599, 0x981C4AAA, 0x9A292AAB, 0x9B60001C, 0x9BAE402D] =
    [.vperm 4 false plain 19 (.reg 9) (.reg 11) .b32, .vbcast 3 true plain 8 (.reg 17) (.reg 29) .b32, .vext false false 0 (.reg 24) (.reg 7) .b16,
     .vins 5 false plain 13 (.reg 24) (.reg 21) .b16, .vcompress 7 false plain 23 (.reg 12) 1 .b32, .vexpand 0 true plain 28 (.reg 7) .b32,
     .vslideup 2 true plain 24 (.reg 7) (.reg 1) .b16, .vslidedn 7 true plain 23 (.reg 29) (.reg 14) .b16, .vzipl 4 true plain 3 (.reg 1) (.reg 19) .b32,
     .vziph 0 false plain 27 (.reg 1) (.reg 11) .b16, .vunzipe 0 false plain 14 (.reg 4) (.reg 21) .b32, .vunzipo 4 false plain 20 (.reg 18) (.reg 21) .b32,
     .viota 6 true plain 16 .b16, .vrev 7 false plain 23 (.reg 4) .b32].map some := by decide +kernel
theorem test_decode_vred : read [0x9C789020, 0x9D275011, 0x9EB07012, 0x9E69D013, 0x9E808024, 0x9C423055, 0x9C45D046, 0x9E29F057, 0xA18CA0D4, 0xA0F620DC, 0xA767AC50, 0xA71CDBD1, 0xA53245D2, 0xA4F5F9D3, 0xA5238BD4, 0xA74ADA55, 0xA546EE58, 0xA52226D9, 0xA65FAADA] =
    [.vredadd 0 true plain 28 (.reg 9) .b32, .vredmin 2 false plain 19 (.reg 21) .b16, .vredmax 5 false plain 24 (.reg 7) .b16,
     .vredminn 4 true plain 20 (.reg 29) .b16, .vredmaxn 5 false plain 0 (.reg 8) .b32, .vfredadd 0 true plain 1 (.reg 3) .f32,
     .vfredmin 0 true plain 2 (.reg 29) .bf16, .vfredmax 4 false plain 20 (.reg 31) .f32, .vcvt 3 false plain 6 (.reg 10) 1 .f32 .bf16,
     .vcvtsr 1 true plain 27 (.reg 2) 1 .f32 .bf16, .vqmx8 6 true plain 19 (.reg 26) 24, .vqmx6 6 false plain 14 (.reg 13) 23,
     .vqmx4 2 false plain 25 (.reg 4) 11, .vdqmx8 1 true plain 26 (.reg 31) (.reg 19), .vdqmx6 2 false plain 17 (.reg 24) (.reg 23),
     .vdqmx4 6 true plain 5 (.reg 13) (.reg 20), .vqmx8sr 2 true plain 3 (.reg 14) 28, .vqmx6sr 2 false plain 17 (.reg 2) 13,
     .vqmx4sr 4 true plain 15 (.reg 26) 21].map some := by decide +kernel
theorem test_decode_vmem : read [0xA9B58800, 0xA8126F48, 0xAAC56130, 0xA9F16298, 0xAD487002, 0xAED4BF48, 0xAD5D2277, 0xAFEBD23B] =
    [.vld 3 false 26 (.reg 49), .vldStrided 0 false 9 (.reg 13) (.reg 58), .vldGather 5 true 2 (.reg 44) (.reg 9),
     .vldStrided16 3 true 24 (.reg 44) (.reg 20), .vst 2 true 4 (.reg 14) 2, .vstStrided 5 true 10 (.reg 23) (.reg 58) 0,
     .vstScatter 2 true 14 (.reg 36) (.reg 19) 7, .vstStrided16 7 true 21 (.reg 58) (.reg 17) 3].map some := by decide +kernel
theorem test_decode_vmov : read [0xB27E9020, 0xB0BDDB91, 0xB034BB22, 0xB2A40013, 0xB6D79600, 0xB6352901, 0xB4858742, 0xB7D39033] =
    [.vmov 4 true plain 31 (.reg 9) .b32, .vsel 1 false plain 30 (.reg 29) (.reg 23) .b16, .vsplati 0 false plain 26 374 .b32,
     .vnoise 5 false plain 18 .b16, .vdot4 5 true plain 11 (.reg 25) (.reg 12), .vdot4n 4 false plain 26 (.reg 18) (.reg 18),
     .vdot2 1 false plain 2 (.reg 24) (.reg 14), .vdot2h 7 true plain 9 (.reg 25) (.reg 0)].map some := by decide +kernel
theorem test_decode_cube : read [0xC0E21005, 0xC10C0AAE, 0xC4650000, 0xC6130001, 0xCB231960, 0xC852C071, 0xCF950060, 0xCC29A8A1, 0xCC700EA2, 0xCD90B8F3] =
    [.cmma ⟨false, 3⟩ 34 4 true false true, .cmmaMsk ⟨false, 4⟩ 12 2 42 true true false, .crotH32 ⟨false, 1⟩ 37,
     .crotH64 ⟨true, 0⟩ 19, .cdrain ⟨true, 4⟩ 35 6 22, .cdrainP ⟨false, 1⟩ 18 48 7,
     .caccZero ⟨true, 6⟩ 21 6, .caccLd ⟨false, 0⟩ 41 42 10, .caccSt ⟨false, 1⟩ 48 3 42,
     .caccMove ⟨false, 6⟩ 16 46 15].map some := by decide +kernel
theorem test_decode_spools : read [0xD1F12620, 0xD1717801, 0xD1975802, 0xD30C5803, 0xD2890004, 0xD5DF8800, 0xD72E1001, 0xDAE82430, 0xD9B10001, 0xDB4E0002, 0xDE971410, 0xDF191001] =
    [.csplDef ⟨false, 7⟩ 49 9 34, .csplAdvp ⟨false, 5⟩ 49 30, .csplAdvc ⟨false, 6⟩ 23 22,
     .csplRdp ⟨true, 4⟩ 12 22, .csplReset ⟨true, 2⟩ 9, .cpalSet ⟨false, 7⟩ 31 34,
     .cpalGet ⟨true, 4⟩ 46 4, .csyncJoin ⟨true, 3⟩ 40 9 3, .csyncStat ⟨false, 6⟩ 49,
     .csyncSkew ⟨true, 5⟩ 14, .crcpDef ⟨true, 2⟩ 23 5 1, .crcpGet ⟨true, 4⟩ 25 4].map some := by decide +kernel
theorem test_decode_copies : read [0xE04778C8, 0xE2828989, 0xE00221BA, 0xE189290B, 0xE08EA59C, 0xE0953995, 0xE21348DE, 0xE01F52F7] =
    [.cpyLin ⟨false, 1⟩ 7 30 12 true, .cpyTwod ⟨true, 2⟩ 2 34 24 true, .cpyThreed ⟨false, 0⟩ 2 8 27 true,
     .cpyFill ⟨false, 6⟩ 9 10 16 true, .cpyLsplit ⟨false, 2⟩ 14 41 25 true, .cpyLgath ⟨false, 2⟩ 21 14 25 false,
     .cpyMcast ⟨true, 0⟩ 19 18 13 true, .cpyPfetch ⟨false, 0⟩ 31 20 47 false].map some := by decide +kernel
theorem test_decode_gathers : read [0xE52A2B28, 0xE4891311, 0xE4267C9A, 0xE8151CD0, 0xE94E9909, 0xEADF9E12, 0xE9CC2123] =
    [.cgthGather ⟨false, 4⟩ 42 10 50 true, .cgthScatter ⟨false, 2⟩ 9 4 49 false, .cgthGatheradd ⟨false, 0⟩ 38 31 9 true,
     .credAddf32 ⟨false, 0⟩ 21 7 13 false, .credAddbf16 ⟨false, 5⟩ 14 38 16 true, .credMaxf32 ⟨true, 3⟩ 31 39 33 false,
     .credAddi32 ⟨false, 7⟩ 12 8 18 false].map some := by decide +kernel
theorem test_decode_blocks : read [0xEC89C4A0, 0xED2990B1, 0xEF647C52, 0xED201DA3, 0xEF8C5AB4, 0xEE323065, 0xEDC63DA6] =
    [.blkAlloc ⟨false, 2⟩ 9 49 10, .blkFree ⟨false, 4⟩ 41 36 11, .blkShare ⟨true, 5⟩ 36 31 5,
     .blkXlate ⟨false, 4⟩ 32 7 26, .blkFetch ⟨true, 6⟩ 12 22 43, .blkAppend ⟨true, 0⟩ 50 12 6,
     .blkStat ⟨false, 7⟩ 6 15 26].map some := by decide +kernel
/-- Header bytes (R34, R35, R36): an immediate's high bits, the modifiers NW and TV, latches for operands. -/
theorem test_decode_extended :
    [decodeSlot 0x1C0A000F 0x01, decodeSlot 0x200AF000 0x7F, decodeSlot 0x08050420 0xC0, decodeSlot 0x08050420 0xA0, decodeSlot 0x08050020 0x84,
     decodeSlot 0x08050020 0x00, decodeSlot 0x08050420 0x84, decodeSlot 0x00000001 0x80] =
    [some (.movi yes plain 10 0x1000F), some (.movhi yes plain 10 0x7FF000), some (.add yes ⟨true, false⟩ 5 (.reg 1) (.reg 2)),
     some (.add yes ⟨false, true⟩ 5 (.reg 1) (.reg 2)), some (.add yes plain 5 (.latch 1) (.reg 2)), some (.add yes plain 5 (.reg 0) (.reg 2)),
     none, none] := by decide +kernel
/-- Reserved encodings (R43, R48): unassigned codes, bits that must be zero, the header's major in a slot. -/
theorem test_reserved : ([0x00000000, 0x0000000C, 0x00000011, 0x0C00000F, 0x10000005, 0x1400000D, 0x4C000009, 0x60000000 + 10,
     0x8400000E, 0x8800000A, 0x9400000A, 0x98000400 + 14, 0xB8000000, 0xC4000002, 0xD0000005, 0xE4000003, 0xE8000004, 0xEC000007,
     0xF0000000, 0xFC000000] : List Nat).all (fun w => decodeTableWord 32 w == none) = true := by decide +kernel

/-! ### Steps from reset on one word -/

/-- `movi s10, 0xF` (R171): the pc moves on, and one bundle later s10 and b1 hold the immediate. -/
theorem test_step_movi : ((stepOn 0x1C0A000F).cube 0).core.pc = 0xE000000001010 ∧
    (bundles 1 ((stepOn 0x1C0A000F).cube 0).core).s 10 = 0xF := by decide +kernel
/-- A word of zeros traps as an illegal bundle (R43): the runtime context leaves for the secure one with the record. -/
theorem test_step_illegal : ((stepOn 0).cube 0).sec.sys.trec.cause.toNat % 256 = 1 ∧
    ((stepOn 0).cube 0).sec.sys.trec.slots = 1 := by decide +kernel
/-- `br` with displacement −3 (R166). -/
theorem test_step_branch : ((stepOn 0x443FFFFD).cube 0).core.pc = 0xE000000000FD0 := by decide +kernel
/-- `trap 12` (R160): the trap waits for the bundle boundary with its code. -/
theorem test_step_trap : ((stepOn 0x000000C4).cube 0).core.pending = [⟨0x10, 12, 0, 0, 1, 0⟩] := by decide +kernel
/-- `halt` of the runtime context (R158): the core is free. -/
theorem test_step_halt : ((stepOn 2).cube 0).cur = .none := by decide +kernel

/-! ### Results by the spec's examples and by hand -/

def two (i : Instr) (x y : Word) (d : SReg) (n : Nat) : Word := (after n (runs (withS [(8, x), (9, x), (10, y)] rt)) i).s d
/-- R173: the field at offset 60 of width 12 reads zeros above bit 63. -/
theorem test_bfxn : two (.bfxn yes plain 4 (.reg 9) (.reg 10)) 0xF0F0123456789ABC 0x0C3C 4 1 = 0xF := by decide +kernel
theorem test_sext : two (.sext yes plain 4 (.reg 9) (.reg 10)) 0x80 7 4 1 = 0xFFFFFFFFFFFFFF80 := by decide +kernel
theorem test_sub_wraps : two (.sub yes plain 4 (.reg 9) (.reg 10)) 0 1 4 1 = 0xFFFFFFFFFFFFFFFF := by decide +kernel
theorem test_mulh : two (.mulh yes plain 4 (.reg 9) (.reg 10)) 0xFFFFFFFFFFFFFFFF 2 4 3 = 0xFFFFFFFFFFFFFFFF := by decide +kernel
theorem test_mulhn : two (.mulhn yes plain 4 (.reg 9) (.reg 10)) 0xFFFFFFFFFFFFFFFF 2 4 3 = 1 := by decide +kernel
theorem test_abs_least : two (.abs yes plain 4 (.reg 9)) 0x8000000000000000 0 4 1 = 0x8000000000000000 := by decide +kernel
/-- R172: −2^63 by −1, and a divisor of zero. -/
theorem test_division : (post (runs (withS [(9, 0x8000000000000000), (10, 0xFFFFFFFFFFFFFFFF)] rt)) (.div yes plain 4 (.reg 9) (.reg 10))).reads.map
      (fun r => r.value.setWidth 64) = [(0x8000000000000000 : Word)] ∧
    (post (runs (withS [(9, 7)] rt)) (.rem yes plain 4 (.reg 9) (.reg 10))).reads.map (fun r => r.value.setWidth 64) = [(7 : Word)] := by
  decide +kernel
/-- R175: 1 + 2^24 × 2^−24 with one rounding. -/
theorem test_ffma : (after 4 (runs (withS [(8, 0x3F800000), (9, 0x4B800000), (10, 0x33800000)] rt))
    (.ffma yes plain 8 (.reg 9) (.reg 10))).s 8 = 0x40000000 := by decide +kernel
theorem test_fmin_zero : two (.fmin yes plain 4 (.reg 9) (.reg 10)) 0 0x80000000 4 4 = 0x80000000 := by decide +kernel
theorem test_fcvtfi_nan : two (.fcvtfi yes plain 4 (.reg 9)) 0x7FC00000 0 4 4 = 0 := by decide +kernel
/-- Latency 1 is not visible in its own bundle, and TV adds two (R136, R137). -/
theorem test_latency : ((post (runs rt) (.movi yes plain 4 7)).ctx).s 4 = 0 ∧ (after 1 (runs rt) (.movi yes plain 4 7)).s 4 = 7 ∧
    (after 2 (runs rt) (.movi yes ⟨false, true⟩ 4 7)).s 4 = 0 ∧ (after 3 (runs rt) (.movi yes ⟨false, true⟩ 4 7)).s 4 = 7 := by decide +kernel
theorem test_movhi : (after 1 (runs (withS [(4, 0xF)] rt)) (.movhi yes plain 4 0xF000)).s 4 = 0xFF000 := by decide +kernel
theorem test_s0_discards : (after 1 (runs rt) (.movi yes plain 0 7)).s 0 = 0 := by decide +kernel
theorem test_guard_off : (after 1 (runs rt) (.movi ⟨true, 0⟩ plain 4 7)).s 4 = 0 := by decide +kernel
/-- R177: a compare of the AND family keeps a predicate that is false. -/
theorem test_compare_and : (after 1 (runs rt) (.cmpeq yes false .and 1 2 (.reg 0) (.reg 0))).p 1 = false ∧
    (after 1 (runs rt) (.cmpeq yes false .plain 1 2 (.reg 0) (.reg 0))).p 1 = true := by decide +kernel
/-- R166, R167: the link is the bundle behind. -/
theorem test_jrl : (after 1 (runs (withS [(20, 0x40)] rt)) (.jrl yes (.reg 20))).s 63 = 0x10 ∧
    (post (runs (withS [(20, 0x40)] rt)) (.jrl yes (.reg 20))).cubes[0].bundle.taken = some 0x40 := by decide +kernel
/-- R168: `loopi 2` around the next bundle. -/
theorem test_loopi : (post (runs rt) (.loopi yes 2 1)).ctx.loops = [⟨0x10, 0x10, 2⟩] := by decide +kernel
/-- R165: SEQ_FRM at the end of the bundle; task mode may not write SEQ_ASN. -/
theorem test_syswr : (endBundle (post (runs (withS [(5, 3)] rt)) (.syswr yes 5 0x002)) 0).ctx.sys.frm = 3 ∧
    ((post (strand task) (.syswr yes 5 0x050)).cube 0).core.sys.trec.cause.toNat % 256 = 3 := by decide +kernel
/-- R178: `ld` from the cube's own scratch shows after four bundles; a store and its load of the low byte. -/
def inScratch : State := { runs (withS [(1, 0xFF00000000000)] rt) with mem := [⟨windowBase 0, 0x80⟩] }
theorem test_ld_scratch : (after 4 inScratch (.ld yes false 4 (.reg 1) .b true 0)).s 4 = 0xFFFFFFFFFFFFFF80 ∧
    (after 3 inScratch (.ld yes false 4 (.reg 1) .b true 0)).s 4 = 0 := by decide +kernel
theorem test_st_scratch : memNat (post (runs (withS [(1, 0xFF00000000000), (2, 0x1234)] rt)) (.st yes 2 (.reg 1) .h false 0 1)).mem (windowBase 0 + 2) 2 =
    0x1234 := by decide +kernel
theorem test_ld_misaligned : (post (strand (withS [(1, 0xFF00000000001)] task)) (.ld yes false 4 (.reg 1) .h false 0)).ctx.sys.trec.cause.toNat % 256 = 8 := by
  decide +kernel
/-- A vector of bytes 0, 1, 2, … -/
def ramp : VWord := BitVec.ofNat 2048 (packLE ((List.range 256).map fun k => BitVec.ofNat 8 k))
def vec (n : Nat) (i : Instr) : VWord := (after n (runs { (rt.setV 1 ramp) with sys := rt.sys }) i).v 4
theorem test_vadd : elemAt (vec 2 (.vadd 0 false plain 4 (.reg 1) (.reg 1) .b8)) 1 200 = 144 := by decide +kernel
theorem test_vadds : elemAt (vec 2 (.vadds 0 false plain 4 (.reg 1) (.reg 1) .b8)) 1 100 = 127 := by decide +kernel
theorem test_vrev : elemAt (vec 3 (.vrev 0 false plain 4 (.reg 1) .b8)) 1 0 = 255 := by decide +kernel
theorem test_vredadd : elemAt (vec 6 (.vredadd 0 false plain 4 (.reg 1) .b8)) 1 0 = 128 := by decide +kernel
theorem test_vdot4n : elemAt (vec 4 (.vdot4n 0 false plain 4 (.reg 1) (.reg 1))) 4 1 = 126 := by decide +kernel

end Sys2Proof.Tests
end

