-- ==== Sys2Proof/Tests/Witness.lean ====
section
/-! SUPPORT. Witnesses: for every obligation with hypotheses, states and operands that meet them. -/
set_option Elab.async false
set_option maxRecDepth 4000
namespace Sys2Proof.Tests
open Sys2Proof.Machine Sys2Proof.Say

/-! ### States -/

/-- A runtime context with an address in s1, or one in s1 and a number in s2. -/
def at1 (v : Word) : State := runs (withS [(1, v)] rt)
def at2 (v w : Word) : State := runs (withS [(1, v), (2, w)] rt)
/-- The same in a task strand, which has no page tables here. -/
def taskAt (v : Word) : State := runs (withS [(1, v)] task)
def isOk {α : Type} (r : Except Trap α) (p : α → Bool) : Bool := match r with | .ok a => p a | .error _ => false
def isFault (r : Checked) : Bool := match r with | .fault k => k != kWalkError | _ => false
/-- Package 5 stands in the peer table as an Irsere package that plane 0 reaches. -/
def peered (s : State) : State := { s with
  mem := memWrite s.mem (cellsAt 0x80A0 (bytesLE 8 0xC100000000000000))
  fab := { s.fab with
    regs := { s.fab.regs with peerBase := 0x8001 }
    ports := s.fab.ports.set 0 { s.fab.ports.get 0 with up := true } } }
/-- A leaf for the 4 KiB at a frame number of a package (0x3FF this one), readable and writable, and cube 0's TLB with the
translation of 0x10000 by it in address space 0. -/
def pte (frame peer mode : Nat) : Word := BitVec.ofNat 64 (0x87 + mode * 32 + frame * 2048 + peer * 2 ^ 42)
def mapped (p : Word) (s : State) : State := s.modCube 0 fun k => { k with tlb := [⟨0, 0x10000, 4096, p, 1⟩] }
def dead5 (s : State) : State := markDead (peered s) 5

/-! ### Scalar instructions -/

theorem witness_guard : (runs rt).ctx.guard yes = true ∧ (runs rt).ctx.mode ≠ .task ∧ (strand task).ctx.guard yes = true ∧
    (strand task).ctx.mode = .task := by decide +kernel
theorem witness_GuardFails : (instrUse (.halt ⟨true, 0⟩)).g = some ⟨true, 0⟩ ∧ (runs rt).ctx.guard ⟨true, 0⟩ = false := by decide +kernel
/-- A state at the end of a bundle whose context has these loop entries. -/
def inLoops (ls : List LoopEntry) : State := runs { rt with pc := 0x40, loops := ls }
theorem witness_ControlTransfers : Closes (inLoops []) ∧ (inLoops []).bundle.taken = none ∧ (inLoops []).bundle.pushed = false ∧
    (branched (inLoops []) rt 0x80).bundle.taken = some 0x80 ∧
    (inLoops [⟨0, 0x40, 2⟩]).ctx.loops = [] ++ [⟨0, 0x40, 2⟩] ∧
    (inLoops [⟨0, 0x40, 1⟩, ⟨0, 0x40, 0⟩]).ctx.loops = [⟨0, 0x40, 1⟩] ++ [⟨0, 0x40, 0⟩] ∧
    ((inLoops [⟨0, 0x50, 2⟩]).modBundle fun b => { b with pushed := true }).bundle.pushed = true := by
  unfold Closes; decide +kernel
theorem witness_ControlTransfers_jump : ((at1 0x40).ctx.src (.reg 1)).toNat % 16 = 0 ∧
    ((at1 0x4F).ctx.src (.reg 1)).toNat % 16 ≠ 0 := by decide +kernel
theorem witness_ControlTransfers_loop : (at1 0).ctx.s 1 = 0 ∧ (at1 1).ctx.loops.length < 4 ∧ (at1 1).ctx.s 1 ≠ 0 ∧
    4 ≤ (runs (withS [(1, 1)] { rt with loops := List.replicate 4 ⟨0, 0, 1⟩ })).ctx.loops.length ∧
    (runs (withS [(1, 1)] { rt with loops := List.replicate 4 ⟨0, 0, 1⟩ })).ctx.s 1 ≠ 0 := by decide +kernel
theorem witness_ScalarMemory : isOk (ldCheck (at1 0xFF00000000000) (.reg 1) .d 0) (fun t => isScratch (at1 0xFF00000000000) t.key) ∧
    isOk (ldCheck (at1 0xE000000001000) (.reg 1) .d 0) (fun t => !isScratch (at1 0xE000000001000) t.key) ∧
    isOk (stCheck (at1 0xE010100000000) (.reg 1) .d 7 0) (fun t => homeOf t.key != 8 + (at1 0).me.val) := by decide +kernel
theorem witness_ScalarMemory_quiet : Quiet (at1 0xFF00000000000) ∧ Clean (at1 0xFF00000000000) (windowBase 0) 8 := by
  unfold Quiet Clean; decide +kernel
theorem witness_AccessTraps :
    (effAddr (at1 0x1007).ctx (.reg 1) 0 8).toNat % 8 ≠ 0 ∧
    ((1 : BitVec 3) ≠ 0 ∧ (runs { rt with sys := { rt.sys with broken := 2 } }).ctx.sys.broken.getLsbD 1 = true) ∧
    isFault (checkAccess (taskAt 0x1000) (taskAt 0x1000).agent .read 0x1000) ∧
    isFault (checkAccess (taskAt 0x1000) (taskAt 0x1000).agent .write 0x1000) ∧
    checkAccess (dead5 (mapped (pte 1 5 0) (at1 0x10000))) (at1 0x10000).agent .read 0x10000 = .dead ∧
    effAddr (at1 0x10000).ctx (.reg 1) 0 8 = 0x10000 := by decide +kernel
theorem witness_AtomicsAndCounters :
    isOk (amoCheck (at1 0xE000000001000) false true .cas (.reg 1)) (fun t => homeOf t.key != 8) ∧
    isOk (amoCheck (at1 0xFF00000000000) false false .fadd (.reg 1)) (fun t => homeOf t.key == 8) ∧ (4 : SReg) ≠ 0 ∧
    isOk (amoCheck (at1 0xE000000001000) true false .fmax (.reg 1)) (fun t => homeOf t.key != 8) ∧
    isOk (counterCheck (at1 0xE000000001000) false 7 (.reg 1)) (fun t => homeOf t.key != 8 && t.peer == none &&
      keySpace (at1 0) t.key != .host) ∧
    isOk (counterCheck (peered (mapped (pte 1 5 0) (at1 0x10000))) false 0 (.reg 1)) (fun t => homeOf t.key != 8 &&
      t.peer == some 5 && peerIrsere (peered (mapped (pte 1 5 0) (at1 0x10000))) 5) ∧
    isOk (counterCheck (at1 0xE000000001000) true 0 (.reg 1)) (fun t => homeOf t.key != 8) := by decide +kernel

/-! ### System instructions -/

theorem witness_SystemRegisters : (runs { rt with noise := { rt.noise with queue := [7, 8] } }).ctx.noise.queue = 7 :: [8] ∧
    (runs rt).bundle.popV = false ∧ readTraps (runs rt).ctx.mode 0x510 = false ∧ writeTraps (runs rt).ctx.mode 0x050 = false ∧
    ((runs rt).cube (runs rt).me).cur ≠ .none := by decide +kernel
theorem witness_closes : Closes (runs rt) ∧ Closes (strand task) := by unfold Closes; decide +kernel
theorem witness_ControlAndPrivilege : readTraps (strand task).ctx.mode 0x010 = true ∧ writeTraps (strand task).ctx.mode 0x050 = true ∧
    isOk (counterReadCheck (at1 0xE000000001000) (.reg 1)) (fun _ => true) ∧ (at1 0).ctx.wait = .none ∧
    (runs { rt with wait := .satisfied 5 }).ctx.wait = .satisfied 5 := by decide +kernel
/-- A runtime context with an interlocked load out. -/
def loading : State := { runs rt with reads :=
  [⟨7, 0, 0, 0, 0x40, [(0x1000, 0)], [], .scalar 4 false 8 false, none, none, .sent, 0, 0, false, [], .none, ([], [])⟩] }
/-- A handler of the trapped strand on shelf 3, whose priority is 1, with a strand of some priority ready on shelf 1. -/
def handling (prio : BitVec 2) : State := onCube fun k => { k with
  cur := .runtime, core := { rt with sys := { rt.sys with tshelf := 0x13 } }, ready := [1]
  shelves := (k.shelves.set 3 (some { task with status := .trapped, task := { task.task with prio := 1 } })).set 1
    (some { task with sid := 21, status := .ready, task := { task.task with prio := prio } }) }
def inGesso : State := onCube fun k => { k with cur := .secure, core := { Ctx.reset 1 .secure with status := .running } }
theorem witness_ControlAndPrivilege_ends : interlocksOut (endBundle loading loading.me) loading.ctx.sid = true ∧
    ((strand task).cube (strand task).me).cur = .shelf 0 ∧ ((endBundle (strand task) 0).cube 0).ready = [] ∧
    ((runs rt).cube (runs rt).me).cur = .runtime ∧ ((endBundle (runs rt) 0).cube 0).ready = [] ∧ (runs rt).ctx.sys.tshelf.getLsbD 4 = false ∧
    (inGesso.cube inGesso.me).cur = .secure := by decide +kernel
theorem witness_ControlAndPrivilege_rest : AtRest (endBundle (strand task) 0) (strand task).ctx.sid ∧
    AtRest (endBundle (handling 1) 0) (handling 1).ctx.sid ∧ AtRest (endBundle inGesso 0) inGesso.ctx.sid ∧
    Closes (handling 1) ∧ Closes inGesso ∧ Closes loading := by unfold AtRest Closes; decide +kernel
theorem witness_ControlAndPrivilege_eret : ((handling 1).cube (handling 1).me).cur = .runtime ∧
    (handling 1).ctx.sys.tshelf = 0x10 + BitVec.ofNat 5 (3 : ShelfId).val ∧ nextReady ((endBundle (handling 2) 0).cube 0) = some 1 ∧
    ((endBundle (handling 1) 0).cube 0).hw.life = .live ∧ ((endBundle (handling 1) 0).cube 0).patches = [] ∧
    (∃ y, ((endBundle (handling 1) 0).cube 0).shelves.get 3 = some y ∧ y.status = .trapped ∧
      ∀ j ∈ ((endBundle (handling 1) 0).cube 0).ready, shelfPrio ((endBundle (handling 1) 0).cube 0) j ≤ y.task.prio.toNat) ∧
    ∃ y z, ((endBundle (handling 2) 0).cube 0).shelves.get 3 = some y ∧ ((endBundle (handling 2) 0).cube 0).shelves.get 1 = some z ∧
      y.task.prio.toNat < z.task.prio.toNat := by
  refine ⟨?_, ?_, ?_, ?_, ?_, ⟨_, rfl, ?_, ?_⟩, _, _, rfl, rfl, ?_⟩ <;> decide +kernel
/-- A context with a binding in every entry. -/
def allBound : Ctx := { withS [(1, 0x1000), (2, 0x2000), (3, 0x1000)] rt with binds := Vector.replicate 32 (some ⟨0, 0, 4096⟩) }
theorem witness_FencesAndBindings : ((at1 0x1004).ctx.s 1).toNat % 8 ≠ 0 ∧ ((runs allBound).ctx.s 1).toNat % 8 = 0 ∧
    (runs allBound).ctx.src (.reg 0) = 0 ∧ (runs allBound).ctx.src (.reg 3) ≠ 0 ∧
    some (boundTo 0x1000 0x2000 0x1000) ∉ (runs allBound).ctx.binds.toList ∧ none ∉ (runs allBound).ctx.binds.toList ∧
    none ∈ (runs { allBound with binds := allBound.binds.set 31 none }).ctx.binds.toList ∧
    some (boundTo 0x1000 0x2000 0x1000) ∈
      (runs { allBound with binds := allBound.binds.set 0 (some (boundTo 0x1000 0x2000 0x1000)) }).ctx.binds.toList := by decide +kernel

/-! ### Trains and launches -/

def inTrains (l : List Train) : State := { at1 0xE000000001000 with atl := { State.reset.atl with trains := l } }
/-- Train record of n members in entry 3 at key 0x1000. -/
def recorded (n : Nat) (l : List Train) : State :=
  { inTrains l with mem := memWrite [] (cellsAt 0x1000 (bytesLE 8 (n + 3 * 2 ^ 16 + 2 ^ 31))) }
theorem witness_TrainsAndRecords : Memory.wf (recorded 127 []).mem ∧ (0x1000 % 64 = 0 ∧ keySpace (recorded 127 []) 0x1000 = .hbm 0) ∧
    (∀ c, ((recorded 127 []).cube c).hw.life ≠ .evacuating) ∧
    isOk (trainCheck (recorded 1 []) (.reg 1)) (fun t => t.key == 0x1000 && inHbm (recorded 1 []) t.key) ∧
    isOk (trainCheck (at1 0xE010100000000) (.reg 1)) (fun t => !inHbm (at1 0) t.key) ∧
    trainOf (inTrains [⟨3, 0x1000, [0]⟩]) 0 = some ⟨3, 0x1000, [0]⟩ ∧ trainOf (inTrains [⟨3, 0x2000, [0]⟩]) 0 = some ⟨3, 0x2000, [0]⟩ ∧
    trainOf (recorded 1 []) (recorded 1 []).ctx.sid = none ∧ recLive (inTrains []) 0x1000 = false ∧ recLive (recorded 1 []) 0x1000 = true ∧
    recCount (recorded 128 []) 0x1000 = 128 ∧ recCount (recorded 127 []) 0x1000 = 127 := by decide +kernel
theorem witness_TrainsAndRecords_quiet : Quiet (recorded 1 []) ∧ (recorded 1 []).poison.contains (0x1000 / 64) = false ∧
    ({ recorded 1 [] with poison := [0x40] } : State).poison.contains (0x1000 / 64) = true ∧
    isOk (trainCheck { recorded 1 [] with poison := [0x40] } (.reg 1)) (fun t => t.key == 0x1000) := by unfold Quiet; decide +kernel
theorem witness_TrainsAndRecords_full : ∀ e, e < 512 → ∃ r ∈ (inTrains ((List.range 512).map fun e => ⟨e, 0, []⟩)).atl.trains, r.entry = e :=
  fun e h => ⟨⟨e, 0, []⟩, List.mem_map.2 ⟨e, List.mem_range.2 h, rfl⟩, rfl⟩
theorem witness_TrainsAndRecords_free : ∃ e, e < 512 ∧ ∀ r ∈ (inTrains [⟨0, 0, []⟩]).atl.trains, r.entry ≠ e := ⟨511, by decide +kernel⟩
/-- A packet of a launch with a priority, a task count and a partition. -/
def packet (prio ntasks part : Nat) : BitVec 512 :=
  BitVec.ofNat 512 (1 + prio * 2 ^ 16 + ntasks * 2 ^ 32 + 0x3000 * 2 ^ 64 + 5 * 2 ^ 128 + part * 2 ^ 144 + 8 * 2 ^ 192)
/-- The scoreboard's slots below n are taken. -/
def taken (n : Nat) (s : State) : State := { s with atl := { s.atl with
  board := (List.range n).map fun k => pktLaunch (packet 0 4 0) (BitVec.ofNat 8 k) 0 k } }
theorem witness_LaunchPackets : pktMalformed (packet 1 0 0) = true ∧ pktMalformed (packet 1 4 0) = false ∧
    partClosed State.reset (BitVec.ofNat 3 (pktField (packet 1 4 7) 0x12 1)) = true ∧ pktMalformed (packet 1 4 7) = false ∧
    partClosed State.reset (BitVec.ofNat 3 (pktField (packet 1 4 0) 0x12 1)) = false := by decide +kernel
theorem witness_LaunchPackets_slot : Acceptable (taken 3 State.reset) (packet 1 4 0) 3 := by unfold Acceptable; decide +kernel
theorem witness_LaunchPackets_full : ∀ slot : BitVec 8, ∃ l ∈ (taken 256 State.reset).atl.board, l.slot = slot := fun slot =>
  ⟨pktLaunch (packet 0 4 0) (BitVec.ofNat 8 slot.toNat) 0 slot.toNat, List.mem_map.2 ⟨slot.toNat, List.mem_range.2 slot.isLt, rfl⟩,
    BitVec.eq_of_toNat_eq (by simp [pktLaunch])⟩
/-- A packet of priority 1 at key 0x1000 and a strand of priority 1 or 0 that names it, and its target in s2. -/
def launching (prio : Word) (b : Word) : State := { taken 3 (runs (withS [(1, 0xE000000001000), (2, b)]
    { rt with sys := { rt.sys with tinfo := prio <<< 32 } })) with mem := memWrite [] (cellsAt 0x1000 (bytesLE 64 (packet 1 4 0).toNat)) }
theorem witness_LaunchPackets_instruction : launchCheck (launching 1 4) (.reg 1) (.reg 2) = .ok none ∧
    isOk (launchCheck (launching 0 0) (.reg 1) (.reg 2)) (fun o => o.any fun t => t.key == 0x1000 &&
      decide ((launching 0 0).ctx.sys.tinfo.toNat / 2 ^ 32 % 4 < pktField (packetAt (launching 0 0) t) 2 1 % 4)) ∧
    isOk (launchCheck (launching 1 0) (.reg 1) (.reg 2)) (fun o => o.any fun t =>
      decide (pktField (packetAt (launching 1 0) t) 2 1 % 4 ≤ (launching 1 0).ctx.sys.tinfo.toNat / 2 ^ 32 % 4)) ∧
    isOk (launchCheck (peered (launching 1 0x8005)) (.reg 1) (.reg 2)) (fun o => o.any fun t => 
      decide (pktField (packetAt (peered (launching 1 0x8005)) t) 2 1 % 4 ≤ 1)) ∧
    (launching 1 0).poison.contains (0x1000 / 64) = false := by decide +kernel
theorem witness_LaunchPackets_quiet : Quiet (launching 1 0) ∧ Quiet (launching 1 4) ∧ Quiet (peered (launching 1 0x8005)) := by
  unfold Quiet; decide +kernel

/-! ### Commands, spools and palettes -/

theorem witness_EngineCommands : HasRoom (runs rt) .cq0 ∧ HasRoom (runs rt) .cq1 ∧ HasRoom (runs rt) .cubeq ∧ HasRoom (runs rt) .drainq ∧
    HasRoom (runs rt) .blkq := by unfold HasRoom; decide +kernel

theorem witness_SpoolOps : ((runs rt).cube (runs rt).me).cur ≠ .none ∧
    csplDefTrap (runs (withS [(1, 5), (2, 0x4000000000000000), (3, 0x0000000800000040)] rt)) 1 2 3 = none ∧
    (runs (withS [(1, 5)] rt)).ctx.s 1 = BitVec.ofNat 64 (5 : Fin 32).val ∧ csplDefTrap (at1 32) 1 2 3 ≠ none ∧
    csplResetTrap (at1 31) 1 = none := by decide +kernel
/-- A spool of 8 entries in entry 5, with P and C, and 3 and 9 in s2 and s3. -/
def spool5 (p c : BitVec 32) : Spool := ⟨0x4000000000000000, 0x0000000800000040, p, c, [], [], []⟩
def spooled (p c : BitVec 32) : State :=
  runs (withS [(1, 5), (2, 3), (3, 9)] { rt with spools := rt.spools.set 5 (spool5 p c) })
theorem witness_SpoolOps_advance : (spooled 3 0).ctx.spools.get 5 = spool5 3 0 ∧ (spooled 3 0).findSid 0 = some (spooled 3 0).ctx ∧
    (spooled 3 0).ctx.sid = 0 ∧ (spooled 3 0).items = [] ∧ (spooled 3 0).reads = [] ∧ (spool5 3 0).region ≠ 0 ∧ (spool5 3 0).cap ≤ 4096 ∧
    ((spooled 3 0).ctx.s 2).toNat ≤ (spool5 3 0).cap - ((spool5 3 0).p - (spool5 3 0).c).toNat ∧
    ((spooled 3 0).ctx.s 2).toNat ≤ ((spool5 3 0).p - (spool5 3 0).c).toNat ∧
    (spool5 3 0).cap - ((spool5 3 0).p - (spool5 3 0).c).toNat - (spool5 3 0).queueP.length < ((spooled 3 0).ctx.s 3).toNat ∧
    ((spool5 3 0).p - (spool5 3 0).c).toNat - (spool5 3 0).queueC.length < ((spooled 3 0).ctx.s 3).toNat ∧ Spool.reset.region = 0 := by
  decide +kernel
theorem witness_PalettesAndSync : cpalSetTrap (at2 0x9003 0x11) 1 2 = none ∧ cpalSetTrap (at2 0x3000 0x11) 1 2 ≠ none ∧
    cpalGetTrap (at2 0 0x1305) 2 = none ∧ bankIndex (at2 0 0x1305).ctx.part ((at2 0 0x1305).ctx.s 2) = [(1, 197)] ∧
    cpalGetTrap (at2 0 0x9003) 2 ≠ none ∧ crcpDefTrap (at1 15) 1 0 0 = none ∧ crcpDefTrap (at1 16) 1 0 0 ≠ none ∧
    (at1 15).ctx.s 1 = BitVec.ofNat 64 (15 : Fin 16).val ∧ (at1 31).ctx.s 1 = BitVec.ofNat 64 ((15 : Fin 16).val + if true then 16 else 0) ∧
    32 ≤ ((at1 32).ctx.s 1).toNat ∧ ((at1 0xFF05).ctx.s 1).toNat % 256 ≠ 0 ∧ ((at1 0).cube (at1 0).me).joins.length < 8 := by decide +kernel

/-! ### Vectors -/

/-- A runtime context whose m1 has the even bytes active and whose m2 has none. -/
def masked : Ctx := withS [(1, 0xFF00000000000), (2, 0xE000000001000), (3, 8)] ((rt.setM 1 (BitVec.ofNat 256 (packLE (List.replicate 32 0x55)))).setM 2 0)
theorem witness_vectors : (∃ e, e < 256 / 1 ∧ active ((runs masked).ctx.m 1) 1 e = true) ∧ (∃ e, e < 256 / 4 ∧ active ((runs masked).ctx.m 0) 4 e = true) ∧
    ¬ ∃ e, e < 256 / 2 ∧ active ((runs masked).ctx.m 2) 2 e = true := by decide +kernel
theorem witness_VectorConvert : SomeActive (runs masked) 0 4 ∧ ¬ SomeActive (runs masked) 2 4 := by unfold SomeActive; decide +kernel
def near (e : Nat) : Target := directTarget (windowBase 0 + e) false 0xFFF
def far (e : Nat) : Target := directTarget (0x1000 + e) false 0xFFF
theorem witness_VectorLoad : vldCheck (runs masked) 1 (.reg 1) .contig = none ∧ vldCheck (runs masked) 1 (.reg 2) .contig = none ∧
    vldCheck (runs masked) 0 (.reg 0) .contig ≠ none ∧ elemsOf (runs masked) 2 .contig = [] ∧ elemsOf (runs masked) 1 .contig ≠ [] ∧
    (∀ e ∈ elemsOf (runs masked) 1 .contig, isNear (runs masked) (near e).key = true) ∧
    ∃ e ∈ elemsOf (runs masked) 1 .contig, isNear (runs masked) (far e).key = false := by decide +kernel
theorem witness_VectorLoad_near : Reaches (runs masked) 1 (.reg 1) .contig near ∧ Quiet (runs masked) ∧
    ∀ e ∈ elemsOf (runs masked) 1 .contig, Clean (runs masked) (near e).key 1 := by unfold Reaches Quiet Clean; decide +kernel
theorem witness_VectorLoad_far : Reaches (runs masked) 1 (.reg 2) .contig far := by unfold Reaches; decide +kernel
theorem witness_VectorStore : vstCheck (runs masked) 1 (.reg 2) .contig 7 = none ∧ vstCheck (runs masked) 0 (.reg 0) .contig 0 ≠ none ∧
    ∀ e ∈ elemsOf (runs masked) 1 .contig, homeOf (far e).key ≠ 8 + (runs masked).me.val := by decide +kernel

/-! ### Memory -/

theorem witness_StoreToOwnScratch : isOk (stCheck (at1 0xFF00000000000) (.reg 1) .d 7 0) (fun t => homeOf t.key == 8 && !t.migrate &&
      (peerOf t.key).isNone && t.key == windowBase 0) ∧ (at1 0).items = [] ∧ ((at1 0).cube (at1 0).me).cmds = [] ∧ (at1 0).bundle.prior = [] ∧ (∀ c, ((at1 0).cube c).edge = []) ∧ Memory.wf (at1 0).mem := by
  decide +kernel
theorem witness_StoreToOwnScratch_plain : Plain (at1 0xFF00000000000) ((List.range 8).map (windowBase 0 + ·)) := by
  unfold Plain; decide +kernel
/-- An item of the runtime context of cube 0. -/
def flying (op : ItemOp) (st : ItemStatus) : Item :=
  { id := 7, pos := 7, sid := 0, cube := 0, line := 0, seq := 0, home := homeOf op.addr, glob := true, ordered := false, op := op, va := 0x40
    spans := [], acc := 3, after := [], prior := .none, scope := .pkg, rel := false, mode := .runtime, tag := 0xFFF, status := st, dest := none
    old := 0, cmd := none, mig := [], tags := [] }
def withItem (m : Item) : State := { runs rt with items := [m], nextId := 8, mem := memWrite [] (cellsAt 0x1000 (bytesLE 8 0x80000000000000FF)) }
def storeOp : ItemOp := .store (cellsAt 0x1004 [1, 2, 3, 4])
/-- A fence of a lower slot of the bundle holds loads behind a store. -/
def fencing : State := { (runs masked).modBundle (fun b => { b with prior := [(.full, ⟨[(.pkg, 9)], [], []⟩)] }) with
  items := [{ flying storeOp .transit with id := 9 }] }
theorem witness_VectorLoad_fence : ((runs masked).fencePrior true).past (runs masked) (runs masked).me = true ∧
    (fencing.fencePrior true).past fencing fencing.me = false ∧ vldCheck fencing 1 (.reg 1) .contig = none ∧ elemsOf fencing 1 .contig ≠ [] ∧
    ∀ e ∈ elemsOf fencing 1 .contig, isNear fencing (near e).key = true := by decide +kernel
theorem witness_ItemsAtHome : Performable (withItem (flying storeOp .transit)) (flying storeOp .transit) .transit ∧
    Performable (withItem (flying storeOp .held)) (flying storeOp .held) .held ∧
    Performable (withItem (flying (.amo .cas true 0x1000 0xFF 5) .transit)) (flying (.amo .cas true 0x1000 0xFF 5) .transit) .transit ∧
    Performable (withItem (flying (.cadd 0x1000 5) .transit)) (flying (.cadd 0x1000 5) .transit) .transit ∧
    Performable (withItem (flying (.cmax 0x1000 5) .transit)) (flying (.cmax 0x1000 5) .transit) .transit := by
  refine ⟨?_, ?_, ?_, ?_, ?_⟩ <;> (unfold Performable Plain Quiet; decide +kernel)
/-- Two stores on line 1; the second one waits for the first at their home. -/
def onLine (n k : Nat) : Item := { flying storeOp .transit with id := n, pos := n, line := 1, seq := k }
def twoOnLine : State := { withItem (onLine 7 1) with items := [onLine 6 0, onLine 7 1] }
theorem witness_ItemsAtHome_held : mayArrive twoOnLine 0 0 7 (onLine 7 1).op.addr = true ∧ canPerform twoOnLine (onLine 7 1) = false ∧ twoOnLine.item 7 = some (onLine 7 1) ∧
    (onLine 7 1).status = .transit := by decide +kernel
def messages (l : List DirMsg) : State := { runs rt with msgs := l }
/-- An atomic operation that waits for its answer, a release behind writes of which one was lost. -/
def acking : Item := { flying (.amo .add true 0x1000 5 0) .performed with dest := some 4 }
def released (after before : List Nat) : Item :=
  { flying (.cadd 0x1000 5) .waiting with after := after, prior := ⟨before.map fun n => (.pkg, n), [], []⟩, rel := true }
def behindLost : State :=
  { withItem (released [6] []) with items := [{ flying storeOp .failed with id := 6, glob := false }, released [6] []] }
theorem witness_MemoryMessages : firstOfLine (messages [⟨1, 0x40, some [(0x1000, 5)], 7⟩]) 0 ⟨1, 0x40, some [(0x1000, 5)], 7⟩ = true ∧
    ownUpdate (messages [⟨1, 0x40, some [(0x1000, 5)], 7⟩]) ⟨1, 0x40, some [(0x1000, 5)], 7⟩ = false ∧
    (messages [⟨1, 0x40, none, 7⟩]).msgs[0]? = some ⟨1, 0x40, none, 7⟩ ∧
    (withItem acking).item 7 = some acking ∧ acking.status = .performed ∧ silent (withItem acking) acking.op.addr = false ∧
    (withItem acking).msgs = [] ∧
    (withItem (flying storeOp .waiting)).item 7 = some (flying storeOp .waiting) ∧
    (flying storeOp .waiting).mayLeave (withItem (flying storeOp .waiting)) = true ∧
    (∀ p, peerOf (flying storeOp .waiting).op.addr = some p → peerDead (withItem (flying storeOp .waiting)) p = false) ∧
    (∃ j ∈ behindLost.items, j.status = .failed ∧ (j.id ∈ (released [6] []).after ∨ ∃ w ∈ (released [6] []).prior.writes, w.2 = j.id)) ∧
    (∃ j ∈ behindLost.items, j.status = .failed ∧ (j.id ∈ (released [] [6]).after ∨ ∃ w ∈ (released [] [6]).prior.writes, w.2 = j.id)) ∧
    behindLost.item 7 = some (released [6] []) ∧
    homeOf storeOp.addr ≠ 8 + (flying storeOp .transit).cube.val ∧ peerOf storeOp.addr = none ∧
    ((withItem (flying storeOp .transit)).cube 0).core.sid = 0 ∧ ((withItem (flying storeOp .transit)).cube 0).core.pending = [] := by decide +kernel
/-- A read of a counter. -/
def asking (d : ReadDest) (st : ReadStatus) (v : VWord) : ReadReq :=
  ⟨7, 0, 0, 0, 0x40, (List.range 8).map (fun k => (0x1000 + k, k)), [], d, none, none, st, v, 0, false, [], .none, ([], [])⟩
def withRead (r : ReadReq) (x : Ctx) : State := { runs x with reads := [r], nextId := 8, mem := memWrite [] (cellsAt 0x1000 (bytesLE 8 0xFF)) }
theorem witness_MemoryMessages_read : (withRead (asking (.scalar 4 false 8 false) .sent 0) rt).read 7 = some (asking (.scalar 4 false 8 false) .sent 0) ∧
    readBlocked (withRead (asking (.scalar 4 false 8 false) .sent 0) rt) (asking (.scalar 4 false 8 false) .sent 0) = false ∧
    (asking (.scalar 4 false 8 false) .sent 0).prior = .none ∧ (asking (.scalar 4 false 8 false) .sent 0).late = ([], []) ∧
    ∀ x ∈ (asking (.scalar 4 false 8 false) .sent 0).cells, (withRead (asking .wait .sent 0) rt).poison.contains (x.1 / 64) = false ∧
      (keySpace (withRead (asking .wait .sent 0) rt) (x.1 / 8 * 8)).isWindow = false := by decide +kernel
def info (target : Word) (park : Bool) : WaitInfo := ⟨0x1000, 0x40, target, park, false, false, []⟩
def waiting (target : Word) (park : Bool) (v : VWord) : State := withRead (asking .wait .served v) { rt with wait := .reading 7 (info target park) }
def waitingStrand (target : Word) (v : VWord) : State :=
  { strand { task with sid := 0, wait := .reading 7 (info target true) } with reads := [asking .wait .served v], nextId := 8 }
theorem witness_CounterWaits : Awaits (waiting 5 false 5) 0 7 (info 5 false) (asking .wait .served 5) ∧
    Awaits (waitingStrand 6 5) 0 7 (info 6 true) (asking .wait .served 5) ∧ Awaits (waiting 6 false 5) 0 7 (info 6 false) (asking .wait .served 5) := by
  unfold Awaits; decide +kernel
theorem witness_CounterWaits_values : (info 5 false).target.toNat ≤ (asking .wait .served 5).value.toNat % 2 ^ 64 ∧
    (asking .wait .served 5).value.toNat % 2 ^ 64 < (info 6 true).target.toNat ∧ ((waitingStrand 6 5).cube 0).monitors.length < 64 ∧
    ((waitingStrand 6 5).cube 0).cur = .shelf 0 ∧ ((waitingStrand 6 5).cube 0).ready = [] ∧
    ((runs { rt with wait := .spinning (info 6 false) }).cube 0).running = true := by decide +kernel
/-- A strand is parked on shelf 3 with a monitor. -/
def parked (poll : Bool) : State :=
  let s := onCube fun k => { k with shelves := k.shelves.set 3 (some { task with status := .parked, wait := .parked }), monitors := [⟨3, 0x1000, 6, 0x40, poll⟩] }
  { s with notes := [(0, 0x1000, 6)], mem := memWrite [] (cellsAt 0x1000 (bytesLE 8 6)) }
theorem witness_CounterWaits_parked : ((parked false).cube 0).monitors = [⟨3, 0x1000, 6, 0x40, false⟩] ∧ ((parked false).cube 0).cur ≠ .shelf 3 ∧
    ((parked false).cube 0).shelves.get 3 = some { task with status := .parked, wait := .parked } ∧
    readAhead (parked false) 0 0x1000 = false ∧ (parked false).notes = [(0, 0x1000, 6)] ∧
    packLE ((List.range 8).map fun k => placeByte (parked true) (0x1000 + k)) = 6 := by decide +kernel
theorem witness_CounterWaits_quiet : Quiet (parked true) ∧ pathCarries (parked true) 0 task.sid 0x1000 = true := by unfold Quiet; decide +kernel
def missing (l : List Miss) : State := { runs rt with misses := l }
/-- One cube's walk is under way, with commands that wait for it or none, and another cube asks for one. -/
def walkingFor (ws : List (Requester × Nat)) : Miss := ⟨.cube 1, 0, 5, true, ws, none⟩
def queuedMiss : Miss := ⟨.cube 0, 0, 5, false, [], none⟩
def twoMisses : State := missing [walkingFor [], queuedMiss]
theorem witness_Translations : twoMisses.misses[1]? = some queuedMiss ∧ queuedMiss.walking = false ∧ queuedMiss.res = none ∧
    walksOf twoMisses queuedMiss.req < 8 ∧ (twoMisses.misses.filter fun n => n.walking).length < 64 ∧
    (∀ j n, j < 1 → twoMisses.misses[j]? = some n → n.req ≠ queuedMiss.req ∨ n.walking = true ∨ n.res.isSome = true) ∧
    (∀ n ∈ twoMisses.misses, n.startable twoMisses = true → walkRank twoMisses queuedMiss.req ≤ walkRank twoMisses n.req) ∧
    (missing [walkingFor []]).misses[0]? = some (walkingFor []) ∧ (missing [walkingFor [(.cube 0, 7)]]).misses[0]? = some (walkingFor [(.cube 0, 7)]) ∧
    ({ runs rt with tlbis := [⟨7, 0, 0, 0x10000, 1⟩] } : State).tlbis = [⟨7, 0, 0, 0x10000, 1⟩] ∧
    ∀ c, (({ runs rt with tlbis := [⟨7, 0, 0, 0x10000, 1⟩] } : State).cube c).cmds = [] := by
  refine ⟨by decide +kernel, rfl, rfl, by decide +kernel, by decide +kernel, ?_, by decide +kernel, by decide +kernel,
    by decide +kernel, by decide +kernel, by decide +kernel⟩
  intro j n h e
  obtain rfl : j = 0 := by omega
  cases e; exact .inr (.inl rfl)
/-- Of the cubes, one missed first, one waits with it, and one does neither. -/
theorem witness_Translations_cubes : (∃ w ∈ (walkingFor [(.cube 0, 7)]).waiters, w.1 = .cube 0) ∧ (walkingFor []).req = .cube 1 ∧
    (walkingFor [(.cube 0, 7)]).req ≠ .cube 2 ∧ ∀ w ∈ (walkingFor [(.cube 0, 7)]).waiters, w.1 ≠ .cube 2 := by
  refine ⟨⟨_, List.mem_singleton.2 rfl, rfl⟩, rfl, by decide, by decide⟩
def isLeaf (x : Xlat) : Bool := match x with | .leaf _ _ => true | .fault _ => false
/-- A table that the walker holds for the first 2 MiB, with a leaf at entry 5. -/
def leafed (s : State) : State := { s with
  walkCache := [⟨0, 1, 0, 0x20000⟩], mem := memWrite [] (cellsAt 0x20028 (bytesLE 8 (pte 4 0x3FF 0).toNat)) }
theorem witness_Translations_quiet : Quiet (missing [walkingFor []]) ∧ (missing [walkingFor []]).misses ≠ [] ∧
    isLeaf (walk (leafed (missing [walkingFor []])) 0 (BitVec.ofNat 52 (5 * 4096))) = true ∧
    isLeaf (walk (missing [walkingFor []]) 0 (BitVec.ofNat 52 (5 * 4096))) = false ∧
    ∀ a ∈ (walkPath (leafed (missing [walkingFor []])) 0 (BitVec.ofNat 52 (5 * 4096))).1,
      linkCarries (leafed (missing [walkingFor []])) 8 (dieOf (leafed (missing [walkingFor []])) a) = true := by
  unfold Quiet; decide +kernel

/-! ### The sequencer -/

def due (tv : Bool) (cls : Nat) : Result := { emptyResult with rem := 0, kind := .scalar, dest := 4, latch := 1, val := 7, tv := tv, cls := cls }
def landing (tv : Bool) (cls : Nat) : State := runs { rt with results := [{ due tv cls with rem := 2 }, due tv cls, { due tv cls with rem := 1 }] }
theorem witness_Acts : Acts (landing true 0) 0 ∧ Acts (strand task) 0 := by unfold Acts; decide +kernel
theorem witness_ResultEvents : ((landing true 0).modBundle fun b => { b with held := true }).bundle.held = true ∧
    ((landing true 0).cube 0).core.results = [{ due true 0 with rem := 2 }] ++ due true 0 :: [{ due true 0 with rem := 1 }] ∧
    (due true 0).rem = 0 ∧ (∀ q ∈ [{ due true 0 with rem := 2 }], q.rem ≠ 0) ∧ (due true 0).tv = true ∧
    [{ due true 0 with rem := 1 }].filter (twinOf (due true 0)) = [] := by decide +kernel
/-- A result that a residue check covers, and the two predicates of a compare. -/
def checked : State := runs { rt with results := [{ due false 1 with chk := true }] }
def compared2 : State := runs { rt with results := [{ due true 0 with kind := .pred, dest := 1, pos := 9 }, { due true 0 with kind := .pred, dest := 2, pos := 9 }] }
theorem witness_ResultEvents_checked : Acts checked 0 ∧ Acts compared2 0 ∧
    (checked.cube 0).core.results = [] ++ { due false 1 with chk := true } :: [] ∧ (due false 1).kind = .scalar ∧ (due false 1).tv = false ∧
    (compared2.cube 0).core.results = [] ++ { due true 0 with kind := .pred, dest := 1, pos := 9 } ::
      [{ due true 0 with kind := .pred, dest := 2, pos := 9 }] ∧
    [{ due true 0 with kind := .pred, dest := 2, pos := 9 }].filter (twinOf { due true 0 with kind := .pred, dest := 1, pos := 9 }) ≠ [] := by
  unfold Acts; decide +kernel
theorem witness_ResultEvents_value : awaitsValue (landing true 0) ((landing true 0).cube 0).core = false ∧
    awaitsValue checked (checked.cube 0).core = false ∧ awaitsValue compared2 (compared2.cube 0).core = false := by decide +kernel
/-- An interlocked result of each kind has been served, its data good or spoiled. -/
def served (d : ReadDest) (bad : Bool) : ReadReq := { asking d .served 0x8001 with bad := bad }
theorem witness_ResultEvents_kinds : ∀ d ∈ ([.scalar 4 true 8 false, .vector 3 false, .exposed 9, .division 4 false true, .division 0 true false] : List ReadDest),
    ∀ b ∈ [false, true], (withRead (served d b) rt).read 7 = some (served d b) ∧ (served d b).status = .served ∧
      ((withRead (served d b) rt).cube 0).core.sid = (served d b).sid ∧ (served d b).bad = b := by decide +kernel
theorem witness_ResultEvents_read : (withRead (asking (.scalar 4 false 2 true) .served 0x8001) rt).read 7 = some (asking (.scalar 4 false 2 true) .served 0x8001) ∧
    ((withRead (asking (.scalar 4 false 2 true) .served 0x8001) rt).cube 0).core.sid = (asking .wait .served 0).sid := by decide +kernel
def fetching : Ctx := { rt with pc := 0xE000000001000, noise := { rt.noise with queue := List.replicate 63 1 } }
theorem witness_FetchAndNoise : fetchAt (runs fetching) 0 = .miss (directTarget 0x1000 false 0xFFF) ∧
    (runs fetching).poison.contains (0x1000 / 64) = false ∧ ({ runs fetching with poison := [0x40] } : State).poison.contains (0x1000 / 64) = true ∧
    (directTarget 0x1000 false 0xFFF).migrate = false ∧ ((runs fetching).cube 0).core.noise.queue.length < 64 ∧ ((runs fetching).cube 0).core.wait ≠ .parked ∧
    ((runs fetching).cube 0).core.noise.ent = false := by decide +kernel
theorem witness_FetchAndNoise_quiet : Quiet (runs fetching) := by unfold Quiet; decide +kernel
def strandOf (n : Nat) (prio : BitVec 2) (st : Status) : Ctx := { task with sid := n, status := st, task := { task.task with prio := prio } }
/-- Strand 20 of priority 1 runs on shelf 0 and one of a priority is ready on shelf 1. -/
def contending (prio : BitVec 2) (used : Nat) : State := onCube fun k => { k with
  cur := .shelf 0, core := strandOf 20 1 .running, quantumUsed := used, ready := [1]
  shelves := (k.shelves.set 0 (some (strandOf 20 1 .running))).set 1 (some (strandOf 21 prio .ready)) }
/-- No context runs and shelf 1 is ready. -/
def idle : State := onCube fun k => { k with ready := [1], shelves := k.shelves.set 1 (some (strandOf 21 1 .ready)) }
theorem witness_Switches : (idle.cube 0).stopped = false ∧ (idle.cube 0).debugHalted = false ∧ (idle.cube 0).hw.life = .live ∧
    (idle.cube 0).con.testing = none ∧ (idle.cube 0).patches = [] ∧ (idle.cube 0).cur = .none ∧ nextReady (idle.cube 0) = some 1 ∧
    (idle.cube 0).shelves.get 1 = some (strandOf 21 1 .ready) := by decide +kernel
theorem witness_Switches_preemption : ((contending 2 0).cube 0).cur = .shelf 0 ∧ ((contending 2 0).cube 0).core.wait ≠ .parked ∧
    nextReady ((contending 2 0).cube 0) = some 1 ∧ ((contending 2 0).cube 0).shelves.get 1 = some (strandOf 21 2 .ready) ∧
    ((contending 2 0).cube 0).core.task.prio.toNat < (strandOf 21 2 .ready).task.prio.toNat ∧ ((contending 2 0).cube 0).stopped = false ∧
    ((contending 2 0).cube 0).debugHalted = false ∧ ((contending 2 0).cube 0).hw.life = .live ∧
    ((contending 2 0).cube 0).con.testing = none ∧ ((contending 2 0).cube 0).patches = [] := by decide +kernel
theorem witness_Switches_preempted : preempted ((contending 2 1000000).cube 0) = true ∧ preempted ((contending 1 1000000).cube 0) = false ∧
    preempted ((contending 0 1000000).cube 0) = false := by decide +kernel
theorem witness_Switches_atRest : AtRest (contending 2 0) 20 ∧ AtRest (runs rt) 0 := by unfold AtRest; decide +kernel
theorem witness_Switches_quantum : ((contending 1 1000000).cube 0).cregs.quantum ≠ 0 ∧
    ((contending 1 1000000).cube 0).cregs.quantum.toNat * Config.cyclesPerUs ≤ ((contending 1 1000000).cube 0).quantumUsed ∧
    (((contending 1 1000000).cube 0).ready.find? fun j => shelfPrio ((contending 1 1000000).cube 0) j == 1) = some 1 ∧
    ∀ j ∈ ((contending 0 1000000).cube 0).ready, shelfPrio ((contending 0 1000000).cube 0) j ≠ 1 := by decide +kernel
theorem witness_TrapEntry : ((strand { task with pending := [trapOf 1] }).cube 0).core.pending = [trapOf 1] ∧
    ((runs rt).cube 0).cregs.wdog.toNat * 1024 ≤ ((onCube fun k => { k with stall := 16384 * 1024 }).cube 0).stall ∧
    ((runs rt).cube 0).cregs.wdog ≠ 0 ∧ ((strand task).cube 0).core.wait = .none ∧ ((strand task).cube 0).cur = .shelf 0 ∧
    ((runs rt).cube 0).cur = .runtime ∧ ((runs rt).cube 0).ready = [] ∧ ((onCube fun k => { k with cur := .secure }).cube 0).cur = .secure ∧
    (trapOf 1).cause ≠ 0x0A := by decide +kernel
theorem witness_TrapEntry_atRest : AtRest (strand task) 20 ∧ AtRest (runs rt) ((runs rt).cube 0).sec.sid := by unfold AtRest; decide +kernel
/-- A runtime context is to leave for a trap, with a load out or without one. -/
def toTrap (s : State) : State := s.modCube 0 fun k => { k with leave := .trap (trapOf 1) }
theorem witness_TrapEntry_leave : interlocksOut loading (loading.cube 0).core.sid = true ∧ interlocksOut (runs rt) ((runs rt).cube 0).core.sid = false ∧
    (loading.cube 0).cur ≠ .none ∧ ((toTrap loading).cube 0).leave = .trap (trapOf 1) ∧ ((toTrap (runs rt)).cube 0).leave = .trap (trapOf 1) ∧
    interlocksOut (toTrap loading) ((toTrap loading).cube 0).core.sid = true ∧ interlocksOut (toTrap (runs rt)) ((toTrap (runs rt)).cube 0).core.sid = false ∧
    ((toTrap (runs rt)).cube 0).core.pending = [] ∧ ((runs rt).cube 0).leave = .none := by decide +kernel
theorem witness_YieldRule : ((contending 1 0).cube (contending 1 0).me).cur = .shelf 0 ∧ (contending 1 0).ctx.guard yes = true ∧
    ((contending 1 0).cube (contending 1 0).me).patches = [] ∧ (contending 1 0).ctx.sid = 20 ∧ (contending 1 0).ctx.wait = .none ∧
    ((contending 1 0).cube (contending 1 0).me).hw.life = .live ∧
    (∀ j ∈ ((endBundle (contending 0 0) 0).cube 0).ready, shelfPrio ((endBundle (contending 0 0) 0).cube 0) j < (contending 0 0).ctx.task.prio.toNat) ∧
    nextReady ((endBundle (contending 1 0) 0).cube 0) = some 1 ∧
    ((endBundle (contending 1 0) 0).cube 0).shelves.get 1 = some (strandOf 21 1 .ready) := by decide +kernel
theorem witness_YieldRule_closes : Closes (contending 1 0) ∧ AtRest (contending 1 0) 20 := by unfold Closes AtRest; decide +kernel
theorem witness_TrapAndBreak : (runs rt).ctx.guard ⟨true, 0⟩ = false ∧ ((runs rt).cube 0).cregs.brkHalt = false ∧ (runs rt).ctx.pending = [] ∧
    ((takeTrap (strand task) 0 (trapOf 0x10)).cube 0).cur = .runtime ∧
    ((onCube fun k => { k with cregs := { k.cregs with brkHalt := true } }).cube 0).cregs.brkHalt = true ∧
    ((endBundle (withCtl (strand task) .debugHalt) 0).cube 0).cur = .shelf 0 ∧
    ((endBundle (withCtl (strand task) .debugHalt) 0).cube 0).shelves.get 0 ≠ none ∧
    interlocksOut (endBundle (strand task) 0) (strand task).ctx.sid = false ∧
    interlocksOut (endBundle loading loading.me) loading.ctx.sid = true := by decide +kernel

/-! ### Registers -/

theorem witness_RegisterEvents : ((onCube fun k => { k with shelves := k.shelves.set 3 (some { task with status := .trapped }) }).cube 0).shelves.get 3 =
      some { task with status := .trapped } ∧ (0x0513 : Word).toNat % 32 = 16 + (3 : ShelfId).val ∧
    ((strand task).cube 0).shelves.get 3 = none ∧ ((strand task).cube 0).cur ≠ .shelf 3 ∧ ((strand task).cube 0).leave = .none ∧ mayWrite .runtime 0x700 = false := by decide +kernel
theorem witness_RegisterEvents_part : Elsewhere State.reset 1 0x80 ∧ ¬ Elsewhere State.reset 0 0x80 := by unfold Elsewhere; decide +kernel
theorem witness_RegisterEvents_line : InCube 0 5 ∧ InCube 1 (windowBase 1 / 64) ∧ ¬ InCube 0 (windowBase 1 / 64) := by unfold InCube; decide +kernel

/-! ### The atelier and the schedulers -/

/-- Address space 0 maps 0x10000 to the 4 KiB at key 0x4000, of this package, as cube 0's TLB and a walk of the atelier's have it. -/
def homely (s : State) : State :=
  { mapped (pte 4 0x3FF 0) s with misses := [⟨.bridge 0, 0, 0x10, false, [(.bridge 0, 0)], some (.leaf (pte 4 0x3FF 0) 1)⟩] }
/-- An image header with an entry and a text of n bytes. -/
def headerBytes (magic : Nat) : List Byte :=
  bytesLE 16 (magic + 2 ^ 32 + 128 * 2 ^ 48 + 1 * 2 ^ 64) ++ bytesLE 16 (16 + 64 * 2 ^ 64) ++ List.replicate 96 0
/-- A launch of n tasks on slot 5 whose image is at 0x10000 and whose DONE counter at 0x10800. -/
def launch5 (n : Nat) : Launch :=
  { pktLaunch (packet 1 n 0) 5 9 3 with image := 0x10000, asn := 0, done := 0x10800, faultRec := 0, report := 0 }
def header0 : Header := parseHeader (headerBytes 0x31494B49)
def launched (n : Nat) : Launch := { launch5 n with header := some header0 }
def boardOf (l : List Launch) (s : State) : State := { s with atl := { s.atl with board := l } }
def imaged (magic : Nat) : State := { homely (boardOf [launch5 2] State.reset) with mem := memWrite [] (cellsAt 0x4000 (headerBytes magic)) }
/-- Package 5 may launch. -/
def mayLaunch5 : State :=
  let s := peered State.reset
  { s with mem := memWrite s.mem (cellsAt 0x80A0 (bytesLE 8 0xC180000000000000)), secu := { s.secu with stage := 4 } }
theorem witness_LaunchEvents : ¬ MayLaunch State.reset 5 ∧ MayLaunch mayLaunch5 5 ∧ mayLaunch5.secu.stage = 4 ∧
    Acceptable mayLaunch5 (pktWithAsn (packet 1 4 0) ((peerEntry mayLaunch5 5 0).extractLsb' 32 12)) 0 := by
  refine ⟨?_, ?_, ?_, ?_⟩ <;> (try unfold MayLaunch) <;> (try unfold Acceptable) <;> decide +kernel
def touched (n : Nat) : State := svcTouch (imaged n) 0 .read 0x10000 128
theorem witness_LaunchEvents_header : (imaged 0x31494B49).launch 5 = some (launch5 2) ∧ (launch5 2).header = none ∧
    svcRead (touched 0x31494B49) 0 0x10000 128 = some (headerBytes 0x31494B49) ∧ headerOk (headerBytes 0x31494B49) = true ∧
    svcRead (touched 0) 0 0x10000 128 = some (headerBytes 0) ∧ headerOk (headerBytes 0) = false ∧
    (launch5 2).retired = 0 ∧ (launch5 2).refused = 0 ∧ (launch5 2).ntasks ≠ 0 ∧ (launch5 2).untaken = [(0, (launch5 2).ntasks)] := by decide +kernel
theorem atHand_nil (s : State) (asn : BitVec 12) : AtHand s asn [] := fun _ h => by cases h
theorem atHand_one {s : State} {asn : BitVec 12} {va : VA} (h : mustWalk s (svcAgent s asn) va = false ∧ svcCarried s asn va = true) :
    AtHand s asn [va] :=
  fun _ hm => by rw [List.mem_singleton.mp hm]; exact h
theorem witness_LaunchEvents_atHand : AtHand (imaged 0x31494B49) 0 [0x10000] ∧ AtHand (imaged 0) 0 [0x10000] ∧
    AtHand (imaged 0) 0 (launch5 2).answers := by
  have h : (launch5 2).answers = [0x10800] := by decide +kernel
  exact ⟨atHand_one (by decide +kernel), atHand_one (by decide +kernel), h ▸ atHand_one (by decide +kernel)⟩
theorem witness_LaunchEvents_quiet : Quiet (imaged 0x31494B49) ∧ Quiet (imaged 0) ∧ Quiet mayLaunch5 := by unfold Quiet; decide +kernel
theorem witness_LaunchEvents_batch : (boardOf [launched 100] State.reset).launch 5 = some (launched 100) ∧
    (launched 100).header = some header0 ∧ (launched 100).untaken = [(0, 100)] ∧
    (∀ m ∈ (boardOf [launched 100] State.reset).atl.board, before m (launched 100) = false) ∧
    (allocate header0 []).isSome = true ∧
    bestCube (boardOf [launched 100] State.reset) (cubesFor (boardOf [launched 100] State.reset) (launched 100) header0) = some 0 ∧
    State.reset.atl.onBridge1 = false := by decide +kernel
/-- The launch with a queued task on cube 0; then its starting strand on shelf 0, with an image of 64 bytes of text. -/
def queued : State := { (boardOf [launched 2] State.reset).modCube 0 fun k => { k with admission := [⟨5, 0, 1⟩] } with nextId := 20 }
def fullImage : State := { homely (boardOf [launched 2] State.reset) with
  mem := memWrite [] (cellsAt 0x4000 (headerBytes 0x31494B49)) }
def startOf : Ctx := startingCtx 20 (launched 2) header0 ⟨5, 0, 1⟩ default
def starting : State := fullImage.modCube 0 fun k => { k with shelves := k.shelves.set 0 (some startOf) }
theorem witness_TaskEvents : queued.launch 5 = some (launched 2) ∧ (launched 2).header = some header0 ∧
    (queued.cube 0).admission = [⟨5, 0, 1⟩] ∧ mayRunOn queued (launched 2).part header0.opmask 0 = true ∧ orderOk (launched 2) 0 = true ∧
    queued.atl.evicted = [] ∧ (queued.cube 0).shelves.get 0 = none ∧ (∀ j : ShelfId, j < 0 → (queued.cube 0).shelves.get j ≠ none) ∧
    roomFor queued 0 ⟨5, 0, 1⟩ = some default := by
  refine ⟨?_, ?_, ?_, ?_, ?_, ?_, ?_, ?_, ?_⟩ <;> decide +kernel
theorem image_ranges : imageRanges (launched 2) header0 startOf = [(0x10000, 0), (0x10000, 0), (0x100C0, 0), (0x100C0, 0)] := by
  decide +kernel
theorem witness_TaskEvents_start : starting.launch 5 = some (launched 2) ∧ (starting.cube 0).shelves.get 0 = some startOf ∧
    (starting.cube 0).cur ≠ .shelf 0 ∧ startOf.status = .starting ∧ startOf.task.slot = 5 ∧ (launched 2).reports = false ∧
    imagePalettes starting (launched 2) header0 startOf.part = some [] ∧ imageSpools starting (launched 2) header0 startOf.part = some [] ∧
    (loadStores starting 0 (launched 2) header0 startOf).isSome = true := by
  refine ⟨?_, ?_, ?_, ?_, ?_, ?_, ?_, ?_, ?_⟩ <;> decide +kernel
theorem witness_TaskEvents_read : imageRead starting (launched 2) header0 startOf = starting := by
  rw [imageRead, image_ranges]; simp only [List.foldl_cons, List.foldl_nil, svcTouch, granules, if_true]
theorem witness_TaskEvents_quiet : Quiet starting := by unfold Quiet; decide +kernel
theorem witness_TaskEvents_atHand :
    AtHand starting 0 ((imageRanges (launched 2) header0 startOf).flatMap fun r => granules r.1 r.2) := by
  rw [image_ranges]; exact atHand_nil _ _
/-- A strand of the launch stands on shelf 1 of cube 0, off the core, and the save pool has 64 units from 2^30 on. -/
def resting (st : Status) (z : Option (BitVec 8)) (prio : BitVec 2) : Ctx :=
  { task with status := st, part := default, task := { task.task with slot := 5, prio := prio, ending := z } }
def shelved (x : Ctx) : State :=
  let s := (homely (boardOf [launched 2] State.reset)).modCube 0 fun k => { k with shelves := k.shelves.set 1 (some x) }
  { s with atl := { s.atl with saveBase := 0x4000, saveSize := 64 } }
/-- Beside it, a queued task of priority 2 that needs all of scratch, which the strand has in part. -/
def crowded : State :=
  let x := { resting .ready none 1 with part := { (default : Partition) with scrBanks := 1, spadBytes := 0x10_0000 } }
  let l := { launched 2 with slot := 6, prio := 2, header := some { header0 with spad := 0x200_0000 }, untaken := [] }
  let s := (shelved x).modCube 0 fun k => { k with admission := [⟨6, 0, 2⟩] }
  boardOf [launched 2, l] s
theorem witness_StrandEvents : OnShelf crowded 0 1 { resting .ready none 1 with part := { (default : Partition) with scrBanks := 1, spadBytes := 0x10_0000 } } .ready ∧
    nextVictim crowded 0 = some 1 ∧ (resting .ready none 1).evictable = true ∧ (poolFit crowded { (default : Partition) with scrBanks := 1, spadBytes := 0x10_0000 }).isSome = true ∧
    (∀ t ∈ (resting .ready none 1).pending, t.cause ≠ 0x0B) := by
  refine ⟨?_, ?_, ?_, ?_, ?_⟩ <;> (try unfold OnShelf AtRest) <;> decide +kernel
/-- A launch of two tasks of which one waits in the launch, and a strand of it on shelf 1. -/
def halfGone : Launch := { launched 2 with untaken := [(1, 1)] }
def closing : State := boardOf [halfGone] (shelved (resting .ready none 1))
/-- Its record is reserved when its eviction begins. -/
def leavingShelf : State :=
  let s := shelved (resting .evicting none 1)
  { s with atl := { s.atl with saves := [((resting .evicting none 1).sid, 0, 1)] } }
theorem witness_StrandEvents_record : OnShelf leavingShelf 0 1 (resting .evicting none 1) .evicting ∧
    leavingShelf.atl.saves.find? (fun r => r.1 == (resting .evicting none 1).sid) = some ((resting .evicting none 1).sid, 0, 1) ∧
    (leavingShelf.cube 0).patches = [] ∧ Quiet leavingShelf := by
  refine ⟨?_, ?_, ?_, ?_⟩ <;> (try unfold OnShelf AtRest) <;> (try unfold Quiet) <;> decide +kernel
/-- The strand awaits its re-admission to cube 0. -/
def awaiting : Evicted := ⟨resting .evicting none 1, 0, 0, 1, false⟩
def evicted : State := let s := boardOf [launched 2] State.reset; { s with atl := { s.atl with evicted := [awaiting] } }
theorem witness_StrandEvents_return : evicted.atl.evicted = [awaiting] ∧ awaiting.cube = 0 ∧ awaiting.ctx.task.ending = none ∧
    trainOf evicted awaiting.ctx.sid = none ∧ mayTake evicted awaiting 0 = true ∧
    allocate (sizesOf awaiting.ctx.part) (partitionsBut (evicted.cube 0) fun _ => false) = some default ∧
    (evicted.cube 0).shelves.get 0 = none ∧ (∀ j : ShelfId, j < 0 → (evicted.cube 0).shelves.get j ≠ none) ∧
    (evicted.cube 0).admission = [] := by
  refine ⟨?_, ?_, ?_, ?_, ?_, ?_, ?_, ?_, ?_⟩ <;> decide +kernel
theorem witness_StrandEvents_return_atHand : ∀ n ∈ constVAs evicted awaiting, AtHand evicted n.1 [n.2] := by
  have h : constVAs evicted awaiting = [] := by decide +kernel
  rw [h]; intro _ h; cases h
theorem witness_StrandEvents_return_quiet : Quiet evicted := by unfold Quiet; decide +kernel
/-- Where its counter at 0x10800 stands, and the last strand of its launch at its halt or its end. -/
def counterTarget : Target := ⟨0x4800, none, false, false, true, true, false, false, 0, false, 4096⟩
theorem witness_StrandEvents_ends : OnShelf (shelved (resting .halting none 1)) 0 1 (resting .halting none 1) .halting ∧
    (resting .halting none 1).pending = [] ∧ (shelved (resting .halting none 1)).launch 5 = some (launched 2) ∧
    (resting .halting none 1).task.slot = 5 ∧ Countable (shelved (resting .halting none 1)) (launched 2) (launched 2).done counterTarget ∧
    OnShelf (shelved (resting .ending (some 7) 1)) 0 1 (resting .ending (some 7) 1) .ending ∧
    Countable (shelved (resting .ending (some 7) 1)) (launched 2) (launched 2).done counterTarget ∧ (launched 2).faultRec = 0 ∧
    Quiet (shelved (resting .halting none 1)) ∧ Quiet (shelved (resting .ending (some 7) 1)) := by
  have h : ∀ x, (∃ n, keySpace (shelved x) counterTarget.key = .hbm n) := fun x => ⟨_, rfl⟩
  refine ⟨?_, ?_, ?_, ?_, ⟨?_, ?_, ?_, h _, ?_, ?_, ?_, ?_⟩, ?_, ⟨?_, ?_, ?_, h _, ?_, ?_, ?_, ?_⟩, ?_, ?_, ?_⟩ <;> (try unfold OnShelf AtRest) <;> (try unfold Plain) <;> (try unfold Quiet) <;>
    decide +kernel
theorem witness_StrandEvents_ends_atHand :
    AtHand (shelved (resting .halting none 1)) 0 [(launched 2).done] ∧ AtHand (shelved (resting .ending (some 7) 1)) 0 [(launched 2).done] :=
  ⟨atHand_one (by decide +kernel), atHand_one (by decide +kernel)⟩

theorem witness_RegisterEvents_closing : ¬ Elsewhere closing 0 0xFF ∧ ((0xFF : Word).getLsbD 8 = false ∨ (0xFF : Word).setWidth 8 = (0 : BitVec 8)) ∧
    closing.atl.board = [halfGone] ∧ halfGone.part = 0 ∧ halfGone.report = 0 ∧ (∀ d, (closing.cube d).admission = []) ∧ halfGone.untaken = [(1, 1)] ∧
    halfGone.retired + halfGone.refused + 1 < halfGone.ntasks ∧ Countable closing halfGone halfGone.done counterTarget ∧ Quiet closing ∧
    (closing.cube 0).shelves.get 1 = some (resting .ready none 1) ∧ (resting .ready none 1).task.slot = halfGone.slot ∧
    (∀ l ∈ closing.atl.board, l.part ≠ 1) ∧ ((0 : Word).setWidth 8 = (0 : BitVec 8)) := by
  refine ⟨?_, ?_, ?_, ?_, ?_, ?_, ?_, ?_, ⟨?_, ?_, ?_, ⟨_, rfl⟩, ?_, ?_, ?_, ?_⟩, ?_, ?_, ?_, ?_, ?_⟩ <;> (try unfold Elsewhere) <;>
    (try unfold Plain) <;> (try unfold Quiet) <;> decide +kernel

/-! ### Engines -/

/-- A command of a kind with its operands, as command 7 of the strand of cube 0's core, which has identity 0. -/
def cmdOf (q : Queue) (kind : CmdKind) (st : CmdStatus) (mode : Mode) (grp : List Word) (amt : Word) : Cmd :=
  { id := 7, sid := 0, queue := q, kind := kind, tag := 0, mode := mode, asn := 0, part := .whole, grp := grp, ctr := 0xE000000003000
    amt := amt, pals := State.reset.cubes[0].pals, recipe := 0, planes := 1, after := [], joins := [], items := [], status := st
    err := none, res := [], took := [], ents := [], out := [], wrote := [], acqs := [], homes := [], seq := 0, dead := false, seed := 0
    lost := none, addDead := false }
/-- Cube 0 works at a command for a context; 8 bytes stand at key 0x1000. -/
def working (x : Ctx) (m : Cmd) : State :=
  { onCube fun k => { k with cur := .runtime, core := x, cmds := [m] } with nextId := 8, mem := memWrite [] (cellsAt 0x1000 (bytesLE 8 0x123456789)) }
/-- Rows and bytes of a row. -/
def dims (rows rowBytes : Nat) : Word := BitVec.ofNat 64 (rows * 2 ^ 20 + rowBytes)
def copyCmd (op : CopyOp) (st : CmdStatus) (grp : List Word) : Cmd := cmdOf .cq0 (.copy op) st .runtime grp 0
def linOf (st : CmdStatus) : Cmd := copyCmd .lin st [0xE000000001000, 0xE000000002000, dims 1 8, 0]
/-- Spool 3 of a context: two entries of 16 bytes in scratch, of which n are occupied. -/
def spoolCtx (n : BitVec 32) : Ctx :=
  { rt with part := .whole, spools := rt.spools.set 3 { Spool.reset with loc := 0x4000000000000000, size := 0x200000010, p := n } }
def toSpool : Cmd := copyCmd .lin .queued [0xE000000001000, 0x8000000000000003, dims 1 16, 0]
def fromSpool : Cmd := copyCmd .lin .queued [0x8000000000000003, 0xE000000002000, dims 1 16, 0]
def wentOk {α : Type} (r : Except EngErr α) : Bool := match r with | .ok _ => true | .error _ => false
theorem wentOk_some {α : Type} {r : Except EngErr α} (h : wentOk r = true) : ∃ w, r = .ok w := by
  cases r with
  | ok w => exact ⟨w, rfl⟩
  | error e => cases h
theorem room_va {s : State} {m : Cmd} {b : Bool} {need : Spool → Option Nat} {f : AddrForm} {a : VA} (h : f = .va a) :
    Room s m b need f [] := by rw [h]; exact rfl
theorem room_bad {s : State} {m : Cmd} {b : Bool} {need : Spool → Option Nat} {f : AddrForm} (h : f = .bad) : Room s m b need f [] := by
  rw [h]; exact rfl
/-- The entries, and the bytes of entries on either side, that a plan of a copy needs. -/
def planBytes (r : Except EngErr Plan) (rows : Nat) (produced : Bool) : Nat :=
  match r with | .ok p => p.planes * rows * (if produced then p.dstRow else p.srcRow) | .error _ => 0
theorem witness_CopyCommands : (linOf .queued).kind = .copy .lin ∧ Waiting (working rt (linOf .queued)) 0 (linOf .queued) ∧
    (∀ q ∈ earlierOf ((working rt (linOf .queued)).cube 0) (linOf .queued), q.status ≠ .queued) ∧ (linOf .queued).res = [] ∧
    (linOf .queued).took = [] ∧ copyEmpty (linOf .queued) = false ∧ copyLimits (working rt (linOf .queued)) (linOf .queued) = true ∧
    (linOf .queued).dead = false ∧ isSplit .lin = false ∧ isCred .lin = false ∧
    (∃ p, copyPlan (working rt (linOf .queued)) 0 (linOf .queued) = .ok p) ∧
    (∃ w, copyElems (working rt (linOf .queued)) 0 (linOf .queued) .lin = .ok w) ∧
    (∀ need, Room (working rt (linOf .queued)) (linOf .queued) false need (rowSource .lin (linOf .queued)) []) ∧
    ∀ need, Room (working rt (linOf .queued)) (linOf .queued) true need (rowTarget .lin (linOf .queued)) [] := by
  refine ⟨rfl, ⟨⟨rfl, ?_, ?_⟩, rfl, ?_⟩, ?_, rfl, rfl, ?_, ?_, rfl, rfl, rfl, wentOk_some ?_, wentOk_some ?_,
    fun _ => room_va (a := 0xE000000001000) ?_, fun _ => room_va (a := 0xE000000002000) ?_⟩ <;> decide +kernel
/-- A copy of no rows. -/
theorem witness_CopyCommands_empty : copyEmpty (copyCmd .twod .queued [0xE000000001000, 0xE000000002000, dims 0 8, 0]) = true := by decide +kernel
def spoolOut : State := working (spoolCtx 0) toSpool
def spoolIn : State := working (spoolCtx 2) fromSpool
theorem witness_CopyCommands_toSpool : ∃ p, copyPlan spoolOut 0 toSpool = .ok p ∧
    Room spoolOut toSpool false (fun sp => entriesNeeded sp (p.planes * toSpool.rows * p.srcRow)) (rowSource .lin toSpool) [] ∧
    Room spoolOut toSpool true (fun sp => entriesNeeded sp (p.planes * toSpool.rows * p.dstRow)) (rowTarget .lin toSpool)
      [(3, (strandSpool spoolOut 0 3).nextP, 1)] ∧
    wentOk (copyElems spoolOut 0 { toSpool with res := [(3, (strandSpool spoolOut 0 3).nextP, 1)] } .lin) = true := by
  obtain ⟨p, hp⟩ := wentOk_some (r := copyPlan spoolOut 0 toSpool) (by decide +kernel)
  have hb : planBytes (copyPlan spoolOut 0 toSpool) toSpool.rows true = 16 := by decide +kernel
  rw [hp] at hb
  refine ⟨p, hp, room_va (a := 0xE000000001000) (by decide +kernel), ?_, by decide +kernel⟩
  rw [show rowTarget .lin toSpool = .spool 3 0 by decide +kernel, show p.planes * toSpool.rows * p.dstRow = 16 from hb]
  exact ⟨1, by decide +kernel, by decide +kernel, rfl⟩
theorem witness_CopyCommands_fromSpool : ∃ p, copyPlan spoolIn 0 fromSpool = .ok p ∧
    Room spoolIn fromSpool false (fun sp => entriesNeeded sp (p.planes * fromSpool.rows * p.srcRow)) (rowSource .lin fromSpool)
      [(3, (strandSpool spoolIn 0 3).nextC, 1)] ∧
    Room spoolIn fromSpool true (fun sp => entriesNeeded sp (p.planes * fromSpool.rows * p.dstRow)) (rowTarget .lin fromSpool) [] ∧
    wentOk (copyElems spoolIn 0 { fromSpool with took := [(3, (strandSpool spoolIn 0 3).nextC, 1)] } .lin) = true := by
  obtain ⟨p, hp⟩ := wentOk_some (r := copyPlan spoolIn 0 fromSpool) (by decide +kernel)
  have hb : planBytes (copyPlan spoolIn 0 fromSpool) fromSpool.rows false = 16 := by decide +kernel
  rw [hp] at hb
  refine ⟨p, hp, ?_, room_va (a := 0xE000000002000) (by decide +kernel), by decide +kernel⟩
  rw [show rowSource .lin fromSpool = .spool 3 0 by decide +kernel, show p.planes * fromSpool.rows * p.srcRow = 16 from hb]
  exact ⟨1, by decide +kernel, by decide +kernel, rfl⟩
/-- An lgath of one row of four I8 elements from the first face entry to memory. -/
def gathOf : Cmd := let m := copyCmd .lgath .queued [0xFF00010000000, 0xE000000002000, dims 1 4, 0]
  { m with mode := .task, pals := { m.pals with face := m.pals.face.set 0 6 } }
theorem witness_CopyCommands_split : wentOk (splitPlan (working task gathOf) 0 gathOf) = true ∧
    (∀ need, Room (working task gathOf) gathOf false need (srcForm gathOf) []) ∧
    ∀ need, Room (working task gathOf) gathOf true need (dstForm gathOf) [] := by
  refine ⟨by decide +kernel, fun _ => room_va (a := 0xFF00010000000) (by decide +kernel), fun _ => room_va (a := 0xE000000002000) (by decide +kernel)⟩
theorem witness_CopyCommands_done : Going (working rt (linOf .started)) 0 (linOf .started) ∧
    (∀ q ∈ earlierOf ((working rt (linOf .started)).cube 0) (linOf .started), q.status ≠ .started) ∧
    (∃ os, copyWork (working rt (linOf .started)) 0 (linOf .started) .lin = (os, none)) ∧
    Plain (working rt (linOf .started)) ((copyWork (working rt (linOf .started)) 0 (linOf .started) .lin).1.map Prod.fst) ∧ (linOf .started).dead = false ∧
    lineHeld (working rt (linOf .started)) 0 (linOf .started) = false ∧ acqHeld (working rt (linOf .started)) 0 (linOf .started) .lin = false ∧
    ∀ x ∈ traversal 1 (linOf .started).rows (linOf .started).rowBytes, wentOk (engTarget (working rt (linOf .started)) 0
      (linOf .started) .read (((linOf .started).dw 0).setWidth 52 + BitVec.ofInt 52 (x.2.1 * (linOf .started).sstride + x.2.2))) = true := by
  refine ⟨⟨⟨rfl, ?_, ?_⟩, rfl, ?_, ?_⟩, ?_, ⟨_, Prod.ext rfl ?_⟩, ?_, rfl, ?_, ?_, ?_⟩ <;> (try unfold Quiet) <;> (try unfold Plain) <;>
    decide +kernel
/-- A sum of two I32 numbers in memory. -/
def sumOf : Cmd := copyCmd .addI32 .started [0xE000000001000, 0xE000000002000, dims 1 8, 0]
theorem witness_CopyCommands_sum : sumOf.rowBytes % credWidth .addI32 = 0 ∧ (sumOf.dw 0).toNat % 2 ^ 52 % credWidth .addI32 = 0 ∧
    (sumOf.dw 1).toNat % 2 ^ 52 % credWidth .addI32 = 0 ∧ sumOf.sstride % credWidth .addI32 = 0 ∧ sumOf.dstride % credWidth .addI32 = 0 ∧
    let s0 := countCopy (working rt sumOf) 0 sumOf ((credPairs sumOf 4 0xE000000001000 0xE000000002000).flatMap fun p => [p.1, p.2])
    (credRun 0 sumOf .addI32 (credWindow s0 0 sumOf 0xE000000002000) (credPairs sumOf 4 0xE000000001000 0xE000000002000) s0 []).2.1 = none := by
  decide +kernel
/-- A finished copy whose two entries of spool 3 are yet to land. -/
def landingCopy : Cmd := { copyCmd .lin .finished [0xE000000001000, 0x8000000000000003, dims 1 32, 0] with res := [(3, 0, 2)], amt := 1 }
/-- Spool 3 with its entry 0 reserved, and others behind it. -/
def reserving (qs : List (Nat × Bool)) : Ctx :=
  { rt with spools := rt.spools.set 3 { Spool.reset with loc := 0x4000000000000000, size := 0x200000010, queueP := (0, false) :: qs } }
theorem witness_CopyCommands_land : ((working (spoolCtx 0) landingCopy).cube 0).cmd 7 = some landingCopy ∧
    ((working (spoolCtx 0) landingCopy).cube 0).cur ≠ .none ∧ ((working (spoolCtx 0) landingCopy).cube 0).core.sid = landingCopy.sid ∧
    (strandSpool (working (reserving [(1, false)]) landingCopy) 0 3).held = [] ∧
    (strandSpool (working (reserving [(1, false)]) landingCopy) 0 3).queueP = (0, false) :: [(1, false)] ∧
    (∀ q, [(1, false)].head? = some q → q.2 = false) ∧ (strandSpool (working (reserving []) landingCopy) 0 3).queueP = (0, false) :: [] := by
  refine ⟨rfl, ?_, ?_, ?_, ?_, ?_, ?_⟩
  · decide +kernel
  · decide +kernel
  · decide +kernel
  · decide +kernel
  · intro q h; cases h; rfl
  · decide +kernel
def finishedLin : Cmd := { linOf .finished with amt := 1 }
theorem witness_CopyCommands_add : Stands (working rt finishedLin) 0 finishedLin ∧ finishedLin.dead = false ∧ addReady (working rt finishedLin) 0 finishedLin = true ∧
    (match addTarget (working rt finishedLin) 0 finishedLin with
      | .ok t => t.peer.isNone && homeOf t.key != 8 && (match keySpace (working rt finishedLin) t.key with | .hbm _ => true | _ => false)
      | .error _ => false) = true := by
  refine ⟨⟨rfl, ?_, ?_⟩, rfl, ?_, ?_⟩ <;> decide +kernel
/-- Behind a failed item of their line, one that has work done and one of no rows. -/
theorem witness_CopyCommands_add_broken : { finishedLin with dead := true }.err = none ∧ { finishedLin with dead := true }.empty = false ∧
    finishedLin.amt ≠ 0 ∧ (copyCmd .twod .finished [0xE000000001000, 0xE000000002000, dims 0 8, 0]).empty = true := by decide +kernel
/-- Commands of the cube engine and of the drain. -/
def cubeCmd (op : CubeOp) (st : CmdStatus) (grp : List Word) : Cmd := cmdOf .cubeq (.cube op) st .task grp 0
def zeroOf (st : CmdStatus) : Cmd := cubeCmd .zero st [0, 0]
/-- Two spools of face entries for I8 operands of depth 16, whose banks have that format, and a command of both. -/
def faceSpool (loc : Word) : Spool := { Spool.reset with loc := loc, size := 0x100000400, p := 1 }
def faceSpools : Ctx :=
  { rt with part := .whole, spools := (rt.spools.set 1 (faceSpool 0x8000000000000000)).set 2 (faceSpool 0x8000000000800000) }
def mmaOf (st : CmdStatus) : Cmd :=
  let m := cubeCmd (.mma true false false false) st [0x8008040081, 0x41]
  { m with pals := { m.pals with face := (m.pals.face.set 0 6).set 32 6 } }
theorem witness_CubeEvents : Waiting (working rt (zeroOf .queued)) 0 (zeroOf .queued) ∧ PlanesFree (working rt (zeroOf .queued)) 0 (zeroOf .queued) ∧
    tileOk (zeroOf .queued).part false ((zeroOf .queued).dw 0) = true ∧ tileOk (zeroOf .queued).part true ((zeroOf .queued).dw 0) = true ∧
    poisoned (working rt (zeroOf .queued)) (tileReads 0 (zeroOf .queued).part (tileWord ((zeroOf .queued).dw 0)) (List.range 64) (List.range 64)) = none ∧
    Quiet (working rt (zeroOf .queued)) := by
  refine ⟨⟨⟨rfl, ?_, ?_⟩, rfl, ?_⟩, ?_, ?_, ?_, ?_, ?_⟩ <;> (try unfold PlanesFree) <;> (try unfold Quiet) <;> decide +kernel
theorem witness_CubeEvents_done : Going (working rt (zeroOf .started)) 0 (zeroOf .started) ∧
    planeEarlier ((working rt (zeroOf .started)).cube 0) (zeroOf .started) = [] ∧
    (∀ l ∈ fireLayers (zeroOf .started), (((working rt (zeroOf .started)).cube 0).layerPwr l).held = false) := by
  refine ⟨⟨⟨rfl, ?_, ?_⟩, rfl, ?_, ?_⟩, ?_, ?_⟩ <;> (try unfold Quiet) <;> decide +kernel
def fitting (s : State) (m : Cmd) : Bool :=
  let a := strandSpool s m.sid m.spoolA
  let b := strandSpool s m.sid m.spoolB
  let as := m.mmLayers.map (mmOpnd 0 m false (a.entryOff a.nextC))
  let bs := m.mmLayers.map (mmOpnd 0 m true (b.entryOff b.nextC))
  a.unreserved != 0 && b.unreserved != 0 && !mmEntryBad (s.cube 0) m a false as && !mmEntryBad (s.cube 0) m b true bs &&
    !mmFormatBad m as bs && (mmWidth as bs).2.all fun x => (s.cube 0).hw.caps.getLsbD x
theorem witness_CubeEvents_mma : mmShapeBad (mmaOf .queued) = false ∧ mmSpoolsBad (working faceSpools (mmaOf .queued)) (mmaOf .queued) = false ∧
    fitting (working faceSpools (mmaOf .queued)) (mmaOf .queued) = true ∧ (working faceSpools (mmaOf .queued)).poison = [] ∧
    mmYields (working faceSpools (mmaOf .queued)) 0 (mmaOf .queued) = false := by decide +kernel
theorem witness_CubeEvents_mma_waiting : Waiting (working faceSpools (mmaOf .queued)) 0 (mmaOf .queued) ∧
    PlanesFree (working faceSpools (mmaOf .queued)) 0 (mmaOf .queued) ∧ Quiet (working faceSpools (mmaOf .queued)) := by
  refine ⟨⟨⟨rfl, ?_, ?_⟩, rfl, ?_⟩, ?_, ?_⟩ <;> (try unfold PlanesFree) <;> (try unfold Quiet) <;> decide +kernel
/-- A layer that is gated, a pending join point, and a skew that has been written. -/
def gated (s : State) : State := s.modCube 0 fun k => { k with pwr := { k.pwr with layers := k.pwr.layers.set 0 { k.pwr.layers.get 0 with gated := true } } }
def joinOf : Join := ⟨9, 0, 0, 1, [(0, 5)], .runtime, 0, .whole, 0, 0, false, some 3, none⟩
def joining : State := { (onCube fun k => { k with cur := .runtime, core := rt, joins := [joinOf] }) with cycle := 10 }
def skewing : State := onCube fun k => { k with eng := { k.eng with skewNext := [(3, 0x12345678)] } }
theorem witness_CubeEvents_others : (0 : Nat) ∈ fireLayers (mmaOf .queued) ∧
    (((gated (working faceSpools (mmaOf .queued))).cube 0).pwr.layers.get 0).gated = true ∧
    ((joining.cube 0).joins.find? fun q => q.id == joinOf.id) = some joinOf ∧ joinOf.amt = 0 ∧ joinOf.last = none ∧ walkOut joining (.cube 0) joinOf.id = false ∧
    (∀ w ∈ joinOf.waits, (joining.cube 0).cmd w.2 = none) ∧ joinOf.first = some 3 ∧
    (skewing.cube 0).eng.skewNext = [(3, 0x12345678)] ∧ (∀ m ∈ (skewing.cube 0).cmds, m.queue = .cubeq → 3 ≤ m.id) := by
  refine ⟨?_, ?_, ?_, ?_, ?_, ?_, ?_, ?_, ?_, ?_⟩ <;> decide +kernel
/-- A drain of one element of accumulator tile 0 to the partition's scratch. -/
def drainOf (st : CmdStatus) : Cmd := cmdOf .drainq (.drain false) st .task [0, 0xFF00000000000, 1, 1, 4, 0, 0] 0
/-- A checksum record of that element, which is zero. -/
def cleanRec : ChkRec := ⟨0, false, 1, 1, Vector.replicate 64 0, Vector.replicate 64 0, 0⟩
def withRecord (s : State) : State := s.modCube 0 fun k => { k with recs := [cleanRec], eng := { k.eng with abft := true } }
theorem witness_DrainEvents : Waiting (working rt (drainOf .queued)) 0 (drainOf .queued) ∧
    storesDone (working rt (drainOf .queued)) (drainOf .queued) = true ∧
    (∀ q ∈ earlierOf ((working rt (drainOf .queued)).cube 0) (drainOf .queued), q.status ≠ .queued) ∧
    drainRoom (working rt (drainOf .queued)) (drainOf .queued) = true ∧ testHolds ((working rt (drainOf .queued)).cube 0) = false ∧
    drainLayout (working rt (drainOf .queued)) 0 (drainOf .queued) none = .ok (.rows 0 0 0xFF00000000000 4) ∧
    Quiet (working rt (drainOf .queued)) ∧ (working rt (drainOf .queued)).poison = [] ∧
    (∀ r ∈ ((working rt (drainOf .queued)).cube 0).recs, r.tile ≠ recNumber (drainOf .queued).part (drainTile (drainOf .queued))) := by
  refine ⟨⟨⟨rfl, ?_, ?_⟩, rfl, ?_⟩, ?_, ?_, ?_, ?_, ?_, ?_, ?_, ?_⟩ <;> (try unfold Quiet) <;> decide +kernel
theorem witness_DrainEvents_record : ((withRecord (working rt (drainOf .queued))).cube 0).recs = [cleanRec] ∧
    cleanRec.tile = recNumber (drainOf .queued).part (drainTile (drainOf .queued)) ∧ cleanRec.i32 = drainI32 (drainOf .queued) ∧
    ((withRecord (working rt (drainOf .queued))).cube 0).eng.abft = true ∧
    compareTile cleanRec ((withRecord (working rt (drainOf .queued))).cube 0).eng.drnTol.toNat
      (tileWordAt (withRecord (working rt (drainOf .queued))) (tileKey 0 (drainOf .queued).part (drainTile (drainOf .queued)))) = .clean := by
  refine ⟨rfl, ?_, ?_, ?_, ?_⟩ <;> decide +kernel
theorem witness_DrainEvents_done : Stands (working rt (drainOf .started)) 0 (drainOf .started) ∧
    (drainOf .started).status = .started ∧ (∀ q ∈ earlierOf ((working rt (drainOf .started)).cube 0) (drainOf .started), q.status ≠ .started) ∧
    Plain (working rt (drainOf .started)) ((drainOf .started).out.map Prod.fst) := by
  refine ⟨⟨rfl, ?_, ?_⟩, rfl, ?_, ?_⟩ <;> (try unfold Plain) <;> decide +kernel
/-- A block store in the first MiB of cube 0's stack, which is off, building or ready, and a command at it. -/
def storing (ctl : Word) (building ready : Bool) : State := (working rt (cmdOf .blkq (.block .alloc) .queued .runtime [5, 1, 0, 0] 0)).modCube 0 fun k =>
  { k with eng := { k.eng with blkSize := 1, blkCtl := ctl, blkBuilding := building, blkReady := ready, blkFree := 200 } }
def allocOf : Cmd := cmdOf .blkq (.block .alloc) .queued .runtime [5, 1, 0, 0] 0
theorem witness_BlockEvents : ((storing 0x40001040 false false).cube 0).eng.blkCtl.getLsbD 63 = false ∧
    blkFits ((storing 0x40001040 false false).cube 0).eng 0 0x40001040 = true ∧ blkFits ((storing 0 false false).cube 0).eng 0 0 = false ∧
    ((storing 0x8000000040001040 true false).cube 0).eng.blkBuilding = true ∧
    (∀ d, ((storing 0x8000000040001040 true false).cube d).hw.life ≠ .evacuating) ∧ Memory.wf (storing 0x8000000040001040 true false).mem ∧
    ({ storing 0x8000000040001040 true false with secu := { State.reset.secu with world := 0x10 } } : State).secu.world.getLsbD 4 = true := by
  decide +kernel
theorem witness_BlockEvents_command : Waiting (storing 0x8000000040001040 false true) 0 allocOf ∧ storesDone (storing 0x8000000040001040 false true) allocOf = true ∧
    earlierOf ((storing 0x8000000040001040 false true).cube 0) allocOf = [] ∧ blkGroupBad allocOf = false ∧
    lineHeld (storing 0x8000000040001040 false true) 0 allocOf = false ∧ allocOf.dead = false ∧ storeState (storing 0x8000000040001040 false true) allocOf = 1 ∧
    resultPlace (storing 0x8000000040001040 false true) 0 allocOf = .ok none ∧ Quiet (storing 0x8000000040001040 false true) ∧
    (storing 0x8000000040001040 false true).poison = [] ∧ allocOf.res = [] ∧
    (blkRun (storing 0x8000000040001040 false true) 0 allocOf (blkOf (storing 0x8000000040001040 false true) allocOf.bstack)).err = none ∧
    Plain (storing 0x8000000040001040 false true)
      ((blkCells (blkRun (storing 0x8000000040001040 false true) 0 allocOf (blkOf (storing 0x8000000040001040 false true) allocOf.bstack)) none).map Prod.fst) ∧
    pathCarries (storing 0x8000000040001040 false true) 0 allocOf.sid (blkOf (storing 0x8000000040001040 false true) allocOf.bstack).base = true ∧
    (blkRun (storing 0x8000000040001040 false true) 0 allocOf (blkOf (storing 0x8000000040001040 false true) allocOf.bstack)).b.secureHit
      (storing 0x8000000040001040 false true) allocOf = false := by
  refine ⟨⟨⟨rfl, ?_, ?_⟩, rfl, ?_⟩, ?_, ?_, ?_, ?_, rfl, ?_, ?_, ?_, ?_, ?_, ?_, ?_, ?_, ?_⟩ <;> (try unfold Quiet) <;> (try unfold Plain) <;> decide +kernel

/-! ### The fabric and the conservator -/

/-- Package 5 may reach all of this package, in which 8 bytes stand at key 0x1000; the reduction window is the MiB there. Its tag 77
is known. -/
def reached : State :=
  let s := peered State.reset
  { s with
    mem := memWrite s.mem (cellsAt 0x80B8 (bytesLE 8 0xFFFFFFFFF000) ++ cellsAt 0x1000 (bytesLE 8 0xFFFFFFFF80000001))
    fab := { s.fab with regs := { s.fab.regs with rwBase := 0x1000, rwSize := 256 }, performed := [((5, 77), [77])] } }
/-- A request of package 5 at key 0x1000 with n bytes, a tag, and a line and a number on it. -/
def request (kind n : Nat) (tag : Word) (line : BitVec 3) (seq : Nat) : PeerReq := ⟨5, kind, 0x1000, List.replicate n 1, tag, ⟨3, line, seq⟩⟩
theorem witness_PeerRequests : Open reached 5 0x1000 8 .read ∧ Open reached 5 0x1000 8 .write ∧ Open reached 5 0x1000 8 .both ∧
    Open reached 5 0x1000 4 .both ∧ Open reached 5 0x1000 2 .both ∧ peerHeard State.reset 5 = false ∧ peerHeard (peered State.reset) 5 = true ∧
    peerMayReach (peered State.reset) 5 0x1000 8 .read = false ∧ inWindow reached 0x1000 = true ∧ inWindow reached 0x1007 = true := by
  refine ⟨?_, ?_, ?_, ?_, ?_, ?_, ?_, ?_, ?_, ?_⟩ <;> (try unfold Open Quiet Plain Clean) <;> decide +kernel
/-- Each kind of request is taken; one out of its turn is held; one known by its tag is answered again. -/
theorem witness_PeerRequests_taken : (∀ k ∈ [0, 1, 2, 3, 4, 5, 14, 17, 19], Taken reached (request k 8 78 0 0)) ∧
    Taken reached (request 1 8 78 2 0) ∧ (request 1 8 78 2 0).inLine reached = true ∧ (request 1 8 78 0 0).inLine reached = false ∧
    Taken (peered State.reset) (request 0 8 78 0 0) ∧ (request 14 16 78 0 0).data.length = 16 ∧ (request 19 2 78 0 0).data.length = 2 := by
  unfold Taken; decide +kernel
theorem witness_PeerRequests_held : (request 1 8 78 2 4).inLine reached = true ∧
    lineNext reached (request 1 8 78 2 4) < (request 1 8 78 2 4).from_.seq ∧ request 1 8 78 2 4 ∉ reached.fab.held ∧
    (reached.fab.performed.find? fun e => e.1 == ((request 1 8 78 2 4).peer, (request 1 8 78 2 4).tag)) = none ∧
    (reached.fab.performed.find? fun e => e.1 == ((request 1 8 77 2 4).peer, (request 1 8 77 2 4).tag)) = some ((5, 77), [77]) ∧
    (∃ e ∈ reached.fab.performed, e.1 = (5, 77)) ∧ (∀ e ∈ reached.fab.performed, e.1 ≠ (5, 78)) := by decide +kernel
theorem witness_PeerRequests_quiet : Quiet reached ∧ Quiet (peered State.reset) ∧ Quiet State.reset := by unfold Quiet; decide +kernel
theorem witness_PeerRequests_notice : (request 16 8 0 0 0).dpa + 8 ≤ dpaSpan ∧ Memory.wf reached.mem ∧
    (∀ c, (reached.cube c).hw.life ≠ .evacuating) := by decide +kernel
/-- A load of package 5's memory is out. -/
def askingPeer : ReadReq := { asking (.scalar 4 false 8 false) .sent 0 with cells := (List.range 8).map fun k => (6 * dpaSpan + 0x1000 + k, k) }
def waitingPeer : State := peered (withRead askingPeer rt)
theorem witness_PeerRequests_lost_quiet : Quiet waitingPeer := by unfold Quiet; decide +kernel
theorem witness_PeerRequests_lost : peerHeard waitingPeer 5 = true ∧ waitingPeer.item 7 = none ∧ waitingPeer.read 7 = some askingPeer ∧
    askingPeer.status = .sent ∧ askingPeer.dest ≠ .wait ∧ (∃ x ∈ askingPeer.cells, peerOf x.1 = some 5) ∧
    askingPeer.id = 7 ∧ (waitingPeer.cube 0).cur ≠ .none ∧
    (waitingPeer.cube 0).core.sid = askingPeer.sid ∧ (waitingPeer.cube 0).core.pending = [] := by
  refine ⟨?_, ?_, ?_, ?_, ?_, ⟨(6 * dpaSpan + 0x1000, 0), ?_, ?_⟩, ?_, ?_, ?_, ?_⟩ <;> decide +kernel
/-- A copy works at package 5's memory. -/
def copyingPeer : State := peered (working rt (linOf .started))
theorem witness_PeerRequests_command_quiet : Quiet copyingPeer := by unfold Quiet; decide +kernel
theorem witness_PeerRequests_command : peerHeard copyingPeer 5 = true ∧ copyingPeer.item 7 = none ∧ copyingPeer.read 7 = none ∧
    (copyingPeer.cube 0).cmd 7 = some (linOf .started) ∧ (linOf .started).status = .started := by
  refine ⟨?_, ?_, ?_, rfl, rfl⟩ <;> decide +kernel
/-- Port 3 is up, with all lanes and two spare ones, some replays and used attempts. -/
def ported (up : Bool) (cycle : Word) : State :=
  let s := State.reset
  { s with cycle := cycle, fab := { s.fab with
      regs := { s.fab.regs with replayWarn := 0x100000002, replayRetrain := 0x300000000 }, handshakes := [5]
      ports := s.fab.ports.set 3 { s.fab.ports.get 3 with up := up, width := 8, working := 8, spares := 2, replays := 2, tries := 3, since := 0 } } }
/-- No attempt has failed yet. -/
def freshPort : State :=
  let s := ported true 5
  { s with fab := { s.fab with ports := s.fab.ports.set 3 { s.fab.ports.get 3 with tries := 0 } } }
theorem witness_PortEvents : ((ported true 5).fab.ports.get 3).up = true ∧ windowOver (ported true 5) ((ported true 5).fab.ports.get 3) = false ∧
    windowOver (ported true 100000000) ((ported true 100000000).fab.ports.get 3) = true ∧
    ((ported true 5).fab.ports.get 3).warned = false ∧
    (ported true 5).fab.regs.replayWarn.toNat % 2 ^ 32 ≤ ((ported true 5).fab.ports.get 3).replays.toNat ∧
    0 < ((ported true 5).fab.ports.get 3).working ∧ 9 < ((ported true 5).fab.ports.get 3).working + ((ported true 5).fab.ports.get 3).spares.toNat ∧
    (ported true 5).fab.regs.replayRetrain.toNat / 2 ^ 32 % 16 ≤ ((ported true 5).fab.ports.get 3).tries + 1 ∧
    (freshPort.fab.ports.get 3).tries + 1 < freshPort.fab.regs.replayRetrain.toNat / 2 ^ 32 % 16 ∧
    (ported true 5).fab.regs.replayRetrain.toNat / 2 ^ 32 % 16 ≤ ((ported true 5).fab.ports.get 3).tries ∧
    ((ported false 5).fab.ports.get 3).up = false ∧ (5 : BitVec 10) ∈ (ported true 5).fab.handshakes ∧
    (∀ m ∈ (ported true 5).items, m.status = .held → peerOf m.op.addr ≠ some 5) ∧ LogRoom (ported true 5) 0 := by
  unfold LogRoom; decide +kernel
/-- Cube 0 scrubs the store that is next; its line has an owner or none, and a strand of the owner's stands on shelf 2. -/
def scrubbing (turn : Fin 6) (owners : List (Nat × BitVec 12)) : State :=
  let s := onCube fun k => { k with
    con := { k.con with scrubRate := 1, scrubTurn := turn }
    shelves := k.shelves.set 2 (some { task with status := .ready, sys := { task.sys with asn := 9 } }) }
  { s with owners := owners }
theorem witness_ScrubAndSelfTest : Scrubs (scrubbing 0 []) 0 0 (windowBase 0) := by
  unfold Scrubs; decide +kernel
theorem witness_ScrubAndSelfTest_line : Scrubs (scrubbing 5 [(0, 9)]) 0 5 0 ∧ Scrubs (scrubbing 5 []) 0 5 0 ∧
    ownerOf (scrubbing 5 [(0, 9)]).owners 0 = 9 ∧ ownerOf (scrubbing 5 []).owners 0 = 0xFFF ∧ LogRoom (scrubbing 5 []) 0 ∧
    ((scrubbing 5 []).cube 0).hw.life = .live ∧ ((scrubbing 5 [(0, 9)]).cube 0).hw.life ≠ .retired ∧
    ((scrubbing 5 []).cube 0).shelves.get 2 = some { task with status := .ready, sys := { task.sys with asn := 9 } } := by
  refine ⟨?_, ?_, ?_, ?_, ?_, ?_, ?_⟩ <;> (try unfold Scrubs) <;> (try unfold LogRoom) <;> decide +kernel
/-- A line of the edge cache, whole or damaged, with an owner. -/
def copying (bad : Bool) : State := (scrubbing 4 []).modCube 0 fun k => { k with edge := [⟨0x40, 0, 9, bad⟩] }
theorem witness_ScrubAndSelfTest_edge : Scrubs (copying false) 0 4 0x1000 ∧ edgeBad ((copying true).cube 0) 0x40 = true := by
  unfold Scrubs; decide +kernel
theorem witness_ScrubAndSelfTest_stores : Scrubs (scrubbing 1 []) 0 1 (windowBase 0 + accOffset) ∧ Scrubs (scrubbing 2 []) 0 2 (windowBase 0 + faceOffset 0) ∧
    Scrubs (scrubbing 3 []) 0 3 (windowBase 0 + faceOffset 0 + 0x0100_0000) := by unfold Scrubs; decide +kernel
/-- A test is due on cube 0, whose core is free or runs a strand; or it is under way. -/
def testing (cls : Nat) (sel : Sel) (now : Option Nat) : State := onCube fun k => { k with
  cur := sel, core := task, shelves := k.shelves.set 0 (some task), con := { k.con with testsDue := [cls], testing := now } }
/-- The strand is parked on its core. -/
def testingParked : State := (testing 2 (.shelf 0) none).modCube 0 fun k => { k with core := { task with wait := .parked } }
/-- gesso tests, and a strand is ready. -/
def testingReady : State := (testing 2 .secure (some 2)).modCube 0 fun k => { k with
  ready := [1], shelves := k.shelves.set 1 (some (strandOf 21 1 .ready)) }
theorem witness_ScrubAndSelfTest_test : TestDue (testing 15 .none none) 0 15 ∧ ((testing 15 .none none).cube 0).cur = .none ∧
    TestDue (testing 2 (.shelf 0) none) 0 2 ∧ ((testing 2 (.shelf 0) none).cube 0).cur = .shelf 0 ∧
    AtRest (testing 2 (.shelf 0) none) ((testing 2 (.shelf 0) none).cube 0).core.sid ∧ ((testing 2 (.shelf 0) none).cube 0).leave = .none ∧
    ((testing 2 (.shelf 0) none).cube 0).core.wait ≠ .parked ∧ ((testing 2 .runtime (some 2)).cube 0).con.testing = some 2 ∧
    ((testing 5 .runtime (some 5)).cube 0).hw.life = .live ∧ ((testing 5 .runtime (some 5)).cube 0).con.testing = some 5 ∧
    ((testing 5 .runtime (some 5)).cube 0).cur ≠ .secure ∧ LogRoom (testing 5 .runtime (some 5)) 0 := by
  refine ⟨?_, ?_, ?_, ?_, ?_, ?_, ?_, ?_, ?_, ?_, ?_, ?_⟩ <;> (try unfold TestDue) <;> (try unfold AtRest) <;>
    (try unfold LogRoom) <;> decide +kernel
theorem witness_ScrubAndSelfTest_switch : TestDue testingParked 0 2 ∧ AtRest testingParked (testingParked.cube 0).core.sid ∧
    (testingParked.cube 0).core.wait = .parked ∧ (testingReady.cube 0).cur = .secure ∧ (testingReady.cube 0).con.testing = some 2 ∧
    (testingReady.cube 0).hw.life = .live ∧ (testingReady.cube 0).patches = [] ∧ nextReady (testingReady.cube 0) = some 1 ∧
    (testingReady.cube 0).shelves.get 1 = some (strandOf 21 1 .ready) := by
  refine ⟨?_, ?_, ?_, ?_, ?_, ?_, ?_, ?_, ?_⟩ <;> (try unfold TestDue) <;> (try unfold AtRest) <;> decide +kernel
/-- A cube in a state of its life, with a plan in the next stack that sends granule 1 to 2^36, and granules to copy. -/
def retiring (l : CubeLife) (todo : List (Nat × Nat)) : State :=
  { (onCube fun k => { k with hw := { k.hw with life := l }, con := { k.con with evacPlan := 0x8800000, evacTodo := todo } }) with
    mem := memWrite [] (cellsAt 0x1100000008 (bytesLE 8 0x8000001000000000) ++ cellsAt 0x40000010 [7]) }
/-- The conservator may act in secure regions, and cube 1's first granule, where one of cube 0 goes, has itself been copied to cube 2. -/
def worldly : State :=
  let s := (retiring .evacuating [(1, 0x1000000000)]).modCube 1 fun k => { k with
    hw := { k.hw with life := .evacuating }, con := { k.con with evacMap := [(0, 0x2000000000)] } }
  { s with secu := { s.secu with world := 0x20 } }
theorem witness_Retirement : LogRoom (retiring .live []) 0 ∧ ((retiring .live []).cube 0).hw.life = .live ∧
    planGood (retiring .memoryOnly []) 0 = true ∧ ((retiring .memoryOnly []).cube 0).hw.life = .memoryOnly ∧
    ((retiring .evacuating [(1, 0x1000000000)]).cube 0).con.evacTodo = (1, 0x1000000000) :: [] ∧
    ((retiring .evacuating []).cube 0).con.evacTodo = [] ∧ ((retiring .evacuating []).cube 0).hw.life = .evacuating ∧
    Memory.wf (retiring .evacuating [(1, 0x1000000000)]).mem ∧
    worldly.secu.world.getLsbD 5 = true ∧ chainOf 8 worldly 0x1000000000 = [0x2000000000] := by
  refine ⟨?_, ?_, ?_, ?_, ?_, ?_, ?_, ?_, ?_, ?_⟩ <;> (try unfold LogRoom) <;> decide +kernel
theorem witness_Retirement_apart : let ds := 0x1000000000 :: chainOf 8 worldly 0x1000000000
    (∀ x ∈ ds, (0 : CubeId).val * 2 ^ 36 + 1 * 2 ^ 30 + 2 ^ 30 ≤ x ∨ x + 2 ^ 30 ≤ (0 : CubeId).val * 2 ^ 36 + 1 * 2 ^ 30) ∧
      ds.Pairwise fun x y => x + 2 ^ 30 ≤ y ∨ y + 2 ^ 30 ≤ x := by
  rw [show chainOf 8 worldly 0x1000000000 = [0x2000000000] by decide +kernel]; decide +kernel
theorem witness_Retirement_quiet : Quiet worldly ∧ Quiet (retiring .evacuating [(1, 0x1000000000)]) ∧ Quiet (retiring .memoryOnly []) ∧ Quiet (retiring .live []) := by unfold Quiet; decide +kernel

/-! ### Power, boot and the host -/

/-- Layer 2 of cube 0 in a power state; the budget is 100 A. -/
def layered (y : LayerPwr → LayerPwr) : State := onCube fun k => { k with
  pwr := { k.pwr with cubeAmps := 100, gateIdle := 5, migTime := 3, layers := k.pwr.layers.set 2 (y (k.pwr.layers.get 2)) } }
def ofLayer (s : State) : LayerPwr := (s.cube 0).pwr.layers.get 2
theorem witness_LayerEvents : (ofLayer (layered id)).gated = false ∧ 9 * ((layered id).cube 0).pwr.cubeAmps.toNat < 200 * 10 * 8 ∧
    100 * 10 * 8 ≤ 9 * 1000 ∧ 3 * (9 * ((layered id).cube 0).pwr.cubeAmps.toNat) ≤ 11 * 40 * 8 ∧ 11 * 10 * 8 ≤ 9 * ((layered id).cube 0).pwr.cubeAmps.toNat ∧
    1 * 40 * 8 < 3 * (9 * ((layered id).cube 0).pwr.cubeAmps.toNat) ∧
    (ofLayer (layered fun y => { y with gated := true, pend := true })).pend = true ∧
    mayWake ((layered fun y => { y with gated := true, pend := true }).cube 0) [] 2 = true ∧
    (∀ m, m < 2 → (((layered fun y => { y with gated := true, pend := true }).cube 0).layerPwr m).pend = false) ∧
    ((layered id).cube 0).pwr.gateIdle ≠ 0 ∧ (planesBusy ((layered id).cube 0)).getLsbD 2 = false ∧
    ((layered id).cube 0).pwr.gateIdle.toNat ≤ (ofLayer (layered fun y => { y with idle := 9 })).idle ∧
    (ofLayer (layered id)).idle < ((layered id).cube 0).pwr.gateIdle.toNat := by decide +kernel
theorem witness_LayerEvents_heat : 50 ≤ (ofLayer (layered fun y => { y with hot := 50 })).hot ∧ (ofLayer (layered id)).hot < 50 ∧
    200 ≤ (ofLayer (layered fun y => { y with cool := 200 })).cool ∧ (ofLayer (layered id)).cool < 200 ∧
    ((layered id).cube 0).pwr.migTime ≠ 0 ∧ ((layered id).cube 0).pwr.migTime.toNat ≤ (ofLayer (layered fun y => { y with high := 3 })).high ∧
    (ofLayer (layered fun y => { y with high := 3 })).migreq = false ∧ (ofLayer (layered id)).high < 3 ∧
    ((layered id).cube 0).pwr.tTrip.toNat ≤ (120 : BitVec 8).toNat ∧ (60 : BitVec 8).toNat < ((layered id).cube 0).pwr.tThrot.toNat ∧
    (List.replicate 2 [] ++ [[60, 61, 62, 63]] : List (List (BitVec 8))).getD (2 : Fin 8).val [] ≠ [] ∧
    ((layered id).cube 0).pwr.tThrot.toNat ≤ ((layered id).cube 0).pwr.tTrip.toNat := by decide +kernel
/-- A session, a group with a cap of 64 W, and a rail voltage. -/
def capped (hist : List (Nat × Nat)) (mv : Nat) : State :=
  let s := State.reset
  { s with secu := { s.secu with session := true }, power := { s.power with
      pkgCap := 0, mv := BitVec.ofNat 16 mv, bcast := ⟨4, false, 0, 0⟩
      groups := s.power.groups.set 1 { s.power.groups.get 1 with cap := 64, lastCap := 8193, hist := hist, step := 2 } } }
/-- Nine measurements below 15/16 of the cap, of which one may be too high. -/
def measured (high : Nat) : List (Nat × Nat) := List.replicate 8 (59, 500) ++ [(high, 500)]
theorem witness_PackagePower : (capped [] 1500).secu.session = true ∧ (capped [] 1500).power.next = none ∧
    (capped [] 1500).power.bcast.seq.toNat < (⟨5, true, 8, 2⟩ : Broadcast).seq.toNat ∧ OwnCapsOnly (capped [] 1500) ∧
    ((capped [] 1500).power.groups.get 1).cap ≠ 0 ∧ ((capped [] 1500).power.groups.get 1).lastCap = 128 * ((capped [] 1500).power.groups.get 1).cap.toNat + 1 ∧
    ((capped [] 1500).power.groups.get 1).cap.toNat < 70 ∧ ((59, 500) :: (measured 59).take 9).length = 10 ∧
    (∀ x ∈ (59, 500) :: (measured 59).take 9, 16 * x.1 < 15 * 64) ∧ (∃ x ∈ (59, 500) :: (measured 60).take 9, ¬ 16 * x.1 < 15 * 64) ∧
    State.reset.secu.session = false := by
  refine ⟨?_, ?_, ?_, ?_, ?_, ?_, ?_, ?_, ?_, ?_, ?_⟩ <;> (try unfold OwnCapsOnly) <;> decide +kernel
/-- The limits of the rail: at each boundary value, and one beyond it. -/
theorem witness_PackagePower_rail : (1350 ≤ 1350 ∧ 1350 ≤ 1650) ∧ (1350 ≤ 1650 ∧ 1650 ≤ 1650) ∧ (1349 < 1350 ∨ 1650 < 1349) ∧ (1651 < 1350 ∨ 1650 < 1651) ∧
    (capped [] 1249).power.mv.toNat < 1250 ∧ 1250 ≤ (capped [] 1250).power.mv.toNat ∧ (capped [] 1250).power.mv.toNat ≤ 1750 ∧
    1250 ≤ (capped [] 1750).power.mv.toNat ∧ (capped [] 1750).power.mv.toNat ≤ 1750 ∧ 1750 < (capped [] 1751).power.mv.toNat := by decide +kernel
theorem witness_PackagePower_bridge : (State.reset.cube 0).pwr.tTrip.toNat ≤ (⟨true, 110⟩ : BridgeHeat).temp.toNat ∧
    (⟨false, 109⟩ : BridgeHeat).temp.toNat < (State.reset.cube 0).pwr.tTrip.toNat := by decide +kernel
/-- The reset state at a stage of boot. -/
def staged (n : BitVec 4) : State := let s := State.reset; { s with secu := { s.secu with stage := n } }
/-- All classes pass, with dies or banks that fail. -/
def tested (ps : List Nat) (bs : List FailedBank) : BootResult := ⟨0x1FFFFFFF, ps, bs, List.replicate 10 200⟩
/-- Two failed banks of one face of the die at P5. -/
def twoBanks : List FailedBank := [⟨5, false, 3⟩, ⟨5, false, 4⟩]
theorem witness_BootEvents : Memory.wf (staged 1).mem ∧ (staged 1).secu.stage = 1 ∧ (staged 2).secu.stage = 2 ∧ (staged 3).secu.stage = 3 ∧
    ((staged 1).cube 0).hw.life = .live ∧ (List.replicate 8 (tested [] [])).length = 8 ∧ ¬ Essential default ∧
    (∀ p b, Essential (tested p b)) := by
  refine ⟨?_, ?_, ?_, ?_, ?_, ?_, ?_, fun p b => ?_⟩ <;> (try unfold Essential) <;>
    (try rw [show (tested p b).classes = 0x1FFFFFFF from rfl]) <;> decide +kernel
theorem witness_BootEvents_dies : (∀ n, ¬ DieFails (tested [] []) n) ∧ DieFails (tested [5] []) 5 ∧ (∀ n, n ≠ 5 → ¬ DieFails (tested [5] []) n) ∧
    DieFails (tested [] twoBanks) 5 ∧ DieFails (tested [3, 5] []) 3 ∧ DieFails (tested [3, 5] []) 5 ∧
    ∀ n, ¬ DieFails (tested [] [⟨5, false, 3⟩]) n := by
  unfold DieFails tested twoBanks
  refine ⟨?_, ?_, ?_, ?_, ?_, ?_, ?_⟩ <;> simp
/-- An image whose signatures verify, of the highest version, and one whose first signature does not. -/
def newest : FirmwareImage := ⟨true, true, 0xFFFF, 5⟩
theorem witness_BootEvents_images : Accepted newest ∧ ¬ Accepted { newest with rsa := false } :=
  ⟨⟨rfl, rfl, by have := Config.fusedSvn.isLt; exact Nat.le_of_lt_succ this⟩, fun h => Bool.false_ne_true h.1⟩
theorem witness_HostAndCheckpoints : HostMay (staged 4) 0x1000 8 .write ∧ HostMay (staged 4) 0x1003 5 .read ∧ HostMay (staged 4) 0x1000 8 .both ∧
    ¬ HostMay State.reset 0x1000 8 .write ∧ ¬ HostMay State.reset 0x1000 8 .both ∧ ¬ HostMay State.reset 0x1000 8 .read ∧
    Quiet (staged 4) ∧ Clean (staged 4) 0x1000 8 ∧ Plain (staged 4) ((List.range 8).map (0x1000 + ·)) ∧
    (∀ k, k < 8 → (keySpace (staged 4) ((0x1000 + k) / 8 * 8)).isWindow = false) := by
  refine ⟨?_, ?_, ?_, ?_, ?_, ?_, ?_, ?_, ?_, ?_⟩ <;> (try unfold HostMay) <;> (try unfold Quiet) <;> (try unfold Clean) <;> (try unfold Plain) <;> decide +kernel
theorem witness_HostAndCheckpoints_odd : Clean (staged 4) 0x1003 5 ∧ Plain (staged 4) ((List.range 5).map (0x1003 + ·)) ∧
    ∀ k, k < 5 → (keySpace (staged 4) ((0x1003 + k) / 8 * 8)).isWindow = false := by unfold Clean Plain; decide +kernel
/-- Every port has a decoder. -/
theorem witness_HostAndCheckpoints_decoder : InPort ⟨1, 3, 0⟩ ∧ Memory.wf (staged 4).mem := by
  refine ⟨?_, by decide +kernel⟩
  show 0 < decoderCount
  unfold decoderCount; dsimp only; split
  · omega
  · split <;> omega
/-- A core at the end of a task bundle, or halted for debug. -/
theorem witness_HostAndCheckpoints_debug : ((strand task).cube 0).cur = .shelf 0 ∧ ((strand task).cube 0).leave = .none ∧
    awaitsValue (strand task) ((strand task).cube 0).core = false ∧ (∀ i, ((runs rt).cube 0).cur ≠ .shelf i) ∧
    ((strand task).cube 0).debugHalted = false ∧ ((onCube fun k => { k with debugHalted := true }).cube 0).debugHalted = true ∧
    ((onCube fun k => { k with debugHalted := true }).cube 0).patches = [] := by decide +kernel
/-- A checkpoint of stack 3 to the safe tier, which decoders claim or not. -/
def saving (hdm : List HdmDecoder) : State :=
  let s := State.reset
  { s with
    mem := memWrite [] [(0x3000000010, 7), (0x43000000020, 9)], secu := { s.secu with hdm := hdm }
    fab := { s.fab with ckpt := some (8, 0x40000000000), regs := { s.fab.regs with ckptCtl := 2 } } }
/-- Two decoders that adjoin within the destination of stack 3, at 0x430_0000_0000. -/
def halves : List HdmDecoder :=
  [⟨⟨0, 0, 0⟩, 0x43000000000, 2 ^ 35, ⟨0, 0, 0⟩⟩, ⟨⟨1, 0, 0⟩, 0x43800000000, 2 ^ 35, ⟨0, 0, 0⟩⟩]
theorem witness_HostAndCheckpoints_copy : (saving []).fab.regs.ckptCtl.getLsbD 1 = true ∧ State.reset.fab.regs.ckptCtl.getLsbD 1 = false ∧
    State.reset.fab.ckpt = none ∧ (saving halves).fab.ckpt = some (BitVec.twoPow 8 (3 : Fin 8).val, 0x40000000000) ∧ Memory.wf (saving halves).mem ∧
    ((saving halves).cube 3).hw.life ≠ .retired := by
  decide +kernel
theorem witness_HostAndCheckpoints_claimed : (∀ a, 0x40000000000 + 3 * 2 ^ 36 ≤ a → a < 0x40000000000 + 3 * 2 ^ 36 + 2 ^ 36 →
      ∃ h ∈ (saving halves).secu.hdm, h.base ≤ a ∧ a < h.base + h.len) ∧
    ¬ ∃ h ∈ (saving []).secu.hdm, h.base ≤ 0x43000000000 ∧ 0x43000000000 < h.base + h.len := by
  refine ⟨fun a h1 h2 => ?_, by simp [saving]⟩
  by_cases h : a < 0x43800000000
  · exact ⟨_, .head _, by simp only; omega, by simp only; omega⟩
  · exact ⟨_, .tail _ (.head _), by simp only; omega, by simp only; omega⟩
/-- A valid secure region over stack 3, where the bridge engines may not act. -/
def barred : State :=
  let s := saving halves
  { s with secu := { s.secu with regions := s.secu.regions.set 0 (BitVec.ofNat 64 (2 ^ 63 + 2 ^ 62 + 36 * 2 ^ 50 + 0x3000000000)) } }
theorem witness_HostAndCheckpoints_barred : (∀ a, regionSecure (saving halves) a = false) ∧ barred.secu.world.getLsbD 6 = false ∧
    regionSecure barred ((3 : Fin 8).val * 2 ^ 36 + 0 * 2 ^ 21) = true := by
  refine ⟨fun a => ?_, by decide +kernel, by decide +kernel⟩
  have h : regionOf (saving halves) a = none := List.find?_eq_none.2 fun x hx => by
    rw [show (saving halves).secu.regions.toList = List.replicate 16 0 by decide +kernel] at hx
    obtain ⟨-, rfl⟩ := List.mem_replicate.1 hx
    simp
  rw [regionSecure, h]

/-! ### Steps, encodings and registers -/

/-- The machine right after reset with a word where it fetches. -/
noncomputable def fetched (w : Nat) : State := State.reset.withFetchWord 32 w
theorem witness_StepRunsBundle : Issues (fetched 0x1C0A000F) 0 (soloBundle 0x1C0A000F) := by
  refine ⟨rfl, rfl, rfl, ?_, ?_, ?_, ?_, ?_, ?_, ?_, ?_, ?_, ?_, ?_, ?_, ?_, ?_, ?_⟩ <;> decide +kernel
theorem witness_StepRunsBundle_alone : Alone (soloBundle 0x1C0A000F) (.movi yes plain 10 0xF) := by
  refine ⟨?_, ?_, ?_⟩
  · decide +kernel
  · decide +kernel
  · have h : ∀ n < 4, 1 ≤ n → bundleWord (soloBundle 0x1C0A000F) n = 1 := by decide +kernel
    exact fun n h1 h3 => h n (by omega) h1
theorem witness_StepRunsBundle_runs : Executes (fetched 0x1C0A000F) 0 (.movi yes plain 10 0xF) ∧ ¬ isCwait (.movi yes plain 10 0xF) ∧
    verdict (fetched 0x1C0A000F) 0 (soloBundle 0x1C0A000F) (slotsOf (soloBundle 0x1C0A000F)) = .go := by
  refine ⟨?_, fun h => h, ?_⟩
  · intro g h; cases h; decide +kernel
  · decide +kernel
/-- The instruction leaves the context of the core as it was. -/
noncomputable def moved : State := outState (fetched 0) (exec (.movi yes plain 10 0xF) (opened (fetched 0x1C0A000F) 0 (soloBundle 0x1C0A000F)))
theorem witness_StepRunsBundle_after : (moved.cube 0).cur = ((fetched 0x1C0A000F).cube 0).cur ∧ (moved.cube 0).stopped = false ∧
    (moved.cube 0).debugHalted = false ∧ (moved.cube 0).core.sid = ((fetched 0x1C0A000F).cube 0).core.sid ∧
    moved.turn = (fetched 0x1C0A000F).turn := by decide +kernel
/-- An event on the agenda, and a package without power. -/
theorem witness_StepRunsBundle_packets : packetBridge (.launchPacketArrival true 0) = some true ∧
    (([.railPowerDown, .launchPacketArrival false 0] : List Instr).find? fun j => packetBridge j == some false) =
      some (.launchPacketArrival false 0) ∧ packetBridge .railPowerDown ≠ some true := by
  refine ⟨rfl, rfl, ?_⟩
  intro h; cases h
theorem witness_StepRunsBundle_others : ({ State.reset with agenda := [.railPowerDown] } : State).agenda = .railPowerDown :: [] ∧
    ({ State.reset with secu := { State.reset.secu with powered := false } } : State).secu.powered = false ∧ State.reset.agenda = [] := by
  refine ⟨rfl, rfl, rfl⟩
theorem witness_ZeroAndNop : (soloBundle 0 ≠ 0) ∧ bundleWord (soloBundle 0) 0 = 0 := by decide +kernel
theorem witness_DrainQueueStatus : (runs rt).ctx.guard yes = true ∧ rt.mode ≠ .secure ∧
    ((runs { Ctx.reset 0 .secure with status := .running }).ctx.mode = .secure) := by decide +kernel
theorem witness_DrainQueueStatus_closes : Closes (runs { Ctx.reset 0 .secure with status := .running }) := by unfold Closes; decide +kernel
theorem witness_DecodeEncodeAgree : (Instr.movi yes plain 10 0xF).isSlot = true ∧ (Instr.movi yes plain 10 0xF).wellFormed = true := by decide +kernel
theorem witness_MemoryStaysCanonical : Memory.wf (memWrite [] [(0x1000, 7)]) ∧
    ∃ t, step { State.reset with mem := memWrite [] [(0x1000, 7)] } = .next t := ⟨by decide +kernel, _, rfl⟩

/-! ### Guards and rows -/

theorem witness_MoveImmediates : (runs rt).ctx.guard yes = true ∧ (1 : BitVec 7) ≠ 0 := by decide +kernel
theorem witness_HardWired : (1 : SReg) ≠ 0 ∧ (1 : PReg) ≠ 0 ∧ (1 : MReg) ≠ 0 ∧ (⟨true, 0⟩ : Guard).pred = 0 := by decide +kernel
theorem witness_ScalarIntegerResults : (runs rt).ctx.guard yes = true ∧ (aluRows ++ fieldRows).length ≠ 0 ∧ unaryRows.length ≠ 0 ∧
    immRows.length ≠ 0 := by decide +kernel
theorem witness_ScalarFloat : (runs rt).ctx.guard yes = true ∧ floatRows.length ≠ 0 ∧ floatUnaryRows.length ≠ 0 := by decide +kernel
theorem witness_ComparesAndPredicates : (runs rt).ctx.guard yes = true ∧ cmpRows.length ≠ 0 ∧ cmpImmRows.length ≠ 0 := by decide +kernel
theorem witness_VectorRows : (viaRows ++ vlgRows).length ≠ 0 ∧ intUnaryRows.length ≠ 0 ∧ vfRows.length ≠ 0 ∧ vcmpRows.length ≠ 0 ∧
    reduceRows.length ≠ 0 := by decide +kernel

end Sys2Proof.Tests
end

/-! PROOFS. The slot value zero, the word of `nop`, and the traps that R44 decides before any slot executes (R42, R43, R44). -/
namespace Sys2Proof.Machine

/-! ### The words of zero and of `nop` -/

/-- Major 0x00 with fn 1 is `nop` or nothing: every other field and the extension byte are zero (R43). -/
theorem decodeSlot_of_nop_fields {w : BitVec 32} (x : BitVec 8) (hmajor : fld w 26 6 = 0) (hfn : fld w 0 4 = 1) :
    decodeSlot w x = if w = 1 ∧ x = 0 then some .nop else none := by
  have hdec : decodeSlot w x = majorSys w x := by unfold decodeSlot; rw [hmajor]; rfl
  have hsys : majorSys w x = decNop w x .nop := by unfold majorSys; rw [hfn]; rfl
  rw [hdec, hsys]
  rfl

theorem decodeSlot_one (x : BitVec 8) : decodeSlot 1 x = if x = 0 then some .nop else none := by
  rw [decodeSlot_of_nop_fields x (by decide) (by decide)]
  simp only [true_and]

/-- Fn 0 of major 0x00 is unassigned. -/
theorem decodeSlot_zero (x : BitVec 8) : decodeSlot 0 x = none := rfl

/-! ### Zero words among the slots of a bundle -/

theorem majorOf_zero : majorOf 0 = 0 := rfl

/-- A zero word is not a header, so that no header hides it. -/
theorem mem_slotNumbers_of_zero {b : Bundle} {n : Nat} (hn : n < 4) (hz : bundleWord b n = 0) : n ∈ slotNumbers b := by
  by_cases hh : hasHeader b = true
  · have hpos : n ≠ 0 := by
      rintro rfl
      rw [hasHeader, hz, majorOf_zero] at hh
      exact absurd hh (by decide)
    simp only [slotNumbers, hh, if_true, List.mem_cons, List.not_mem_nil, or_false]
    omega
  · simp only [slotNumbers, hh, Bool.false_eq_true, if_false, List.mem_cons, List.not_mem_nil, or_false]
    omega

theorem mem_slotsOf_of_zero {b : Bundle} {n : Nat} (hn : n < 4) (hz : bundleWord b n = 0) :
    ⟨n, 0, none⟩ ∈ slotsOf b :=
  List.mem_map.2 ⟨n, mem_slotNumbers_of_zero hn hz, by rw [hz, decodeSlot_zero]⟩

/-! ### The offending slots -/

/-- The set that the numbers of slots mark, beside the bits that are marked already. -/
theorem getLsbD_foldl_mark (l : List Slot) (a : BitVec 4) (n : Nat) :
    (l.foldl (fun a s => a ||| BitVec.twoPow 4 s.n) a).getLsbD n =
      (a.getLsbD n || l.any fun s => decide (s.n < 4) && decide (s.n = n)) := by
  induction l generalizing a with
  | nil => simp
  | cons s l ih =>
    simp only [List.foldl_cons, List.any_cons, ih, BitVec.getLsbD_or, BitVec.getLsbD_twoPow, Bool.or_assoc]

/-- A slot that stands for no instruction offends (R42). -/
theorem getLsbD_offending_of_undecoded {b : Bundle} {ss : List Slot} {sl : Slot} (hmem : sl ∈ ss) (hins : sl.ins = none)
    (hn : sl.n < 4) : (offending b ss).getLsbD sl.n = true := by
  have hbad : sl ∈ ss.filter fun s => s.ins.isNone := List.mem_filter.2 ⟨hmem, by rw [hins]; rfl⟩
  rw [offending, getLsbD_foldl_mark, Bool.or_eq_true]
  refine .inr (List.any_eq_true.2 ⟨sl, ?_, by simp [hn]⟩)
  simp only [List.append_assoc]
  exact List.mem_append_left _ hbad

/-! ### Traps of the whole bundle -/

theorem bundleTrap_zero (s : State) (c : CubeId) (ss on : List Slot) :
    bundleTrap s c 0 ss on = some ⟨causeZero, 0, 0, 0, 0xF, 0⟩ := rfl

theorem bundleTrap_of_offending (s : State) (c : CubeId) {b : Bundle} {ss : List Slot} (on : List Slot) (hb : b ≠ 0)
    (ho : offending b ss ≠ 0) : bundleTrap s c b ss on = some ⟨causeIllegal, 0, 0, 0, offending b ss, 0⟩ := by
  rw [bundleTrap, if_neg hb, if_pos ho]
  rfl

/-- A trap of steps 2 to 5 of R44 is taken whatever the slots would do. -/
theorem issueBundle_of_bundleTrap {s : State} {c : CubeId} {b : Bundle} {t : Trap}
    (h : ∀ on, bundleTrap s c b (slotsOf b) on = some t) : issueBundle s c b = takeTrap s c t := by
  have hv : verdict s c b (slotsOf b) = .trap t none := by simp only [verdict, h]
  simp only [issueBundle, hv]

theorem issueBundle_zero (s : State) (c : CubeId) : issueBundle s c 0 = takeTrap s c ⟨causeZero, 0, 0, 0, 0xF, 0⟩ :=
  issueBundle_of_bundleTrap (bundleTrap_zero s c _)

theorem issueBundle_of_offending (s : State) (c : CubeId) {b : Bundle} (hb : b ≠ 0) (ho : offending b (slotsOf b) ≠ 0) :
    issueBundle s c b = takeTrap s c ⟨causeIllegal, 0, 0, 0, offending b (slotsOf b), 0⟩ :=
  issueBundle_of_bundleTrap fun on => bundleTrap_of_offending s c on hb ho

/-- A zero slot of a bundle that is not all zero makes it illegal, and offends (R42, R43). -/
theorem issueBundle_of_zero_slot (s : State) (c : CubeId) {b : Bundle} {n : Nat} (hb : b ≠ 0) (hn : n < 4)
    (hz : bundleWord b n = 0) :
    ∃ t : Trap, t.cause = causeIllegal ∧ t.slots.getLsbD n = true ∧ issueBundle s c b = takeTrap s c t := by
  have hbit : (offending b (slotsOf b)).getLsbD n = true :=
    getLsbD_offending_of_undecoded (mem_slotsOf_of_zero hn hz) rfl hn
  have ho : offending b (slotsOf b) ≠ 0 := fun h => by simp [h] at hbit
  exact ⟨_, rfl, by simpa only using hbit, issueBundle_of_offending s c hb ho⟩

/-! ### The obligation -/

/-- Settles O1: the decoder by the fields of `nop`, the traps by the offending slots. -/
theorem zeroAndNop : Obligations.ZeroAndNop := by
  unfold Obligations.ZeroAndNop
  refine ⟨decodeSlot_zero, decodeSlot_one 0, fun x hx => ?_, fun w x hmajor hfn hw => ?_, fun s c b => ⟨?_, ?_⟩⟩
  · rw [decodeSlot_one, if_neg hx]
  · rw [decodeSlot_of_nop_fields x hmajor hfn, if_neg fun h => hw h.1]
  · rintro rfl
    exact issueBundle_zero s c
  · exact fun hb n hn hz => issueBundle_of_zero_slot s c hb hn hz

end Sys2Proof.Machine

/-! PROOFS. The end of a bundle that nothing but its transfer waits for, and what `yield`, `trap` and `brk` leave for it (R147, R159,
R160). -/
namespace Sys2Proof.Machine

open Sys2Proof.Say

/-! ### Updates -/

/-- Only the value at the cube matters to an update of it. -/
theorem modCube_congr {s : State} {c : CubeId} {f g : Cube → Cube} (h : f (s.cube c) = g (s.cube c)) :
    s.modCube c f = s.modCube c g :=
  congrArg (s.setCube c) h

theorem takeWalks_modCube (s : State) (req : Requester) (w : Nat) (c : CubeId) (f : Cube → Cube) :
    (takeWalks s req w).modCube c f = takeWalks (s.modCube c f) req w := rfl

theorem vector_get_set {α : Type} {n : Nat} (v : Vector α n) (i j : Fin n) (a : α) :
    (v.set i.val a i.isLt).get j = if j = i then a else v.get j := by
  by_cases h : j = i
  · subst h; simp [Vector.get_eq_getElem]
  · have : i.val ≠ j.val := fun e => h (Fin.ext e.symm)
    simp [Vector.get_eq_getElem, h, this]

/-! ### Landing changes registers, latches and the results in flight alone -/

theorem foldl_landResult_eq (due : List Result) (x : Ctx) :
    due.foldl landResult x = { x with regs := (due.foldl landResult x).regs, lat := (due.foldl landResult x).lat } := by
  induction due generalizing x with
  | nil => rfl
  | cons r due ih => rw [List.foldl_cons, ih, landResult_eq]

theorem landDue_eq (x : Ctx) : landDue x =
    { x with regs := (landDue x).regs, lat := (landDue x).lat, results := x.results.filter fun r => r.rem != 0 } :=
  foldl_landResult_eq _ _

@[simp] theorem Ctx.wait_landDue (x : Ctx) : (landDue x).wait = x.wait := by rw [landDue_eq]
@[simp] theorem Ctx.pending_landDue (x : Ctx) : (landDue x).pending = x.pending := by rw [landDue_eq]

/-! ### Where a bundle ends (R143) -/

theorem stepPc_eq (x : Ctx) (b : BundleState) : stepPc x b =
    { x with loops := (stepPc x b).loops, pc := (stepPc x b).pc, issued := x.issued + 1, results := (stepPc x b).results } := by
  unfold stepPc nextAddress
  cases b.taken <;> rfl

/-- What every bundle does to its cube when it ends: it takes its noise words, the pc moves on, and its palettes come into force. -/
def Cube.closeBundle (k : Cube) : Cube :=
  { (k.modCore fun x => stepPc (popNoise x k.bundle) k.bundle) with
    pals := k.bundle.pals.foldl Palettes.put k.pals, stall := 0, bundle := .reset }
/-- A bundle of cube c ends, before anything that waits for its end. -/
def State.closeBundle (s : State) (c : CubeId) : State := takeWalks (s.modCube c Cube.closeBundle) (.cube c) 0

theorem atRest_closeBundle (s : State) (c : CubeId) (sid : Nat) : AtRest (s.closeBundle c) sid ↔ AtRest s sid := Iff.rfl
@[simp] theorem cube_closeBundle_self (s : State) (c : CubeId) : (s.closeBundle c).cube c = (s.cube c).closeBundle :=
  (cube_takeWalks ..).trans (cube_modCube_self ..)

@[simp] theorem Cube.cur_closeBundle (k : Cube) : k.closeBundle.cur = k.cur := rfl
@[simp] theorem Cube.patches_closeBundle (k : Cube) : k.closeBundle.patches = k.patches := rfl
@[simp] theorem Cube.computes_closeBundle (k : Cube) : k.closeBundle.computes = k.computes := rfl
theorem Cube.core_closeBundle (k : Cube) : k.closeBundle.core = stepPc (popNoise k.core k.bundle) k.bundle := rfl
@[simp] theorem Cube.sid_closeBundle (k : Cube) : k.closeBundle.core.sid = k.core.sid := by rw [core_closeBundle, stepPc_eq]; rfl
@[simp] theorem Cube.wait_closeBundle (k : Cube) : k.closeBundle.core.wait = k.core.wait := by rw [core_closeBundle, stepPc_eq]; rfl
@[simp] theorem Cube.task_closeBundle (k : Cube) : k.closeBundle.core.task = k.core.task := by rw [core_closeBundle, stepPc_eq]; rfl
@[simp] theorem Cube.pending_closeBundle (k : Cube) : k.closeBundle.core.pending = k.core.pending := by
  rw [core_closeBundle, stepPc_eq]; rfl

@[simp] theorem me_withCtl (s : State) (x : Control) : (withCtl s x).me = s.me := rfl
@[simp] theorem me_withTrap (s : State) (t : Trap) : (withTrap s t).me = s.me := rfl
theorem closeBundle_withCtl (s : State) (x : Control) : (withCtl s x).closeBundle s.me = s.closeBundle s.me :=
  congrArg (takeWalks · (.cube s.me) 0) (modCube_modCube s s.me _ _)
theorem closeBundle_withTrap (s : State) (t : Trap) : (withTrap s t).closeBundle s.me = s.closeBundle s.me :=
  congrArg (takeWalks · (.cube s.me) 0) (modCube_modCube s s.me _ _)

/-- With no register write and no trap waiting, what is left of a bundle's end is its control instruction. -/
theorem endBundle_of_control {s : State} {c : CubeId} (hwrite : (s.cube c).bundle.sysw = none) (hpost : (s.cube c).bundle.post = none) :
    endBundle s c = applyControl (s.closeBundle c) c (s.cube c).core.pc (s.cube c).bundle.ctl := by
  simp only [endBundle, hwrite, hpost]
  rfl
/-- A trap that waited becomes pending, and then the control instruction acts. -/
theorem endBundle_of_post {s : State} {c : CubeId} {t : Trap} (hwrite : (s.cube c).bundle.sysw = none)
    (hpost : (s.cube c).bundle.post = some t) : endBundle s c =
      applyControl ((s.closeBundle c).modCube c fun k => k.modCore fun x => x.addPending t (placeOfId s.nextId)) c
        (s.cube c).core.pc (s.cube c).bundle.ctl := by
  simp only [endBundle, hwrite, hpost]
  rfl
theorem applyControl_none (s : State) (c : CubeId) (pc : VA) : applyControl s c pc .none = s := rfl
/-- A control instruction takes its context off the core at once when nothing of it is out (R152). -/
theorem applyControl_of_idle {s : State} {c : CubeId} (pc : VA) (x : Control) (h : interlocksOut s (s.cube c).core.sid = false) :
    applyControl s c pc x = doControl s c pc x := by
  rw [applyControl, h, Bool.and_false, if_neg Bool.false_ne_true]

section
variable {s : State} (h : Closes s)
include h

theorem endBundle_of_closes : endBundle s s.me = s.closeBundle s.me := by
  obtain ⟨hctl, hwrite, hpost⟩ := h
  rw [endBundle_of_control hwrite hpost, show (s.cube s.me).bundle.ctl = .none from hctl, applyControl_none]

theorem cube_endBundle_of_closes : (endBundle s s.me).cube s.me = (s.cube s.me).closeBundle := by
  rw [endBundle_of_closes h, cube_closeBundle_self]

theorem sid_endBundle_of_closes : ((endBundle s s.me).cube s.me).core.sid = s.ctx.sid := by
  rw [cube_endBundle_of_closes h, Cube.sid_closeBundle]; rfl

theorem atRest_endBundle_of_closes (sid : Nat) : AtRest (endBundle s s.me) sid ↔ AtRest s sid := by
  rw [endBundle_of_closes h, atRest_closeBundle]

/-- A control instruction acts on what the bundle leaves without it. -/
theorem endBundle_withCtl (x : Control) :
    endBundle (withCtl s x) s.me = applyControl (endBundle s s.me) s.me s.ctx.pc x := by
  have hend := endBundle_of_closes h
  obtain ⟨-, hwrite, hpost⟩ := h
  have hb : ((withCtl s x).cube s.me).bundle = { s.bundle with ctl := x } := bundle_modBundle s _
  have hpc : ((withCtl s x).cube s.me).core.pc = s.ctx.pc := congrArg Ctx.pc (ctx_modBundle s _)
  rw [endBundle_of_control (by rw [hb]; exact hwrite) (by rw [hb]; exact hpost), closeBundle_withCtl, hpc, hb, hend]

/-- A post-commit trap becomes pending in what the bundle leaves without it. -/
theorem endBundle_withTrap (t : Trap) : endBundle (withTrap s t) s.me =
    (endBundle s s.me).modCube s.me fun k => k.modCore fun x => x.addPending t (placeOfId s.nextId) := by
  have hend := endBundle_of_closes h
  obtain ⟨hctl, hwrite, -⟩ := h
  have hb : ((withTrap s t).cube s.me).bundle = { s.bundle with post := some t } := bundle_modBundle s _
  rw [endBundle_of_post (by rw [hb]; exact hwrite) (by rw [hb]), closeBundle_withTrap, hb,
    show ({ s.bundle with post := some t } : BundleState).ctl = .none from hctl, applyControl_none, hend]
  rfl
end

/-! ### A strand at rest -/

theorem interlocksOut_of_atRest {s : State} {sid : Nat} (h : AtRest s sid) : interlocksOut s sid = false := by
  obtain ⟨hitems, hreads⟩ := h
  simp only [interlocksOut, Bool.or_eq_false_iff, List.any_eq_false]
  exact ⟨fun r hr => by simp [hreads r hr], fun i hi => by simp [hitems i hi]⟩

theorem dropWaitRead_of_atRest {s : State} {sid : Nat} (h : AtRest s sid) : dropWaitRead s sid = s := by
  have hnone : s.reads.find? (fun r => r.sid == sid && r.dest == .wait) = none :=
    List.find?_eq_none.2 fun r hr => by simp [h.2 r hr]
  rw [dropWaitRead, hnone]

/-! ### A switch from one strand to another (R151, R152) -/

theorem mem_ready_of_nextReady {k : Cube} {j : ShelfId} (h : nextReady k = some j) : j ∈ k.ready := List.mem_of_find?_eq_some h

theorem shelfPrio_of_get {k : Cube} {j : ShelfId} {y : Ctx} (h : k.shelves.get j = some y) : shelfPrio k j = y.task.prio.toNat := by
  rw [shelfPrio, h]

/-- A strand that waits for nothing and has nothing in flight goes into its shelf, and its core is free. -/
theorem saveCore_of_shelf {s : State} {c : CubeId} {i : ShelfId} (st : Status) (hcur : (s.cube c).cur = .shelf i)
    (hrest : AtRest s (s.cube c).core.sid) (hwait : (s.cube c).core.wait = .none) :
    saveCore s c st = takeWalks (s.modCube c fun k => { k with
      core := landDue k.core, shelves := k.shelves.set i (some (saved k.core st)), cur := .none, leave := .none }) (.cube c) 0 := by
  have hdrop : dropWaitRead (takeWalks (s.modCube c fun k => k.modCore landDue) (.cube c) 0) (s.cube c).core.sid =
      takeWalks (s.modCube c fun k => k.modCore landDue) (.cube c) 0 := dropWaitRead_of_atRest hrest
  unfold saveCore
  simp only [hcur, reduceCtorEq, if_false, hdrop]
  rw [takeWalks_modCube, modCube_modCube]
  refine congrArg (takeWalks · (.cube c) 0) (modCube_congr ?_)
  simp [Cube.modCore, hcur, saved, hwait]

theorem loadShelf_of_unpatched {s : State} {c : CubeId} {j : ShelfId} {y : Ctx} (hget : (s.cube c).shelves.get j = some y)
    (hpatches : (s.cube c).patches = []) : loadShelf s c j = s.modCube c fun k => { k with
      core := { y with status := .running }, cur := .shelf j, stall := 0, quantumUsed := 0, ready := k.ready.filter (· != j) } := by
  refine modCube_congr ?_
  simp only [hget, shelfPatches, hpatches]
  simp [patchCtx, patchPalettes]

/-- The strand of shelf i goes out and that of shelf j comes in: the strand that leaves stands at the head or the tail of the ready
strands, and the strand that comes is among them no more. -/
theorem switched_of_switchOut {s : State} {c : CubeId} {i j : ShelfId} {y : Ctx} (head : Bool) (hcur : (s.cube c).cur = .shelf i)
    (hrest : AtRest s (s.cube c).core.sid) (hwait : (s.cube c).core.wait = .none) (hpatches : (s.cube c).patches = [])
    (hne : j ≠ i) (hget : (s.cube c).shelves.get j = some y) :
    Switched s (loadShelf (switchOut s c head) c j) c i j ∧
      ((loadShelf (switchOut s c head) c j).cube c).ready =
        (if head then i :: (s.cube c).ready else (s.cube c).ready ++ [i]).filter (· != j) := by
  have hout : switchOut s c head = takeWalks (s.modCube c fun k => { k with
      core := landDue k.core, shelves := k.shelves.set i (some (saved k.core .ready)), cur := .none, leave := .none
      ready := if head then i :: k.ready else k.ready ++ [i] }) (.cube c) 0 := by
    simp only [switchOut, hcur, hwait, saveCore_of_shelf .ready hcur hrest hwait, reduceCtorEq, if_false, takeWalks_modCube,
      modCube_modCube]
  have hcube := congrArg (·.cube c) hout
  simp only [cube_takeWalks, cube_modCube_self] at hcube
  have hload := loadShelf_of_unpatched (s := switchOut s c head) (c := c) (j := j) (y := y)
    (by rw [hcube, vector_get_set, if_neg hne, hget]) (by rw [hcube, hpatches])
  rw [hload]
  refine ⟨⟨?_, ?_, ?_, ?_, ?_⟩, ?_⟩
  · simp
  · intro z hz
    rw [hget] at hz
    simp [Option.some.inj hz]
  · simp [hcube, vector_get_set]
  · simp
  · rw [mem_modCube, hout]; rfl
  · simp [hcube]

/-! ### `yield` (R159) -/

theorem yieldStrand_of_lower {s : State} {c : CubeId}
    (hlow : ∀ j ∈ (s.cube c).ready, shelfPrio (s.cube c) j < (s.cube c).core.task.prio.toNat) : yieldStrand s c = s := by
  unfold yieldStrand
  dsimp only
  split
  · next j _ hnext =>
    have := hlow j (mem_ready_of_nextReady hnext)
    rw [if_neg fun h => absurd h.1 (by omega)]
  · rfl

theorem yieldStrand_of_rival {s : State} {c : CubeId} {i j : ShelfId} (hcur : (s.cube c).cur = .shelf i)
    (hnext : nextReady (s.cube c) = some j) (hprio : (s.cube c).core.task.prio.toNat ≤ shelfPrio (s.cube c) j)
    (hlive : (s.cube c).computes = true) : yieldStrand s c = loadShelf (switchOut s c false) c j := by
  simp only [yieldStrand, hcur, hnext, hprio, hlive, and_self, if_true]

/-- Settles O3: the bundle leaves what it would leave without its `yield`, and that strand then goes out or stays. -/
theorem yieldRule : Obligations.YieldRule := by
  unfold Obligations.YieldRule
  intro s g i hguard hcloses hcur hpatches hrest hwait hlive e u
  have hcube : e.cube s.me = (s.cube s.me).closeBundle := cube_endBundle_of_closes hcloses
  have hrest' : AtRest e (e.cube s.me).core.sid := by
    rw [sid_endBundle_of_closes hcloses]
    exact (atRest_endBundle_of_closes hcloses _).2 hrest
  have hu : u = yieldStrand e s.me :=
    (endBundle_withCtl hcloses .yield).trans (applyControl_of_idle _ _ (interlocksOut_of_atRest hrest'))
  have hprio : (e.cube s.me).core.task = s.ctx.task := by rw [hcube, Cube.task_closeBundle]; rfl
  refine ⟨?_, fun hlow => ?_, fun j y hnext hne hget hle => ?_⟩
  · rw [exec_yield, execYield, guarded_true s g _ hguard]; rfl
  · rw [hu, yieldStrand_of_lower (by rwa [hprio])]
  · have hcur' : (e.cube s.me).cur = .shelf i := by rw [hcube, Cube.cur_closeBundle, hcur]
    have hrival := yieldStrand_of_rival hcur' hnext
      (by rw [hprio, shelfPrio_of_get hget]; exact hle) (by rw [hcube, Cube.computes_closeBundle, Cube.computes, hlive]; rfl)
    obtain ⟨hswitched, hready⟩ := switched_of_switchOut false hcur' hrest'
      (by rw [hcube, Cube.wait_closeBundle]; exact hwait) (by rw [hcube, Cube.patches_closeBundle, hpatches]) hne hget
    rw [hu, hrival]
    exact ⟨hswitched, by simp [hready, hne.symm]⟩

/-! ### Taking a trap (R146, R148) -/

/-- CODE is bits 29 to 24 of SEQ_CAUSE. -/
theorem code_causeWord (t : Trap) : (causeWord t).toNat / 2 ^ 24 % 64 = t.code.toNat := by
  have hfield : (causeWord t).extractLsb' 24 6 = t.code := by
    refine BitVec.eq_of_getLsbD_eq fun n hn => ?_
    simp only [causeWord, BitVec.getLsbD_extractLsb', BitVec.getLsbD_or, BitVec.getLsbD_shiftLeft, BitVec.getLsbD_setWidth]
    simp [hn, show n < 64 by omega, show 24 + n < 64 by omega, show ¬ 24 + n < 12 by omega, show ¬ 24 + n < 16 by omega,
      BitVec.getLsbD_of_ge t.cause (24 + n) (by omega), BitVec.getLsbD_of_ge t.acc (24 + n - 12) (by omega),
      BitVec.getLsbD_of_ge t.kind (24 + n - 16) (by omega)]
  rw [← hfield, BitVec.extractLsb'_toNat, Nat.shiftRight_eq_div_pow]

/-- Marking a dead peer reaches the fabric alone. -/
theorem noteDead_eq (s : State) (c : CubeId) (t : Trap) : ∃ fab, noteDead s c t = { s with fab := fab } := by
  unfold noteDead
  split
  · dsimp only
    split
    · split
      · split
        · exact ⟨_, rfl⟩
        · exact ⟨s.fab, rfl⟩
      · exact ⟨s.fab, rfl⟩
    · exact ⟨s.fab, rfl⟩
  · exact ⟨s.fab, rfl⟩

@[simp] theorem cube_noteDead (s : State) (c : CubeId) (t : Trap) (d : CubeId) : (noteDead s c t).cube d = s.cube d := by
  obtain ⟨_, h⟩ := noteDead_eq s c t
  rw [h]; rfl
theorem interlocksOut_noteDead (s : State) (c : CubeId) (t : Trap) (sid : Nat) :
    interlocksOut (noteDead s c t) sid = interlocksOut s sid := by
  obtain ⟨_, h⟩ := noteDead_eq s c t
  rw [h]; rfl

/-- A trap is entered at once where nothing of its context is out (R146). -/
theorem takeTrap_of_idle {s : State} {c : CubeId} (t : Trap) (h : interlocksOut s (s.cube c).core.sid = false) :
    takeTrap s c t = enterTrap (noteDead s c t) c t := by
  unfold takeTrap
  simp only [cube_noteDead, interlocksOut_noteDead, h, Bool.false_and, Bool.false_eq_true, if_false]

theorem cur_saveCore (s : State) (c : CubeId) (st : Status) : ((saveCore s c st).cube c).cur = .none := by
  unfold saveCore
  dsimp only
  split
  · assumption
  · rw [cube_modCube_self]
    split
    · assumption
    all_goals rfl

/-- A free core takes a strand or stays free. -/
theorem cur_dispatchNext {s : State} {c : CubeId} (h : (s.cube c).cur = .none) :
    ((dispatchNext s c).cube c).cur ≠ .runtime := by
  unfold dispatchNext
  split
  · split
    · rw [loadShelf, cube_modCube_self]
      split
      · simp [h]
      · simp
    · simp [h]
  · simp [h]

/-- A trap that brings the runtime context to the core leaves it the trap's record: only a strand's trap does (R146). -/
theorem trec_enterTrap {s : State} {c : CubeId} {t : Trap} (hcur : (s.cube c).cur ≠ .none)
    (hrt : ((enterTrap s c t).cube c).cur = .runtime) :
    ((enterTrap s c t).cube c).core.sys.trec = trapRecord t (s.cube c).core.pc := by
  unfold enterTrap at hrt ⊢
  split at hrt
  · next h => exact absurd h hcur
  · rw [trapTask, loadRuntime, cube_modCube_self, cube_modCube_self]
  · refine absurd hrt (cur_dispatchNext ?_)
    rw [logUe, cube_modCube_self]
    exact cur_saveCore ..
  · next h =>
    rw [trapSecure, logUe, cube_modCube_self, cube_modCube_self] at hrt
    exact absurd (h.symm.trans hrt) (by simp)

theorem code_takeTrap {s : State} {c : CubeId} (t : Trap) (hcur : (s.cube c).cur ≠ .none)
    (hrest : AtRest s (s.cube c).core.sid) (hrt : ((takeTrap s c t).cube c).cur = .runtime) :
    ((takeTrap s c t).cube c).core.sys.trec.cause.toNat / 2 ^ 24 % 64 = t.code.toNat := by
  rw [takeTrap_of_idle t (interlocksOut_of_atRest hrest)] at hrt ⊢
  rw [trec_enterTrap (by rwa [cube_noteDead]) hrt]
  exact code_causeWord t

/-! ### `trap` and `brk` (R160) -/

theorem Ctx.pending_addPending_of_nil {x : Ctx} (t : Trap) (n : Nat) (h : x.pending = []) : (x.addPending t n).pending = [t] := by
  simp [Ctx.addPending, h]

/-- A window takes writes to the strand that runs on a core halted for debug (R92). -/
theorem exec_shelfWindowWrite_of_debugHalted {s : State} {c : CubeId} {i : ShelfId} (off n : Nat) (v : Word)
    (hget : (s.cube c).shelves.get i ≠ none) (hhalted : (s.cube c).debugHalted = true) :
    exec (.shelfWindowWrite c i off n v) s = .next (s.modCube c fun k =>
      { k with patches := k.patches ++ (cellsAt off (bytesLE n v.toNat)).map fun d => (i, d.1, d.2) }) := by
  have hopen : shelfWriteRefused s c i.val = false := by
    unfold shelfWriteRefused
    dsimp only
    split
    · simp [hhalted]
    · rfl
  rw [exec_shelfWindowWrite, execShelfWindowWrite, shelfWrite, hopen]
  simp [hget]

theorem exec_trap_of_guard {s : State} {g : Guard} (code : BitVec 6) (h : s.ctx.guard g = true) :
    exec (.trap g code) s = .next (withTrap s ⟨0x10, code, 0, 0, BitVec.twoPow 4 s.bundle.slot.toNat, 0⟩) := by
  rw [exec_trap, execTrap, guarded_true s g _ h]; rfl

theorem exec_brk_of_guard {s : State} {g : Guard} (h : s.ctx.guard g = true) : exec (.brk g) s = .next
    (if (s.cube s.me).cregs.brkHalt then withCtl s .debugHalt
      else withTrap s ⟨0x0F, 0, 0, 0, BitVec.twoPow 4 s.bundle.slot.toNat, 0⟩) := by
  rw [exec_brk, execBrk, guarded_true s g _ h]; rfl

section
variable {s : State} (h : Closes s)
include h

theorem pending_ended_of_closes : (ended s).pending = s.ctx.pending := by
  rw [ended, cube_endBundle_of_closes h, Cube.pending_closeBundle]; rfl

theorem ended_withTrap (t : Trap) : ended (withTrap s t) = (ended s).addPending t (placeOfId s.nextId) := by
  rw [ended, me_withTrap, endBundle_withTrap h, cube_modCube_self]; rfl

/-- The core waits there for what the strand has out (R152). -/
theorem endBundle_debugHalt_of_busy (hout : interlocksOut (endBundle s s.me) s.ctx.sid = true) :
    endBundle (withCtl s .debugHalt) s.me =
      (endBundle s s.me).modCube s.me fun k => { k with leave := .control .debugHalt s.ctx.pc } := by
  rw [endBundle_withCtl h, applyControl, sid_endBundle_of_closes h, hout]
  rfl
theorem endBundle_debugHalt_of_idle (hout : interlocksOut (endBundle s s.me) s.ctx.sid = false) :
    endBundle (withCtl s .debugHalt) s.me =
      (endBundle s s.me).modCube s.me fun k => { k with core := landDue k.core, debugHalted := true } := by
  rw [endBundle_withCtl h, applyControl_of_idle _ _ (by rw [sid_endBundle_of_closes h, hout])]
  rfl

/-- A debug halt records no trap. -/
theorem pending_ended_debugHalt : (ended (withCtl s .debugHalt)).pending = s.ctx.pending := by
  rw [← pending_ended_of_closes h, ended, ended, me_withCtl]
  cases hout : interlocksOut (endBundle s s.me) s.ctx.sid with
  | true => rw [endBundle_debugHalt_of_busy h hout, cube_modCube_self]
  | false => rw [endBundle_debugHalt_of_idle h hout, cube_modCube_self]; exact Ctx.pending_landDue _
end

/-- Settles O4: what each instruction leaves in its bundle, and what the end of the bundle makes of it. -/
theorem trapAndBreak : Obligations.TrapAndBreak := by
  unfold Obligations.TrapAndBreak
  intro s g hcloses
  refine ⟨fun hguard => ⟨fun code => ?_, ?_⟩, fun hguard => ⟨fun code => exec_trap_of_guard code hguard, fun hoff => ?_,
    fun t hnone => ⟨?_, ?_⟩, fun t hcur hrest hrt => code_takeTrap t hcur hrest hrt, fun hon => ⟨?_, ?_⟩⟩⟩
  · exact (exec_trap g code s).trans (guarded_false s g _ hguard)
  · exact (exec_brk g s).trans (guarded_false s g _ hguard)
  · rw [exec_brk_of_guard hguard, hoff, if_neg Bool.false_ne_true]
  · rw [ended_withTrap hcloses, Ctx.pending_addPending_of_nil t _ (by rw [pending_ended_of_closes hcloses, hnone])]
  · rw [ended_withTrap hcloses, Ctx.regs_addPending]
  · rw [exec_brk_of_guard hguard, if_pos hon]
  · refine ⟨endBundle_debugHalt_of_busy hcloses, endBundle_debugHalt_of_idle hcloses, pending_ended_debugHalt hcloses,
      fun i off n v hout _ hget => exec_shelfWindowWrite_of_debugHalted off n v hget ?_⟩
    rw [endBundle_debugHalt_of_idle hcloses hout, cube_modCube_self]

end Sys2Proof.Machine

/-! PROOFS. Exposed scalar results as `Gives` states them (R136, R137, R140), and the immediate moves: what they write, and their slot
values (R35, R45, R171). -/
namespace Sys2Proof.Machine

open Sys2Proof.Say

/-! ### Results pushed, and what lands of them -/

/-- Results of one latency show together, after the bundle of that latency and not before. -/
theorem lands_push (x : Ctx) (rs : List Result) {L : Nat} (h : ∀ r ∈ rs, r.rem = L) (hL : 0 < L) :
    Lands L (fun y => (rs.map (nearer L)).foldl landResult y) x { x with results := x.results ++ rs } :=
  ⟨fun n hn => ⟨_, iterate_passBundle_push x rs L n h hn⟩, iterate_passBundle_land x rs L h hL⟩

/-- One result that an instruction pushes, where `f` says what lands of it, whatever its place, class and check. -/
theorem gives_of_pushResult {s : State} {i : Instr} {r : Result} {L : Nat} {f : Ctx → Ctx} (hexec : exec i s = .next (s.pushResult r))
    (hrem : r.rem = L) (hL : 0 < L) (hland : ∀ x n cls pos chk, landResult x { r with rem := n, cls := cls, pos := pos, chk := chk } = f x) :
    Gives s i L f := by
  refine ⟨_, hexec.trans (congrArg Host.Outcome.next ((pushResult_eq s r).trans (modCtx_const s _))), ?_⟩
  obtain ⟨hbefore, hafter⟩ := lands_push s.ctx [{ r with cls := s.bundle.cls, pos := s.place, chk := s.bundle.chk }]
    (List.forall_mem_singleton.2 hrem) hL
  exact ⟨hbefore, hafter.trans (hland _ _ _ _ _)⟩

theorem landResult_scalarResult (x : Ctx) (l : Nat) (latch : BitVec 3) (m : Mods) (d : SReg) (v : Word) (n cls pos : Nat) (chk : Bool) :
    landResult x { scalarResult l latch m d v with rem := n, cls := cls, pos := pos, chk := chk } = toScalar latch m d v x := by
  unfold landResult scalarResult toScalar
  cases m.nw <;> rfl

theorem lat_pos {l : Nat} (tv : Bool) (h : 0 < l) : 0 < lat l tv := by
  cases tv
  · exact h
  · exact Nat.add_pos_left h 2

/-- A scalar instruction under a guard that holds gives the value that it writes (R36, R137). -/
theorem gives_writeS {s : State} {i : Instr} {g : Guard} {l : Nat} {latch : BitVec 3} {m : Mods} {d : SReg} {v : Ctx → Word}
    (hexec : exec i s = s.guarded g fun x s => s.writeS l latch m d (v x)) (hguard : s.ctx.guard g = true) (hl : 0 < l) :
    Gives s i (lat l m.tv) (toScalar latch m d (v s.ctx)) :=
  gives_of_pushResult (hexec.trans (guarded_true s g _ hguard)) rfl (lat_pos m.tv hl) (landResult_scalarResult · l latch m d _)

theorem gives_movi {s : State} {g : Guard} (m : Mods) (d : SReg) (imm : BitVec 23) (h : s.ctx.guard g = true) :
    Gives s (.movi g m d imm) (lat 1 m.tv) (toScalar 1 m d (imm.signExtend 64)) :=
  gives_writeS (exec_movi g m d imm s) h Nat.one_pos

theorem gives_movhi {s : State} {g : Guard} (m : Mods) (d : SReg) (imm : BitVec 23) (h : s.ctx.guard g = true) :
    Gives s (.movhi g m d imm) (lat 1 m.tv) (toScalar 1 m d ((s.ctx.s d <<< 16) ||| imm.setWidth 64)) :=
  gives_writeS (v := fun x => (x.s d <<< 16) ||| imm.setWidth 64) (exec_movhi g m d imm s) h Nat.one_pos

/-! ### The fields of format SW (R45) -/

/-- A slot value of format SW: its major, guard, destination and immediate. -/
def wordSW (major : BitVec 6) (g : BitVec 4) (d : SReg) (i : BitVec 16) : BitVec 32 := major ++ g ++ d ++ i

section
variable (major : BitVec 6) (g : BitVec 4) (d : SReg) (i : BitVec 16)

theorem fld_imm_wordSW : fld (wordSW major g d i) 0 16 = i := BitVec.extractLsb'_append_eq_right

/-- A field above the immediate. -/
theorem fld_wordSW_of_le {lo n : Nat} (h : 16 ≤ lo) : fld (wordSW major g d i) lo n = (major ++ g ++ d).extractLsb' (lo - 16) n :=
  BitVec.extractLsb'_append_eq_of_le h

theorem fld_dest_wordSW : fld (wordSW major g d i) 16 6 = d :=
  (fld_wordSW_of_le major g d i le_rfl).trans BitVec.extractLsb'_append_eq_right

/-- A field above the destination. -/
theorem fld_wordSW_of_dest_le {lo n : Nat} (h : 22 ≤ lo) : fld (wordSW major g d i) lo n = (major ++ g).extractLsb' (lo - 22) n :=
  (fld_wordSW_of_le major g d i (by omega)).trans (BitVec.extractLsb'_append_eq_of_le (by omega))

theorem fld_major_wordSW : fld (wordSW major g d i) 26 6 = major :=
  (fld_wordSW_of_dest_le major g d i (by decide)).trans BitVec.extractLsb'_append_eq_left

theorem ofWord_wordSW : Guard.ofWord (wordSW major g d i) = ⟨g.getLsbD 3, g.setWidth 3⟩ := by
  have hneg : fld (wordSW major g d i) 25 1 = g.extractLsb' 3 1 :=
    (fld_wordSW_of_dest_le major g d i (by decide)).trans (BitVec.extractLsb'_append_eq_of_add_le (by decide))
  have hpred : fld (wordSW major g d i) 22 3 = g.extractLsb' 0 3 :=
    (fld_wordSW_of_dest_le major g d i (by decide)).trans (BitVec.extractLsb'_append_eq_of_add_le (by decide))
  have hbits : ∀ g : BitVec 4, (g.extractLsb' 3 1 == 1) = g.getLsbD 3 := by decide
  rw [Guard.ofWord, hneg, hpred, hbits, BitVec.setWidth_eq_extractLsb' (by decide)]

end

/-! ### The extension byte of an immediate (R35) -/

/-- A byte with bit 7 clear carries high bits of an immediate and no modifier. -/
theorem parse_setWidth (hi : BitVec 7) : ExtByte.parse (hi.setWidth 8) = ⟨hi, false, false, 0, 0⟩ := by
  have htop : (hi.setWidth 8).extractLsb' 7 1 = 0 := by
    ext k hk
    simp
  have hlow : (hi.setWidth 8).extractLsb' 0 7 = hi := by
    rw [← BitVec.setWidth_eq_extractLsb' (by decide), BitVec.setWidth_setWidth_of_le hi (by decide), BitVec.setWidth_eq]
  rw [ExtByte.parse, htop, if_neg (by decide), hlow]

theorem widenS_zero {n : Nat} (lo : BitVec n) : widenS 0 lo = lo.signExtend (7 + n) := if_pos rfl
theorem widenS_of_ne {n : Nat} {hi : BitVec 7} (lo : BitVec n) (h : hi ≠ 0) : widenS hi lo = hi ++ lo := if_neg h
theorem widenU_zero {n : Nat} (lo : BitVec n) : widenU 0 lo = lo.setWidth (7 + n) :=
  BitVec.eq_of_toNat_eq (by simp [widenU])

/-! ### The immediate moves decoded (R171) -/

section
variable (g : BitVec 4) (d : SReg) (i : BitVec 16) (hi : BitVec 7)

theorem decodeSlot_movi : decodeSlot (wordSW 0x07 g d i) (hi.setWidth 8) =
    some (.movi ⟨g.getLsbD 3, g.setWidth 3⟩ ⟨false, false⟩ d (widenS hi i)) := by
  have hdec : decodeSlot (wordSW 0x07 g d i) (hi.setWidth 8) = decMovi (wordSW 0x07 g d i) (hi.setWidth 8) .movi := by
    unfold decodeSlot; rw [fld_major_wordSW]; rfl
  rw [hdec, decMovi, parse_setWidth, ofWord_wordSW, fld_dest_wordSW, fld_imm_wordSW]
  rfl

theorem decodeSlot_movhi : decodeSlot (wordSW 0x08 g d i) (hi.setWidth 8) =
    some (.movhi ⟨g.getLsbD 3, g.setWidth 3⟩ ⟨false, false⟩ d (widenU hi i)) := by
  have hdec : decodeSlot (wordSW 0x08 g d i) (hi.setWidth 8) = decMovhi (wordSW 0x08 g d i) (hi.setWidth 8) .movhi := by
    unfold decodeSlot; rw [fld_major_wordSW]; rfl
  rw [hdec, decMovhi, parse_setWidth, ofWord_wordSW, fld_dest_wordSW, fld_imm_wordSW]
  rfl
end

/-- Settles O2: the results by what a pushed scalar result lands, the encodings by the fields of format SW and the byte's high bits. -/
theorem moveImmediates : Obligations.MoveImmediates := by
  unfold Obligations.MoveImmediates
  refine ⟨fun s g m d i hguard => ⟨gives_movi m d i hguard, gives_movhi m d i hguard⟩, fun g d i x => ⟨?_, ?_, fun hx => ⟨?_, ?_⟩⟩,
    fun g m d i => ⟨rfl, rfl⟩, rfl, rfl, decodeSlot_movi 0 10 0xF 0, decodeSlot_movhi 0 10 0xF000 0⟩
  · exact (decodeSlot_movi g d i 0).trans (by rw [widenS_zero])
  · exact (decodeSlot_movhi g d i 0).trans (by rw [widenU_zero])
  · exact (decodeSlot_movi g d i x).trans (by rw [widenS_of_ne i hx])
  · exact decodeSlot_movhi g d i x

end Sys2Proof.Machine

/-! PROOFS. What `sysrd` gives in a register, and what `syswr` leaves of a register that no mode writes: here of DRN_QSTAT (R165, R335). -/
namespace Sys2Proof.Machine

open Sys2Proof.Say

/-! ### Which modes may read and write a register (R165) -/

theorem mayWrite_of_never {n : Nat} (m : Mode) (h : writeAccess n = .never) : mayWrite m n = false := by
  simp [mayWrite, h]

/-- Outside secure mode a write of a read-only register traps. -/
theorem writeTraps_of_never {m : Mode} {n : Nat} (h : writeAccess n = .never) (hmode : m ≠ .secure) : writeTraps m n = true := by
  simp [writeTraps, mayWrite_of_never m h, h, hmode]

/-- In secure mode nothing but a write of a log traps. -/
theorem writeTraps_secure_of_not_log {n : Nat} (hce : n ≠ 0x510) (hue : n ≠ 0x511) : writeTraps .secure n = false := by
  simp [writeTraps, hce, hue]

/-- Every mode reads what task mode does. -/
theorem readTraps_of_not_hidden {n : Nat} (m : Mode) (h : taskHidden n = false) : readTraps m n = false := by
  rw [readTraps, mayRead, h, Bool.not_false, Bool.or_true, Bool.not_true]

theorem popRead_of_not_log {n : Nat} (s : State) (c : CubeId) (hmig : n ≠ 0x421) (hce : n ≠ 0x510) (hue : n ≠ 0x511) :
    popRead s c n = s := by
  unfold popRead
  split
  · exact absurd rfl hmig
  · exact absurd rfl hce
  · exact absurd rfl hue
  · rfl

theorem sysWrite_of_never {n : Nat} (s : State) (c : CubeId) (m : Mode) (v : Word) (h : writeAccess n = .never) :
    sysWrite s c m n v = s := by
  rw [sysWrite, mayWrite_of_never m h, Bool.not_false, if_pos rfl]

/-! ### `sysrd` and `syswr` (R165) -/

section
variable {s : State} {g : Guard} {n : BitVec 12} (hguard : s.ctx.guard g = true)
include hguard

/-- A register whose read has no side effect. -/
theorem gives_sysrd {v : Word} (d : SReg) (hread : readTraps s.ctx.mode n.toNat = false)
    (hpop : ∀ u : State, popRead u s.me n.toNat = u) (hvalue : regValue s s.me s.ctx n.toNat = v) :
    Gives s (.sysrd g d n) 2 (toReg d v) := by
  have hexec : exec (.sysrd g d n) s = .next (s.writeS0 2 d v) := by
    rw [exec_sysrd, execSysrd, guarded_true s g _ hguard, hread, if_neg Bool.false_ne_true, hpop, hvalue]
  exact gives_of_pushResult hexec rfl Nat.two_pos (landResult_scalarResult · 2 0 ⟨false, false⟩ d _)

theorem traps_syswr (r : SReg) (hwrite : writeTraps s.ctx.mode n.toNat = true) :
    Traps s (.syswr g r n) (slotTrapWith s 0x03 0 0 0) := by
  rw [Traps, exec_syswr, execSyswr, guarded_true s g _ hguard, if_pos hwrite]
  rfl

theorem exec_syswr_of_guard (r : SReg) (hwrite : writeTraps s.ctx.mode n.toNat = false) :
    exec (.syswr g r n) s = .next (withWrite s n (s.ctx.s r)) := by
  rw [exec_syswr, execSyswr, guarded_true s g _ hguard, hwrite, if_neg Bool.false_ne_true]
  rfl
end

/-! ### The end of a bundle with a register write -/

@[simp] theorem me_withWrite (s : State) (n : BitVec 12) (v : Word) : (withWrite s n v).me = s.me := rfl
theorem closeBundle_withWrite (s : State) (n : BitVec 12) (v : Word) : (withWrite s n v).closeBundle s.me = s.closeBundle s.me :=
  congrArg (takeWalks · (.cube s.me) 0) (modCube_modCube s s.me _ _)

/-- With no trap waiting, the register takes its value before the control instruction acts. -/
theorem endBundle_of_write {s : State} {c : CubeId} {n : BitVec 12} {v : Word} (hwrite : (s.cube c).bundle.sysw = some (n, v))
    (hpost : (s.cube c).bundle.post = none) : endBundle s c =
      applyControl (sysWrite (s.closeBundle c) c (s.cube c).core.mode n.toNat v) c (s.cube c).core.pc (s.cube c).bundle.ctl := by
  simp only [endBundle, hwrite, hpost]
  rfl

/-- A register write acts on what the bundle leaves without it. -/
theorem endBundle_withWrite {s : State} (h : Closes s) (n : BitVec 12) (v : Word) :
    endBundle (withWrite s n v) s.me = sysWrite (endBundle s s.me) s.me s.ctx.mode n.toNat v := by
  have hend := endBundle_of_closes h
  obtain ⟨hctl, -, hpost⟩ := h
  have hb : ((withWrite s n v).cube s.me).bundle = { s.bundle with sysw := some (n, v) } := bundle_modBundle s _
  have hmode : ((withWrite s n v).cube s.me).core.mode = s.ctx.mode := congrArg Ctx.mode (ctx_modBundle s _)
  rw [endBundle_of_write (by rw [hb]) (by rw [hb]; exact hpost), closeBundle_withWrite, hmode, hb,
    show ({ s.bundle with sysw := some (n, v) } : BundleState).ctl = .none from hctl, applyControl_none, hend]

/-! ### DRN_QSTAT (R335) -/

theorem writeAccess_drainQueueStatus : writeAccess 0x284 = .never := rfl
theorem regValue_drainQueueStatus (s : State) (c : CubeId) (x : Ctx) : regValue s c x 0x284 = queueUsed (s.cube c) .drainq := rfl
theorem cmds_reset (c : CubeId) : (State.reset.cube c).cmds = [] := by
  simp [State.cube, State.reset, Vector.get_eq_getElem, Cube.reset]

/-- Settles O5: the register's value and access decide what `sysrd` gives and what `syswr` leaves. -/
theorem drainQueueStatus : Obligations.DrainQueueStatus := by
  unfold Obligations.DrainQueueStatus
  refine ⟨fun s g d hguard => ?_, fun s g r hguard hmode => ?_, fun s g r hguard hmode hcloses => ⟨withWrite s 0x284 (s.ctx.s r), ?_, ?_⟩,
    cmds_reset⟩
  · exact gives_sysrd hguard d (readTraps_of_not_hidden _ (by decide))
      (fun u => popRead_of_not_log u s.me (by decide) (by decide) (by decide)) (regValue_drainQueueStatus s s.me s.ctx)
  · exact traps_syswr hguard r (writeTraps_of_never writeAccess_drainQueueStatus hmode)
  · exact exec_syswr_of_guard hguard r (by rw [hmode]; exact writeTraps_secure_of_not_log (by decide) (by decide))
  · exact (endBundle_withWrite hcloses 0x284 _).trans (sysWrite_of_never _ _ _ _ writeAccess_drainQueueStatus)

end Sys2Proof.Machine

/-! PROOFS. Every format of chapter 02 read back field by field, and the round trip of every well-formed slot instruction
(R45 to R48, R54). -/
namespace Sys2Proof

/-! ### Fields of a word that is laid side by side -/

theorem toNat_append_eq {n m : Nat} (x : BitVec n) (y : BitVec m) : (x ++ y).toNat = x.toNat * 2 ^ m + y.toNat := by
  rw [BitVec.toNat_append, ← Nat.shiftLeft_add_eq_or_of_lt y.isLt, Nat.shiftLeft_eq]

theorem toNat_zero {n : Nat} : (0 : BitVec n).toNat = 0 := BitVec.toNat_ofNat 0 n |>.trans (Nat.zero_mod _)

/-- A field is a quotient and a remainder of its word. -/
theorem fld_eq {w : BitVec 32} {lo n : Nat} {v : BitVec n} (h : w.toNat / 2 ^ lo % 2 ^ n = v.toNat) : fld w lo n = v :=
  BitVec.eq_of_toNat_eq (by rw [fld, BitVec.extractLsb'_toNat, Nat.shiftRight_eq_div_pow, h])

theorem fld_eq_zero {w : BitVec 32} {lo n : Nat} (h : w.toNat / 2 ^ lo % 2 ^ n = 0) : fld w lo n = 0 := fld_eq (by simpa using h)

theorem ofWord_eq {w : BitVec 32} {g : Guard} (h : fld w 22 4 = g.bits) : Guard.ofWord w = g := by
  obtain ⟨neg, pred⟩ := g
  have hbits : ∀ (neg : Bool) (pred : PReg), (⟨neg, pred⟩ : Guard).bits.toNat = neg.toNat * 2 ^ 3 + pred.toNat := by
    intro neg pred
    rw [Guard.bits, toNat_append_eq, BitVec.toNat_ofBool]
  have hfld := congrArg BitVec.toNat h
  rw [fld, BitVec.extractLsb'_toNat, Nat.shiftRight_eq_div_pow, hbits] at hfld
  have hpred : fld w 22 3 = pred := fld_eq (by omega)
  have hneg : fld w 25 1 = BitVec.ofBool neg := fld_eq (by rw [BitVec.toNat_ofBool]; omega)
  rw [Guard.ofWord, hneg, hpred]
  cases neg <;> rfl

@[simp] theorem bit_beq_one (b : Bool) : (bit b == 1#1) = b := by cases b <;> rfl
@[simp] theorem bit_eq_zero (b : Bool) : bit b = 0#1 ↔ b = false := by cases b <;> decide
theorem toNat_bit (b : Bool) : (bit b).toNat = b.toNat := BitVec.toNat_ofBool b

section
variable (maj : BitVec 6) (g : Guard) (d a b : BitVec 6) (fn : BitVec 4)

theorem toNat_encSR : (encSR maj g d a b fn).toNat =
    ((((maj.toNat * 2 ^ 4 + g.bits.toNat) * 2 ^ 6 + d.toNat) * 2 ^ 6 + a.toNat) * 2 ^ 6 + b.toNat) * 2 ^ 4 + fn.toNat := by
  simp only [encSR, toNat_append_eq]
@[simp] theorem fld_major_encSR : fld (encSR maj g d a b fn) 26 6 = maj := fld_eq (by rw [toNat_encSR]; omega)
@[simp] theorem ofWord_encSR : Guard.ofWord (encSR maj g d a b fn) = g := ofWord_eq (fld_eq (by rw [toNat_encSR]; omega))
@[simp] theorem fld_d_encSR : fld (encSR maj g d a b fn) 16 6 = d := fld_eq (by rw [toNat_encSR]; omega)
@[simp] theorem fld_a_encSR : fld (encSR maj g d a b fn) 10 6 = a := fld_eq (by rw [toNat_encSR]; omega)
@[simp] theorem fld_b_encSR : fld (encSR maj g d a b fn) 4 6 = b := fld_eq (by rw [toNat_encSR]; omega)
@[simp] theorem fld_fn_encSR : fld (encSR maj g d a b fn) 0 4 = fn := fld_eq (by rw [toNat_encSR]; omega)
@[simp] theorem fld_da_encSR : fld (encSR maj g d a b fn) 10 12 = d ++ a :=
  fld_eq (by rw [toNat_encSR, toNat_append_eq]; omega)
@[simp] theorem fld_ab_encSR : fld (encSR maj g d a b fn) 4 12 = a ++ b :=
  fld_eq (by rw [toNat_encSR, toNat_append_eq]; omega)
@[simp] theorem fld_dab_encSR : fld (encSR maj g d a b fn) 4 18 = d ++ a ++ b :=
  fld_eq (by rw [toNat_encSR, toNat_append_eq, toNat_append_eq]; omega)
end

/-! ### The extension byte (R35, R36) -/

@[simp] theorem parse_zero : ExtByte.parse 0#8 = ⟨0, false, false, 0, 0⟩ := by decide
@[simp] theorem parse_modByte (nw tv : Bool) (la : BitVec 3) (lb : BitVec 2) :
    ExtByte.parse (modByte nw tv la lb) = ⟨0, nw, tv, la, lb⟩ := by
  revert nw tv la lb; decide
theorem parse_immByte (hi : BitVec 7) : ExtByte.parse (immByte hi) = ⟨hi, false, false, 0, 0⟩ := by
  revert hi; decide

/-- The high bits and the low bits of an immediate, side by side. -/
theorem extractLsb'_append_setWidth {n : Nat} (imm : BitVec (7 + n)) : imm.extractLsb' n 7 ++ imm.setWidth n = imm := by
  have hhigh : imm.toNat / 2 ^ n < 2 ^ 7 := Nat.div_lt_of_lt_mul (by rw [← Nat.pow_add, Nat.add_comm n 7]; exact imm.isLt)
  refine BitVec.eq_of_toNat_eq ?_
  rw [toNat_append_eq, BitVec.extractLsb'_toNat, Nat.shiftRight_eq_div_pow, BitVec.toNat_setWidth, Nat.mod_eq_of_lt hhigh,
    Nat.mul_comm, Nat.div_add_mod]

/-- A signed immediate comes back from its field and its byte, beside which stand the modifiers or none (R54). -/
theorem parse_extS {n : Nat} {imm : BitVec (7 + n)} {plain nw tv : Bool} {la : BitVec 3} {lb : BitVec 2}
    (hwf : wfImmS imm plain = true) (hplain : plain = true → nw = false ∧ tv = false ∧ la = 0 ∧ lb = 0) :
    ∃ hi, ExtByte.parse (extS imm (modByte nw tv la lb)) = ⟨hi, nw, tv, la, lb⟩ ∧ widenS hi (imm.setWidth n) = imm := by
  unfold extS
  split
  · next hfit => exact ⟨0, parse_modByte nw tv la lb, (Machine.widenS_zero _).trans hfit.symm⟩
  · next hfit =>
    simp only [wfImmS, beq_eq_false_iff_ne.2 hfit, Bool.false_or, Bool.and_eq_true, bne_iff_ne] at hwf
    obtain ⟨hnone, hne⟩ := hwf
    obtain ⟨rfl, rfl, rfl, rfl⟩ := hplain hnone
    exact ⟨_, parse_immByte _, (Machine.widenS_of_ne _ hne).trans (extractLsb'_append_setWidth imm)⟩

/-- The same of an unsigned immediate. -/
theorem parse_extU {n : Nat} {imm : BitVec (7 + n)} {plain nw tv : Bool} {la : BitVec 3} {lb : BitVec 2}
    (hwf : wfImmU imm plain = true) (hplain : plain = true → nw = false ∧ tv = false ∧ la = 0 ∧ lb = 0) :
    ∃ hi, ExtByte.parse (extU imm (modByte nw tv la lb)) = ⟨hi, nw, tv, la, lb⟩ ∧ widenU hi (imm.setWidth n) = imm := by
  unfold extU
  split
  · next hfit => exact ⟨0, parse_modByte nw tv la lb, (Machine.widenU_zero _).trans hfit.symm⟩
  · next hfit =>
    simp only [wfImmU, beq_eq_false_iff_ne.2 hfit, Bool.false_or, Bool.and_eq_true] at hwf
    obtain ⟨rfl, rfl, rfl, rfl⟩ := hplain hwf.1
    exact ⟨_, parse_immByte _, extractLsb'_append_setWidth imm⟩

/-! ### Codes and operands -/

@[simp] theorem Comb.ofCode_code (c : Comb) : Comb.ofCode c.code = some c := by cases c <;> rfl
@[simp] theorem Scope.ofCode_code (c : Scope) : Scope.ofCode c.code = c := by cases c <;> rfl
@[simp] theorem Size.ofCode_code (z : Size) : Size.ofCode z.code = z := by cases z <;> rfl
@[simp] theorem FenceKind.ofCode_code (k : FenceKind) : FenceKind.ofCode k.code = some k := by cases k <;> rfl
@[simp] theorem ElemT.ofCode_code (t : ElemT) : ElemT.ofCode t.code = t := by cases t <;> rfl

@[simp] theorem Src.ofA_field {a : Src} (h : a.okA = true) : Src.ofA a.la a.field = some a := by
  cases a with
  | reg r => rfl
  | latch n => simp [Src.okA] at h; simp [Src.ofA, Src.la, Src.field, h]
@[simp] theorem VSrc.ofA_field {a : VSrc} (h : a.okA = true) : VSrc.ofA a.la a.field = some a := by
  cases a with
  | reg r => rfl
  | latch n => simp [VSrc.okA] at h; simp [VSrc.ofA, VSrc.la, VSrc.field, h]
/-- The three latches that operand b reaches have codes of their own. -/
theorem latchB_lbCode {n : BitVec 3} (h : (n == 1 || n == 4 || n == 5) = true) : lbCode n ≠ 0 ∧ latchB (lbCode n) = n := by
  revert n; decide
@[simp] theorem Src.ofB_field {b : Src} (h : b.okB = true) : Src.ofB b.lb b.field = some b := by
  cases b with
  | reg r => rfl
  | latch n =>
    obtain ⟨hne, hn⟩ := latchB_lbCode h
    rw [Src.ofB, Src.lb, Src.field, if_neg hne, if_pos rfl, hn]
@[simp] theorem VSrc.ofB_field {b : VSrc} (h : b.okB = true) : VSrc.ofB b.lb b.field = some b := by
  cases b with
  | reg r => rfl
  | latch n =>
    obtain ⟨hne, hn⟩ := latchB_lbCode h
    rw [VSrc.ofB, VSrc.lb, VSrc.field, if_neg hne, if_pos rfl, hn]
theorem Src.la_of_isReg {a : Src} (h : a.isReg = true) : a.la = 0 := by
  cases a with
  | reg r => rfl
  | latch n => exact absurd h Bool.false_ne_true
theorem Mods.eq_of_isNone {m : Mods} (h : m.isNone = true) : m.nw = false ∧ m.tv = false := by
  simpa [Mods.isNone] using h

/-! ### The scalar formats, each read back (R45) -/

section
variable (maj : BitVec 6) (g : Guard) (fn : BitVec 4)

theorem decG_encSR (k : Guard → Instr) : decG (encSR maj g 0 0 0 fn) 0 k = some (k g) := by
  simp [decG, ExtByte.bare, ExtByte.onlyLat]
theorem decTrap_encSR (k : Guard → BitVec 6 → Instr) (c : BitVec 6) : decTrap (encSR maj g 0 0 c fn) 0 k = some (k g c) := by
  simp [decTrap, ExtByte.bare, ExtByte.onlyLat]
theorem decTlbi_encSR (k : Guard → SReg → Src → BitVec 6 → Instr) {d : SReg} {a : Src} {c : BitVec 6}
    (h : (a.okA && (decide (c.toNat ≤ 10) || (c == 63 && d == 0 && a == .reg 0))) = true) :
    decTlbi (encSR maj g d a.field c fn) (modByte false false a.la 0) k = some (k g d a c) := by
  simp only [Bool.and_eq_true, Bool.or_eq_true, decide_eq_true_eq, beq_iff_eq] at h
  obtain ⟨ha, hc⟩ := h
  have hcode : c.toNat ≤ 10 ∨ c = 63 ∧ (d ++ a.field : BitVec 12) = 0 ∧ a.la = 0 := by
    rcases hc with hc | ⟨⟨hc, rfl⟩, rfl⟩
    · exact .inl hc
    · exact .inr ⟨hc, by decide, rfl⟩
  simp only [decTlbi, parse_modByte, fld_b_encSR, fld_da_encSR, fld_a_encSR, fld_d_encSR, ofWord_encSR, Src.ofA_field ha]
  rw [if_pos ⟨by simp [ExtByte.onlyLat], trivial, hcode⟩]
  rfl
theorem decGD_encSR (k : Guard → SReg → Instr) (d : SReg) : decGD (encSR maj g d 0 0 fn) 0 k = some (k g d) := by
  simp [decGD, ExtByte.bare, ExtByte.onlyLat]
theorem decRRR_encSR (k : Guard → Mods → SReg → Src → Src → Instr) (m : Mods) (d : SReg) {a b : Src} (h : (a.okA && b.okB) = true) :
    decRRR (encSR maj g d a.field b.field fn) (modByte m.nw m.tv a.la b.lb) k = some (k g m d a b) := by
  obtain ⟨ha, hb⟩ := Bool.and_eq_true_iff.1 h
  simp [decRRR, ha, hb]
theorem decRR_encSR (k : Guard → Mods → SReg → Src → Instr) (m : Mods) (d : SReg) {a : Src} (h : a.okA = true) :
    decRR (encSR maj g d a.field 0 fn) (modByte m.nw m.tv a.la 0) k = some (k g m d a) := by
  simp [decRR, h]
theorem decJr_encSR (k : Guard → Src → Instr) {a : Src} (h : a.okA = true) :
    decJr (encSR maj g 0 a.field 0 fn) (modByte false false a.la 0) k = some (k g a) := by
  simp [decJr, h, ExtByte.onlyLat]
theorem decGDAB_encSR (k : Guard → SReg → Src → Src → Instr) (d : SReg) {a b : Src} (h : (a.okA && b.okB) = true) :
    decGDAB (encSR maj g d a.field b.field fn) (modByte false false a.la b.lb) k = some (k g d a b) := by
  obtain ⟨ha, hb⟩ := Bool.and_eq_true_iff.1 h
  simp [decGDAB, ha, hb, ExtByte.onlyLat]
theorem decCas_encSR (k : Guard → SReg → Src → Src → Instr) (d : SReg) {a b : Src} (h : (a.okA && b.okB && b != .reg 63) = true) :
    decCas (encSR maj g d a.field b.field fn) (modByte false false a.la b.lb) k = some (k g d a b) := by
  obtain ⟨hab, hne⟩ := Bool.and_eq_true_iff.1 h
  have hfield : b.field ≠ 63 := by
    cases b with
    | reg r => simpa [Src.field] using hne
    | latch n => simp [Src.field]
  rw [decCas, fld_b_encSR, if_neg hfield, decGDAB_encSR _ _ _ _ _ hab]
theorem decGDA_encSR (k : Guard → SReg → Src → Instr) (d : SReg) {a : Src} (h : a.okA = true) :
    decGDA (encSR maj g d a.field 0 fn) (modByte false false a.la 0) k = some (k g d a) := by
  simp [decGDA, h, ExtByte.onlyLat]
theorem decPPP_encSR (k : Guard → PReg → PReg → PReg → Instr) (d a b : PReg) :
    decPPP (encSR maj g ((0 : BitVec 3) ++ d) ((0 : BitVec 3) ++ a) ((0 : BitVec 3) ++ b) fn) 0 k = some (k g d a b) := by
  have hw := toNat_encSR maj g ((0 : BitVec 3) ++ d) ((0 : BitVec 3) ++ a) ((0 : BitVec 3) ++ b) fn
  simp only [toNat_append_eq, toNat_zero] at hw
  rw [decPPP, if_pos ⟨fld_eq_zero (by rw [hw]; omega), fld_eq_zero (by rw [hw]; omega), fld_eq_zero (by rw [hw]; omega), by decide⟩,
    fld_eq (lo := 16) (v := d) (by rw [hw]; omega), fld_eq (lo := 10) (v := a) (by rw [hw]; omega),
    fld_eq (lo := 4) (v := b) (by rw [hw]; omega), ofWord_encSR]
theorem decRed_encSR (k : Guard → Bool → Bool → Src → Src → Instr) (ord z : Bool) {a b : Src} (h : (a.okA && b.okB) = true) :
    decRed (encSR maj g (bit ord ++ (0 : BitVec 2) ++ bit z ++ (0 : BitVec 2)) a.field b.field fn) (modByte false false a.la b.lb) k =
      some (k g ord z a b) := by
  obtain ⟨ha, hb⟩ := Bool.and_eq_true_iff.1 h
  have hw := toNat_encSR maj g (bit ord ++ (0 : BitVec 2) ++ bit z ++ (0 : BitVec 2)) a.field b.field fn
  simp only [toNat_append_eq, toNat_zero] at hw
  have hord := fld_eq (lo := 21) (v := bit ord) (by rw [hw]; omega)
  have hz := fld_eq (lo := 18) (v := bit z) (by rw [hw]; omega)
  rw [decRed, if_pos ⟨by simp [ExtByte.onlyLat], fld_eq_zero (by rw [hw]; omega), fld_eq_zero (by rw [hw]; omega)⟩, hord, hz]
  simp [ha, hb]
theorem decRedF_encSR (k : Guard → Bool → Src → Src → Instr) (ord : Bool) {a b : Src} (h : (a.okA && b.okB) = true) :
    decRedF (encSR maj g (bit ord ++ (0 : BitVec 2) ++ bit false ++ (0 : BitVec 2)) a.field b.field fn)
      (modByte false false a.la b.lb) k = some (k g ord a b) := by
  obtain ⟨ha, hb⟩ := Bool.and_eq_true_iff.1 h
  have hw := toNat_encSR maj g (bit ord ++ (0 : BitVec 2) ++ bit false ++ (0 : BitVec 2)) a.field b.field fn
  simp only [toNat_append_eq, toNat_zero, toNat_bit false, Bool.toNat_false] at hw
  have hord := fld_eq (lo := 21) (v := bit ord) (by rw [hw]; omega)
  rw [decRedF, if_pos ⟨by simp [ExtByte.onlyLat], fld_eq_zero (by rw [hw]; omega)⟩, hord]
  simp [ha, hb]
theorem decCadd_encSR (k : Guard → BitVec 3 → Bool → Src → Src → Scope → Bool → Instr) (line : BitVec 3) (glob rel : Bool)
    (sc : Scope) {a b : Src} (h : (a.okA && b.okB) = true) :
    decCadd (encSR maj g (line ++ bit glob ++ (0 : BitVec 2)) a.field b.field (sc.code ++ bit rel ++ (0 : BitVec 1)))
      (modByte false false a.la b.lb) k = some (k g line glob a b sc rel) := by
  obtain ⟨ha, hb⟩ := Bool.and_eq_true_iff.1 h
  have hw := toNat_encSR maj g (line ++ bit glob ++ (0 : BitVec 2)) a.field b.field (sc.code ++ bit rel ++ (0 : BitVec 1))
  simp only [toNat_append_eq, toNat_zero] at hw
  have hline := fld_eq (lo := 19) (v := line) (by rw [hw]; omega)
  have hglob := fld_eq (lo := 18) (v := bit glob) (by rw [hw]; omega)
  have hsc := fld_eq (lo := 2) (v := sc.code) (by rw [hw]; omega)
  have hrel := fld_eq (lo := 1) (v := bit rel) (by rw [hw]; omega)
  rw [decCadd, if_pos ⟨by simp [ExtByte.onlyLat], fld_eq_zero (by rw [hw]; omega), fld_eq_zero (by rw [hw]; omega)⟩, hline, hglob, hsc,
    hrel]
  simp [ha, hb]
theorem decCwait_encSR (k : Guard → SReg → Src → Src → Scope → Bool → Bool → Instr) (d : SReg) (sc : Scope) (acq np : Bool)
    {a b : Src} (h : (a.okA && b.okB) = true) :
    decCwait (encSR maj g d a.field b.field (sc.code ++ bit acq ++ bit np)) (modByte false false a.la b.lb) k =
      some (k g d a b sc acq np) := by
  obtain ⟨ha, hb⟩ := Bool.and_eq_true_iff.1 h
  have hw := toNat_encSR maj g d a.field b.field (sc.code ++ bit acq ++ bit np)
  simp only [toNat_append_eq] at hw
  have hsc := fld_eq (lo := 2) (v := sc.code) (by rw [hw]; omega)
  have hacq := fld_eq (lo := 1) (v := bit acq) (by rw [hw]; omega)
  have hnp := fld_eq (lo := 0) (v := bit np) (by rw [hw]; omega)
  rw [decCwait, hsc, hacq, hnp]
  simp [ha, hb, ExtByte.onlyLat]
theorem decCrd_encSR (k : Guard → SReg → Src → Scope → Bool → Instr) (d : SReg) (sc : Scope) (acq : Bool) {a : Src}
    (h : a.okA = true) :
    decCrd (encSR maj g d a.field 0 (sc.code ++ bit acq ++ (0 : BitVec 1))) (modByte false false a.la 0) k = some (k g d a sc acq) := by
  have hw := toNat_encSR maj g d a.field 0 (sc.code ++ bit acq ++ (0 : BitVec 1))
  simp only [toNat_append_eq, toNat_zero] at hw
  have hsc := fld_eq (lo := 2) (v := sc.code) (by rw [hw]; omega)
  have hacq := fld_eq (lo := 1) (v := bit acq) (by rw [hw]; omega)
  have hlow := fld_eq_zero (w := encSR maj g d a.field 0 (sc.code ++ bit acq ++ (0 : BitVec 1))) (lo := 0) (n := 1)
    (by rw [hw]; omega)
  rw [decCrd, hsc, hacq, hlow]
  simp [h, ExtByte.onlyLat]
theorem decFence_encSR (k : Guard → FenceKind → Scope → Instr) (kind : FenceKind) (sc : Scope) :
    decFence (encSR maj g 0 0 ((0 : BitVec 2) ++ kind.code ++ sc.code) fn) 0 k = some (k g kind sc) := by
  have hw := toNat_encSR maj g 0 0 ((0 : BitVec 2) ++ kind.code ++ sc.code) fn
  simp only [toNat_append_eq, toNat_zero] at hw
  have hkind := fld_eq (lo := 6) (v := kind.code) (by rw [hw]; omega)
  have hsc := fld_eq (lo := 4) (v := sc.code) (by rw [hw]; omega)
  rw [decFence, if_pos ⟨fld_eq_zero (by rw [hw]; omega), by decide⟩, hkind, hsc]
  simp
end

section
variable (maj : BitVec 6) (g : Guard)

theorem decSysreg_word (dir : Bool) (r : SReg) (n : BitVec 12) (rd wr : Guard → SReg → BitVec 12 → Instr) :
    decSysreg (maj ++ g.bits ++ r ++ bit dir ++ (0 : BitVec 3) ++ n) 0 rd wr = some (if dir then wr g r n else rd g r n) := by
  rw [decSysreg, if_pos ⟨fld_eq_zero (by simp only [toNat_append_eq, toNat_zero]; omega), by decide⟩,
    ofWord_eq (g := g) (fld_eq (by simp only [toNat_append_eq, toNat_zero]; omega)),
    fld_eq (lo := 15) (v := bit dir) (by simp only [toNat_append_eq, toNat_zero]; omega),
      fld_eq (lo := 16) (v := r) (by simp only [toNat_append_eq, toNat_zero]; omega),
    fld_eq (lo := 0) (v := n) (by simp only [toNat_append_eq, toNat_zero]; omega)]
  cases dir <;> rfl
theorem decRRI_word (sub : BitVec 3) (k : Guard → Mods → SReg → Src → BitVec 14 → Instr) (m : Mods) (d : SReg) {a : Src} {imm : BitVec 14}
    (h : (a.okA && wfImmS (n := 7) imm (m.isNone && a.isReg)) = true) :
    decRRI (maj ++ g.bits ++ d ++ a.field ++ sub ++ imm.setWidth 7) (extS (n := 7) imm (modByte m.nw m.tv a.la 0)) k =
      some (k g m d a imm) := by
  obtain ⟨ha, himm⟩ := Bool.and_eq_true_iff.1 h
  obtain ⟨hi, hparse, hwiden⟩ := parse_extS (nw := m.nw) (tv := m.tv) (la := a.la) (lb := 0) himm fun hplain => by
    obtain ⟨hm, hreg⟩ := Bool.and_eq_true_iff.1 hplain
    obtain ⟨hnw, htv⟩ := Mods.eq_of_isNone hm
    exact ⟨hnw, htv, Src.la_of_isReg hreg, rfl⟩
  rw [decRRI, hparse, ofWord_eq (g := g) (fld_eq (by simp only [toNat_append_eq]; omega)),
    fld_eq (lo := 10) (v := a.field) (by simp only [toNat_append_eq]; omega),
    fld_eq (lo := 16) (v := d) (by simp only [toNat_append_eq]; omega),
      fld_eq (lo := 0) (v := imm.setWidth 7) (by simp only [toNat_append_eq]; omega)]
  simp [ha, hwiden]
theorem decMovi_word (k : Guard → Mods → SReg → BitVec 23 → Instr) (m : Mods) (d : SReg) {imm : BitVec 23}
    (h : wfImmS (n := 16) imm m.isNone = true) :
    decMovi (maj ++ g.bits ++ d ++ imm.setWidth 16) (extS (n := 16) imm (modByte m.nw m.tv 0 0)) k = some (k g m d imm) := by
  obtain ⟨hi, hparse, hwiden⟩ := parse_extS (la := 0) (lb := 0) h fun hm => ⟨(Mods.eq_of_isNone hm).1, (Mods.eq_of_isNone hm).2, rfl, rfl⟩
  rw [decMovi, hparse, if_pos ⟨rfl, rfl⟩, ofWord_eq (g := g) (fld_eq (by simp only [toNat_append_eq]; omega)),
    fld_eq (lo := 16) (v := d) (by simp only [toNat_append_eq]; omega),
      fld_eq (lo := 0) (v := imm.setWidth 16) (by simp only [toNat_append_eq]; omega), hwiden]
theorem decMovhi_word (k : Guard → Mods → SReg → BitVec 23 → Instr) (m : Mods) (d : SReg) {imm : BitVec 23}
    (h : wfImmU (n := 16) imm m.isNone = true) :
    decMovhi (maj ++ g.bits ++ d ++ imm.setWidth 16) (extU (n := 16) imm (modByte m.nw m.tv 0 0)) k = some (k g m d imm) := by
  obtain ⟨hi, hparse, hwiden⟩ := parse_extU (la := 0) (lb := 0) h fun hm => ⟨(Mods.eq_of_isNone hm).1, (Mods.eq_of_isNone hm).2, rfl, rfl⟩
  rw [decMovhi, hparse, if_pos ⟨rfl, rfl⟩, ofWord_eq (g := g) (fld_eq (by simp only [toNat_append_eq]; omega)),
    fld_eq (lo := 16) (v := d) (by simp only [toNat_append_eq]; omega),
      fld_eq (lo := 0) (v := imm.setWidth 16) (by simp only [toNat_append_eq]; omega), hwiden]
theorem decBr_word (k : Guard → BitVec 29 → Instr) {disp : BitVec 29} (h : wfImmS (n := 22) disp true = true) :
    decBr (maj ++ g.bits ++ disp.setWidth 22) (extS (n := 22) disp 0) k = some (k g disp) := by
  obtain ⟨hi, hparse, hwiden⟩ := parse_extS (nw := false) (tv := false) (la := 0) (lb := 0) h fun _ => ⟨rfl, rfl, rfl, rfl⟩
  rw [decBr, show (0 : BitVec 8) = modByte false false 0 0 from rfl, hparse, if_pos ⟨rfl, rfl, rfl, rfl⟩,
    ofWord_eq (g := g) (fld_eq (by simp only [toNat_append_eq]; omega)),
      fld_eq (lo := 0) (v := disp.setWidth 22) (by simp only [toNat_append_eq]; omega), hwiden]
theorem decLoop_word (k : Guard → SReg → BitVec 21 → Instr) (c : SReg) {e : BitVec 21}
    (h : (e != 0 && wfImmU (n := 14) e true) = true) :
    decLoop (maj ++ g.bits ++ c ++ (0 : BitVec 2) ++ e.setWidth 14) (extU (n := 14) e 0) k = some (k g c e) := by
  obtain ⟨hne, himm⟩ := Bool.and_eq_true_iff.1 h
  obtain ⟨hi, hparse, hwiden⟩ := parse_extU (nw := false) (tv := false) (la := 0) (lb := 0) himm fun _ => ⟨rfl, rfl, rfl, rfl⟩
  rw [decLoop, show (0 : BitVec 8) = modByte false false 0 0 from rfl, hparse, fld_eq (lo := 0) (v := e.setWidth 14) (by simp only [toNat_append_eq, toNat_zero]; omega), hwiden,
    if_pos ⟨rfl, rfl, rfl, rfl, fld_eq_zero (by simp only [toNat_append_eq, toNat_zero]; omega), bne_iff_ne.1 hne⟩,
      ofWord_eq (g := g) (fld_eq (by simp only [toNat_append_eq, toNat_zero]; omega)),
    fld_eq (lo := 16) (v := c) (by simp only [toNat_append_eq, toNat_zero]; omega)]
theorem decLoopi_word (k : Guard → BitVec 19 → BitVec 10 → Instr) {n : BitVec 19} {e : BitVec 10}
    (h : (e != 0 && wfImmU (n := 12) n true) = true) :
    decLoopi (maj ++ g.bits ++ n.setWidth 12 ++ e) (extU (n := 12) n 0) k = some (k g n e) := by
  obtain ⟨hne, himm⟩ := Bool.and_eq_true_iff.1 h
  obtain ⟨hi, hparse, hwiden⟩ := parse_extU (nw := false) (tv := false) (la := 0) (lb := 0) himm fun _ => ⟨rfl, rfl, rfl, rfl⟩
  rw [decLoopi, show (0 : BitVec 8) = modByte false false 0 0 from rfl, hparse, fld_eq (lo := 0) (v := e) (by simp only [toNat_append_eq]; omega),
    if_pos ⟨rfl, rfl, rfl, rfl, bne_iff_ne.1 hne⟩, ofWord_eq (g := g) (fld_eq (by simp only [toNat_append_eq]; omega)),
    fld_eq (lo := 10) (v := n.setWidth 12) (by simp only [toNat_append_eq]; omega), hwiden]
theorem decLd_word (k : Guard → Bool → SReg → Src → Size → Bool → BitVec 11 → Instr) (nw : Bool) (d : SReg) {a : Src} {z : Size}
    {x : Bool} {off : BitVec 11} (h : (a.okA && !(z == .d && x) && wfImmS (n := 4) off (!nw && a.isReg)) = true) :
    decLd (maj ++ g.bits ++ d ++ a.field ++ z.code ++ bit x ++ (0 : BitVec 3) ++ off.setWidth 4)
      (extS (n := 4) off (modByte nw false a.la 0)) k = some (k g nw d a z x off) := by
  obtain ⟨hax, himm⟩ := Bool.and_eq_true_iff.1 h
  obtain ⟨ha, hzx⟩ := Bool.and_eq_true_iff.1 hax
  obtain ⟨hi, hparse, hwiden⟩ := parse_extS (nw := nw) (tv := false) (la := a.la) (lb := 0) himm fun hplain => by
    obtain ⟨hnw, hreg⟩ := Bool.and_eq_true_iff.1 hplain
    exact ⟨by simpa using hnw, rfl, Src.la_of_isReg hreg, rfl⟩
  have hfree : ¬ (z.code = 3 ∧ bit x = 1) := by
    revert hzx
    cases z <;> cases x <;> decide
  rw [decLd, hparse, fld_eq (lo := 8) (v := z.code) (by simp only [toNat_append_eq, toNat_zero]; omega),
    fld_eq (lo := 7) (v := bit x) (by simp only [toNat_append_eq, toNat_zero]; omega),
    if_pos ⟨rfl, rfl, fld_eq_zero (by simp only [toNat_append_eq, toNat_zero]; omega), hfree⟩,
      ofWord_eq (g := g) (fld_eq (by simp only [toNat_append_eq, toNat_zero]; omega)),
      fld_eq (lo := 10) (v := a.field) (by simp only [toNat_append_eq, toNat_zero]; omega),
    fld_eq (lo := 16) (v := d) (by simp only [toNat_append_eq, toNat_zero]; omega),
      fld_eq (lo := 0) (v := off.setWidth 4) (by simp only [toNat_append_eq, toNat_zero]; omega)]
  simp [ha, hwiden]
theorem decSt_word (k : Guard → SReg → Src → Size → Bool → BitVec 3 → BitVec 11 → Instr) (d : SReg) {a : Src} (z : Size)
    (glob : Bool) (line : BitVec 3) {off : BitVec 11} (h : (a.okA && wfImmS (n := 4) off a.isReg) = true) :
    decSt (maj ++ g.bits ++ d ++ a.field ++ z.code ++ bit glob ++ line ++ off.setWidth 4)
      (extS (n := 4) off (modByte false false a.la 0)) k = some (k g d a z glob line off) := by
  obtain ⟨ha, himm⟩ := Bool.and_eq_true_iff.1 h
  obtain ⟨hi, hparse, hwiden⟩ := parse_extS (nw := false) (tv := false) (la := a.la) (lb := 0) himm fun hreg =>
    ⟨rfl, rfl, Src.la_of_isReg hreg, rfl⟩
  rw [decSt, hparse, if_pos ⟨rfl, rfl, rfl⟩, fld_eq (lo := 8) (v := z.code) (by simp only [toNat_append_eq]; omega),
    fld_eq (lo := 7) (v := bit glob) (by simp only [toNat_append_eq]; omega),
    fld_eq (lo := 4) (v := line) (by simp only [toNat_append_eq]; omega),
      ofWord_eq (g := g) (fld_eq (by simp only [toNat_append_eq]; omega)),
      fld_eq (lo := 10) (v := a.field) (by simp only [toNat_append_eq]; omega),
    fld_eq (lo := 16) (v := d) (by simp only [toNat_append_eq]; omega),
      fld_eq (lo := 0) (v := off.setWidth 4) (by simp only [toNat_append_eq]; omega)]
  simp [ha, hwiden]
end

section
variable (maj : BitVec 6) (sel : Bool) (g : Guard) (ct : Comb) (p q : PReg) (a b : BitVec 6)

theorem toNat_encSC : (encSC maj sel g ct p q a b).toNat =
    ((((((maj.toNat * 2 ^ 4 + g.bits.toNat) * 2 ^ 3 + ct.code.toNat) * 2 ^ 3 + p.toNat) * 2 ^ 3 + q.toNat) * 2 ^ 1 +
      (bit sel).toNat) * 2 ^ 6 + a.toNat) * 2 ^ 6 + b.toNat := by
  simp only [encSC, toNat_append_eq]
@[simp] theorem fld_major_encSC : fld (encSC maj sel g ct p q a b) 26 6 = maj := fld_eq (by rw [toNat_encSC]; omega)
@[simp] theorem fld_sel_encSC : fld (encSC maj sel g ct p q a b) 12 1 = bit sel := fld_eq (by rw [toNat_encSC]; omega)
@[simp] theorem ofWord_encSC : Guard.ofWord (encSC maj sel g ct p q a b) = g := ofWord_eq (fld_eq (by rw [toNat_encSC]; omega))
@[simp] theorem fld_ct_encSC : fld (encSC maj sel g ct p q a b) 19 3 = ct.code := fld_eq (by rw [toNat_encSC]; omega)
@[simp] theorem fld_p_encSC : fld (encSC maj sel g ct p q a b) 16 3 = p := fld_eq (by rw [toNat_encSC]; omega)
@[simp] theorem fld_q_encSC : fld (encSC maj sel g ct p q a b) 13 3 = q := fld_eq (by rw [toNat_encSC]; omega)
@[simp] theorem fld_a_encSC : fld (encSC maj sel g ct p q a b) 6 6 = a := fld_eq (by rw [toNat_encSC]; omega)
@[simp] theorem fld_b_encSC : fld (encSC maj sel g ct p q a b) 0 6 = b := fld_eq (by rw [toNat_encSC]; omega)
end

section
variable (maj : BitVec 6) (sel : Bool) (g : Guard) (tv : Bool) (ct : Comb) (p q : PReg)

theorem decCmpR_encSC (k : Guard → Bool → Comb → PReg → PReg → Src → Src → Instr) {a b : Src} (h : (a.okA && b.okB) = true) :
    decCmpR (encSC maj sel g ct p q a.field b.field) (modByte false tv a.la b.lb) k = some (k g tv ct p q a b) := by
  obtain ⟨ha, hb⟩ := Bool.and_eq_true_iff.1 h
  simp [decCmpR, ha, hb]
theorem decCmpI_encSC_signed (k : Guard → Bool → Comb → PReg → PReg → Src → BitVec 13 → Instr) {a : Src} {imm : BitVec 13}
    (h : (a.okA && wfImmS (n := 6) imm (!tv && a.isReg)) = true) :
    decCmpI true (encSC maj sel g ct p q a.field (imm.setWidth 6)) (extS (n := 6) imm (modByte false tv a.la 0)) k =
      some (k g tv ct p q a imm) := by
  obtain ⟨ha, himm⟩ := Bool.and_eq_true_iff.1 h
  obtain ⟨hi, hparse, hwiden⟩ := parse_extS (nw := false) (tv := tv) (la := a.la) (lb := 0) himm fun hplain => by
    obtain ⟨htv, hreg⟩ := Bool.and_eq_true_iff.1 hplain
    exact ⟨rfl, by simpa using htv, Src.la_of_isReg hreg, rfl⟩
  rw [decCmpI, hparse, if_pos ⟨rfl, rfl⟩]
  simp [ha, hwiden]
theorem decCmpI_encSC_unsigned (k : Guard → Bool → Comb → PReg → PReg → Src → BitVec 13 → Instr) {a : Src} {imm : BitVec 13}
    (h : (a.okA && wfImmU (n := 6) imm (!tv && a.isReg)) = true) :
    decCmpI false (encSC maj sel g ct p q a.field (imm.setWidth 6)) (extU (n := 6) imm (modByte false tv a.la 0)) k =
      some (k g tv ct p q a imm) := by
  obtain ⟨ha, himm⟩ := Bool.and_eq_true_iff.1 h
  obtain ⟨hi, hparse, hwiden⟩ := parse_extU (nw := false) (tv := tv) (la := a.la) (lb := 0) himm fun hplain => by
    obtain ⟨htv, hreg⟩ := Bool.and_eq_true_iff.1 hplain
    exact ⟨rfl, by simpa using htv, Src.la_of_isReg hreg, rfl⟩
  rw [decCmpI, hparse, if_pos ⟨rfl, rfl⟩]
  simp [ha, hwiden]
end
/-! ### The vector formats (R46) -/

section
variable (maj : BitVec 6) (k : MReg) (u : Bool) (d a b : BitVec 5) (t : BitVec 3) (fn : BitVec 4)

theorem toNat_encV : (encV maj k u d a b t fn).toNat =
    ((((((maj.toNat * 2 ^ 3 + k.toNat) * 2 ^ 1 + (bit u).toNat) * 2 ^ 5 + d.toNat) * 2 ^ 5 + a.toNat) * 2 ^ 5 + b.toNat) * 2 ^ 3 +
      t.toNat) * 2 ^ 4 + fn.toNat := by
  simp only [encV, toNat_append_eq]
@[simp] theorem fld_major_encV : fld (encV maj k u d a b t fn) 26 6 = maj := fld_eq (by rw [toNat_encV]; omega)
@[simp] theorem vMask_encV : vMask (encV maj k u d a b t fn) = k := fld_eq (by rw [toNat_encV]; omega)
@[simp] theorem vUnit_encV : vUnit (encV maj k u d a b t fn) = u := by
  rw [vUnit, fld_eq (v := bit u) (by rw [toNat_encV]; omega)]
  exact bit_beq_one u
@[simp] theorem fld_d_encV : fld (encV maj k u d a b t fn) 17 5 = d := fld_eq (by rw [toNat_encV]; omega)
@[simp] theorem fld_a_encV : fld (encV maj k u d a b t fn) 12 5 = a := fld_eq (by rw [toNat_encV]; omega)
@[simp] theorem fld_b_encV : fld (encV maj k u d a b t fn) 7 5 = b := fld_eq (by rw [toNat_encV]; omega)
@[simp] theorem fld_t_encV : fld (encV maj k u d a b t fn) 4 3 = t := fld_eq (by rw [toNat_encV]; omega)
@[simp] theorem fld_fn_encV : fld (encV maj k u d a b t fn) 0 4 = fn := fld_eq (by rw [toNat_encV]; omega)
@[simp] theorem fld_ab_encV : fld (encV maj k u d a b t fn) 7 10 = a ++ b := fld_eq (by rw [toNat_encV, toNat_append_eq]; omega)
end

@[simp] theorem vType_encV (maj : BitVec 6) (k : MReg) (u : Bool) (d a b : BitVec 5) (t : ElemT) (fn : BitVec 4) :
    vType (encV maj k u d a b t.code fn) = t := by
  rw [vType, fld_t_encV, ElemT.ofCode_code]

section
variable (maj : BitVec 6) (k : MReg) (u : Bool) (m : Mods) (tv : Bool) (d : BitVec 5) (fn : BitVec 4) {a b : VSrc} {t : ElemT}

theorem decV3_encV {ok : ElemT → Bool} (f : MReg → Bool → Mods → VReg → VSrc → VSrc → ElemT → Instr)
    (h : (a.okA && b.okB && ok t) = true) :
    decV3 ok (encV maj k u d a.field b.field t.code fn) (modByte m.nw m.tv a.la b.lb) f = some (f k u m d a b t) := by
  simp only [Bool.and_eq_true] at h
  simp [decV3, h]
theorem decV2_encV {ok : ElemT → Bool} (f : MReg → Bool → Mods → VReg → VSrc → ElemT → Instr) (h : (a.okA && ok t) = true) :
    decV2 ok (encV maj k u d a.field 0 t.code fn) (modByte m.nw m.tv a.la 0) f = some (f k u m d a t) := by
  simp only [Bool.and_eq_true] at h
  simp [decV2, h]
theorem decVcmp_encV {ok : ElemT → Bool} (f : MReg → Bool → Bool → MReg → BitVec 2 → VSrc → VSrc → ElemT → Instr) (n : MReg)
    (c : BitVec 2) (h : (a.okA && b.okB && ok t) = true) :
    decVcmp ok (encV maj k u (n ++ c) a.field b.field t.code fn) (modByte false tv a.la b.lb) f = some (f k u tv n c a b t) := by
  simp only [Bool.and_eq_true] at h
  have hw := toNat_encV maj k u (n ++ c) a.field b.field t.code fn
  rw [toNat_append_eq n c] at hw
  rw [decVcmp, fld_eq (lo := 19) (v := n) (by rw [hw]; omega), fld_eq (lo := 17) (v := c) (by rw [hw]; omega)]
  simp [h]
theorem decMMM_encV (f : Bool → Bool → MReg → MReg → MReg → Instr) {d : MReg} (a b : MReg) (h : (d != 0) = true) :
    decMMM (encV maj 0 u ((0 : BitVec 2) ++ d) ((0 : BitVec 2) ++ a) ((0 : BitVec 2) ++ b) 0 fn) (modByte false tv 0 0) f =
      some (f u tv d a b) := by
  have hw := toNat_encV maj 0 u ((0 : BitVec 2) ++ d) ((0 : BitVec 2) ++ a) ((0 : BitVec 2) ++ b) 0 fn
  simp only [toNat_append_eq, toNat_zero] at hw
  rw [decMMM, parse_modByte, fld_eq (lo := 17) (v := d) (by rw [hw]; omega), if_pos ⟨rfl, rfl, rfl, rfl, vMask_encV .., fld_t_encV ..,
    fld_eq_zero (by rw [hw]; omega), fld_eq_zero (by rw [hw]; omega), fld_eq_zero (by rw [hw]; omega), bne_iff_ne.1 h⟩,
    fld_eq (lo := 12) (v := a) (by rw [hw]; omega), fld_eq (lo := 7) (v := b) (by rw [hw]; omega), vUnit_encV]
theorem decMM_encV (f : Bool → Bool → MReg → MReg → Instr) {d : MReg} (a : MReg) (h : (d != 0) = true) :
    decMM (encV maj 0 u ((0 : BitVec 2) ++ d) ((0 : BitVec 2) ++ a) ((0 : BitVec 2) ++ (0 : MReg)) 0 fn) (modByte false tv 0 0) f =
      some (f u tv d a) := by
  rw [decMM, fld_b_encV, if_pos (by decide), decMMM_encV maj u tv fn _ a 0 h]
theorem decMpop_encV (f : MReg → Bool → Bool → BitVec 5 → MReg → ElemT → Instr) (a : MReg) (h : t.isInt = true) :
    decMpop (encV maj k u d ((0 : BitVec 2) ++ a) 0 t.code fn) (modByte false tv 0 0) f = some (f k u tv d a t) := by
  have hw := toNat_encV maj k u d ((0 : BitVec 2) ++ a) 0 t.code fn
  simp only [toNat_append_eq, toNat_zero] at hw
  rw [decMpop, parse_modByte, if_pos ⟨rfl, rfl, rfl, rfl, fld_eq_zero (by rw [hw]; omega), fld_b_encV .., by rw [vType_encV, h]⟩,
    fld_eq (lo := 12) (v := a) (by rw [hw]; omega)]
  simp
theorem decMfroms_encV (f : Bool → Bool → MReg → VSrc → ElemT → Instr) {d : MReg} (h : (d != 0 && a.okA && t.isInt) = true) :
    decMfroms (encV maj 0 u ((0 : BitVec 2) ++ d) a.field 0 t.code fn) (modByte false tv a.la 0) f = some (f u tv d a t) := by
  simp only [Bool.and_eq_true, bne_iff_ne] at h
  obtain ⟨⟨hd, ha⟩, ht⟩ := h
  have hw := toNat_encV maj 0 u ((0 : BitVec 2) ++ d) a.field 0 t.code fn
  simp only [toNat_append_eq, toNat_zero] at hw
  rw [decMfroms, parse_modByte, fld_eq (lo := 17) (v := d) (by rw [hw]; omega), if_pos ⟨rfl, rfl, rfl, vMask_encV ..,
    fld_eq_zero (by rw [hw]; omega), fld_b_encV .., hd, by rw [vType_encV, ht]⟩]
  simp [ha]
theorem decVext_encV (f : Bool → Bool → BitVec 5 → VSrc → VSrc → ElemT → Instr) (h : (a.okA && b.okB && t.isInt) = true) :
    decVext (encV maj 0 u d a.field b.field t.code fn) (modByte false tv a.la b.lb) f = some (f u tv d a b t) := by
  simp only [Bool.and_eq_true] at h
  simp [decVext, h]
theorem decVcompress_encV (f : MReg → Bool → Mods → VReg → VSrc → BitVec 5 → ElemT → Instr) (b : BitVec 5)
    (h : (a.okA && t.isInt) = true) :
    decVcompress (encV maj k u d a.field b t.code fn) (modByte m.nw m.tv a.la 0) f = some (f k u m d a b t) := by
  simp only [Bool.and_eq_true] at h
  simp [decVcompress, h]
theorem decViota_encV (f : MReg → Bool → Mods → VReg → ElemT → Instr) (h : t.isInt = true) :
    decViota (encV maj k u d 0 0 t.code fn) (modByte m.nw m.tv 0 0) f = some (f k u m d t) := by
  simp [decViota, h]
theorem decVcvt_encV (f : MReg → Bool → Mods → VReg → VSrc → BitVec 2 → ElemT → ElemT → Instr) (sr : Bool) (p : BitVec 2) {e : ElemT}
    (h : (a.okA && wfPart t e p) = true) :
    decVcvt (encV maj k u d a.field ((0 : BitVec 3) ++ p) t.code (bit sr ++ e.code)) (modByte m.nw m.tv a.la 0) f =
      some (f k u m d a p t e) := by
  obtain ⟨ha, hp⟩ := Bool.and_eq_true_iff.1 h
  have hw := toNat_encV maj k u d a.field ((0 : BitVec 3) ++ p) t.code (bit sr ++ e.code)
  simp only [toNat_append_eq, toNat_zero] at hw
  rw [decVcvt, parse_modByte, fld_eq (lo := 0) (v := e.code) (by rw [hw]; omega), fld_eq (lo := 7) (v := p) (by rw [hw]; omega),
    ElemT.ofCode_code, vType_encV, if_pos ⟨rfl, rfl, fld_eq_zero (by rw [hw]; omega), hp⟩]
  simp [ha]
theorem decVqmx_encV (f : MReg → Bool → Mods → VReg → VSrc → BitVec 5 → Instr) (b : BitVec 5) (h : a.okA = true) :
    decVqmx (encV maj k u d a.field b 5 fn) (modByte m.nw m.tv a.la 0) f = some (f k u m d a b) := by
  simp [decVqmx, h]
theorem decVdqmx_encV (f : MReg → Bool → Mods → VReg → VSrc → VSrc → Instr) (ty : BitVec 3) (h : (a.okA && b.okB) = true) :
    decVdqmx ty (encV maj k u d a.field b.field ty fn) (modByte m.nw m.tv a.la b.lb) f = some (f k u m d a b) := by
  simp only [Bool.and_eq_true] at h
  simp [decVdqmx, h]
theorem decVsplati_word (f : MReg → Bool → Mods → VReg → BitVec 17 → ElemT → Instr) {imm : BitVec 17}
    (h : (t.isInt && wfImmS (n := 10) imm m.isNone) = true) :
    decVsplati (maj ++ k ++ bit u ++ d ++ imm.setWidth 10 ++ t.code ++ fn) (extS (n := 10) imm (modByte m.nw m.tv 0 0)) f =
      some (f k u m d imm t) := by
  obtain ⟨ht, himm⟩ := Bool.and_eq_true_iff.1 h
  obtain ⟨hi, hparse, hwiden⟩ := parse_extS (la := 0) (lb := 0) himm fun hm => ⟨(Mods.eq_of_isNone hm).1, (Mods.eq_of_isNone hm).2, rfl, rfl⟩
  rw [decVsplati, hparse, vType, vMask, vUnit, fld_eq (lo := 4) (v := t.code) (by simp only [toNat_append_eq]; omega), ElemT.ofCode_code,
    if_pos ⟨rfl, rfl, ht⟩, fld_eq (lo := 23) (v := k) (by simp only [toNat_append_eq]; omega),
    fld_eq (lo := 22) (v := bit u) (by simp only [toNat_append_eq]; omega),
      fld_eq (lo := 17) (v := d) (by simp only [toNat_append_eq]; omega),
    fld_eq (lo := 7) (v := imm.setWidth 10) (by simp only [toNat_append_eq]; omega)]
  simp [hwiden]
end

/-! ### Vector loads and stores -/

section
variable (maj : BitVec 6) (k : MReg) (u : Bool) (d : BitVec 5) (base st : BitVec 6) (mode : BitVec 2) (line : BitVec 3)

theorem toNat_encVMem : (encVMem maj k u d base st mode line).toNat =
    ((((((maj.toNat * 2 ^ 3 + k.toNat) * 2 ^ 1 + (bit u).toNat) * 2 ^ 5 + d.toNat) * 2 ^ 6 + base.toNat) * 2 ^ 6 + st.toNat) * 2 ^ 2 +
      mode.toNat) * 2 ^ 3 + line.toNat := by
  simp only [encVMem, toNat_append_eq]
@[simp] theorem fld_major_encVMem : fld (encVMem maj k u d base st mode line) 26 6 = maj := fld_eq (by rw [toNat_encVMem]; omega)
@[simp] theorem vMask_encVMem : vMask (encVMem maj k u d base st mode line) = k := fld_eq (by rw [toNat_encVMem]; omega)
@[simp] theorem vUnit_encVMem : vUnit (encVMem maj k u d base st mode line) = u := by
  rw [vUnit, fld_eq (v := bit u) (by rw [toNat_encVMem]; omega)]
  exact bit_beq_one u
@[simp] theorem fld_d_encVMem : fld (encVMem maj k u d base st mode line) 17 5 = d := fld_eq (by rw [toNat_encVMem]; omega)
@[simp] theorem fld_base_encVMem : fld (encVMem maj k u d base st mode line) 11 6 = base := fld_eq (by rw [toNat_encVMem]; omega)
@[simp] theorem fld_st_encVMem : fld (encVMem maj k u d base st mode line) 5 6 = st := fld_eq (by rw [toNat_encVMem]; omega)
@[simp] theorem fld_mode_encVMem : fld (encVMem maj k u d base st mode line) 3 2 = mode := fld_eq (by rw [toNat_encVMem]; omega)
@[simp] theorem fld_line_encVMem : fld (encVMem maj k u d base st mode line) 0 3 = line := fld_eq (by rw [toNat_encVMem]; omega)
theorem fld_idx_encVMem (idx : BitVec 5) : fld (encVMem maj k u d base ((0 : BitVec 1) ++ idx) mode line) 10 1 = 0 ∧
    fld (encVMem maj k u d base ((0 : BitVec 1) ++ idx) mode line) 5 5 = idx := by
  have hw := toNat_encVMem maj k u d base ((0 : BitVec 1) ++ idx) mode line
  simp only [toNat_append_eq, toNat_zero] at hw
  exact ⟨fld_eq_zero (by rw [hw]; omega), fld_eq (by rw [hw]; omega)⟩
end

section
variable (maj : BitVec 6) (k : MReg) (u : Bool) (d : VReg) (line : BitVec 3) {base st : Src} {idx : VSrc}

section
variable (c : MReg → Bool → VReg → Src → Instr) (s s16 : MReg → Bool → VReg → Src → Src → Instr)
  (g : MReg → Bool → VReg → Src → VSrc → Instr)

theorem decVld_whole (h : base.okA = true) :
    decVld (encVMem maj k u d base.field 0 0 0) (modByte false false base.la 0) c s s16 g = some (c k u d base) := by
  simp [decVld, ExtByte.onlyLat, h]
theorem decVld_strided (h : (base.okA && st.okB) = true) :
    decVld (encVMem maj k u d base.field st.field 1 0) (modByte false false base.la st.lb) c s s16 g = some (s k u d base st) := by
  simp only [Bool.and_eq_true] at h
  simp [decVld, ExtByte.onlyLat, h]
theorem decVld_strided16 (h : (base.okA && st.okB) = true) :
    decVld (encVMem maj k u d base.field st.field 3 0) (modByte false false base.la st.lb) c s s16 g = some (s16 k u d base st) := by
  simp only [Bool.and_eq_true] at h
  simp [decVld, ExtByte.onlyLat, h]
theorem decVld_gather (h : (base.okA && idx.okB) = true) :
    decVld (encVMem maj k u d base.field ((0 : BitVec 1) ++ idx.field) 2 0) (modByte false false base.la idx.lb) c s s16 g =
      some (g k u d base idx) := by
  simp only [Bool.and_eq_true] at h
  obtain ⟨htop, hidx⟩ := fld_idx_encVMem maj k u d base.field 2 0 idx.field
  rw [decVld, htop, hidx]
  simp [ExtByte.onlyLat, h]
end

section
variable (c : MReg → Bool → VReg → Src → BitVec 3 → Instr) (s s16 : MReg → Bool → VReg → Src → Src → BitVec 3 → Instr)
  (g : MReg → Bool → VReg → Src → VSrc → BitVec 3 → Instr)

theorem decVst_whole (h : base.okA = true) :
    decVst (encVMem maj k u d base.field 0 0 line) (modByte false false base.la 0) c s s16 g = some (c k u d base line) := by
  simp [decVst, ExtByte.onlyLat, h]
theorem decVst_strided (h : (base.okA && st.okB) = true) :
    decVst (encVMem maj k u d base.field st.field 1 line) (modByte false false base.la st.lb) c s s16 g =
      some (s k u d base st line) := by
  simp only [Bool.and_eq_true] at h
  simp [decVst, ExtByte.onlyLat, h]
theorem decVst_strided16 (h : (base.okA && st.okB) = true) :
    decVst (encVMem maj k u d base.field st.field 3 line) (modByte false false base.la st.lb) c s s16 g =
      some (s16 k u d base st line) := by
  simp only [Bool.and_eq_true] at h
  simp [decVst, ExtByte.onlyLat, h]
theorem decVst_scatter (h : (base.okA && idx.okB) = true) :
    decVst (encVMem maj k u d base.field ((0 : BitVec 1) ++ idx.field) 2 line) (modByte false false base.la idx.lb) c s s16 g =
      some (g k u d base idx line) := by
  simp only [Bool.and_eq_true] at h
  obtain ⟨htop, hidx⟩ := fld_idx_encVMem maj k u d base.field 2 line idx.field
  rw [decVst, htop, hidx]
  simp [ExtByte.onlyLat, h]
end
end

/-! ### The formats of the engines (R47) -/

section
variable (maj : BitVec 6) (g : Guard) (a b c : SReg) (fn : BitVec 4)

theorem decGABC_encSR (k : Guard → SReg → SReg → SReg → Instr) : decGABC (encSR maj g a b c fn) 0 k = some (k g a b c) := by
  simp [decGABC]
theorem decGAB_encSR (k : Guard → SReg → SReg → Instr) : decGAB (encSR maj g a b 0 fn) 0 k = some (k g a b) := by
  simp [decGAB, decGABC]
theorem decGA_encSR (k : Guard → SReg → Instr) : decGA (encSR maj g a 0 0 fn) 0 k = some (k g a) := by
  simp [decGA, decGABC]
theorem decGABC5_encSR (k : Guard → SReg → SReg → SReg → Instr) (h : decide (c.toNat ≤ 59) = true) :
    decGABC5 (encSR maj g a b c fn) 0 k = some (k g a b c) := by
  rw [decGABC5, fld_b_encSR, if_pos (of_decide_eq_true h), decGABC_encSR]
theorem decGAC5_encSR (k : Guard → SReg → SReg → Instr) (h : decide (c.toNat ≤ 59) = true) :
    decGAC5 (encSR maj g a 0 c fn) 0 k = some (k g a c) := by
  rw [decGAC5, fld_a_encSR, if_pos rfl, decGABC5_encSR _ _ _ _ _ _ _ h]
theorem decBlk_encSR (k : Guard → SReg → SReg → SReg → Instr) (h : wfGroup a 4 = true) :
    decBlk (encSR maj g a b c fn) 0 k = some (k g a b c) := by
  rw [decBlk, fld_d_encSR, if_pos (of_decide_eq_true h), decGABC_encSR]
theorem decCpy_encSR {n : Nat} (k : Guard → SReg → SReg → SReg → Bool → Instr) (q : Bool) (code : BitVec 3) (h : wfGroup a n = true) :
    decCpy n (encSR maj g a b c (bit q ++ code)) 0 k = some (k g a b c q) := by
  have hq : fld (encSR maj g a b c (bit q ++ code)) 3 1 = bit q := fld_eq (by rw [toNat_encSR, toNat_append_eq]; omega)
  rw [decCpy, fld_d_encSR, if_pos (of_decide_eq_true h), decGABC_encSR, hq]
  simp
theorem fld_code_encSR_bit (q : Bool) (code : BitVec 3) : fld (encSR maj g a b c (bit q ++ code)) 0 3 = code :=
  fld_eq (by rw [toNat_encSR, toNat_append_eq]; omega)

section
variable (msk hb ha z : Bool)

theorem fld_flags_encSR (c : SReg) : fld (encSR maj g a b c (bit msk ++ bit hb ++ bit ha ++ bit z)) 3 1 = bit msk ∧
    fld (encSR maj g a b c (bit msk ++ bit hb ++ bit ha ++ bit z)) 2 1 = bit hb ∧
    fld (encSR maj g a b c (bit msk ++ bit hb ++ bit ha ++ bit z)) 1 1 = bit ha ∧
    fld (encSR maj g a b c (bit msk ++ bit hb ++ bit ha ++ bit z)) 0 1 = bit z := by
  have hw := toNat_encSR maj g a b c (bit msk ++ bit hb ++ bit ha ++ bit z)
  simp only [toNat_append_eq] at hw
  exact ⟨fld_eq (by rw [hw]; omega), fld_eq (by rw [hw]; omega), fld_eq (by rw [hw]; omega), fld_eq (by rw [hw]; omega)⟩
variable (k : Guard → SReg → SReg → Bool → Bool → Bool → Instr) (km : Guard → SReg → SReg → SReg → Bool → Bool → Bool → Instr)
theorem decCmma_plain : decCmma (encSR maj g a b 0 (bit false ++ bit hb ++ bit ha ++ bit z)) 0 k km = some (k g a b hb ha z) := by
  obtain ⟨h3, h2, h1, h0⟩ := fld_flags_encSR maj g a b false hb ha z 0
  rw [decCmma, h3, h2, h1, h0]
  simp
theorem decCmma_masked (h : (c != 0 && decide (c.toNat ≤ 61)) = true) :
    decCmma (encSR maj g a b c (bit true ++ bit hb ++ bit ha ++ bit z)) 0 k km = some (km g a b c hb ha z) := by
  simp only [Bool.and_eq_true, bne_iff_ne, decide_eq_true_eq] at h
  obtain ⟨h3, h2, h1, h0⟩ := fld_flags_encSR maj g a b true hb ha z c
  rw [decCmma, h3, h2, h1, h0, fld_b_encSR, if_pos rfl, if_neg (by decide), if_pos h]
  simp
end
end
/-- ALUI tells its operations by three bits (R170). -/
theorem decodeSlot_encRRI {g : Guard} {m : Mods} {d : SReg} {a : Src} {imm : BitVec 14} {sub : BitVec 3}
    {k : Guard → Mods → SReg → Src → BitVec 14 → Instr} (h : (a.okA && wfImmS (n := 7) imm (m.isNone && a.isReg)) = true)
    (hcode : ∀ w x, fld w 7 3 = sub → majorAlui w x = decRRI w x k) :
    decodeSlot (encRRI sub g m d a imm).word (encRRI sub g m d a imm).ext = some (k g m d a imm) := by
  have hmajor : fld (encRRI sub g m d a imm).word 26 6 = 6 := fld_eq (by simp only [encRRI, toNat_append_eq]; omega)
  have hsub : fld (encRRI sub g m d a imm).word 7 3 = sub := fld_eq (by simp only [encRRI, toNat_append_eq]; omega)
  rw [decodeSlot, hmajor]
  exact (hcode _ _ hsub).trans (decRRI_word (h := h) ..)
/-- The lowest of a conversion's codes tells the stochastic form (R213). -/
theorem fld_sr_encV (maj : BitVec 6) (k : MReg) (u : Bool) (d a b : BitVec 5) (t : BitVec 3) (sr : Bool) (e : BitVec 3) :
    fld (encV maj k u d a b t (bit sr ++ e)) 3 1 = bit sr :=
  fld_eq (by rw [toNat_encV, toNat_append_eq]; omega)

/-! ### Every slot instruction -/

/-- Settles O10: each instruction's major and code lead to the decoder of its format, which reads its fields back. -/
theorem decodeEncodeAgree : Obligations.DecodeEncodeAgree := by
  unfold Obligations.DecodeEncodeAgree
  intro i hslot hwf
  cases i
  case nop => exact ⟨_, rfl, by decide⟩
  case halt g | yield g | eret g | iflush g | brk g =>
    refine ⟨_, rfl, ?_⟩
    show decodeSlot (encSR _ _ _ _ _ _) _ = _
    rw [decodeSlot, fld_major_encSR]
    show majorSys (encSR _ _ _ _ _ _) _ = _
    rw [majorSys, fld_fn_encSR]
    exact decG_encSR ..
  case trap g code =>
    refine ⟨_, rfl, ?_⟩
    show decodeSlot (encSR _ _ _ _ _ _) _ = _
    rw [decodeSlot, fld_major_encSR]
    show majorSys (encSR _ _ _ _ _ _) _ = _
    rw [majorSys, fld_fn_encSR]
    exact decTrap_encSR ..
  case tlbi g d a code =>
    refine ⟨_, rfl, ?_⟩
    show decodeSlot (encSR _ _ _ _ _ _) _ = _
    rw [decodeSlot, fld_major_encSR]
    show majorSys (encSR _ _ _ _ _ _) _ = _
    rw [majorSys, fld_fn_encSR]
    exact decTlbi_encSR (h := hwf) ..
  case noise g d | cyc g d | self g d =>
    refine ⟨_, rfl, ?_⟩
    show decodeSlot (encSR _ _ _ _ _ _) _ = _
    rw [decodeSlot, fld_major_encSR]
    show majorSys (encSR _ _ _ _ _ _) _ = _
    rw [majorSys, fld_fn_encSR]
    exact decGD_encSR ..
  case sysrd g d n =>
    refine ⟨_, rfl, ?_⟩
    have hmajor : fld (encSysreg false g d n).word 26 6 = 0x1 := fld_eq (by simp only [encSysreg, toNat_append_eq]; omega)
    rw [decodeSlot, hmajor]
    exact decSysreg_word ..
  case syswr g s n =>
    refine ⟨_, rfl, ?_⟩
    have hmajor : fld (encSysreg true g s n).word 26 6 = 0x1 := fld_eq (by simp only [encSysreg, toNat_append_eq]; omega)
    rw [decodeSlot, hmajor]
    exact decSysreg_word ..
  case add g m d a b | sub g m d a b | and g m d a b | or g m d a b | xor g m d a b | andn g m d a b | orn g m d a b |
      shl g m d a b | shr g m d a b | sar g m d a b | rol g m d a b | min g m d a b | max g m d a b | minn g m d a b |
      maxn g m d a b | ror g m d a b =>
    refine ⟨_, rfl, ?_⟩
    show decodeSlot (encSR _ _ _ _ _ _) _ = _
    rw [decodeSlot, fld_major_encSR]
    show majorAlu (encSR _ _ _ _ _ _) _ = _
    rw [majorAlu, fld_fn_encSR]
    exact decRRR_encSR (h := hwf) ..
  case mul g m d a b | mulh g m d a b | mulhn g m d a b | div g m d a b | divn g m d a b | rem g m d a b | remn g m d a b |
      sext g m d a b | zext g m d a b =>
    refine ⟨_, rfl, ?_⟩
    show decodeSlot (encSR _ _ _ _ _ _) _ = _
    rw [decodeSlot, fld_major_encSR]
    show majorAlu2 (encSR _ _ _ _ _ _) _ = _
    rw [majorAlu2, fld_fn_encSR]
    exact decRRR_encSR (h := hwf) ..
  case popc g m d a | clz g m d a | ctz g m d a | brev g m d a | bswap g m d a | abs g m d a =>
    refine ⟨_, rfl, ?_⟩
    show decodeSlot (encSR _ _ _ _ _ _) _ = _
    rw [decodeSlot, fld_major_encSR]
    show majorAlu2 (encSR _ _ _ _ _ _) _ = _
    rw [majorAlu2, fld_fn_encSR]
    exact decRR_encSR (h := hwf) ..
  case bfxs g m d a b | bfxn g m d a b | bfi g m d a b | fshl g m d a b | fshr g m d a b =>
    refine ⟨_, rfl, ?_⟩
    show decodeSlot (encSR _ _ _ _ _ _) _ = _
    rw [decodeSlot, fld_major_encSR]
    show majorBitf (encSR _ _ _ _ _ _) _ = _
    rw [majorBitf, fld_fn_encSR]
    exact decRRR_encSR (h := hwf) ..
  case fadd g m d a b | fsub g m d a b | fmul g m d a b | ffma g m d a b | fmin g m d a b | fmax g m d a b =>
    refine ⟨_, rfl, ?_⟩
    show decodeSlot (encSR _ _ _ _ _ _) _ = _
    rw [decodeSlot, fld_major_encSR]
    show majorFpu (encSR _ _ _ _ _ _) _ = _
    rw [majorFpu, fld_fn_encSR]
    exact decRRR_encSR (h := hwf) ..
  case fabs g m d a | fneg g m d a | fcvtif g m d a | fcvtnf g m d a | fcvtfi g m d a | fcvtfn g m d a | fsqrt g m d a =>
    refine ⟨_, rfl, ?_⟩
    show decodeSlot (encSR _ _ _ _ _ _) _ = _
    rw [decodeSlot, fld_major_encSR]
    show majorFpu (encSR _ _ _ _ _ _) _ = _
    rw [majorFpu, fld_fn_encSR]
    exact decRR_encSR (h := hwf) ..
  case addi g m d a imm | andi g m d a imm | ori g m d a imm | xori g m d a imm | shli g m d a imm | shri g m d a imm |
      sari g m d a imm | muli g m d a imm =>
    refine ⟨_, rfl, ?_⟩
    exact decodeSlot_encRRI hwf fun w x h => by rw [majorAlui, h]; rfl
  case movi g m d imm =>
    refine ⟨_, rfl, ?_⟩
    have hmajor : fld (encMovi g m d imm).word 26 6 = 0x7 := fld_eq (by simp only [encMovi, toNat_append_eq]; omega)
    rw [decodeSlot, hmajor]
    exact decMovi_word (h := hwf) ..
  case movhi g m d imm =>
    refine ⟨_, rfl, ?_⟩
    have hmajor : fld (encMovhi g m d imm).word 26 6 = 0x8 := fld_eq (by simp only [encMovhi, toNat_append_eq]; omega)
    rw [decodeSlot, hmajor]
    exact decMovhi_word (h := hwf) ..
  case cmpeq g tv ct p q a b =>
    refine ⟨_, rfl, ?_⟩
    show decodeSlot (encSC _ _ _ _ _ _ _ _) _ = _
    rw [decodeSlot, fld_major_encSC]
    exact (if_pos (by simp)).trans (decCmpR_encSC (h := hwf) ..)
  case cmpeqImm g tv ct p q a imm =>
    refine ⟨_, rfl, ?_⟩
    show decodeSlot (encSC _ _ _ _ _ _ _ _) _ = _
    rw [decodeSlot, fld_major_encSC]
    exact (if_neg (by simp)).trans (decCmpI_encSC_signed (h := hwf) ..)
  case cmpne g tv ct p q a b =>
    refine ⟨_, rfl, ?_⟩
    show decodeSlot (encSC _ _ _ _ _ _ _ _) _ = _
    rw [decodeSlot, fld_major_encSC]
    exact (if_pos (by simp)).trans (decCmpR_encSC (h := hwf) ..)
  case cmpneImm g tv ct p q a imm =>
    refine ⟨_, rfl, ?_⟩
    show decodeSlot (encSC _ _ _ _ _ _ _ _) _ = _
    rw [decodeSlot, fld_major_encSC]
    exact (if_neg (by simp)).trans (decCmpI_encSC_signed (h := hwf) ..)
  case cmplt g tv ct p q a b =>
    refine ⟨_, rfl, ?_⟩
    show decodeSlot (encSC _ _ _ _ _ _ _ _) _ = _
    rw [decodeSlot, fld_major_encSC]
    exact (if_pos (by simp)).trans (decCmpR_encSC (h := hwf) ..)
  case cmpltImm g tv ct p q a imm =>
    refine ⟨_, rfl, ?_⟩
    show decodeSlot (encSC _ _ _ _ _ _ _ _) _ = _
    rw [decodeSlot, fld_major_encSC]
    exact (if_neg (by simp)).trans (decCmpI_encSC_signed (h := hwf) ..)
  case cmple g tv ct p q a b =>
    refine ⟨_, rfl, ?_⟩
    show decodeSlot (encSC _ _ _ _ _ _ _ _) _ = _
    rw [decodeSlot, fld_major_encSC]
    exact (if_pos (by simp)).trans (decCmpR_encSC (h := hwf) ..)
  case cmpleImm g tv ct p q a imm =>
    refine ⟨_, rfl, ?_⟩
    show decodeSlot (encSC _ _ _ _ _ _ _ _) _ = _
    rw [decodeSlot, fld_major_encSC]
    exact (if_neg (by simp)).trans (decCmpI_encSC_signed (h := hwf) ..)
  case cmpltn g tv ct p q a b =>
    refine ⟨_, rfl, ?_⟩
    show decodeSlot (encSC _ _ _ _ _ _ _ _) _ = _
    rw [decodeSlot, fld_major_encSC]
    exact (if_pos (by simp)).trans (decCmpR_encSC (h := hwf) ..)
  case cmpltnImm g tv ct p q a imm =>
    refine ⟨_, rfl, ?_⟩
    show decodeSlot (encSC _ _ _ _ _ _ _ _) _ = _
    rw [decodeSlot, fld_major_encSC]
    exact (if_neg (by simp)).trans (decCmpI_encSC_unsigned (h := hwf) ..)
  case cmplen g tv ct p q a b =>
    refine ⟨_, rfl, ?_⟩
    show decodeSlot (encSC _ _ _ _ _ _ _ _) _ = _
    rw [decodeSlot, fld_major_encSC]
    exact (if_pos (by simp)).trans (decCmpR_encSC (h := hwf) ..)
  case cmplenImm g tv ct p q a imm =>
    refine ⟨_, rfl, ?_⟩
    show decodeSlot (encSC _ _ _ _ _ _ _ _) _ = _
    rw [decodeSlot, fld_major_encSC]
    exact (if_neg (by simp)).trans (decCmpI_encSC_unsigned (h := hwf) ..)
  case fcmpeq g tv ct p q a b =>
    refine ⟨_, rfl, ?_⟩
    show decodeSlot (encSC _ _ _ _ _ _ _ _) _ = _
    rw [decodeSlot, fld_major_encSC]
    exact (if_pos (by simp)).trans (decCmpR_encSC (h := hwf) ..)
  case fcmplt g tv ct p q a b =>
    refine ⟨_, rfl, ?_⟩
    show decodeSlot (encSC _ _ _ _ _ _ _ _) _ = _
    rw [decodeSlot, fld_major_encSC]
    exact (if_neg (by simp)).trans (decCmpR_encSC (h := hwf) ..)
  case fcmple g tv ct p q a b =>
    refine ⟨_, rfl, ?_⟩
    show decodeSlot (encSC _ _ _ _ _ _ _ _) _ = _
    rw [decodeSlot, fld_major_encSC]
    exact (if_pos (by simp)).trans (decCmpR_encSC (h := hwf) ..)
  case fcmpun g tv ct p q a b =>
    refine ⟨_, rfl, ?_⟩
    show decodeSlot (encSC _ _ _ _ _ _ _ _) _ = _
    rw [decodeSlot, fld_major_encSC]
    exact (if_neg (by simp)).trans (decCmpR_encSC (h := hwf) ..)
  case br g disp =>
    refine ⟨_, rfl, ?_⟩
    have hmajor : fld (encBr 0x11 g disp).word 26 6 = 0x11 := fld_eq (by simp only [encBr, toNat_append_eq]; omega)
    rw [decodeSlot, hmajor]
    exact decBr_word (h := hwf) ..
  case brl g disp =>
    refine ⟨_, rfl, ?_⟩
    have hmajor : fld (encBr 0x12 g disp).word 26 6 = 0x12 := fld_eq (by simp only [encBr, toNat_append_eq]; omega)
    rw [decodeSlot, hmajor]
    exact decBr_word (h := hwf) ..
  case jr g a | jrl g a | pmovs g a =>
    refine ⟨_, rfl, ?_⟩
    show decodeSlot (encSR _ _ _ _ _ _) _ = _
    rw [decodeSlot, fld_major_encSR]
    show majorCtrl (encSR _ _ _ _ _ _) _ = _
    rw [majorCtrl, fld_fn_encSR]
    exact decJr_encSR (h := hwf) ..
  case pand g d a b | por g d a b | pxor g d a b | pandn g d a b =>
    refine ⟨_, rfl, ?_⟩
    show decodeSlot (encSR _ _ _ _ _ _) _ = _
    rw [decodeSlot, fld_major_encSR]
    show majorCtrl (encSR _ _ _ _ _ _) _ = _
    rw [majorCtrl, fld_fn_encSR]
    exact decPPP_encSR ..
  case pmovp g d =>
    refine ⟨_, rfl, ?_⟩
    show decodeSlot (encSR _ _ _ _ _ _) _ = _
    rw [decodeSlot, fld_major_encSR]
    show majorCtrl (encSR _ _ _ _ _ _) _ = _
    rw [majorCtrl, fld_fn_encSR]
    exact decGD_encSR ..
  case lpop g =>
    refine ⟨_, rfl, ?_⟩
    show decodeSlot (encSR _ _ _ _ _ _) _ = _
    rw [decodeSlot, fld_major_encSR]
    show majorCtrl (encSR _ _ _ _ _ _) _ = _
    rw [majorCtrl, fld_fn_encSR]
    exact decG_encSR ..
  case loop g c e =>
    refine ⟨_, rfl, ?_⟩
    have hmajor : fld (encLoop g c e).word 26 6 = 0x14 := fld_eq (by simp only [encLoop, toNat_append_eq]; omega)
    rw [decodeSlot, hmajor]
    exact decLoop_word (h := hwf) ..
  case loopi g n e =>
    refine ⟨_, rfl, ?_⟩
    have hmajor : fld (encLoopi g n e).word 26 6 = 0x15 := fld_eq (by simp only [encLoopi, toNat_append_eq]; omega)
    rw [decodeSlot, hmajor]
    exact decLoopi_word (h := hwf) ..
  case ld g nw d base z x off =>
    refine ⟨_, rfl, ?_⟩
    have hmajor : fld (encLd g nw d base z x off).word 26 6 = 0x16 := fld_eq (by simp only [encLd, toNat_append_eq]; omega)
    rw [decodeSlot, hmajor]
    exact decLd_word (h := hwf) ..
  case st g data base z glob line off =>
    refine ⟨_, rfl, ?_⟩
    have hmajor : fld (encSt g data base z glob line off).word 26 6 = 0x17 := fld_eq (by simp only [encSt, toNat_append_eq]; omega)
    rw [decodeSlot, hmajor]
    exact decSt_word (h := hwf) ..
  case amoAdd g d a b | amoAnd g d a b | amoOr g d a b | amoXor g d a b | amoMin g d a b | amoMax g d a b | amoMinn g d a b |
      amoMaxn g d a b | amoSwap g d a b =>
    refine ⟨_, rfl, ?_⟩
    show decodeSlot (encSR _ _ _ _ _ _) _ = _
    rw [decodeSlot, fld_major_encSR]
    show majorAmo (encSR _ _ _ _ _ _) _ = _
    rw [majorAmo, fld_fn_encSR]
    exact decGDAB_encSR (h := hwf) ..
  case amoCas g d a b =>
    refine ⟨_, rfl, ?_⟩
    show decodeSlot (encSR _ _ _ _ _ _) _ = _
    rw [decodeSlot, fld_major_encSR]
    show majorAmo (encSR _ _ _ _ _ _) _ = _
    rw [majorAmo, fld_fn_encSR]
    exact decCas_encSR (h := hwf) ..
  case amowAdd g d a b | amowAnd g d a b | amowOr g d a b | amowXor g d a b | amowMin g d a b | amowMax g d a b |
      amowMinn g d a b | amowMaxn g d a b | amowSwap g d a b | amowFadd g d a b | amowFmax g d a b =>
    refine ⟨_, rfl, ?_⟩
    show decodeSlot (encSR _ _ _ _ _ _) _ = _
    rw [decodeSlot, fld_major_encSR]
    show majorAmow (encSR _ _ _ _ _ _) _ = _
    rw [majorAmow, fld_fn_encSR]
    exact decGDAB_encSR (h := hwf) ..
  case amowCas g d a b =>
    refine ⟨_, rfl, ?_⟩
    show decodeSlot (encSR _ _ _ _ _ _) _ = _
    rw [decodeSlot, fld_major_encSR]
    show majorAmow (encSR _ _ _ _ _ _) _ = _
    rw [majorAmow, fld_fn_encSR]
    exact decCas_encSR (h := hwf) ..
  case redAdd g ord z a b | redAnd g ord z a b | redOr g ord z a b | redXor g ord z a b | redMin g ord z a b |
      redMax g ord z a b | redMinn g ord z a b | redMaxn g ord z a b =>
    refine ⟨_, rfl, ?_⟩
    show decodeSlot (encSR _ _ _ _ _ _) _ = _
    rw [decodeSlot, fld_major_encSR]
    show majorReds (encSR _ _ _ _ _ _) _ = _
    rw [majorReds, fld_fn_encSR]
    exact decRed_encSR (h := hwf) ..
  case redFadd g ord a b | redFmax g ord a b =>
    refine ⟨_, rfl, ?_⟩
    show decodeSlot (encSR _ _ _ _ _ _) _ = _
    rw [decodeSlot, fld_major_encSR]
    show majorReds (encSR _ _ _ _ _ _) _ = _
    rw [majorReds, fld_fn_encSR]
    exact decRedF_encSR (h := hwf) ..
  case cadd g line glob a b scope rel =>
    refine ⟨_, rfl, ?_⟩
    show decodeSlot (encSR _ _ _ _ _ _) _ = _
    rw [decodeSlot, fld_major_encSR]
    exact decCadd_encSR (h := hwf) ..
  case cmax g line glob a b scope rel =>
    refine ⟨_, rfl, ?_⟩
    show decodeSlot (encSR _ _ _ _ _ _) _ = _
    rw [decodeSlot, fld_major_encSR]
    exact decCadd_encSR (h := hwf) ..
  case cwait g d a b scope acq np =>
    refine ⟨_, rfl, ?_⟩
    show decodeSlot (encSR _ _ _ _ _ _) _ = _
    rw [decodeSlot, fld_major_encSR]
    exact decCwait_encSR (h := hwf) ..
  case crd g d a scope acq =>
    refine ⟨_, rfl, ?_⟩
    show decodeSlot (encSR _ _ _ _ _ _) _ = _
    rw [decodeSlot, fld_major_encSR]
    exact decCrd_encSR (h := hwf) ..
  case fence g kind scope =>
    refine ⟨_, rfl, ?_⟩
    show decodeSlot (encSR _ _ _ _ _ _) _ = _
    rw [decodeSlot, fld_major_encSR]
    show majorSync (encSR _ _ _ _ _ _) _ = _
    rw [majorSync, fld_fn_encSR]
    exact decFence_encSR ..
  case qfence g mask =>
    refine ⟨_, rfl, ?_⟩
    show decodeSlot (encSR _ _ _ _ _ _) _ = _
    rw [decodeSlot, fld_major_encSR]
    show majorSync (encSR _ _ _ _ _ _) _ = _
    rw [majorSync, fld_fn_encSR]
    exact decTrap_encSR ..
  case bind g d a b | unbind g d a b | launch g d a b =>
    refine ⟨_, rfl, ?_⟩
    show decodeSlot (encSR _ _ _ _ _ _) _ = _
    rw [decodeSlot, fld_major_encSR]
    show majorSync (encSR _ _ _ _ _ _) _ = _
    rw [majorSync, fld_fn_encSR]
    exact decGDAB_encSR (h := hwf) ..
  case join g d a | leave g d a | trninfo g d a =>
    refine ⟨_, rfl, ?_⟩
    show decodeSlot (encSR _ _ _ _ _ _) _ = _
    rw [decodeSlot, fld_major_encSR]
    show majorSync (encSR _ _ _ _ _ _) _ = _
    rw [majorSync, fld_fn_encSR]
    exact decGDA_encSR (h := hwf) ..
  case vadd k u m d a b t | vsub k u m d a b t | vadds k u m d a b t | vsubs k u m d a b t | vaddsn k u m d a b t |
      vsubsn k u m d a b t | vmul k u m d a b t | vmulh k u m d a b t | vmulhn k u m d a b t | vmin k u m d a b t |
      vmax k u m d a b t | vminn k u m d a b t | vmaxn k u m d a b t | vavgn k u m d a b t =>
    refine ⟨_, rfl, ?_⟩
    show decodeSlot (encV _ _ _ _ _ _ _ _) _ = _
    rw [decodeSlot, fld_major_encV]
    show majorVia (encV _ _ _ _ _ _ _ _) _ = _
    rw [majorVia, fld_fn_encV]
    exact decV3_encV (h := hwf) ..
  case vabs k u m d a t | vneg k u m d a t =>
    refine ⟨_, rfl, ?_⟩
    show decodeSlot (encV _ _ _ _ _ _ _ _) _ = _
    rw [decodeSlot, fld_major_encV]
    show majorVia (encV _ _ _ _ _ _ _ _) _ = _
    rw [majorVia, fld_fn_encV]
    exact decV2_encV (h := hwf) ..
  case vand k u m d a b t | vor k u m d a b t | vxor k u m d a b t | vandn k u m d a b t | vshl k u m d a b t |
      vshr k u m d a b t | vsar k u m d a b t | vrol k u m d a b t | vbfxs k u m d a b t | vbfxn k u m d a b t |
      vbfi k u m d a b t =>
    refine ⟨_, rfl, ?_⟩
    show decodeSlot (encV _ _ _ _ _ _ _ _) _ = _
    rw [decodeSlot, fld_major_encV]
    show majorVlg (encV _ _ _ _ _ _ _ _) _ = _
    rw [majorVlg, fld_fn_encV]
    exact decV3_encV (h := hwf) ..
  case vnot k u m d a t | vpopc k u m d a t | vclz k u m d a t =>
    refine ⟨_, rfl, ?_⟩
    show decodeSlot (encV _ _ _ _ _ _ _ _) _ = _
    rw [decodeSlot, fld_major_encV]
    show majorVlg (encV _ _ _ _ _ _ _ _) _ = _
    rw [majorVlg, fld_fn_encV]
    exact decV2_encV (h := hwf) ..
  case vfadd k u m d a b t | vfsub k u m d a b t | vfmul k u m d a b t | vffma k u m d a b t | vfmin k u m d a b t |
      vfmax k u m d a b t | vfcpsgn k u m d a b t | vfmaxabs k u m d a b t =>
    refine ⟨_, rfl, ?_⟩
    show decodeSlot (encV _ _ _ _ _ _ _ _) _ = _
    rw [decodeSlot, fld_major_encV]
    show majorVfa (encV _ _ _ _ _ _ _ _) _ = _
    rw [majorVfa, fld_fn_encV]
    exact decV3_encV (h := hwf) ..
  case vfabs k u m d a t | vfneg k u m d a t =>
    refine ⟨_, rfl, ?_⟩
    show decodeSlot (encV _ _ _ _ _ _ _ _) _ = _
    rw [decodeSlot, fld_major_encV]
    show majorVfa (encV _ _ _ _ _ _ _ _) _ = _
    rw [majorVfa, fld_fn_encV]
    exact decV2_encV (h := hwf) ..
  case vexp2 k u m d a t | vlog2 k u m d a t | vrcp k u m d a t | vrsq k u m d a t | vsqrt k u m d a t | vtanh k u m d a t |
      vsigm k u m d a t =>
    refine ⟨_, rfl, ?_⟩
    show decodeSlot (encV _ _ _ _ _ _ _ _) _ = _
    rw [decodeSlot, fld_major_encV]
    show majorVsfu (encV _ _ _ _ _ _ _ _) _ = _
    rw [majorVsfu, fld_fn_encV]
    exact decV2_encV (h := hwf) ..
  case vcmpeq k u tv n c a b t | vcmpne k u tv n c a b t | vcmplt k u tv n c a b t | vcmple k u tv n c a b t |
      vcmpltn k u tv n c a b t | vcmplen k u tv n c a b t | vfcmpeq k u tv n c a b t | vfcmplt k u tv n c a b t |
      vfcmple k u tv n c a b t | vfcmpun k u tv n c a b t =>
    refine ⟨_, rfl, ?_⟩
    show decodeSlot (encV _ _ _ _ _ _ _ _) _ = _
    rw [decodeSlot, fld_major_encV]
    show majorVcmps (encV _ _ _ _ _ _ _ _) _ = _
    rw [majorVcmps, fld_fn_encV]
    exact decVcmp_encV (h := hwf) ..
  case mand u tv d a b | mor u tv d a b | mxor u tv d a b | mandn u tv d a b =>
    refine ⟨_, rfl, ?_⟩
    show decodeSlot (encV _ _ _ _ _ _ _ _) _ = _
    rw [decodeSlot, fld_major_encV]
    show majorVmsk (encV _ _ _ _ _ _ _ _) _ = _
    rw [majorVmsk, fld_fn_encV]
    exact decMMM_encV (h := hwf) ..
  case mnot u tv d a =>
    refine ⟨_, rfl, ?_⟩
    show decodeSlot (encV _ _ _ _ _ _ _ _) _ = _
    rw [decodeSlot, fld_major_encV]
    show majorVmsk (encV _ _ _ _ _ _ _ _) _ = _
    rw [majorVmsk, fld_fn_encV]
    exact decMM_encV (h := hwf) ..
  case mpop k u tv d a t | mfirst k u tv d a t =>
    refine ⟨_, rfl, ?_⟩
    show decodeSlot (encV _ _ _ _ _ _ _ _) _ = _
    rw [decodeSlot, fld_major_encV]
    show majorVmsk (encV _ _ _ _ _ _ _ _) _ = _
    rw [majorVmsk, fld_fn_encV]
    exact decMpop_encV (h := hwf) ..
  case mfroms u tv d a t | mlanes u tv d a t =>
    refine ⟨_, rfl, ?_⟩
    show decodeSlot (encV _ _ _ _ _ _ _ _) _ = _
    rw [decodeSlot, fld_major_encV]
    show majorVmsk (encV _ _ _ _ _ _ _ _) _ = _
    rw [majorVmsk, fld_fn_encV]
    exact decMfroms_encV (h := hwf) ..
  case vperm k u m d a b t | vbcast k u m d a b t | vins k u m d a b t | vslideup k u m d a b t | vslidedn k u m d a b t |
      vzipl k u m d a b t | vziph k u m d a b t | vunzipe k u m d a b t | vunzipo k u m d a b t =>
    refine ⟨_, rfl, ?_⟩
    show decodeSlot (encV _ _ _ _ _ _ _ _) _ = _
    rw [decodeSlot, fld_major_encV]
    show majorVprm (encV _ _ _ _ _ _ _ _) _ = _
    rw [majorVprm, fld_fn_encV]
    exact decV3_encV (h := hwf) ..
  case vext u tv d a b t =>
    refine ⟨_, rfl, ?_⟩
    show decodeSlot (encV _ _ _ _ _ _ _ _) _ = _
    rw [decodeSlot, fld_major_encV]
    show majorVprm (encV _ _ _ _ _ _ _ _) _ = _
    rw [majorVprm, fld_fn_encV]
    exact decVext_encV (h := hwf) ..
  case vcompress k u m d a b t =>
    refine ⟨_, rfl, ?_⟩
    show decodeSlot (encV _ _ _ _ _ _ _ _) _ = _
    rw [decodeSlot, fld_major_encV]
    show majorVprm (encV _ _ _ _ _ _ _ _) _ = _
    rw [majorVprm, fld_fn_encV]
    exact decVcompress_encV (h := hwf) ..
  case vexpand k u m d a t | vrev k u m d a t =>
    refine ⟨_, rfl, ?_⟩
    show decodeSlot (encV _ _ _ _ _ _ _ _) _ = _
    rw [decodeSlot, fld_major_encV]
    show majorVprm (encV _ _ _ _ _ _ _ _) _ = _
    rw [majorVprm, fld_fn_encV]
    exact decV2_encV (h := hwf) ..
  case viota k u m d t =>
    refine ⟨_, rfl, ?_⟩
    show decodeSlot (encV _ _ _ _ _ _ _ _) _ = _
    rw [decodeSlot, fld_major_encV]
    show majorVprm (encV _ _ _ _ _ _ _ _) _ = _
    rw [majorVprm, fld_fn_encV]
    exact decViota_encV (h := hwf) ..
  case vredadd k u m d a t | vredmin k u m d a t | vredmax k u m d a t | vredminn k u m d a t | vredmaxn k u m d a t |
      vfredadd k u m d a t | vfredmin k u m d a t | vfredmax k u m d a t =>
    refine ⟨_, rfl, ?_⟩
    show decodeSlot (encV _ _ _ _ _ _ _ _) _ = _
    rw [decodeSlot, fld_major_encV]
    show majorVred (encV _ _ _ _ _ _ _ _) _ = _
    rw [majorVred, fld_fn_encV]
    exact decV2_encV (h := hwf) ..
  case vcvt k u m d a p t e =>
    refine ⟨_, rfl, ?_⟩
    show decodeSlot (encV _ _ _ _ _ _ _ _) _ = _
    rw [decodeSlot, fld_major_encV]
    exact (if_pos (by rw [fld_sr_encV]; decide)).trans (decVcvt_encV (h := hwf) ..)
  case vcvtsr k u m d a p t e =>
    refine ⟨_, rfl, ?_⟩
    show decodeSlot (encV _ _ _ _ _ _ _ _) _ = _
    rw [decodeSlot, fld_major_encV]
    exact (if_neg (by rw [fld_sr_encV]; decide)).trans (decVcvt_encV (h := hwf) ..)
  case vqmx8 k u m d a b | vqmx6 k u m d a b | vqmx4 k u m d a b | vqmx8sr k u m d a b | vqmx6sr k u m d a b |
      vqmx4sr k u m d a b =>
    refine ⟨_, rfl, ?_⟩
    show decodeSlot (encV _ _ _ _ _ _ _ _) _ = _
    rw [decodeSlot, fld_major_encV]
    show majorVqmxs (encV _ _ _ _ _ _ _ _) _ = _
    rw [majorVqmxs, fld_fn_encV]
    exact decVqmx_encV (h := hwf) ..
  case vdqmx8 k u m d a b | vdqmx6 k u m d a b | vdqmx4 k u m d a b =>
    refine ⟨_, rfl, ?_⟩
    show decodeSlot (encV _ _ _ _ _ _ _ _) _ = _
    rw [decodeSlot, fld_major_encV]
    show majorVqmxs (encV _ _ _ _ _ _ _ _) _ = _
    rw [majorVqmxs, fld_fn_encV]
    exact decVdqmx_encV (h := hwf) ..
  case vld k port d base =>
    refine ⟨_, rfl, ?_⟩
    show decodeSlot (encVMem _ _ _ _ _ _ _ _) _ = _
    rw [decodeSlot, fld_major_encVMem]
    exact decVld_whole (h := hwf) ..
  case vldStrided k port d base stride =>
    refine ⟨_, rfl, ?_⟩
    show decodeSlot (encVMem _ _ _ _ _ _ _ _) _ = _
    rw [decodeSlot, fld_major_encVMem]
    exact decVld_strided (h := hwf) ..
  case vldGather k port d base idx =>
    refine ⟨_, rfl, ?_⟩
    show decodeSlot (encVMem _ _ _ _ _ _ _ _) _ = _
    rw [decodeSlot, fld_major_encVMem]
    exact decVld_gather (h := hwf) ..
  case vldStrided16 k port d base stride =>
    refine ⟨_, rfl, ?_⟩
    show decodeSlot (encVMem _ _ _ _ _ _ _ _) _ = _
    rw [decodeSlot, fld_major_encVMem]
    exact decVld_strided16 (h := hwf) ..
  case vst k glob d base line =>
    refine ⟨_, rfl, ?_⟩
    show decodeSlot (encVMem _ _ _ _ _ _ _ _) _ = _
    rw [decodeSlot, fld_major_encVMem]
    exact decVst_whole (h := hwf) ..
  case vstStrided k glob d base stride line =>
    refine ⟨_, rfl, ?_⟩
    show decodeSlot (encVMem _ _ _ _ _ _ _ _) _ = _
    rw [decodeSlot, fld_major_encVMem]
    exact decVst_strided (h := hwf) ..
  case vstScatter k glob d base idx line =>
    refine ⟨_, rfl, ?_⟩
    show decodeSlot (encVMem _ _ _ _ _ _ _ _) _ = _
    rw [decodeSlot, fld_major_encVMem]
    exact decVst_scatter (h := hwf) ..
  case vstStrided16 k glob d base stride line =>
    refine ⟨_, rfl, ?_⟩
    show decodeSlot (encVMem _ _ _ _ _ _ _ _) _ = _
    rw [decodeSlot, fld_major_encVMem]
    exact decVst_strided16 (h := hwf) ..
  case vmov k u m d a t =>
    refine ⟨_, rfl, ?_⟩
    show decodeSlot (encV _ _ _ _ _ _ _ _) _ = _
    rw [decodeSlot, fld_major_encV]
    show majorVmov (encV _ _ _ _ _ _ _ _) _ = _
    rw [majorVmov, fld_fn_encV]
    exact decV2_encV (h := hwf) ..
  case vsel k u m d a b t =>
    refine ⟨_, rfl, ?_⟩
    show decodeSlot (encV _ _ _ _ _ _ _ _) _ = _
    rw [decodeSlot, fld_major_encV]
    show majorVmov (encV _ _ _ _ _ _ _ _) _ = _
    rw [majorVmov, fld_fn_encV]
    exact decV3_encV (h := hwf) ..
  case vsplati k u m d imm t =>
    refine ⟨_, rfl, ?_⟩
    have hmajor : fld (encVsplati k u m d imm t).word 26 6 = 0x2C := fld_eq (by simp only [encVsplati, toNat_append_eq]; omega)
    have hfn : fld (encVsplati k u m d imm t).word 0 4 = 2 := fld_eq (by simp only [encVsplati, toNat_append_eq]; omega)
    rw [decodeSlot, hmajor]
    show majorVmov _ _ = _
    rw [majorVmov, hfn]
    exact decVsplati_word (h := hwf) ..
  case vnoise k u m d t =>
    refine ⟨_, rfl, ?_⟩
    show decodeSlot (encV _ _ _ _ _ _ _ _) _ = _
    rw [decodeSlot, fld_major_encV]
    show majorVmov (encV _ _ _ _ _ _ _ _) _ = _
    rw [majorVmov, fld_fn_encV]
    exact decViota_encV (h := hwf) ..
  case vdot4 k u m d a b | vdot4n k u m d a b | vdot2 k u m d a b | vdot2h k u m d a b =>
    refine ⟨_, rfl, ?_⟩
    show decodeSlot (encV _ _ _ _ _ _ _ _) _ = _
    rw [decodeSlot, fld_major_encV]
    show majorVdot (encV _ _ _ _ _ _ _ _) _ = _
    rw [majorVdot, fld_fn_encV]
    exact decVdqmx_encV (h := hwf) ..
  case cmma g a b hb ha z =>
    refine ⟨_, rfl, ?_⟩
    show decodeSlot (encSR _ _ _ _ _ _) _ = _
    rw [decodeSlot, fld_major_encSR]
    exact decCmma_plain ..
  case cmmaMsk g a b c hb ha z =>
    refine ⟨_, rfl, ?_⟩
    show decodeSlot (encSR _ _ _ _ _ _) _ = _
    rw [decodeSlot, fld_major_encSR]
    exact decCmma_masked (h := hwf) ..
  case crotH32 g a | crotH64 g a =>
    refine ⟨_, rfl, ?_⟩
    show decodeSlot (encSR _ _ _ _ _ _) _ = _
    rw [decodeSlot, fld_major_encSR]
    show majorCrot (encSR _ _ _ _ _ _) _ = _
    rw [majorCrot, fld_fn_encSR]
    exact decGA_encSR ..
  case cdrain g a b c | cdrainP g a b c =>
    refine ⟨_, rfl, ?_⟩
    show decodeSlot (encSR _ _ _ _ _ _) _ = _
    rw [decodeSlot, fld_major_encSR]
    show majorCdrain (encSR _ _ _ _ _ _) _ = _
    rw [majorCdrain, fld_fn_encSR]
    exact decGABC5_encSR (h := hwf) ..
  case caccZero g a c =>
    refine ⟨_, rfl, ?_⟩
    show decodeSlot (encSR _ _ _ _ _ _) _ = _
    rw [decodeSlot, fld_major_encSR]
    show majorCacc (encSR _ _ _ _ _ _) _ = _
    rw [majorCacc, fld_fn_encSR]
    exact decGAC5_encSR (h := hwf) ..
  case caccLd g a b c | caccSt g a b c | caccMove g a b c =>
    refine ⟨_, rfl, ?_⟩
    show decodeSlot (encSR _ _ _ _ _ _) _ = _
    rw [decodeSlot, fld_major_encSR]
    show majorCacc (encSR _ _ _ _ _ _) _ = _
    rw [majorCacc, fld_fn_encSR]
    exact decGABC5_encSR (h := hwf) ..
  case csplDef g a b c =>
    refine ⟨_, rfl, ?_⟩
    show decodeSlot (encSR _ _ _ _ _ _) _ = _
    rw [decodeSlot, fld_major_encSR]
    show majorCspl (encSR _ _ _ _ _ _) _ = _
    rw [majorCspl, fld_fn_encSR]
    exact decGABC_encSR ..
  case csplAdvp g a b | csplAdvc g a b | csplRdp g a b =>
    refine ⟨_, rfl, ?_⟩
    show decodeSlot (encSR _ _ _ _ _ _) _ = _
    rw [decodeSlot, fld_major_encSR]
    show majorCspl (encSR _ _ _ _ _ _) _ = _
    rw [majorCspl, fld_fn_encSR]
    exact decGAB_encSR ..
  case csplReset g a =>
    refine ⟨_, rfl, ?_⟩
    show decodeSlot (encSR _ _ _ _ _ _) _ = _
    rw [decodeSlot, fld_major_encSR]
    show majorCspl (encSR _ _ _ _ _ _) _ = _
    rw [majorCspl, fld_fn_encSR]
    exact decGA_encSR ..
  case cpalSet g a b | cpalGet g a b =>
    refine ⟨_, rfl, ?_⟩
    show decodeSlot (encSR _ _ _ _ _ _) _ = _
    rw [decodeSlot, fld_major_encSR]
    show majorCpal (encSR _ _ _ _ _ _) _ = _
    rw [majorCpal, fld_fn_encSR]
    exact decGAB_encSR ..
  case csyncJoin g a b c =>
    refine ⟨_, rfl, ?_⟩
    show decodeSlot (encSR _ _ _ _ _ _) _ = _
    rw [decodeSlot, fld_major_encSR]
    show majorCsync (encSR _ _ _ _ _ _) _ = _
    rw [majorCsync, fld_fn_encSR]
    exact decGABC_encSR ..
  case csyncStat g a | csyncSkew g a =>
    refine ⟨_, rfl, ?_⟩
    show decodeSlot (encSR _ _ _ _ _ _) _ = _
    rw [decodeSlot, fld_major_encSR]
    show majorCsync (encSR _ _ _ _ _ _) _ = _
    rw [majorCsync, fld_fn_encSR]
    exact decGA_encSR ..
  case crcpDef g a b c =>
    refine ⟨_, rfl, ?_⟩
    show decodeSlot (encSR _ _ _ _ _ _) _ = _
    rw [decodeSlot, fld_major_encSR]
    show majorCrcp (encSR _ _ _ _ _ _) _ = _
    rw [majorCrcp, fld_fn_encSR]
    exact decGABC_encSR ..
  case crcpGet g a b =>
    refine ⟨_, rfl, ?_⟩
    show decodeSlot (encSR _ _ _ _ _ _) _ = _
    rw [decodeSlot, fld_major_encSR]
    show majorCrcp (encSR _ _ _ _ _ _) _ = _
    rw [majorCrcp, fld_fn_encSR]
    exact decGAB_encSR ..
  case cpyLin g a b c q | cpyTwod g a b c q | cpyThreed g a b c q | cpyFill g a b c q | cpyLsplit g a b c q |
      cpyLgath g a b c q | cpyMcast g a b c q | cpyPfetch g a b c q =>
    refine ⟨_, rfl, ?_⟩
    show decodeSlot (encSR _ _ _ _ _ _) _ = _
    rw [decodeSlot, fld_major_encSR]
    show majorCpys (encSR _ _ _ _ _ _) _ = _
    rw [majorCpys, fld_code_encSR_bit]
    exact decCpy_encSR (h := hwf) ..
  case cgthGather g a b c q | cgthScatter g a b c q | cgthGatheradd g a b c q =>
    refine ⟨_, rfl, ?_⟩
    show decodeSlot (encSR _ _ _ _ _ _) _ = _
    rw [decodeSlot, fld_major_encSR]
    show majorCgth (encSR _ _ _ _ _ _) _ = _
    rw [majorCgth, fld_code_encSR_bit]
    exact decCpy_encSR (h := hwf) ..
  case credAddf32 g a b c q | credAddbf16 g a b c q | credMaxf32 g a b c q | credAddi32 g a b c q =>
    refine ⟨_, rfl, ?_⟩
    show decodeSlot (encSR _ _ _ _ _ _) _ = _
    rw [decodeSlot, fld_major_encSR]
    show majorCred (encSR _ _ _ _ _ _) _ = _
    rw [majorCred, fld_code_encSR_bit]
    exact decCpy_encSR (h := hwf) ..
  case blkAlloc g a b c | blkFree g a b c | blkShare g a b c | blkXlate g a b c | blkFetch g a b c | blkAppend g a b c |
      blkStat g a b c =>
    refine ⟨_, rfl, ?_⟩
    show decodeSlot (encSR _ _ _ _ _ _) _ = _
    rw [decodeSlot, fld_major_encSR]
    show majorBlks (encSR _ _ _ _ _ _) _ = _
    rw [majorBlks, fld_fn_encSR]
    exact decBlk_encSR (h := hwf) ..
  all_goals exact absurd hslot Bool.false_ne_true

end Sys2Proof

/-! PROOFS. What reset leaves, the registers that are wired to constants, and the spec's sample words (R31, R45 to R47, R50). -/
namespace Sys2Proof.Machine

/-! ### Reset -/

@[simp] theorem cube_reset (c : CubeId) : State.reset.cube c = Cube.reset c.val := by
  simp [State.cube, State.reset, Vector.get_eq_getElem]

/-- At reset partition 0 is open with every cube, and no other is (R230). -/
theorem parts_reset (n : Fin 8) : State.reset.atl.parts.get n = if n = 0 then ⟨true, 0xFF⟩ else ⟨false, 0⟩ := by
  revert n
  decide

/-- Settles O6: every value is a field of the reset records. -/
theorem resetState : Obligations.ResetState := by
  unfold Obligations.ResetState
  refine ⟨wf_reset, rfl, rfl, rfl, rfl, rfl, rfl, rfl, rfl, parts_reset, fun c => ?_⟩
  rw [cube_reset]
  exact ⟨rfl, rfl, rfl, rfl, rfl, rfl, rfl, rfl, rfl, rfl, rfl, rfl, rfl, rfl, rfl, rfl⟩

/-! ### Registers (R50) -/

/-- Settles O7: reading after writing, file by file, and a guard that names p0. -/
theorem hardWired : Obligations.HardWired := by
  unfold Obligations.HardWired
  intro x
  refine ⟨⟨x.s_zero, x.p_zero, x.m_zero⟩, fun v w u => ⟨x.setS_zero v, x.setP_zero w, x.setM_zero u⟩, fun r v q hr => ?_, fun r v q hr => ?_,
    fun r v q hr => ?_, fun r v q => x.v_setV r q v, fun g hg => ?_⟩
  · simp only [Ctx.s_setS, and_iff_left hr]
  · simp only [Ctx.p_setP, and_iff_left hr]
  · simp only [Ctx.m_setM, and_iff_left hr]
  · rw [Ctx.guard, hg, Ctx.p_zero]
    cases g.neg <;> rfl

/-! ### Sample words (R45 to R47) -/

/-- Settles O8: each word is decoded by its fields. -/
theorem decodeWords : Obligations.DecodeWords := by
  unfold Obligations.DecodeWords
  exact ⟨rfl, rfl, rfl, rfl, rfl, rfl, rfl, rfl, rfl, rfl, rfl, rfl, rfl, rfl, rfl⟩

end Sys2Proof.Machine

/-! PROOFS. Scalar integer and floating point instructions: each row's instruction writes its value under its guard, and a division asks
the divider (R138, R169 to R175). -/
namespace Sys2Proof.Machine

open Sys2Proof.Say

/-! ### A row by what its instruction writes -/

/-- Under its guard the instruction of a row writes the row's value at its latency, and does nothing else. -/
def Row3.Runs (r : Row3) : Prop := ∀ g m d a b s, exec (r.op g m d a b) s =
  s.guarded g fun x s => s.writeS r.bundles r.latch m d (r.value x (x.s d) (x.src a) (x.src b))
def Row1.Runs (r : Row1) : Prop := ∀ g m d a s, exec (r.op g m d a) s =
  s.guarded g fun x s => s.writeS r.bundles r.latch m d (r.value x (x.src a))
def RowI.Runs (r : RowI) : Prop := ∀ g m d a i s, exec (r.op g m d a i) s =
  s.guarded g fun x s => s.writeS r.bundles r.latch m d (r.value (x.src a) (BitVec.signExtend 64 i))

theorem rows3_of_runs {rs : List Row3} (hruns : ∀ r ∈ rs, Row3.Runs r) (hpos : ∀ r ∈ rs, 0 < r.bundles) : Rows3 rs :=
  fun r hr s g m d a b hguard =>
    gives_writeS (v := fun x => r.value x (x.s d) (x.src a) (x.src b)) (hruns r hr g m d a b s) hguard (hpos r hr)

theorem rows1_of_runs {rs : List Row1} (hruns : ∀ r ∈ rs, Row1.Runs r) (hpos : ∀ r ∈ rs, 0 < r.bundles) : Rows1 rs :=
  fun r hr s g m d a hguard =>
    gives_writeS (v := fun x => r.value x (x.src a)) (hruns r hr g m d a s) hguard (hpos r hr)

/-! ### Values the model computes in another way than R172 and R174 say them -/

theorem absS_eq (a : Word) : absS a = BitVec.ofNat 64 a.toInt.natAbs := by
  have ha := a.isLt
  apply BitVec.eq_of_toNat_eq
  rw [absS, BitVec.msb_eq_toInt, BitVec.toNat_ofNat]
  have hint := BitVec.toInt_eq_toNat_cond a
  by_cases h : 2 * a.toNat < 2 ^ 64
  · rw [if_pos h] at hint
    rw [if_neg (by simp only [decide_eq_true_eq]; omega)]
    omega
  · rw [if_neg h] at hint
    rw [if_pos (by simp only [decide_eq_true_eq]; omega), BitVec.toNat_neg]
    omega

theorem f32Of_eq (w : Word) : f32Of w = dec32 (w.toNat % 2 ^ 32) := congrArg dec32 (BitVec.toNat_setWidth 32 w)

theorem and_low31 (a : Word) : a &&& 0x7FFFFFFF = BitVec.ofNat 64 (a.toNat % 2 ^ 31) := by
  apply BitVec.eq_of_toNat_eq
  rw [BitVec.toNat_and, show (0x7FFFFFFF : Word).toNat = 2 ^ 31 - 1 from rfl, Nat.and_two_pow_sub_one_eq_mod, BitVec.toNat_ofNat,
    Nat.mod_eq_of_lt (Nat.lt_trans (Nat.mod_lt _ (by decide)) (by decide))]

/-! ### The rows -/

theorem runs_aluRows : ∀ r ∈ aluRows, Row3.Runs r := by
  simp only [aluRows, List.forall_mem_cons]
  exact ⟨exec_add, exec_sub, exec_and, exec_or, exec_xor, exec_andn, exec_orn, exec_shl, exec_shr, exec_sar, exec_rol, exec_ror,
    exec_min, exec_max, exec_minn, exec_maxn, exec_mul, exec_mulh, exec_mulhn, exec_sext, exec_zext, List.forall_mem_nil _⟩

theorem runs_fieldRows : ∀ r ∈ fieldRows, Row3.Runs r := by
  simp only [fieldRows, List.forall_mem_cons]
  exact ⟨exec_bfxs, exec_bfxn, exec_bfi, exec_fshl, exec_fshr, List.forall_mem_nil _⟩

theorem runs_unaryRows : ∀ r ∈ unaryRows, Row1.Runs r := by
  simp only [unaryRows, List.forall_mem_cons, ← absS_eq]
  exact ⟨exec_popc, exec_clz, exec_ctz, exec_brev, exec_bswap, exec_abs, List.forall_mem_nil _⟩

theorem runs_immRows : ∀ r ∈ immRows, RowI.Runs r := by
  simp only [immRows, List.forall_mem_cons]
  exact ⟨exec_addi, exec_andi, exec_ori, exec_xori, exec_shli, exec_shri, exec_sari, exec_muli, List.forall_mem_nil _⟩

theorem runs_floatRows : ∀ r ∈ floatRows, Row3.Runs r := by
  simp only [floatRows, List.forall_mem_cons, ← f32Of_eq]
  exact ⟨exec_fadd, exec_fsub, exec_fmul, exec_ffma, exec_fmin, exec_fmax, List.forall_mem_nil _⟩

theorem runs_floatUnaryRows : ∀ r ∈ floatUnaryRows, Row1.Runs r := by
  simp only [floatUnaryRows, List.forall_mem_cons, ← f32Of_eq, ← and_low31]
  exact ⟨exec_fabs, exec_fneg, exec_fcvtif, exec_fcvtnf, exec_fcvtfi, exec_fcvtfn, exec_fsqrt, List.forall_mem_nil _⟩

theorem bundles_intRows : (∀ r ∈ aluRows ++ fieldRows, 0 < r.bundles) ∧ (∀ r ∈ unaryRows, 0 < r.bundles) ∧
    ∀ r ∈ immRows, 0 < r.bundles := by
  simp [aluRows, fieldRows, unaryRows, immRows]

theorem bundles_floatRows : (∀ r ∈ floatRows, 0 < r.bundles) ∧ ∀ r ∈ floatUnaryRows, 0 < r.bundles := by
  simp [floatRows, floatUnaryRows]

/-! ### Division -/

/-- A division changes nothing but the reads of the strand, where its result waits. -/
theorem divide_of_guard {g : Guard} {s : State} (f : Word → Word → Word) (m : Mods) (d : SReg) (a b : Src) (h : s.ctx.guard g = true) :
    ∃ q, divide f g m d a b s = .next { s with reads := s.reads ++ [q], nextId := s.nextId + 1 } ∧
      q.id = s.nextId ∧ q.sid = s.ctx.sid ∧ q.status = .served ∧ q.dest = .division d m.nw m.tv ∧ q.bad = false ∧
      q.value.setWidth 64 = f (s.ctx.src a) (s.ctx.src b) :=
  ⟨_, guarded_true s g _ h, rfl, rfl, rfl, rfl, rfl, by
    rw [BitVec.setWidth_setWidth_of_le _ (by decide), BitVec.setWidth_eq]⟩

/-- The instruction of a division row is a division by the row's function. -/
theorem exec_divRows : ∀ r ∈ divRows, ∀ g m d a b s, exec (r.1 g m d a b) s = divide r.2 g m d a b s := by
  simp only [divRows, List.forall_mem_cons]
  exact ⟨exec_div, exec_divn, exec_rem, exec_remn, List.forall_mem_nil _⟩

/-! ### The obligations -/

/-- Settles O12: each row runs as its table says, and division by the divider's request. -/
theorem scalarIntegerResults : Obligations.ScalarIntegerResults := by
  unfold Obligations.ScalarIntegerResults
  obtain ⟨h3, h1, hi⟩ := bundles_intRows
  refine ⟨⟨rows3_of_runs (fun r hr => ?_) h3, rows1_of_runs runs_unaryRows h1⟩, fun r hr s g m d a i hguard => ?_,
    fun r hr s g m d a b hguard => ?_⟩
  · exact (List.mem_append.1 hr).elim (runs_aluRows r) (runs_fieldRows r)
  · exact gives_writeS (v := fun x => r.value (x.src a) (i.signExtend 64)) (runs_immRows r hr g m d a i s) hguard (hi r hr)
  · rw [exec_divRows r hr]
    exact divide_of_guard r.2 m d a b hguard

/-- Settles O13: each row runs as its table says. -/
theorem scalarFloat : Obligations.ScalarFloat := by
  unfold Obligations.ScalarFloat
  exact ⟨rows3_of_runs runs_floatRows bundles_floatRows.1, rows1_of_runs runs_floatUnaryRows bundles_floatRows.2⟩

end Sys2Proof.Machine

/-! PROOFS. Results pushed together, and what compares and predicate operations give (R140, R141, R166, R176, R177). -/
namespace Sys2Proof.Machine

open Sys2Proof.Say

/-! ### Several results of one instruction -/

/-- A result with the marks of the slot in execution. -/
def State.marked (s : State) (r : Result) : Result := { r with cls := s.bundle.cls, pos := s.place, chk := s.bundle.chk }

theorem foldl_pushResult (rs : List Result) (s : State) :
    rs.foldl State.pushResult s = s.modCtx fun x => { x with results := x.results ++ rs.map s.marked } := by
  induction rs generalizing s with
  | nil => exact ((congrArg s.modCtx (funext fun x => by simp)).trans (modCtx_id s)).symm
  | cons r rs ih =>
    have hmark : (s.pushResult r).marked = s.marked :=
      funext fun q => by simp only [State.marked, State.place, bundle_pushResult, nextId_pushResult]
    rw [List.foldl_cons, ih, hmark, pushResult_eq, modCtx_modCtx]
    simp [State.marked]

/-- Neither what is left of its latency nor its marks bear on what lands of a result. -/
theorem landResult_marked (s : State) (L : Nat) (x : Ctx) (r : Result) : landResult x (nearer L (s.marked r)) = landResult x r := rfl

/-- Results of one latency, pushed together, land in that order. -/
theorem gives_of_pushResults {s : State} {i : Instr} {rs : List Result} {L : Nat} (hexec : exec i s = .next (rs.foldl State.pushResult s))
    (hrem : ∀ r ∈ rs, r.rem = L) (hL : 0 < L) : Gives s i L (rs.foldl landResult) := by
  refine ⟨_, hexec.trans (congrArg Host.Outcome.next ((foldl_pushResult rs s).trans (modCtx_const s _))), ?_⟩
  have hmarks : ∀ r ∈ rs.map s.marked, r.rem = L := by simpa [State.marked] using hrem
  obtain ⟨hbefore, hafter⟩ := lands_push s.ctx (rs.map s.marked) hmarks hL
  refine ⟨hbefore, hafter.trans ?_⟩
  simp only [List.foldl_map, landResult_marked]

/-! ### Truth values for predicates -/

/-- The result that writes a truth value in a predicate. -/
def predResult (l : Nat) (tv : Bool) (d : PReg) (c : Comb) (v : Bool) : Result :=
  { emptyResult with rem := latency l tv, kind := .pred, dest := d.setWidth 6, comb := c, val := if v then 1 else 0, tv := tv }

theorem writeP_eq (s : State) (l : Nat) (tv : Bool) (d : PReg) (c : Comb) (v : Bool) :
    s.writeP l tv d c v = s.pushResult (predResult l tv d c v) := rfl

theorem landResult_predResult (x : Ctx) (l : Nat) (tv : Bool) (d : PReg) (c : Comb) (v : Bool) :
    landResult x (predResult l tv d c v) = toPred c d v x := by
  have hd : ((d.setWidth 6).setWidth 3 : PReg) = d := by
    rw [BitVec.setWidth_setWidth_of_le _ (by decide), BitVec.setWidth_eq]
  have hv : ((if v then 1 else 0 : Word) != 0) = v := by cases v <;> rfl
  simp only [landResult, predResult, emptyResult, toPred, hd, hv]
  cases c <;> rfl

/-! ### Compares -/

/-- A compare gives its outcome and then the complement. -/
theorem gives_writePreds {s : State} {i : Instr} {g : Guard} {l : Nat} {tv : Bool} {c : Comb} {p q : PReg} {v : Ctx → Bool}
    (hexec : exec i s = s.guarded g fun x s => writePreds l tv c p q (v x) s) (hguard : s.ctx.guard g = true) (hl : 0 < l) :
    Gives s i (lat l tv) fun x => toPred c q (!v s.ctx) (toPred c p (v s.ctx) x) := by
  have h := gives_of_pushResults (rs := [predResult l tv p c (v s.ctx), predResult l tv q c (!v s.ctx)])
    (hexec.trans (guarded_true s g _ hguard)) (L := lat l tv) (by simp [predResult, latency, lat]) (lat_pos tv hl)
  simpa only [List.foldl_cons, List.foldl_nil, landResult_predResult] using h

/-- Under its guard the instruction of a row compares as the row says. -/
def RowC.Runs (r : RowC) : Prop := ∀ g tv c p q a b s, exec (r.op g tv c p q a b) s =
  s.guarded g fun x s => writePreds r.bundles tv c p q (r.test (x.src a) (x.src b)) s
def RowCI.Runs (r : RowCI) : Prop := ∀ g tv c p q a i s, exec (r.op g tv c p q a i) s =
  s.guarded g fun x s => writePreds 1 tv c p q (r.test (x.src a) (if r.signed then BitVec.signExtend 64 i else BitVec.setWidth 64 i)) s

theorem runs_cmpRows : ∀ r ∈ cmpRows, RowC.Runs r := by
  simp only [cmpRows, List.forall_mem_cons, ← f32Of_eq]
  exact ⟨exec_cmpeq, exec_cmpne, exec_cmplt, exec_cmple, exec_cmpltn, exec_cmplen, exec_fcmpeq, exec_fcmplt, exec_fcmple, exec_fcmpun,
    List.forall_mem_nil _⟩

theorem runs_cmpImmRows : ∀ r ∈ cmpImmRows, RowCI.Runs r := by
  simp only [cmpImmRows, List.forall_mem_cons]
  exact ⟨exec_cmpeqImm, exec_cmpneImm, exec_cmpltImm, exec_cmpleImm, exec_cmpltnImm, exec_cmplenImm, List.forall_mem_nil _⟩

theorem bundles_cmpRows : ∀ r ∈ cmpRows, 0 < r.bundles := by simp [cmpRows]

theorem scalarCompare : ScalarCompare := by
  refine ⟨fun r hr s g tv c p q a b hguard => ?_, fun r hr s g tv c p q a i hguard => ?_⟩
  · exact gives_writePreds (v := fun x => r.test (x.src a) (x.src b)) (runs_cmpRows r hr g tv c p q a b s) hguard (bundles_cmpRows r hr)
  · exact gives_writePreds (v := fun x => r.test (x.src a) (if r.signed then i.signExtend 64 else i.setWidth 64))
      (runs_cmpImmRows r hr g tv c p q a i s) hguard Nat.one_pos

/-! ### Predicate operations -/

section
variable {s : State} {g : Guard} (hguard : s.ctx.guard g = true)
include hguard

theorem gives_predOp {i : Instr} {f : Bool → Bool → Bool} {d a b : PReg} (hexec : exec i s = predOp f g d a b s) :
    Gives s i 1 (toPred .plain d (f (s.ctx.p a) (s.ctx.p b))) := by
  have h := gives_of_pushResults (rs := [predResult 1 false d .plain (f (s.ctx.p a) (s.ctx.p b))])
    (hexec.trans (guarded_true s g _ hguard)) (L := 1) (List.forall_mem_singleton.2 rfl) Nat.one_pos
  simpa only [List.foldl_cons, List.foldl_nil, landResult_predResult] using h

theorem gives_pmovs (a : Src) : Gives s (.pmovs g a) 1 fun x => (List.range 7).foldl (fun x k =>
    toPred .plain (BitVec.ofNat 3 (k + 1)) ((s.ctx.src a).getLsbD (k + 1)) x) x := by
  have h := gives_of_pushResults (i := .pmovs g a) (L := 1)
    (rs := (List.range 7).map fun k => predResult 1 false (BitVec.ofNat 3 (k + 1)) .plain ((s.ctx.src a).getLsbD (k + 1)))
    ((exec_pmovs g a s).trans ((guarded_true s g _ hguard).trans (congrArg Host.Outcome.next (by simp only [List.foldl_map, writeP_eq]))))
    (List.forall_mem_map.2 fun _ _ => rfl) Nat.one_pos
  convert h using 2 with x
  simp only [List.foldl_map, landResult_predResult]

theorem gives_pmovp (d : SReg) : Gives s (.pmovp g d) 1 (toReg d (predWord s.ctx)) :=
  gives_of_pushResult ((exec_pmovp g d s).trans (guarded_true s g _ hguard)) rfl Nat.one_pos
    (landResult_scalarResult · 1 0 ⟨false, false⟩ d _)
end

theorem predicateOps : PredicateOps := by
  refine ⟨?_, fun s g a hguard => gives_pmovs hguard a, fun s g d hguard => gives_pmovp hguard d⟩
  simp only [List.forall_mem_cons]
  exact ⟨fun s g d a b hguard => gives_predOp hguard (exec_pand g d a b s), fun s g d a b hguard => gives_predOp hguard (exec_por g d a b s),
    fun s g d a b hguard => gives_predOp hguard (exec_pxor g d a b s), fun s g d a b hguard => gives_predOp hguard (exec_pandn g d a b s),
    List.forall_mem_nil _⟩

/-- Settles O14: compares push two results that land in order; the predicate operations push theirs in the same way. -/
theorem comparesAndPredicates : Obligations.ComparesAndPredicates := by
  unfold Obligations.ComparesAndPredicates
  exact ⟨scalarCompare, predicateOps⟩

end Sys2Proof.Machine

/-! PROOFS. Where a bundle ends, and the transfers and hardware loops that decide it (R143, R144, R166 to R168). -/
namespace Sys2Proof.Machine

open Sys2Proof.Say

/-! ### The running context once its bundle has ended -/

section
variable {s : State} (h : Closes s)
include h

theorem ended_eq_stepPc : ended s = stepPc (popNoise s.ctx s.bundle) s.bundle := by
  rw [ended, cube_endBundle_of_closes h, Cube.core_closeBundle]; rfl

theorem regs_ended : (ended s).regs = s.ctx.regs := by rw [ended_eq_stepPc h, stepPc_eq]; rfl
theorem issued_ended : (ended s).issued = s.ctx.issued + 1 := by rw [ended_eq_stepPc h, stepPc_eq]; rfl

theorem ended_of_taken {t : VA} (ht : s.bundle.taken = some t) : (ended s).pc = t ∧ (ended s).loops = s.ctx.loops := by
  rw [ended_eq_stepPc h]
  simp only [stepPc, nextAddress, ht]
  exact ⟨rfl, rfl⟩

/-- With no transfer, the loop entries that the bundle did not push decide. -/
theorem ended_of_notPushed (ht : s.bundle.taken = none) (hp : s.bundle.pushed = false) :
    (ended s).pc = (loopBack s.ctx.pc s.ctx.loops.reverse).2 ∧
      (ended s).loops = (loopBack s.ctx.pc s.ctx.loops.reverse).1.reverse := by
  rw [ended_eq_stepPc h]
  simp only [stepPc, nextAddress, ht, hp]
  exact ⟨rfl, rfl⟩

theorem ended_of_pushed {front : List LoopEntry} {e : LoopEntry} (ht : s.bundle.taken = none) (hp : s.bundle.pushed = true)
    (hl : s.ctx.loops = front ++ [e]) : (ended s).pc = (loopBack s.ctx.pc front.reverse).2 ∧
      (ended s).loops = (loopBack s.ctx.pc front.reverse).1.reverse ++ [e] := by
  have hrev : (popNoise s.ctx s.bundle).loops.reverse = e :: front.reverse := by
    rw [show (popNoise s.ctx s.bundle).loops = s.ctx.loops from rfl, hl, List.reverse_append]; rfl
  rw [ended_eq_stepPc h]
  simp only [stepPc, nextAddress, ht, hp, if_true, hrev, List.take_succ_cons, List.take_zero, List.drop_succ_cons, List.drop_zero]
  exact ⟨rfl, List.reverse_append⟩

theorem closes_withLoops (ls : List LoopEntry) : Closes (withLoops s ls) := by
  obtain ⟨hctl, hwrite, hpost⟩ := h
  have hb : (withLoops s ls).bundle = { s.bundle with pushed := false } := by simp [withLoops]
  exact ⟨by rw [hb]; exact hctl, by rw [hb]; exact hwrite, by rw [hb]; exact hpost⟩

/-- The same bundle with other loop entries, all of them examined. -/
theorem ended_withLoops (ls : List LoopEntry) (ht : s.bundle.taken = none) :
    (ended (withLoops s ls)).pc = (loopBack s.ctx.pc ls.reverse).2 ∧
      (ended (withLoops s ls)).loops = (loopBack s.ctx.pc ls.reverse).1.reverse := by
  have hb : (withLoops s ls).bundle = { s.bundle with pushed := false } := by simp [withLoops]
  have hx : (withLoops s ls).ctx = { s.ctx with loops := ls } := by simp [withLoops]
  have hend := ended_of_notPushed (closes_withLoops h ls) (by rw [hb]; exact ht) (by rw [hb])
  rwa [hx] at hend
end

theorem nextAddressHolds : NextAddress := by
  intro s h
  refine ⟨regs_ended h, issued_ended h, fun t ht => ended_of_taken h ht, fun ht hp hl => ?_, fun front e ht hp hl => ?_,
    fun front e ht hp hl => ?_⟩
  · obtain ⟨hpc, hloops⟩ := ended_of_notPushed h ht hp
    rw [hpc, hloops, hl]
    exact ⟨rfl, rfl⟩
  · obtain ⟨hpc, hloops⟩ := ended_of_notPushed h ht hp
    obtain ⟨hpc', hloops'⟩ := ended_withLoops h front ht
    have hrev : s.ctx.loops.reverse = e :: front.reverse := by rw [hl, List.reverse_append]; rfl
    have hfront : (e :: front.reverse).reverse = front ++ [e] := by simp
    rw [hpc, hloops, hpc', hloops', hrev]
    by_cases hlast : e.last = s.ctx.pc
    · by_cases hcount : 1 < e.count.toNat
      · simp [loopBack, hlast, hcount]
      · simp [loopBack, hlast, hcount]
    · simp [loopBack, hlast, hl]
  · obtain ⟨hpc, hloops⟩ := ended_of_pushed h ht hp hl
    obtain ⟨hpc', hloops'⟩ := ended_withLoops h front ht
    rw [hpc, hloops, hpc', hloops']
    exact ⟨rfl, rfl⟩

/-! ### Transfers -/

@[simp] theorem ctx_branched (s : State) (y : Ctx) (t : VA) : (branched s y t).ctx = y := by simp [branched]
@[simp] theorem bundle_branched (s : State) (y : Ctx) (t : VA) : (branched s y t).bundle = { s.bundle with taken := some t } := by
  simp [branched]

theorem closes_branched {s : State} (h : Closes s) (y : Ctx) (t : VA) : Closes (branched s y t) := by
  obtain ⟨hctl, hwrite, hpost⟩ := h
  exact ⟨by rw [bundle_branched]; exact hctl, by rw [bundle_branched]; exact hwrite, by rw [bundle_branched]; exact hpost⟩

theorem ended_branched {s : State} (h : Closes s) (y : Ctx) (t : VA) :
    (ended (branched s y t)).pc = t ∧ (ended (branched s y t)).regs = y.regs := by
  have hclose := closes_branched h y t
  exact ⟨(ended_of_taken hclose (by rw [bundle_branched])).1, by rw [regs_ended hclose, ctx_branched]⟩

theorem takeBranch_eq (s : State) (t : VA) : s.takeBranch t = branched s s.ctx t := by rw [branched, modCtx_ctx]; rfl

section
variable {s : State} {i : Instr} {t : VA} (h : Closes s)
include h

theorem jumps_of_takeBranch (hexec : exec i s = .next (s.takeBranch t)) : Jumps s i t := by
  obtain ⟨hpc, hregs⟩ := ended_branched h s.ctx t
  exact ⟨by rw [hexec, takeBranch_eq], hpc, hregs⟩

theorem calls_of_link (hexec : exec i s = .next ((s.link s.ctx).takeBranch t)) : Calls s i t := by
  obtain ⟨hbefore, hafter⟩ := lands_push s.ctx
    [{ scalarResult 1 0 ⟨false, false⟩ 63 ((s.ctx.pc + 16).setWidth 64) with
        cls := s.bundle.cls, pos := s.place, chk := s.bundle.chk }] (List.forall_mem_singleton.2 rfl) Nat.one_pos
  obtain ⟨hpc, hregs⟩ := ended_branched h _ t
  exact ⟨_, hexec, ⟨hbefore, hafter.trans (landResult_scalarResult _ 1 0 ⟨false, false⟩ 63 _ _ _ _ _)⟩, hpc, hregs⟩
end

theorem jumpTrap_of_aligned {s : State} {a : Src} (h : (s.ctx.src a).toNat % 16 = 0) : jumpTrap s a = none :=
  if_neg fun hne => hne h
theorem jumpTrap_of_misaligned {s : State} {a : Src} (h : (s.ctx.src a).toNat % 16 ≠ 0) :
    jumpTrap s a = some (slotTrapWith s 0x08 0 1 ((s.ctx.src a).setWidth 52)) := if_pos h

theorem branchesAndJumps : BranchesAndJumps := by
  intro s g hguard h
  refine ⟨fun disp => ⟨jumps_of_takeBranch h ?_, calls_of_link h ?_⟩, fun a ha => ⟨jumps_of_takeBranch h ?_, calls_of_link h ?_⟩,
    fun a ha => ⟨?_, ?_⟩⟩
  · exact (exec_br g disp s).trans (guarded_true s g _ hguard)
  · exact (exec_brl g disp s).trans (guarded_true s g _ hguard)
  · rw [exec_jr, execJr, guarded_true s g _ hguard, jumpTrap_of_aligned ha]
  · rw [exec_jrl, execJrl, guarded_true s g _ hguard, jumpTrap_of_aligned ha]
  · rw [Traps, exec_jr, execJr, guarded_true s g _ hguard, jumpTrap_of_misaligned ha]
  · rw [Traps, exec_jrl, execJrl, guarded_true s g _ hguard, jumpTrap_of_misaligned ha]

/-! ### Hardware loops -/

theorem loops_of_loopInsn {s : State} {i : Instr} {count disp : Nat} (h : Closes s)
    (hexec : exec i s = .next (loopInsn s.ctx count disp s)) : Loops s i count disp := by
  by_cases hc : count = 0
  · rw [loopInsn, if_pos hc] at hexec
    rw [Loops, if_pos hc]
    exact jumps_of_takeBranch h hexec
  · rw [loopInsn, if_neg hc] at hexec
    rw [Loops, if_neg hc]
    exact hexec

theorem loopTrap_of_room {s : State} {count : Nat} (h : count = 0 ∨ s.ctx.loops.length < 4) : loopTrap s count = none :=
  if_neg fun hfull => h.elim hfull.1 (Nat.not_lt.2 hfull.2)
theorem loopTrap_of_full {s : State} {count : Nat} (hc : count ≠ 0) (hfull : 4 ≤ s.ctx.loops.length) :
    loopTrap s count = some (slotTrapWith s 0x15 0 0 0) := if_pos ⟨hc, hfull⟩

theorem hardwareLoops : HardwareLoops := by
  intro s g hguard h
  refine ⟨fun c e => ⟨fun hroom => loops_of_loopInsn h ?_, fun hc hfull => ?_⟩,
    fun n e => ⟨fun hroom => loops_of_loopInsn h ?_, fun hn hfull => ?_⟩, (exec_lpop g s).trans (guarded_true s g _ hguard)⟩
  · rw [exec_loop, execLoop, guarded_true s g _ hguard, loopTrap_of_room (hroom.imp_left (BitVec.toNat_inj (y := 0)).2)]
  · rw [Traps, exec_loop, execLoop, guarded_true s g _ hguard, loopTrap_of_full (fun h0 => hc ((BitVec.toNat_inj (y := 0)).1 h0)) hfull]
  · rw [exec_loopi, execLoopi, guarded_true s g _ hguard, loopTrap_of_room (hroom.imp_left (BitVec.toNat_inj (y := 0)).2)]
  · rw [Traps, exec_loopi, execLoopi, guarded_true s g _ hguard, loopTrap_of_full (fun h0 => hn ((BitVec.toNat_inj (y := 0)).1 h0)) hfull]

/-- Settles O15: the next address by the back edges, the transfers by what they leave in their bundle, the loops by `loopInsn`. -/
theorem controlTransfers : Obligations.ControlTransfers := by
  unfold Obligations.ControlTransfers
  exact ⟨nextAddressHolds, branchesAndJumps, hardwareLoops⟩

end Sys2Proof.Machine

/-! PROOFS. Scalar accesses: the traps of R179, reads that set out or show from the own scratch, and items that set out on their lines
(R117, R178, R181 to R187). -/
namespace Sys2Proof.Machine

open Sys2Proof.Say

/-! ### Checks of an access (R179) -/

theorem checked_error {α : Type} (s : State) (t : Trap) (f : α → State) : s.checked (.error t) f = takeTrap s s.me t := rfl
theorem checked_ok {α : Type} (s : State) (a : α) (f : α → State) : s.checked (.ok a) f = f a := rfl

section
variable {s : State} {need : Need} {acc : BitVec 4} {line : BitVec 3} {size : Nat} {more : Target → Option (BitVec 4)} {ea : VA}

theorem scalarCheck_of_misaligned (h : ea.toNat % size ≠ 0) :
    scalarCheck s need acc line size more ea = .error (slotTrapWith s 0x08 0 acc ea) := if_pos h

theorem scalarCheck_of_broken (h : ea.toNat % size = 0) (hline : s.ctx.lineBad line = true) :
    scalarCheck s need acc line size more ea = .error (slotTrapWith s 0x14 0 acc ea) := by
  rw [scalarCheck, if_neg (not_not.2 h), if_pos hline]
  rfl

theorem scalarCheck_of_whole (h : ea.toNat % size = 0) (hline : s.ctx.lineBad line = false) :
    scalarCheck s need acc line size more ea = reach s need acc more ea := by
  rw [scalarCheck, if_neg (not_not.2 h), hline, if_neg Bool.false_ne_true]

theorem reach_of_fault {k : BitVec 4} (h : checkAccess s s.agent need ea = .fault k) :
    reach s need acc more ea = .error (slotTrapWith s (faultCause need k) k acc ea) := by
  unfold reach
  rw [h]
  rfl
theorem reach_of_dead (h : checkAccess s s.agent need ea = .dead) : reach s need acc more ea = .error (slotTrapWith s 0x0A 0 acc ea) := by
  unfold reach
  rw [h]
  rfl
end

theorem lineBad_iff (x : Ctx) (line : BitVec 3) : x.lineBad line = true ↔ line ≠ 0 ∧ x.sys.broken.getLsbD line.toNat = true := by
  simp [Ctx.lineBad]
theorem lineBad_zero (x : Ctx) : x.lineBad 0 = false := rfl

section
variable {s : State} {g : Guard} (hguard : s.ctx.guard g = true)
include hguard

/-- A load whose check fails traps. -/
theorem traps_ld {base : Src} {z : Size} {off : BitVec 11} {t : Trap} (nw : Bool) (d : SReg) (x : Bool)
    (h : ldCheck s base z off = .error t) : Traps s (.ld g nw d base z x off) t := by
  rw [Traps, exec_ld, execLd, guarded_true s g _ hguard, h, checked_error]

theorem traps_st {base : Src} {z : Size} {off : BitVec 11} {line : BitVec 3} {t : Trap} (data : SReg) (glob : Bool)
    (h : stCheck s base z line off = .error t) : Traps s (.st g data base z glob line off) t := by
  rw [Traps, exec_st, execSt, guarded_true s g _ hguard, h, checked_error]
end

/-- Settles O17: each trap by the step of `scalarCheck` that finds it. -/
theorem accessTraps : Obligations.AccessTraps := by
  unfold Obligations.AccessTraps
  intro s g base z off hguard
  refine ⟨fun hea => ⟨fun nw d x => traps_ld hguard nw d x (scalarCheck_of_misaligned hea),
      fun data glob line => traps_st hguard data glob (scalarCheck_of_misaligned hea)⟩,
    fun hea data glob line hline hbroken => traps_st hguard data glob (scalarCheck_of_broken hea ((lineBad_iff ..).2 ⟨hline, hbroken⟩)),
    fun hea k hk hfault nw d x => traps_ld hguard nw d x ?_, fun hea hdead nw d x => traps_ld hguard nw d x ?_,
    fun hea k data glob line hk hline hfault => traps_st hguard data glob ?_⟩
  · rw [ldCheck, scalarCheck_of_whole hea (lineBad_zero _), reach_of_fault hfault, faultCause, if_neg hk, if_pos rfl]
    rfl
  · rw [ldCheck, scalarCheck_of_whole hea (lineBad_zero _), reach_of_dead hdead]
    rfl
  · have hwhole : s.ctx.lineBad line = false := by
      rw [Bool.eq_false_iff, Ne, lineBad_iff]
      rintro ⟨hne, hbad⟩
      exact hline.elim hne fun hgood => Bool.false_ne_true (hgood.symm.trans hbad)
    rw [stCheck, scalarCheck_of_whole hea hwhole, reach_of_fault hfault, faultCause, if_neg hk, if_neg (by decide)]
    rfl

/-! ### An item that takes its number and sets out (R117) -/

/-- The running strand takes a number on a line. -/
def State.numbered (s : State) (line : BitVec 3) : State :=
  { s.modCtx (fun x => { x with lineSeq := x.lineSeq.set line.toNat (s.ctx.lineSeq.toList.getD line.toNat 0 + 1) line.isLt }) with
    nextId := s.nextId + 1 }

theorem sendItem_eq (s : State) (i : Item) : sendItem s i = issueItem (s.numbered i.line)
    { i with seq := s.ctx.lineSeq.toList.getD i.line.toNat 0, prior := s.fencePrior false } := by
  have hprior : ∀ f, (s.modCtx f).fencePrior false = s.fencePrior false := fun f => by
    simp only [State.fencePrior, bundle_modCtx]
  rw [← hprior]
  rfl

theorem cmds_numbered (s : State) (line : BitVec 3) (c : CubeId) : ((s.numbered line).cube c).cmds = (s.cube c).cmds := by
  have h : (s.numbered line).cube c = (s.modCtx _).cube c := rfl
  rw [h, State.modCtx, cube_modCube]
  split <;> rfl

/-- Neither the numbers of lines nor the next identity bear on what an item waits for. -/
theorem sourcePrior_numbered (s : State) (line : BitVec 3) (i : Item) : sourcePrior (s.numbered line) i = sourcePrior s i := rfl
theorem sourceCmds_numbered (s : State) (line : BitVec 3) (i : Item) : sourceCmds (s.numbered line) i = sourceCmds s i := by
  unfold sourceCmds
  rw [cmds_numbered]
  rfl
theorem mayLeave_numbered (s : State) (line : BitVec 3) (i : Item) : i.mayLeave (s.numbered line) = i.mayLeave s := by
  unfold Item.mayLeave Prior.past
  rw [cmds_numbered]
  rfl

/-- The cubes once the running strand has taken its number, and what it stands on has changed. -/
theorem cube_numbered_self (s : State) (line : BitVec 3) (f : Cube → Cube) {c : CubeId} (hc : c = s.me) :
    ((s.numbered line).modCube c f).cube s.me = f { s.cube s.me with core := { s.ctx with
      lineSeq := s.ctx.lineSeq.set line.toNat (s.ctx.lineSeq.toList.getD line.toNat 0 + 1) line.isLt } } :=
  by subst hc; exact (cube_modCube_self (s.modCtx _) s.me f).trans (congrArg f (cube_modCube_self s s.me _))
theorem cube_numbered_ne (s : State) (line : BitVec 3) (f : Cube → Cube) {c d : CubeId} (hd : c ≠ d) (hc : c ≠ s.me) :
    ((s.numbered line).modCube d f).cube c = s.cube c :=
  (cube_modCube_ne (s.modCtx _) d c f hd).trans (cube_modCube_ne s s.me c _ hc)

theorem sends_of_sendItem {s : State} {i : Instr} {m : Item} {p : Item → Prop} (hexec : exec i s = .next (sendItem s m))
    (hid : m.id = s.nextId ∧ m.sid = s.ctx.sid ∧ m.cube = s.me ∧ m.mode = s.ctx.mode)
    (haway : m.home ≠ 8 + s.me.val ∨ m.dest.isSome = true)
    (hp : ∀ seq prior status, p { m with seq := seq, prior := prior, status := status }) : Sends s i p := by
  obtain ⟨hid, hsid, hcube, hmode⟩ := hid
  obtain ⟨j, e, hissue, hj, hstatus⟩ := issueItem_away (s.numbered m.line)
    { m with seq := s.ctx.lineSeq.toList.getD m.line.toNat 0, prior := s.fencePrior false } (by rw [hcube]; exact haway)
  rw [mayLeave_numbered] at hstatus
  rw [sourcePrior_numbered, sourceCmds_numbered] at hj
  obtain ⟨status, rfl⟩ : ∃ status, j = { m with
      seq := s.ctx.lineSeq.toList.getD m.line.toNat 0
      prior := (s.fencePrior false).join ⟨sourcePrior s m, [], sourceCmds s m⟩, status := status } := ⟨j.status, hj⟩
  refine ⟨_, _, hexec.trans (congrArg Host.Outcome.next ((sendItem_eq s m).trans hissue)), rfl, rfl, rfl, rfl, rfl, rfl, fun c hc => ?_,
    ⟨e, ?_⟩, hid, hsid, hcube, hmode, rfl, rfl, hstatus, hp _ _ _⟩
  · exact cube_numbered_ne s m.line (fun k => { k with edge := e }) (hcube.symm ▸ hc) hc
  · exact cube_numbered_self s m.line (fun k => { k with edge := e }) hcube

/-! ### Reads and their results -/

/-- A read of the running strand sets out, behind the fences of lower slots of its bundle. -/
theorem asks_of_sendRead {s : State} {i : Instr} {r : ReadReq} {p : ReadReq → Prop} (hexec : exec i s = .next (sendRead s r))
    (hid : r.id = s.nextId ∧ r.sid = s.ctx.sid ∧ r.cube = s.me ∧ r.status = .sent) (hp : ∀ prior, p { r with prior := prior }) :
    Asks s i p := by
  obtain ⟨hid, hsid, hcube, hstatus⟩ := hid
  exact ⟨_, hexec, hid, hsid, hcube, hstatus, hp _⟩

/-- Bytes none of which lies on a poisoned line are read at once. -/
theorem scratchRead_of_clean {s : State} {key n : Nat} (acc : BitVec 4) (va : VA) (h : Clean s key n) :
    scratchRead s s.ctx acc va key n = .ok (readNat s key n) := by
  have hclean : ((linesOf ((List.range n).map (key + ·))).any fun l => s.poison.contains l) = false := by
    rw [List.any_eq_false]
    intro l hl
    rw [linesOf, List.mem_eraseDups, List.map_map, List.mem_map] at hl
    obtain ⟨k, hk, rfl⟩ := hl
    exact Bool.eq_false_iff.1 (h k (List.mem_range.1 hk))
  rw [scratchRead, hclean, if_neg Bool.false_ne_true]
  rfl

theorem scalarLoad : ScalarLoad := by
  intro s g nw d base z x off t hguard ht
  have hexec := (exec_ld g nw d base z x off s).trans (guarded_true s g _ hguard)
  rw [ht, checked_ok] at hexec
  by_cases hscratch : isScratch s t.key = true
  · rw [if_pos hscratch] at hexec ⊢
    intro hquiet hclean
    simp only [fireReads_quiet s hquiet, scratchRead_of_clean _ _ hclean] at hexec
    exact gives_of_pushResult hexec rfl (by decide) (landResult_scalarResult · 4 4 ⟨nw, false⟩ d _)
  · rw [if_neg hscratch] at hexec ⊢
    exact asks_of_sendRead hexec ⟨rfl, rfl, rfl, rfl⟩ fun prior => ⟨rfl, rfl, rfl⟩

theorem scalarStore : ScalarStore := by
  intro s g data base z glob line off t hguard ht hleaves
  have hexec := (exec_st g data base z glob line off s).trans (guarded_true s g _ hguard)
  rw [ht, checked_ok] at hexec
  exact sends_of_sendItem hexec ⟨rfl, rfl, rfl, rfl⟩ (.inl hleaves) fun seq prior status => ⟨rfl, rfl, rfl, rfl, rfl, rfl⟩

/-- Settles O16: a load by where its bytes lie, a store by the item that sets out. -/
theorem scalarMemory : Obligations.ScalarMemory := by
  unfold Obligations.ScalarMemory
  exact ⟨scalarLoad, scalarStore⟩

/-! ### Atomics and reductions (R181, R183) -/

theorem exec_amoRows : ∀ r ∈ amoRows, ∀ g d a b s, exec (r.1 g d a b) s = atomic r.2.1 r.2.2 g d a b s := by
  simp only [amoRows, List.forall_mem_cons]
  exact ⟨exec_amoAdd, exec_amoAnd, exec_amoOr, exec_amoXor, exec_amoMin, exec_amoMax, exec_amoMinn, exec_amoMaxn, exec_amoSwap,
    exec_amoCas, exec_amowAdd, exec_amowAnd, exec_amowOr, exec_amowXor, exec_amowMin, exec_amowMax, exec_amowMinn, exec_amowMaxn,
    exec_amowSwap, exec_amowCas, exec_amowFadd, exec_amowFmax, List.forall_mem_nil _⟩

theorem atomics : Atomics := by
  intro r hr s g d a b t hguard ht hleaves
  have hexec := (exec_amoRows r hr g d a b s).trans (guarded_true s g _ hguard)
  rw [ht, checked_ok] at hexec
  refine sends_of_sendItem hexec ⟨rfl, rfl, rfl, rfl⟩ (hleaves.imp_right fun hd => ?_) fun seq prior status =>
    ⟨?_, rfl, rfl, rfl, rfl, rfl⟩
  · simp only [if_neg hd, Option.isSome_some]
  · cases b <;> rfl

/-- A reduction row's instruction, whose floating-point forms have no 64-bit form. -/
theorem exec_redRows : ∀ r ∈ redRows, ∀ g ord z a b s, (isFloatOp r.2 = true → z = false) →
    exec (r.1 g ord z a b) s = reduction r.2 g ord z a b s := by
  simp only [redRows, List.forall_mem_cons]
  refine ⟨?_, ?_, ?_, ?_, ?_, ?_, ?_, ?_, ?_, ?_, List.forall_mem_nil _⟩
  · exact fun g ord z a b s _ => exec_redAdd g ord z a b s
  · exact fun g ord z a b s _ => exec_redAnd g ord z a b s
  · exact fun g ord z a b s _ => exec_redOr g ord z a b s
  · exact fun g ord z a b s _ => exec_redXor g ord z a b s
  · exact fun g ord z a b s _ => exec_redMin g ord z a b s
  · exact fun g ord z a b s _ => exec_redMax g ord z a b s
  · exact fun g ord z a b s _ => exec_redMinn g ord z a b s
  · exact fun g ord z a b s _ => exec_redMaxn g ord z a b s
  · exact fun g ord z a b s hz => hz rfl ▸ exec_redFadd g ord a b s
  · exact fun g ord z a b s hz => hz rfl ▸ exec_redFmax g ord a b s

theorem reductions : Reductions := by
  intro r hr s g ord z a b t hguard hz ht hleaves
  have hexec := (exec_redRows r hr g ord z a b s hz).trans (guarded_true s g _ hguard)
  rw [ht, checked_ok] at hexec
  exact sends_of_sendItem hexec ⟨rfl, rfl, rfl, rfl⟩ (.inl hleaves) fun seq prior status => ⟨rfl, rfl, rfl, rfl, rfl, rfl⟩

/-! ### Counters (R185 to R187) -/

/-- An add at a place that takes counter operations (R185). -/
theorem counterOp_of_takes {s : State} {t : Target} (amt : Word) (hhost : keySpace s t.key ≠ .host)
    (hpeer : ∀ p, t.peer = some p → peerIrsere s p = true) : counterOp s t amt = .cadd t.key amt := by
  unfold counterOp
  split
  · next p hp => rw [if_pos (hpeer p hp)]
  · split
    · next hh => exact absurd hh hhost
    · rfl

theorem sends_of_counterItem {s : State} {i : Instr} {op : Target → Word → ItemOp} {isMax : Bool} {g : Guard} {line : BitVec 3}
    {glob : Bool} {a b : Src} {scope : Scope} {rel : Bool} {t : Target} (hexec : exec i s = counterItem op isMax g line glob a b scope rel s)
    (hguard : s.ctx.guard g = true) (ht : counterCheck s isMax line a = .ok t) (hleaves : Leaves s t.key) :
    Sends s i fun m => m.op = op t (s.ctx.src b) ∧ m.line = line ∧ m.glob = glob ∧ m.rel = rel ∧
      (rel = true → m.scope = scope ∧ ∀ id ∈ coveredBy s s.ctx ((s.ctx.src a).setWidth 52), id ∈ m.after) := by
  rw [counterItem, guarded_true s g _ hguard, ht, checked_ok] at hexec
  exact sends_of_sendItem hexec ⟨rfl, rfl, rfl, rfl⟩ (.inl hleaves) fun seq prior status =>
    ⟨rfl, rfl, rfl, rfl, fun hrel => ⟨if_pos hrel, fun id hid => by rw [if_pos hrel]; exact hid⟩⟩

theorem counterOps : CounterOps := by
  intro s g line glob a b scope rel t hguard hleaves
  refine ⟨fun ht hhost hpeer => ?_, fun ht => ?_⟩
  · rw [← counterOp_of_takes (s.ctx.src b) hhost hpeer]
    exact sends_of_counterItem (exec_cadd g line glob a b scope rel s) hguard ht hleaves
  · exact sends_of_counterItem (exec_cmax g line glob a b scope rel s) hguard ht hleaves

/-! ### Changes of an edge cache alone -/

/-- t is s but for the edge cache of cube c. -/
def EdgeChanges (c : CubeId) (s t : State) : Prop := ∃ e, t = s.modCube c fun k => { k with edge := e }

theorem EdgeChanges.refl (c : CubeId) (s : State) : EdgeChanges c s s := ⟨(s.cube c).edge, (modCube_id s c).symm⟩
theorem EdgeChanges.trans {c : CubeId} {s t u : State} (h : EdgeChanges c s t) (h' : EdgeChanges c t u) : EdgeChanges c s u := by
  obtain ⟨e, rfl⟩ := h
  obtain ⟨e', rfl⟩ := h'
  exact ⟨e', modCube_modCube s c _ _⟩
theorem EdgeChanges.foldl {α : Type} {c : CubeId} {f : State → α → State} (h : ∀ s a, EdgeChanges c s (f s a)) (as : List α) (s : State) :
    EdgeChanges c s (as.foldl f s) := by
  induction as generalizing s with
  | nil => exact .refl c s
  | cons a as ih => exact (h s a).trans (ih (f s a))

/-- An acquire changes nothing but the edge cache (R113). -/
theorem edgeChanges_acquireRegion (s : State) (c : CubeId) (ag : Agent) (region : VA × Nat) :
    EdgeChanges c s (acquireRegion s c ag region) := by
  by_cases h : acquireGranules < region.2 / 4096
  · rw [acquireRegion, if_pos h]
    exact ⟨[], rfl⟩
  · rw [acquireRegion, if_neg h]
    refine EdgeChanges.foldl (fun s n => ?_) _ s
    split
    · simp only []
      split
      · exact ⟨_, rfl⟩
      · exact .refl c s
    · exact .refl c s

theorem edgeChanges_acquire (s : State) (c : CubeId) (x : Ctx) (regions : List (VA × Nat)) : EdgeChanges c s (acquire s c x regions) :=
  EdgeChanges.foldl (fun s r => edgeChanges_acquireRegion s c (x.agent c 1) r) regions s

/-! ### Counter reads -/

/-- A scalar result reaches the running context alone, where it lands at its latency. -/
theorem writeS0_lands (s : State) {l : Nat} (d : SReg) (v : Word) (hl : 0 < l) :
    ∃ y, s.writeS0 l d v = s.modCtx (fun _ => y) ∧ Lands l (toReg d v) s.ctx y := by
  obtain ⟨hbefore, hafter⟩ := lands_push s.ctx
    [{ scalarResult l 0 ⟨false, false⟩ d v with cls := s.bundle.cls, pos := s.place, chk := s.bundle.chk }]
    (List.forall_mem_singleton.2 rfl) hl
  exact ⟨_, modCtx_const s _, hbefore, hafter.trans (landResult_scalarResult _ l 0 ⟨false, false⟩ d v _ _ _ _)⟩

/-- What a satisfied wait leaves: no wait, the value for the next bundle, and an edge cache that an acquire may have changed. -/
theorem cwait_of_satisfied {s : State} {g : Guard} (d : SReg) (a b : Src) (scope : Scope) (acq np : Bool) {v : Word}
    (hguard : s.ctx.guard g = true) (hwait : s.ctx.wait = .satisfied v) :
    ∃ y e, exec (.cwait g d a b scope acq np) s = .next ((s.modCube s.me fun k => { k with edge := e }).modCtx fun _ => y) ∧
      Lands 1 (toReg d v) { s.ctx with wait := .none } y ∧ (acq = false → e = (s.cube s.me).edge) := by
  have hexec := (exec_cwait g d a b scope acq np s).trans (guarded_true s g _ hguard)
  simp only [hwait] at hexec
  obtain ⟨e, hacq, hsame⟩ : ∃ e, (if acq then acquire (s.modCtx Ctx.dropWait) s.me s.ctx (boundRegions s.ctx (addrOf s.ctx a))
      else s.modCtx Ctx.dropWait) = (s.modCube s.me fun k => { k with edge := e }).modCtx Ctx.dropWait ∧
        (acq = false → e = (s.cube s.me).edge) := by
    cases acq
    · exact ⟨(s.cube s.me).edge, congrArg (State.modCtx · Ctx.dropWait) (modCube_id s s.me).symm, fun _ => rfl⟩
    · obtain ⟨e, he⟩ := edgeChanges_acquire (s.modCtx Ctx.dropWait) s.me s.ctx (boundRegions s.ctx (addrOf s.ctx a))
      exact ⟨e, he.trans ((modCube_modCube s s.me _ _).trans
        (modCube_modCube s s.me (fun k => { k with edge := e }) (Cube.modCore · Ctx.dropWait)).symm), nofun⟩
  have hctx : (s.modCube s.me fun k => { k with edge := e }).ctx = s.ctx := by
    rw [State.ctx, me_modCube, cube_modCube_self]; rfl
  obtain ⟨y, hwrite, hland⟩ := writeS0_lands ((s.modCube s.me fun k => { k with edge := e }).modCtx Ctx.dropWait) d v Nat.one_pos
  rw [ctx_modCtx, hctx] at hland
  refine ⟨y, e, hexec.trans (congrArg Host.Outcome.next ?_), hland, hsame⟩
  exact (congrArg (State.writeS0 · 1 d v) hacq).trans (hwrite.trans (modCtx_modCtx _ _ _))

theorem counterReads : CounterReads := by
  intro s g d a b scope acq np t hguard
  refine ⟨fun ht hwait => ?_, fun v hwait => cwait_of_satisfied d a b scope acq np hguard hwait, fun ht => ?_⟩
  · have hexec := (exec_cwait g d a b scope acq np s).trans (guarded_true s g _ hguard)
    simp only [hwait, ht, checked_ok] at hexec
    exact ⟨_, _, hexec, rfl, rfl, rfl, rfl, rfl, rfl, rfl, rfl, by simp [waitInfo]⟩
  · have hexec := (exec_crd g d a scope acq s).trans (guarded_true s g _ hguard)
    rw [ht, checked_ok] at hexec
    cases acq <;> exact ⟨_, _, hexec, rfl, rfl, rfl, rfl, rfl, rfl, rfl⟩

/-- Settles O18: items by what sets out, waits and counter reads by the request that they send. -/
theorem atomicsAndCounters : Obligations.AtomicsAndCounters := by
  unfold Obligations.AtomicsAndCounters
  exact ⟨atomics, reductions, counterOps, counterReads⟩

end Sys2Proof.Machine

/-! PROOFS. What `nop`, `cyc`, `self`, `noise` and `sysrd` give, and what a permitted `syswr` changes at the end of its bundle (R157, R164,
R165). -/
namespace Sys2Proof.Machine

open Sys2Proof.Say

/-! ### Values -/

theorem popRead_eq_drained (s : State) (n : Nat) : popRead s s.me n = drained s n := by
  unfold popRead drained
  split
  · rfl
  · rfl
  · rfl
  · next h1 h2 h3 => rw [if_neg (fun h => h1 h), if_neg (fun h => h2 h), if_neg (fun h => h3 h)]

/-- Updates of the running context and of its bundle commute. -/
theorem modBundle_modCtx (s : State) (f : BundleState → BundleState) (g : Ctx → Ctx) :
    (s.modBundle f).modCtx g = (s.modCtx g).modBundle f :=
  (modCube_modCube s s.me (Cube.modBundle · f) (Cube.modCore · g)).trans
    (modCube_modCube s s.me (Cube.modCore · g) (Cube.modBundle · f)).symm

theorem queue_ended {s : State} (h : Closes s) : (ended s).noise.queue = (popNoise s.ctx s.bundle).noise.queue := by
  rw [ended, cube_endBundle_of_closes h, Cube.core_closeBundle, stepPc_eq]
  rfl

section
variable {s : State} {g : Guard} (hguard : s.ctx.guard g = true)
include hguard

theorem gives_writeS0 {i : Instr} {l : Nat} {d : SReg} {v : Word} (hl : 0 < l) (hexec : exec i s = s.guarded g fun _ s => s.writeS0 l d v) :
    Gives s i l (toReg d v) :=
  gives_of_pushResult (hexec.trans (guarded_true s g _ hguard)) rfl hl (landResult_scalarResult · l 0 ⟨false, false⟩ d _)

/-- `noise` takes the oldest word of a queue that holds one. -/
theorem noise_of_cons (d : SReg) {w : Word} {rest : List Word} (hq : s.ctx.noise.queue = w :: rest) :
    ∃ y u, exec (.noise g d) s = .next u ∧ u = (s.modCtx fun _ => y).modBundle (fun b => { b with popS := true }) ∧
      Lands 1 (toReg d w) s.ctx y ∧ (Closes s → s.bundle.popV = false → (ended u).noise.queue = rest) := by
  have hexec := (exec_noise g d s).trans (guarded_true s g _ hguard)
  simp only [hq] at hexec
  obtain ⟨y, hwrite, hland⟩ := writeS0_lands (s.modBundle fun b => { b with popS := true }) d w Nat.one_pos
  rw [ctx_modBundle] at hland
  refine ⟨y, _, hexec.trans (congrArg Host.Outcome.next (hwrite.trans (modBundle_modCtx s _ _))), rfl, hland, fun hcloses hv => ?_⟩
  obtain ⟨hctl, hsysw, hpost⟩ := hcloses
  obtain ⟨rs, hy⟩ : ∃ rs, y = { s.ctx with results := rs } := hland.1 0 Nat.one_pos
  rw [queue_ended ⟨by simpa using hctl, by simpa using hsysw, by simpa using hpost⟩]
  simp [popNoise, hy, hq, hv]

theorem sysrd_of_readable (d : SReg) {n : BitVec 12} (hread : readTraps s.ctx.mode n.toNat = false) :
    ∃ y, exec (.sysrd g d n) s = .next (drained (s.modCtx fun _ => y) n.toNat) ∧
      Lands 2 (toReg d (regValue s s.me s.ctx n.toNat)) s.ctx y := by
  obtain ⟨y, hwrite, hland⟩ := writeS0_lands s d (regValue s s.me s.ctx n.toNat) Nat.two_pos
  refine ⟨y, ?_, hland⟩
  rw [exec_sysrd, execSysrd, guarded_true s g _ hguard, hread, if_neg Bool.false_ne_true, hwrite]
  exact congrArg Host.Outcome.next (popRead_eq_drained (s.modCtx fun _ => y) n.toNat)
end

theorem systemValues : SystemValues := fun s g d hguard =>
  ⟨exec_nop s, gives_writeS0 hguard Nat.one_pos (exec_cyc g d s),
    gives_writeS (m := ⟨false, false⟩) (v := fun x => x.task.index.setWidth 64) (exec_self g d s) hguard Nat.one_pos,
    fun w rest hq => noise_of_cons hguard d hq, fun n hread => sysrd_of_readable hguard d hread⟩

/-! ### Writes -/

/-- A write of a register of the running context, made at the end of its bundle. -/
theorem ended_withWrite {s : State} (h : Closes s) {n : BitVec 12} {v : Word} {f : Ctx → Ctx} (hcur : (s.cube s.me).cur ≠ .none)
    (hwrite : ∀ u : State, sysWrite u s.me s.ctx.mode n.toNat v = u.modRunning s.me f) : setsOwn s n v f := by
  rw [setsOwn, ended, me_withWrite, endBundle_withWrite h, hwrite, State.modRunning, if_neg, cube_modCube_self]
  · rfl
  · rw [cube_endBundle_of_closes h, Cube.cur_closeBundle]
    exact hcur

theorem sysWrite_of_mayWrite {s : State} {c : CubeId} {m : Mode} {n : Nat} {v : Word} (h : mayWrite m n = true) (hn : n < 0x200) :
    sysWrite s c m n v = writeSeq s c n v := by
  rw [sysWrite, h, if_neg (by decide), if_pos hn]

theorem mayWrite_frm (m : Mode) : mayWrite m 0x002 = true := by cases m <;> rfl
theorem mayWrite_of_not_task {m : Mode} (h : m ≠ .task) : mayWrite m 0x050 = true ∧ mayWrite m 0x018 = true := by
  cases m
  · exact absurd rfl h
  all_goals exact ⟨rfl, rfl⟩

/-- The rounding mode takes the codes below 5. -/
theorem writeSeq_frm (s : State) (c : CubeId) (v : Word) : writeSeq s c 0x002 v = s.modRunning c fun x =>
    if v.toNat % 8 < 5 then { x with sys := { x.sys with frm := v.setWidth 3 } } else x := by
  have hcode : (v.extractLsb' 0 3).toNat = v.toNat % 8 := by simp
  by_cases h : v.toNat % 8 < 5
  · simp only [writeSeq, hcode, h, if_true, if_neg (Nat.not_le.2 h)]
  · simp only [writeSeq, hcode, if_pos (Nat.not_lt.1 h), h, if_false, State.modRunning, Cube.modCore, modCube_id, ite_self]

theorem systemWrites : SystemWrites := by
  intro s g r hguard h
  refine ⟨fun n hn => ⟨exec_syswr_of_guard hguard r hn, endBundle_withWrite h n _⟩, fun v hcur => ⟨?_, fun hmode => ?_⟩⟩
  · refine ended_withWrite h hcur fun u => (sysWrite_of_mayWrite (mayWrite_frm _) (by decide)).trans ?_
    exact writeSeq_frm u s.me v
  · obtain ⟨hasn, htvec⟩ := mayWrite_of_not_task hmode
    exact ⟨ended_withWrite h hcur fun u => sysWrite_of_mayWrite hasn (by decide),
      ended_withWrite h hcur fun u => sysWrite_of_mayWrite htvec (by decide)⟩

/-- Settles O19: the values by the results that they push, the writes by what `sysWrite` does to the running context. -/
theorem systemRegisters : Obligations.SystemRegisters := by
  unfold Obligations.SystemRegisters
  exact ⟨systemValues, systemWrites⟩

end Sys2Proof.Machine

/-! PROOFS. What control instructions do once their bundle has ended, and what task mode may not do (R158, R161 to R163, R165). -/
namespace Sys2Proof.Machine

open Sys2Proof.Say

/-! ### A context that leaves its core with nothing out -/

/-- The context of the core goes to its place, with a status, its results landed, and waiting for nothing unless it is parked. -/
def Cube.putAway (k : Cube) (st : Status) : Cube :=
  let x := { landDue k.core with status := st, wait := match k.core.wait with | .parked => .parked | _ => .none }
  match k.cur with
  | .none => { k with core := landDue k.core }
  | .shelf i => { k with core := landDue k.core, shelves := k.shelves.set i (some x), cur := .none, leave := .none }
  | .runtime => { k with core := landDue k.core, rt := x, cur := .none, leave := .none }
  | .secure => { k with core := landDue k.core, sec := x, cur := .none, leave := .none }

theorem saveCore_of_rest {s : State} {c : CubeId} (st : Status) (hcur : (s.cube c).cur ≠ .none) (hrest : AtRest s (s.cube c).core.sid) :
    saveCore s c st = takeWalks (s.modCube c (Cube.putAway · st)) (.cube c) 0 := by
  have hdrop : dropWaitRead (takeWalks (s.modCube c fun k => k.modCore landDue) (.cube c) 0) (s.cube c).core.sid =
      takeWalks (s.modCube c fun k => k.modCore landDue) (.cube c) 0 := dropWaitRead_of_atRest hrest
  unfold saveCore
  simp only [if_neg hcur, hdrop]
  rw [takeWalks_modCube, modCube_modCube]
  refine congrArg (takeWalks · (.cube c) 0) (modCube_congr ?_)
  cases hwhere : (s.cube c).cur <;> simp only [Cube.modCore, Cube.putAway, Ctx.wait_landDue, hwhere] <;> rfl

theorem cube_saveCore_of_rest {s : State} {c : CubeId} (st : Status) (hcur : (s.cube c).cur ≠ .none)
    (hrest : AtRest s (s.cube c).core.sid) : (saveCore s c st).cube c = (s.cube c).putAway st := by
  rw [saveCore_of_rest st hcur hrest, cube_takeWalks, cube_modCube_self]
theorem mem_saveCore_of_rest {s : State} {c : CubeId} (st : Status) (hcur : (s.cube c).cur ≠ .none)
    (hrest : AtRest s (s.cube c).core.sid) : (saveCore s c st).mem = s.mem := by
  rw [saveCore_of_rest st hcur hrest]; rfl

section
variable {k : Cube} (st : Status)

theorem Cube.putAway_runtime (h : k.cur = .runtime) : k.putAway st = { k with
    core := landDue k.core
    rt := { landDue k.core with status := st, wait := match k.core.wait with | .parked => .parked | _ => .none }
    cur := .none, leave := .none } := by
  rw [Cube.putAway, h]
theorem Cube.putAway_secure (h : k.cur = .secure) : k.putAway st = { k with
    core := landDue k.core
    sec := { landDue k.core with status := st, wait := match k.core.wait with | .parked => .parked | _ => .none }
    cur := .none, leave := .none } := by
  rw [Cube.putAway, h]
theorem Cube.putAway_shelf {i : ShelfId} (h : k.cur = .shelf i) : k.putAway st = { k with
    core := landDue k.core
    shelves := k.shelves.set i (some { landDue k.core with
      status := st, wait := match k.core.wait with | .parked => .parked | _ => .none })
    cur := .none, leave := .none } := by
  rw [Cube.putAway, h]
end

/-! ### A free core takes the next ready strand -/

theorem nextReady_of_empty {k : Cube} (h : k.ready = []) : nextReady k = none := by rw [nextReady, h]; rfl
theorem nextReady_congr {k k' : Cube} (hready : k'.ready = k.ready) (hshelves : k'.shelves = k.shelves) : nextReady k' = nextReady k := by
  have hprio : shelfPrio k' = shelfPrio k := funext fun i => by rw [shelfPrio, shelfPrio, hshelves]
  rw [nextReady, nextReady, hready, hprio]

theorem dispatchNext_of_none {s : State} {c : CubeId} (h : nextReady (s.cube c) = none) : dispatchNext s c = s := by
  rw [dispatchNext, h]
theorem dispatchNext_of_some {s : State} {c : CubeId} {j : ShelfId} (h : nextReady (s.cube c) = some j)
    (hlive : (s.cube c).computes = true) : dispatchNext s c = loadShelf s c j := by
  rw [dispatchNext, h]
  exact if_pos hlive

theorem loadShelf_keeps (s : State) (c : CubeId) (i : ShelfId) :
    ((loadShelf s c i).cube c).shelves = (s.cube c).shelves ∧ ((loadShelf s c i).cube c).rt = (s.cube c).rt ∧
      ((loadShelf s c i).cube c).monitors = (s.cube c).monitors ∧ (loadShelf s c i).mem = s.mem := by
  rw [loadShelf, cube_modCube_self]
  split <;> exact ⟨rfl, rfl, rfl, rfl⟩
theorem cur_loadShelf {s : State} {c : CubeId} (i : ShelfId) (h : (s.cube c).cur = .none) : ((loadShelf s c i).cube c).cur ≠ .runtime := by
  rw [loadShelf, cube_modCube_self]
  split
  · rw [h]; exact nofun
  · exact nofun

/-- A free core that takes a strand, or none, changes neither the images of its cube nor its monitors. -/
theorem dispatchNext_keeps (s : State) (c : CubeId) :
    ((dispatchNext s c).cube c).shelves = (s.cube c).shelves ∧ ((dispatchNext s c).cube c).rt = (s.cube c).rt ∧
      ((dispatchNext s c).cube c).monitors = (s.cube c).monitors ∧ (dispatchNext s c).mem = s.mem := by
  unfold dispatchNext
  split
  · split
    · exact loadShelf_keeps ..
    · exact ⟨rfl, rfl, rfl, rfl⟩
  · exact ⟨rfl, rfl, rfl, rfl⟩

theorem onCore_loadShelf {s : State} {c : CubeId} {j : ShelfId} {y : Ctx} (hget : (s.cube c).shelves.get j = some y)
    (hpatches : (s.cube c).patches = []) : OnCore (loadShelf s c j) c j y := by
  rw [loadShelf_of_unpatched hget hpatches]
  exact ⟨by rw [cube_modCube_self], by rw [cube_modCube_self], by rw [cube_modCube_self]⟩

/-! ### A trapped strand resumes (R161) -/

/-- Shelf i, whose strand is y, holds it ready at an address, at the head of the ready strands. -/
def Cube.readied (k : Cube) (i : ShelfId) (y : Ctx) (pc : VA) : Cube :=
  { k with
    shelves := k.shelves.set i (some { y with pc := pc, status := .ready }), ready := i :: k.ready
    patches := k.patches.filter fun p => !(p.1 == i && decide (0x280 ≤ p.2.1) && decide (p.2.1 < 0x288)) }

theorem foldl_max (f : ShelfId → Nat) (l : List ShelfId) (a : Nat) :
    l.foldl (fun m i => max m (f i)) a = max a (l.foldl (fun m i => max m (f i)) 0) := by
  induction l generalizing a with
  | nil => simp
  | cons i l ih => rw [List.foldl_cons, List.foldl_cons, ih (max a (f i)), ih (max 0 (f i))]; omega

section
variable {k : Cube} {i : ShelfId} {y : Ctx} (pc : VA) (hget : k.shelves.get i = some y)
include hget

theorem shelfPrio_readied : shelfPrio (k.readied i y pc) = shelfPrio k := by
  funext j
  by_cases hj : j = i
  · simp [shelfPrio, Cube.readied, vector_get_set, hj, hget]
  · simp [shelfPrio, Cube.readied, vector_get_set, hj]

/-- The strand that ran next still does when it goes before the one that has become ready. -/
theorem nextReady_readied {j : ShelfId} (hnext : nextReady k = some j) (hlt : shelfPrio k i < shelfPrio k j) :
    nextReady (k.readied i y pc) = some j := by
  have htop : shelfPrio k j = k.ready.foldl (fun m i => max m (shelfPrio k i)) 0 := by simpa using List.find?_some hnext
  have htop' : (i :: k.ready).foldl (fun m i => max m (shelfPrio k i)) 0 = k.ready.foldl (fun m i => max m (shelfPrio k i)) 0 := by
    rw [List.foldl_cons, foldl_max, ← htop]
    omega
  rw [nextReady] at hnext
  rw [nextReady, shelfPrio_readied pc hget, show (k.readied i y pc).ready = i :: k.ready from rfl, htop', List.find?_cons_of_neg, hnext]
  simp only [beq_iff_eq]
  omega
end

section
variable {s : State} {c : CubeId} {i : ShelfId} {y : Ctx} (pc : VA) (hget : (s.cube c).shelves.get i = some y)
  (htrapped : y.status = .trapped)
include hget htrapped

theorem resumeStrand_eq : resumeStrand s c i pc =
    match nextReady ((s.cube c).readied i y pc) with
    | some j => if shelfPrio (s.cube c) i < shelfPrio (s.cube c) j then loadShelf (s.modCube c (Cube.readied · i y pc)) c j
      else loadShelf (s.modCube c (Cube.readied · i y pc)) c i
    | none => loadShelf (s.modCube c (Cube.readied · i y pc)) c i := by
  have hcube : (s.modCube c (Cube.readied · i y pc)).cube c = (s.cube c).readied i y pc := cube_modCube_self ..
  unfold resumeStrand
  simp only [hget, if_pos htrapped]
  rw [← shelfPrio_readied pc hget, ← hcube]
  rfl

theorem exists_resumeStrand_eq : ∃ j, resumeStrand s c i pc = loadShelf (s.modCube c (Cube.readied · i y pc)) c j := by
  rw [resumeStrand_eq pc hget htrapped]
  split
  · split
    · exact ⟨_, rfl⟩
    · exact ⟨_, rfl⟩
  · exact ⟨_, rfl⟩

/-- No strand that is ready goes before the one that resumes. -/
theorem resumeStrand_of_first (hlow : ∀ j ∈ (s.cube c).ready, shelfPrio (s.cube c) j ≤ y.task.prio.toNat) :
    resumeStrand s c i pc = loadShelf (s.modCube c (Cube.readied · i y pc)) c i := by
  rw [resumeStrand_eq pc hget htrapped]
  split
  · next j hnext =>
    rw [if_neg]
    rw [shelfPrio_of_get hget, Nat.not_lt]
    rcases List.mem_cons.1 (mem_ready_of_nextReady hnext) with rfl | hmem
    · exact (shelfPrio_of_get hget).le
    · exact hlow j hmem
  · rfl

theorem resumeStrand_of_rival {j : ShelfId} (hnext : nextReady (s.cube c) = some j)
    (hlt : shelfPrio (s.cube c) i < shelfPrio (s.cube c) j) :
    resumeStrand s c i pc = loadShelf (s.modCube c (Cube.readied · i y pc)) c j := by
  rw [resumeStrand_eq pc hget htrapped, nextReady_readied pc hget hnext hlt]
  exact if_pos hlt
end

/-! ### What a control instruction finds once its bundle has ended -/

@[simp] theorem Cube.mode_closeBundle (k : Cube) : k.closeBundle.core.mode = k.core.mode := by rw [core_closeBundle, stepPc_eq]; rfl
@[simp] theorem Cube.sys_closeBundle (k : Cube) : k.closeBundle.core.sys = k.core.sys := by rw [core_closeBundle, stepPc_eq]; rfl

/-- The runtime context went to its place, and what then came to the core is another context. -/
theorem handlerLeft_of_putAway {u e : State} {c : CubeId} (hcur : (u.cube c).cur ≠ .runtime) (hwas : (e.cube c).cur = .runtime)
    (hrt : (u.cube c).rt = ((e.cube c).putAway .ready).rt) (hmem : u.mem = e.mem) : HandlerLeft u e c := by
  have hland := landDue_eq (e.cube c).core
  rw [Cube.putAway_runtime .ready hwas] at hrt
  exact ⟨hcur, by rw [hrt], by rw [hrt, hland], by rw [hrt, hland], by rw [hrt], by rw [hrt, hland], hmem⟩

/-- Results that land reach the registers and the latches alone, and no field else bears on them. -/
theorem landResult_withPc (x : Ctx) (pc : VA) (r : Result) : landResult { x with pc := pc } r = { landResult x r with pc := pc } := by
  have hS : ∀ (x : Ctx) (d : SReg) (v : Word), Ctx.setS { x with pc := pc } d v = { x.setS d v with pc := pc } := fun x d v => by
    unfold Ctx.setS; split <;> rfl
  have hP : ∀ (x : Ctx) (d : PReg) (v : Bool), Ctx.setP { x with pc := pc } d v = { x.setP d v with pc := pc } := fun x d v => by
    unfold Ctx.setP; split <;> rfl
  have hM : ∀ (x : Ctx) (d : MReg) (v : MWord), Ctx.setM { x with pc := pc } d v = { x.setM d v with pc := pc } := fun x d v => by
    unfold Ctx.setM; split <;> rfl
  have hV : ∀ (x : Ctx) (d : VReg) (v : VWord), Ctx.setV { x with pc := pc } d v = { x.setV d v with pc := pc } := fun _ _ _ => rfl
  have hLS : ∀ (x : Ctx) (n : BitVec 3) (v : Word), Ctx.setLatchS { x with pc := pc } n v = { x.setLatchS n v with pc := pc } :=
    fun x n v => by unfold Ctx.setLatchS; split <;> rfl
  have hLV : ∀ (x : Ctx) (n : BitVec 3) (v : VWord), Ctx.setLatchV { x with pc := pc } n v = { x.setLatchV n v with pc := pc } :=
    fun x n v => by unfold Ctx.setLatchV; split <;> rfl
  unfold landResult
  cases r.sec <;> cases r.kind <;> simp only [hS, hP, hM, hV, hLS, hLV] <;> rfl

theorem landDue_withPc (x : Ctx) (pc : VA) : landDue { x with pc := pc } = { landDue x with pc := pc } := by
  have hfold : ∀ (rs : List Result) (x : Ctx), rs.foldl landResult { x with pc := pc } = { rs.foldl landResult x with pc := pc } := by
    intro rs
    induction rs with
    | nil => exact fun x => rfl
    | cons r rs ih => intro x; rw [List.foldl_cons, List.foldl_cons, landResult_withPc, ih]
  exact hfold _ { x with results := x.results.filter fun r => r.rem != 0 }

/-! ### `halt`, `eret` and `iflush` with nothing out -/

section
variable {e : State} {c : CubeId} (hrest : AtRest e (e.cube c).core.sid)
include hrest

theorem haltContext_shelf {i : ShelfId} (pc : VA) (hcur : (e.cube c).cur = .shelf i) :
    (∃ x, ((haltContext e c pc).cube c).shelves.get i = some x ∧ x.status = .halting ∧ x.pc = pc ∧ x.mode = (e.cube c).core.mode ∧
      x.sid = (e.cube c).core.sid ∧ x.regs = (landDue (e.cube c).core).regs ∧ x.sys = (e.cube c).core.sys) ∧
    (∀ m ∈ ((haltContext e c pc).cube c).monitors, m.shelf ≠ i) ∧ (haltContext e c pc).mem = e.mem ∧
    ((e.cube c).ready = [] → ((haltContext e c pc).cube c).cur = .none) := by
  have hmoved : (e.modCube c fun k => k.modCore fun x => { x with pc := pc }).cube c =
      { e.cube c with core := { (e.cube c).core with pc := pc } } := cube_modCube_self ..
  have hcur' : ((e.modCube c fun k => k.modCore fun x => { x with pc := pc }).cube c).cur = .shelf i := by rw [hmoved]; exact hcur
  have hrest' : AtRest (e.modCube c fun k => k.modCore fun x => { x with pc := pc })
      ((e.modCube c fun k => k.modCore fun x => { x with pc := pc }).cube c).core.sid := by rw [hmoved]; exact hrest
  have hsaved := cube_saveCore_of_rest .halting (by rw [hcur']; exact nofun) hrest'
  have hmem := mem_saveCore_of_rest .halting (by rw [hcur']; exact nofun) hrest'
  rw [Cube.putAway_shelf .halting hcur', hmoved] at hsaved
  have hhalt : haltContext e c pc = dispatchNext (freeMonitor
      (saveCore (e.modCube c fun k => k.modCore fun x => { x with pc := pc }) c .halting) c i) c := by
    simp only [haltContext, hcur]
  obtain ⟨hshelves, -, hmonitors, hmem'⟩ := dispatchNext_keeps (freeMonitor
      (saveCore (e.modCube c fun k => k.modCore fun x => { x with pc := pc }) c .halting) c i) c
  rw [hhalt, hshelves, hmonitors, hmem', freeMonitor, cube_modCube_self, hsaved]
  refine ⟨⟨_, by simp [vector_get_set]; rfl, rfl, ?_, ?_, ?_, ?_, ?_⟩, ?_, hmem, fun hready => ?_⟩
  · rw [landDue_withPc]
  · rw [landDue_eq]
  · rw [landDue_eq]
  · rw [landDue_withPc]
  · rw [landDue_eq]
  · simp
  · rw [dispatchNext_of_none, cube_modCube_self, hsaved]
    rw [cube_modCube_self, hsaved]
    exact nextReady_of_empty hready

theorem haltContext_runtime (pc : VA) (hcur : (e.cube c).cur = .runtime) :
    HandlerLeft (haltContext e c pc) e c ∧ ((e.cube c).ready = [] → ((haltContext e c pc).cube c).cur = .none) ∧
      ∀ j y, nextReady (e.cube c) = some j → (e.cube c).hw.life = .live → (e.cube c).patches = [] →
        (e.cube c).shelves.get j = some y → OnCore (haltContext e c pc) c j y := by
  have hne : (e.cube c).cur ≠ .none := by rw [hcur]; exact nofun
  have hsaved := cube_saveCore_of_rest .ready hne hrest
  have hhalt : haltContext e c pc = dispatchNext (saveCore e c .ready) c := by simp only [haltContext, hcur]
  obtain ⟨-, hrt, -, hmem⟩ := dispatchNext_keeps (saveCore e c .ready) c
  rw [hhalt]
  refine ⟨handlerLeft_of_putAway (cur_dispatchNext (cur_saveCore ..)) hcur (hrt.trans (congrArg Cube.rt hsaved))
    (hmem.trans (mem_saveCore_of_rest .ready hne hrest)), fun hready => ?_, fun j y hnext hlive hpatches hget => ?_⟩
  · rw [dispatchNext_of_none, cur_saveCore]
    rw [hsaved, Cube.putAway_runtime .ready hcur]
    exact nextReady_of_empty hready
  · rw [Cube.putAway_runtime .ready hcur] at hsaved
    rw [dispatchNext_of_some (j := j) (by rw [hsaved]; exact hnext) (by rw [hsaved]; exact beq_iff_eq.2 hlive)]
    exact onCore_loadShelf (by rw [hsaved]; exact hget) (by rw [hsaved]; exact hpatches)
end

theorem eret_of_no_shelf {e : State} {c : CubeId} (hcur : (e.cube c).cur = .runtime)
    (hshelf : (e.cube c).core.sys.tshelf.getLsbD 4 = false) : eret e c = e := by
  simp only [eret, hcur, hshelf, Bool.false_eq_true, if_false]

/-- SEQ_TSHELF with its valid bit and a shelf. -/
theorem tshelf_of_shelf (i : ShelfId) : ((0x10 : BitVec 5) + BitVec.ofNat 5 i.val).getLsbD 4 = true ∧
    (((0x10 : BitVec 5) + BitVec.ofNat 5 i.val).setWidth 4 : BitVec 4).toFin = i ∧
    ((0x10 : BitVec 5) + BitVec.ofNat 5 i.val) &&& 0xF = BitVec.ofNat 5 i.val := by
  have h : ∀ i : Fin 16, ((0x10 : BitVec 5) + BitVec.ofNat 5 i.val).getLsbD 4 = true ∧
      (((0x10 : BitVec 5) + BitVec.ofNat 5 i.val).setWidth 4 : BitVec 4).toFin = i ∧
      ((0x10 : BitVec 5) + BitVec.ofNat 5 i.val) &&& 0xF = BitVec.ofNat 5 i.val := by decide
  exact h i

/-- The runtime context without a strand's shelf in SEQ_TSHELF's valid bit. -/
def State.withShelf (e : State) (c : CubeId) (i : ShelfId) : State :=
  e.modCube c fun k => k.modCore fun x => { x with sys := { x.sys with tshelf := BitVec.ofNat 5 i.val } }

theorem cube_withShelf (e : State) (c : CubeId) (i : ShelfId) : (e.withShelf c i).cube c = (e.cube c).modCore fun x =>
    { x with sys := { x.sys with tshelf := BitVec.ofNat 5 i.val } } := cube_modCube_self ..

theorem eret_of_shelf {e : State} {c : CubeId} {i : ShelfId} (hcur : (e.cube c).cur = .runtime)
    (hshelf : (e.cube c).core.sys.tshelf = 0x10 + BitVec.ofNat 5 i.val) :
    eret e c = resumeStrand (saveCore (e.withShelf c i) c .ready) c i (tpcOf (e.cube c).core) := by
  obtain ⟨hvalid, hfin, hlow⟩ := tshelf_of_shelf i
  have hmod : (e.modCube c fun k => k.modCore fun y => { y with sys := { y.sys with tshelf := y.sys.tshelf &&& 0xF } }) = e.withShelf c i :=
    modCube_congr (by simp only [Cube.modCore, hshelf, hlow])
  simp only [eret, hcur, hshelf, hvalid, if_true, hfin, hmod]

section
variable {e : State} {c : CubeId} (hrest : AtRest e (e.cube c).core.sid)
include hrest

theorem eret_runtime {i : ShelfId} {y : Ctx} (hcur : (e.cube c).cur = .runtime)
    (hshelf : (e.cube c).core.sys.tshelf = 0x10 + BitVec.ofNat 5 i.val) (hget : (e.cube c).shelves.get i = some y)
    (htrapped : y.status = .trapped) (hpatches : (e.cube c).patches = []) :
    HandlerLeft (eret e c) (e.withShelf c i) c ∧
      ((∀ j ∈ (e.cube c).ready, shelfPrio (e.cube c) j ≤ y.task.prio.toNat) →
        OnCore (eret e c) c i { y with pc := tpcOf (e.cube c).core }) ∧
      ∀ j z, nextReady (e.cube c) = some j → j ≠ i → (e.cube c).shelves.get j = some z → y.task.prio.toNat < z.task.prio.toNat →
        OnCore (eret e c) c j z ∧
          ((eret e c).cube c).shelves.get i = some { y with pc := tpcOf (e.cube c).core, status := .ready } ∧
          ((eret e c).cube c).ready = i :: (e.cube c).ready.filter (· != j) := by
  have hcur' : ((e.withShelf c i).cube c).cur = .runtime := by rw [cube_withShelf]; exact hcur
  have hne : ((e.withShelf c i).cube c).cur ≠ .none := by rw [hcur']; exact nofun
  have hrest' : AtRest (e.withShelf c i) ((e.withShelf c i).cube c).core.sid := by rw [cube_withShelf]; exact hrest
  have hsaved := cube_saveCore_of_rest .ready hne hrest'
  have hmem := mem_saveCore_of_rest .ready hne hrest'
  have hrt : ((saveCore (e.withShelf c i) c .ready).cube c).rt = (((e.withShelf c i).cube c).putAway .ready).rt := by rw [hsaved]
  rw [Cube.putAway_runtime .ready hcur', cube_withShelf] at hsaved
  have hget' : ((saveCore (e.withShelf c i) c .ready).cube c).shelves.get i = some y := by rw [hsaved]; exact hget
  have hprio : shelfPrio ((saveCore (e.withShelf c i) c .ready).cube c) = shelfPrio (e.cube c) := by rw [hsaved]; rfl
  have hready : ((saveCore (e.withShelf c i) c .ready).cube c).ready = (e.cube c).ready := by rw [hsaved]; rfl
  have hpatches' : (((saveCore (e.withShelf c i) c .ready).cube c).readied i y (tpcOf (e.cube c).core)).patches = [] := by
    rw [hsaved]
    exact congrArg (List.filter _) hpatches
  have hcube := cube_modCube_self (saveCore (e.withShelf c i) c .ready) c (Cube.readied · i y (tpcOf (e.cube c).core))
  rw [eret_of_shelf hcur hshelf]
  refine ⟨?_, fun hlow => ?_, fun j z hnext hne hgetj hlt => ?_⟩
  · obtain ⟨j, hj⟩ := exists_resumeStrand_eq (tpcOf (e.cube c).core) hget' htrapped
    obtain ⟨-, hrt', -, hmem'⟩ := loadShelf_keeps
      ((saveCore (e.withShelf c i) c .ready).modCube c (Cube.readied · i y (tpcOf (e.cube c).core))) c j
    rw [hj]
    exact handlerLeft_of_putAway (cur_loadShelf j (by rw [hcube]; exact cur_saveCore ..)) hcur'
      (hrt'.trans ((congrArg Cube.rt hcube).trans hrt)) (hmem'.trans hmem)
  · rw [resumeStrand_of_first _ hget' htrapped (by rw [hready, hprio]; exact hlow)]
    exact onCore_loadShelf (y := { y with pc := tpcOf (e.cube c).core, status := .ready })
      (by rw [hcube, Cube.readied, vector_get_set, if_pos rfl]) (by rw [hcube]; exact hpatches')
  · have hnext' : nextReady ((saveCore (e.withShelf c i) c .ready).cube c) = some j :=
      (nextReady_congr hready (by rw [hsaved]; rfl)).trans hnext
    rw [resumeStrand_of_rival _ hget' htrapped hnext' (by rw [hprio, shelfPrio_of_get hget, shelfPrio_of_get hgetj]; exact hlt)]
    have hgetj' : (((saveCore (e.withShelf c i) c .ready).modCube c (Cube.readied · i y (tpcOf (e.cube c).core))).cube c).shelves.get j =
        some z := by
      rw [hcube, Cube.readied, vector_get_set, if_neg hne, hsaved]
      exact hgetj
    have hload := loadShelf_of_unpatched hgetj' (by rw [hcube]; exact hpatches')
    refine ⟨onCore_loadShelf hgetj' (by rw [hcube]; exact hpatches'), ?_, ?_⟩
    · rw [hload, cube_modCube_self, hcube]
      simp only [Cube.readied, vector_get_set, if_true]
    · rw [hload, cube_modCube_self, hcube]
      simp [Cube.readied, hready, hne.symm]

end

/-- The secure context leaves the core to the runtime's, which may go on elsewhere. -/
theorem loadRuntime_secure {e t : State} {c : CubeId} {r : Ctx} (hcur : (e.cube c).cur = .secure)
    (ht : t.cube c = { (e.cube c).putAway .ready with rt := r }) (hmem : t.mem = e.mem) :
    ((loadRuntime t c).cube c).cur = .runtime ∧ ((loadRuntime t c).cube c).sec.regs = (landDue (e.cube c).core).regs ∧
      ((loadRuntime t c).cube c).sec.sys = (e.cube c).core.sys ∧ (loadRuntime t c).mem = e.mem ∧
      ((loadRuntime t c).cube c).core = { r with status := .running } := by
  rw [Cube.putAway_secure .ready hcur] at ht
  simp only [loadRuntime, cube_modCube_self, ht]
  exact ⟨trivial, trivial, by rw [landDue_eq], hmem, trivial⟩

/-! ### The obligation -/

theorem privileged_of_not_task {s : State} {g : Guard} (f : Ctx → State → State) (hguard : s.ctx.guard g = true) (hmode : s.ctx.mode ≠ .task) :
    s.privileged g f = .next (f s.ctx s) := (guarded_true s g _ hguard).trans (congrArg Host.Outcome.next (if_neg hmode))
theorem privileged_of_task {s : State} {g : Guard} (f : Ctx → State → State) (hguard : s.ctx.guard g = true) (hmode : s.ctx.mode = .task) :
    s.privileged g f = .next (takeTrap s s.me (slotTrapWith s 0x03 0 0 0)) :=
  (guarded_true s g _ hguard).trans (congrArg Host.Outcome.next (if_pos hmode))

theorem applyControl_of_busy {s : State} {c : CubeId} (pc : VA) {x : Control} (hx : x.leaves = true)
    (h : interlocksOut s (s.cube c).core.sid = true) : applyControl s c pc x = s.modCube c fun k => { k with leave := .control x pc } := by
  rw [applyControl, hx, h, Bool.and_self, if_pos rfl]

theorem controlAtEnd : ControlAtEnd := by
  intro s g hguard h c e after
  have hafter : ∀ x, after x = applyControl e c s.ctx.pc x := endBundle_withCtl h
  have hcube : e.cube c = (s.cube c).closeBundle := cube_endBundle_of_closes h
  have hsid : (e.cube c).core.sid = s.ctx.sid := sid_endBundle_of_closes h
  have hmode : (e.cube c).core.mode = s.ctx.mode := by rw [hcube, Cube.mode_closeBundle]; rfl
  have hsys : (e.cube c).core.sys = s.ctx.sys := by rw [hcube, Cube.sys_closeBundle]; rfl
  have hcur : (e.cube c).cur = (s.cube c).cur := by rw [hcube, Cube.cur_closeBundle]
  refine ⟨(exec_halt g s).trans (guarded_true s g _ hguard), (exec_iflush g s).trans (guarded_true s g _ hguard), ?_,
    fun hm => (exec_eret g s).trans (privileged_of_not_task _ hguard hm), fun x hx hbusy => ?_, fun hrest => ?_⟩
  · rw [hafter, ← hmode, ← hsys]
    exact (if_neg Bool.false_ne_true).trans rfl
  · rw [hafter, applyControl_of_busy _ (by rcases hx with rfl | rfl <;> rfl) (by rw [hsid]; exact hbusy)]
  · have hidle : ∀ x, after x = doControl e c s.ctx.pc x := fun x =>
      (hafter x).trans (applyControl_of_idle _ x (interlocksOut_of_atRest (by rw [hsid]; exact hrest)))
    have hhalt : after .halt = haltContext e c s.ctx.pc := hidle .halt
    have heret : after .eret = eret e c := hidle .eret
    have htpc : tpcOf (e.cube c).core = s.ctx.sys.trec.tpc.setWidth 52 &&& ~~~(0xF : VA) := by rw [tpcOf, hsys]
    rw [← hsid] at hrest
    refine ⟨fun i hi => ?_, fun hrt => ?_, fun hrt hshelf => ?_, fun i y hrt hshelf hget htrapped hpatches => ?_, fun hsec x hx => ?_⟩
    · rw [hhalt, ← hmode, ← hsid]
      exact haltContext_shelf hrest s.ctx.pc (hcur.trans hi)
    · rw [hhalt]
      exact haltContext_runtime hrest s.ctx.pc (hcur.trans hrt)
    · rw [heret]
      exact eret_of_no_shelf (hcur.trans hrt) (by rw [hsys]; exact hshelf)
    · rw [heret, ← htpc]
      exact eret_runtime hrest (hcur.trans hrt) (by rw [hsys]; exact hshelf) hget htrapped hpatches
    · have hcur' := hcur.trans hsec
      have hne : (e.cube c).cur ≠ .none := by rw [hcur']; exact nofun
      have hsaved := cube_saveCore_of_rest .ready hne hrest
      have hmem := mem_saveCore_of_rest .ready hne hrest
      rcases hx with rfl | rfl
      · rw [hhalt]
        have hu : haltContext e c s.ctx.pc = loadRuntime (saveCore e c .ready) c := by simp only [haltContext, hcur']
        have hload := loadRuntime_secure (r := (e.cube c).rt) hcur' (hsaved.trans (by rw [Cube.putAway_secure .ready hcur'])) hmem
        rw [hu, if_neg (by decide)]
        exact hload
      · rw [heret]
        have hu : eret e c = loadRuntime ((saveCore e c .ready).modCube c fun k =>
            { k with rt := { k.rt with pc := tpcOf (e.cube c).core } }) c := by simp only [eret, hcur']
        have hload := loadRuntime_secure (t := (saveCore e c .ready).modCube c fun k =>
            { k with rt := { k.rt with pc := tpcOf (e.cube c).core } }) (r := { (e.cube c).rt with pc := tpcOf (e.cube c).core }) hcur'
          (by rw [cube_modCube_self, hsaved, Cube.putAway_secure .ready hcur']) hmem
        rw [hu, if_pos rfl, ← htpc]
        exact hload

/-- `tlbi` and the traps of task mode. -/
theorem privileged : Privileged := by
  intro s g hguard
  refine ⟨fun hm d a code => ?_, fun hm => ⟨?_, fun d a code => ?_⟩, fun d n hn => ?_, fun r n hn => traps_syswr hguard r hn⟩
  · exact (exec_tlbi g d a code s).trans (privileged_of_not_task _ hguard hm)
  · exact (exec_eret g s).trans (privileged_of_task _ hguard hm)
  · exact (exec_tlbi g d a code s).trans (privileged_of_task _ hguard hm)
  · rw [Traps, exec_sysrd, execSysrd, guarded_true s g _ hguard, if_pos hn]
    rfl

/-- Settles O20: what a control instruction leaves for the end of its bundle, and what `doControl` makes of it there. -/
theorem controlAndPrivilege : Obligations.ControlAndPrivilege := by
  unfold Obligations.ControlAndPrivilege
  exact ⟨controlAtEnd, privileged⟩

end Sys2Proof.Machine

/-! PROOFS. Fences note what they order, and bindings change their table alone (R122, R193, R194, R196, R197). -/
namespace Sys2Proof.Machine

open Sys2Proof.Say

/-! ### What a strand has in flight -/

theorem mem_openItems {s : State} {m : Item} (hm : m ∈ s.items) (hcmd : m.cmd = none) : m.id ∈ openItems s m.sid :=
  List.mem_map.2 ⟨m, List.mem_filter.2 ⟨hm, by simp [hcmd]⟩, rfl⟩
theorem mem_openReads {s : State} {r : ReadReq} (hr : r ∈ s.reads) : r.id ∈ openReads s r.sid :=
  List.mem_map.2 ⟨r, List.mem_filter.2 ⟨hr, by simp⟩, rfl⟩

theorem fences_of_guard {s : State} {g : Guard} (kind : FenceKind) (scope : Scope) (hguard : s.ctx.guard g = true) :
    exec (.fence g kind scope) s = .next (fencing s (fenceHold s s.ctx kind scope) []) :=
  (exec_fence g kind scope s).trans (guarded_true s g _ hguard)

/-- What a `qfence` with a mask notes. -/
def qfenceHold (s : State) (mask : BitVec 6) : QFenceHold :=
  ⟨mask, ((s.cube s.me).cmds.filter fun m => m.sid == s.ctx.sid && mask.getLsbD (queueBit m.queue)).map Cmd.id,
    if mask.getLsbD 5 then openItems s s.ctx.sid else [], if mask.getLsbD 5 then openReads s s.ctx.sid else [], mask.getLsbD 5⟩

theorem exec_qfence_of_guard {s : State} {g : Guard} (mask : BitVec 6) (hguard : s.ctx.guard g = true) :
    exec (.qfence g mask) s = .next (if mask = 0 then s
      else if mask.getLsbD 5 then (fencing s (fenceHold s s.ctx .full .pkg) (qfenceHold s mask).cmds).modCtx fun x =>
        { x with qfences := x.qfences ++ [qfenceHold s mask] }
      else s.modCtx fun x => { x with qfences := x.qfences ++ [qfenceHold s mask] }) := by
  refine (exec_qfence g mask s).trans ((guarded_true s g _ hguard).trans (congrArg Host.Outcome.next ?_))
  by_cases hmask : mask = 0
  · rw [if_pos hmask, if_pos hmask]
  · rw [if_neg hmask, if_neg hmask]
    cases hcore : mask.getLsbD 5 with
    | true =>
      simp only [if_true, fencing, modCtx_modCtx]
      simp only [qfenceHold, hcore]
      rfl
    | false =>
      simp only [qfenceHold, hcore]
      rfl

theorem fences : Fences := by
  intro s g hguard
  refine ⟨fun kind scope => ⟨_, fences_of_guard kind scope hguard, rfl, rfl, fun m hm hsid hcmd hkind => ?_, fun r hr hsid hkind => ?_,
    fun t ht hsid hkind hscope => ?_⟩, fun mask => ⟨qfenceHold s mask, rfl, rfl, fun m hm hsid hbit => ?_,
      fun hcore m hm hsid hcmd => ?_, exec_qfence_of_guard mask hguard⟩⟩
  · simp only [fenceHold, if_neg hkind]
    exact hsid ▸ mem_openItems hm hcmd
  · simp only [fenceHold, if_neg hkind]
    exact hsid ▸ mem_openReads hr
  · simp only [fenceHold, hkind, hscope, ne_eq, not_false_iff, and_self, if_true]
    exact List.mem_map.2 ⟨t, List.mem_filter.2 ⟨ht, by simp [hsid]⟩, rfl⟩
  · exact List.mem_map.2 ⟨m, List.mem_filter.2 ⟨hm, by simp [hsid, hbit]⟩, rfl⟩
  · simp only [qfenceHold, hcore, if_true]
    exact hsid ▸ mem_openItems hm hcmd

/-! ### The binding table -/

theorem bindEntry_eq (k base size : Word) : bindEntry k base size = boundTo k base size := by
  simp only [bindEntry, boundTo, roundUp, BitVec.toNat_setWidth]
  rfl

theorem bound_iff (x : Ctx) (e : Binding) : x.bound e = true ↔ some e ∈ x.binds.toList := by
  simp [Ctx.bound]

/-- The first free entry takes the binding, and no other entry changes. -/
theorem fillBind_of_free (e : Binding) (l : List (Option Binding)) (h : none ∈ l) :
    ∃ n, n < l.length ∧ l[n]? = some none ∧ fillBind e l = l.set n (some e) := by
  induction l with
  | nil => exact absurd h (List.not_mem_nil)
  | cons o l ih =>
    cases o with
    | none => exact ⟨0, by simp, rfl, rfl⟩
    | some f =>
      obtain ⟨n, hn, hget, hfill⟩ := ih (by simpa using h)
      exact ⟨n + 1, by simpa using hn, by simpa using hget, by rw [fillBind, hfill]; rfl⟩

theorem setBinds_fillBind {x : Ctx} (e : Binding) (h : none ∈ x.binds.toList) : ∃ n : Fin 32, x.binds.get n = none ∧
    x.setBinds (fillBind e x.binds.toList) = { x with binds := x.binds.set n.val (some e) n.isLt } := by
  obtain ⟨n, hn, hget, hfill⟩ := fillBind_of_free e _ h
  have hlt : n < 32 := by simpa using hn
  refine ⟨⟨n, hlt⟩, ?_, ?_⟩
  · simpa [Vector.get_eq_getElem, List.getElem?_eq_some_iff, hlt] using hget
  · rw [Ctx.setBinds, hfill]
    refine congrArg (fun binds : Vector (Option Binding) 32 => { x with binds := binds }) (Vector.ext fun k hk => ?_)
    by_cases h : n = k <;> simp [h]

section
variable {s : State} {g : Guard} {d : SReg} {a b : Src} (hguard : s.ctx.guard g = true)
include hguard

theorem traps_bind {t : Trap} (h : bindTrap s d a b = some t) : Traps s (.bind g d a b) t := by
  rw [Traps, exec_bind, execBind, guarded_true s g _ hguard, h]

theorem exec_bind_of_guard (h : bindTrap s d a b = none) : exec (.bind g d a b) s = .next (
    if s.ctx.src b = 0 ∨ s.ctx.bound (bindEntry (s.ctx.s d) (s.ctx.src a) (s.ctx.src b)) then s
    else s.modCtx fun y => y.setBinds (fillBind (bindEntry (s.ctx.s d) (s.ctx.src a) (s.ctx.src b)) y.binds.toList)) := by
  rw [exec_bind, execBind, guarded_true s g _ hguard, h]
end

/-- `unbind` removes this binding (R194). -/
def unbinds (x : Ctx) (d : SReg) (a b : Src) (f : Binding) : Bool :=
  if x.src b = 0 then f.counter == (bindEntry (x.s d) (x.src a) (x.src b)).counter else f == bindEntry (x.s d) (x.src a) (x.src b)

theorem bindings : Bindings := by
  intro s g d a b hguard e l
  have he : bindEntry (s.ctx.s d) (s.ctx.src a) (s.ctx.src b) = e := bindEntry_eq ..
  refine ⟨fun hal => traps_bind hguard ?_, fun hal hnone => ?_, fun hal hsize hnew hfull => traps_bind hguard ?_,
    fun hal hsize hnew hfree => ?_, ?_⟩
  · rw [bindTrap, if_pos hal]
    rfl
  · have hskip : s.ctx.src b = 0 ∨ s.ctx.bound (bindEntry (s.ctx.s d) (s.ctx.src a) (s.ctx.src b)) = true :=
      hnone.imp_right fun h => by rw [he, bound_iff]; exact h
    rw [exec_bind_of_guard hguard, if_pos hskip]
    simp only [bindTrap, if_neg (not_not.2 hal), if_pos hskip]
  · have hstay : ¬ (s.ctx.src b = 0 ∨ s.ctx.bound (bindEntry (s.ctx.s d) (s.ctx.src a) (s.ctx.src b)) = true) := by
      rw [he, bound_iff, not_or]
      exact ⟨hsize, hnew⟩
    have hall : s.ctx.binds.toList.all Option.isSome = true := List.all_eq_true.2 fun o ho => by
      cases o with
      | none => exact absurd ho hfull
      | some f => rfl
    simp only [bindTrap, if_neg (not_not.2 hal), if_neg hstay, if_pos hall]
    rfl
  · have hstay : ¬ (s.ctx.src b = 0 ∨ s.ctx.bound (bindEntry (s.ctx.s d) (s.ctx.src a) (s.ctx.src b)) = true) := by
      rw [he, bound_iff, not_or]
      exact ⟨hsize, hnew⟩
    have hall : ¬ s.ctx.binds.toList.all Option.isSome = true := fun h => by
      simpa using List.all_eq_true.1 h none hfree
    obtain ⟨n, hget, hset⟩ := setBinds_fillBind e hfree
    refine ⟨n, hget, ?_⟩
    rw [exec_bind_of_guard hguard, if_neg hstay, he]
    · exact congrArg Host.Outcome.next ((modCtx_const s _).trans (congrArg (fun y => s.modCtx fun _ => y) hset))
    · simp only [bindTrap, if_neg (not_not.2 hal), if_neg hstay, if_neg hall]
  · refine ⟨s.ctx.binds.map fun o => o.filter fun f => !unbinds s.ctx d a b f, ?_, fun n f => ?_⟩
    · rw [exec_unbind, execUnbind, guarded_true s g _ hguard]
      rfl
    · rw [Vector.get_eq_getElem, Vector.getElem_map, Option.filter_eq_some_iff, ← Vector.get_eq_getElem, unbinds, he]
      split <;> simp
/-- Settles O21: the holds that `fence` and `qfence` note, and the entries that `bind` and `unbind` change. -/
theorem fencesAndBindings : Obligations.FencesAndBindings := by
  unfold Obligations.FencesAndBindings
  exact ⟨fences, bindings⟩

end Sys2Proof.Machine

/-! PROOFS. Bytes written at their home in HBM, the train record, and `join`, `leave` and `trninfo` (R228, R246, R247, R374). -/
namespace Sys2Proof.Machine

open Sys2Proof.Say

/-! ### Bytes at consecutive addresses -/

theorem cellsAt_cons (a : Nat) (b : Byte) (bs : List Byte) : cellsAt a (b :: bs) = (a, b) :: cellsAt (a + 1) bs := by
  simp [cellsAt, List.mapIdx_cons, Nat.add_comm 1, Nat.add_assoc]

theorem mem_cellsAt {a : Nat} {bs : List Byte} {d : Nat × Byte} (h : d ∈ cellsAt a bs) : a ≤ d.1 ∧ d.1 < a + bs.length := by
  rw [cellsAt, List.mem_mapIdx] at h
  obtain ⟨k, hk, rfl⟩ := h
  exact ⟨Nat.le_add_right a k, Nat.add_lt_add_left hk a⟩

/-- What a byte reads after bytes were laid at consecutive addresses. -/
theorem memByte_memWrite_cellsAt {m : List Host.Cell} (h : Memory.wf m) (a : Nat) (bs : List Byte) (b : Nat) :
    memByte (memWrite m (cellsAt a bs)) b = if a ≤ b ∧ b < a + bs.length then bs.getD (b - a) 0 else memByte m b := by
  induction bs generalizing m a with
  | nil => rw [if_neg (by simp)]; rfl
  | cons v bs ih =>
    rw [cellsAt_cons, memWrite, List.foldl_cons]
    refine (ih (wf_memSet m a v h) (a + 1)).trans ?_
    rw [List.length_cons]
    by_cases hb : a = b
    · subst hb
      rw [if_neg (by omega), if_pos (by omega), memByte_memSet_self _ _ _ h, Nat.sub_self]
      rfl
    · rw [memByte_memSet_ne _ _ _ _ h (Ne.symm hb)]
      by_cases hin : a + 1 ≤ b ∧ b < a + 1 + bs.length
      · rw [if_pos hin, if_pos (by omega), show b - a = b - (a + 1) + 1 by omega]
        rfl
      · rw [if_neg hin, if_neg (by omega)]

theorem memByte_memWrite_cellsAt_of_out {m : List Host.Cell} (h : Memory.wf m) {a : Nat} {bs : List Byte} {b : Nat}
    (hb : b < a ∨ a + bs.length ≤ b) : memByte (memWrite m (cellsAt a bs)) b = memByte m b := by
  rw [memByte_memWrite_cellsAt h, if_neg (by omega)]

theorem memRead_congr {m m' : List Host.Cell} {a n : Nat} (h : ∀ k, k < n → memByte m (a + k) = memByte m' (a + k)) :
    memRead m a n = memRead m' a n := List.map_congr_left fun k hk => h k (List.mem_range.1 hk)

theorem memRead_memWrite_cellsAt {m : List Host.Cell} (h : Memory.wf m) (a : Nat) (bs : List Byte) :
    memRead (memWrite m (cellsAt a bs)) a bs.length = bs := by
  apply List.ext_getElem
  · simp [memRead]
  · intro k hk hk'
    simp only [memRead, List.getElem_map, List.getElem_range]
    rw [memByte_memWrite_cellsAt h, if_pos (by omega), Nat.add_sub_cancel_left, List.getD_eq_getElem _ _ hk']

theorem memNat_memWrite_bytesLE {m : List Host.Cell} (h : Memory.wf m) (a n v : Nat) :
    memNat (memWrite m (cellsAt a (bytesLE n v))) a n = v % 256 ^ n := by
  have hread := memRead_memWrite_cellsAt h a (bytesLE n v)
  rw [length_bytesLE] at hread
  rw [memNat, hread, packLE_bytesLE]

/-- Bytes written elsewhere leave a number as it was. -/
theorem memNat_memWrite_of_out {m : List Host.Cell} (h : Memory.wf m) {a : Nat} {bs : List Byte} {b n : Nat}
    (hb : b + n ≤ a ∨ a + bs.length ≤ b) : memNat (memWrite m (cellsAt a bs)) b n = memNat m b n :=
  congrArg packLE (memRead_congr fun k hk => memByte_memWrite_cellsAt_of_out h (by omega))

theorem memNat_succ (m : List Host.Cell) (a n : Nat) : memNat m a (n + 1) = (memByte m a).toNat + 256 * memNat m (a + 1) n := by
  simp [memNat, memRead, packLE, List.range_succ_eq_map, Function.comp_def, Nat.add_comm 1, Nat.add_assoc]

theorem memNat_lt (m : List Host.Cell) (a n : Nat) : memNat m a n < 256 ^ n := by
  induction n generalizing a with
  | zero => exact Nat.one_pos
  | succ n ih =>
    have hb := (memByte m a).isLt
    have hn := ih (a + 1)
    rw [memNat_succ, Nat.pow_succ]
    omega

/-- A number is made of its low bytes and its high bytes. -/
theorem memNat_add (m : List Host.Cell) (a n k : Nat) : memNat m a (n + k) = memNat m a n + 256 ^ n * memNat m (a + n) k := by
  induction n generalizing a with
  | zero => simp [show memNat m a 0 = 0 from rfl]
  | succ n ih =>
    rw [Nat.succ_add, memNat_succ, ih, memNat_succ m a n, show a + 1 + n = a + (n + 1) by omega, Nat.mul_add, ← Nat.mul_assoc,
      ← Nat.pow_succ', Nat.add_assoc]

theorem memByte_of_memNat_zero {m : List Host.Cell} {a n : Nat} (h : memNat m a n = 0) {k : Nat} (hk : k < n) :
    memByte m (a + k) = 0 := by
  induction n generalizing a k with
  | zero => exact absurd hk (Nat.not_lt_zero k)
  | succ n ih =>
    rw [memNat_succ] at h
    cases k with
    | zero => exact BitVec.eq_of_toNat_eq (show (memByte m a).toNat = 0 by omega)
    | succ k => exact Nat.add_right_comm a k 1 ▸ ih (a := a + 1) (by omega) (by omega)

theorem memNat_one (m : List Host.Cell) (a n : Nat) : memNat m a 1 = memNat m a (n + 1) % 256 := by
  rw [memNat_succ, memNat_succ, show memNat m (a + 1) 0 = 0 from rfl, Nat.add_mul_mod_self_left,
    Nat.mod_eq_of_lt (memByte m a).isLt]
  rfl

/-! ### Places in HBM -/

/-- What stands at a key follows from the stacks, the layers and the decoders alone. -/
theorem keySpace_congr {s u : State} (hhw : ∀ c, (u.cube c).hw = (s.cube c).hw) (hsecu : u.secu = s.secu) (key : Nat) :
    keySpace u key = keySpace s key := by
  have hA : ∀ c, layerABanks (u.cube c) = layerABanks (s.cube c) := fun c => funext fun l => by rw [layerABanks, hhw]; rfl
  have hB : ∀ c, layerBBanks (u.cube c) = layerBBanks (s.cube c) := fun c => funext fun l => by rw [layerBBanks, hhw]; rfl
  simp only [keySpace, dpaSpace, decoderOf, computeUp, hA, hB, hhw, hsecu] <;> rfl

/-- No place of a cube's window is in HBM. -/
theorem windowSpace_ne_hbm (c : CubeId) (f g : Nat → Nat) (off n : Nat) : windowSpace c f g off ≠ .hbm n := by
  unfold windowSpace
  simp only []
  split_ifs <;> exact nofun

theorem dpaSpace_ne_hbm {s : State} {d n : Nat} (h : ¬ d < hbmTop) : dpaSpace s d ≠ .hbm n := by
  unfold dpaSpace
  rw [if_neg h]
  simp only []
  split_ifs <;> simp only [ne_eq, reduceCtorEq, not_false_eq_true]
  all_goals
    generalize hsp : windowSpace _ _ _ _ = sp
    have hne : sp ≠ .hbm n := hsp ▸ windowSpace_ne_hbm _ _ _ _ _
    clear hsp
    cases sp with
    | hbm m => simp_all
    | _ => simp

theorem keySpace_hbm_iff {s : State} {key n : Nat} : keySpace s key = .hbm n ↔ key < hbmTop ∧
    ∃ h : key / 0x10_0000_0000 < 8, (s.cube ⟨key / 0x10_0000_0000, h⟩).hw.life ≠ .retired ∧ n = key / 0x10_0000_0000 := by
  by_cases hspan : key < dpaSpan
  · rw [keySpace, if_pos hspan]
    by_cases htop : key < hbmTop
    · have h8 : key / 0x10_0000_0000 < 8 := Nat.div_lt_of_lt_mul htop
      rw [dpaSpace, if_pos htop, dif_pos h8]
      split_ifs with hlife
      · simp [beq_iff_eq.1 hlife]
      · simp [htop, h8, (beq_eq_false_iff_ne.1 (Bool.eq_false_iff.2 hlife)), eq_comm]
    · simp [dpaSpace_ne_hbm htop, htop]
  · have htop : ¬ key < hbmTop := fun h => hspan (Nat.lt_trans h (by decide))
    rw [keySpace, if_neg hspan]
    simp [htop]

/-- Places of one stack stand together. -/
theorem keySpace_hbm_of_div {s : State} {key key' n : Nat} (h : keySpace s key = .hbm n)
    (hdiv : key' / 0x10_0000_0000 = key / 0x10_0000_0000) : keySpace s key' = .hbm n := by
  obtain ⟨htop, h8, hlife, rfl⟩ := keySpace_hbm_iff.1 h
  refine keySpace_hbm_iff.2 ⟨?_, hdiv ▸ h8, ?_, hdiv.symm⟩
  · simp only [hbmTop] at htop ⊢
    omega
  · simpa only [hdiv] using hlife

/-! ### Writes that change memory and what stands beside it -/

/-- u is s after some bytes were written: beside memory only edge caches, checksum records, owner tags, poison and notes differ. -/
def Writes (s u : State) (cells : List (Nat × Byte)) : Prop :=
  ∃ cs ow po no, u = { s with mem := memWrite s.mem cells, cubes := cs, owners := ow, poison := po, notes := no } ∧
    ∀ c, ∃ e r, cs.get c = { s.cube c with edge := e, recs := r }

theorem Writes.trans {s t u : State} {a b : List (Nat × Byte)} (h : Writes s t a) (h' : Writes t u b) : Writes s u (a ++ b) := by
  obtain ⟨cs, ow, po, no, rfl, hcs⟩ := h
  obtain ⟨cs', ow', po', no', rfl, hcs'⟩ := h'
  refine ⟨cs', ow', po', no', by simp [memWrite, List.foldl_append], fun c => ?_⟩
  obtain ⟨e, r, hc⟩ := hcs c
  obtain ⟨e', r', hc'⟩ := hcs' c
  exact ⟨e', r', hc'.trans (congrArg (fun k : Cube => { k with edge := e', recs := r' }) hc)⟩

theorem Writes.cube {s u : State} {cells : List (Nat × Byte)} (h : Writes s u cells) (c : CubeId) :
    ∃ e r, u.cube c = { s.cube c with edge := e, recs := r } := by
  obtain ⟨cs, ow, po, no, rfl, hcs⟩ := h
  exact hcs c
theorem Writes.mem {s u : State} {cells : List (Nat × Byte)} (h : Writes s u cells) : u.mem = memWrite s.mem cells := by
  obtain ⟨cs, ow, po, no, rfl, -⟩ := h
  rfl
theorem Writes.atl {s u : State} {cells : List (Nat × Byte)} (h : Writes s u cells) : u.atl = s.atl := by
  obtain ⟨cs, ow, po, no, rfl, -⟩ := h
  rfl
theorem Writes.secu {s u : State} {cells : List (Nat × Byte)} (h : Writes s u cells) : u.secu = s.secu := by
  obtain ⟨cs, ow, po, no, rfl, -⟩ := h
  rfl
theorem Writes.hw {s u : State} {cells : List (Nat × Byte)} (h : Writes s u cells) (c : CubeId) : (u.cube c).hw = (s.cube c).hw := by
  obtain ⟨e, r, hc⟩ := h.cube c
  rw [hc]
theorem Writes.keySpace {s u : State} {cells : List (Nat × Byte)} (h : Writes s u cells) (key : Nat) : keySpace u key = keySpace s key :=
  keySpace_congr h.hw h.secu key

/-- An engine's `.g` writes drop lines of the edge caches, and nothing else. -/
theorem engCoherence_glob (s : State) (id : Nat) (cells : List (Nat × Byte)) :
    ∃ cs, engCoherence s true id cells = { s with cubes := cs } ∧ ∀ c, ∃ e, cs.get c = { s.cube c with edge := e } := by
  refine ⟨_, rfl, fun c => ?_⟩
  have hdrop : ∀ (ls : List Nat) (k : Cube), ∃ e, ls.foldl edgeDrop k = { k with edge := e } := by
    intro ls
    induction ls with
    | nil => exact fun k => ⟨k.edge, rfl⟩
    | cons l ls ih => exact fun k => (ih (edgeDrop k l)).imp fun e he => he.trans rfl
  obtain ⟨e, he⟩ := hdrop (linesOf (cells.map Prod.fst)) (s.cube c)
  exact ⟨e, by simpa [Vector.get_eq_getElem, State.cube] using he⟩

/-- A record's bytes in HBM, where nothing is mirrored, are written and nothing else is. -/
theorem writes_putRecord {s : State} {key n : Nat} {bs : List Byte} (hne : bs ≠ []) (hlive : ∀ c, (s.cube c).hw.life ≠ .evacuating)
    (hhbm : ∀ k, k < bs.length → keySpace s (key + k) = .hbm n) : Writes s (putRecord s key bs) (cellsAt key bs) := by
  obtain ⟨cs, hcoh, hcs⟩ := engCoherence_glob s 0 (cellsAt key bs)
  have hhw : ∀ c, (State.cube { s with cubes := cs } c).hw = (s.cube c).hw := fun c => by
    obtain ⟨e, he⟩ := hcs c
    have hhw := congrArg Cube.hw he
    exact hhw
  have hplain : ∀ d ∈ cellsAt key bs, (keySpace { s with cubes := cs } d.1).isWindow = false := by
    intro d hd
    obtain ⟨hlo, hhi⟩ := mem_cellsAt hd
    rw [keySpace_congr (s := s) hhw rfl, show d.1 = key + (d.1 - key) by omega, hhbm _ (by omega)]
    rfl
  obtain ⟨cs', ow, po, no, hwrite, hrecs⟩ := homeWrite_plain { s with cubes := cs } .runtime .outside 0xFFF (cellsAt key bs) hplain
    (mirrorCells_none _ (fun c => by rw [hhw]; exact hlive c) _) (cellsAt_ne_nil key bs hne)
  refine ⟨cs', ow, po, no, by rw [putRecord, hcoh, hwrite], fun c => ?_⟩
  obtain ⟨e, he⟩ := hcs c
  obtain ⟨r, hr⟩ := hrecs c
  exact ⟨e, r, hr.trans (congrArg (fun k : Cube => { k with recs := r }) he)⟩

/-! ### The train record (R246) -/

/-- The first eight bytes of a record. -/
def recordWord (count entry : Nat) : Nat := count + entry * 2 ^ 16 + if count = 0 then 0 else 2 ^ 31

theorem wf_of_recordAt {s : State} {key : Nat} (h : RecordAt s key) : Memory.wf s.mem := by
  obtain ⟨-, hwf, -, -⟩ := h
  exact hwf
theorem recordAt_hbm {s : State} {key : Nat} (h : RecordAt s key) : ∃ n, ∀ k, k < 64 → keySpace s (key + k) = .hbm n := by
  obtain ⟨hal, -, ⟨n, hn⟩, -⟩ := h
  exact ⟨n, fun k hk => keySpace_hbm_of_div hn (by omega)⟩

theorem writes_setRecord {s : State} {key : Nat} (h : RecordAt s key) (count entry : Nat) : Writes s (setRecord s key count entry)
    (cellsAt key (bytesLE 8 (recordWord count entry)) ++
      cellsAt (key + 8) (bytesLE 8 (caddValue (memWord s.mem (key + 8)) 1).toNat)) := by
  obtain ⟨n, hn⟩ := recordAt_hbm h
  obtain ⟨-, -, -, hlive⟩ := h
  have hw := writes_putRecord (bs := bytesLE 8 (recordWord count entry)) (by simp [bytesLE]) hlive
    fun k hk => hn k (by rw [length_bytesLE] at hk; omega)
  refine hw.trans (writes_putRecord (n := n) (by simp [bytesLE]) (fun c => by rw [hw.hw]; exact hlive c) fun k hk => ?_)
  rw [length_bytesLE] at hk
  rw [hw.keySpace, Nat.add_assoc, hn _ (by omega)]

section
variable {s : State} {key : Nat} (h : RecordAt s key) (count entry : Nat)
include h

theorem mem_setRecord : (setRecord s key count entry).mem = memWrite (memWrite s.mem (cellsAt key (bytesLE 8 (recordWord count entry))))
    (cellsAt (key + 8) (bytesLE 8 (caddValue (memWord s.mem (key + 8)) 1).toNat)) := by
  rw [(writes_setRecord h count entry).mem]
  simp [memWrite, List.foldl_append]

theorem memNat_setRecord : memNat (setRecord s key count entry).mem key 8 = recordWord count entry % 2 ^ 64 := by
  have hwf := wf_memWrite s.mem (cellsAt key (bytesLE 8 (recordWord count entry))) (wf_of_recordAt h)
  rw [mem_setRecord h, memNat_memWrite_of_out hwf (by omega), memNat_memWrite_bytesLE (wf_of_recordAt h)]
  rfl

theorem memNat_setRecord_epoch : memNat (setRecord s key count entry).mem (key + 8) 8 = (caddValue (memWord s.mem (key + 8)) 1).toNat := by
  have hwf := wf_memWrite s.mem (cellsAt key (bytesLE 8 (recordWord count entry))) (wf_of_recordAt h)
  rw [mem_setRecord h, memNat_memWrite_bytesLE hwf]
  exact Nat.mod_eq_of_lt (BitVec.isLt _)

theorem elseSame_setRecord : ElseSame s (setRecord s key count entry) key 16 := by
  intro a ha
  have hwf := wf_memWrite s.mem (cellsAt key (bytesLE 8 (recordWord count entry))) (wf_of_recordAt h)
  rw [mem_setRecord h, memByte_memWrite_cellsAt_of_out hwf (by rw [length_bytesLE]; omega),
    memByte_memWrite_cellsAt_of_out (wf_of_recordAt h) (by rw [length_bytesLE]; omega)]

theorem recordAt_setRecord : RecordAt (setRecord s key count entry) key := by
  have hw := writes_setRecord h count entry
  obtain ⟨hal, hwf, ⟨n, hn⟩, hlive⟩ := h
  exact ⟨hal, by rw [hw.mem]; exact wf_memWrite _ _ hwf, ⟨n, by rw [hw.keySpace]; exact hn⟩, fun c => by rw [hw.hw]; exact hlive c⟩

theorem recCount_setRecord : recCount (setRecord s key count entry) key = recordWord count entry % 2 ^ 64 % 256 := by
  rw [recCount, memNat_one _ _ 7, memNat_setRecord h]

theorem recLive_setRecord : recLive (setRecord s key count entry) key = (recordWord count entry % 2 ^ 64).testBit 31 := by
  rw [recLive, memWord, memNat_setRecord h, BitVec.getLsbD_ofNat]
  rfl
end

theorem testBit_31 (w : Nat) : w.testBit 31 = decide (w / 2 ^ 31 % 2 = 1) := Nat.testBit_eq_decide_div_mod_eq

theorem trainRecord : TrainRecord := by
  intro s key count entry h hcount hentry u
  refine ⟨?_, ?_, ?_, ?_, elseSame_setRecord h count entry⟩
  · have hlow := recCount_setRecord h count entry
    rw [recCount] at hlow
    rw [hlow, recordWord]
    split <;> omega
  · rw [memNat_setRecord h, recordWord]
    split <;> omega
  · rw [recLive_setRecord h, testBit_31, recordWord, decide_eq_decide]
    split <;> omega
  · rw [memWord, memNat_setRecord_epoch h, BitVec.ofNat_toNat, BitVec.setWidth_eq]

/-! ### Writes at any home -/

/-- What bytes written at their homes may change: memory, by some bytes, and what stands beside it. -/
theorem homeWrite_eq (s : State) (m : Mode) (who : Writer) (tag : BitVec 12) (cells : List (Nat × Byte)) :
    ∃ all cs ow po no wq, homeWrite s m who tag cells =
        { s with mem := memWrite s.mem all, cubes := cs, owners := ow, poison := po, notes := no, winq := wq } ∧
      ∀ c, ∃ r, cs.get c = { s.cube c with recs := r } := by
  have hclear : ∀ (u : State) (l : List Nat), ∃ po, clearPoison u l = { u with poison := po } := by
    intro u l
    unfold clearPoison
    split
    · exact ⟨u.poison, rfl⟩
    · exact ⟨_, rfl⟩
  have hplace : ∀ plain, ∃ all ow po no, placeCells s tag plain =
      { s with mem := memWrite s.mem all, owners := ow, poison := po, notes := no } := by
    intro plain
    unfold placeCells
    obtain ⟨po, h⟩ := hclear (tagLines { s with mem := memWrite s.mem (plain ++ mirrorCells s plain) }
      ((plain ++ mirrorCells s plain).map Prod.fst) tag) ((plain ++ mirrorCells s plain).map Prod.fst)
    simp only [h]
    exact ⟨_, _, _, _, rfl⟩
  unfold homeWrite
  simp only []
  split
  · exact ⟨[], s.cubes, s.owners, s.poison, s.notes, _, rfl, fun c => ⟨(s.cube c).recs, rfl⟩⟩
  · obtain ⟨all, ow, po, no, h⟩ := hplace (cells.filter fun d => !(keySpace s d.1).isWindow)
    rw [h]
    obtain ⟨cs, hcs, hr⟩ := voidTiles_eq { s with mem := memWrite s.mem all, owners := ow, poison := po, notes := no }
      ((cells.filter fun d => !(keySpace s d.1).isWindow).map Prod.fst)
    rw [hcs]
    exact ⟨all, cs, ow, po, no, _, rfl, hr⟩

theorem atl_putRecord (s : State) (key : Nat) (bs : List Byte) : (putRecord s key bs).atl = s.atl := by
  obtain ⟨cs, hcoh, -⟩ := engCoherence_glob s 0 (cellsAt key bs)
  obtain ⟨_, _, _, _, _, _, h, -⟩ := homeWrite_eq { s with cubes := cs } .runtime .outside 0xFFF (cellsAt key bs)
  rw [putRecord, hcoh, h]

theorem atl_setRecord (s : State) (key count entry : Nat) : (setRecord s key count entry).atl = s.atl :=
  (atl_putRecord _ _ _).trans (atl_putRecord _ _ _)

/-! ### Answers of the atelier (R228) -/

theorem answers_of_answer {s u : State} {i : Instr} {d : SReg} {v : Word} (hexec : exec i s = .next (answer u d v)) : Answers s u i d v :=
  ⟨_, hexec, rfl, rfl, rfl, rfl, rfl, by rw [BitVec.setWidth_setWidth_of_le _ (by decide), BitVec.setWidth_eq], rfl⟩

section
variable {s : State} {a : Src} {t : Target} (hquiet : Quiet s)
include hquiet

theorem onRecord_of_clean (f : State → State) (h : s.poison.contains (t.key / 64) = false) : onRecord s a t f = f s := by
  simp only [onRecord, fireReads_quiet s hquiet, show lineOf t.key = t.key / 64 from rfl, h, Bool.false_eq_true, if_false]
theorem onRecord_of_poisoned (f : State → State) (h : s.poison.contains (t.key / 64) = true) :
    onRecord s a t f = s.modCtx fun x => x.addPending ⟨0x09, 0, 0, 4, 0, (s.ctx.src a).setWidth 52⟩ s.place := by
  simp only [onRecord, fireReads_quiet s hquiet, show lineOf t.key = t.key / 64 from rfl, h, if_true]
  rfl
end

section
variable {s : State} {g : Guard} {d : SReg} {a : Src} {t : Target} (hguard : s.ctx.guard g = true) (ht : trainCheck s a = .ok t)
include hguard ht

theorem exec_join_of_ok : exec (.join g d a) s = .next (if inHbm s t.key then onRecord s a t fun u =>
    answer (joinTrain u t.key s.ctx.sid).1 d (joinTrain u t.key s.ctx.sid).2 else answer s d 4) := by
  rw [exec_join, execJoin, guarded_true s g _ hguard, ht, checked_ok]
theorem exec_leave_of_ok : exec (.leave g d a) s = .next (onRecord s a t fun u =>
    answer (leaveOf u t.key s.ctx.sid).1 d (leaveOf u t.key s.ctx.sid).2) := by
  rw [exec_leave, execLeave, guarded_true s g _ hguard, ht, checked_ok]
theorem exec_trninfo_of_ok : exec (.trninfo g d a) s = .next (onRecord s a t fun u => answer u d (trainInfo u t.key s.ctx.sid)) := by
  rw [exec_trninfo, execTrninfo, guarded_true s g _ hguard, ht, checked_ok]
end

/-! ### What `join` and `leave` do to a record (R247) -/

theorem freeEntry_none {s : State} (h : ∀ e, e < 512 → ∃ r ∈ s.atl.trains, r.entry = e) : freeEntry s = none := by
  rw [freeEntry, List.find?_eq_none]
  intro e he
  obtain ⟨r, hr, hre⟩ := h e (List.mem_range.1 he)
  simpa using ⟨r, hr, hre⟩

theorem freeEntry_some {s : State} (h : ∃ e, e < 512 ∧ ∀ r ∈ s.atl.trains, r.entry ≠ e) :
    ∃ e, freeEntry s = some e ∧ e < 512 ∧ ∀ r ∈ s.atl.trains, r.entry ≠ e := by
  obtain ⟨e, he, hfree⟩ := h
  have hsome : (freeEntry s).isSome = true := by
    rw [freeEntry, List.find?_isSome]
    exact ⟨e, List.mem_range.2 he, by simpa using hfree⟩
  obtain ⟨e', he'⟩ := Option.isSome_iff_exists.1 hsome
  have hmem := List.mem_of_find?_eq_some he'
  have hp := List.find?_some he'
  exact ⟨e', he', List.mem_range.1 hmem, by simpa using hp⟩

/-- A strand added to a train that is not full. -/
theorem addMember_of_room {s : State} {key sid : Nat} (h : recCount s key ≠ 128) :
    (addMember s key sid).2 = BitVec.ofNat 64 ((recCount s key + 1) * 256) ∧
      (addMember s key sid).1.mem = (setRecord s key (recCount s key + 1) (recEntry s key)).mem ∧
      (addMember s key sid).1.atl.trains =
        s.atl.trains.map fun r => if r.key = key then { r with members := r.members ++ [sid] } else r := by
  simp only [addMember, if_neg h]
  refine ⟨trivial, rfl, ?_⟩
  rw [← atl_setRecord s key (recCount s key + 1) (recEntry s key)]
  rfl

/-- The bytes of a new record, which has no member yet. -/
def newRecord (e : Nat) : List Byte := bytesLE 64 (e * 2 ^ 16 + 2 ^ 31)
theorem length_newRecord (e : Nat) : (newRecord e).length = 64 := length_bytesLE 64 _

/-- The atelier begins a train with an entry: a record with no member yet. -/
def State.beginTrain (s : State) (key e : Nat) : State :=
  (putRecord s key (newRecord e)).modAtl fun a => { a with trains := a.trains ++ [⟨e, key, []⟩] }

@[simp] theorem cube_modAtl (s : State) (f : Atelier → Atelier) (c : CubeId) : (s.modAtl f).cube c = s.cube c := rfl
@[simp] theorem secu_modAtl (s : State) (f : Atelier → Atelier) : (s.modAtl f).secu = s.secu := rfl
@[simp] theorem mem_modAtl (s : State) (f : Atelier → Atelier) : (s.modAtl f).mem = s.mem := rfl
theorem mem_beginTrain (s : State) (key e : Nat) :
    (s.beginTrain key e).mem = (putRecord s key (newRecord e)).mem := mem_modAtl _ _

section
variable {s : State} {key : Nat} (h : RecordAt s key) {e : Nat} (he : e < 512)
include h

theorem writes_beginTrain (e : Nat) : Writes s (putRecord s key (newRecord e))
    (cellsAt key (newRecord e)) := by
  obtain ⟨n, hn⟩ := recordAt_hbm h
  obtain ⟨-, -, -, hlive⟩ := h
  exact writes_putRecord (List.ne_nil_of_length_pos (by rw [length_newRecord]; decide)) hlive fun k hk =>
    hn k (by rwa [length_newRecord] at hk)

theorem recordAt_beginTrain (e : Nat) : RecordAt (s.beginTrain key e) key := by
  have hw := writes_beginTrain h e
  have hhw : ∀ c, ((s.beginTrain key e).cube c).hw = (s.cube c).hw := fun c => by rw [State.beginTrain, cube_modAtl, hw.hw]
  obtain ⟨hal, hwf, ⟨n, hn⟩, hlive⟩ := h
  exact ⟨hal, by rw [mem_beginTrain, hw.mem]; exact wf_memWrite _ _ hwf,
    ⟨n, by rw [keySpace_congr hhw (by rw [State.beginTrain, secu_modAtl, hw.secu]), hn]⟩,
    fun c => by rw [hhw]; exact hlive c⟩

include he
theorem memNat_beginTrain : memNat (s.beginTrain key e).mem key 8 = e * 2 ^ 16 + 2 ^ 31 ∧
    memNat (s.beginTrain key e).mem (key + 8) 8 = 0 ∧ memNat (s.beginTrain key e).mem (key + 16) 48 = 0 := by
  have hmem : (s.beginTrain key e).mem = memWrite s.mem (cellsAt key (newRecord e)) := by
    rw [mem_beginTrain, (writes_beginTrain h e).mem]
  have hall : memNat (s.beginTrain key e).mem key (8 + (8 + 48)) = (e * 2 ^ 16 + 2 ^ 31) % 256 ^ 64 := by
    rw [hmem]
    exact memNat_memWrite_bytesLE (wf_of_recordAt h) key 64 _
  have hlt : e * 2 ^ 16 + 2 ^ 31 < 256 ^ 64 := Nat.lt_of_lt_of_le (show e * 2 ^ 16 + 2 ^ 31 < 256 ^ 8 by omega)
    (Nat.pow_le_pow_right (by decide) (by decide))
  rw [Nat.mod_eq_of_lt hlt, memNat_add, memNat_add _ (key + 8), show key + 8 + 8 = key + 16 by omega] at hall
  omega

/-- A new train has one member and the epoch 1, and the rest of its record is zero. -/
theorem addMember_beginTrain (sid : Nat) :
    (addMember (s.beginTrain key e) key sid).2 = 256 ∧
      memNat (addMember (s.beginTrain key e) key sid).1.mem key 8 = 1 + e * 2 ^ 16 + 2 ^ 31 ∧
      memNat (addMember (s.beginTrain key e) key sid).1.mem (key + 8) 8 = 1 ∧
      (∀ k, 16 ≤ k → k < 64 → memByte (addMember (s.beginTrain key e) key sid).1.mem (key + k) = 0) ∧
      ElseSame s (addMember (s.beginTrain key e) key sid).1 key 64 ∧
      (addMember (s.beginTrain key e) key sid).1.atl.trains = (s.atl.trains ++ [(⟨e, key, []⟩ : Train)]).map fun r =>
        if r.key = key then { r with members := r.members ++ [sid] } else r := by
  obtain ⟨hword, hepoch, hrest⟩ := memNat_beginTrain h he
  have hrec := recordAt_beginTrain h e
  have hcount : recCount (s.beginTrain key e) key = 0 := by
    rw [recCount, memNat_one _ _ 7, hword]
    omega
  have hentry : recEntry (s.beginTrain key e) key = e := by
    rw [recEntry, memWord, hword, BitVec.extractLsb'_toNat, BitVec.toNat_ofNat, Nat.shiftRight_eq_div_pow]
    omega
  obtain ⟨hanswer, hmem, htrains⟩ := addMember_of_room (sid := sid) (show recCount (s.beginTrain key e) key ≠ 128 by omega)
  rw [hcount, hentry] at hmem
  rw [hcount] at hanswer
  rw [hmem, ElseSame, hmem]
  have hsame := elseSame_setRecord hrec (0 + 1) e
  refine ⟨hanswer, ?_, ?_, fun k h16 h64 => ?_, fun a ha => ?_, ?_⟩
  · rw [memNat_setRecord hrec, recordWord, if_neg (by decide)]
    omega
  · rw [memNat_setRecord_epoch hrec, memWord, hepoch]
    rfl
  · rw [hsame _ (.inr (by omega)), show key + k = key + 16 + (k - 16) by omega]
    exact memByte_of_memNat_zero hrest (by omega)
  · rw [hsame _ (by omega), mem_beginTrain, (writes_beginTrain h e).mem]
    exact memByte_memWrite_cellsAt_of_out (wf_of_recordAt h) (by rw [length_newRecord]; omega)
  · rw [htrains, State.beginTrain, State.modAtl, atl_putRecord]
end

/-- A strand that leaves takes itself out of the record and off the train, which ends when it was the last. -/
theorem leaveTrain_of_clean {s : State} {r : Train} (sid : Nat) (hquiet : Quiet s) (h : s.poison.contains (r.key / 64) = false) :
    (leaveTrain s r sid).mem = (setRecord s r.key (recCount s r.key - 1) r.entry).mem ∧
      (leaveTrain s r sid).atl.trains = if recCount s r.key - 1 = 0 then s.atl.trains.filter (fun q => q.entry != r.entry)
        else s.atl.trains.map fun q => if q.entry = r.entry then { q with members := q.members.filter (· != sid) } else q := by
  have hatl := atl_setRecord s r.key (recCount s r.key - 1) r.entry
  simp only [leaveTrain, fireReads_quiet s hquiet, show lineOf r.key = r.key / 64 from rfl, h, Bool.false_eq_true, if_false]
  exact ⟨rfl, by rw [State.modAtl, hatl]⟩

theorem inHbm_of_recordAt {s : State} {key : Nat} (h : RecordAt s key) : inHbm s key = true := by
  obtain ⟨-, -, ⟨n, hn⟩, -⟩ := h
  simp only [inHbm, hn]

theorem trainInfo_eq (s : State) (key sid : Nat) : trainInfo s key sid = BitVec.ofNat 64 (recCount s key) |||
    (if (match trainOf s sid with | some r => r.key == key | none => false) then 256 else 0) |||
      (if recLive s key then 512 else 0) := by
  unfold trainInfo
  simp only [bit]
  cases trainOf s sid <;> rfl

section
variable {s : State} {key sid : Nat}

theorem joinTrain_of_member {r : Train} (h : trainOf s sid = some r) : joinTrain s key sid = (s, if r.key = key then 1 else 5) := by
  rw [joinTrain, h]

variable (hmine : trainOf s sid = none)
include hmine

theorem joinTrain_of_live (hlive : recLive s key = true) : joinTrain s key sid = addMember s key sid := by
  rw [joinTrain, hmine]
  exact if_pos hlive
theorem joinTrain_of_no_entry (hdead : recLive s key = false) (h : freeEntry s = none) : joinTrain s key sid = (s, 6) := by
  rw [joinTrain, hmine, h]
  simp only [hdead, Bool.false_eq_true, if_false]
theorem joinTrain_of_entry {e : Nat} (hdead : recLive s key = false) (h : freeEntry s = some e) :
    joinTrain s key sid = addMember (s.beginTrain key e) key sid := by
  rw [joinTrain, hmine, h]
  simp only [hdead, Bool.false_eq_true, if_false, State.beginTrain, newRecord]
end

theorem leaveOf_of_other {s : State} {key sid : Nat} (h : ∀ r, trainOf s sid = some r → r.key ≠ key) :
    leaveOf s key sid = (s, BitVec.ofNat 64 (1 + recCount s key * 256)) := by
  unfold leaveOf
  split
  · next r hr => exact if_neg (h r hr)
  · rfl
theorem leaveOf_of_member {s : State} {key sid : Nat} {r : Train} (hr : trainOf s sid = some r) (hkey : r.key = key) :
    leaveOf s key sid = (leaveTrain s r sid, BitVec.ofNat 64 (recCount (leaveTrain s r sid) key * 256)) := by
  rw [leaveOf, hr]
  exact if_pos hkey

theorem trains : Trains := by
  intro s g d a t hguard ht hquiet n mine Poisoned
  have hjoin := exec_join_of_ok (d := d) hguard ht
  have hleave := exec_leave_of_ok (d := d) hguard ht
  have hinfo := exec_trninfo_of_ok (d := d) hguard ht
  refine ⟨fun hout => ?_, fun hbad => ⟨fun hin => ?_, ?_, ?_⟩, fun hclean => ?_⟩
  · rw [hout, if_neg Bool.false_ne_true] at hjoin
    exact answers_of_answer hjoin
  · rw [hin, if_pos rfl, onRecord_of_poisoned hquiet _ hbad] at hjoin
    exact hjoin
  · rw [onRecord_of_poisoned hquiet _ hbad] at hleave
    exact hleave
  · rw [onRecord_of_poisoned hquiet _ hbad] at hinfo
    exact hinfo
  · simp only [onRecord_of_clean hquiet _ hclean] at hjoin hleave hinfo
    have hjoined : inHbm s t.key = true → exec (.join g d a) s =
        .next (answer (joinTrain s t.key s.ctx.sid).1 d (joinTrain s t.key s.ctx.sid).2) := fun hin => by rwa [if_pos hin] at hjoin
    refine ⟨fun hin r hr => ?_, fun hin hmine hdead hfull => ?_, fun hrec hmine hdead hfree => ?_, fun hin hmine hlive hn => ?_,
      fun hin hmine hlive hn => ?_, fun hother => ?_, fun r hr hkey => ?_, ?_⟩
    · have hexec := hjoined hin
      rw [joinTrain_of_member hr] at hexec
      exact answers_of_answer hexec
    · have hexec := hjoined hin
      rw [joinTrain_of_no_entry hmine hdead (freeEntry_none hfull)] at hexec
      exact answers_of_answer hexec
    · have hexec := hjoined (inHbm_of_recordAt hrec)
      obtain ⟨e, hentry, he, hnew⟩ := freeEntry_some hfree
      obtain ⟨hanswer, hrecord⟩ := addMember_beginTrain hrec he s.ctx.sid
      rw [joinTrain_of_entry hmine hdead hentry, hanswer] at hexec
      exact ⟨_, e, answers_of_answer hexec, he, hnew, hrecord⟩
    · have hexec := hjoined hin
      rw [joinTrain_of_live hmine hlive, addMember, if_pos hn] at hexec
      exact answers_of_answer hexec
    · have hexec := hjoined hin
      obtain ⟨hanswer, hmem, htrains⟩ := addMember_of_room (sid := s.ctx.sid) hn
      rw [joinTrain_of_live hmine hlive, hanswer] at hexec
      exact ⟨_, answers_of_answer hexec, hmem, htrains⟩
    · rw [leaveOf_of_other hother] at hleave
      exact answers_of_answer hleave
    · obtain ⟨hmem, htrains⟩ := leaveTrain_of_clean (r := r) s.ctx.sid hquiet (by rw [hkey]; exact hclean)
      rw [leaveOf_of_member hr hkey] at hleave
      rw [hkey] at hmem htrains
      exact ⟨_, answers_of_answer hleave, hmem, htrains⟩
    · rw [trainInfo_eq] at hinfo
      exact answers_of_answer hinfo

/-- Settles O22: the record by the bytes that its two writes leave, the instructions by the train that the strand is in. -/
theorem trainsAndRecords : Obligations.TrainsAndRecords := by
  unfold Obligations.TrainsAndRecords
  exact ⟨trainRecord, trains⟩

end Sys2Proof.Machine

/-! PROOFS. The atelier's answer to a launch packet, and the `launch` instruction (R224 to R226, R229, R230). -/
namespace Sys2Proof.Machine

open Sys2Proof.Say

/-! ### The answer to a packet -/

theorem any_slot_iff (s : State) (n : Nat) : (s.atl.board.any fun l => l.slot.toNat == n) = true ↔ ∃ l ∈ s.atl.board, l.slot.toNat = n := by
  simp

theorem freeSlot_of_full {s : State} (h : ∀ slot : BitVec 8, ∃ l ∈ s.atl.board, l.slot = slot) : freeSlot s = none := by
  rw [freeSlot, Option.map_eq_none_iff, List.find?_eq_none]
  intro n hn
  obtain ⟨l, hl, hslot⟩ := h (BitVec.ofNat 8 n)
  have htaken := (any_slot_iff s n).2 ⟨l, hl, by rw [hslot, BitVec.toNat_ofNat, Nat.mod_eq_of_lt (List.mem_range.1 hn)]⟩
  simp [htaken]

/-- The lowest slot that no launch holds. -/
theorem freeSlot_of_lowest {s : State} {slot : BitVec 8} (hfree : ∀ l ∈ s.atl.board, l.slot ≠ slot)
    (hlow : ∀ n, n < slot → ∃ l ∈ s.atl.board, l.slot = n) : freeSlot s = some slot := by
  have hfind : ((List.range 256).find? fun n => !s.atl.board.any fun l => l.slot.toNat == n) = some slot.toNat := by
    rw [List.find?_range_eq_some]
    refine ⟨?_, List.mem_range.2 slot.isLt, fun n hn => ?_⟩
    · rw [Bool.not_eq_true', Bool.eq_false_iff, Ne, any_slot_iff]
      rintro ⟨l, hl, hslot⟩
      exact hfree l hl (BitVec.eq_of_toNat_eq hslot)
    · obtain ⟨l, hl, hslot⟩ := hlow (BitVec.ofNat 8 n) (by rw [BitVec.lt_def, BitVec.toNat_ofNat]; omega)
      rw [Bool.not_not, any_slot_iff]
      exact ⟨l, hl, by rw [hslot, BitVec.toNat_ofNat, Nat.mod_eq_of_lt (by omega)]⟩
  rw [freeSlot, hfind, Option.map_some, BitVec.ofNat_toNat, BitVec.setWidth_eq]

theorem slotWord_eq (gen slot : BitVec 8) : ((gen.setWidth 64 <<< 24) ||| (slot.setWidth 64 <<< 16) : Word) =
    BitVec.ofNat 64 (gen.toNat * 2 ^ 24 + slot.toNat * 2 ^ 16) := by
  have hg := gen.isLt
  have hs := slot.isLt
  apply BitVec.eq_of_toNat_eq
  rw [BitVec.toNat_or, BitVec.toNat_shiftLeft, BitVec.toNat_shiftLeft, BitVec.toNat_setWidth, BitVec.toNat_setWidth, BitVec.toNat_ofNat,
    Nat.mod_eq_of_lt (show gen.toNat < 2 ^ 64 by omega), Nat.mod_eq_of_lt (show slot.toNat < 2 ^ 64 by omega),
    Nat.mod_eq_of_lt (show gen.toNat <<< 24 < 2 ^ 64 by rw [Nat.shiftLeft_eq]; omega),
    Nat.mod_eq_of_lt (show slot.toNat <<< 16 < 2 ^ 64 by rw [Nat.shiftLeft_eq]; omega),
    ← Nat.shiftLeft_add_eq_or_of_lt (by rw [Nat.shiftLeft_eq]; omega), Nat.shiftLeft_eq, Nat.shiftLeft_eq, Nat.mod_eq_of_lt (by omega)]

section
variable {s : State} {p : BitVec 512}

theorem acceptPacket_of_malformed (h : pktMalformed p = true) : (acceptPacket s p).2 = 2 := by
  simp only [acceptPacket, h, if_true]

variable (hform : pktMalformed p = false)
include hform

theorem acceptPacket_of_closed (h : partClosed s (BitVec.ofNat 3 (pktField p 0x12 1)) = true) : (acceptPacket s p).2 = 3 := by
  simp only [acceptPacket, hform, Bool.false_eq_true, if_false, pktLaunch, h, if_true]

variable (hopen : partClosed s (BitVec.ofNat 3 (pktField p 0x12 1)) = false)
include hopen

theorem acceptPacket_of_full (h : freeSlot s = none) : (acceptPacket s p).2 = 1 := by
  simp only [acceptPacket, hform, Bool.false_eq_true, if_false, pktLaunch, hopen, h]

theorem acceptPacket_of_slot {slot : BitVec 8} (h : freeSlot s = some slot) : acceptPacket s p = (boarded s p slot, slotAnswer s slot) := by
  rw [slotAnswer, ← slotWord_eq]
  simp only [acceptPacket, hform, Bool.false_eq_true, if_false, show (pktLaunch p 0 0 s.atl.arrivals).part =
    BitVec.ofNat 3 (pktField p 0x12 1) from rfl, hopen, h]
  rfl
end

theorem acceptPacket_of_acceptable {s : State} {p : BitVec 512} {slot : BitVec 8} (h : Acceptable s p slot) :
    acceptPacket s p = (boarded s p slot, slotAnswer s slot) := by
  obtain ⟨hform, hopen, hfree, hlow⟩ := h
  exact acceptPacket_of_slot hform hopen (freeSlot_of_lowest hfree hlow)

theorem packetAnswers : PacketAnswers := by
  intro s p
  have harrive : ∀ bridge, exec (.launchPacketArrival bridge p) s = .next (receivePacket s p) := fun bridge =>
    exec_launchPacketArrival bridge p s
  refine ⟨acceptPacket_of_malformed, acceptPacket_of_closed, fun hform hopen hfull =>
    acceptPacket_of_full hform hopen (freeSlot_of_full hfull), fun slot h => ⟨acceptPacket_of_acceptable h, fun hstage bridge => ?_⟩,
    fun hstage bridge => ?_⟩
  · rw [harrive, receivePacket, if_pos hstage, acceptPacket_of_acceptable h]
  · rw [harrive, receivePacket, if_neg hstage]

/-! ### `launch` -/

section
variable {s : State} {g : Guard} {d : SReg} {a b : Src} (hguard : s.ctx.guard g = true)
include hguard

theorem launch_of_malformed (h : launchCheck s a b = .ok none) : exec (.launch g d a b) s = .next (answer s d 2) := by
  rw [exec_launch, execLaunch, guarded_true s g _ hguard, h]

theorem launch_of_packet {t : Target} (hquiet : Quiet s) (h : launchCheck s a b = .ok (some t))
    (hclean : s.poison.contains (t.key / 64) = false) : exec (.launch g d a b) s = .next (
      if s.ctx.sys.tinfo.toNat / 2 ^ 32 % 4 < pktField (packetAt s t) 2 1 then answer s d 4
      else sendPacket s s.ctx d (s.ctx.src b) (packetAt s t)) := by
  have hprio : (s.ctx.sys.tinfo.extractLsb' 32 2).toNat = s.ctx.sys.tinfo.toNat / 2 ^ 32 % 4 := by
    rw [BitVec.extractLsb'_toNat, Nat.shiftRight_eq_div_pow]
  rw [exec_launch, execLaunch, guarded_true s g _ hguard, h]
  simp only [fireReads_quiet s hquiet, show lineOf t.key = t.key / 64 from rfl, hclean, Bool.false_eq_true, if_false, hprio]
  rfl
end

theorem apertureKey_eq (b : Word) : apertureKey (b &&& 0x3FF).toNat = (b.toNat % 1024 + 1) * 2 ^ 48 + 0x200_0000_0000 := by
  rw [BitVec.toNat_and, show (0x3FF : Word).toNat = 2 ^ 10 - 1 from rfl, Nat.and_two_pow_sub_one_eq_mod]
  rfl

/-- The homes of a peer's places are none of this package's. -/
theorem homeOf_apertureKey_ne (p : Nat) (c : CubeId) : homeOf (apertureKey p) ≠ 8 + c.val := by
  have hkey : dpaSpan ≤ apertureKey p := by
    simp only [apertureKey, dpaSpan, bridgeBase]
    omega
  have hdiv : 1 ≤ apertureKey p / dpaSpan := (Nat.one_le_div_iff (by decide)).2 hkey
  have hc := c.isLt
  rw [homeOf, if_neg (Nat.not_lt.2 hkey)]
  omega

/-- An item whose home is not its own cube joins the items, and no byte changes. -/
theorem sendItem_of_away (s : State) (i : Item) (haway : i.home ≠ 8 + i.cube.val) : ∃ j,
    (sendItem s i).items = s.items ++ [j] ∧ (sendItem s i).mem = s.mem ∧ j.op = i.op := by
  rw [sendItem_eq]
  obtain ⟨j, e, hissue, hj, -⟩ := issueItem_away (s.numbered i.line)
    { i with seq := s.ctx.lineSeq.toList.getD i.line.toNat 0, prior := s.fencePrior false } (.inl haway)
  exact ⟨j, by rw [hissue]; rfl, by rw [hissue]; rfl, by rw [hj]⟩

/-- A packet for a peer sets out as a 64-byte write to its aperture. -/
theorem sendPacket_peer (s : State) (d : SReg) {b : Word} (p : BitVec 512) (hb : b ≠ 0) : ∃ u m,
    sendPacket s s.ctx d b p = answer u d 5 ∧ u.items = s.items ++ [m] ∧ u.mem = s.mem ∧
      m.op = .store (cellsAt ((b.toNat % 1024 + 1) * 2 ^ 48 + 0x200_0000_0000) (bytesLE 64 p.toNat)) := by
  have hpeer : launchPeer b = some (b &&& 0x3FF).toNat := if_neg hb
  rw [← apertureKey_eq]
  have haway := homeOf_apertureKey_ne (b &&& 0x3FF).toNat s.me
  simp only [sendPacket, hpeer]
  generalize apertureKey (b &&& 0x3FF).toNat = k at haway ⊢
  obtain ⟨j, hitems, hmem, hop⟩ := sendItem_of_away s
    { coreItem s s.ctx { directTarget k false 0xFFF with peer := some (b &&& 0x3FF).toNat }
        (.store (cellsAt k (bytesLE 64 p.toNat))) 0 [] accStore with glob := true } haway
  exact ⟨_, j, rfl, hitems, hmem, hop⟩

theorem launchInstruction : LaunchInstruction := by
  intro s g d a b hguard hquiet
  refine ⟨fun h => answers_of_answer (launch_of_malformed hguard h), fun t h hclean => ?_⟩
  have hexec := launch_of_packet (d := d) hguard hquiet h hclean
  refine ⟨fun hprio => ?_, fun hprio hb slot hslot => ?_, fun hprio hb => ?_⟩
  · rw [if_pos hprio] at hexec
    exact answers_of_answer hexec
  · rw [if_neg (Nat.not_lt.2 hprio), hb, sendPacket, launchPeer, if_pos rfl, acceptPacket_of_acceptable hslot] at hexec
    exact answers_of_answer hexec
  · obtain ⟨u, m, hsend, hitems, hmem, hop⟩ := sendPacket_peer s d (packetAt s t) hb
    rw [if_neg (Nat.not_lt.2 hprio), hsend] at hexec
    exact ⟨u, m, answers_of_answer hexec, hitems, hmem, hop⟩

/-- Settles O23: a packet by the test that it fails first, `launch` by where its packet goes. -/
theorem launchPackets : Obligations.LaunchPackets := by
  unfold Obligations.LaunchPackets
  exact ⟨packetAnswers, launchInstruction⟩

end Sys2Proof.Machine

/-! PROOFS. The commands of the engines enter their queues (R19, R255, R257). -/
namespace Sys2Proof.Machine

open Sys2Proof.Say

/-- What the queue notes of a command beside its operands: its strand, its place and what it waits for. -/
def QueuedBy (s : State) (q : Queue) (m : Cmd) : Prop :=
  m.seq = s.ctx.lineSeq.toList.getD (cmdLine m).toNat 0 ∧ m.dead = s.ctx.lineBad (cmdLine m) ∧ m.acqs = s.ctx.acqs ∧
    m.id = s.nextId ∧ m.sid = s.ctx.sid ∧ m.queue = q ∧ m.mode = s.ctx.mode ∧ m.asn = s.ctx.sys.asn ∧
    m.part = s.ctx.part ∧ m.pals = (s.cube s.me).pals ∧ m.status = .queued ∧
    m.tag = BitVec.ofNat 32 (s.ctx.issued * 4 + s.bundle.slot.toNat) ∧
    ∀ f ∈ s.ctx.qfences, f.mask.getLsbD (queueBit q) = true → ∀ id ∈ f.cmds, id ∈ m.after

theorem enqueues_of_exec {s u : State} {i : Instr} {q : Queue} {p : Cmd → Prop} {m : Cmd} (hexec : exec i s = .next u)
    (hu : u = { s.modCube s.me (fun k => { k with
      core := Say.numbered m k.core, cmds := k.cmds ++ [m], pwr := wakened q m k.pwr }) with nextId := s.nextId + 1 })
    (hm : QueuedBy s q m) (hp : p m) : Enqueues s i q p := by
  obtain ⟨hseq, hdead, hacqs, hid, hsid, hqueue, hmode, hasn, hpart, hpals, hstatus, htag, hafter⟩ := hm
  exact ⟨m, by rw [hexec, hu], hseq, hdead, hacqs, hid, hsid, hqueue, hmode, hasn, hpart, hpals, hstatus, htag, hafter, hp⟩

theorem queueFull_of_room {s : State} {q : Queue} (h : HasRoom s q) : (s.cube s.me).queueFull q = false := by
  unfold HasRoom at h
  unfold Cube.queueFull Cube.used
  cases q <;> exact decide_eq_false (Nat.not_le.2 h)

/-- The operands of a command. -/
def Carries (m : Cmd) (kind : CmdKind) (grp : List Word) (ctr amt : Word) (recipe : BitVec 128) (planes : BitVec 8) : Prop :=
  m.kind = kind ∧ m.grp = grp ∧ m.ctr = ctr ∧ m.amt = amt ∧ m.recipe = recipe ∧ m.planes = planes

/-- A cube with one more command at the rear of its queues. -/
def Cube.queued (m : Cmd) (k : Cube) : Cube := { k with core := Say.numbered m k.core, cmds := k.cmds ++ [m] }
def State.queued (s : State) (m : Cmd) : State := { s.modCube s.me (Cube.queued m) with nextId := s.nextId + 1 }
theorem cube_queued (s : State) (m : Cmd) : (s.queued m).cube s.me = (s.cube s.me).queued m :=
  cube_modCube_self s s.me (Cube.queued m)
theorem modCube_queued (s : State) (m : Cmd) (f : Cube → Cube) : (s.queued m).modCube s.me f =
    { s.modCube s.me (fun k => f (k.queued m)) with nextId := s.nextId + 1 } :=
  congrArg (fun t : State => { t with nextId := s.nextId + 1 }) (modCube_modCube s s.me (Cube.queued m) f)

theorem modCtx_modCube (s : State) (f : Ctx → Ctx) (g : Cube → Cube) :
    (s.modCtx f).modCube s.me g = s.modCube s.me fun k => g { k with core := f k.core } := modCube_modCube s s.me _ g

/-- The command that an instruction of the running strand enqueues. -/
def queuedCmd (claim : State → CubeId → Cmd → List Nat) (s : State) (q : Queue) (kind : CmdKind) (grp : List Word) (ctr amt : Word)
    (recipe : BitVec 128) (planes : BitVec 8) : Cmd :=
  let k := s.cube s.me
  let m : Cmd :=
    { id := s.nextId, sid := s.ctx.sid, queue := q, kind := kind, tag := s.cmdTag, mode := s.ctx.mode, asn := s.ctx.sys.asn
      part := s.ctx.part, grp := grp, ctr := ctr, amt := amt, pals := k.pals, recipe := recipe, planes := planes
      after := (fencedBy s.ctx q).1, items := (fencedBy s.ctx q).2
      joins := (k.joins.filter fun j => j.sid == s.ctx.sid && (j.layers &&& planes) != 0).map Join.id
      status := .queued, err := none, res := [], took := [], ents := [], out := [], wrote := [], acqs := s.ctx.acqs
      homes := [], seq := 0, dead := false, seed := 0, lost := none, addDead := false }
  { m with
    seq := s.ctx.lineSeq.toList.getD (cmdLine m).toNat 0, dead := s.ctx.lineBad (cmdLine m)
    homes := if cmdLine m = 0 then [] else (claim s s.me m).eraseDups }

theorem enqueueOn_of_room (claim : State → CubeId → Cmd → List Nat) {s : State} {q : Queue} (kind : CmdKind) (grp : List Word)
    (ctr amt : Word) (recipe : BitVec 128) (planes : BitVec 8) (hroom : HasRoom s q) : ∃ m,
      enqueueOn claim s q kind grp ctr amt recipe planes = s.queued m ∧
      QueuedBy s q m ∧ Carries m kind grp ctr amt recipe planes := by
  refine ⟨queuedCmd claim s q kind grp ctr amt recipe planes, ?_, ?_, rfl, rfl, rfl, rfl, rfl, rfl⟩
  · unfold enqueueOn
    simp only [queueFull_of_room hroom, Bool.false_eq_true, if_false, me_modCtx, modCtx_modCube]
    rfl
  · exact ⟨rfl, rfl, rfl, rfl, rfl, rfl, rfl, rfl, rfl, rfl, rfl, rfl, fun f hf hq id hid =>
      List.mem_flatMap.2 ⟨f, List.mem_filter.2 ⟨hf, hq⟩, hid⟩⟩

/-! ### The cube queue (R387) -/

theorem requested_layer (y : LayerPwr) (fires busy : Bool) :
    (let z := if busy then { y with idle := 0 } else y
      if fires && z.gated then { z with pend := true } else z) =
      { y with idle := if busy then 0 else y.idle, pend := y.pend || fires && y.gated } := by
  obtain ⟨therm, lim, temp, tripped, held, pend, ramp, gated, migreq, hot, cool, high, idle, low, estimate⟩ := y
  cases busy <;> cases fires <;> cases gated <;> simp

/-- The layers of a plane set are idle no longer, and gated layers where the command fires are requested on. -/
theorem requestLayers_busyLayers (s : State) (c : CubeId) (m : Cmd) : requestLayers (busyLayers s c m.planes) c (fireLayers m) =
    s.modCube c fun k => { k with pwr := wakened .cubeq m k.pwr } := by
  unfold requestLayers busyLayers
  rw [modCube_modCube]
  have hlayers : (Vector.ofFn fun l : Fin 8 =>
      let z := if m.planes.getLsbD l.val then { (s.cube c).pwr.layers.get l with idle := 0 } else (s.cube c).pwr.layers.get l
      if (fireLayers m).contains l.val && z.gated then { z with pend := true } else z) =
      (wakened .cubeq m (s.cube c).pwr).layers :=
    congrArg Vector.ofFn (funext fun l => requested_layer ((s.cube c).pwr.layers.get l) _ _)
  refine modCube_congr (congrArg (fun p => { s.cube c with pwr := { (s.cube c).pwr with layers := p } }) (Eq.trans ?_ hlayers))
  simp only [Vector.get_ofFn]

theorem enqueueCube_of_room {s : State} (op : CubeOp) (grp : List Word) (ctr amt : Word) (planes : BitVec 8)
    (hroom : HasRoom s .cubeq) : ∃ m, enqueueCube s op grp ctr amt planes = { s.modCube s.me (fun k => { k with
        core := Say.numbered m k.core, cmds := k.cmds ++ [m], pwr := wakened .cubeq m k.pwr }) with nextId := s.nextId + 1 } ∧
      QueuedBy s .cubeq m ∧ Carries m (.cube op) grp ctr amt 0 planes := by
  obtain ⟨m, henq, hm, hc⟩ := enqueueOn_of_room (fun _ _ _ => []) (.cube op) grp ctr amt 0 planes hroom
  have hplanes : m.planes = planes := hc.2.2.2.2.2
  refine ⟨m, ?_, hm, hc⟩
  have hlast : ((s.queued m).cube s.me).cmds.getLast? = some m := by
    rw [cube_queued, Cube.queued, List.getLast?_append, List.getLast?_singleton, Option.some_or]
  unfold enqueueCube enqueue
  simp only [queueFull_of_room hroom, Bool.false_eq_true, if_false, henq, hlast]
  rw [← hplanes, requestLayers_busyLayers, modCube_queued]
  rfl

/-! ### The instructions -/

section
variable {s : State} {g : Guard} (hguard : s.ctx.guard g = true)
include hguard

/-- The other queues leave the layers as they are. -/
theorem enqueues_of_guarded {i : Instr} {q : Queue} {claim : State → CubeId → Cmd → List Nat} {kind : CmdKind} {grp : List Word}
    {ctr amt : Word} {recipe : BitVec 128} {planes : BitVec 8} {p : Cmd → Prop} {f : Ctx → State → State}
    (hexec : exec i s = s.guarded g f) (hf : f s.ctx s = enqueueOn claim s q kind grp ctr amt recipe planes) (hq : q ≠ .cubeq)
    (hroom : HasRoom s q) (hp : ∀ m, Carries m kind grp ctr amt recipe planes → p m) : Enqueues s i q p := by
  obtain ⟨m, henq, hm, hc⟩ := enqueueOn_of_room claim kind grp ctr amt recipe planes hroom
  rw [guarded_true s g _ hguard, hf] at hexec
  refine enqueues_of_exec hexec (henq.trans ?_) hm (hp m hc)
  simp only [wakened, if_neg hq]
  rfl

theorem enqueues_of_cube {i : Instr} {op : CubeOp} {grp : List Word} {ctr amt : Word} {planes : BitVec 8} {p : Cmd → Prop}
    {f : Ctx → State → State} (hexec : exec i s = s.guarded g f) (hf : f s.ctx s = enqueueCube s op grp ctr amt planes)
    (hroom : HasRoom s .cubeq) (hp : ∀ m, Carries m (.cube op) grp ctr amt 0 planes → p m) : Enqueues s i .cubeq p := by
  obtain ⟨m, henq, hm, hc⟩ := enqueueCube_of_room op grp ctr amt planes hroom
  rw [guarded_true s g _ hguard, hf] at hexec
  exact enqueues_of_exec hexec henq hm (hp m hc)

theorem enqueues_copy {i : Instr} {op : CopyOp} {a b c : SReg} {q : Bool} {n : Nat}
    (hexec : exec i s = .next (enqueueCopy s g op a b c q n)) (hroom : HasRoom s (if q then .cq1 else .cq0)) :
    Enqueues s i (if q then .cq1 else .cq0) fun m =>
      m.kind = .copy op ∧ m.grp = regsFrom s.ctx a n ∧ m.ctr = s.ctx.s b ∧ m.amt = s.ctx.s c :=
  enqueues_of_guarded hguard (f := fun x s => enqueueOn copyClaim s (if q then .cq1 else .cq0) (.copy op) (x.group a n) (x.s b)
    (x.s c) 0 0) hexec rfl (by cases q <;> decide) hroom fun _ ⟨hk, hg, hc, ha, _⟩ => ⟨hk, hg, hc, ha⟩

theorem enqueues_block {i : Instr} {op : BlkOp} {a b c : SReg} (hexec : exec i s = blkAny op g a b c s) (hroom : HasRoom s .blkq) :
    Enqueues s i .blkq fun m =>
      m.kind = .block op ∧ m.grp = regsFrom s.ctx a 4 ∧ m.ctr = s.ctx.s b ∧ m.amt = s.ctx.s c :=
  enqueues_of_guarded hguard hexec rfl (by decide) hroom fun _ ⟨hk, hg, hc, ha, _⟩ => ⟨hk, hg, hc, ha⟩

theorem enqueues_mma {i : Instr} {a b : SReg} {extra : Ctx → List Word} {op : CubeOp} (hexec : exec i s = cmmaAny g a b extra op s)
    (hroom : HasRoom s .cubeq) : Enqueues s i .cubeq fun m => m.kind = .cube op ∧
      m.grp = [s.ctx.s a, s.ctx.s b] ++ extra s.ctx ∧ m.planes = (s.ctx.s a).extractLsb' 27 8 :=
  enqueues_of_cube hguard hexec rfl hroom fun _ ⟨hk, hg, _, _, _, hp⟩ => ⟨hk, hg, hp⟩

theorem enqueues_rot {i : Instr} {a : SReg} {h64 : Bool} (hexec : exec i s = crotAny h64 g a s) (hroom : HasRoom s .cubeq) :
    Enqueues s i .cubeq fun m => m.kind = .cube (.rot h64) ∧ m.grp = [s.ctx.s a] :=
  enqueues_of_cube hguard hexec rfl hroom fun _ ⟨hk, hg, _⟩ => ⟨hk, hg⟩

omit hguard in
/-- The counter and the amount stand in the fourth and the fifth register of a group. -/
theorem group_ctr_amt (x : Ctx) (c : SReg) :
    (x.group c 5).getD 3 0 = x.s (c + 3) ∧ (x.group c 5).getD 4 0 = x.s (c + 4) ∧ (x.group c 5).getD 0 0 = x.s c :=
  ⟨rfl, rfl, by simp [Ctx.group]⟩

theorem enqueues_acc {i : Instr} {op : CubeOp} {a c : SReg} {b : Ctx → Word} (hexec : exec i s = caccAny op g a b c s)
    (hroom : HasRoom s .cubeq) : Enqueues s i .cubeq fun m => m.kind = .cube op ∧
      m.grp = [s.ctx.s a, b s.ctx] ++ (if c = 0 then [] else regsFrom s.ctx c 5) ∧
      (c ≠ 0 → m.ctr = s.ctx.s (c + 3) ∧ m.amt = s.ctx.s (c + 4)) := by
  refine enqueues_of_cube hguard hexec rfl hroom fun _ ⟨hk, hg, hctr, hamt, _⟩ => ⟨hk, hg, fun hc => ?_⟩
  obtain ⟨h3, h4, -⟩ := group_ctr_amt s.ctx c
  rw [hctr, hamt, if_neg hc]
  exact ⟨h3, h4⟩

theorem enqueues_drain {i : Instr} {p : Bool} {a b c : SReg} (hexec : exec i s = cdrainAny p g a b c s)
    (hroom : HasRoom s .drainq) : Enqueues s i .drainq fun m =>
      m.kind = .drain p ∧ m.grp = [s.ctx.s a, s.ctx.s b] ++ (if c = 0 then [] else regsFrom s.ctx c 5) ∧
      m.recipe = s.ctx.recipes.toList.getD ((s.ctx.s a).toNat / 2 ^ 16 % 16) 0 ∧
      (c ≠ 0 → s.ctx.s c ≠ 0 → m.ctr = s.ctx.s (c + 3) ∧ m.amt = s.ctx.s (c + 4)) := by
  refine enqueues_of_guarded hguard hexec rfl (by decide) hroom fun _ ⟨hk, hg, hctr, hamt, hrec, _⟩ => ⟨hk, hg, ?_, fun hc hrow => ?_⟩
  · rw [hrec, BitVec.extractLsb'_toNat, Nat.shiftRight_eq_div_pow]
  · obtain ⟨h3, h4, h0⟩ := group_ctr_amt s.ctx c
    rw [hctr, hamt, if_neg hc, h3, h4, h0, if_neg hrow]
    exact ⟨rfl, rfl⟩

omit hguard in
theorem exec_of_mem_copyRows : ∀ r ∈ copyRows, ∀ a b c q,
    exec (r.1 g a b c q) s = .next (enqueueCopy s g r.2.1 a b c q r.2.2) := by
  simp only [copyRows, List.forall_mem_cons]
  exact ⟨fun a b c q => exec_cpyLin g a b c q s,
    fun a b c q => exec_cpyTwod g a b c q s,
    fun a b c q => exec_cpyThreed g a b c q s,
    fun a b c q => exec_cpyFill g a b c q s,
    fun a b c q => exec_cpyLsplit g a b c q s,
    fun a b c q => exec_cpyLgath g a b c q s,
    fun a b c q => exec_cpyMcast g a b c q s,
    fun a b c q => exec_cpyPfetch g a b c q s,
    fun a b c q => exec_cgthGather g a b c q s,
    fun a b c q => exec_cgthScatter g a b c q s,
    fun a b c q => exec_cgthGatheradd g a b c q s,
    fun a b c q => exec_credAddf32 g a b c q s,
    fun a b c q => exec_credAddbf16 g a b c q s,
    fun a b c q => exec_credMaxf32 g a b c q s,
    fun a b c q => exec_credAddi32 g a b c q s, List.forall_mem_nil _⟩

omit hguard in
theorem exec_of_mem_blkRows : ∀ r ∈ blkRows, ∀ a b c, exec (r.1 g a b c) s = blkAny r.2 g a b c s := by
  simp only [blkRows, List.forall_mem_cons]
  exact ⟨fun a b c => exec_blkAlloc g a b c s,
    fun a b c => exec_blkFree g a b c s,
    fun a b c => exec_blkShare g a b c s,
    fun a b c => exec_blkXlate g a b c s,
    fun a b c => exec_blkFetch g a b c s,
    fun a b c => exec_blkAppend g a b c s,
    fun a b c => exec_blkStat g a b c s, List.forall_mem_nil _⟩

theorem accCommands_enqueue (hroom : HasRoom s .cubeq) (a b c : SReg) : ∀ r ∈ accRows,
    Enqueues s (r.1 g a b c) .cubeq fun m => m.kind = .cube r.2.1 ∧
      m.grp = [s.ctx.s a, if r.2.2 then s.ctx.s b else 0] ++ (if c = 0 then [] else regsFrom s.ctx c 5) ∧
      (c ≠ 0 → m.ctr = s.ctx.s (c + 3) ∧ m.amt = s.ctx.s (c + 4)) := by
  simp only [accRows, List.forall_mem_cons]
  exact ⟨enqueues_acc hguard (exec_caccZero g a c s) hroom, enqueues_acc hguard (exec_caccLd g a b c s) hroom,
    enqueues_acc hguard (exec_caccSt g a b c s) hroom, enqueues_acc hguard (exec_caccMove g a b c s) hroom,
    List.forall_mem_nil _⟩

theorem cubeCommands_enqueue (hroom : HasRoom s .cubeq) (a b c : SReg) (hb ha z : Bool) :
    Enqueues s (.cmma g a b hb ha z) .cubeq (fun m => m.kind = .cube (.mma z ha hb false) ∧
      m.grp = [s.ctx.s a, s.ctx.s b] ∧ m.planes = (s.ctx.s a).extractLsb' 27 8) ∧
    Enqueues s (.cmmaMsk g a b c hb ha z) .cubeq (fun m => m.kind = .cube (.mma z ha hb true) ∧
      m.grp = [s.ctx.s a, s.ctx.s b] ++ regsFrom s.ctx c 3 ∧ m.planes = (s.ctx.s a).extractLsb' 27 8) ∧
    Enqueues s (.crotH32 g a) .cubeq (fun m => m.kind = .cube (.rot false) ∧ m.grp = [s.ctx.s a]) ∧
    Enqueues s (.crotH64 g a) .cubeq (fun m => m.kind = .cube (.rot true) ∧ m.grp = [s.ctx.s a]) :=
  ⟨enqueues_mma hguard (exec_cmma g a b hb ha z s) hroom, enqueues_mma hguard (exec_cmmaMsk g a b c hb ha z s) hroom,
    enqueues_rot hguard (exec_crotH32 g a s) hroom, enqueues_rot hguard (exec_crotH64 g a s) hroom⟩
end

/-- Settles O24: every command by the form of its queue. -/
theorem engineCommands : Obligations.EngineCommands := by
  unfold Obligations.EngineCommands
  intro s g hguard
  refine ⟨fun r hr a b c q => enqueues_copy hguard (exec_of_mem_copyRows r hr a b c q),
    fun r hr a b c => enqueues_block hguard (exec_of_mem_blkRows r hr a b c), fun hroom a b c hb ha z => ?_, fun hroom a b c p => ?_⟩
  · obtain ⟨hmma, hmsk, h32, h64⟩ := cubeCommands_enqueue hguard hroom a b c hb ha z
    exact ⟨hmma, hmsk, h32, h64, accCommands_enqueue hguard hroom a b c⟩
  · cases p
    · exact enqueues_drain hguard (exec_cdrain g a b c s) hroom
    · exact enqueues_drain hguard (exec_cdrainP g a b c s) hroom

end Sys2Proof.Machine

/-! PROOFS. The spools (R300, R301). -/
namespace Sys2Proof.Machine

open Sys2Proof.Say

/-! ### Entries of a spool land and are released (R23) -/

theorem entryDone_marked (ds es : List Nat) (e : Nat) : entryDone e (ds.map (·, true) ++ (e :: es).map (·, false)) =
    (ds ++ [e]).map (·, true) ++ es.map (·, false) := by
  induction ds with
  | nil => simp [entryDone]
  | cons d ds ih =>
    simp only [List.map_cons, List.cons_append, entryDone, Prod.mk.injEq, Bool.true_eq_false, and_false, if_false]
    exact congrArg _ ih

theorem foldl_entryDone (es ds : List Nat) : es.foldl (fun qs e => entryDone e qs) (ds.map (·, true) ++ es.map (·, false)) =
    (ds ++ es).map (·, true) := by
  induction es generalizing ds with
  | nil => simp
  | cons e es ih => rw [List.foldl_cons, entryDone_marked, ih, List.append_assoc, List.singleton_append]

theorem entryNumbers_succ (first n : Nat) : entryNumbers first (n + 1) = first % 2 ^ 32 :: entryNumbers (first + 1) n := by
  unfold entryNumbers
  rw [List.range_succ_eq_map, List.map_cons, List.map_map, Nat.add_zero]
  refine congrArg _ (List.map_congr_left fun k _ => ?_)
  rw [Function.comp, Nat.add_right_comm, Nat.add_assoc]

theorem passDone_entryNumbers (n first : Nat) : passDone (BitVec.ofNat 32 first) ((entryNumbers first n).map (·, true)) =
    (BitVec.ofNat 32 (first + n), []) := by
  induction n generalizing first with
  | zero => rfl
  | succ n ih =>
    have hnext : BitVec.ofNat 32 (first % 2 ^ 32 + 1) = BitVec.ofNat 32 (first + 1) :=
      BitVec.eq_of_toNat_eq (by simp only [BitVec.toNat_ofNat, Nat.mod_add_mod])
    rw [entryNumbers_succ, List.map_cons, passDone, if_pos rfl, hnext, ih, Nat.add_right_comm, Nat.add_assoc]

/-- Entries that are all done with are passed at once. -/
theorem passDone_foldl (i : BitVec 32) (n : Nat) : passDone i ((entryNumbers i.toNat n).foldl (fun qs e => entryDone e qs)
    ((entryNumbers i.toNat n).map (·, false))) = (i + BitVec.ofNat 32 n, []) := by
  have hdone := foldl_entryDone (entryNumbers i.toNat n) []
  have hpass := passDone_entryNumbers n i.toNat
  rw [BitVec.ofNat_add, BitVec.ofNat_toNat, BitVec.setWidth_eq] at hpass
  simp only [List.map_nil, List.nil_append] at hdone
  rw [hdone, hpass]

section
variable {sp : Spool} (n : Nat)

theorem land_reserve (hp : sp.queueP = []) : (sp.reserve n).land sp.nextP n = { sp with p := sp.p + BitVec.ofNat 32 n } := by
  have hnext : sp.nextP = sp.p.toNat := by rw [Spool.nextP, hp]; rfl
  simp only [Spool.land, Spool.reserve, hp, hnext, List.nil_append, passDone_foldl]

theorem release_take (hc : sp.queueC = []) : (sp.take n).release sp.nextC n = { sp with c := sp.c + BitVec.ofNat 32 n } := by
  have hnext : sp.nextC = sp.c.toNat := by rw [Spool.nextC, hc]; rfl
  simp only [Spool.release, Spool.take, hc, hnext, List.nil_append, passDone_foldl]

theorem settleSpool_of_rest (s : State) (h : sp.held = []) : settleSpool s sp = sp := by
  rw [settleSpool, h, List.foldl_nil]

/-- An advance that waits for nothing settles at once. -/
theorem settleSpool_single (s : State) (p : Bool) (first : Nat) (h : sp.held = [(p, first, n, [])]) :
    settleSpool s sp = { (if p then sp.land first n else sp.release first n) with held := [] } := by
  have hheld : (if p then sp.land first n else sp.release first n).held = [(p, first, n, [])] := by
    cases p <;> exact h
  simp only [settleSpool, h, List.foldl_cons, List.foldl_nil, List.all_nil, if_true, hheld, List.filter_cons, bne_self_eq_false,
    Bool.false_eq_true, if_false, List.filter_nil]

theorem settle_reserve (s : State) (hp : sp.queueP = []) (hh : sp.held = []) :
    settleSpool s { (sp.reserve n) with held := sp.held ++ [(true, sp.nextP, n, [])] } =
      { sp with p := sp.p + BitVec.ofNat 32 n } := by
  rw [settleSpool_single n s true sp.nextP (by rw [hh]; rfl), if_pos rfl]
  have hland : ∀ (q : Spool) hs, ({ q with held := hs }).land sp.nextP n = { q.land sp.nextP n with held := hs } := fun _ _ => rfl
  rw [hland, land_reserve n hp, ← hh]

theorem settle_take (s : State) (hc : sp.queueC = []) (hh : sp.held = []) :
    settleSpool s { (sp.take n) with held := sp.held ++ [(false, sp.nextC, n, [])] } =
      { sp with c := sp.c + BitVec.ofNat 32 n } := by
  rw [settleSpool_single n s false sp.nextC (by rw [hh]; rfl), if_neg Bool.false_ne_true]
  have hrelease : ∀ (q : Spool) hs, ({ q with held := hs }).release sp.nextC n = { q.release sp.nextC n with held := hs } :=
    fun _ _ => rfl
  rw [hrelease, release_take n hc, ← hh]
end

/-! ### The spools of the running strand -/

theorem cube_modSid (s : State) (sid : Nat) (f : Ctx → Ctx) (c : CubeId) :
    (s.modSid sid f).cube c = (s.cube c).modSid sid f := by
  unfold State.modSid State.cube
  exact Vector.getElem_map _ c.isLt

theorem modSid_of_running {k : Cube} {sid : Nat} (f : Ctx → Ctx) (hcur : k.cur ≠ .none) (hsid : k.core.sid = sid) :
    k.modSid sid f = { k with core := f k.core } :=
  if_pos ⟨hcur, hsid⟩

/-- Taking in window writes concerns strands off their core only. -/
theorem settleWindow_core (s : State) (sid n : Nat) (c : CubeId) :
    ((settleWindow s sid n).cube c).core = (s.cube c).core ∧ ((settleWindow s sid n).cube c).cur = (s.cube c).cur := by
  unfold settleWindow State.cube
  simp only [Vector.get_eq_getElem, Vector.getElem_map]
  split
  · exact ⟨rfl, rfl⟩
  · split <;> exact ⟨rfl, rfl⟩

theorem modSpool_ctx {x : Ctx} {n : Fin 32} {f : Spool → Spool} : x.modSpool n.val f = withSpool n f x := dif_pos n.isLt

theorem withSpool_congr {n : Fin 32} {f g : Spool → Spool} {x : Ctx} (h : f (x.spools.get n) = g (x.spools.get n)) :
    withSpool n f x = withSpool n g x := by
  rw [withSpool, h, withSpool]

theorem withSpool_of_same {n : Fin 32} {f : Spool → Spool} {x : Ctx} (h : f (x.spools.get n) = x.spools.get n) :
    withSpool n f x = x := by
  rw [withSpool, h, vector_set_get]

section
variable {s : State} (hcur : (s.cube s.me).cur ≠ .none)
include hcur

theorem ctx_setSpool (n : Fin 32) (f : Spool → Spool) :
    (s.setSpool n.val f).ctx = withSpool n (fun sp => f (settleSpool s sp)) s.ctx := by
  have hme : (s.setSpool n.val f).me = s.me := rfl
  obtain ⟨hcore, hcur'⟩ := settleWindow_core s s.ctx.sid n.val s.me
  rw [State.ctx, hme, State.setSpool, modSpool, cube_modSid, modSid_of_running (sid := s.ctx.sid) _ (hcur'.symm ▸ hcur) (congrArg Ctx.sid hcore),
    hcore, modSpool_ctx]
  rfl

theorem ctxBecomes_setSpool {i : Instr} {n : Fin 32} {f g : Spool → Spool} (hexec : exec i s = .next (s.setSpool n.val f))
    (h : f (settleSpool s (s.ctx.spools.get n)) = g (s.ctx.spools.get n)) : CtxBecomes s i (withSpool n g) :=
  ⟨_, hexec, (ctx_setSpool hcur n f).trans (withSpool_congr h)⟩
end

theorem toNat_ofNat_fin {n : Nat} (hn : n ≤ 32) (k : Fin n) : (BitVec.ofNat 64 k.val).toNat = k.val := by
  have := k.isLt
  rw [BitVec.toNat_ofNat, Nat.mod_eq_of_lt]
  omega

theorem spoolNum_eq {w : Word} {n : Fin 32} (h : w = BitVec.ofNat 64 n.val) : spoolNum w = some n.val := by
  have hnat : w.toNat = n.val := by rw [h]; exact toNat_ofNat_fin (Nat.le_refl _) n
  have hhigh : w >>> 5 = 0 := BitVec.eq_of_toNat_eq (by
    rw [BitVec.toNat_ushiftRight, hnat, Nat.shiftRight_eq_div_pow]
    exact Nat.div_eq_of_lt n.isLt)
  rw [spoolNum, if_pos hhigh, hnat]

theorem spoolTrap_eq (s : State) : spoolTrap s = slotTrapWith s 0x0D 0 0 0 := rfl

/-- The traps of a definition are all the same one. -/
theorem eq_of_csplDefTrap {s : State} {a b c : SReg} {t : Trap} (h : csplDefTrap s a b c = some t) : t = spoolTrap s := by
  unfold csplDefTrap at h
  simp only [] at h
  split at h
  · exact (Option.some.inj h).symm
  · split at h
    · exact (Option.some.inj h).symm
    · exact absurd h (by simp)

section
variable {s : State} {g : Guard} (hguard : s.ctx.guard g = true)
include hguard

section
variable {i : Instr} {c : State → Option Trap} {f : Ctx → State → State}
  (hexec : exec i s = s.guarded g fun x s => s.orTrap (c s) (f x s))
include hexec

theorem exec_of_orTrap_none (hc : c s = none) : exec i s = .next (f s.ctx s) := by
  rw [hexec, guarded_true s g _ hguard, hc, State.orTrap]

theorem traps_of_orTrap {t : Trap} (hc : c s = some t) : Traps s i t := by
  rw [Traps, hexec, guarded_true s g _ hguard, hc, State.orTrap]
end

omit hguard in
theorem gives_of_writeS0 {i : Instr} {l : Nat} {d : SReg} {v : Word} (hl : 0 < l) (hexec : exec i s = .next (s.writeS0 l d v)) :
    Gives s i l (toReg d v) :=
  gives_of_pushResult hexec rfl hl (landResult_scalarResult · l 0 ⟨false, false⟩ d _)

theorem csplDef_traps {a b c : SReg} {t : Trap} (h : csplDefTrap s a b c = some t) :
    t = slotTrapWith s 0x0D 0 0 0 ∧ Traps s (.csplDef g a b c) t :=
  ⟨(eq_of_csplDefTrap h).trans (spoolTrap_eq s), traps_of_orTrap hguard (exec_csplDef g a b c s) h⟩

section
variable {a b c : SReg} {n : Fin 32} (hcur : (s.cube s.me).cur ≠ .none) (ha : s.ctx.s a = BitVec.ofNat 64 n.val)
include ha

omit hguard in
theorem spoolAt_eq : spoolAt s a = n.val := by
  rw [spoolAt, ha]
  exact toNat_ofNat_fin (Nat.le_refl _) n

section
include hcur

theorem csplDef_becomes (hok : csplDefTrap s a b c = none) :
    CtxBecomes s (.csplDef g a b c) (withSpool n fun _ => ⟨s.ctx.s b, s.ctx.s c, 0, 0, [], [], []⟩) := by
  have hexec := exec_of_orTrap_none hguard (exec_csplDef g a b c s) hok
  rw [spoolAt_eq ha] at hexec
  exact ctxBecomes_setSpool hcur hexec rfl

theorem csplReset_becomes (hok : csplResetTrap s a = none) : CtxBecomes s (.csplReset g a) (withSpool n fun sp =>
    ⟨(settleSpool s sp).loc, (settleSpool s sp).size, 0, 0, [], [], []⟩) := by
  have hexec := exec_of_orTrap_none hguard (exec_csplReset g a s) hok
  rw [spoolAt_eq ha] at hexec
  exact ctxBecomes_setSpool hcur hexec rfl
end

/-! ### The spool as the instructions see it -/

section
variable {sp : Spool} (hfind : s.findSid s.ctx.sid = some s.ctx) (hsp : s.ctx.spools.get n = sp) (hheld : sp.held = [])
include hfind hsp hheld

omit hguard ha in
theorem spool_of_rest : s.spool n.val = sp := by
  have hget : s.ctx.spool n.val = sp := by
    rw [Ctx.spool, ← hsp, List.getD_eq_getElem _ _ (by simp), Vector.getElem_toList]
    rfl
  rw [State.spool, strandSpool, hfind]
  exact (settleSpool_of_rest s (hget ▸ hheld)).trans hget

omit hguard in
theorem csplAdvpTrap_eq : csplAdvpTrap s a b =
    if sp.region = 0 ∨ sp.free < (s.ctx.s b).toNat then some (spoolTrap s) else none := by
  simp only [csplAdvpTrap, spoolNum_eq ha, spool_of_rest hfind hsp hheld]

omit hguard in
theorem csplAdvcTrap_eq : csplAdvcTrap s a b =
    if sp.region = 0 ∨ sp.unreserved < (s.ctx.s b).toNat then some (spoolTrap s) else none := by
  simp only [csplAdvcTrap, spoolNum_eq ha, spool_of_rest hfind hsp hheld]

theorem csplAdvp_traps (h : sp.region = 0 ∨ sp.free < (s.ctx.s b).toNat) :
    Traps s (.csplAdvp g a b) (slotTrapWith s 0x0D 0 0 0) :=
  traps_of_orTrap hguard (exec_csplAdvp g a b s) ((csplAdvpTrap_eq ha hfind hsp hheld).trans (if_pos h))

theorem csplAdvc_traps (h : sp.region = 0 ∨ sp.unreserved < (s.ctx.s b).toNat) :
    Traps s (.csplAdvc g a b) (slotTrapWith s 0x0D 0 0 0) :=
  traps_of_orTrap hguard (exec_csplAdvc g a b s) ((csplAdvcTrap_eq ha hfind hsp hheld).trans (if_pos h))

theorem csplRdp_gives (hregion : sp.region ≠ 0) (d : SReg) :
    Gives s (.csplRdp g d a) 2 (toReg d (sp.p.setWidth 64 ||| (sp.c.setWidth 64 <<< 32))) := by
  have hok : csplRdpTrap s a = none := by rw [csplRdpTrap, spoolNum_eq ha]; rfl
  have hexec := exec_of_orTrap_none hguard (exec_csplRdp g d a s) hok
  simp only [spoolAt_eq ha, spool_of_rest hfind hsp hheld, if_neg hregion] at hexec
  exact gives_of_writeS0 (by decide) hexec

section
variable (hregion : sp.region ≠ 0)
include hregion hcur

theorem csplAdvp_becomes (hqueue : sp.queueP = []) (hitems : s.items = [])
    (hfree : (s.ctx.s b).toNat ≤ sp.cap - (sp.p - sp.c).toNat) :
    CtxBecomes s (.csplAdvp g a b) (withSpool n fun sp => { sp with p := sp.p + (s.ctx.s b).setWidth 32 }) := by
  have hok : csplAdvpTrap s a b = none := by
    rw [csplAdvpTrap_eq ha hfind hsp hheld, if_neg]
    rw [Spool.free, Spool.occupancy, hqueue, List.length_nil]
    omega
  have hexec := exec_of_orTrap_none hguard (exec_csplAdvp g a b s) hok
  have hstores : ∀ rs, storesInto s s.ctx rs = [] := fun rs => by rw [storesInto, hitems]; rfl
  simp only [spoolAt_eq ha, hstores] at hexec
  split at hexec
  · next hzero =>
    have hb : s.ctx.s b = 0 := BitVec.eq_of_toNat_eq hzero
    exact ⟨s.cubes, hexec, (withSpool_of_same (by rw [hb]; simp)).symm⟩
  · refine ctxBecomes_setSpool hcur hexec ?_
    rw [hsp, settleSpool_of_rest s hheld, settle_reserve _ s hqueue hheld, BitVec.ofNat_toNat]

theorem csplAdvc_becomes (hqueue : sp.queueC = []) (hreads : s.reads = []) (hfree : (s.ctx.s b).toNat ≤ (sp.p - sp.c).toNat) :
    CtxBecomes s (.csplAdvc g a b) (withSpool n fun sp => { sp with c := sp.c + (s.ctx.s b).setWidth 32 }) := by
  have hok : csplAdvcTrap s a b = none := by
    rw [csplAdvcTrap_eq ha hfind hsp hheld, if_neg]
    rw [Spool.unreserved, Spool.occupancy, hqueue, List.length_nil]
    omega
  have hexec := exec_of_orTrap_none hguard (exec_csplAdvc g a b s) hok
  have hnone : openReads s s.ctx.sid = [] := by rw [openReads, hreads]; rfl
  simp only [spoolAt_eq ha, hnone] at hexec
  split at hexec
  · next hzero =>
    have hb : s.ctx.s b = 0 := BitVec.eq_of_toNat_eq hzero
    exact ⟨s.cubes, hexec, (withSpool_of_same (by rw [hb]; simp)).symm⟩
  · refine ctxBecomes_setSpool hcur hexec ?_
    rw [hsp, settleSpool_of_rest s hheld, settle_take _ s hqueue hheld, BitVec.ofNat_toNat]
end
end
end
end

/-- Settles O25: the instructions on spools, whose advances settle where nothing is in flight. -/
theorem spoolOps : Obligations.SpoolOps := by
  unfold Obligations.SpoolOps
  intro s g a b c n hguard hcur
  refine ⟨fun t h => csplDef_traps hguard h, fun hok ha => csplDef_becomes hguard hcur ha hok,
    fun hok ha => csplReset_becomes hguard hcur ha hok,
    fun sp hsp hqp hqc hheld hfind hitems hreads ha hregion _ => ⟨fun hfree => ?_, fun hfree _ => ?_, fun d => ?_⟩,
    fun sp hfind hsp hheld ha => ⟨fun hzero => ⟨?_, ?_⟩, fun hfree => ?_, fun hfree => ?_⟩⟩
  · exact csplAdvp_becomes hguard hcur ha hfind hsp hheld hregion hqp hitems hfree
  · exact csplAdvc_becomes hguard hcur ha hfind hsp hheld hregion hqc hreads hfree
  · exact csplRdp_gives hguard ha hfind hsp hheld hregion d
  · exact csplAdvp_traps hguard ha hfind hsp hheld (.inl hzero)
  · exact csplAdvc_traps hguard ha hfind hsp hheld (.inl hzero)
  · exact csplAdvp_traps hguard ha hfind hsp hheld (.inr hfree)
  · exact csplAdvc_traps hguard ha hfind hsp hheld (.inr hfree)

end Sys2Proof.Machine

/-! PROOFS. Palettes, recipes and join points (R302 to R305, R319). -/
namespace Sys2Proof.Machine

open Sys2Proof.Say

/-! ### Palettes and recipes -/

section
variable {s : State} {g : Guard} (hguard : s.ctx.guard g = true)
include hguard

theorem traps_of_orTrap_some {i : Instr} {c : State → Option Trap} {f : Ctx → State → State} {t : Trap}
    (hexec : exec i s = s.guarded g fun x s => s.orTrap (c s) (f x s)) (ht : ∀ t', c s = some t' → t' = t) (hc : c s ≠ none) :
    Traps s i t := by
  obtain ⟨t', h⟩ := Option.ne_none_iff_exists'.1 hc
  exact traps_of_orTrap hguard hexec (ht t' h ▸ h)

omit hguard in
/-- At the end of its bundle the palettes that it set are put in place, in order. -/
theorem pals_endBundle_withPals (hcloses : Closes s) (ps : List (Nat × Nat × BitVec 7)) :
    ((endBundle (s.modBundle fun u => { u with pals := u.pals ++ ps }) s.me).cube s.me).pals =
      ps.foldl Palettes.put ((endBundle s s.me).cube s.me).pals := by
  have hcube : (s.modBundle fun u => { u with pals := u.pals ++ ps }).cube s.me =
      { s.cube s.me with bundle := { s.bundle with pals := s.bundle.pals ++ ps } } := cube_modCube_self s s.me _
  have hcloses' : Closes (s.modBundle fun u => { u with pals := u.pals ++ ps }) := by
    unfold Closes State.bundle
    rw [me_modBundle, hcube]
    exact hcloses
  have hend := cube_endBundle_of_closes hcloses'
  rw [me_modBundle] at hend
  rw [hend, hcube, cube_endBundle_of_closes hcloses]
  exact List.foldl_append

omit hguard in
/-- The recipe of a low and a high dword. -/
theorem recipeOf2_eq (lo hi : Word) : recipeOf2 lo hi = hi.append lo := by
  refine BitVec.eq_of_getLsbD_eq fun i hi' => ?_
  have happend : (hi.append lo).getLsbD i = (hi ++ lo).getLsbD i := rfl
  rw [happend, BitVec.getLsbD_append, recipeOf2, BitVec.getLsbD_or, BitVec.getLsbD_shiftLeft, BitVec.getLsbD_setWidth,
    BitVec.getLsbD_setWidth]
  by_cases h : i < 64
  · simp [h, hi']
  · have hlt : i < 128 := hi'
    have hlow : lo.getLsbD i = false := BitVec.getLsbD_of_ge _ _ (Nat.le_of_not_lt h)
    have hin : i - 64 < 128 := by omega
    simp [h, hlow, hlt, hin]

theorem crcpDef_sets {a b c : SReg} (n : Fin 16) (ha : s.ctx.s a = BitVec.ofNat 64 n.val) (hok : crcpDefTrap s a b c = none) :
    exec (.crcpDef g a b c) s = .next (s.modCtx fun x => { x with
      recipes := x.recipes.set n.val ((s.ctx.s c).append (s.ctx.s b)) n.isLt }) := by
  have hexec := exec_of_orTrap_none hguard (exec_crcpDef g a b c s) hok
  have hn : (s.ctx.s a).toNat = n.val := by rw [ha]; exact toNat_ofNat_fin (by decide) n
  refine hexec.trans (congrArg (fun f => Host.Outcome.next (s.modCtx f)) (funext fun x => ?_))
  congr 1
  ext1 i hi
  rw [Vector.getElem_ofFn, Vector.getElem_set, hn, recipeOf2_eq]
  by_cases h : n.val = i
  · rw [if_pos h.symm, if_pos h]
  · rw [if_neg (Ne.symm h), if_neg h]
    rfl

theorem crcpGet_gives (a : SReg) {b : SReg} (n : Fin 16) (hi : Bool)
    (hb : s.ctx.s b = BitVec.ofNat 64 (n.val + if hi then 16 else 0)) :
    Gives s (.crcpGet g a b) 2 (toReg a ((s.ctx.recipes.get n).extractLsb' (if hi then 64 else 0) 64)) := by
  have hn := n.isLt
  have hnat : (s.ctx.s b).toNat = n.val + if hi then 16 else 0 := by
    rw [hb, BitVec.toNat_ofNat, Nat.mod_eq_of_lt]
    split <;> omega
  have hhigh : s.ctx.s b >>> 5 = 0 := BitVec.eq_of_toNat_eq (by
    rw [BitVec.toNat_ushiftRight, hnat, Nat.shiftRight_eq_div_pow]
    exact Nat.div_eq_of_lt (by split <;> omega))
  have hindex : (s.ctx.s b).toNat % 16 = n.val := by rw [hnat]; split <;> omega
  have hbit : (s.ctx.s b).getLsbD 4 = hi := by
    rw [BitVec.getLsbD, Nat.testBit_eq_decide_div_mod_eq, hnat]
    cases hi
    · exact decide_eq_false (by simp only [Bool.false_eq_true, if_false]; omega)
    · exact decide_eq_true (by simp only [if_true]; omega)
  have hok : crcpGetTrap s b = none := if_neg (not_not_intro hhigh)
  have hexec := exec_of_orTrap_none hguard (exec_crcpGet g a b s) hok
  have hrecipe : s.ctx.recipes.toList.getD n.val 0 = s.ctx.recipes.get n := by
    rw [List.getD_eq_getElem _ _ (by simp), Vector.getElem_toList]
    rfl
  simp only [hindex, hbit, hrecipe] at hexec
  exact gives_of_writeS0 (by decide) hexec

theorem cpalGet_gives (a : SReg) {b : SReg} (hok : cpalGetTrap s b = none) {i : Nat × Nat}
    (hbank : bankIndex s.ctx.part (s.ctx.s b) = [i]) :
    Gives s (.cpalGet g a b) 2 (toReg a ((if i.1 = 0 then (s.cube s.me).pals.scr.toList.getD i.2 0
      else (s.cube s.me).pals.face.toList.getD i.2 0).setWidth 64)) := by
  have hexec := exec_of_orTrap_none hguard (exec_cpalGet g a b s) hok
  simp only [hbank, List.headD_cons] at hexec
  exact gives_of_writeS0 (by decide) hexec

omit hguard in
theorem eq_of_ite_some {p : Prop} [Decidable p] {t t' : Trap} (h : (if p then some t else none) = some t') : t' = t := by
  split at h
  · exact (Option.some.inj h).symm
  · exact absurd h (by simp)
end

theorem palettesAndRecipes : PalettesAndRecipes := by
  intro s g a b c hguard
  refine ⟨fun hok ps hps => ⟨?_, fun hcloses => pals_endBundle_withPals hcloses ps⟩,
    fun hok i hbank => cpalGet_gives hguard a hok hbank, fun n ha hok => crcpDef_sets hguard n ha hok,
    fun n hi hb => crcpGet_gives hguard a n hi hb, ?_, ?_, ?_, fun hlarge => ?_⟩
  · rw [hps]
    exact exec_of_orTrap_none hguard (exec_cpalSet g a b s) hok
  · exact traps_of_orTrap_some hguard (exec_cpalSet g a b s) fun _ => eq_of_ite_some
  · exact traps_of_orTrap_some hguard (exec_cpalGet g a b s) fun _ => eq_of_ite_some
  · exact traps_of_orTrap_some hguard (exec_crcpDef g a b c s) fun _ => eq_of_ite_some
  · have hhigh : s.ctx.s b >>> 5 ≠ 0 := fun h => by
      have := congrArg BitVec.toNat h
      rw [BitVec.toNat_ushiftRight, Nat.shiftRight_eq_div_pow] at this
      simp only [BitVec.ofNat_eq_ofNat, BitVec.toNat_ofNat, Nat.zero_mod] at this
      omega
    exact traps_of_orTrap hguard (exec_crcpGet g a b s) (if_pos hhigh)

/-! ### Join points -/

theorem mem_newJoin_waits {s : State} {layers : BitVec 8} {ctr amt : Word} {l : Nat} {m : Cmd} (hl : l < 8)
    (hlayer : layers.getLsbD l = true) (hm : m ∈ (s.cube s.me).cmds) (hsid : m.sid = s.ctx.sid) (hqueue : m.queue = .cubeq)
    (hplane : m.planes.getLsbD l = true) : (l, m.id) ∈ (newJoin s s.ctx layers ctr amt).waits := by
  have hmeet : m.planes &&& layers ≠ 0 := fun h => by
    have := congrArg (·.getLsbD l) h
    simp [hlayer, hplane] at this
  refine List.mem_flatMap.2 ⟨l, List.mem_filter.2 ⟨List.mem_range.2 hl, hlayer⟩, List.mem_map.2 ⟨m, ?_, rfl⟩⟩
  refine List.mem_filter.2 ⟨List.mem_filter.2 ⟨hm, ?_⟩, hplane⟩
  rw [hsid, hqueue, beq_self_eq_true, beq_self_eq_true, Bool.and_self, Bool.true_and]
  exact bne_iff_ne.2 hmeet

/-- The cycles noted at a join point. -/
def Join.noted (cycle : BitVec 64) (k : Cube) (j : Join) : Join :=
  { j with
    first := if j.first.isNone && j.anyReached k then some cycle else j.first
    last := if j.last.isNone && j.allReached k then some cycle else j.last }

/-- A cube with one more join point. -/
def Cube.joining (j : Join) (k : Cube) : Cube := { k with joins := k.joins ++ [j] }
/-- The cube once the join point is placed and the cycles of all are noted. -/
def Cube.joined (cycle : BitVec 64) (j : Join) (k : Cube) : Cube :=
  { k with joins := (k.joins ++ [j]).map (Join.noted cycle (k.joining j)) }

theorem noteJoins_joining (s : State) (c : CubeId) (j : Join) :
    noteJoins (s.modCube c (Cube.joining j)) c = s.modCube c (Cube.joined s.cycle j) := by
  have hsome : ((s.modCube c (Cube.joining j)).cube c).joins.isEmpty = false := by
    rw [cube_modCube_self, Cube.joining, List.isEmpty_eq_false_iff]
    exact List.append_ne_nil_of_right_ne_nil _ (List.cons_ne_nil _ _)
  unfold noteJoins
  rw [hsome, if_neg Bool.false_ne_true, modCube_modCube]
  rfl

theorem placeJoin_of_room {s : State} {layers : BitVec 8} (ctr amt : Word) (hlayers : layers ≠ 0)
    (hroom : (s.cube s.me).joins.length < 8) : placeJoin s s.ctx layers ctr amt =
      { s with nextId := s.nextId + 1 }.modCube s.me (Cube.joined s.cycle (newJoin s s.ctx layers ctr amt)) := by
  have hfull : joinsFull (s.cube s.me) = false := decide_eq_false (Nat.not_le.2 hroom)
  unfold placeJoin
  rw [hfull, Bool.and_false, if_neg Bool.false_ne_true, if_neg hlayers]
  exact noteJoins_joining _ s.me _

section
variable {s : State} {g : Guard} (hguard : s.ctx.guard g = true)
include hguard

theorem csyncJoin_places {a b c : SReg} (ha : (s.ctx.s a).toNat % 256 ≠ 0) (hroom : (s.cube s.me).joins.length < 8) :
    exec (.csyncJoin g a b c) s = .next ({ s with nextId := s.nextId + 1 }.modCube s.me
      (Cube.joined s.cycle (newJoin s s.ctx ((s.ctx.s a).setWidth 8) (s.ctx.s b) (s.ctx.s c)))) := by
  have hlayers : (s.ctx.s a).setWidth 8 ≠ 0 := fun h => ha (by
    have := congrArg BitVec.toNat h
    rwa [BitVec.toNat_setWidth] at this)
  exact (exec_csyncJoin g a b c s).trans ((guarded_true s g _ hguard).trans
    (congrArg Host.Outcome.next (placeJoin_of_room _ _ hlayers hroom)))
end

theorem syncCommands : SyncCommands := by
  intro s g a b c hguard
  refine ⟨fun ha hroom => ?_, gives_of_writeS0 (by decide) ((exec_csyncStat g a s).trans (guarded_true s g _ hguard)),
    fun hmode => ?_, fun hmode => ?_⟩
  · let j := newJoin s s.ctx ((s.ctx.s a).setWidth 8) (s.ctx.s b) (s.ctx.s c)
    let t : State := { s with nextId := s.nextId + 1 }
    have hctx : (t.modCube s.me (Cube.joined s.cycle j)).ctx = s.ctx := 
      congrArg Cube.core (a₂ := (s.cube s.me).joined s.cycle j) (cube_modCube_self t s.me _)
    have hcube : (t.modCube s.me (Cube.joined s.cycle j)).cube s.me = (s.cube s.me).joined s.cycle j := cube_modCube_self t s.me _
    refine ⟨_, j.noted s.cycle ((s.cube s.me).joining j), csyncJoin_places hguard ha hroom, rfl,
      fun o ho => cube_modCube_ne t s.me o _ ho, rfl, hctx, ?_, ?_, rfl, rfl, rfl, rfl, rfl,
      fun l m hl hlayer hm hsid hqueue hplane => ?_⟩
    · rw [hcube, Cube.joined, List.map_map, List.map_append]
      rfl
    · rw [hcube, Cube.joined]
      exact List.mem_map_of_mem (List.mem_append_right _ (List.mem_singleton.2 rfl))
    · have hlayer' : ((s.ctx.s a).setWidth 8).getLsbD l = true := hlayer
      exact mem_newJoin_waits (ctr := s.ctx.s b) (amt := s.ctx.s c) hl hlayer' hm hsid hqueue hplane
  · rw [exec_csyncSkew, execCsyncSkew, privileged_of_not_task _ hguard hmode]
    rfl
  · rw [Traps, exec_csyncSkew, execCsyncSkew, privileged_of_task _ hguard hmode]

/-- Settles O26: palettes, recipes and join points, each by the state that its instruction leaves. -/
theorem palettesAndSync : Obligations.PalettesAndSync := by
  unfold Obligations.PalettesAndSync
  exact ⟨palettesAndRecipes, syncCommands⟩

end Sys2Proof.Machine

/-! PROOFS. An instruction whose guard does not hold (R39). -/
namespace Sys2Proof.Machine

open Sys2Proof.Say

/-- Settles O27: whatever an instruction with a guard does, it does under that guard. -/
theorem guardFails : Obligations.GuardFails := by
  unfold Obligations.GuardFails
  intro i s g hg hfalse
  have hunder : ∀ t : State, Host.Outcome.next (if s.ctx.guard g then t else s) = (Host.Outcome.next s : Out) := fun t => by
    rw [hfalse, if_neg Bool.false_ne_true]
  cases i <;> injection hg
  all_goals
    next hg =>
      subst hg
      exact hunder _

end Sys2Proof.Machine

/-! PROOFS. Vectors by their elements (R200 to R202), and the element-wise instructions (R203 to R207). -/
namespace Sys2Proof.Machine

open Sys2Proof.Say

/-! ### Vectors that agree in every element -/

section
variable {bytes : Nat} (hb : 0 < bytes) (hd : bytes ∣ 256)
include hb

/-- The bit of a vector, in the element where it stands. -/
theorem getLsbD_eq_elemAt (v : VWord) (j : Nat) : v.getLsbD j = (elemAt v bytes (j / (8 * bytes))).testBit (j % (8 * bytes)) := by
  have hw : 0 < 8 * bytes := by omega
  rw [elemAt_testBit, Nat.div_add_mod, decide_eq_true (Nat.mod_lt _ hw), Bool.true_and]

theorem elemAt_vecOf (f : Nat → Nat) {e : Nat} (he : e < 256 / bytes) : elemAt (vecOf bytes f) bytes e = f e % 2 ^ (8 * bytes) := by
  rw [vecOf, elemAt_packElems _ _ _ hb he, List.getD_eq_getElem?_getD, List.getElem?_map, List.getElem?_range he]
  rfl

include hd

theorem eq_of_elemAt {v w : VWord} (h : ∀ e < 256 / bytes, elemAt v bytes e = elemAt w bytes e) : v = w := by
  refine BitVec.eq_of_getLsbD_eq fun j hj => ?_
  have he : j / (8 * bytes) < 256 / bytes := by
    obtain ⟨n, hn⟩ := hd
    have hlt : j < n * (8 * bytes) := by
      have : n * (8 * bytes) = 8 * (bytes * n) := by rw [Nat.mul_left_comm, Nat.mul_comm n]
      omega
    rw [hn, Nat.mul_div_cancel_left _ hb]
    exact Nat.div_lt_of_lt_mul (Nat.mul_comm n _ ▸ hlt)
  rw [getLsbD_eq_elemAt hb, getLsbD_eq_elemAt hb, h _ he]

theorem vecOf_congr {f g : Nat → Nat} (h : ∀ e < 256 / bytes, f e % 2 ^ (8 * bytes) = g e % 2 ^ (8 * bytes)) :
    vecOf bytes f = vecOf bytes g :=
  eq_of_elemAt hb hd fun e he => by rw [elemAt_vecOf hb f he, elemAt_vecOf hb g he, h e he]

/-! ### Byte enables by elements -/

/-- Enables that treat the bytes of each element alike are those of the elements that have them. -/
theorem enables_of_bits {en : MWord} {sel : Nat → Bool} (hen : ∀ j < 256, en.getLsbD j = sel (j / bytes)) :
    enables en bytes = en ∧ ∀ e < 256 / bytes, active en bytes e = sel e := by
  have hactive : ∀ e < 256 / bytes, active en bytes e = sel e := fun e he => by
    have hlt : bytes * e < 256 := calc
      bytes * e < bytes * (256 / bytes) := Nat.mul_lt_mul_of_pos_left he hb
      _ ≤ 256 := Nat.mul_div_le 256 bytes
    rw [active, hen _ hlt, Nat.mul_div_cancel_left _ hb]
  refine ⟨BitVec.eq_of_getLsbD_eq fun j hj => ?_, hactive⟩
  have he : j / bytes < 256 / bytes := by
    obtain ⟨n, hn⟩ := hd
    rw [hn, Nat.mul_div_cancel_left _ hb]
    exact Nat.div_lt_of_lt_mul (hn ▸ hj)
  rw [enables_bit _ _ _ hb hd, decide_eq_true hj, Bool.true_and, hactive _ he, hen j hj]

/-- A merge by elements: a selected one is the new one, any other stays. -/
theorem mergeBytes_eq_vecOf {en : MWord} {sel : Nat → Bool} (hen : ∀ j < 256, en.getLsbD j = sel (j / bytes)) (old v : VWord) :
    mergeBytes old v en = vecOf bytes fun e => if sel e then elemAt v bytes e else elemAt old bytes e := by
  obtain ⟨hself, hactive⟩ := enables_of_bits hb hd hen
  refine eq_of_elemAt hb hd fun e he => ?_
  rw [elemAt_vecOf hb _ he, ← hself, elemAt_mergeBytes _ _ _ _ _ hb hd he, hactive e he]
  split <;> exact (Nat.mod_eq_of_lt (elemAt_lt _ _ _)).symm

theorem enables_getLsbD (m : MWord) {j : Nat} (hj : j < 256) : (enables m bytes).getLsbD j = active m bytes (j / bytes) := by
  rw [enables_bit _ _ _ hb hd, decide_eq_true hj, Bool.true_and]

theorem maskOf_getLsbD (f : Nat → Bool) {j : Nat} (hj : j < 256) : (maskOf bytes f).getLsbD j = f (j / bytes) := by
  rw [maskOf_bit _ _ _ hb hd, decide_eq_true hj, Bool.true_and]

/-- No byte is enabled where no element is active. -/
theorem enables_eq_zero_iff (m : MWord) : enables m bytes = 0 ↔ ¬∃ e, e < 256 / bytes ∧ active m bytes e = true := by
  constructor
  · rintro h ⟨e, he, hactive⟩
    have hlt : bytes * e < 256 := calc
      bytes * e < bytes * (256 / bytes) := Nat.mul_lt_mul_of_pos_left he hb
      _ ≤ 256 := Nat.mul_div_le 256 bytes
    have hbit := enables_getLsbD hb hd m hlt
    rw [h, Nat.mul_div_cancel_left _ hb, hactive] at hbit
    simp at hbit
  · intro h
    refine BitVec.eq_of_getLsbD_eq fun j hj => ?_
    have he : j / bytes < 256 / bytes := by
      obtain ⟨n, hn⟩ := hd
      rw [hn, Nat.mul_div_cancel_left _ hb]
      exact Nat.div_lt_of_lt_mul (hn ▸ hj)
    have hnot : active m bytes (j / bytes) = false := Bool.eq_false_iff.2 fun ha => h ⟨_, he, ha⟩
    rw [enables_getLsbD hb hd m hj, hnot]
    simp
end

/-! ### Vector results land -/

/-- A vector result, its value merged under its byte enables as it lands (R202). -/
theorem landResult_vectorResult (x : Ctx) (l : Nat) (u : Bool) (m : Mods) (d : VReg) (v : VWord) (en : MWord) (a : BitVec 3)
    (n cls pos : Nat) (chk : Bool) :
    landResult x { vectorResult l u m d v en with also := a, rem := n, cls := cls, pos := pos, chk := chk } =
      (toVector u m d (mergeBytes (x.v d) v en) x).setLatchV a (mergeBytes (x.v d) v en) := by
  have hd : ((d.setWidth 6).setWidth 5 : VReg) = d := by
    rw [BitVec.setWidth_setWidth_of_le _ (by decide), BitVec.setWidth_eq]
  unfold landResult vectorResult toVector unitLatch emptyResult
  cases m.nw <;> simp only [Bool.false_eq_true, if_false, if_true, hd]

/-- What a vector slot pushes: nothing where no byte of its mask is enabled. -/
def State.pushUnder (s : State) (en : MWord) (r : Result) : State := if en = 0 then s else s.pushResult r

section
variable {s : State} {i : Instr} {l : Nat} {u : Bool} {m : Mods} {d : VReg} {bytes : Nat} {k : MReg} {on : Nat → Bool}
  {new : Nat → Nat} {also : VWord → Ctx → Ctx} {v : VWord} {en : MWord} {a : BitVec 3}

/-- What lands of a vector, element by element. -/
theorem landResult_vector_elements {mk : MWord} (hb : 0 < bytes) (hd : bytes ∣ 256)
    (hen : ∀ j < 256, en.getLsbD j = (active mk bytes (j / bytes) && on (j / bytes)))
    (hv : ∀ e < 256 / bytes, active mk bytes e = true → on e = true → elemAt v bytes e = new e % 2 ^ (8 * bytes))
    (halso : ∀ w x, Ctx.setLatchV x a w = also w x) (x : Ctx) (n cls pos : Nat) (chk : Bool) :
    landResult x { vectorResult l u m d v en with also := a, rem := n, cls := cls, pos := pos, chk := chk } =
      also (vecOf bytes fun e => if active mk bytes e && on e then new e else elemAt (x.v d) bytes e)
        (toVector u m d (vecOf bytes fun e => if active mk bytes e && on e then new e else elemAt (x.v d) bytes e) x) := by
  have hmerge : mergeBytes (x.v d) v en =
      vecOf bytes fun e => if active mk bytes e && on e then new e else elemAt (x.v d) bytes e := by
    rw [mergeBytes_eq_vecOf (sel := fun e => active mk bytes e && on e) hb hd hen]
    refine vecOf_congr hb hd fun e he => ?_
    split
    · next hsel =>
      obtain ⟨hactive, hon⟩ := Bool.and_eq_true_iff.1 hsel
      rw [hv e he hactive hon, Nat.mod_mod]
    · rfl
  rw [landResult_vectorResult, hmerge, halso]

/-- A vector slot gives its elements, and where none is active it does nothing at all (R201). -/
theorem vecGives_of_pushUnder
    (hexec : exec i s = .next (s.pushUnder (enables (s.ctx.m k) bytes) { vectorResult l u m d v en with also := a })) (hl : 0 < l)
    (hb : 0 < bytes) (hd : bytes ∣ 256) (hen : ∀ j < 256, en.getLsbD j = (active (s.ctx.m k) bytes (j / bytes) && on (j / bytes)))
    (hv : ∀ e < 256 / bytes, active (s.ctx.m k) bytes e = true → on e = true → elemAt v bytes e = new e % 2 ^ (8 * bytes))
    (halso : ∀ w x, Ctx.setLatchV x a w = also w x) : VecGives s i l u m d bytes k on new also := by
  unfold VecGives
  split
  · next hsome =>
    have hne : enables (s.ctx.m k) bytes ≠ 0 := fun h => (enables_eq_zero_iff hb hd _).1 h hsome
    rw [State.pushUnder, if_neg hne] at hexec
    exact gives_of_pushResult hexec rfl (lat_pos m.tv hl) (landResult_vector_elements (l := l) hb hd hen hv halso)
  · next hnone =>
    rw [hexec, State.pushUnder, if_pos ((enables_eq_zero_iff hb hd _).2 hnone)]

/-- The elements that an element-wise slot packs. -/
theorem vecGives_of_vout {es : List Nat} (hexec : exec i s = .next (s.vout l u m d bytes k es)) (hl : 0 < l) (hb : 0 < bytes)
    (hd : bytes ∣ 256) (hes : ∀ e < 256 / bytes, active (s.ctx.m k) bytes e = true → es.getD e 0 % 2 ^ (8 * bytes) = new e % 2 ^ (8 * bytes)) :
    VecGives s i l u m d bytes k allOn new nothingElse :=
  vecGives_of_pushUnder (a := 0) (v := packElems bytes es) (en := enables (s.ctx.m k) bytes) hexec hl hb hd
    (fun j hj => by rw [enables_getLsbD hb hd _ hj, allOn, Bool.and_true])
    (fun e he hactive _ => by rw [elemAt_packElems _ _ _ hb he, hes e he hactive]) fun _ _ => rfl
end

/-! ### Element-wise instructions -/

theorem zipWith_elems_getD (f : Nat → Nat → Nat) (v w : VWord) {bytes e : Nat} (he : e < 256 / bytes) :
    (List.zipWith f (elems v bytes) (elems w bytes)).getD e 0 = f (elemAt v bytes e) (elemAt w bytes e) := by
  rw [List.getD_eq_getElem?_getD, List.getElem?_zipWith]
  simp [elems, he]

theorem map_elems_getD (f : Nat → Nat) (v : VWord) {bytes e : Nat} (he : e < 256 / bytes) :
    ((elems v bytes).map f).getD e 0 = f (elemAt v bytes e) := by
  rw [List.getD_eq_getElem?_getD, List.getElem?_map]
  simp [elems, he]

section
variable {s : State} {i : Instr} {l : Nat} {k : MReg} {u : Bool} {m : Mods} {d : VReg} {a b : VSrc} {t : ElemT}

theorem vecGives_vmap1 {f : Nat → Nat} (hexec : exec i s = vmap1 l f k u m d a t s) (hl : 0 < l) :
    VecGives s i l u m d t.bytes k allOn (fun e => f (elemAt (s.ctx.vsrc t.bytes a) t.bytes e)) nothingElse :=
  vecGives_of_vout hexec hl (bytes_pos t) (bytes_dvd t) fun e he _ => by rw [map_elems_getD _ _ he]

theorem vecGives_vmap2 {f : Nat → Nat → Nat} (hexec : exec i s = vmap2 l f k u m d a b t s) (hl : 0 < l) :
    VecGives s i l u m d t.bytes k allOn
      (fun e => f (elemAt (s.ctx.vsrc t.bytes a) t.bytes e) (elemAt (s.ctx.vsrc t.bytes b) t.bytes e)) nothingElse :=
  vecGives_of_vout hexec hl (bytes_pos t) (bytes_dvd t) fun e he _ => by rw [zipWith_elems_getD _ _ _ he]

theorem vecGives_vmap3 {f : Nat → Nat → Nat → Nat} (hexec : exec i s = vmap3 l f k u m d a b t s) (hl : 0 < l) :
    VecGives s i l u m d t.bytes k allOn (fun e => f (elemAt (s.ctx.v d) t.bytes e) (elemAt (s.ctx.vsrc t.bytes a) t.bytes e)
      (elemAt (s.ctx.vsrc t.bytes b) t.bytes e)) nothingElse := by
  refine vecGives_of_vout hexec hl (bytes_pos t) (bytes_dvd t) fun e he _ => ?_
  rw [List.getD_eq_getElem?_getD, List.getElem?_zipWith]
  simp [elems, he]
end

theorem elementwise1_of_exec {rs : List (V1 × Nat × (Nat → Nat → Nat))} (h : ∀ r ∈ rs, 0 < r.2.1 ∧ ∀ s k u m d a t,
    exec (r.1 k u m d a t) s = vmap1 r.2.1 (r.2.2 (8 * t.bytes)) k u m d a t s) : Elementwise1 rs :=
  fun r hr s k u m d a t => vecGives_vmap1 ((h r hr).2 s k u m d a t) (h r hr).1

theorem elementwise2_of_exec {rs : List (V2 × Nat × (Nat → Nat → Nat → Nat))} (h : ∀ r ∈ rs, 0 < r.2.1 ∧ ∀ s k u m d a b t,
    exec (r.1 k u m d a b t) s = vmap2 r.2.1 (r.2.2 (8 * t.bytes)) k u m d a b t s) : Elementwise2 rs :=
  fun r hr s k u m d a b t => vecGives_vmap2 ((h r hr).2 s k u m d a b t) (h r hr).1

theorem elementwise2_viaRows : Elementwise2 viaRows := by
  refine elementwise2_of_exec ?_
  simp only [viaRows, List.forall_mem_cons]
  exact ⟨⟨by decide, fun s k u m d a b t => exec_vadd k u m d a b t s⟩,
    ⟨by decide, fun s k u m d a b t => exec_vsub k u m d a b t s⟩,
    ⟨by decide, fun s k u m d a b t => exec_vadds k u m d a b t s⟩,
    ⟨by decide, fun s k u m d a b t => exec_vsubs k u m d a b t s⟩,
    ⟨by decide, fun s k u m d a b t => exec_vaddsn k u m d a b t s⟩,
    ⟨by decide, fun s k u m d a b t => exec_vsubsn k u m d a b t s⟩,
    ⟨by decide, fun s k u m d a b t => exec_vmul k u m d a b t s⟩,
    ⟨by decide, fun s k u m d a b t => exec_vmulh k u m d a b t s⟩,
    ⟨by decide, fun s k u m d a b t => exec_vmulhn k u m d a b t s⟩,
    ⟨by decide, fun s k u m d a b t => exec_vmin k u m d a b t s⟩,
    ⟨by decide, fun s k u m d a b t => exec_vmax k u m d a b t s⟩,
    ⟨by decide, fun s k u m d a b t => exec_vminn k u m d a b t s⟩,
    ⟨by decide, fun s k u m d a b t => exec_vmaxn k u m d a b t s⟩,
    ⟨by decide, fun s k u m d a b t => exec_vavgn k u m d a b t s⟩, List.forall_mem_nil _⟩

theorem elementwise2_vlgRows : Elementwise2 vlgRows := by
  refine elementwise2_of_exec ?_
  simp only [vlgRows, List.forall_mem_cons]
  exact ⟨⟨by decide, fun s k u m d a b t => exec_vand k u m d a b t s⟩,
    ⟨by decide, fun s k u m d a b t => exec_vor k u m d a b t s⟩,
    ⟨by decide, fun s k u m d a b t => exec_vxor k u m d a b t s⟩,
    ⟨by decide, fun s k u m d a b t => exec_vandn k u m d a b t s⟩,
    ⟨by decide, fun s k u m d a b t => exec_vshl k u m d a b t s⟩,
    ⟨by decide, fun s k u m d a b t => exec_vshr k u m d a b t s⟩,
    ⟨by decide, fun s k u m d a b t => exec_vsar k u m d a b t s⟩,
    ⟨by decide, fun s k u m d a b t => exec_vrol k u m d a b t s⟩,
    ⟨by decide, fun s k u m d a b t => exec_vbfxn k u m d a b t s⟩,
    ⟨by decide, fun s k u m d a b t => exec_vbfxs k u m d a b t s⟩, List.forall_mem_nil _⟩

theorem elementwise1_intUnaryRows : Elementwise1 intUnaryRows := by
  refine elementwise1_of_exec ?_
  simp only [intUnaryRows, List.forall_mem_cons]
  exact ⟨⟨by decide, fun s k u m d a t => exec_vabs k u m d a t s⟩,
    ⟨by decide, fun s k u m d a t => exec_vneg k u m d a t s⟩,
    ⟨by decide, fun s k u m d a t => exec_vnot k u m d a t s⟩,
    ⟨by decide, fun s k u m d a t => exec_vpopc k u m d a t s⟩,
    ⟨by decide, fun s k u m d a t => exec_vclz k u m d a t s⟩,
    ⟨by decide, fun s k u m d a t => exec_vmov k u m d a t s⟩, List.forall_mem_nil _⟩

/-- Settles O28: every integer and logic instruction is one function applied to its elements. -/
theorem vectorInteger : Obligations.VectorInteger := by
  unfold Obligations.VectorInteger
  refine ⟨fun r hr => ?_, elementwise1_intUnaryRows, fun s k u m d a b t => ?_⟩
  · exact (List.mem_append.1 hr).elim (elementwise2_viaRows r) (elementwise2_vlgRows r)
  · exact vecGives_vmap3 (f := vecBfi (tbits t)) (exec_vbfi k u m d a b t s) (by decide)

/-! ### Floating point -/

theorem exec_of_mem_vfRows : ∀ r ∈ vfRows, ∀ s k u m d a b t, exec (r.1 k u m d a b t) s = vfmap2 r.2 k u m d a b t s := by
  simp only [vfRows, List.forall_mem_cons]
  exact ⟨fun s k u m d a b t => exec_vfadd k u m d a b t s,
    fun s k u m d a b t => exec_vfsub k u m d a b t s,
    fun s k u m d a b t => exec_vfmul k u m d a b t s,
    fun s k u m d a b t => exec_vfmin k u m d a b t s,
    fun s k u m d a b t => exec_vfmax k u m d a b t s,
    fun s k u m d a b t => exec_vfmaxabs k u m d a b t s, List.forall_mem_nil _⟩

/-- An operation on values, rounded once to the type. -/
theorem vecGives_vfmap2 {s : State} {i : Instr} {f : RMode → FVal → FVal → FVal} {k : MReg} {u : Bool} {m : Mods} {d : VReg}
    {a b : VSrc} {t : ElemT} (hexec : exec i s = vfmap2 f k u m d a b t s) :
    VecGives s i 4 u m d t.bytes k allOn (fun e => encode (numFmt t) (.frm s.ctx.sys.frm) 0 (f (.frm s.ctx.sys.frm)
      (decodeNum (numFmt t) (elemAt (s.ctx.vsrc t.bytes a) t.bytes e))
      (decodeNum (numFmt t) (elemAt (s.ctx.vsrc t.bytes b) t.bytes e)))) nothingElse :=
  vecGives_vmap2 (f := fun x y => encode (numFmt t) s.ctx.rm 0 (f s.ctx.rm (decodeNum (numFmt t) x) (decodeNum (numFmt t) y)))
    hexec (by decide)

theorem elementwise1_signRows : Elementwise1 signRows := by
  refine elementwise1_of_exec ?_
  simp only [signRows, List.forall_mem_cons]
  exact ⟨⟨by decide, fun s k u m d a t => exec_vfabs k u m d a t s⟩,
    ⟨by decide, fun s k u m d a t => exec_vfneg k u m d a t s⟩, List.forall_mem_nil _⟩

theorem elementwise2_vfcpsgn :
    Elementwise2 [(.vfcpsgn, 4, fun w x y => x % 2 ^ (w - 1) + y / 2 ^ (w - 1) * 2 ^ (w - 1))] :=
  elementwise2_of_exec (List.forall_mem_singleton.2 ⟨by decide, fun s k u m d a b t => exec_vfcpsgn k u m d a b t s⟩)

theorem exec_of_mem_sfuRows : ∀ r ∈ sfuRows, ∀ s k u m d a t, exec (r.1 k u m d a t) s = vsfu r.2 k u m d a t s := by
  simp only [sfuRows, List.forall_mem_cons]
  exact ⟨fun s k u m d a t => exec_vexp2 k u m d a t s,
    fun s k u m d a t => exec_vlog2 k u m d a t s,
    fun s k u m d a t => exec_vtanh k u m d a t s,
    fun s k u m d a t => exec_vsigm k u m d a t s,
    fun s k u m d a t => exec_vrcp k u m d a t s,
    fun s k u m d a t => exec_vrsq k u m d a t s,
    fun s k u m d a t => exec_vsqrt k u m d a t s, List.forall_mem_nil _⟩

/-- A special function, whose result goes to b5 as well. -/
theorem vecGives_vsfu {s : State} {i : Instr} {f : NFmt → Nat → FVal → Nat} {k : MReg} {u : Bool} {m : Mods} {d : VReg} {a : VSrc}
    {t : ElemT} (hexec : exec i s = vsfu f k u m d a t s) :
    VecGives s i 8 u m d t.bytes k allOn (fun e =>
      let x := elemAt (s.ctx.vsrc t.bytes a) t.bytes e
      f (numFmt t) x (decodeNum (numFmt t) x)) fun v x => x.setLatchV 5 v := by
  let es := (elems (s.ctx.vsrc t.bytes a) t.bytes).map fun x => f (numFmt t) x (decodeNum (numFmt t) x)
  refine vecGives_of_pushUnder (a := 5) (v := packElems t.bytes es) (en := enables (s.ctx.m k) t.bytes) hexec (by decide)
    (bytes_pos t) (bytes_dvd t) (fun j hj => ?_) (fun e he _ _ => ?_) fun _ _ => rfl
  · rw [enables_getLsbD (bytes_pos t) (bytes_dvd t) _ hj, allOn, Bool.and_true]
  · rw [elemAt_packElems _ _ _ (bytes_pos t) he, map_elems_getD _ _ he]

/-- The bits of a × b + o, rounded once. -/
def fusedBits (s : State) (t : ElemT) (o x y : Nat) : Nat :=
  encode (numFmt t) s.ctx.rm 0 (FVal.add s.ctx.rm ((decodeNum (numFmt t) x).mul (decodeNum (numFmt t) y)) (decodeNum (numFmt t) o))

theorem vecGives_vffma (s : State) (k : MReg) (u : Bool) (m : Mods) (d : VReg) (a b : VSrc) (t : ElemT) :
    VecGives s (.vffma k u m d a b t) 4 u m d t.bytes k allOn (fun e => fusedBits s t (elemAt (s.ctx.v d) t.bytes e)
      (elemAt (s.ctx.vsrc t.bytes a) t.bytes e) (elemAt (s.ctx.vsrc t.bytes b) t.bytes e)) nothingElse :=
  vecGives_vmap3 (exec_vffma k u m d a b t s) (by decide)

/-- Settles O29: floating point by its operation on values, rounded once, and the special functions. -/
theorem vectorFloat : Obligations.VectorFloat := by
  unfold Obligations.VectorFloat
  exact ⟨fun r hr s k u m d a b t => vecGives_vfmap2 (exec_of_mem_vfRows r hr s k u m d a b t), elementwise1_signRows,
    elementwise2_vfcpsgn, fun s k u m d a b t => vecGives_vffma s k u m d a b t,
    fun r hr s k u m d a t => vecGives_vsfu (exec_of_mem_sfuRows r hr s k u m d a t)⟩

end Sys2Proof.Machine

/-! PROOFS. Masks: vector compares, mask logic and counts (R208, R209). -/
namespace Sys2Proof.Machine

open Sys2Proof.Say

/-! ### Masks bit by bit -/

/-- A list of 256 bits as a mask. -/
theorem getLsbD_ofBits (f : Nat → Bool) {j : Nat} (hj : j < 256) :
    ((BitVec.ofBoolListLE ((List.range 256).map f)).setWidth 256).getLsbD j = f j := by
  rw [BitVec.getLsbD_setWidth, decide_eq_true hj, Bool.true_and, BitVec.getLsbD_ofBoolListLE, List.getD_eq_getElem?_getD,
    List.getElem?_map, List.getElem?_range hj]
  rfl

theorem maskFrom_eq {bytes : Nat} (hb : 0 < bytes) (hd : bytes ∣ 256) (f : Nat → Bool) : maskFrom bytes f = maskOf bytes f :=
  BitVec.eq_of_getLsbD_eq fun j hj => by rw [maskOf_getLsbD hb hd f hj]; exact getLsbD_ofBits _ hj

/-- Bits of a mask that an element's byte has enabled take f of the bit and of the test, others stay. -/
def mergedMask (bytes : Nat) (k : MWord) (test : Nat → Bool) (f : Bool → Bool → Bool) (old : MWord) : MWord :=
  (BitVec.ofBoolListLE ((List.range 256).map fun j =>
    if active k bytes (j / bytes) then f (old.getLsbD j) (test (j / bytes)) else old.getLsbD j)).setWidth 256

theorem mergedMask_eq {bytes : Nat} (hb : 0 < bytes) (hd : bytes ∣ 256) (k : MWord) (test : Nat → Bool) (f : Bool → Bool → Bool)
    (old v : MWord) (hv : ∀ j < 256, v.getLsbD j = f (old.getLsbD j) (test (j / bytes))) :
    (old &&& ~~~enables k bytes) ||| (v &&& enables k bytes) = mergedMask bytes k test f old := by
  refine BitVec.eq_of_getLsbD_eq fun j hj => ?_
  rw [mergedMask, getLsbD_ofBits _ hj]
  simp only [BitVec.getLsbD_or, BitVec.getLsbD_and, BitVec.getLsbD_not, hj, decide_true, Bool.true_and,
    enables_getLsbD hb hd k hj, hv j hj]
  cases active k bytes (j / bytes) <;> simp

/-! ### Mask results -/

/-- The result that writes a mask. -/
def maskResult (l : Nat) (tv : Bool) (d : MReg) (c : Comb) (v en : MWord) : Result :=
  { emptyResult with
    rem := latency l tv, kind := .mask, dest := d.setWidth 6, comb := c, vec := v.setWidth 2048, en := en, tv := tv }

theorem landResult_maskResult (x : Ctx) (l : Nat) (tv : Bool) (d : MReg) (c : Comb) (v en : MWord) :
    landResult x (maskResult l tv d c v en) = toMask d (fun old => (old &&& ~~~en) ||| (combBits c old v &&& en)) x := by
  have hd : ((d.setWidth 6).setWidth 3 : MReg) = d := by
    rw [BitVec.setWidth_setWidth_of_le _ (by decide), BitVec.setWidth_eq]
  have hv : ((v.setWidth 2048).setWidth 256 : MWord) = v := by
    rw [BitVec.setWidth_setWidth_of_le _ (by decide), BitVec.setWidth_eq]
  simp only [landResult, maskResult, emptyResult, toMask, hd, hv]

theorem setM_self (x : Ctx) (d : MReg) : x.setM d (x.m d) = x := by
  unfold Ctx.setM Ctx.m
  split
  · rfl
  · exact congrArg (fun v => { x with regs := { x.regs with m := v } }) (vector_set_get x.regs.m d.toFin)

/-- What mask slots push: nothing where no byte is enabled (R201). -/
def maskResults (en : MWord) (rs : List Result) : List Result := if en = 0 then [] else rs

theorem foldl_maskResults (s : State) (en : MWord) (rs : List Result) :
    (maskResults en rs).foldl State.pushResult s = if en = 0 then s else rs.foldl State.pushResult s := by
  unfold maskResults
  split <;> rfl

/-- Where no byte is enabled, what lands leaves every mask as it is. -/
theorem landResult_maskResult_zero (x : Ctx) (l : Nat) (tv : Bool) (d : MReg) (c : Comb) (v : MWord) :
    landResult x (maskResult l tv d c v 0) = x := by
  have hsame : ∀ old : MWord, (old &&& ~~~0) ||| (combBits c old v &&& 0) = old := fun old => by
    have hones : ~~~(0 : MWord) = BitVec.allOnes 256 := BitVec.not_zero
    rw [hones, BitVec.and_allOnes, show combBits c old v &&& (0 : MWord) = 0 from BitVec.and_zero]
    exact BitVec.or_zero
  rw [landResult_maskResult, toMask, hsame, setM_self]

/-- The results of a mask slot land as they would have, had no byte been enabled. -/
theorem gives_of_maskResults {s : State} {i : Instr} {L : Nat} {en : MWord} {rs : List Result}
    (hexec : exec i s = .next ((maskResults en rs).foldl State.pushResult s)) (hrem : ∀ r ∈ rs, r.rem = L) (hL : 0 < L)
    (hzero : en = 0 → ∀ r ∈ rs, ∀ x, landResult x r = x) : Gives s i L (rs.foldl landResult) := by
  by_cases hen : en = 0
  · have hland : rs.foldl landResult = (maskResults en rs).foldl landResult := funext fun x => by
      rw [maskResults, if_pos hen]
      have hkeep : ∀ qs : List Result, (∀ r ∈ qs, ∀ x, landResult x r = x) → qs.foldl landResult x = x := fun qs => by
        induction qs with
        | nil => exact fun _ => rfl
        | cons q qs ih =>
          intro h
          rw [List.foldl_cons, h q List.mem_cons_self, ih fun r hr => h r (List.mem_cons_of_mem _ hr)]
      exact hkeep rs (hzero hen)
    rw [hland]
    exact gives_of_pushResults hexec (by rw [maskResults, if_pos hen]; exact fun _ hr => nomatch hr) hL
  · rw [maskResults, if_neg hen] at hexec
    exact gives_of_pushResults hexec hrem hL

/-! ### Compares (R208) -/

/-- The results of a compare by its combine. -/
def compareResults (tv : Bool) (n : MReg) (c : BitVec 2) (v en : MWord) : List Result :=
  match c.toNat with
  | 0 => [maskResult 2 tv n .plain v en]
  | 1 => [maskResult 2 tv n .plain v en, maskResult 2 tv (n ^^^ 1) .plain (~~~v) en]
  | 2 => [maskResult 2 tv n .and v en]
  | _ => [maskResult 2 tv n .or v en]

theorem combine_cases (c : BitVec 2) : c = 0 ∨ c = 1 ∨ c = 2 ∨ c = 3 := by
  revert c
  decide

theorem writeMasks_eq (tv : Bool) (n : MReg) (c : BitVec 2) (v en : MWord) (s : State) :
    writeMasks tv n c v en s = (maskResults en (compareResults tv n c v en)).foldl State.pushResult s := by
  have hwrite : ∀ (s : State) d cb w, s.writeM 2 tv d cb w en = if en = 0 then s else s.pushResult (maskResult 2 tv d cb w en) :=
    fun _ _ _ _ => rfl
  rw [foldl_maskResults]
  rcases combine_cases c with rfl | rfl | rfl | rfl
  · exact hwrite s n .plain v
  · show (s.writeM 2 tv n .plain v en).writeM 2 tv (n ^^^ 1) .plain (~~~v) en = _
    rw [hwrite, hwrite]
    split <;> rfl
  · exact hwrite s n .and v
  · exact hwrite s n .or v

theorem mem_compareResults {tv : Bool} {n : MReg} {c : BitVec 2} {v en : MWord} {r : Result} (h : r ∈ compareResults tv n c v en) :
    ∃ d cb w, r = maskResult 2 tv d cb w en := by
  rcases combine_cases c with rfl | rfl | rfl | rfl
  · exact ⟨_, _, _, List.mem_singleton.1 h⟩
  · rcases List.mem_cons.1 h with h | h
    · exact ⟨_, _, _, h⟩
    · exact ⟨_, _, _, List.mem_singleton.1 h⟩
  · exact ⟨_, _, _, List.mem_singleton.1 h⟩
  · exact ⟨_, _, _, List.mem_singleton.1 h⟩

section
variable {bytes : Nat} (hb : 0 < bytes) (hd : bytes ∣ 256)
include hb hd

/-- What lands of one result of a compare whose test is `test`. -/
theorem landResult_compare (x : Ctx) (tv : Bool) (n : MReg) (cb : Comb) (k v : MWord) (test : Nat → Bool) (f : Bool → Bool → Bool)
    (hv : ∀ old : MWord, ∀ j < 256, (combBits cb old v).getLsbD j = f (old.getLsbD j) (test (j / bytes))) :
    landResult x (maskResult 2 tv n cb v (enables k bytes)) = toMask n (mergedMask bytes k test f) x := by
  rw [landResult_maskResult, toMask, mergedMask_eq hb hd k test f (x.m n) _ (hv _), toMask]

theorem foldl_compareResults (tv : Bool) (n : MReg) (c : BitVec 2) (k : MWord) (test : Nat → Bool) :
    (compareResults tv n c (maskOf bytes test) (enables k bytes)).foldl landResult = compared n c bytes k test := by
  funext x
  have hbit : ∀ j < 256, (maskOf bytes test).getLsbD j = test (j / bytes) := fun j hj => maskOf_getLsbD hb hd test hj
  rcases combine_cases c with rfl | rfl | rfl | rfl
  · exact landResult_compare hb hd x tv n .plain k (maskOf bytes test) test (fun _ v => v) fun _ j hj => hbit j hj
  · show landResult (landResult x (maskResult 2 tv n .plain (maskOf bytes test) (enables k bytes)))
      (maskResult 2 tv (n ^^^ 1) .plain (~~~maskOf bytes test) (enables k bytes)) = compared n 1 bytes k test x
    rw [landResult_compare hb hd x tv n .plain k (maskOf bytes test) test (fun _ v => v) fun _ j hj => hbit j hj]
    refine landResult_compare hb hd _ tv (n ^^^ 1) .plain k (~~~maskOf bytes test) test (fun _ v => !v) fun _ j hj => ?_
    rw [combBits, BitVec.getLsbD_not, decide_eq_true hj, Bool.true_and, hbit j hj]
  · exact landResult_compare hb hd x tv n .and k (maskOf bytes test) test (fun o v => o && v) fun _ j hj => by
      rw [combBits, BitVec.getLsbD_and, hbit j hj]
  · exact landResult_compare hb hd x tv n .or k (maskOf bytes test) test (fun o v => o || v) fun _ j hj => by
      rw [combBits, BitVec.getLsbD_or, hbit j hj]
end

section
variable {s : State} {i : Instr} {k : MReg} {u tv : Bool} {n : MReg} {c : BitVec 2} {a b : VSrc} {t : ElemT}

theorem gives_vcompare {f : Nat → Nat → Bool} (hexec : exec i s = vcompare f k u tv n c a b t s) :
    Gives s i (lat 2 tv) (compared n c t.bytes (s.ctx.m k) fun e =>
      f (elemAt (s.ctx.vsrc t.bytes a) t.bytes e) (elemAt (s.ctx.vsrc t.bytes b) t.bytes e)) := by
  rw [vcompare, writeMasks_eq] at hexec
  have h := gives_of_maskResults hexec (L := lat 2 tv) (fun r hr => ?_) (lat_pos tv (by decide)) fun hzero r hr x => ?_
  · rwa [foldl_compareResults (bytes_pos t) (bytes_dvd t)] at h
  · obtain ⟨d, cb, w, rfl⟩ := mem_compareResults hr
    rfl
  · obtain ⟨d, cb, w, rfl⟩ := mem_compareResults hr
    rw [hzero, landResult_maskResult_zero]

theorem exec_of_mem_vcmpRows (s : State) (k : MReg) (u tv : Bool) (n : MReg) (c : BitVec 2) (a b : VSrc) (t : ElemT) :
    ∀ r ∈ vcmpRows, exec (r.1 k u tv n c a b t) s = vcompare (r.2 (8 * t.bytes)) k u tv n c a b t s := by
  simp only [vcmpRows, List.forall_mem_cons]
  exact ⟨exec_vcmpeq k u tv n c a b t s, exec_vcmpne k u tv n c a b t s, exec_vcmplt k u tv n c a b t s,
    exec_vcmple k u tv n c a b t s, exec_vcmpltn k u tv n c a b t s, exec_vcmplen k u tv n c a b t s, List.forall_mem_nil _⟩

theorem exec_of_mem_vfcmpRows (s : State) (k : MReg) (u tv : Bool) (n : MReg) (c : BitVec 2) (a b : VSrc) (t : ElemT) :
    ∀ r ∈ vfcmpRows, exec (r.1 k u tv n c a b t) s = vfcompare r.2 k u tv n c a b t s := by
  simp only [vfcmpRows, List.forall_mem_cons]
  exact ⟨exec_vfcmpeq k u tv n c a b t s, exec_vfcmplt k u tv n c a b t s, exec_vfcmple k u tv n c a b t s,
    exec_vfcmpun k u tv n c a b t s, List.forall_mem_nil _⟩
end

theorem vectorCompare : VectorCompare := by
  intro s k u tv n c a b t
  exact ⟨fun r hr => gives_vcompare (f := r.2 (8 * t.bytes)) (exec_of_mem_vcmpRows s k u tv n c a b t r hr),
    fun r hr => gives_vcompare (f := fun x y => r.2 (decodeNum (numFmt t) x) (decodeNum (numFmt t) y))
      (exec_of_mem_vfcmpRows s k u tv n c a b t r hr)⟩

/-! ### Mask operations (R209) -/

/-- A mask operation writes its whole destination. -/
theorem gives_maskOut {s : State} {i : Instr} {tv : Bool} {d : MReg} {v : MWord} (hexec : exec i s = .next (s.maskOut tv d v)) :
    Gives s i (lat 1 tv) (toMask d fun _ => v) := by
  have hones : BitVec.allOnes 256 ≠ 0 := by decide
  have hland : [maskResult 1 tv d .plain v (BitVec.allOnes 256)].foldl landResult = toMask d fun _ => v := funext fun x => by
    rw [List.foldl_cons, List.foldl_nil, landResult_maskResult, toMask, toMask, combBits, BitVec.not_allOnes, BitVec.and_allOnes]
    exact congrArg (x.setM d) (by rw [show x.m d &&& (0#256) = 0#256 from BitVec.and_zero, BitVec.zero_or])
  have hexec' : exec i s = .next ([maskResult 1 tv d .plain v (BitVec.allOnes 256)].foldl State.pushResult s) :=
    hexec.trans (by rw [State.maskOut, State.writeM, if_neg hones]; rfl)
  have h := gives_of_pushResults hexec' (L := lat 1 tv) (List.forall_mem_singleton.2 rfl) (lat_pos tv Nat.one_pos)
  exact hland ▸ h

/-- A count goes to a scalar register alone. -/
theorem gives_count {s : State} {i : Instr} {l : Nat} {tv : Bool} {d : SReg} {v : Word} (hl : 0 < l)
    (hexec : exec i s = .next (s.writeS l 0 ⟨false, tv⟩ d v)) : Gives s i (lat l tv) (toReg d v) :=
  gives_of_pushResult hexec rfl (lat_pos tv hl) (landResult_scalarResult · l 0 ⟨false, tv⟩ d _)

theorem maskOps : MaskOps := by
  intro s u tv d a b k sd v t
  refine ⟨gives_maskOut (exec_mand u tv d a b s), gives_maskOut (exec_mor u tv d a b s), gives_maskOut (exec_mxor u tv d a b s),
    gives_maskOut (exec_mandn u tv d a b s), gives_maskOut (exec_mnot u tv d a s), ?_, ?_,
    gives_count Nat.one_pos (exec_mpop k u tv sd a t s), gives_count Nat.one_pos (exec_mfirst k u tv sd a t s)⟩
  · rw [maskFrom_eq (bytes_pos t) (bytes_dvd t)]
    exact gives_maskOut (exec_mfroms u tv d v t s)
  · rw [maskFrom_eq (bytes_pos t) (bytes_dvd t)]
    exact gives_maskOut (exec_mlanes u tv d v t s)

/-- Settles O30: masks by what their results merge as they land. -/
theorem masksAndCompares : Obligations.MasksAndCompares := by
  unfold Obligations.MasksAndCompares
  exact ⟨vectorCompare, maskOps⟩

end Sys2Proof.Machine

/-! PROOFS. Permutes and moves of vectors (R210, R212). -/
namespace Sys2Proof.Machine

open Sys2Proof.Say

/-! ### Elements picked -/

theorem map_range_getD (f : Nat → Nat) {n e : Nat} (he : e < n) : ((List.range n).map f).getD e 0 = f e := by
  rw [List.getD_eq_getElem?_getD, List.getElem?_map, List.getElem?_range he]
  rfl

theorem elems_getD_of_ge {v : VWord} {bytes e : Nat} (he : 256 / bytes ≤ e) : (elems v bytes).getD e 0 = 0 := by
  rw [List.getD_eq_getElem?_getD, List.getElem?_eq_none (by rw [length_elems]; exact he)]
  rfl

/-- The number of elements of a type is even, and not 0. -/
theorem elemCount_even (t : ElemT) : 2 ∣ 256 / t.bytes ∧ 0 < 256 / t.bytes := by cases t <;> decide

theorem countBelow_le (act : Nat → Bool) (e : Nat) : countBelow act e ≤ e :=
  (List.length_filter_le _ _).trans_eq List.length_range

section
variable {s : State} {i : Instr} {l : Nat} {k : MReg} {u : Bool} {m : Mods} {d : VReg} {a b : VSrc} {t : ElemT}

/-- A slot that packs element e as f e. -/
theorem vecGives_range {f new : Nat → Nat} (hexec : exec i s = .next (s.vout l u m d t.bytes k ((List.range (256 / t.bytes)).map f)))
    (hl : 0 < l) (hf : ∀ e < 256 / t.bytes, f e % 2 ^ (8 * t.bytes) = new e % 2 ^ (8 * t.bytes)) :
    VecGives s i l u m d t.bytes k allOn new nothingElse :=
  vecGives_of_vout hexec hl (bytes_pos t) (bytes_dvd t) fun e he _ => by rw [map_range_getD f he, hf e he]

theorem vecGives_vpick {f : List Nat → Nat → Nat} {new : Nat → Nat} (hexec : exec i s = vpick f k u m d a t s)
    (hf : ∀ e < 256 / t.bytes, f (elems (s.ctx.vsrc t.bytes a) t.bytes) e = new e) :
    VecGives s i 3 u m d t.bytes k allOn new nothingElse := by
  refine vecGives_range (f := f (elems (s.ctx.vsrc t.bytes a) t.bytes)) ?_ (by decide) fun e he => by rw [hf e he]
  rw [hexec, vpick, length_elems]

theorem vecGives_vpick2 {f : List Nat → List Nat → Nat → Nat} {new : Nat → Nat} (hexec : exec i s = vpick2 f k u m d a b t s)
    (hf : ∀ e < 256 / t.bytes, f (elems (s.ctx.vsrc t.bytes a) t.bytes) (elems (s.ctx.vsrc t.bytes b) t.bytes) e = new e) :
    VecGives s i 3 u m d t.bytes k allOn new nothingElse :=
  vecGives_vpick (f := fun xs e => f xs (elems (s.ctx.vsrc t.bytes b) t.bytes) e) hexec hf
end

/-- Every permute by the element that it picks. -/
theorem vecGives_pickRows (s : State) (k : MReg) (u : Bool) (m : Mods) (d : VReg) (a b : VSrc) (t : ElemT) : ∀ r ∈ pickRows,
    VecGives s (r.1 k u m d a b t) 3 u m d t.bytes k allOn
      (fun e => r.2 (256 / t.bytes) (elemAt (s.ctx.vsrc t.bytes a) t.bytes) (elemAt (s.ctx.vsrc t.bytes b) t.bytes)
        (active (s.ctx.m k) t.bytes) (s.ctx.vsrcScalar b).toNat e) nothingElse := by
  have hx : ∀ e < 256 / t.bytes, (elems (s.ctx.vsrc t.bytes a) t.bytes).getD e 0 = elemAt (s.ctx.vsrc t.bytes a) t.bytes e :=
    fun e he => elems_getD _ _ e 0 he
  have hy : ∀ e < 256 / t.bytes, (elems (s.ctx.vsrc t.bytes b) t.bytes).getD e 0 = elemAt (s.ctx.vsrc t.bytes b) t.bytes e :=
    fun e he => elems_getD _ _ e 0 he
  have hbeyond : ∀ e, 256 / t.bytes ≤ e → (elems (s.ctx.vsrc t.bytes a) t.bytes).getD e 0 = 0 := fun e he => elems_getD_of_ge he
  have hlen := length_elems (s.ctx.vsrc t.bytes a) t.bytes
  obtain ⟨heven, hpos⟩ := elemCount_even t
  simp only [pickRows, List.forall_mem_cons]
  generalize hn : 256 / t.bytes = n at *
  refine ⟨?_, ?_, ?_, ?_, ?_, ?_, ?_, ?_, ?_, ?_, List.forall_mem_nil _⟩
  · refine vecGives_vpick2 (f := fun xs is e => xs.getD (is.getD e 0 % xs.length) 0) (exec_vperm k u m d a b t s) fun e he => ?_
    rw [hlen, hy e (hn ▸ he), hx _ (Nat.mod_lt _ hpos)]
  · refine vecGives_vpick (f := fun xs _ => xs.getD ((s.ctx.vsrcScalar b).toNat % xs.length) 0) (exec_vbcast k u m d a b t s) fun e he => ?_
    rw [hlen, hx _ (Nat.mod_lt _ hpos)]
  · refine vecGives_vpick (f := fun xs e => xs.getD (e + min (s.ctx.vsrcScalar b).toNat xs.length) 0)
      (exec_vslidedn k u m d a b t s) fun e he => ?_
    rw [hlen]
    split
    · rw [Nat.min_eq_left (by omega), hx _ (by omega)]
    · exact hbeyond _ (by omega)
  · refine vecGives_vpick2 (f := fun xs ys e => if e % 2 = 0 then xs.getD (e / 2) 0 else ys.getD (e / 2) 0)
      (exec_vzipl k u m d a b t s) fun e he => ?_
    rw [hx _ (by omega), hy _ (by omega)]
  · refine vecGives_vpick2 (f := fun xs ys e => (if e % 2 = 0 then xs else ys).getD (xs.length / 2 + e / 2) 0)
      (exec_vziph k u m d a b t s) fun e he => ?_
    rw [hlen]
    split
    · exact hx _ (by omega)
    · exact hy _ (by omega)
  · refine vecGives_vpick2 (f := fun xs ys e => if e < xs.length / 2 then xs.getD (2 * e) 0 else ys.getD (2 * (e - xs.length / 2)) 0)
      (exec_vunzipe k u m d a b t s) fun e he => ?_
    rw [hlen]
    split
    · exact hx _ (by omega)
    · exact hy _ (by omega)
  · refine vecGives_vpick2
      (f := fun xs ys e => if e < xs.length / 2 then xs.getD (2 * e + 1) 0 else ys.getD (2 * (e - xs.length / 2) + 1) 0)
      (exec_vunzipo k u m d a b t s) fun e he => ?_
    rw [hlen]
    split
    · exact hx _ (by omega)
    · exact hy _ (by omega)
  · refine vecGives_vpick (f := fun xs e => xs.getD (countBelow (active (s.ctx.m k) t.bytes) e) 0) (exec_vexpand k u m d a t s)
      fun e he => ?_
    exact hx _ ((countBelow_le _ e).trans_lt (hn ▸ he))
  · refine vecGives_vpick (f := fun xs e => xs.getD (xs.length - 1 - e) 0) (exec_vrev k u m d a t s) fun e he => ?_
    rw [hlen, hx _ (by omega)]
  · exact vecGives_range (f := countBelow (active (s.ctx.m k) t.bytes)) (exec_viota k u m d t s) (by decide) fun e he => rfl

/-! ### Results of fewer elements, and results with a scalar -/

section
variable {s : State} {i : Instr} {l : Nat} {k : MReg} {u : Bool} {m : Mods} {d : VReg} {bytes : Nat} {on : Nat → Bool}
  {f new : Nat → Nat}

/-- A slot that writes only some of the active elements. -/
theorem vecGives_voutSome (hexec : exec i s = .next (s.voutSome l u m d bytes k ((List.range (256 / bytes)).map f) on)) (hl : 0 < l)
    (hb : 0 < bytes) (hd : bytes ∣ 256)
    (hf : ∀ e < 256 / bytes, on e = true → f e % 2 ^ (8 * bytes) = new e % 2 ^ (8 * bytes)) :
    VecGives s i l u m d bytes k on new nothingElse :=
  vecGives_of_pushUnder (a := 0) (v := packElems bytes ((List.range (256 / bytes)).map f))
    (en := enables (s.ctx.m k) bytes &&& maskOf bytes on) hexec hl hb hd
    (fun j hj => by rw [BitVec.getLsbD_and, enables_getLsbD hb hd _ hj, maskOf_getLsbD hb hd _ hj])
    (fun e he _ hon => by rw [elemAt_packElems _ _ _ hb he, map_range_getD f he, hf e he hon]) fun _ _ => rfl

/-- A vector result with a scalar: both land together. -/
theorem landResult_withScalar (x : Ctx) (l : Nat) (u : Bool) (m : Mods) (d : VReg) (v : VWord) (r : SReg) (w : Word) (n cls pos : Nat)
    (chk : Bool) :
    landResult x { vectorResult l u m d v (BitVec.allOnes 256) with sec := some (r, w), rem := n, cls := cls, pos := pos, chk := chk } =
      toVector u m d v (toReg r w x) := by
  have h := landResult_vectorResult (x.setS r w) l u m d v (BitVec.allOnes 256) 0 n cls pos chk
  rw [mergeBytes_full] at h
  exact h

theorem gives_withScalar {v : VWord} {r : SReg} {w : Word} (hl : 0 < l)
    (hexec : exec i s = .next (s.pushResult { vectorResult l u m d v (BitVec.allOnes 256) with sec := some (r, w) })) :
    Gives s i (lat l m.tv) fun x => toVector u m d v (toReg r w x) :=
  gives_of_pushResult hexec rfl (lat_pos m.tv hl) (landResult_withScalar · l u m d v r w)

/-- A slot that writes its whole destination whatever the mask. -/
theorem vecGivesAll_of_voutFull {v : VWord} (hexec : exec i s = .next (s.voutFull l u m d v)) (hl : 0 < l) :
    VecGivesAll s i l u m d v := by
  have hones : BitVec.allOnes 256 ≠ 0 := by decide
  rw [State.voutFull, State.writeV, if_neg hones] at hexec
  refine gives_of_pushResult hexec rfl (lat_pos m.tv hl) fun x n cls pos chk => ?_
  have h := landResult_vectorResult x l u m d v (BitVec.allOnes 256) 0 n cls pos chk
  rw [mergeBytes_full] at h
  exact h
end

theorem vectorPermute : VectorPermute := by
  intro s k u m d a b t
  have hn := (elemCount_even t).2
  refine ⟨vecGives_pickRows s k u m d a b t, ?_, ?_, fun tv sd => gives_count (by decide) (exec_vext u tv sd a b t s),
    fun sd => gives_withScalar (by decide) (exec_vcompress k u m d a sd t s)⟩
  · refine vecGives_voutSome (f := fun _ => (s.ctx.vsrcScalar a).toNat) (exec_vins k u m d a b t s) (by decide) (bytes_pos t)
      (bytes_dvd t) fun e he hon => ?_
    rw [Nat.mod_mod]
  · let n := min (s.ctx.vsrcScalar b).toNat (elemCount t)
    refine vecGives_voutSome (f := fun e => (elems (s.ctx.vsrc t.bytes a) t.bytes).getD (e - n) 0) (exec_vslideup k u m d a b t s)
      (by decide) (bytes_pos t) (bytes_dvd t) fun e he hon => ?_
    rw [elems_getD _ _ _ 0 (Nat.lt_of_le_of_lt (Nat.sub_le e n) he)]
    rfl

/-! ### Moves, and noise (R76) -/

/-- A result of a slot that also uses the bundle's noise word. -/
theorem givesNoisy_of_pushResult {s : State} {i : Instr} {r : Result} {L : Nat} {f : Ctx → Ctx}
    (hexec : exec i s = .next ((usesNoise s).pushResult r)) (hrem : r.rem = L) (hL : 0 < L)
    (hland : ∀ x n cls pos chk, landResult x { r with rem := n, cls := cls, pos := pos, chk := chk } = f x) : GivesNoisy s i L f := by
  have hctx : (usesNoise s).ctx = s.ctx := ctx_modBundle s _
  refine ⟨_, hexec.trans (congrArg Host.Outcome.next ((pushResult_eq (usesNoise s) r).trans (modCtx_const _ _))), ?_⟩
  rw [hctx]
  obtain ⟨hbefore, hafter⟩ := lands_push s.ctx
    [{ r with cls := (usesNoise s).bundle.cls, pos := (usesNoise s).place, chk := (usesNoise s).bundle.chk }]
    (List.forall_mem_singleton.2 hrem) hL
  exact ⟨hbefore, hafter.trans (hland _ _ _ _ _)⟩

section
variable {s : State} {i : Instr} {l : Nat} {k : MReg} {u : Bool} {m : Mods} {d : VReg} {bytes : Nat} {on : Nat → Bool}
  {f new : Nat → Nat} (hb : 0 < bytes) (hd : bytes ∣ 256)
include hb hd

theorem enables_ne_zero (hsome : SomeActive s k bytes) : enables (s.ctx.m k) bytes ≠ 0 :=
  fun h => (enables_eq_zero_iff hb hd _).1 h hsome

theorem enables_eq_zero (hnone : ¬SomeActive s k bytes) : enables (s.ctx.m k) bytes = 0 := (enables_eq_zero_iff hb hd _).2 hnone

/-- A slot that packs element e as f e, with noise. -/
theorem givesNoisy_range (hexec : exec i s = .next ((usesNoise s).vout l u m d bytes k ((List.range (256 / bytes)).map f))) (hl : 0 < l)
    (hsome : SomeActive s k bytes) : GivesNoisy s i (lat l m.tv) fun x => toVector u m d (vecOf bytes fun e =>
      if active (s.ctx.m k) bytes e then f e else elemAt (x.v d) bytes e) x := by
  have hctx : (usesNoise s).ctx = s.ctx := ctx_modBundle s _
  rw [State.vout, State.writeV, hctx, if_neg (enables_ne_zero hb hd hsome)] at hexec
  refine givesNoisy_of_pushResult hexec rfl (lat_pos m.tv hl) fun x n cls pos chk => ?_
  have h := landResult_vector_elements (l := l) (u := u) (m := m) (d := d) (a := 0) (on := allOn) (new := f) (also := nothingElse)
    (mk := s.ctx.m k) hb hd (fun j hj => by rw [enables_getLsbD hb hd _ hj, allOn, Bool.and_true])
    (fun e he _ _ => by rw [elemAt_packElems _ _ _ hb he, map_range_getD f he]) (fun _ _ => rfl) x n cls pos chk
  simp only [allOn, Bool.and_true] at h
  exact h

theorem exec_of_noneActive {es : List Nat} (hexec : exec i s = .next ((usesNoise s).vout l u m d bytes k es))
    (hnone : ¬SomeActive s k bytes) : exec i s = .next (usesNoise s) := by
  have hctx : (usesNoise s).ctx = s.ctx := ctx_modBundle s _
  rw [hexec, State.vout, State.writeV, hctx, if_pos (enables_eq_zero hb hd hnone)]
end

theorem vectorMoves : VectorMoves := by
  intro s k u m d a b t
  have hnoise := exec_vnoise k u m d t s
  exact ⟨vecGivesAll_of_voutFull (exec_vsel k u m d a b t s) (by decide),
    fun imm => vecGives_range (exec_vsplati k u m d imm t s) (by decide) fun _ _ => rfl,
    fun hsome => givesNoisy_range (f := fun e => unitNoise s u e % 2 ^ tbits t) (bytes_pos t) (bytes_dvd t) hnoise (by decide) hsome,
    exec_of_noneActive (bytes_pos t) (bytes_dvd t) hnoise⟩

/-- Settles O31: permutes by the element that each picks, and moves. -/
theorem permutesAndMoves : Obligations.PermutesAndMoves := by
  unfold Obligations.PermutesAndMoves
  exact ⟨vectorPermute, vectorMoves⟩

end Sys2Proof.Machine

/-! PROOFS. Reductions and dot products of vectors (R84, R211, R216). -/
namespace Sys2Proof.Machine

open Sys2Proof.Say

/-! ### The tree over the elements (R84) -/

theorem pairUp_range {α : Type} (f : α → α → α) (m : Nat) (g : Nat → α) :
    pairUp f ((List.range (2 * m)).map g) = (List.range m).map fun e => f (g (2 * e)) (g (2 * e + 1)) := by
  induction m generalizing g with
  | zero => rfl
  | succ m ih =>
    have hlist : (List.range (2 * (m + 1))).map g = g 0 :: g 1 :: (List.range (2 * m)).map fun e => g (e + 2) := by
      rw [Nat.mul_succ, List.range_succ_eq_map, List.range_succ_eq_map]
      simp only [List.map_cons, List.map_map]
      rfl
    rw [hlist, pairUp, ih, List.range_succ_eq_map, List.map_cons, List.map_map]
    rfl

/-- A tree over pairs is the tree one level higher. -/
theorem tree_pairs (f : Nat → Nat → Nat) (x : Nat → Nat) (n e : Nat) :
    tree f (fun e => f (x (2 * e)) (x (2 * e + 1))) n e = tree f x (n + 1) e := by
  induction n generalizing e with
  | zero => rfl
  | succ n ih => exact congrArg₂ f (ih (2 * e)) (ih (2 * e + 1))

theorem treeReduce_range (f : Nat → Nat → Nat) (j n : Nat) (hn : n ≤ j) (x : Nat → Nat) :
    treeReduce f j ((List.range (2 ^ n)).map x) = [tree f x n 0] := by
  induction j generalizing n x with
  | zero =>
    obtain rfl := Nat.le_zero.1 hn
    rfl
  | succ j ih =>
    cases n with
    | zero => exact ih 0 (Nat.zero_le j) x
    | succ n => rw [treeReduce, Nat.pow_succ', pairUp_range, ih n (Nat.le_of_succ_le_succ hn), tree_pairs]

theorem mapIdx_elems (f : Nat → Nat → Nat) (v : VWord) (bytes : Nat) :
    (elems v bytes).mapIdx f = (List.range (256 / bytes)).map fun e => f e (elemAt v bytes e) := by
  refine List.ext_getElem (by simp [elems]) fun e h1 h2 => ?_
  simp [elems]

/-- The number of elements of a type is a power of two of at most 2^8. -/
theorem elemCount_pow (t : ElemT) : ∃ n ≤ 8, 2 ^ n = 256 / t.bytes := by
  refine ⟨Nat.log2 (256 / t.bytes), ?_, ?_⟩ <;> cases t <;> decide

/-! ### Reductions (R211) -/

theorem gives_vreduce {s : State} {i : Instr} {f : Nat → Nat → Nat} {one : Nat} {k : MReg} {u : Bool} {m : Mods} {d : VReg} {a : VSrc}
    {t : ElemT} (hexec : exec i s = vreduce f one k u m d a t s) : ∃ n, 2 ^ n = 256 / t.bytes ∧
      VecGivesAll s i 6 u m d (BitVec.ofNat 2048 (tree f (fun e =>
        if active (s.ctx.m k) t.bytes e then elemAt (s.ctx.vsrc t.bytes a) t.bytes e else one) n 0)) := by
  obtain ⟨n, hle, hn⟩ := elemCount_pow t
  refine ⟨n, hn, vecGivesAll_of_voutFull ?_ (by decide)⟩
  rw [hexec, vreduce, mapIdx_elems, ← hn, treeReduce_range f 8 n hle]
  rfl

theorem vectorReduce : VectorReduce := by
  unfold VectorReduce
  simp only [reduceRows, List.forall_mem_cons]
  exact ⟨fun s k u m d a t => gives_vreduce (exec_vredadd k u m d a t s), fun s k u m d a t => gives_vreduce (exec_vredmin k u m d a t s),
    fun s k u m d a t => gives_vreduce (exec_vredmax k u m d a t s), fun s k u m d a t => gives_vreduce (exec_vredminn k u m d a t s),
    fun s k u m d a t => gives_vreduce (exec_vredmaxn k u m d a t s), fun s k u m d a t => gives_vreduce (exec_vfredadd k u m d a t s),
    fun s k u m d a t => gives_vreduce (exec_vfredmin k u m d a t s), fun s k u m d a t => gives_vreduce (exec_vfredmax k u m d a t s),
    List.forall_mem_nil _⟩

/-! ### Dot products (R216) -/

theorem vecGives_vdot {s : State} {i : Instr} {bytes : Nat} {f : Nat → List (Nat × Nat) → Nat} {k : MReg} {u : Bool} {m : Mods} {d : VReg}
    {a b : VSrc} {new : Nat → Nat} (hexec : exec i s = vdot bytes f k u m d a b s)
    (hf : ∀ e, f (elemAt (s.ctx.v d) 4 e) (dotPairs (s.ctx.vsrc bytes a) (s.ctx.vsrc bytes b) bytes (4 / bytes) e) = new e) :
    VecGives s i 4 u m d 4 k allOn new nothingElse := by
  rw [vdot, mapIdx_elems] at hexec
  refine vecGives_of_vout hexec (by decide) (by decide) (by decide) fun e he _ => ?_
  rw [map_range_getD _ he, hf e]

/-- An integer dot product adds its products one by one. -/
theorem dotInt_dotPairs (g : Nat → Int) (va vb : VWord) (e o : Nat) :
    dotInt g o (dotPairs va vb 1 4 e) = dotS va vb 1 4 e g o := by
  rw [dotInt, dotPairs, List.foldl_map]
  rfl

theorem dotFloat_dotPairs (f : NFmt) (r : RMode) (va vb : VWord) (e o : Nat) :
    dotFloat f r o (dotPairs va vb 2 2 e) = dotF va vb e f r o := by
  rw [dotFloat, dotPairs, List.map_map]
  rfl

theorem vectorDot : VectorDot := by
  intro s k u m d a b
  exact ⟨vecGives_vdot (exec_vdot4 k u m d a b s) fun e => dotInt_dotPairs (sint 8) _ _ e _,
    vecGives_vdot (exec_vdot4n k u m d a b s) fun e => dotInt_dotPairs Int.ofNat _ _ e _,
    vecGives_vdot (exec_vdot2 k u m d a b s) fun e => dotFloat_dotPairs .bf16 _ _ _ e _,
    vecGives_vdot (exec_vdot2h k u m d a b s) fun e => dotFloat_dotPairs .f16 _ _ _ e _⟩

/-- Settles O32: reductions by levels of the tree, dot products by element. -/
theorem vectorFolds : Obligations.VectorFolds := by
  unfold Obligations.VectorFolds
  exact ⟨vectorReduce, vectorDot⟩

end Sys2Proof.Machine

/-! PROOFS. Conversions and quantisers of vectors (R213 to R215). -/
namespace Sys2Proof.Machine

open Sys2Proof.Say

theorem ctx_usesNoise (s : State) : (usesNoise s).ctx = s.ctx := ctx_modBundle s _

/-! ### Conversions by parts (R213) -/

section
variable (r : RMode) (nz : Nat → Nat) (k : MReg) (u : Bool) (m : Mods) (d : VReg) (a : VSrc) (p : BitVec 2) (t e : ElemT) (s : State)

/-- The elements that a conversion packs, and the bytes that it enables: a narrowing one only those of its part. -/
def convertedElems : VWord :=
  let n := 256 / max t.bytes e.bytes
  let x := s.ctx.vsrc t.bytes a
  packElems e.bytes (if e.bytes < t.bytes then
    (List.range (256 / e.bytes)).map fun j => cvtElem t e r (nz j) (elemAt x t.bytes (j - p.toNat * n))
    else (List.range n).map fun j => cvtElem t e r (nz j) (elemAt x t.bytes (p.toNat * n + j)))
def inPart (j : Nat) : Bool :=
  let n := 256 / max t.bytes e.bytes
  !decide (e.bytes < t.bytes) || (decide (p.toNat * n ≤ j) && decide (j < p.toNat * n + n))
def convertedEnables : MWord :=
  let en := enables (s.ctx.m k) e.bytes
  if e.bytes < t.bytes then en &&& maskOf e.bytes (inPart p t e) else en

theorem convert_eq : convert r nz k u m d a p t e s = s.pushUnder (enables (s.ctx.m k) e.bytes)
    (vectorResult 4 u m d (convertedElems r nz a p t e s) (convertedEnables k p t e s)) := by
  unfold convert convertedElems convertedEnables
  by_cases h : e.bytes < t.bytes
  · have hpart : inPart p t e = fun j => decide (p.toNat * (256 / max t.bytes e.bytes) ≤ j) &&
        decide (j < p.toNat * (256 / max t.bytes e.bytes) + 256 / max t.bytes e.bytes) := funext fun j => by
      rw [inPart, decide_eq_true h, Bool.not_true, Bool.false_or]
    simp only [if_pos h, hpart]
    rfl
  · simp only [if_neg h]
    rfl

theorem convertedEnables_getLsbD {j : Nat} (hj : j < 256) :
    (convertedEnables k p t e s).getLsbD j = (active (s.ctx.m k) e.bytes (j / e.bytes) && inPart p t e (j / e.bytes)) := by
  have hen := enables_getLsbD (bytes_pos e) (bytes_dvd e) (s.ctx.m k) hj
  unfold convertedEnables
  by_cases h : e.bytes < t.bytes
  · rw [if_pos h, BitVec.getLsbD_and, hen, maskOf_getLsbD (bytes_pos e) (bytes_dvd e) _ hj]
  · rw [if_neg h, hen, inPart, decide_eq_false h, Bool.not_false, Bool.true_or, Bool.and_true]

/-- Element j of what a conversion gives. -/
def convertedElem (j : Nat) : Nat :=
  let n := 256 / max t.bytes e.bytes
  let src := elemAt (s.ctx.vsrc t.bytes a) t.bytes
  if e.bytes < t.bytes then converted t e r (nz j) (src (j - p.toNat * n)) else converted t e r (nz j) (src (p.toNat * n + j))

theorem elemAt_convertedElems {j : Nat} (hj : j < 256 / e.bytes) :
    elemAt (convertedElems r nz a p t e s) e.bytes j = convertedElem r nz a p t e s j % 2 ^ (8 * e.bytes) := by
  unfold convertedElems convertedElem
  rw [elemAt_packElems _ _ _ (bytes_pos e) hj]
  by_cases h : e.bytes < t.bytes
  · simp only [if_pos h, map_range_getD _ hj]
    rfl
  · have hn : 256 / max t.bytes e.bytes = 256 / e.bytes := by rw [Nat.max_eq_right (Nat.le_of_not_lt h)]
    simp only [if_neg h, hn, map_range_getD _ hj]
    rfl

theorem convertsTo_eq (x : Ctx) : ConvertsTo s k p a t e r nz u m d x = toVector u m d (vecOf e.bytes fun j =>
    if active (s.ctx.m k) e.bytes j && inPart p t e j then convertedElem r nz a p t e s j else elemAt (x.v d) e.bytes j) x := by
  unfold ConvertsTo convertedElem inPart
  by_cases h : e.bytes < t.bytes
  · simp only [if_pos h, decide_eq_true h, Bool.not_true, Bool.false_or, Bool.and_assoc]
  · simp only [if_neg h, decide_eq_false h, Bool.not_false, Bool.true_or, Bool.and_true]

theorem landResult_converted (x : Ctx) (n cls pos : Nat) (chk : Bool) :
    landResult x { vectorResult 4 u m d (convertedElems r nz a p t e s) (convertedEnables k p t e s) with
      rem := n, cls := cls, pos := pos, chk := chk } = ConvertsTo s k p a t e r nz u m d x := by
  rw [convertsTo_eq]
  exact landResult_vector_elements (l := 4) (a := 0) (also := nothingElse) (bytes_pos e) (bytes_dvd e)
    (fun j hj => convertedEnables_getLsbD k p t e s hj) (fun j hj _ _ => elemAt_convertedElems r nz a p t e s hj) (fun _ _ => rfl)
    x n cls pos chk
end

section
variable {s : State} {i : Instr} {r : RMode} {nz : Nat → Nat} {k : MReg} {u : Bool} {m : Mods} {d : VReg} {a : VSrc} {p : BitVec 2}
  {t e : ElemT}

theorem gives_convert (hexec : exec i s = .next (convert r nz k u m d a p t e s)) (hsome : SomeActive s k e.bytes) :
    Gives s i (lat 4 m.tv) (ConvertsTo s k p a t e r nz u m d) := by
  rw [convert_eq, State.pushUnder, if_neg (enables_ne_zero (bytes_pos e) (bytes_dvd e) hsome)] at hexec
  exact gives_of_pushResult hexec rfl (lat_pos m.tv (by decide)) (landResult_converted r nz k u m d a p t e s)

theorem givesNoisy_convert (hexec : exec i s = .next (convert r nz k u m d a p t e (usesNoise s))) (hsome : SomeActive s k e.bytes) :
    GivesNoisy s i (lat 4 m.tv) (ConvertsTo s k p a t e r nz u m d) := by
  have hsame : ConvertsTo (usesNoise s) k p a t e r nz u m d = ConvertsTo s k p a t e r nz u m d := by
    unfold ConvertsTo
    rw [ctx_usesNoise]
  rw [convert_eq, State.pushUnder, ctx_usesNoise, if_neg (enables_ne_zero (bytes_pos e) (bytes_dvd e) hsome)] at hexec
  rw [← hsame]
  exact givesNoisy_of_pushResult hexec rfl (lat_pos m.tv (by decide)) (landResult_converted r nz k u m d a p t e (usesNoise s))

theorem convert_of_noneActive (h : enables (s.ctx.m k) e.bytes = 0) : convert r nz k u m d a p t e s = s := by
  rw [convert_eq, State.pushUnder, if_pos h]
end

/-! ### Quantisers (R214) -/

section
variable {s : State} {i : Instr} {f : MxFmt} {r : RMode} {nz : Nat → Nat} {k : MReg} {u : Bool} {m : Mods} {d : VReg} {a b : VSrc}
  {sb : BitVec 5}

/-- The scales of the two blocks, and their packed elements. -/
def quantisedScales (f : MxFmt) (r : RMode) (nz : Nat → Nat) (s : State) (k : MReg) (a : VSrc) : Word :=
  BitVec.ofNat 64 ((mxQuant f (blocksOf s k a 1) r fun i => nz (32 + i)).1 * 256 + (mxQuant f (blocksOf s k a 0) r nz).1)
def quantisedVector (f : MxFmt) (r : RMode) (nz : Nat → Nat) (s : State) (k : MReg) (a : VSrc) : VWord :=
  BitVec.ofNat 2048 (mxPack f ((mxQuant f (blocksOf s k a 0) r nz).2 ++ (mxQuant f (blocksOf s k a 1) r fun i => nz (32 + i)).2))

theorem quantise_eq (s : State) : quantise f r nz k u m d a sb s =
    s.pushResult { vectorResult 6 u m d (quantisedVector f r nz s k a) (BitVec.allOnes 256) with
      sec := some (sb.setWidth 6, quantisedScales f r nz s k a) } := by
  have hblock : blocksOf s k a 0 = (List.range 32).map fun i =>
      if active (s.ctx.m k) 4 i then dec32 (elemAt (s.ctx.vsrc 4 a) 4 i) else .fin false 0 0 := by
    simp only [blocksOf, Nat.mul_zero, Nat.zero_add]
  unfold quantisedVector quantisedScales
  rw [hblock]
  rfl

theorem gives_quantise (hexec : exec i s = .next (quantise f r nz k u m d a sb s)) :
    Gives s i (lat 6 m.tv) (quantised f r nz s k u m d a sb) := by
  rw [quantise_eq] at hexec
  exact gives_withScalar (by decide) hexec

theorem givesNoisy_quantise (hexec : exec i s = .next (quantiseSr f k u m d a sb s)) (hsome : SomeActive s k 4) :
    GivesNoisy s i (lat 6 m.tv) (quantised f .sr (noiseFor s u) s k u m d a sb) := by
  have hsame : quantised f .sr (noiseFor s u) (usesNoise s) k u m d a sb = quantised f .sr (noiseFor s u) s k u m d a sb := by
    unfold quantised blocksOf
    rw [ctx_usesNoise]
  rw [quantiseSr, if_neg (enables_ne_zero (by decide) (by decide) hsome), quantise_eq] at hexec
  rw [← hsame]
  exact givesNoisy_of_pushResult hexec rfl (lat_pos m.tv (by decide)) (landResult_withScalar · 6 u m d _ _ _)

theorem exec_quantiseSr_of_noneActive (hexec : exec i s = .next (quantiseSr f k u m d a sb s)) (hnone : ¬SomeActive s k 4) :
    exec i s = .next (usesNoise s) := by
  rw [hexec, quantiseSr, if_pos (enables_eq_zero (by decide) (by decide) hnone)]
  rfl

theorem vecGives_dequantise (hexec : exec i s = .next (dequantise f k u m d a b s)) :
    VecGives s i 6 u m d 4 k allOn (fun j =>
      enc32 .rne (mxDecode f (mxElem f (s.ctx.vsrc 4 a).toNat j) ((s.ctx.vsrcScalar b).toNat / 256 ^ (j / 32) % 256))) nothingElse :=
  vecGives_of_vout hexec (by decide) (by decide) (by decide) fun e he _ => by rw [map_range_getD _ he]
end

section
variable (s : State) (k : MReg) (u : Bool) (m : Mods) (d : VReg) (a b : VSrc) (sb : BitVec 5)

theorem exec_of_mem_quantisers : ∀ r ∈ ([(.vqmx8, .vqmx8sr, .mx8), (.vqmx6, .vqmx6sr, .mx6), (.vqmx4, .vqmx4sr, .mx4)] :
      List ((MReg → Bool → Mods → VReg → VSrc → BitVec 5 → Instr) × (MReg → Bool → Mods → VReg → VSrc → BitVec 5 → Instr) × MxFmt)),
    exec (r.1 k u m d a sb) s = .next (quantise r.2.2 s.ctx.rm (fun _ => 0) k u m d a sb s) ∧
      exec (r.2.1 k u m d a sb) s = .next (quantiseSr r.2.2 k u m d a sb s) := by
  simp only [List.forall_mem_cons]
  exact ⟨⟨exec_vqmx8 k u m d a sb s, exec_vqmx8sr k u m d a sb s⟩, ⟨exec_vqmx6 k u m d a sb s, exec_vqmx6sr k u m d a sb s⟩,
    ⟨exec_vqmx4 k u m d a sb s, exec_vqmx4sr k u m d a sb s⟩, List.forall_mem_nil _⟩

theorem exec_of_mem_dequantisers : ∀ r ∈ ([(.vdqmx8, .mx8), (.vdqmx6, .mx6), (.vdqmx4, .mx4)] :
      List ((MReg → Bool → Mods → VReg → VSrc → VSrc → Instr) × MxFmt)),
    exec (r.1 k u m d a b) s = .next (dequantise r.2 k u m d a b s) := by
  simp only [List.forall_mem_cons]
  exact ⟨exec_vdqmx8 k u m d a b s, exec_vdqmx6 k u m d a b s, exec_vdqmx4 k u m d a b s, List.forall_mem_nil _⟩
end

/-- Settles O33: conversions by the part that they fill or read, and the quantisers with their scales. -/
theorem vectorConvert : Obligations.VectorConvert := by
  unfold Obligations.VectorConvert
  intro s k u m d a b sb p t e
  have hzero := fun h => enables_eq_zero (s := s) (k := k) (bytes_pos e) (bytes_dvd e) h
  refine ⟨fun hsome => ⟨gives_convert (exec_vcvt k u m d a p t e s) hsome, givesNoisy_convert (exec_vcvtsr k u m d a p t e s) hsome⟩,
    fun hnone => ⟨?_, ?_⟩, fun r hr => ?_, fun r hr => vecGives_dequantise (exec_of_mem_dequantisers s k u m d a b r hr)⟩
  · rw [exec_vcvt, execVcvt, convert_of_noneActive (hzero hnone)]
  · have hsame : s.popShared.ctx = s.ctx := ctx_modBundle s _
    have hkeep := convert_of_noneActive (s := s.popShared) (r := .sr) (nz := unitNoise s u) (u := u) (m := m) (d := d) (a := a) (p := p)
      (t := t) (e := e) (k := k) (by rw [hsame]; exact hzero hnone)
    rw [exec_vcvtsr, execVcvtsr, hkeep]
    rfl
  · obtain ⟨hexec, hexecSr⟩ := exec_of_mem_quantisers s k u m d a sb r hr
    exact ⟨gives_quantise hexec, givesNoisy_quantise hexecSr, exec_quantiseSr_of_noneActive hexecSr⟩

end Sys2Proof.Machine

/-! PROOFS. Vector loads (R217, R219, R220). -/
namespace Sys2Proof.Machine

open Sys2Proof.Say

/-! ### Bytes at their lanes -/

/-- A vector of bytes at lanes has at each bit the bits of the bytes that lie there. -/
theorem lanesValue_getLsbD (bs : List (Nat × Byte)) (j : Nat) (hj : j < 2048) :
    (lanesValue bs).getLsbD j = bs.any fun b => decide (b.1 = j / 8) && b.2.getLsbD (j % 8) := by
  have hbyte : ∀ b : Nat × Byte, ((b.2.setWidth 2048 : VWord) <<< (8 * b.1)).getLsbD j =
      (decide (b.1 = j / 8) && b.2.getLsbD (j % 8)) := fun b => by
    rw [BitVec.getLsbD_shiftLeft, BitVec.getLsbD_setWidth, decide_eq_true hj, Bool.true_and]
    by_cases hlane : b.1 = j / 8
    · have hge : ¬j < 8 * b.1 := by omega
      have hin : j - 8 * b.1 < 2048 := by omega
      have hbit : j - 8 * b.1 = j % 8 := by omega
      rw [decide_eq_false hge, decide_eq_true hin, hbit, decide_eq_true hlane]
      rfl
    · rw [decide_eq_false hlane, Bool.false_and]
      by_cases hlt : j < 8 * b.1
      · rw [decide_eq_true hlt]
        rfl
      · rw [BitVec.getLsbD_of_ge b.2 _ (by omega), Bool.and_false, Bool.and_false]
  have hfold : ∀ (v : VWord), (bs.foldl (fun (v : VWord) b => v ||| ((b.2.setWidth 2048 : VWord) <<< (8 * b.1))) v).getLsbD j =
      (v.getLsbD j || bs.any fun b => decide (b.1 = j / 8) && b.2.getLsbD (j % 8)) := by
    induction bs with
    | nil => exact fun v => (Bool.or_false _).symm
    | cons b bs ih =>
      intro v
      rw [List.foldl_cons, ih, BitVec.getLsbD_or, hbyte, List.any_cons, Bool.or_assoc]
  rw [lanesValue, hfold]
  simp

theorem packLE_testBit (bs : List Byte) (j : Nat) : (packLE bs).testBit j = (bs.getD (j / 8) 0).getLsbD (j % 8) := by
  induction bs generalizing j with
  | nil => simp [packLE]
  | cons b bs ih =>
    have hcons : packLE (b :: bs) = 2 ^ 8 * packLE bs + b.toNat := by
      rw [packLE, List.foldr_cons, Nat.add_comm]
      rfl
    rw [hcons, Nat.testBit_two_pow_mul_add _ b.isLt]
    by_cases hj : j < 8
    · rw [if_pos hj, Nat.div_eq_of_lt hj, Nat.mod_eq_of_lt hj]
      rfl
    · have hdiv : j / 8 = (j - 8) / 8 + 1 := by omega
      have hmod : j % 8 = (j - 8) % 8 := by omega
      rw [if_neg hj, ih, hdiv, hmod]
      rfl

theorem packLE_lt (bs : List Byte) : packLE bs < 2 ^ (8 * bs.length) := by
  induction bs with
  | nil => exact Nat.one_pos
  | cons b bs ih =>
    have hb := b.isLt
    rw [packLE, List.foldr_cons, ← packLE, List.length_cons, Nat.mul_succ, Nat.pow_add]
    omega

/-- The lanes of elements, of which each byte is given. -/
def elementLanes (bytes : Nat) (es : List Nat) (f : Nat → Nat → Byte) : List (Nat × Byte) :=
  es.flatMap fun e => (List.range bytes).map fun j => (bytes * e + j, f e j)

theorem elemAt_elementLanes {bytes : Nat} (hb : 0 < bytes) {es : List Nat} (f : Nat → Nat → Byte) {e : Nat} (he : e < 256 / bytes)
    (hmem : e ∈ es) : elemAt (lanesValue (elementLanes bytes es f)) bytes e = packLE ((List.range bytes).map (f e)) := by
  refine Nat.eq_of_testBit_eq fun j => ?_
  rw [elemAt_testBit]
  by_cases hj : j < 8 * bytes
  · have hq : j / 8 < bytes := by omega
    have hlane : (8 * bytes * e + j) / 8 = bytes * e + j / 8 := by rw [Nat.mul_assoc, Nat.mul_add_div (by decide)]
    have hbit : (8 * bytes * e + j) % 8 = j % 8 := by rw [Nat.mul_assoc, Nat.mul_add_mod]
    have hlt : 8 * bytes * e + j < 2048 := by
      have h1 : bytes * (e + 1) ≤ 256 := Nat.le_trans (Nat.mul_le_mul_left bytes he) (Nat.mul_div_le 256 bytes)
      rw [Nat.mul_succ] at h1
      rw [Nat.mul_assoc]
      omega
    rw [decide_eq_true hj, Bool.true_and, lanesValue_getLsbD _ _ hlt, hlane, hbit, packLE_testBit, List.getD_eq_getElem?_getD,
      List.getElem?_map, List.getElem?_range hq, Option.map_some, Option.getD_some, Bool.eq_iff_iff, List.any_eq_true]
    constructor
    · rintro ⟨b, hbm, hbit⟩
      obtain ⟨e', -, hb'⟩ := List.mem_flatMap.1 hbm
      obtain ⟨q, hq', rfl⟩ := List.mem_map.1 hb'
      obtain ⟨heq, hval⟩ := Bool.and_eq_true_iff.1 hbit
      have heq := of_decide_eq_true heq
      have hq' := List.mem_range.1 hq'
      have hsame : e' = e := by
        have h := congrArg (· / bytes) heq
        simpa only [Nat.mul_add_div hb, Nat.div_eq_of_lt hq', Nat.div_eq_of_lt hq, Nat.add_zero] using h
      subst hsame
      obtain rfl : q = j / 8 := Nat.add_left_cancel heq
      exact hval
    · intro hval
      refine ⟨(bytes * e + j / 8, f e (j / 8)), List.mem_flatMap.2 ⟨e, hmem, List.mem_map.2 ⟨j / 8, List.mem_range.2 hq, rfl⟩⟩, ?_⟩
      rw [decide_eq_true rfl, Bool.true_and]
      exact hval
  · have hlen : (packLE ((List.range bytes).map (f e))).testBit j = false := by
      refine Nat.testBit_lt_two_pow (Nat.lt_of_lt_of_le (packLE_lt _) (Nat.pow_le_pow_right (by decide) ?_))
      rw [List.length_map, List.length_range]
      omega
    rw [decide_eq_false hj, Bool.false_and, hlen]

/-! ### Where the elements lie (R217) -/

theorem addr_eq_elemVA (b : Word) (md : VMode) (e : Nat) : md.addr b e = elemVA b md e := by
  have hsum : ∀ n, (b + BitVec.ofNat 64 n).setWidth 52 = BitVec.ofNat 52 (b.toNat + n) := fun n => by
    have h : b + BitVec.ofNat 64 n = BitVec.ofNat 64 (b.toNat + n) := by rw [BitVec.ofNat_add, BitVec.ofNat_toNat, BitVec.setWidth_eq]
    rw [h, BitVec.setWidth_ofNat_of_le (by decide)]
  cases md with
  | contig => exact hsum e
  | strided n st =>
    have h : BitVec.ofNat 64 e * st = BitVec.ofNat 64 (e * st.toNat) := by rw [BitVec.ofNat_mul, BitVec.ofNat_toNat, BitVec.setWidth_eq]
    exact (congrArg (fun w : Word => (b + w).setWidth 52) h).trans (hsum _)
  | indexed i => exact hsum _

/-- The active elements with where each lies. -/
def placedElems (s : State) (k : MReg) (base : Src) (md : VMode) (at_ : Nat → Target) : List (Nat × VA × Target) :=
  (elemsOf s k md).map fun e => (e, elemVA (s.ctx.src base) md e, at_ e)

section
variable {s : State} {k : MReg} {base : Src} {md : VMode} {at_ : Nat → Target}

theorem vElems_eq : vElems s.ctx k (s.ctx.src base) md = (elemsOf s k md).map fun e => (e, elemVA (s.ctx.src base) md e) :=
  List.map_congr_left fun e _ => congrArg (Prod.mk e) (addr_eq_elemVA _ md e)

theorem vTargets_eq (h : Reaches s k base md at_) : vTargets s (vElems s.ctx k (s.ctx.src base) md) = placedElems s k base md at_ := by
  rw [vElems_eq, vTargets, List.filterMap_map, placedElems, ← List.filterMap_eq_map]
  refine List.filterMap_congr fun e he => ?_
  simp only [Function.comp, h e he]

theorem vTargets_of_none (h : elemsOf s k md = []) : vTargets s (vElems s.ctx k (s.ctx.src base) md) = [] := by
  rw [vElems_eq, h]
  rfl

/-- Without active elements nothing fails. -/
theorem vCheck_nil (need : Need) (acc : BitVec 4) (bytes : Nat) : vCheck s need acc 0 bytes [] = none := rfl

theorem mem_elemsOf {e : Nat} : e ∈ elemsOf s k md ↔ e < 256 / md.bytes ∧ active (s.ctx.m k) md.bytes e = true := by
  rw [elemsOf, List.mem_filter, List.mem_range]

/-- The bytes that an access reaches, with their lanes. -/
def placedCells (md : VMode) (ts : List (Nat × VA × Target)) : List (Nat × Nat) :=
  ts.flatMap fun t => (List.range md.bytes).map fun j => (t.2.2.key + j, md.bytes * t.1 + j)

theorem placedCells_placedElems : placedCells md (placedElems s k base md at_) =
    (elemsOf s k md).flatMap fun e => (List.range md.bytes).map fun j => ((at_ e).key + j, md.bytes * e + j) := by
  rw [placedCells, placedElems, List.flatMap_map]

/-! ### What a checked load does (R220) -/

section
variable {u : Bool} {d : VReg} (hreach : Reaches s k base md at_) (hsome : elemsOf s k md ≠ [])
include hreach hsome

omit hreach in
theorem placedElems_isEmpty : (placedElems s k base md at_).isEmpty = false :=
  List.isEmpty_eq_false_iff.2 fun h => hsome (List.map_eq_nil_iff.1 h)

omit hreach hsome in
theorem all_near (h : ∀ e ∈ elemsOf s k md, isNear s (at_ e).key = true) :
    ((placedElems s k base md at_).all fun t => isNear s t.2.2.key) = true :=
  List.all_eq_true.2 (List.forall_mem_map.2 h)

omit hreach hsome in
theorem not_all_near (h : ∃ e ∈ elemsOf s k md, isNear s (at_ e).key = false) :
    ((placedElems s k base md at_).all fun t => isNear s t.2.2.key) = false := by
  obtain ⟨e, he, hfar⟩ := h
  exact List.all_eq_false.2 ⟨_, List.mem_map_of_mem he, Bool.eq_false_iff.1 hfar⟩

section
variable (hnear : ∀ e ∈ elemsOf s k md, isNear s (at_ e).key = true)
include hnear

theorem vload_of_near (hclean : ∀ e ∈ elemsOf s k md, Clean s (at_ e).key md.bytes) (hquiet : Quiet s)
    (hpast : (s.fencePrior true).past s s.me = true) :
    vload s k u d base md = s.writeV 6 u ⟨false, false⟩ d (lanesValue (elementLanes md.bytes (elemsOf s k md)
      fun e j => readByte s s.ctx.sid s.me false ((at_ e).key + j))) (enables (s.ctx.m k) md.bytes) := by
  have hpoison : ((linesOf ((placedCells md (placedElems s k base md at_)).map Prod.fst)).any fun l => s.poison.contains l) = false := by
    rw [List.any_eq_false]
    intro l hl
    rw [linesOf, List.mem_eraseDups, List.map_map, placedCells_placedElems, List.mem_map] at hl
    obtain ⟨c, hc, rfl⟩ := hl
    obtain ⟨e, he, hc⟩ := List.mem_flatMap.1 hc
    obtain ⟨j, hj, rfl⟩ := List.mem_map.1 hc
    exact Bool.eq_false_iff.1 (hclean e he j (List.mem_range.1 hj))
  have hlanes : (placedCells md (placedElems s k base md at_)).map (fun y => (y.2, readByte s s.ctx.sid s.me false y.1)) =
      elementLanes md.bytes (elemsOf s k md) fun e j => readByte s s.ctx.sid s.me false ((at_ e).key + j) := by
    rw [placedCells_placedElems, elementLanes, List.map_flatMap]
    refine congrArg (fun f => List.flatMap f (elemsOf s k md)) (funext fun e => ?_)
    rw [List.map_map]
    rfl
  unfold placedCells at hpoison hlanes
  unfold vload
  simp only [vTargets_eq hreach, placedElems_isEmpty hsome, all_near hnear, hpast, fireReads_quiet s hquiet,
    hpoison, hlanes, Bool.false_eq_true, if_false, if_true, Bool.not_true]

theorem vload_of_nearFenced (hpast : (s.fencePrior true).past s s.me = false) : ∃ r : ReadReq,
    vload s k u d base md = sendRead (s.writeV 6 u ⟨false, false⟩ d 0 (enables (s.ctx.m k) md.bytes)) r ∧ r.id = s.nextId ∧
      r.sid = s.ctx.sid ∧ r.status = .sent ∧ r.dest = .exposed s.place ∧ r.cells = placedCells md (placedElems s k base md at_) ∧
      r.prior = .none := by
  unfold vload
  simp only [vTargets_eq hreach, placedElems_isEmpty hsome, all_near hnear, hpast, Bool.false_eq_true,
    if_false, if_true, Bool.not_false]
  exact ⟨_, rfl, rfl, rfl, rfl, rfl, rfl, rfl⟩
end

omit hreach hsome in
/-- Those that go now and those that go later are all, where the latter go now when there are no others. -/
theorem perm_of_filter {α : Type} (p : α → Bool) (l : List α) :
    ((if (l.filter p).isEmpty then l.filter (not ∘ p) else l.filter p) ++
      if (l.filter p).isEmpty then [] else l.filter (not ∘ p)).Perm l := by
  have hperm := List.filter_append_perm p l
  by_cases hempty : (l.filter p).isEmpty = true
  · rw [List.isEmpty_iff.1 hempty] at hperm ⊢
    simpa [Function.comp_def] using hperm
  · rw [if_neg hempty, if_neg hempty]
    exact hperm

/-- A load that is not near reads its elements together, but for those that an acquire holds. -/
theorem vload_of_far (hfar : ∃ e ∈ elemsOf s k md, isNear s (at_ e).key = false) : ∃ (r : ReadReq) (now late : List (Nat × VA × Target)),
    vload s k u d base md = sendRead s r ∧ r.id = s.nextId ∧ r.sid = s.ctx.sid ∧ r.cube = s.me ∧ r.status = .sent ∧
      r.cells = placedCells md now ∧ r.late.1 = placedCells md late ∧ r.dest = .vector d u ∧ r.en = enables (s.ctx.m k) md.bytes ∧
      (now ++ late).Perm (placedElems s k base md at_) ∧ (s.ctx.acqs = [] → now = placedElems s k base md at_) := by
  unfold vload
  simp only [vTargets_eq hreach, placedElems_isEmpty hsome, not_all_near hfar, Bool.false_eq_true, if_false,
    List.partition_eq_filter_filter]
  refine ⟨_, _, _, rfl, rfl, rfl, rfl, rfl, rfl, rfl, rfl, rfl, ?_, fun hacqs => ?_⟩
  · exact perm_of_filter _ _
  · have hfree : ∀ p, heldBy s.ctx p = [] := fun p => by rw [heldBy, hacqs]; rfl
    simp [hfree, placedElems_isEmpty hsome]
end
end

/-- An active element of a near load is the number that its bytes make. -/
theorem elemAt_near {s : State} {k : MReg} {md : VMode} {at_ : Nat → Target} {e : Nat} (hb : 0 < md.bytes) (he : e < 256 / md.bytes)
    (hactive : active (s.ctx.m k) md.bytes e = true) :
    elemAt (lanesValue (elementLanes md.bytes (elemsOf s k md) fun e j => readByte s s.ctx.sid s.me false ((at_ e).key + j))) md.bytes e =
      readNat s (at_ e).key md.bytes % 2 ^ (8 * md.bytes) := by
  have hlt : readNat s (at_ e).key md.bytes < 2 ^ (8 * md.bytes) := (packLE_lt _).trans_eq (by rw [List.length_map, List.length_range])
  rw [elemAt_elementLanes hb _ he (mem_elemsOf.2 ⟨he, hactive⟩), Nat.mod_eq_of_lt hlt, readNat]

/-! ### The obligation -/

section
variable {s : State} {k : MReg} {u : Bool} {d : VReg} {base st : Src} {idx : VSrc}

theorem exec_of_mem_loadForms : ∀ r ∈ loadForms s k u d base st idx, exec r.1 s = vldAny k u d base r.2 s := by
  simp only [loadForms, List.forall_mem_cons]
  exact ⟨exec_vld k u d base s, exec_vldStrided k u d base st s, exec_vldStrided16 k u d base st s, exec_vldGather k u d base idx s,
    List.forall_mem_nil _⟩

/-- Elements of a vector access have 1, 2 or 4 bytes. -/
theorem bytes_of_mem_loadForms : ∀ r ∈ loadForms s k u d base st idx, 0 < r.2.bytes ∧ r.2.bytes ∣ 256 := by
  simp only [loadForms, List.forall_mem_cons]
  exact ⟨⟨Nat.one_pos, 256, rfl⟩, ⟨Nat.succ_pos 3, 64, rfl⟩, ⟨Nat.succ_pos 1, 128, rfl⟩, ⟨Nat.succ_pos 3, 64, rfl⟩,
    List.forall_mem_nil _⟩

section
variable {i : Instr} {md : VMode} {at_ : Nat → Target} (hexec : exec i s = vldAny k u d base md s)
include hexec

theorem vld_traps {t : Trap} (h : vldCheck s k base md = some t) : Traps s i t := by
  rw [Traps, hexec, vldAny, h]

theorem vld_noneActive (h : elemsOf s k md = []) : exec i s = .next s := by
  have hcheck : vldCheck s k base md = none := by
    rw [vldCheck, vElems_eq, h]
    rfl
  rw [hexec, vldAny, hcheck]
  simp only [vload, vTargets_of_none h, List.isEmpty_nil, if_true]

variable (hcheck : vldCheck s k base md = none) (hsome : elemsOf s k md ≠ []) (hreach : Reaches s k base md at_)
include hcheck

theorem exec_of_checked_vld : exec i s = .next (vload s k u d base md) := by rw [hexec, vldAny, hcheck]

include hsome hreach

theorem vld_far (hfar : ∃ e ∈ elemsOf s k md, isNear s (at_ e).key = false) : Asks s i fun q =>
    (q.cells ++ q.late.1).Perm (placedCells md (placedElems s k base md at_)) ∧
      (s.ctx.acqs = [] → q.cells = placedCells md (placedElems s k base md at_)) ∧
      q.dest = .vector d u ∧ q.en = enables (s.ctx.m k) md.bytes := by
  obtain ⟨r, now, late, hload, hid, hsid, hcube, hstatus, hcells, hlate, hdest, hen, hperm, hall⟩ :=
    vload_of_far (u := u) (d := d) hreach hsome hfar
  refine asks_of_sendRead ((exec_of_checked_vld hexec hcheck).trans (congrArg Host.Outcome.next hload)) ⟨hid, hsid, hcube, hstatus⟩
    fun prior => ⟨?_, fun hacqs => ?_, hdest, hen⟩
  · show (r.cells ++ r.late.1).Perm _
    rw [hcells, hlate, placedCells, placedCells, ← List.flatMap_append]
    exact hperm.flatMap_right _
  · show r.cells = _
    rw [hcells, hall hacqs]

variable (hb : 0 < md.bytes) (hd : md.bytes ∣ 256) (hnear : ∀ e ∈ elemsOf s k md, isNear s (at_ e).key = true)
include hb hd hnear

omit hexec hcheck hreach hnear in
theorem enables_ne_zero_of_elemsOf : enables (s.ctx.m k) md.bytes ≠ 0 := by
  obtain ⟨e, he⟩ := List.exists_mem_of_ne_nil _ hsome
  exact enables_ne_zero hb hd ⟨e, mem_elemsOf.1 he⟩

theorem vld_near (hclean : ∀ e ∈ elemsOf s k md, Clean s (at_ e).key md.bytes) (hquiet : Quiet s)
    (hpast : (s.fencePrior true).past s s.me = true) :
    Gives s i 6 fun x => toVector u ⟨false, false⟩ d (vecOf md.bytes fun e =>
      if active (s.ctx.m k) md.bytes e then readNat s (at_ e).key md.bytes else elemAt (x.v d) md.bytes e) x := by
  have hload := (exec_of_checked_vld hexec hcheck).trans
    (congrArg Host.Outcome.next (vload_of_near (u := u) (d := d) hreach hsome hnear hclean hquiet hpast))
  rw [State.writeV, if_neg (enables_ne_zero_of_elemsOf hsome hb hd)] at hload
  refine gives_of_pushResult hload rfl (by decide) fun x n cls pos chk => ?_
  have h := landResult_vector_elements (l := 6) (u := u) (m := ⟨false, false⟩) (d := d) (a := 0) (on := allOn) (also := nothingElse)
    (new := fun e => readNat s (at_ e).key md.bytes) (mk := s.ctx.m k) hb hd
    (fun j hj => by rw [enables_getLsbD hb hd _ hj, allOn, Bool.and_true])
    (fun e he hactive _ => elemAt_near hb he hactive) (fun _ _ => rfl) x n cls pos chk
  simp only [allOn, Bool.and_true] at h
  exact h

theorem vld_nearFenced (hpast : (s.fencePrior true).past s s.me = false) : ∃ (w : Result) (q : ReadReq),
    exec i s = .next { s.modCtx (fun x => { x with results := x.results ++ [w] }) with
      reads := s.reads ++ [q], nextId := s.nextId + 1 } ∧
    w.rem = 6 ∧ w.kind = .vector ∧ w.dest.setWidth 5 = d ∧ w.en = enables (s.ctx.m k) md.bytes ∧ w.pos = s.place ∧
    q.id = s.nextId ∧ q.sid = s.ctx.sid ∧ q.status = .sent ∧ q.dest = .exposed s.place ∧
    q.cells = placedCells md (placedElems s k base md at_) ∧ q.prior = s.fencePrior true := by
  obtain ⟨r, hload, hid, hsid, hstatus, hdest, hcells, hprior⟩ := vload_of_nearFenced (u := u) (d := d) hreach hsome hnear hpast
  have hwrite : s.writeV 6 u ⟨false, false⟩ d 0 (enables (s.ctx.m k) md.bytes) =
      s.pushResult (vectorResult 6 u ⟨false, false⟩ d 0 (enables (s.ctx.m k) md.bytes)) :=
    if_neg (enables_ne_zero_of_elemsOf hsome hb hd)
  have hfence : ∀ f, (s.modCtx f).fencePrior true = s.fencePrior true := fun f => by simp only [State.fencePrior, bundle_modCtx]
  have hreg : ((d.setWidth 6).setWidth 5 : VReg) = d := by
    rw [BitVec.setWidth_setWidth_of_le _ (by decide), BitVec.setWidth_eq]
  have hexec' := (exec_of_checked_vld hexec hcheck).trans (congrArg Host.Outcome.next hload)
  rw [hwrite, pushResult_eq, sendRead, hfence, hprior] at hexec'
  exact ⟨_, { r with prior := s.fencePrior true }, hexec', rfl, rfl, hreg, rfl, rfl, hid, hsid, hstatus, hdest, hcells, rfl⟩
end
end

/-- Settles O34: a vector load by its check, by its active elements, and by where they lie. -/
theorem vectorLoad : Obligations.VectorLoad := by
  unfold Obligations.VectorLoad
  intro s k u d base st idx r hr
  have hexec := exec_of_mem_loadForms r hr
  obtain ⟨hb, hd⟩ := bytes_of_mem_loadForms r hr
  refine ⟨fun t h => vld_traps hexec h, vld_noneActive hexec, fun at_ hcheck hsome hreach => ?_⟩
  intro all
  have hall : placedCells r.2 (placedElems s k base r.2 at_) = all := placedCells_placedElems
  rw [← hall]
  refine ⟨fun hnear hquiet hpast => ?_, fun hnear hpast => ?_, vld_far hexec hcheck hsome hreach⟩
  · exact vld_near hexec hcheck hsome hreach hb hd (fun e he => (hnear e he).1) (fun e he => (hnear e he).2) hquiet hpast
  · exact vld_nearFenced hexec hcheck hsome hreach hb hd hnear hpast

end Sys2Proof.Machine

/-! PROOFS. Vector stores (R217, R218). -/
namespace Sys2Proof.Machine

open Sys2Proof.Say

/-! ### Of several writes to one place the last stays -/

theorem any_lastWins (cells : List (Nat × Byte)) (a : Nat) : ((lastWins cells).any fun b => b.1 == a) = cells.any fun b => b.1 == a := by
  induction cells with
  | nil => rfl
  | cons c cells ih =>
    rw [lastWins, List.any_cons]
    split
    · next hlater =>
      rw [ih]
      by_cases hca : c.1 = a
      · rw [← hca, hlater, Bool.or_true]
      · rw [beq_false_of_ne hca, Bool.false_or]
    · rw [List.any_cons, ih]

theorem lastWins_eq_latest (cells : List (Nat × Byte)) : lastWins cells = latest cells := by
  rw [latest, List.foldl_reverse]
  induction cells with
  | nil => rfl
  | cons c cells ih => rw [lastWins, List.foldr_cons, ← ih, any_lastWins]

/-! ### Items that set out together -/

/-- From s to u items have set out, and beside them only the numbers of lines, identities and edge copies have changed. -/
def SendsMany (s u : State) (ms : List Item) : Prop :=
  u.items = s.items ++ ms ∧ u.mem = s.mem ∧ u.reads = s.reads ∧ u.me = s.me ∧ u.ctx.regs = s.ctx.regs ∧
    ∀ c, c ≠ s.me → u.cube c = s.cube c

theorem SendsMany.refl (s : State) : SendsMany s s [] := ⟨(List.append_nil _).symm, rfl, rfl, rfl, rfl, fun _ _ => rfl⟩

theorem SendsMany.trans {s t u : State} {ms ns : List Item} (h : SendsMany s t ms) (h' : SendsMany t u ns) :
    SendsMany s u (ms ++ ns) := by
  obtain ⟨hitems, hmem, hreads, hme, hregs, hcubes⟩ := h
  obtain ⟨hitems', hmem', hreads', hme', hregs', hcubes'⟩ := h'
  exact ⟨by rw [hitems', hitems, List.append_assoc], hmem'.trans hmem, hreads'.trans hreads, hme'.trans hme, hregs'.trans hregs,
    fun c hc => (hcubes' c (hme.symm ▸ hc)).trans (hcubes c hc)⟩

theorem sendsMany_sendItem {s : State} {m : Item} (hcube : m.cube = s.me) (haway : m.home ≠ 8 + s.me.val) : ∃ j,
    SendsMany s (sendItem s m) [j] ∧ j.home = m.home ∧ j.line = m.line ∧ j.glob = m.glob ∧ j.sid = m.sid ∧ j.op = m.op := by
  obtain ⟨j, e, hissue, hj, -⟩ := issueItem_away (s.numbered m.line)
    { m with seq := s.ctx.lineSeq.toList.getD m.line.toNat 0, prior := s.fencePrior false } (.inl (by rw [hcube]; exact haway))
  have hsend := (sendItem_eq s m).trans hissue
  have hcore := congrArg (fun k => k.core.regs) (cube_numbered_self s m.line (fun k => { k with edge := e }) hcube)
  refine ⟨j, ⟨by rw [hsend]; rfl, by rw [hsend]; rfl, by rw [hsend]; rfl, by rw [hsend]; rfl, ?_, fun c hc => ?_⟩, ?_⟩
  · rw [hsend]
    exact hcore
  · rw [hsend]
    exact cube_numbered_ne s m.line (fun k => { k with edge := e }) (hcube.symm ▸ hc) hc
  · rw [hj]
    exact ⟨rfl, rfl, rfl, rfl, rfl⟩

/-! ### The items of a vector store -/

/-- The cells of a store's elements that lie at one home. -/
def homeCells (bytes : Nat) (v : VWord) (ts : List (Nat × VA × Target)) (h : Nat) : List (Nat × Byte) :=
  lastWins ((ts.filter fun t => homeOf t.2.2.key == h).flatMap fun y => cellsAt y.2.2.key (bytesLE bytes (elemAt v bytes y.1)))

/-- An item of a vector store as its home sees it. -/
def StoreItem (x : Ctx) (glob : Bool) (line : BitVec 3) (bytes : Nat) (v : VWord) (ts : List (Nat × VA × Target)) (m : Item) : Prop :=
  m.line = line ∧ m.glob = glob ∧ m.sid = x.sid ∧ m.op = .store (homeCells bytes v ts m.home)

section
variable {s : State} {x : Ctx} {glob : Bool} {line : BitVec 3} {bytes : Nat} {v : VWord} {low : VA} {ts : List (Nat × VA × Target)}

theorem sendsMany_vstItem {h : Nat} (hmem : h ∈ ts.map fun t => homeOf t.2.2.key) (haway : h ≠ 8 + s.me.val) : ∃ j,
    SendsMany s (vstItem s x glob line bytes v low h ts) [j] ∧ j.home = h ∧ StoreItem x glob line bytes v ts j := by
  obtain ⟨t, ht, hth⟩ := List.mem_map.1 hmem
  unfold vstItem StoreItem homeCells
  split
  · next hnone =>
    have hin : t ∈ ts.filter fun t => homeOf t.2.2.key == h := List.mem_filter.2 ⟨ht, by rw [hth, beq_self_eq_true]⟩
    exact absurd hin (hnone ▸ List.not_mem_nil)
  · next t rest hcons =>
    have hin : t ∈ ts.filter fun t => homeOf t.2.2.key == h := hcons ▸ List.mem_cons_self
    have hhome : homeOf t.2.2.key = h := beq_iff_eq.1 (List.mem_filter.1 hin).2
    obtain ⟨j, hsend, hjhome, hjline, hjglob, hjsid, hjop⟩ := sendsMany_sendItem (s := s) (m := { coreItem s x t.2.2
        (.store (lastWins ((t :: rest).flatMap fun y => cellsAt y.2.2.key (bytesLE bytes (elemAt v bytes y.1))))) low
        ((t :: rest).map fun y => (y.2.1, bytes)) accVStore with
      line := line, glob := glob, mig := vMig x.sys.asn (t :: rest)
      tags := ((((t :: rest).filter fun y => y.2.2.tag != t.2.2.tag).map fun y => (lineOf y.2.2.key, y.2.2.tag))).eraseDups })
      rfl (fun heq => haway (hhome.symm.trans heq))
    have hh : j.home = h := hjhome.trans hhome
    refine ⟨j, hsend, hh, hjline, hjglob, hjsid, ?_⟩
    rw [hh, hcons]
    exact hjop

theorem sendsMany_foldl (hs : List Nat) (hmem : ∀ h ∈ hs, h ∈ ts.map fun t => homeOf t.2.2.key) (haway : ∀ h ∈ hs, h ≠ 8 + s.me.val) :
    ∃ ms, SendsMany s (hs.foldl (fun s h => vstItem s x glob line bytes v low h ts) s) ms ∧ ms.map Item.home = hs ∧
      ∀ m ∈ ms, StoreItem x glob line bytes v ts m := by
  induction hs generalizing s with
  | nil => exact ⟨[], .refl s, rfl, fun _ hm => nomatch hm⟩
  | cons h hs ih =>
    obtain ⟨j, hsend, hjhome, hj⟩ := sendsMany_vstItem (x := x) (glob := glob) (line := line) (bytes := bytes) (v := v) (low := low)
      (hmem h List.mem_cons_self) (haway h List.mem_cons_self)
    have hme := hsend.2.2.2.1
    obtain ⟨ms, hsends, hhomes, hms⟩ := ih (fun h' hh => hmem h' (List.mem_cons_of_mem _ hh))
      (fun h' hh => hme.symm ▸ haway h' (List.mem_cons_of_mem _ hh))
    exact ⟨j :: ms, hsend.trans hsends, by rw [List.map_cons, hjhome, hhomes], List.forall_mem_cons.2 ⟨hj, hms⟩⟩
end

theorem nodup_eraseDups {α : Type} [DecidableEq α] (l : List α) : l.eraseDups.Nodup := by
  induction hn : l.length using Nat.strongRecOn generalizing l with
  | ind n ih =>
    cases l with
    | nil => exact List.nodup_nil
    | cons a l =>
      have hlen : (l.filter fun b => !b == a).length < n := by
        rw [← hn, List.length_cons]
        exact Nat.lt_succ_of_le (List.length_filter_le _ _)
      rw [List.eraseDups_cons, List.nodup_cons]
      refine ⟨fun hmem => ?_, ih _ hlen _ rfl⟩
      have := (List.mem_filter.1 (List.mem_eraseDups.1 hmem)).2
      simp at this

/-! ### The obligation -/

section
variable {s : State} {k : MReg} {glob : Bool} {d : VReg} {base st : Src} {idx : VSrc} {line : BitVec 3}

theorem exec_of_mem_storeForms : ∀ r ∈ storeForms s k glob d base st idx line, exec r.1 s = vstAny k glob d base line r.2 s := by
  simp only [storeForms, List.forall_mem_cons]
  exact ⟨exec_vst k glob d base line s, exec_vstStrided k glob d base st line s, exec_vstStrided16 k glob d base st line s,
    exec_vstScatter k glob d base idx line s, List.forall_mem_nil _⟩

section
variable {i : Instr} {md : VMode} {at_ : Nat → Target} (hexec : exec i s = vstAny k glob d base line md s)
include hexec

theorem vst_traps {t : Trap} (h : vstCheck s k base md line = some t) : Traps s i t := by
  rw [Traps, hexec, vstAny, h]

omit hexec in
/-- The cells of an element's home, by the elements that lie there. -/
theorem homeCells_placedElems (v : VWord) (h : Nat) : homeCells md.bytes v (placedElems s k base md at_) h =
    latest (((elemsOf s k md).filter fun e => homeOf (at_ e).key == h).flatMap fun e =>
      cellsAt (at_ e).key (bytesLE md.bytes (elemAt v md.bytes e))) := by
  rw [homeCells, lastWins_eq_latest, placedElems, List.filter_map, List.flatMap_map]
  rfl

theorem vst_sends (hcheck : vstCheck s k base md line = none) (hreach : Reaches s k base md at_)
    (hleaves : ∀ e ∈ elemsOf s k md, Leaves s (at_ e).key) : ∃ w ms, exec i s = .next w ∧ SendsMany s w ms ∧
      (ms.map Item.home).Nodup ∧ (∀ m ∈ ms, StoreItem s.ctx glob line md.bytes (s.ctx.v d) (placedElems s k base md at_) m) ∧
      ∀ e ∈ elemsOf s k md, ∃ m ∈ ms, m.home = homeOf (at_ e).key := by
  let hs := ((placedElems s k base md at_).map fun t => homeOf t.2.2.key).eraseDups
  have hmem : ∀ h ∈ hs, h ∈ (placedElems s k base md at_).map fun t => homeOf t.2.2.key := fun h hh => List.mem_eraseDups.1 hh
  have haway : ∀ h ∈ hs, h ≠ 8 + s.me.val := fun h hh => by
    obtain ⟨t, ht, rfl⟩ := List.mem_map.1 (hmem h hh)
    obtain ⟨e, he, rfl⟩ := List.mem_map.1 ht
    exact hleaves e he
  obtain ⟨ms, hsends, hhomes, hms⟩ := sendsMany_foldl (s := s) (x := s.ctx) (glob := glob) (line := line) (bytes := md.bytes)
    (v := s.ctx.v d) (low := lowVA (vElems s.ctx k (s.ctx.src base) md)) hs hmem haway
  refine ⟨_, ms, ?_, hsends, hhomes ▸ nodup_eraseDups _, hms, fun e he => ?_⟩
  · rw [hexec, vstAny, hcheck]
    simp only [vTargets_eq hreach]
    rfl
  · have hin : homeOf (at_ e).key ∈ ms.map Item.home := by
      rw [hhomes]
      exact List.mem_eraseDups.2 (List.mem_map.2 ⟨_, List.mem_map_of_mem he, rfl⟩)
    exact List.mem_map.1 hin
end
end

/-- Settles O35: a vector store by its check, and home by home. -/
theorem vectorStore : Obligations.VectorStore := by
  unfold Obligations.VectorStore
  intro s k glob d base st idx line r hr
  have hexec := exec_of_mem_storeForms r hr
  refine ⟨fun t h => vst_traps hexec h, fun at_ hcheck hreach hleaves => ?_⟩
  obtain ⟨w, ms, hw, ⟨hitems, hmem, hreads, -, hregs, hcubes⟩, hnodup, hms, hall⟩ := vst_sends hexec hcheck hreach hleaves
  refine ⟨w, ms, hw, hitems, hmem, hreads, hregs, hcubes, hnodup, fun m hm => ?_, hall⟩
  obtain ⟨hline, hglob, hsid, hop⟩ := hms m hm
  exact ⟨hline, hglob, hsid, hop.trans (congrArg ItemOp.store (homeCells_placedElems _ _))⟩

end Sys2Proof.Machine

/-! PROOFS. What an item does at its home (chapter 04): the bytes that it leaves and the old value that it found, beside changes
of the edge caches and of the marks on lines alone; and the store to the cube's own scratch, which is performed as it commits. -/
namespace Sys2Proof.Machine
open Sys2Proof.Say

/-! ### Bytes put at their home -/

/-- Bytes written to a memory in its canonical form are exactly what changes in it. -/
theorem stored_of_mem {s u : State} {cells : List (Nat × Byte)} (h : u.mem = memWrite s.mem cells) : Stored s u cells := by
  intro hwf
  rw [h]
  refine ⟨fun a ha => memByte_memWrite_ne _ cells a hwf ha, fun hnd d hd => ?_⟩
  obtain ⟨front, back, rfl⟩ := List.append_of_mem hd
  refine memByte_memWrite_last _ front back d.1 d.2 hwf fun c hc hcd => ?_
  rw [List.map_append, List.map_cons, List.nodup_append] at hnd
  exact (List.nodup_cons.1 hnd.2.1).1 (hcd ▸ List.mem_map_of_mem hc)

/-- The bytes stand at their home; beside memory only edge caches, checksum records, marks on lines, notes to watchers and messages
may differ. -/
def PutHome (s u : State) (cells : List (Nat × Byte)) : Prop :=
  ∃ cs ow po no ms, u = { s with mem := memWrite s.mem cells, cubes := cs, owners := ow, poison := po, notes := no, msgs := ms } ∧
    ∀ c, ∃ r e, cs.get c = { s.cube c with recs := r, edge := e }

/-- Bytes at places that are no window, of which no second copy is kept. -/
theorem putHome_homeWrite {s : State} {cells : List (Nat × Byte)} (h : Plain s (cells.map Prod.fst)) (m : Mode) (who : Writer)
    (tag : BitVec 12) : PutHome s (homeWrite s m who tag cells) cells := by
  obtain ⟨hplain, hlive⟩ := h
  by_cases hne : cells = []
  · subst hne
    refine ⟨s.cubes, s.owners, s.poison, s.notes, s.msgs, ?_, fun c => ⟨(s.cube c).recs, (s.cube c).edge, rfl⟩⟩
    have hempty : homeWrite s m who tag [] = { s with winq := s.winq ++ [] } := rfl
    rw [hempty, List.append_nil]
    rfl
  · obtain ⟨cs, ow, po, no, heq, hcs⟩ := homeWrite_plain s m who tag cells (fun d hd => hplain d.1 (List.mem_map_of_mem hd))
      (mirrorCells_none s hlive cells) hne
    exact ⟨cs, ow, po, no, s.msgs, heq, fun c => (hcs c).imp fun r hr => ⟨(s.cube c).edge, hr⟩⟩

theorem PutHome.withMsgs {s u : State} {cells : List (Nat × Byte)} (h : PutHome s u cells) (ms : List DirMsg) :
    PutHome s { u with msgs := ms } cells := by
  obtain ⟨cs, ow, po, no, _, rfl, hcs⟩ := h
  exact ⟨cs, ow, po, no, ms, rfl, hcs⟩

/-- Edge caches that change beside leave the bytes where they stand. -/
theorem PutHome.withEdges {s u : State} {cells : List (Nat × Byte)} (h : PutHome s u cells) {cs' : Vector Cube 8}
    (hcs' : ∀ c, ∃ e, cs'.get c = { u.cube c with edge := e }) : PutHome s { u with cubes := cs' } cells := by
  obtain ⟨cs, ow, po, no, ms, rfl, hcs⟩ := h
  refine ⟨cs', ow, po, no, ms, rfl, fun c => ?_⟩
  obtain ⟨e, he⟩ := hcs' c
  obtain ⟨r, e', hr⟩ := hcs c
  exact ⟨r, e, he.trans (by rw [show State.cube { s with mem := _, cubes := cs, owners := ow, poison := po, notes := no, msgs := ms } c
    = _ from hr])⟩

theorem PutHome.mem {s u : State} {cells : List (Nat × Byte)} (h : PutHome s u cells) : u.mem = memWrite s.mem cells := by
  obtain ⟨cs, ow, po, no, ms, rfl, _⟩ := h
  rfl
theorem PutHome.items {s u : State} {cells : List (Nat × Byte)} (h : PutHome s u cells) : u.items = s.items := by
  obtain ⟨cs, ow, po, no, ms, rfl, _⟩ := h
  rfl
theorem PutHome.reads {s u : State} {cells : List (Nat × Byte)} (h : PutHome s u cells) : u.reads = s.reads := by
  obtain ⟨cs, ow, po, no, ms, rfl, _⟩ := h
  rfl
theorem PutHome.me {s u : State} {cells : List (Nat × Byte)} (h : PutHome s u cells) : u.me = s.me := by
  obtain ⟨cs, ow, po, no, ms, rfl, _⟩ := h
  rfl
theorem PutHome.cube {s u : State} {cells : List (Nat × Byte)} (h : PutHome s u cells) (c : CubeId) :
    ∃ r e, u.cube c = { s.cube c with recs := r, edge := e } := by
  obtain ⟨cs, ow, po, no, ms, rfl, hcs⟩ := h
  exact hcs c

/-! ### Edge caches alone -/

/-- Copies that lose their lines. -/
theorem edgeDrop_fold (ls : List Nat) (k : Cube) : ∃ e, ls.foldl edgeDrop k = { k with edge := e } := by
  induction ls generalizing k with
  | nil => exact ⟨k.edge, rfl⟩
  | cons l ls ih =>
    obtain ⟨e, he⟩ := ih (edgeDrop k l)
    exact ⟨e, he⟩

/-- Copies that take bytes now change only themselves and the messages on their way. -/
theorem edgeOvertake_eq (s : State) (c : CubeId) (older : List DirMsg → List DirMsg × List DirMsg) (cells : List (Nat × Byte)) :
    ∃ e ms, edgeOvertake s c older cells = { s.modCube c fun k => { k with edge := e } with msgs := ms } := by
  obtain ⟨e, he⟩ := edgeRetag_fold (fun l => lineOwner (s.modCube c fun k => edgeUpdate k cells) (l * 64))
    (linesOf (cells.map Prod.fst)) (edgeUpdate (s.cube c) cells)
  have hcopies : retagCopies (s.modCube c fun k => edgeUpdate k cells) c (linesOf (cells.map Prod.fst)) =
      s.modCube c fun k => { k with edge := e } := by
    rw [retagCopies, modCube_modCube]
    exact modCube_congr he
  exact ⟨e, _, congrArg (fun t : State => { t with msgs := (edgeOvertake s c older cells).msgs }) hcopies⟩

theorem get_modCube_edge (s : State) (c d : CubeId) (e : List EdgeLine) :
    ∃ e', (s.modCube c fun k => { k with edge := e }).cube d = { s.cube d with edge := e' } := by
  by_cases h : d = c
  · subst h
    exact ⟨e, cube_modCube_self s d _⟩
  · exact ⟨(s.cube d).edge, cube_modCube_ne s c d _ h⟩

theorem PutHome.overtake {s u : State} {cells : List (Nat × Byte)} (h : PutHome s u cells) (c : CubeId)
    (older : List DirMsg → List DirMsg × List DirMsg) (cs : List (Nat × Byte)) : PutHome s (edgeOvertake u c older cs) cells := by
  obtain ⟨e, ms, heq⟩ := edgeOvertake_eq u c older cs
  rw [heq]
  exact (h.withEdges (get_modCube_edge u c · e)).withMsgs ms

theorem PutHome.dropCopies {s u : State} {cells : List (Nat × Byte)} (h : PutHome s u cells) (ls : List Nat) :
    PutHome s { u with cubes := u.cubes.map fun k => ls.foldl edgeDrop k } cells := by
  refine h.withEdges fun c => ?_
  obtain ⟨e, he⟩ := edgeDrop_fold ls (u.cube c)
  exact ⟨e, by simpa [State.cube, Vector.get_eq_getElem] using he⟩

/-! ### Items performed (R101, R117, R181, R185) -/

/-- Nothing of an item's places acts on what it writes, or keeps a second copy; and nothing of those that it reads acts on being read,
or cannot be read. -/
structure Undisturbed (s : State) (i : Item) : Prop where
  plain : Plain s i.op.locs
  reads : i.isWriteOp = false → (keySpace s (i.op.addr / 8 * 8)).isWindow = false ∧ Quiet s ∧
    ∀ a ∈ i.op.locs, s.poison.contains (a / 64) = false

theorem popReads_of_plain {s : State} {a : Nat} (h : (keySpace s (a / 8 * 8)).isWindow = false) : popReads s [a] = s := by
  have hone : ((([a].map fun a => a / 8)).eraseDups) = [a / 8] := rfl
  rw [popReads, hone, List.foldl_cons, List.foldl_nil]
  cases hk : keySpace s (a / 8 * 8) <;> simp_all [Space.isWindow]

theorem any_poison_of_clean {s : State} {locs : List Nat} (h : ∀ a ∈ locs, s.poison.contains (a / 64) = false) :
    (linesOf locs).any (fun l => s.poison.contains l) = false := by
  rw [List.any_eq_false]
  intro l hl
  rw [linesOf, List.mem_eraseDups, List.mem_map] at hl
  obtain ⟨a, ha, rfl⟩ := hl
  exact Bool.eq_false_iff.1 (h a ha)

theorem atomMem_of_plain {s : State} {a : Nat} (h : (keySpace s a).isWindow = false) : atomMem s a = s.mem := by
  unfold atomMem
  cases hk : keySpace s a <;> simp_all [Space.isWindow]

theorem addr_mem_locs (o : ItemOp) (h : ∀ cells, o ≠ .store cells) : o.addr ∈ o.locs := by
  cases o with
  | store cells => exact absurd rfl (h cells)
  | cadd a v => exact List.mem_map.2 ⟨0, List.mem_range.2 (by decide), rfl⟩
  | cmax a v => exact List.mem_map.2 ⟨0, List.mem_range.2 (by decide), rfl⟩
  | fetchAdd a v => exact List.mem_map.2 ⟨0, List.mem_range.2 (by decide), rfl⟩
  | amo o wide a b b1 => exact List.mem_map.2 ⟨0, List.mem_range.2 (by cases wide <;> decide), rfl⟩

theorem map_fst_cellsAt (a : Nat) (bs : List Byte) : (cellsAt a bs).map Prod.fst = (List.range bs.length).map (a + ·) := by
  induction bs generalizing a with
  | nil => rfl
  | cons b bs ih =>
    rw [cellsAt_cons, List.map_cons, ih, List.length_cons, List.range_succ_eq_map, List.map_cons, List.map_map, Nat.add_zero]
    congr 1
    exact List.map_congr_left fun k _ => by simp only [Function.comp]; omega

/-- What an operation writes lies at its locations. -/
theorem opEffect_locs (m : List Host.Cell) (o : ItemOp) : (opEffect m o).1.map Prod.fst = o.locs := by
  cases o with
  | store cells => rfl
  | cadd a v => exact (map_fst_cellsAt a _).trans (by rw [length_bytesLE]; rfl)
  | cmax a v => exact (map_fst_cellsAt a _).trans (by rw [length_bytesLE]; rfl)
  | fetchAdd a v => exact (map_fst_cellsAt a _).trans (by rw [length_bytesLE]; rfl)
  | amo o wide a b b1 => exact (map_fst_cellsAt a _).trans (by rw [length_bytesLE]; rfl)

/-- What the operation of an item finds, and does, at places that keep what is written to them. -/
theorem opEffect_atomMem {s : State} {i : Item} (h : Undisturbed s i) : opEffect (atomMem s i.op.addr) i.op = opEffect s.mem i.op := by
  by_cases hstore : ∃ cells, i.op = .store cells
  · obtain ⟨cells, hop⟩ := hstore
    rw [hop]
    rfl
  · rw [atomMem_of_plain (h.plain.1 _ (addr_mem_locs i.op fun cells hop => hstore ⟨cells, hop⟩))]

/-- An item of a strand is performed: its bytes stand at their home, and it carries the old value. -/
theorem performItem_eq {s : State} {i : Item} (h : Undisturbed s i) (hcmd : i.cmd = none) (htags : i.tags = []) :
    ∃ u, performItem s i = u.modItem i.id (fun j => { j with status := .performed, old := (opEffect s.mem i.op).2 }) ∧
      PutHome s u (opEffect s.mem i.op).1 := by
  have hread : (if i.isWriteOp then s else fireReads (popReads s [i.op.addr]) (linesOf i.op.locs)) = s := by
    cases hw : i.isWriteOp with
    | true => rfl
    | false =>
      obtain ⟨hword, hquiet, _⟩ := h.reads hw
      rw [popReads_of_plain hword, fireReads_quiet s hquiet, ite_self]
  have hclean : (!i.isWriteOp && (linesOf i.op.locs).any fun l => s.poison.contains l) = false := by
    cases hw : i.isWriteOp with
    | true => rfl
    | false => exact any_poison_of_clean (h.reads hw).2.2
  have hput := putHome_homeWrite (s := s) (cells := (opEffect s.mem i.op).1) (by rw [opEffect_locs]; exact h.plain) i.mode i.writer i.tag
  unfold performItem
  simp only [hread, hclean, Bool.false_eq_true, if_false, opEffect_atomMem h, hcmd, htags,
    List.foldl_nil]
  by_cases hglob : i.glob = true
  · simp only [hglob, if_true]
    exact ⟨_, rfl, hput.withMsgs _⟩
  · simp only [hglob, Bool.false_eq_true, if_false]
    by_cases hwrite : i.isWriteOp = true
    · simp only [hwrite, if_true]
      exact ⟨_, rfl, (hput.withMsgs _).overtake _ _ _⟩
    · simp only [hwrite, Bool.false_eq_true, if_false]
      exact ⟨_, rfl, (hput.dropCopies (linesOf i.op.locs)).withMsgs _⟩

/-! ### Items that arrive (R117) -/

theorem item_modItem {s : State} {m : Item} (h : s.item m.id = some m) (f : Item → Item) (hf : ∀ j, (f j).id = j.id) :
    (s.modItem m.id f).item m.id = some (f m) := by
  unfold State.item State.modItem at *
  rw [List.find?_map]
  have hid : ((fun i : Item => i.id == m.id) ∘ fun i => if i.id = m.id then f i else i) = fun i => i.id == m.id :=
    funext fun i => by by_cases hi : i.id = m.id <;> simp [hi, hf]
  rw [hid, h, Option.map_some, if_pos rfl]

theorem PutHome.item {s u : State} {cells : List (Nat × Byte)} (h : PutHome s u cells) (id : Nat) : u.item id = s.item id := by
  unfold State.item
  rw [h.items]

/-- An item that may be performed is: in place of the home's own record of it stands the performed one. -/
theorem performs_of_performItem {s : State} {m : Item} {i : Instr} {st : ItemStatus} (h : Performable s m st)
    (hexec : exec i s = .next (performItem s m)) : Performs s i m (opEffect s.mem m.op).1 (opEffect s.mem m.op).2 := by
  obtain ⟨hitem, _, hcmd, _, htags, _, _, hplain, hword, hquiet, hclean, _⟩ := h
  obtain ⟨u, heq, hput⟩ := performItem_eq ⟨hplain, fun _ => ⟨hword, hquiet, hclean⟩⟩ hcmd htags
  refine ⟨_, hexec.trans (congrArg Host.Outcome.next heq), ?_, stored_of_mem (u := u.modItem _ _) hput.mem, fun c => ?_, hput.reads⟩
  · exact item_modItem (m := m) ((hput.item m.id).trans hitem) _ fun _ => rfl
  · obtain ⟨r, e, hc⟩ := hput.cube c
    have hcore := congrArg Cube.core hc
    exact hcore

theorem arriveItem_of_ready {s : State} {i : Item} (hmig : i.mig = []) (h : canPerform s i = true) :
    arriveItem s i = performItem s i := by
  rw [arriveItem, hmig]
  exact if_pos h

/-- An item on its way that the event is about arrives. -/
theorem arriveIf_of_transit {s : State} {m : Item} {p : ItemOp → Bool} (hitem : s.item m.id = some m) (hst : m.status = .transit)
    (hp : p m.op = true) (hmay : mayArrive s m.cube m.sid m.id m.op.addr = true) : arriveIf s m.id p = arriveItem s m := by
  rw [arriveIf, onItem, hitem]
  exact if_pos (by simp [hst, hp, hmay])

theorem arriveIf_of_performable {s : State} {m : Item} {p : ItemOp → Bool} (h : Performable s m .transit) (hp : p m.op = true) :
    arriveIf s m.id p = performItem s m := by
  obtain ⟨hitem, hst, _, hmig, _, hready, hmay, _⟩ := h
  rw [arriveIf_of_transit hitem hst hp hmay, arriveItem_of_ready hmig hready]

theorem commitItem_of_performable {s : State} {m : Item} (h : Performable s m .held) : commitItem s m.id = performItem s m := by
  obtain ⟨hitem, hst, _, _, _, hready, _⟩ := h
  have hheld : (m.status != .held) = false := by rw [hst]; rfl
  simp only [commitItem, onItem, hitem, hheld, hready, Bool.false_eq_true, if_false, if_true]

/-- An item that arrives before its turn is held, and no byte changes. -/
theorem arriveItem_of_early {s : State} {m : Item} (hitem : s.item m.id = some m) (hmig : m.mig = []) (h : canPerform s m = false) :
    (arriveItem s m).mem = s.mem ∧ (arriveItem s m).item m.id = some { m with status := .held } := by
  have hheld := item_modItem hitem (fun j => { j with status := .held }) fun _ => rfl
  have hcount : countAll s (.cube m.cube) m.mig = s := by rw [hmig]; rfl
  unfold arriveItem
  simp only [hcount, h, Bool.false_eq_true, if_false]
  split
  · exact ⟨rfl, hheld⟩
  · exact ⟨rfl, hheld⟩

theorem amoValue_eq_combined (o : AmoOp) (w old b b1 : Nat) : amoValue o w old b b1 = combined o w old b b1 := by
  cases o <;> rfl
theorem caddValue_eq_counterSum (old amt : Word) : caddValue old amt = counterSum old amt := by
  simp only [caddValue, counterSum, BitVec.toNat_setWidth]
theorem cmaxValue_eq_counterMax (old v : Word) : cmaxValue old v = counterMax old v := by
  simp only [cmaxValue, counterMax, BitVec.toNat_setWidth]

/-! ### A store to the cube's own scratch (R117) -/

/-- The state from which an item of a strand without anything else in flight arrives at once. -/
theorem departItem_eq (s : State) (i : Item) : ∃ e, departItem s i = s.modCube i.cube fun k => { k with edge := e } := by
  have hsame : s = s.modCube i.cube fun k => { k with edge := (s.cube i.cube).edge } := (setCube_cube s i.cube).symm
  unfold departItem
  split
  · split
    · next cells _ _ =>
      obtain ⟨e, he⟩ := edgeRetag_fold i.tagOf (linesOf i.op.locs) (edgeUpdate (s.cube i.cube) cells)
      exact ⟨e, modCube_congr he⟩
    · exact ⟨_, hsame⟩
  · exact ⟨_, hsame⟩

/-- Of an item alone in flight nothing stands in the way. -/
theorem canPerform_of_alone {s : State} {i : Item} (hitems : s.items = [i]) (hcmds : (s.cube i.cube).cmds = [])
    (hedge : ∀ c, c ≠ i.cube → (s.cube c).edge = []) : canPerform s i = true := by
  have hothers : otherSharers s i = [] := by
    rw [otherSharers, sharers, List.filter_filter, List.filter_eq_nil_iff]
    intro c _
    by_cases hc : c = i.cube
    · simp [hc]
    · simp [edgeHas, hedge c hc]
  simp [canPerform, lineReady, addressReady, orderedReady, hitems, hcmds, hothers]

/-- The state in which an item alone is in flight, its cube's edge cache brought up to it. -/
def State.lone (s : State) (i : Item) (e : List EdgeLine) : State :=
  { s.modCube i.cube (fun k => { k with edge := e }) with items := [i] }

theorem cube_lone_self (s : State) (i : Item) (e : List EdgeLine) : (s.lone i e).cube i.cube = { s.cube i.cube with edge := e } :=
  cube_modCube_self s i.cube fun k => { k with edge := e }
theorem cube_lone_ne (s : State) (i : Item) (e : List EdgeLine) {c : CubeId} (h : c ≠ i.cube) : (s.lone i e).cube c = s.cube c :=
  cube_modCube_ne s i.cube c (fun k => { k with edge := e }) h
theorem hw_lone (s : State) (i : Item) (e : List EdgeLine) (c : CubeId) : ((s.lone i e).cube c).hw = (s.cube c).hw := by
  by_cases h : c = i.cube
  · subst h
    rw [cube_lone_self]
  · rw [cube_lone_ne s i e h]

/-- An operation on a place of the cube's own, with nothing else in flight, is performed as it enters, and is complete. -/
theorem issueItem_of_alone {s : State} {i : Item} (hitems : s.items = []) (hcmds : (s.cube i.cube).cmds = [])
    (hedge : ∀ c, (s.cube c).edge = []) (hhome : i.home = 8 + i.cube.val) (hdest : i.dest = none) (hmig : i.mig = [])
    (hafter : i.after = []) (hprior : i.prior = .none) (hst : i.status = .transit) (hsource : lineAtSource s i = false) :
    ∃ e, issueItem s i = (performItem (s.lone i e) i).dropItem i.id := by
  have hjoin : i.prior.join ⟨sourcePrior s i, [], sourceCmds s i⟩ = i.prior := by
    simp [hprior, sourcePrior, sourceCmds, hsource, hitems, Prior.none, Prior.join]
  have hleave : i.mayLeave s = true := by simp [Item.mayLeave, hafter, failedOf, hitems, hprior, Prior.past, Prior.none]
  have hsent : ({ i with status := .transit } : Item) = i := by rw [← hst]
  obtain ⟨e, he⟩ := departItem_eq { s with items := [i] } i
  have hdepart : departItem { s with items := [i] } i = s.lone i e := he
  have hready : canPerform (s.lone i e) i = true := canPerform_of_alone rfl (by rw [cube_lone_self]; exact hcmds) fun c hc => by
    rw [cube_lone_ne s i e hc, hedge]
  refine ⟨e, ?_⟩
  unfold issueItem
  simp only [hjoin, hleave, if_true, hsent, hitems, List.nil_append, beq_self_eq_true, hdepart, hready]
  have hnow : (true && i.home == 8 + i.cube.val && i.dest.isNone && true) = true := by simp [hhome, hdest]
  rw [if_pos hnow, arriveItem_of_ready hmig hready]

theorem hw_numbered (s : State) (line : BitVec 3) (c : CubeId) : ((s.numbered line).cube c).hw = (s.cube c).hw := by
  have h : (s.numbered line).cube c = (s.modCtx _).cube c := rfl
  rw [h, State.modCtx, cube_modCube]
  split <;> rfl
theorem edge_numbered (s : State) (line : BitVec 3) (c : CubeId) : ((s.numbered line).cube c).edge = (s.cube c).edge := by
  have h : (s.numbered line).cube c = (s.modCtx _).cube c := rfl
  rw [h, State.modCtx, cube_modCube]
  split <;> rfl
theorem regs_numbered (s : State) (line : BitVec 3) : (s.numbered line).ctx.regs = s.ctx.regs := by
  have h := congrArg Ctx.regs (ctx_modCtx s fun x => { x with lineSeq := x.lineSeq.set line.toNat (s.ctx.lineSeq.toList.getD line.toNat 0 + 1) line.isLt })
  exact h

theorem plain_congr {s u : State} (hhw : ∀ c, (u.cube c).hw = (s.cube c).hw) (hsecu : u.secu = s.secu) {locs : List Nat}
    (h : Plain s locs) : Plain u locs :=
  ⟨fun a ha => by rw [keySpace_congr hhw hsecu]; exact h.1 a ha, fun c => by rw [hhw]; exact h.2 c⟩

/-- What such a store leaves: no item, and its bytes at their home. -/
theorem issueItem_store {s : State} {i : Item} {cells : List (Nat × Byte)} (hop : i.op = .store cells) (hcmd : i.cmd = none)
    (htags : i.tags = []) (hplain : Plain s (cells.map Prod.fst))
    (hissue : ∃ e, issueItem s i = (performItem (s.lone i e) i).dropItem i.id) :
    (issueItem s i).items = [] ∧ (issueItem s i).reads = s.reads ∧ (issueItem s i).mem = memWrite s.mem cells ∧
      (issueItem s i).ctx.regs = s.ctx.regs := by
  obtain ⟨e, he⟩ := hissue
  have hundisturbed : Undisturbed (s.lone i e) i :=
    ⟨by rw [hop]; exact plain_congr (hw_lone s i e) rfl hplain, fun h => by simp [Item.isWriteOp, hop] at h⟩
  obtain ⟨v, hv, hput⟩ := performItem_eq hundisturbed hcmd htags
  rw [hop] at hput
  rw [he, hv]
  refine ⟨?_, hput.reads, hput.mem, ?_⟩
  · have hitems : v.items = [i] := hput.items
    simp [State.dropItem, State.modItem, hitems]
  · have hme : v.me = s.me := hput.me
    obtain ⟨r, e', hr⟩ := hput.cube s.me
    have hcore : (v.cube s.me).core = ((s.lone i e).cube s.me).core := by rw [hr]
    have hlone : ((s.lone i e).cube s.me).core = (s.cube s.me).core := by
      by_cases h : s.me = i.cube
      · rw [h, cube_lone_self]
      · rw [cube_lone_ne s i e h]
    have hctx : v.ctx = s.ctx := by rw [State.ctx, hme, hcore, hlone]; rfl
    exact congrArg Ctx.regs hctx

/-- Settles O36: the item is alone in flight, so that it is performed as it enters. -/
theorem storeToOwnScratch : Obligations.StoreToOwnScratch := by
  unfold Obligations.StoreToOwnScratch
  intro s g data base z glob line off t hguard ht hitems hcmds hbundle hhome hmigrate hpeer hedge hwf hplain
  have hexec := (exec_st g data base z glob line off s).trans (guarded_true s g _ hguard)
  rw [ht, checked_ok, sendItem_eq] at hexec
  have hsource : ∀ (u : State) (i : Item), i.op = .store (cellsAt t.key (bytesLE z.bytes (s.ctx.s data).toNat)) →
      lineAtSource u i = false := fun u i hop => by
    have haddr : i.op.addr = t.key := by rw [hop]; cases z <;> rfl
    rw [lineAtSource, haddr, hpeer]
  obtain ⟨e, he⟩ := issueItem_of_alone (s := s.numbered line) (i := { coreItem s s.ctx t
      (.store (cellsAt t.key (bytesLE z.bytes (s.ctx.s data).toNat))) (effAddr s.ctx base off.toInt z.bytes)
      [(effAddr s.ctx base off.toInt z.bytes, z.bytes)] accStore with
        line := line, glob := glob, seq := s.ctx.lineSeq.toList.getD line.toNat 0, prior := s.fencePrior false })
    hitems ((cmds_numbered s line s.me).trans hcmds) (fun c => (edge_numbered s line c).trans (hedge c)) hhome rfl
    (by rw [coreItem, migOf, hmigrate]; rfl) rfl (by rw [State.fencePrior, hbundle]; rfl) rfl (hsource _ _ rfl)
  have hlocs : Plain s ((cellsAt t.key (bytesLE z.bytes (s.ctx.s data).toNat)).map Prod.fst) := by
    rw [map_fst_cellsAt, length_bytesLE]
    exact hplain
  obtain ⟨hnone, hreads, hmem, hregs⟩ := issueItem_store rfl rfl rfl (plain_congr (hw_numbered s line) rfl hlocs) ⟨e, he⟩
  exact ⟨_, hexec, hnone, hregs.trans (regs_numbered s line), hreads, stored_of_mem hmem⟩

/-- Settles O37: every arrival is `performItem`, whose effect `opEffect` gives; an early one is only marked as held. -/
theorem itemsAtHome : Obligations.ItemsAtHome := by
  unfold Obligations.ItemsAtHome
  refine fun s m => ⟨fun cells hop => ⟨fun h => ?_, fun h => ?_⟩,
    fun o wide a b b1 hop h => ?_, fun a v => ⟨fun hop h => ?_, fun hop h => ?_⟩,
    fun cells hitem hst hop hmig hmay hearly => ?_⟩
  · have hperf := performs_of_performItem h
      ((exec_homeWriteArrives m.id s).trans (congrArg Host.Outcome.next (arriveIf_of_performable h (by rw [hop]))))
    rwa [hop] at hperf
  · have hperf := performs_of_performItem h
      ((exec_lineItemCommit m.id s).trans (congrArg Host.Outcome.next (commitItem_of_performable h)))
    rwa [hop] at hperf
  · have hperf := performs_of_performItem h
      ((exec_homeAtomic m.id s).trans (congrArg Host.Outcome.next (arriveIf_of_performable h (by rw [hop]))))
    rw [hop] at hperf
    simpa only [opEffect, amoValue_eq_combined] using hperf
  · have hperf := performs_of_performItem h
      ((exec_homeCounterOp m.id s).trans (congrArg Host.Outcome.next (arriveIf_of_performable h (by rw [hop]))))
    rw [hop] at hperf
    simpa only [opEffect, caddValue_eq_counterSum] using hperf
  · have hperf := performs_of_performItem h
      ((exec_homeCounterOp m.id s).trans (congrArg Host.Outcome.next (arriveIf_of_performable h (by rw [hop]))))
    rw [hop] at hperf
    simpa only [opEffect, cmaxValue_eq_counterMax] using hperf
  · have hlate := arriveItem_of_early hitem hmig hearly
    rw [← arriveIf_of_transit (p := fun o => match o with | .store _ => true | _ => false) hitem hst (by rw [hop]) hmay] at hlate
    exact ⟨_, exec_homeWriteArrives m.id s, hlate⟩

end Sys2Proof.Machine

/-! PROOFS. A release that follows a lost write, and the fault record that its broken line leaves (R120, R276). -/
namespace Sys2Proof.Machine
open Sys2Proof.Say

/-- A store of the runtime strand of cube 0 on line 1, with its place in the strand's order. -/
def lineStore (id : Nat) (status : ItemStatus) (after : List Nat) (cmd : Option Nat) : Item :=
  { id := id, pos := id, sid := 0, cube := 0, line := 1, seq := 0, home := 0, glob := false, ordered := false
    op := .cadd 0 1, va := 0, spans := [], acc := 5, after := after, prior := .none, scope := .pkg, rel := false
    mode := .runtime, tag := 0, status := status, dest := none, old := 0, cmd := cmd, mig := [], tags := [] }
/-- A block-store command of that strand whose completion add is on its way. -/
def addingStat : Cmd :=
  { id := 4, sid := 0, queue := .blkq, kind := .block .stat, tag := 0, mode := .runtime, asn := 0, part := .whole, grp := [0, 1 <<< 52], ctr := 0
    amt := 1, pals := .reset, recipe := 0, planes := 0, after := [], joins := [], items := [], status := .adding, err := none, res := []
    took := [], ents := [], out := [], wrote := [], acqs := [], homes := [], seq := 0, dead := false, seed := 0, lost := none
    addDead := false }
/-- The fault spool of R276 in base scratch: 64 entries of 16 bytes. -/
def faultSpool : Spool := { Spool.reset with loc := 1 <<< 62, size := (64 <<< 32) ||| 16 }

/-- The runtime strand of cube 0 waits, on line 1, with a release behind a store that was lost; behind the release stands the completion
add of its command, and it keeps a fault spool. -/
def lostRelease : State :=
  { State.reset.modCube 0 (fun k => { k with
      rt := k.rt.modSpool 31 fun _ => faultSpool
      cmds := [addingStat] }) with
    items := [lineStore 1 .failed [] none, lineStore 2 .waiting [1] none, lineStore 5 .transit [] (some 4)] }

theorem mem_sendRelease_lostRelease : (sendRelease lostRelease 2).mem ≠ lostRelease.mem := by decide +kernel

/-- Refutes O38: where the failed release's line breaks, the completion add behind it fails its command by the broken line (R120), whose
record goes to the fault spool in memory (R276); the statement has memory unchanged. -/
theorem not_memoryMessages : ¬ Obligations.MemoryMessages := by
  intro h
  unfold Obligations.MemoryMessages at h
  obtain ⟨_, _, _, _, hrelease, _⟩ := h lostRelease
  obtain ⟨u, hexec, _, hmem⟩ := (hrelease (lineStore 2 .waiting [1] none) rfl rfl).2
    ⟨lineStore 1 .failed [] none, List.mem_cons_self, rfl, .inl List.mem_cons_self⟩
  have hu : sendRelease lostRelease 2 = u := Host.Outcome.next.inj ((exec_releaseSend 2 lostRelease).symm.trans hexec)
  exact mem_sendRelease_lostRelease (by rw [hu]; exact hmem)

end Sys2Proof.Machine

/-! PROOFS. Counters that are waited for (R186, R189 to R191): the read of a `cwait` returns, and monitors wake strands. -/
namespace Sys2Proof.Machine
open Sys2Proof.Say

/-! ### The read of a `cwait` returns -/

/-- The cube's `cwait` goes on as w says. -/
def Cube.waits (k : Cube) (w : WaitState) : Cube := { k with core := { k.core with wait := w } }

section
variable {s : State} {c : CubeId} {id : Nat} {w : WaitInfo} {r : ReadReq} (h : Awaits s c id w r)
include h

/-- The value meets the target: the bundle may be issued with it. -/
theorem waitReturns_of_met (hv : w.target.toNat ≤ (r.value.setWidth 64 : Word).toNat) :
    waitReturns s c = (s.dropRead id).modCube c fun k => k.waits (.satisfied (r.value.setWidth 64)) := by
  obtain ⟨hcur, hwait, hread, hst, hbad⟩ := h
  unfold waitReturns
  cases hk : (s.cube c).cur with
  | none => exact absurd hk hcur
  | _ => simp [-BitVec.toNat_setWidth, hk, hwait, hread, hst, hbad, hv]; rfl

theorem waitReturns_of_unmet_parks (hv : (r.value.setWidth 64 : Word).toNat < w.target.toNat) {i : ShelfId}
    (hcur : (s.cube c).cur = .shelf i) (hpark : w.park = true) (hroom : (s.cube c).monitors.length < 64) :
    waitReturns s c = parkStrand (s.dropRead id) c i w := by
  obtain ⟨_, hwait, hread, hst, hbad⟩ := h
  unfold waitReturns
  simp [-BitVec.toNat_setWidth, hcur, hwait, hread, hst, hbad, Nat.not_le.2 hv, hpark, hroom]

theorem waitReturns_of_unmet_spins (hv : (r.value.setWidth 64 : Word).toNat < w.target.toNat) (hpark : w.park = false) :
    waitReturns s c = countFull (s.dropRead id) c w := by
  obtain ⟨hcur, hwait, hread, hst, hbad⟩ := h
  unfold waitReturns
  cases hk : (s.cube c).cur with
  | none => exact absurd hk hcur
  | _ => simp [-BitVec.toNat_setWidth, hk, hwait, hread, hst, hbad, Nat.not_le.2 hv, hpark]

end

/-- A strand parks with its monitor, and stays on a core that no other is ready for. -/
theorem parkStrand_of_none {s : State} {c : CubeId} (i : ShelfId) (w : WaitInfo) (h : (s.cube c).ready = []) :
    parkStrand s c i w = s.modCube c fun k => { k.waits .parked with
      monitors := k.monitors ++ [⟨i, w.key, w.target, w.va, !(w.watched && s.watches.contains (w.key, c))⟩] } := by
  unfold parkStrand
  simp only []
  rw [nextReady_of_empty]
  · rfl
  · rw [cube_modCube_self]
    exact h

theorem countFull_of_spin {s : State} {c : CubeId} {w : WaitInfo} (h : w.park = false) :
    countFull s c w = s.modCube c fun k => k.waits (.spinning { w with counted := true }) := by
  simp only [countFull, h, Bool.false_and, Bool.false_eq_true, if_false]
  rfl

/-! ### Monitors that wake their strands -/

/-- A parked strand that is off the core is ready, and its monitor is free. -/
def Cube.woken (k : Cube) (i : ShelfId) (x : Ctx) : Cube :=
  { k with
    monitors := k.monitors.filter fun m => m.shelf != i
    shelves := k.shelves.set i (some { x.dropWait with status := .ready })
    ready := k.ready ++ [i] }

theorem wakeShelf_of_parked {s : State} {c : CubeId} {i : ShelfId} {x : Ctx} (hcur : (s.cube c).cur ≠ .shelf i)
    (hx : (s.cube c).shelves.get i = some x) (hst : x.status = .parked) : wakeShelf s c i = s.modCube c fun k => k.woken i x := by
  unfold wakeShelf freeMonitor
  rw [modCube_modCube]
  refine modCube_congr ?_
  simp only [if_neg hcur, hx, hst, if_true]
  rfl

/-- What the waking of a cube's only monitor leaves. -/
theorem woken_of_single {k : Cube} {m : Monitor} {x : Ctx} (h : k.monitors = [m]) :
    (k.woken m.shelf x).shelves.get m.shelf = some { x with wait := .none, status := .ready } ∧
      (k.woken m.shelf x).ready = k.ready ++ [m.shelf] ∧ (k.woken m.shelf x).monitors = [] :=
  ⟨by simp [Cube.woken, Ctx.dropWait, Vector.get_eq_getElem], rfl, by simp [Cube.woken, h]⟩

section
variable {s : State} {c : CubeId} {m : Monitor} {x : Ctx} (hmon : (s.cube c).monitors = [m]) (hcur : (s.cube c).cur ≠ .shelf m.shelf)
  (hx : (s.cube c).shelves.get m.shelf = some x) (hst : x.status = .parked)
include hmon hcur hx hst

/-- A notification that meets the only monitor's target wakes its strand, and the word is not watched any longer. -/
theorem notifyMonitors_of_met {v : Word} (hv : m.target.toNat ≤ v.toNat) (hahead : readAhead s c m.addr = false)
    (hnotes : s.notes = [(c, m.addr, v)]) : notifyMonitors s c m.addr =
      { s.modCube c (fun k => k.woken m.shelf x) with notes := [], watches := s.watches.filter fun w => w != (m.addr, c) } := by
  have hwake : wakeShelf { s with notes := [] } c m.shelf = State.modCube { s with notes := [] } c fun k => k.woken m.shelf x :=
    wakeShelf_of_parked hcur hx hst
  have hempty : ((s.cube c).woken m.shelf x).monitors = [] := (woken_of_single hmon).2.2
  have hcube : State.cube { s with notes := [] } c = s.cube c := rfl
  unfold notifyMonitors
  simp [hahead, hnotes, hcube, hmon, hv, hwake, hempty]
  rfl

/-- A poll that meets the only monitor's target wakes its strand. -/
theorem pollMonitor_of_met {v : Word} (hv : m.target.toNat ≤ v.toNat) (hpoll : m.poll = true) (hquiet : Quiet s)
    (hpath : pathCarries s c.val x.sid m.addr = true) (hval : packLE ((List.range 8).map fun k => placeByte s (m.addr + k)) = v.toNat) :
    pollMonitor s c m.shelf = s.modCube c fun k => k.woken m.shelf x := by
  unfold pollMonitor
  simp [hmon, hpoll, hx, hpath, fireReads_quiet s hquiet, hval, hv, wakeShelf_of_parked hcur hx hst]

end

/-- Settles O39: a read that returns as its value and the wait say, and the waking of a cube's only monitor. -/
theorem counterWaits : Obligations.CounterWaits := by
  unfold Obligations.CounterWaits
  intro s c id w r
  have hvalue : (r.value.setWidth 64 : Word).toNat = r.value.toNat % 2 ^ 64 := BitVec.toNat_setWidth 64 r.value
  rw [← hvalue]
  refine ⟨fun h hv => ?_, fun h hv hpark hroom i hcur hready => ?_, fun h hv hpark => ?_, fun hwait hrun => ?_,
    fun m x v hmon hcur hx hst hv => ⟨fun hahead hnotes => ?_, fun hpoll hquiet hpath hval => ?_⟩⟩
  · refine ⟨_, (exec_cwaitReadReturn c s).trans (congrArg Host.Outcome.next (waitReturns_of_met h hv)), ?_, rfl, rfl⟩
    exact congrArg Cube.core (cube_modCube_self (s.dropRead id) c fun k => k.waits (.satisfied (r.value.setWidth 64)))
  · have hparks := (waitReturns_of_unmet_parks h hv hcur hpark hroom).trans (parkStrand_of_none (s := s.dropRead id) i w hready)
    have hcube := cube_modCube_self (s.dropRead id) c fun k => { k.waits .parked with
      monitors := k.monitors ++ [⟨i, w.key, w.target, w.va, !(w.watched && s.watches.contains (w.key, c))⟩] }
    exact ⟨_, (exec_cwaitReadReturn c s).trans (congrArg Host.Outcome.next hparks), congrArg Cube.core hcube,
      (congrArg Cube.cur hcube).trans hcur, congrArg Cube.monitors hcube⟩
  · have hcube := cube_modCube_self (s.dropRead id) c fun k => k.waits (.spinning { w with counted := true })
    have hmons := congrArg Cube.monitors hcube
    exact ⟨_, (exec_cwaitReadReturn c s).trans (congrArg Host.Outcome.next
      ((waitReturns_of_unmet_spins h hv hpark).trans (countFull_of_spin hpark))), congrArg Cube.core hcube, hmons⟩
  · have hexec := exec_cwaitSpinReread c s
    simp only [execCwaitSpinReread, hwait, hrun, if_true] at hexec
    exact ⟨_, hexec, rfl, rfl, rfl⟩
  · have hcube := cube_modCube_self s c fun k => k.woken m.shelf x
    have hwoken := woken_of_single (x := x) hmon
    rw [← hcube] at hwoken
    obtain ⟨hshelf, hready, hempty⟩ := hwoken
    exact ⟨_, (exec_monitorNotify c m.addr s).trans (congrArg Host.Outcome.next
      (notifyMonitors_of_met hmon hcur hx hst hv hahead hnotes)), rfl, hshelf, hready, hempty, rfl⟩
  · have hcube := cube_modCube_self s c fun k => k.woken m.shelf x
    have hwoken := woken_of_single (x := x) hmon
    rw [← hcube] at hwoken
    obtain ⟨hshelf, hready, hempty⟩ := hwoken
    exact ⟨_, (exec_monitorPoll c m.shelf s).trans (congrArg Host.Outcome.next
      (pollMonitor_of_met hmon hcur hx hst hv hpoll hquiet hpath hval)), hshelf, hready, hempty, rfl⟩

end Sys2Proof.Machine

/-! PROOFS. Walks and invalidations of translations (R97, R103 to R106, R163). -/
namespace Sys2Proof.Machine
open Sys2Proof.Say

/-! ### Walks -/

/-- A walk starts that is the first of its requester, whose turn it is, within the limits (R104). -/
theorem startWalk_of_turn {s : State} {k : Nat} {m : Miss} (hm : s.misses[k]? = some m) (hwalking : m.walking = false)
    (hres : m.res = none) (hown : walksOf s m.req < 8) (hall : (s.misses.filter fun n => n.walking).length < 64)
    (hfirst : ∀ j n, j < k → s.misses[j]? = some n → n.req ≠ m.req ∨ n.walking = true ∨ n.res.isSome = true)
    (hturn : ∀ n ∈ s.misses, n.startable s = true → walkRank s m.req ≤ walkRank s n.req) :
    startWalk s k = { s with misses := s.misses.set k { m with walking := true }, walkTurn := Fin.ofNat 10 (m.req.place + 1) } := by
  have hstart : m.startable s = true := by simp [Miss.startable, hwalking, hres, hown]
  have htake : ((s.misses.take k).all fun n => n.req != m.req || n.walking || n.res.isSome) = true := by
    rw [List.all_eq_true]
    intro n hn
    obtain ⟨j, hj⟩ := List.mem_iff_getElem?.1 hn
    rw [List.getElem?_take] at hj
    split at hj
    · next hlt => simpa [or_assoc] using hfirst j n hlt hj
    · exact absurd hj nofun
  have hnone : (s.misses.any fun n => n.startable s && decide (walkRank s n.req < walkRank s m.req)) = false := by
    rw [List.any_eq_false]
    intro n hn
    by_cases h : n.startable s = true
    · simp [Nat.not_lt.2 (hturn n hn h)]
    · simp [h]
  simp only [startWalk, hm, hstart, htake, hnone, Bool.not_false, Bool.and_true, Bool.true_and, decide_eq_true_eq]
  exact if_pos hall

/-- What a walk's leaf leaves in a cube of those that it answers: its TLBs alone change. -/
theorem foldl_modCube {f : CubeId → Cube → Cube} (cs : List CubeId) (hcs : cs.Nodup) (s : State) (d : CubeId) :
    (cs.foldl (fun s c => s.modCube c (f c)) s).cube d = if d ∈ cs then f d (s.cube d) else s.cube d := by
  induction cs generalizing s with
  | nil => rfl
  | cons c cs ih =>
    obtain ⟨hnot, hnodup⟩ := List.nodup_cons.1 hcs
    rw [List.foldl_cons, ih hnodup]
    by_cases hdc : d = c
    · subst hdc
      rw [if_neg hnot, cube_modCube_self, if_pos List.mem_cons_self]
    · simp only [cube_modCube_ne s c d _ hdc, List.mem_cons, hdc, false_or]

theorem serves_iff (m : Miss) (q : Requester) : m.serves q = true ↔ m.req = q ∨ ∃ w ∈ m.waiters, w.1 = q := by
  simp [Miss.serves]

/-- The state as a walk's leaf leaves it, but for the TLBs. -/
theorem fillTlbs_frame (s : State) (m : Miss) (va : VA) (p : Word) (lvl : Nat) (ptrs : List (Nat × Nat)) :
    (fillTlbs s m va p lvl ptrs).mem = s.mem ∧ (fillTlbs s m va p lvl ptrs).misses = s.misses := by
  have hfold : ∀ (cs : List CubeId) (f : CubeId → Cube → Cube) (u : State), (cs.foldl (fun s c => s.modCube c (f c)) u).mem = u.mem ∧
      (cs.foldl (fun s c => s.modCube c (f c)) u).misses = u.misses := by
    intro cs f
    induction cs with
    | nil => exact fun u => ⟨rfl, rfl⟩
    | cons c cs ih => exact fun u => ih (u.modCube c (f c))
  exact hfold _ _ _

theorem cube_fillTlbs_of_serves {s : State} {m : Miss} {c : CubeId} (h : m.serves (.cube c) = true) (va : VA) (p : Word) (lvl : Nat)
    (ptrs : List (Nat × Nat)) : ((fillTlbs s m va p lvl ptrs).cube c).tlb = tlbEntryOf m.asn va p lvl :: (s.cube c).tlb.take 4095 ∧
      ((fillTlbs s m va p lvl ptrs).cube c).core = (s.cube c).core := by
  have hmem : c ∈ (List.finRange 8).filter fun c => m.serves (.cube c) := List.mem_filter.2 ⟨List.mem_finRange c, h⟩
  unfold fillTlbs
  simp only []
  rw [foldl_modCube _ ((List.nodup_finRange 8).filter _), if_pos hmem]
  exact ⟨rfl, rfl⟩

theorem cube_fillTlbs_of_not_serves {s : State} {m : Miss} {c : CubeId} (h : m.serves (.cube c) = false) (va : VA) (p : Word) (lvl : Nat)
    (ptrs : List (Nat × Nat)) : (fillTlbs s m va p lvl ptrs).cube c = s.cube c := by
  have hmem : c ∉ (List.finRange 8).filter fun c => m.serves (.cube c) := by simp [h]
  exact (foldl_modCube _ ((List.nodup_finRange 8).filter _) _ c).trans (if_neg hmem)

/-- The TLBs as the end of a walk leaves them. -/
def State.walked (s : State) (m : Miss) : State :=
  match walk s m.asn (BitVec.ofNat 52 (m.vpn * 4096)) with
  | .leaf p lvl => fillTlbs s m (BitVec.ofNat 52 (m.vpn * 4096)) p lvl (walkPath s m.asn (BitVec.ofNat 52 (m.vpn * 4096))).2
  | .fault _ => s

theorem walked_of_fault {s : State} {m : Miss} {f : BitVec 4} (h : walk s m.asn (BitVec.ofNat 52 (m.vpn * 4096)) = .fault f) :
    s.walked m = s := by
  rw [State.walked, h]
theorem walked_of_leaf {s : State} {m : Miss} {p : Word} {l : Nat} (h : walk s m.asn (BitVec.ofNat 52 (m.vpn * 4096)) = .leaf p l) :
    s.walked m = fillTlbs s m (BitVec.ofNat 52 (m.vpn * 4096)) p l (walkPath s m.asn (BitVec.ofNat 52 (m.vpn * 4096))).2 := by
  rw [State.walked, h]
theorem mem_walked (s : State) (m : Miss) : (s.walked m).mem = s.mem := by
  cases h : walk s m.asn (BitVec.ofNat 52 (m.vpn * 4096)) with
  | fault f => rw [walked_of_fault h]
  | leaf p l => rw [walked_of_leaf h, (fillTlbs_frame s m _ p l _).1]

/-- A walk whose reads meet no error ends with its outcome for those that wait for it. -/
theorem endWalk_of_quiet {s : State} {k : Nat} {m : Miss} (hm : s.misses[k]? = some m) (hwalking : m.walking = true) (hquiet : Quiet s)
    (hlinks : ∀ a ∈ (walkPath s m.asn (BitVec.ofNat 52 (m.vpn * 4096))).1, linkCarries s 8 (dieOf s a) = true) :
    endWalk s k false = { s.walked m with misses :=
      (if m.waiters = [] then s.misses.eraseIdx k
       else s.misses.set k { m with walking := false, res := some (walk s m.asn (BitVec.ofNat 52 (m.vpn * 4096))) }) } := by
  have hall : ((walkPath s m.asn (BitVec.ofNat 52 (m.vpn * 4096))).1.all fun a => linkCarries s 8 (dieOf s a)) = true :=
    List.all_eq_true.2 hlinks
  unfold endWalk State.walked
  simp only [hm, hwalking, if_true, hall, Bool.not_true, Bool.false_eq_true, if_false, fireReads_quiet s hquiet, List.isEmpty_iff]
  cases walk s m.asn (BitVec.ofNat 52 (m.vpn * 4096)) with
  | fault f => rfl
  | leaf p lvl => rw [(fillTlbs_frame s m _ p lvl _).2]

/-! ### Invalidations -/

theorem tlbiReaches_iff (t : Tlbi) (asn : BitVec 12) (b n : Nat) : tlbiReaches t asn b n = true ↔ Names t asn b n := by
  simp [tlbiReaches, Names]

/-- What stays of a list of translations is what the `tlbi` does not name. -/
theorem mem_filter_tlbi (t : Tlbi) (es : List TlbEntry) (e : TlbEntry) :
    e ∈ es.filter (fun e => !tlbiReaches t e.asn e.base e.size) ↔ e ∈ es ∧ ¬ Names t e.asn e.base e.size := by
  rw [List.mem_filter, ← tlbiReaches_iff, Bool.not_eq_true, Bool.not_eq_true']

/-- Settles O40: the start and the end of a walk, and what the filters of a complete `tlbi` leave. -/
theorem translations : Obligations.Translations := by
  unfold Obligations.Translations
  intro s
  refine ⟨fun k m hm hwalking hres hown hall hfirst hturn => ?_, fun k m hm hwalking hquiet => ?_, fun t ht hcmds => ?_⟩
  · exact (exec_walkStart k s).trans (congrArg Host.Outcome.next (startWalk_of_turn hm hwalking hres hown hall hfirst hturn))
  · intro va hlinks x
    have hend := endWalk_of_quiet hm hwalking hquiet hlinks
    refine ⟨_, (exec_walkComplete k false s).trans (congrArg Host.Outcome.next hend), ?_, rfl, fun f hf => ?_, fun c p l hleaf => ?_⟩
    · exact mem_walked s m
    · have hcubes := congrArg State.cubes (walked_of_fault hf)
      have hcache := congrArg State.walkCache (walked_of_fault hf)
      exact ⟨hcubes, hcache⟩
    · have hcube := congrArg (fun u : State => u.cube c) (walked_of_leaf hleaf)
      refine ⟨fun hserves => ?_, fun hreq hwaiters => ?_⟩
      · have hfill := cube_fillTlbs_of_serves (s := s) ((serves_iff m (.cube c)).2 hserves) va p l (walkPath s m.asn va).2
        rw [← show (s.walked m).cube c = _ from hcube] at hfill
        exact hfill
      · have hnot : m.serves (.cube c) = false := Bool.eq_false_iff.2 fun h =>
          ((serves_iff m (.cube c)).1 h).elim hreq fun ⟨w, hw, h⟩ => hwaiters w hw h
        exact hcube.trans (cube_fillTlbs_of_not_serves hnot va p l _)
  · have hany : (s.cubes.toList.any fun k => k.cmds.any (tlbiAwaits t)) = false := by
      rw [List.any_eq_false]
      intro k hk
      obtain ⟨c, hc, rfl⟩ := List.mem_iff_getElem.1 hk
      have hnone : (s.cubes.toList[c]).cmds = [] := hcmds ⟨c, by simpa using hc⟩
      rw [hnone]
      exact Bool.false_ne_true
    have hfind : (s.tlbis.find? fun u => u.id == t.id) = some t := by simp [ht]
    have hexec := exec_tlbiComplete t.id s
    simp only [execTlbiComplete, endTlbi, hfind, hany, Bool.false_eq_true, if_false] at hexec
    refine ⟨_, hexec, by simp [ht], rfl, fun c e => ?_, fun c n e => ?_, fun hcode => ⟨?_, ?_⟩⟩
    · simpa [State.cube, Vector.get_eq_getElem] using mem_filter_tlbi t (s.cube c).tlb e
    · simpa [State.cube, Vector.get_eq_getElem] using mem_filter_tlbi t ((s.cube c).small.get n) e
    · simp [hcode]
    · have hall : ∀ asn b n, tlbiReaches t asn b n = true := fun asn b n => (tlbiReaches_iff t asn b n).2 (.inl hcode)
      simp [hall]

end Sys2Proof.Machine

/-! PROOFS. Results that land, with their votes, and interlocked results that arrive (R133, R136, R138, R155, R156). -/
namespace Sys2Proof.Machine
open Sys2Proof.Say

theorem running_of_acts {s : State} {c : CubeId} (h : Acts s c) : (s.cube c).running = true := by
  obtain ⟨hcur, hstopped, hdebug⟩ := h
  simp [Cube.running, hcur, hstopped, hdebug]

/-! ### Votes (R155, R156) -/

/-- What the conservator notes of a vote changes its own registers and logs alone. -/
theorem logVote_eq (s : State) (c : CubeId) (cls : Nat) (o : VoteResult) :
    ∃ con, logVote s c cls o = s.modCube c fun k => { k with con := con } := by
  have hce : ∀ w, ∃ con, noteFailure (logCe s c w) c cls = s.modCube c fun k => { k with con := con } :=
    fun w => ⟨_, modCube_modCube s c _ _⟩
  have hue : ∀ w, ∃ con, noteFailure (logUe s c w) c cls = s.modCube c fun k => { k with con := con } :=
    fun w => ⟨_, modCube_modCube s c _ _⟩
  cases o with
  | agree => exact ⟨(s.cube c).con, (modCube_id s c).symm⟩
  | corrected => exact hce _
  | split => exact hue _
  | residue => exact hue _

theorem core_logVote (s : State) (d c : CubeId) (cls : Nat) (o : VoteResult) : ((logVote s d cls o).cube c).core = (s.cube c).core := by
  obtain ⟨con, h⟩ := logVote_eq s d cls o
  rw [h, cube_modCube]
  split <;> rfl

/-- Copies of which the outcome lets the result land as it is. -/
theorem foldl_landVoted {o : VoteResult} (ho : o = .agree ∨ o = .corrected) (rs : List Result) (x : Ctx) :
    rs.foldl (fun y t => landVoted y t o) x = rs.foldl landResult x := by
  obtain rfl | rfl := ho <;> rfl

/-- The running context's results land as their vote allows; the rest of them stay. -/
def Cube.votes (k : Cube) (rs left : List Result) (o : VoteResult) : Cube :=
  { k with core := rs.foldl (fun y t => landVoted y t o) { k.core with results := left } }

/-- The first result that is due lands with its twins, as the vote allows. -/
theorem landOne_of_due {s : State} {c : CubeId} {front rest : List Result} {r : Result} (hacts : Acts s c)
    (hres : (s.cube c).core.results = front ++ r :: rest) (hrem : r.rem = 0) (hvalue : awaitsValue s (s.cube c).core = false)
    (hfront : ∀ q ∈ front, q.rem ≠ 0) (vote : BitVec 2) :
    landOne s c front.length vote = logVote (s.modCube c fun k =>
      k.votes (r :: rest.filter (twinOf r)) (front ++ rest.filter fun t => !twinOf r t) (voteOf r vote)) c r.cls (voteOf r vote) := by
  have hget : (s.cube c).core.results[front.length]? = some r := by simp [hres]
  have htake : (s.cube c).core.results.take front.length = front := by simp [hres]
  have hdrop : (s.cube c).core.results.drop (front.length + 1) = rest := by simp [hres]
  have hall : (front.all fun q => q.rem != 0) = true := by
    rw [List.all_eq_true]
    exact fun q hq => by simpa using hfront q hq
  have hnow : ((s.cube c).running && !awaitsValue s (s.cube c).core && r.rem == 0 && front.all fun q => q.rem != 0) = true := by
    simp [running_of_acts hacts, hvalue, hrem, hall]
  simp only [landOne, hget, htake, hdrop]
  exact if_pos hnow

/-! ### Interlocked results (R138, R178, R220) -/

/-- A value that arrives ends its read, and reaches the context that waits for it; the edge cache may drop what an acquire names. -/
theorem arriveRead_frame (s : State) (q : ReadReq) {c : CubeId} (hcur : (s.cube c).cur ≠ .none) (hsid : (s.cube c).core.sid = q.sid) :
    (arriveRead s q).reads = s.reads.filter (fun r => r.id != q.id) ∧ (arriveRead s q).mem = s.mem ∧
      ((arriveRead s q).cube c).core =
        { deliver (s.cube c).core q with acqs := (s.cube c).core.acqs.filter fun a => a.read != q.id } := by
  have hacquired : ∃ t, EdgeChanges q.cube s t ∧
      arriveRead s q = (t.dropRead q.id).modSid q.sid fun x => { deliver x q with acqs := x.acqs.filter fun a => a.read != q.id } := by
    unfold arriveRead
    refine ⟨_, ?_, rfl⟩
    split
    · split
      · exact .refl _ _
      · exact edgeChanges_acquire _ _ _ _
    · exact .refl _ _
  obtain ⟨t, ⟨e, rfl⟩, harrive⟩ := hacquired
  have hedge : ∃ e', (s.modCube q.cube fun k => { k with edge := e }).cube c = { s.cube c with edge := e' } := get_modCube_edge s q.cube c e
  obtain ⟨e', hcube⟩ := hedge
  rw [harrive]
  refine ⟨rfl, rfl, ?_⟩
  rw [cube_modSid]
  have hdrop : ∀ u : State, (u.dropRead q.id).cube c = u.cube c := fun _ => rfl
  rw [hdrop, hcube]
  exact congrArg Cube.core (modSid_of_running (k := { s.cube c with edge := e' }) _ hcur hsid)

/-- A read that is neither a `cwait`'s nor a division's arrives as it was served. -/
theorem interlockArrives_of_plain {s : State} {q : ReadReq} (hq : s.read q.id = some q) (hst : q.status = .served)
    (hwait : q.dest ≠ .wait) (hdiv : ∀ d nw tv, q.dest ≠ .division d nw tv) (vote : BitVec 2) :
    interlockArrives s q.id vote = arriveRead s q := by
  cases hd : q.dest with
  | wait => exact absurd hd hwait
  | division d nw tv => exact absurd hd (hdiv d nw tv)
  | _ => simp only [interlockArrives, hq, hst, hd]

theorem interlockArrives_of_division {s : State} {q : ReadReq} {d : SReg} {nw tv : Bool} (hq : s.read q.id = some q)
    (hst : q.status = .served) (hd : q.dest = .division d nw tv) (vote : BitVec 2) :
    interlockArrives s q.id vote = arriveRead (logVote s q.cube 1 (copiesVote tv true vote))
      { q with bad := copiesVote tv true vote == .split || copiesVote tv true vote == .residue } := by
  simp only [interlockArrives, hq, hst, hd]

/-- Data that cannot be given leave a deferred trap. -/
theorem deliver_of_bad {q : ReadReq} (hbad : q.bad = true) (hexp : ∀ p, q.dest ≠ .exposed p) (x : Ctx) :
    deliver x q = x.addPending (readTrap q) (placeOfId q.id) := by
  have hkeep : (x.results.filter fun r => q.dest != .exposed r.pos) = x.results := by
    rw [List.filter_eq_self]
    exact fun r _ => by simpa using hexp r.pos
  rw [deliver, hbad, if_pos rfl, hkeep]

theorem deliver_of_spoiled {q : ReadReq} (hbad : q.bad = true) (hexp : ∀ p, q.dest ≠ .exposed p)
    (hdiv : ∀ d nw tv, q.dest ≠ .division d nw tv) (x : Ctx) :
    deliver x q = x.addPending ⟨0x09, 0, 0, q.acc, 0, q.va⟩ (4 * q.id) := by
  have htrap : readTrap q = ⟨0x09, 0, 0, q.acc, 0, q.va⟩ := by
    cases hd : q.dest with
    | division d nw tv => exact absurd hd (hdiv d nw tv)
    | _ => simp only [readTrap, hd]; rfl
  rw [deliver_of_bad hbad hexp, htrap]
  rfl

theorem deliver_of_vector {q : ReadReq} {d : VReg} {v : Bool} (hbad : q.bad = false) (hd : q.dest = .vector d v) (x : Ctx) :
    deliver x q = toVector v ⟨false, false⟩ d (vecOf 1 fun j =>
      if q.en.getLsbD j then elemAt q.value 1 j else elemAt (x.v d) 1 j) x := by
  have hmerge : mergeBytes (x.v d) q.value q.en = vecOf 1 fun j =>
      if q.en.getLsbD j then elemAt q.value 1 j else elemAt (x.v d) 1 j :=
    mergeBytes_eq_vecOf (by decide) (by decide) (fun j _ => by rw [Nat.div_one]) (x.v d) q.value
  simp only [deliver, hbad, hd, hmerge, Bool.false_eq_true, if_false]
  rfl

theorem deliver_of_scalar {q : ReadReq} {d : SReg} {nw sx : Bool} {n : Nat} (hbad : q.bad = false) (hd : q.dest = .scalar d nw n sx)
    (x : Ctx) : deliver x q = if nw then x else x.setS d (extended n sx (q.value.toNat % 2 ^ 64)) := by
  simp only [deliver, hbad, hd, BitVec.toNat_setWidth, Bool.false_eq_true, if_false]
  rfl

theorem issued_landDue (x : Ctx) : (landDue x).issued = x.issued := by rw [landDue_eq]

theorem copiesVote_zero (tv chk : Bool) : copiesVote tv chk 0 = .agree := by cases tv <;> rfl

/-- What lands of a compare's two predicates, or of any one result. -/
theorem resultLands {s : State} {c : CubeId} {front rest : List Result} {r : Result} (hacts : Acts s c)
    (hres : (s.cube c).core.results = front ++ r :: rest) (hrem : r.rem = 0) (hvalue : awaitsValue s (s.cube c).core = false)
    (hfront : ∀ q ∈ front, q.rem ≠ 0) (vote : BitVec 2) :
    ∃ u, exec (.exposedResultLands c front.length vote) s = .next u ∧ (u.cube c).core =
      (r :: rest.filter (twinOf r)).foldl (fun y t => landVoted y t (voteOf r vote))
        { (s.cube c).core with results := front ++ rest.filter fun t => !twinOf r t } := by
  refine ⟨_, (exec_exposedResultLands c front.length vote s).trans
    (congrArg Host.Outcome.next (landOne_of_due hacts hres hrem hvalue hfront vote)), ?_⟩
  rw [core_logVote, cube_modCube_self]
  rfl

/-- Where the copies agree, nothing but the results that land changes. -/
theorem resultLands_agreed {s : State} {c : CubeId} {front rest : List Result} {r : Result} (hacts : Acts s c)
    (hres : (s.cube c).core.results = front ++ r :: rest) (hrem : r.rem = 0) (hvalue : awaitsValue s (s.cube c).core = false)
    (hfront : ∀ q ∈ front, q.rem ≠ 0) : CoreBecomes s (.exposedResultLands c front.length 0) c fun _ =>
      (r :: rest.filter (twinOf r)).foldl landResult { (s.cube c).core with results := front ++ rest.filter fun t => !twinOf r t } := by
  have hagree : voteOf r 0 = .agree := copiesVote_zero r.tv (residueChecked r)
  have hland := landOne_of_due hacts hres hrem hvalue hfront 0
  have hquiet : ∀ u : State, logVote u c r.cls .agree = u := fun _ => rfl
  rw [hagree, hquiet] at hland
  refine (exec_exposedResultLands c front.length 0 s).trans (congrArg Host.Outcome.next (hland.trans ?_))
  exact modCube_congr (s := s) (c := c) rfl

/-- A value that arrives is delivered to the running context that waits for it. -/
theorem arrives_of_arriveRead {s t : State} {q q' : ReadReq} {c : CubeId} {vote : BitVec 2} {f : Ctx → Ctx} (hacts : Acts s c)
    (hsid : (s.cube c).core.sid = q.sid) (hexec : interlockArrives s q.id vote = arriveRead t q') (hid : q'.id = q.id)
    (hsid' : q'.sid = q.sid) (ht : t.reads = s.reads ∧ t.mem = s.mem ∧ (t.cube c).core = (s.cube c).core ∧ (t.cube c).cur = (s.cube c).cur)
    (hf : ∀ x, deliver x q' = f x) : ∃ u, exec (.interlockedResultArrives q.id vote) s = .next u ∧
      u.reads = s.reads.filter (fun r => r.id != q.id) ∧
      (u.cube c).core = { f (s.cube c).core with acqs := (s.cube c).core.acqs.filter fun a => a.read != q.id } ∧ u.mem = s.mem := by
  obtain ⟨hreads, hmem, hcore, hcur⟩ := ht
  obtain ⟨hr, hm, hc⟩ := arriveRead_frame t q' (c := c) (by rw [hcur]; exact hacts.1) (by rw [hcore, hsid', hsid])
  rw [hreads, hid] at hr
  rw [hcore, hf, hid] at hc
  exact ⟨_, (exec_interlockedResultArrives q.id vote s).trans (congrArg Host.Outcome.next hexec), hr, hc, hm.trans hmem⟩

theorem logVote_frame (s : State) (d c : CubeId) (cls : Nat) (o : VoteResult) : (logVote s d cls o).reads = s.reads ∧
    (logVote s d cls o).mem = s.mem ∧ ((logVote s d cls o).cube c).core = (s.cube c).core ∧
    ((logVote s d cls o).cube c).cur = (s.cube c).cur := by
  obtain ⟨con, h⟩ := logVote_eq s d cls o
  refine ⟨by rw [h]; rfl, by rw [h]; rfl, core_logVote s d c cls o, ?_⟩
  rw [h, cube_modCube]
  split <;> rfl

/-- Settles O41: what lands is the vote's outcome, and what arrives is delivered as its destination says. -/
theorem resultEvents : Obligations.ResultEvents := by
  unfold Obligations.ResultEvents
  intro s c hacts
  refine ⟨fun hheld hvalue => ?_, fun front rest r hres hrem hvalue hfront => ?_, fun q hq hst hsid => ?_⟩
  · refine (exec_emptyBundle c s).trans (congrArg Host.Outcome.next ?_)
    rw [issueEmpty, running_of_acts hacts, hheld, hvalue]
    refine (if_pos rfl).trans (modCube_congr ?_)
    rw [← issued_landDue]
    rfl
  · have hlands := resultLands hacts hres hrem hvalue hfront
    refine ⟨resultLands_agreed hacts hres hrem hvalue hfront, fun htv => ?_, fun htv htwins => ?_, fun htv hkind hchk htwins => ?_⟩
    · obtain ⟨u, hexec, hcore⟩ := hlands 1
      have hvote : voteOf r 1 = .corrected := by rw [voteOf, htv]; rfl
      exact ⟨u, hexec, hcore.trans (foldl_landVoted (.inr hvote) _ _)⟩
    · obtain ⟨u, hexec, hcore⟩ := hlands 2
      have hvote : voteOf r 2 = .split := by rw [voteOf, htv]; rfl
      rw [hvote, htwins] at hcore
      exact ⟨u, hexec, hcore⟩
    · obtain ⟨u, hexec, hcore⟩ := hlands 3
      have hvote : voteOf r 3 = .residue := by rw [voteOf, htv, residueChecked, hchk, hkind]; rfl
      rw [hvote, htwins] at hcore
      exact ⟨u, hexec, hcore⟩
  · have hplain : ∀ {f : Ctx → Ctx}, q.dest ≠ .wait → (∀ d nw tv, q.dest ≠ .division d nw tv) → (∀ x, deliver x q = f x) → _ :=
      fun {f} hwait hdiv hf => arrives_of_arriveRead (f := f) hacts hsid (interlockArrives_of_plain hq hst hwait hdiv 0) rfl rfl
        ⟨rfl, rfl, rfl, rfl⟩ hf
    refine ⟨fun d nw n sx hd => ⟨fun hbad => ?_, fun hbad => ?_⟩, fun d v hd => ⟨fun hbad => ?_, fun hbad => ?_⟩, fun p hd hbad => ?_,
      fun d nw tv hd => ?_⟩
    · exact hplain (by simp [hd]) (by simp [hd]) (deliver_of_scalar hbad hd)
    · exact hplain (by simp [hd]) (by simp [hd])
        (deliver_of_spoiled hbad (by simp [hd]) (by simp [hd]))
    · have hvector := hplain (by simp [hd]) (by simp [hd]) (deliver_of_vector hbad hd)
      exact hvector
    · exact hplain (by simp [hd]) (by simp [hd])
        (deliver_of_spoiled hbad (by simp [hd]) (by simp [hd]))
    · have hexposed : ∀ x, deliver x q = { x with
          results := x.results.map fun r => if r.pos = p ∧ r.kind = .vector then { r with vec := q.value } else r } := fun x => by
        simp only [deliver, hbad, hd, Bool.false_eq_true, if_false]
      exact hplain (by simp [hd]) (by simp [hd]) hexposed
    · have hdivision : ∀ {vote : BitVec 2} {f : Ctx → Ctx}, (∀ x, deliver x { q with
          bad := (copiesVote tv true vote == .split || copiesVote tv true vote == .residue) } = f x) → _ := fun {vote f} hf =>
        arrives_of_arriveRead (f := f) hacts hsid (interlockArrives_of_division hq hst hd vote) rfl rfl (logVote_frame s q.cube c 1 _) hf
      have hlands : ∀ {b : Bool}, b = false → ∀ x, deliver x { q with bad := b } =
          (if nw then x else x.setS d (q.value.setWidth 64)).setLatchS 7 (q.value.setWidth 64) := by
        rintro b rfl x
        simp only [deliver, hd, Bool.false_eq_true, if_false]
      have htraps : ∀ {b : Bool}, b = true → ∀ x, deliver x { q with bad := b } =
          x.addPending (trapOf (if tv then causeVote else causeDatapath)) (4 * q.id) := by
        rintro b rfl x
        rw [deliver_of_bad rfl (by simp [hd]), readTrap, hd]
        rfl
      refine ⟨hdivision (hlands (by rw [copiesVote_zero]; rfl)), fun htv => ⟨hdivision (vote := 1) (hlands (by rw [htv]; rfl)), ?_⟩,
        fun htv => ?_⟩
      · exact hdivision (vote := 2) fun x => (htraps (by rw [htv]; rfl) x).trans (by rw [htv])
      · exact hdivision (vote := 3) fun x => (htraps (by rw [htv]; rfl) x).trans (by rw [htv])

end Sys2Proof.Machine

/-! PROOFS. Missing bundles that arrive, and the words of the noise generator (R74, R135, R147). -/
namespace Sys2Proof.Machine
open Sys2Proof.Say

/-! ### Fetch -/

/-- A translation that a port takes over changes nothing but that port's list. -/
theorem fillPort_eq (c : CubeId) (port : Fin 6) (asn : BitVec 12) (s : State) (va : VA) :
    ∃ v, fillPort c port asn s va = s.modCube c fun k => { k with small := v } := by
  unfold fillPort
  generalize hf : tlbLookup ((s.cube c).small.get port) asn va = first
  generalize hg : tlbLookup (s.cube c).tlb asn va = second
  have hsame : s.modCube c (fun k => k) = s.modCube c fun k => { k with small := (s.cube c).small } := modCube_congr rfl
  cases first with
  | some e => exact ⟨_, (modCube_congr (by simp only [hf])).trans hsame⟩
  | none => cases second with
    | none => exact ⟨_, (modCube_congr (by simp only [hf, hg])).trans hsame⟩
    | some e => exact ⟨_, modCube_congr (by simp only [hf, hg]; rfl)⟩

/-- The cube once its missing bundle has come, or its poisoned line has left a trap. -/
def Cube.fetched (k : Cube) (s : State) (t : Target) : Cube :=
  if s.poison.contains (t.key / 64) then
    { k with core := k.core.addPending ⟨0x09, 0, 0, 1, 0, k.core.pc⟩ (placeOfId s.nextId) }
  else
    { k with icache := ⟨k.core.sys.asn, k.core.pc.extractLsb' 48 4 == 0xE, k.core.pc, BitVec.ofNat 128 (memNat s.mem t.key 16)⟩ ::
        k.icache.take 32767 }

/-- A missing bundle arrives for a context that may act, with no access counted and no fault armed. -/
theorem icacheFill_of_miss {s : State} {c : CubeId} {t : Target} (hacts : Acts s c) (hmiss : fetchAt s c = .miss t)
    (hmig : t.migrate = false) (hquiet : Quiet s) :
    ∃ v, icacheFill s c = s.modCube c fun k => Cube.fetched { k with small := v } s t := by
  obtain ⟨v, hport⟩ := fillPort_eq c 0 (s.cube c).core.sys.asn s (s.cube c).core.pc
  refine ⟨v, ?_⟩
  have hcount : ∀ u : State, countAll u (.cube c) (migOf t (s.cube c).core.sys.asn (s.cube c).core.pc) = u := fun u => by
    rw [migOf, hmig]
    rfl
  have hquiet' : Quiet (s.modCube c fun k => { k with small := v }) := fun d => by
    rw [cube_modCube]
    split
    · next h => subst h; exact hquiet d
    · exact hquiet d
  unfold icacheFill
  simp only [running_of_acts hacts, Bool.not_true, Bool.false_eq_true, if_false, hmiss, hport, hcount, fireReads_quiet _ hquiet', lineOf,
    modCube_modCube]
  split
  · next h =>
    refine modCube_congr ?_
    have hpoison : s.poison.contains (t.key / 64) = true := h
    simp only [Cube.fetched, hpoison, if_true]
    rfl
  · next h =>
    refine modCube_congr ?_
    have hclean : s.poison.contains (t.key / 64) = false := Bool.eq_false_iff.2 h
    simp only [Cube.fetched, hclean, Bool.false_eq_true, if_false]
    rfl

/-! ### Noise -/

/-- The running context's generator is n. -/
def Cube.withNoise (k : Cube) (n : Noise) : Cube := { k with core := { k.core with noise := n } }
/-- The generator after a word from the entropy source, and after the next word of xorshift128+. -/
def Noise.drawn (n : Noise) (w : Word) : Noise := { n with queue := n.queue ++ [w] }
def Noise.stepped (n : Noise) : Noise :=
  { n with queue := n.queue ++ [(genNext n.a n.b).1], a := (genNext n.a n.b).2.1, b := (genNext n.a n.b).2.2 }

theorem appendNoise_of_room {s : State} {c : CubeId} (hacts : Acts s c) (hroom : (s.cube c).core.noise.queue.length < 64)
    (hwait : (s.cube c).core.wait ≠ .parked) : appendNoise s c =
      if (s.cube c).core.noise.ent then
        { s.modCube c fun k => k.withNoise ((s.cube c).core.noise.drawn (Config.entropyWord s.freeCtr)) with freeCtr := s.freeCtr + 1 }
      else s.modCube c fun k => k.withNoise (s.cube c).core.noise.stepped := by
  have hnow : ((s.cube c).running && decide ((s.cube c).core.noise.queue.length < 64) && (s.cube c).core.wait != .parked) = true := by
    simp [running_of_acts hacts, hroom, hwait]
  unfold appendNoise
  exact if_pos hnow

/-- Settles O42: what arrives for the fetch that misses, and the generator's next word. -/
theorem fetchAndNoise : Obligations.FetchAndNoise := by
  unfold Obligations.FetchAndNoise
  refine fun s c hacts => ⟨fun t hmiss hmig hquiet => ?_, fun hroom hwait => ⟨fun hent => ?_, fun hent => ?_⟩⟩
  · obtain ⟨v, hfill⟩ := icacheFill_of_miss hacts hmiss hmig hquiet
    refine ⟨_, (exec_icacheMissFill c s).trans (congrArg Host.Outcome.next hfill), rfl, fun o ho => cube_modCube_ne s c o _ ho, ?_⟩
    rw [cube_modCube_self]
    refine ⟨fun hclean => ?_, fun hpoison => ?_⟩
    · simp only [Cube.fetched, hclean, Bool.false_eq_true, if_false, and_self]
    · simp only [Cube.fetched, hpoison, if_true, and_self]
  · have happend := appendNoise_of_room hacts hroom hwait
    rw [hent] at happend
    exact (exec_noiseWordAppend c s).trans (congrArg Host.Outcome.next happend)
  · have happend := appendNoise_of_room hacts hroom hwait
    rw [if_pos hent] at happend
    have hcube := cube_modCube_self s c fun k => k.withNoise ((s.cube c).core.noise.drawn (Config.entropyWord s.freeCtr))
    exact ⟨_, _, (exec_noiseWordAppend c s).trans (congrArg Host.Outcome.next happend), congrArg Cube.core hcube⟩

end Sys2Proof.Machine

/-! PROOFS. Switches of strands: a free core, pre-emption, the quantum (R151, R152, R238, R239). -/
namespace Sys2Proof.Machine
open Sys2Proof.Say

section
variable {s : State} {c : CubeId} {i j : ShelfId} {y : Ctx} (hcur : (s.cube c).cur = .shelf i) (hrest : AtRest s (s.cube c).core.sid)
  (hwait : (s.cube c).core.wait ≠ .parked)
include hcur hrest hwait

/-- The cube once its strand, which is not parked, has gone out at the head or the tail of the ready strands. -/
theorem cube_switchOut_of_unparked (head : Bool) : (switchOut s c head).cube c = { s.cube c with
    core := landDue (s.cube c).core, shelves := (s.cube c).shelves.set i (some (saved (s.cube c).core .ready)), cur := .none, leave := .none
    ready := if head then i :: (s.cube c).ready else (s.cube c).ready ++ [i] } := by
  have hne : (s.cube c).cur ≠ .none := by rw [hcur]; exact nofun
  have hput : (s.cube c).putAway .ready = { s.cube c with
      core := landDue (s.cube c).core, shelves := (s.cube c).shelves.set i (some (saved (s.cube c).core .ready))
      cur := .none, leave := .none } := by
    rw [Cube.putAway_shelf .ready hcur]
    cases h : (s.cube c).core.wait with
    | parked => exact absurd h hwait
    | _ => rfl
  simp only [switchOut, hcur, if_neg hwait]
  rw [cube_modCube_self, cube_saveCore_of_rest .ready hne hrest, hput]

theorem mem_switchOut (head : Bool) : (switchOut s c head).mem = s.mem := by
  simp only [switchOut, hcur, if_neg hwait]
  rw [mem_modCube, mem_saveCore_of_rest .ready (by rw [hcur]; exact nofun) hrest]

/-- The strand of shelf i goes out and that of shelf j comes in. -/
theorem switched_of_unparked (head : Bool) (hpatches : (s.cube c).patches = []) (hne : j ≠ i)
    (hget : (s.cube c).shelves.get j = some y) : Switched s (loadShelf (switchOut s c head) c j) c i j ∧
      ((loadShelf (switchOut s c head) c j).cube c).ready =
        (if head then i :: (s.cube c).ready else (s.cube c).ready ++ [i]).filter (· != j) := by
  have hcube := cube_switchOut_of_unparked hcur hrest hwait head
  have hload := loadShelf_of_unpatched (s := switchOut s c head) (c := c) (j := j) (y := y)
    (by rw [hcube, vector_get_set, if_neg hne, hget]) (by rw [hcube, hpatches])
  rw [hload]
  refine ⟨⟨?_, fun z hz => ?_, ?_, ?_, ?_⟩, ?_⟩
  · rw [cube_modCube_self]
  · rw [hget] at hz
    rw [cube_modCube_self, Option.some.inj hz]
  · rw [cube_modCube_self, hcube, vector_get_set, if_pos rfl]
  · rw [cube_modCube_self]
  · rw [mem_modCube, mem_switchOut hcur hrest hwait]
  · rw [cube_modCube_self, hcube]

end

/-- A strand at rest that nothing else takes off its core may leave it. -/
theorem mayLeaveCore_of_atRest {s : State} {c : CubeId} (hrest : AtRest s (s.cube c).core.sid) (hleave : (s.cube c).leave = .none) :
    mayLeaveCore s c = true := by
  simp [mayLeaveCore, interlocksOut_of_atRest hrest, hleave]

/-- A quantum never passes before a strand of higher priority. -/
theorem expireQuantum_of_preempted {s : State} {c : CubeId} (h : preempted (s.cube c) = true) : expireQuantum s c = preempt s c := by
  cases hcur : (s.cube c).cur with
  | shelf i => simp only [expireQuantum, hcur, h, if_true]
  | _ => simp [preempted, hcur] at h

section
variable {s : State} {c : CubeId} {i : ShelfId} (hcur : (s.cube c).cur = .shelf i) (hstopped : (s.cube c).stopped = false)
  (hdebug : (s.cube c).debugHalted = false)
include hcur hstopped hdebug

theorem running_of_shelf : (s.cube c).running = true := by simp [Cube.running, hcur, hstopped, hdebug]

/-- A strand of higher priority that is ready displaces the running one. -/
theorem preempt_of_rival {j : ShelfId} (hlive : (s.cube c).hw.life = .live) (hmay : mayLeaveCore s c = true)
    (hnext : nextReady (s.cube c) = some j) (hprio : (s.cube c).core.task.prio.toNat < shelfPrio (s.cube c) j) :
    preempt s c = loadShelf (switchOut s c true) c j := by
  have hpreempted : preempted (s.cube c) = true := by
    simp [preempted, hcur, hnext, running_of_shelf hcur hstopped hdebug, Cube.computes, hlive, hprio]
  simp only [preempt, hnext, hpreempted, hmay, Bool.and_self, if_true]

/-- A quantum that has passed with no strand of higher priority ready. -/
theorem expireQuantum_of_passed (hquantum : (s.cube c).cregs.quantum ≠ 0)
    (hpassed : (s.cube c).cregs.quantum.toNat * Config.cyclesPerUs ≤ (s.cube c).quantumUsed) (hpreempted : preempted (s.cube c) = false) :
    expireQuantum s c = match (s.cube c).ready.find? fun j => shelfPrio (s.cube c) j == (s.cube c).core.task.prio.toNat with
      | some j => if mayLeaveCore s c then loadShelf (switchOut s c false) c j else s
      | none => s.modCube c fun k => { k with quantumUsed := 0 } := by
  have hcycles : quantumCycles (s.cube c) ≠ 0 :=
    Nat.mul_ne_zero (fun h => hquantum (BitVec.eq_of_toNat_eq (by simpa using h))) (by decide)
  have hnow : ((s.cube c).running && quantumCycles (s.cube c) != 0 && decide (quantumCycles (s.cube c) ≤ (s.cube c).quantumUsed)) = true := by
    simp [running_of_shelf hcur hstopped hdebug, hcycles]
    exact hpassed
  simp only [expireQuantum, hcur, hpreempted, hnow, Bool.false_eq_true, if_false, if_true] <;> rfl

end

/-- Settles O43: what each event does to the core, by `loadShelf` and `switchOut`. -/
theorem switches : Obligations.Switches := by
  unfold Obligations.Switches
  intro s c hstopped hdebug hlife htesting hpatches hleave
  refine ⟨fun j y hcur hnext hget => ?_, fun hpre => ?_, fun i hcur hrest hwait => ⟨fun j y hnext hne hget hprio => ?_,
    fun hquantum hpassed hpre => ⟨fun j y hfind hne hget => ?_, fun hnone => ?_⟩⟩⟩
  · have hin : switchIn s c = loadShelf s c j := by simp [switchIn, hstopped, hdebug, Cube.computes, hlife, htesting, hcur, hnext]
    refine ⟨_, (exec_switchIn c s).trans (congrArg Host.Outcome.next (hin.trans (loadShelf_of_unpatched hget hpatches))), ?_⟩
    rw [cube_modCube_self]
    exact ⟨rfl, rfl, rfl, rfl, rfl⟩
  · rw [exec_quantumExpiry, exec_preemption]
    exact congrArg Host.Outcome.next (expireQuantum_of_preempted hpre)
  · obtain ⟨hswitched, hready⟩ := switched_of_unparked hcur hrest hwait true hpatches hne hget
    have hpreempt := preempt_of_rival hcur hstopped hdebug hlife (mayLeaveCore_of_atRest hrest hleave) hnext
      (by rw [shelfPrio_of_get hget]; exact hprio)
    exact ⟨_, (exec_preemption c s).trans (congrArg Host.Outcome.next hpreempt), hswitched, by simp [hready, hne.symm]⟩
  · obtain ⟨hswitched, hready⟩ := switched_of_unparked hcur hrest hwait false hpatches hne hget
    have hexpire := expireQuantum_of_passed hcur hstopped hdebug hquantum hpassed hpre
    simp only [hfind, mayLeaveCore_of_atRest hrest hleave, if_true] at hexpire
    exact ⟨_, (exec_quantumExpiry c s).trans (congrArg Host.Outcome.next hexpire), hswitched, by simp [hready, hne.symm]⟩
  · have hexpire := expireQuantum_of_passed hcur hstopped hdebug hquantum hpassed hpre
    have hfind : ((s.cube c).ready.find? fun j => shelfPrio (s.cube c) j == (s.cube c).core.task.prio.toNat) = none :=
      List.find?_eq_none.2 fun j hj => by simpa using hnone j hj
    simp only [hfind] at hexpire
    exact (exec_quantumExpiry c s).trans (congrArg Host.Outcome.next hexpire)

end Sys2Proof.Machine

/-! PROOFS. How a trap is entered: what is saved, which context runs, and the watchdog (R146, R148, R150, R191). -/
namespace Sys2Proof.Machine
open Sys2Proof.Say

/-! ### The registers that results leave follow from the registers alone -/

section
variable {x y : Ctx} (h : x.regs = y.regs)
include h

theorem regs_setS_congr (d : SReg) (v : Word) : (x.setS d v).regs = (y.setS d v).regs := by
  unfold Ctx.setS
  split <;> simp [h]
theorem regs_setP_congr (d : PReg) (v : Bool) : (x.setP d v).regs = (y.setP d v).regs := by
  unfold Ctx.setP
  split <;> simp [h]
theorem regs_setM_congr (d : MReg) (v : MWord) : (x.setM d v).regs = (y.setM d v).regs := by
  unfold Ctx.setM
  split <;> simp [h]
theorem regs_setV_congr (d : VReg) (v : VWord) : (x.setV d v).regs = (y.setV d v).regs := by simp [Ctx.setV, h]

theorem regs_landResult_congr (r : Result) : (landResult x r).regs = (landResult y r).regs := by
  have hkind : ∀ {x y : Ctx}, x.regs = y.regs → ∀ r : Result, r.sec = none → (landResult x r).regs = (landResult y r).regs := by
    intro x y h r hsec
    have hp : ∀ d, x.p d = y.p d := fun d => by rw [Ctx.p, Ctx.p, h]
    have hv : ∀ d, x.v d = y.v d := fun d => by rw [Ctx.v, Ctx.v, h]
    have hm : ∀ d, x.m d = y.m d := fun d => by rw [Ctx.m, Ctx.m, h]
    simp only [landResult, hsec]
    cases r.kind with
    | scalar => simp only [Ctx.regs_setLatchS, regs_setS_congr h]
    | latchS => simp only [Ctx.regs_setLatchS, h]
    | pred => simp only [hp, regs_setP_congr h]
    | vector => simp only [Ctx.regs_setLatchV, hv, regs_setV_congr h]
    | latchV => simp only [Ctx.regs_setLatchV, h]
    | mask => simp only [hm, regs_setM_congr h]
  cases hsec : r.sec with
  | none => exact hkind h r hsec
  | some p =>
    have hfirst : ∀ x : Ctx, landResult x r = landResult (x.setS p.1 p.2) { r with sec := none } := fun x => by
      simp only [landResult, hsec]
    rw [hfirst, hfirst]
    exact hkind (regs_setS_congr h p.1 p.2) { r with sec := none } rfl

theorem regs_landDue_congr (hres : x.results = y.results) : (landDue x).regs = (landDue y).regs := by
  have hfold : ∀ (rs : List Result) {x y : Ctx}, x.regs = y.regs → (rs.foldl landResult x).regs = (rs.foldl landResult y).regs := by
    intro rs
    induction rs with
    | nil => exact fun h => h
    | cons r rs ih => exact fun h => ih (regs_landResult_congr h r)
  unfold landDue
  rw [hres]
  exact hfold _ h
end

/-! ### The trap of a task strand -/

/-- The running context with a trap's record, waiting for nothing. -/
def Ctx.trappedWith (x : Ctx) (r : TrapRec) : Ctx := { x.dropWait with sys := { x.sys with lastTrap := r } }

theorem recordOf_eq (t : Trap) (pc : VA) : trapRecord t pc = recordOf t pc := rfl

/-- The runtime context as a strand's trap starts it. -/
def Cube.trapHandler (k : Cube) (i : ShelfId) (r : TrapRec) : Ctx :=
  { k.rt with pc := k.rt.sys.tvec, sys := { k.rt.sys with trec := r, tshelf := 0x10 ||| BitVec.ofNat 5 i.val } }

/-- The cube after the trap of a strand at rest. -/
theorem cube_trapTask {s : State} {c : CubeId} {i : ShelfId} (t : Trap) (hcur : (s.cube c).cur = .shelf i)
    (hrest : AtRest s (s.cube c).core.sid) : (trapTask s c i t).mem = s.mem ∧ (trapTask s c i t).cube c =
      { (Cube.putAway { s.cube c with core := (s.cube c).core.trappedWith (recordOf t (s.cube c).core.pc) } .trapped) with
        monitors := (s.cube c).monitors.filter fun m => m.shelf != i
        rt := (s.cube c).trapHandler i (recordOf t (s.cube c).core.pc)
        core := { (s.cube c).trapHandler i (recordOf t (s.cube c).core.pc) with status := .running }
        cur := .runtime, stall := 0, quantumUsed := 0 } := by
  have hmod := cube_modCube_self s c fun k => k.modCore fun x => x.trappedWith (recordOf t (s.cube c).core.pc)
  have hsave := cube_saveCore_of_rest (s := s.modCube c fun k => k.modCore fun x => x.trappedWith (recordOf t (s.cube c).core.pc))
    (c := c) .trapped (by rw [hmod]; exact fun h => nomatch hcur.symm.trans h) (by rw [hmod]; exact hrest)
  have hmem := mem_saveCore_of_rest (s := s.modCube c fun k => k.modCore fun x => x.trappedWith (recordOf t (s.cube c).core.pc))
    (c := c) .trapped (by rw [hmod]; exact fun h => nomatch hcur.symm.trans h) (by rw [hmod]; exact hrest)
  refine ⟨hmem, ?_⟩
  have hcube : ((saveCore (s.modCube c fun k => k.modCore fun x => x.trappedWith (recordOf t (s.cube c).core.pc)) c .trapped).cube c) =
    Cube.putAway { s.cube c with core := (s.cube c).core.trappedWith (recordOf t (s.cube c).core.pc) } .trapped := hsave.trans (by rw [hmod]; rfl)
  rw [Cube.putAway_shelf .trapped (by exact hcur)] at hcube ⊢
  have hunfold : trapTask s c i t = loadRuntime ((freeMonitor (saveCore (s.modCube c fun k => k.modCore fun x =>
      x.trappedWith (recordOf t (s.cube c).core.pc)) c .trapped) c i).modCube c fun k =>
        { k with rt := k.trapHandler i (recordOf t (s.cube c).core.pc) }) c := rfl
  rw [hunfold, loadRuntime, cube_modCube_self, cube_modCube_self, freeMonitor, cube_modCube_self, hcube]
  rfl

/-! ### The trap of the runtime context, and gesso's answer -/

/-- The secure context as a trap of the runtime context starts it. -/
def Cube.gessoHandler (k : Cube) (r : TrapRec) : Ctx :=
  { k.sec with pc := k.sec.sys.tvec, sys := { k.sec.sys with trec := r, tshelf := 0 } }

/-- Gesso's answer with no strand ready leaves the core free. -/
theorem gessoResponds_of_idle {s : State} {c : CubeId} (hcur : (s.cube c).cur = .secure) (hrest : AtRest s (s.cube c).core.sid)
    (hready : (s.cube c).ready = []) : (gessoResponds s c).mem = s.mem ∧
      ∃ con, (gessoResponds s c).cube c = { (s.cube c).putAway .ready with con := con } := by
  have hne : (s.cube c).cur ≠ .none := by rw [hcur]; exact nofun
  have hcube : ∀ w, ∃ con, (logUe (saveCore s c .ready) c w).cube c = { (s.cube c).putAway .ready with con := con } := fun w =>
    ⟨_, by rw [logUe, cube_modCube_self, cube_saveCore_of_rest .ready hne hrest]⟩
  obtain ⟨con, hcon⟩ := hcube (logRecord 13 0 0)
  have hnone : nextReady ((logUe (saveCore s c .ready) c (logRecord 13 0 0)).cube c) = none :=
    nextReady_of_empty (by rw [hcon, Cube.putAway_secure .ready hcur]; exact hready)
  rw [gessoResponds, dispatchNext_of_none hnone]
  exact ⟨mem_saveCore_of_rest .ready hne hrest, con, hcon⟩

/-- The secure context's state before gesso answers. -/
theorem trapRuntime_eq {s : State} {c : CubeId} (t : Trap) (hcur : (s.cube c).cur = .runtime) (hrest : AtRest s (s.cube c).core.sid) :
    ∃ v, trapRuntime s c t = gessoResponds v c ∧ v.mem = s.mem ∧ v.items = s.items ∧ v.reads = s.reads ∧ v.cube c =
      { (Cube.putAway { s.cube c with core := (s.cube c).core.trappedWith (recordOf t (s.cube c).core.pc) } .trapped) with
        sec := (s.cube c).gessoHandler (recordOf t (s.cube c).core.pc)
        core := { (s.cube c).gessoHandler (recordOf t (s.cube c).core.pc) with status := .running }
        cur := .secure, stall := 0, quantumUsed := 0 } := by
  have hmod := cube_modCube_self s c fun k => k.modCore fun x => x.trappedWith (recordOf t (s.cube c).core.pc)
  have hsave := saveCore_of_rest (s := s.modCube c fun k => k.modCore fun x => x.trappedWith (recordOf t (s.cube c).core.pc))
    (c := c) .trapped (by rw [hmod]; exact fun h => nomatch hcur.symm.trans h) (by rw [hmod]; exact hrest)
  have hunfold : trapRuntime s c t = gessoResponds (loadSecure ((saveCore (s.modCube c fun k => k.modCore fun x =>
      x.trappedWith (recordOf t (s.cube c).core.pc)) c .trapped).modCube c fun k =>
        { k with sec := k.gessoHandler (recordOf t (s.cube c).core.pc) }) c) c := rfl
  have hmem := congrArg State.mem hsave
  have hitems := congrArg State.items hsave
  have hreads := congrArg State.reads hsave
  refine ⟨_, hunfold, hmem, hitems, hreads, ?_⟩
  have hcube := congrArg (State.cube · c) hsave
  simp only [cube_takeWalks, cube_modCube_self] at hcube
  have hput := Cube.putAway_runtime (k := { s.cube c with core := (s.cube c).core.trappedWith (recordOf t (s.cube c).core.pc) })
    .trapped hcur
  have hsaved : (saveCore (s.modCube c fun k => k.modCore fun x => x.trappedWith (recordOf t (s.cube c).core.pc)) c .trapped).cube c =
      Cube.putAway { s.cube c with core := (s.cube c).core.trappedWith (recordOf t (s.cube c).core.pc) } .trapped := hcube
  rw [hput] at hsaved ⊢
  rw [loadSecure, cube_modCube_self, cube_modCube_self, hsaved]
  rfl

/-! ### Traps that are pending, and those that wait for the core -/

theorem takePending_of_idle {s : State} {c : CubeId} {t : Trap} {ts : List Trap} (hacts : Acts s c)
    (hpending : (s.cube c).core.pending = t :: ts) (hrest : AtRest s (s.cube c).core.sid) : takePending s c =
      enterTrap (s.modCube c fun k => { k with core := { k.core with pending := ts, pendAt := k.core.pendAt.drop 1 } }) c t := by
  simp only [takePending, hpending, running_of_acts hacts, interlocksOut_of_atRest hrest, Bool.not_false, Bool.and_self, if_true] <;> rfl

theorem fireWatchdog_of_stalled {s : State} {c : CubeId} (hacts : Acts s c) (hleave : (s.cube c).leave = .none)
    (hon : (s.cube c).cregs.wdog ≠ 0) (hstall : (s.cube c).cregs.wdog.toNat * 1024 ≤ (s.cube c).stall)
    (hwait : (s.cube c).core.wait = .none) : fireWatchdog s c = takeTrap s c ⟨0x11, 0, 0, 0, 0, 0⟩ := by
  have hne : (s.cube c).cregs.wdog.toNat ≠ 0 := fun h => hon (BitVec.eq_of_toNat_eq (by simpa using h))
  have hnow : ((s.cube c).running && (s.cube c).leave == .none && (s.cube c).cregs.wdog.toNat != 0 &&
      decide ((s.cube c).cregs.wdog.toNat * 1024 ≤ (s.cube c).stall) && (s.cube c).core.wait == .none) = true := by
    simp [running_of_acts hacts, hleave, hne, hstall, hwait]
  unfold fireWatchdog
  exact if_pos hnow

theorem noteDead_of_other {s : State} {c : CubeId} {t : Trap} (h : t.cause ≠ 0x0A) : noteDead s c t = s := by
  exact if_neg h

/-- A trap waits while interlocked operations of its context are out. -/
theorem takeTrap_of_out {s : State} {c : CubeId} {t : Trap} (hcause : t.cause ≠ 0x0A) (hcur : (s.cube c).cur ≠ .none)
    (hout : interlocksOut s (s.cube c).core.sid = true) : takeTrap s c t = s.modCube c fun k => { k with leave := .trap t } := by
  simp [takeTrap, noteDead_of_other hcause, hout, hcur]

section
variable {s : State} {c : CubeId} {t : Trap} (hleave : (s.cube c).leave = .trap t)
include hleave

theorem issueCore_of_leave : issueCore s c = leaveNow s c := by
  have hne : ((s.cube c).leave != .none) = true := by rw [hleave]; rfl
  rw [issueCore, if_pos hne]

/-- Until the interlocked operations are complete the core issues nothing. -/
theorem issueCore_of_out (hout : interlocksOut s (s.cube c).core.sid = true) : issueCore s c = s := by
  rw [issueCore_of_leave hleave, leaveNow]
  exact if_pos hout

theorem issueCore_of_trap (hidle : interlocksOut s (s.cube c).core.sid = false) (hpending : (s.cube c).core.pending = []) :
    issueCore s c = enterTrap (s.modCube c fun k => { k with core := landDue k.core, leave := .none }) c t := by
  have hnone : ((s.modCube c fun k => { k.modCore landDue with leave := .none }).cube c).core.pending = [] := by
    rw [cube_modCube_self]
    exact (Ctx.pending_landDue _).trans hpending
  rw [issueCore_of_leave hleave, leaveNow]
  simp only [hidle, Bool.false_eq_true, if_false, hleave, hnone, List.isEmpty_nil, if_true] <;> rfl
end

/-- The number of a shelf stands beside the bit that says that there is one. -/
theorem tshelf_eq (i : ShelfId) : (0x10 ||| BitVec.ofNat 5 i.val : BitVec 5) = 0x10 + BitVec.ofNat 5 i.val := by
  revert i
  decide

/-- What the trap of a task strand leaves (R146, R148, R191). -/
theorem enterTrap_of_shelf {s : State} {c : CubeId} {i : ShelfId} (t : Trap) (hcur : (s.cube c).cur = .shelf i)
    (hrest : AtRest s (s.cube c).core.sid) :
    let u := enterTrap s c t
    (u.cube c).cur = .runtime ∧ (u.cube c).core.mode = (s.cube c).rt.mode ∧ (u.cube c).core.pc = (s.cube c).rt.sys.tvec ∧
      (u.cube c).core.regs = (s.cube c).rt.regs ∧ (u.cube c).core.sys.trec = recordOf t (s.cube c).core.pc ∧
      (u.cube c).core.sys.tshelf = 0x10 + BitVec.ofNat 5 i.val ∧
      (u.cube c).monitors = (s.cube c).monitors.filter (fun m => m.shelf != i) ∧ u.mem = s.mem ∧
      ∃ x, (u.cube c).shelves.get i = some x ∧ x.status = .trapped ∧ x.sys.lastTrap = recordOf t (s.cube c).core.pc ∧
        x.pc = (s.cube c).core.pc ∧ x.wait = .none ∧ x.regs = (landDue (s.cube c).core).regs := by
  obtain ⟨hmem, hcube⟩ := cube_trapTask t hcur hrest
  have henter : enterTrap s c t = trapTask s c i t := by rw [enterTrap, hcur]
  intro u
  rw [show u = trapTask s c i t from henter, hcube, Cube.putAway_shelf .trapped (by exact hcur)]
  refine ⟨rfl, rfl, rfl, rfl, rfl, tshelf_eq i, rfl, hmem, _, (vector_get_set ..).trans (if_pos rfl), rfl, ?_⟩
  have hland := landDue_eq ((s.cube c).core.trappedWith (recordOf t (s.cube c).core.pc))
  refine ⟨by rw [hland]; rfl, by rw [hland]; rfl, rfl, ?_⟩
  exact regs_landDue_congr (x := (s.cube c).core.trappedWith (recordOf t (s.cube c).core.pc)) (y := (s.cube c).core) rfl rfl

/-- What a trap of the runtime context leaves, when no strand is ready. -/
theorem enterTrap_of_runtime {s : State} {c : CubeId} (t : Trap) (hcur : (s.cube c).cur = .runtime)
    (hrest : AtRest s (s.cube c).core.sid) (hready : (s.cube c).ready = []) (hsec : AtRest s (s.cube c).sec.sid) :
    let u := enterTrap s c t
    (u.cube c).cur = .none ∧ (u.cube c).sec.sys.trec = recordOf t (s.cube c).core.pc ∧ (u.cube c).sec.pc = (s.cube c).sec.sys.tvec ∧
      (u.cube c).rt.status = .trapped ∧ (u.cube c).rt.sys.lastTrap = recordOf t (s.cube c).core.pc ∧ u.mem = s.mem := by
  obtain ⟨v, heq, hvmem, hvitems, hvreads, hv⟩ := trapRuntime_eq t hcur hrest
  rw [Cube.putAway_runtime .trapped (by exact hcur)] at hv
  have hrest' : AtRest v (v.cube c).core.sid := by
    rw [hv]
    exact ⟨by rw [hvitems]; exact hsec.1, by rw [hvreads]; exact hsec.2⟩
  obtain ⟨hmem, con, hu⟩ := gessoResponds_of_idle (by rw [hv]) hrest' (by rw [hv]; exact hready)
  have henter : enterTrap s c t = trapRuntime s c t := by rw [enterTrap, hcur]
  have hout := Cube.putAway_secure (k := v.cube c) .ready (by rw [hv])
  rw [hv] at hout
  rw [hv, hout] at hu
  have hland := landDue_eq { (s.cube c).gessoHandler (recordOf t (s.cube c).core.pc) with status := .running }
  have hlandrt := landDue_eq ((s.cube c).core.trappedWith (recordOf t (s.cube c).core.pc))
  intro u
  rw [show u = gessoResponds v c from henter.trans heq, hu]
  exact ⟨rfl, by rw [hland]; rfl, by rw [hland]; rfl, rfl, by rw [hlandrt]; rfl, hmem.trans hvmem⟩

theorem enterTrap_of_secure {s : State} {c : CubeId} (t : Trap) (hcur : (s.cube c).cur = .secure) :
    ((enterTrap s c t).cube c).stopped = true ∧ ((enterTrap s c t).cube c).core = (s.cube c).core ∧ (enterTrap s c t).mem = s.mem := by
  have henter : enterTrap s c t = trapSecure s c := by rw [enterTrap, hcur]
  rw [henter, trapSecure, logUe, cube_modCube_self, cube_modCube_self]
  exact ⟨rfl, rfl, rfl⟩

/-- Settles O44: when a trap is taken, and what each kind of context finds then. -/
theorem trapEntry : Obligations.TrapEntry := by
  unfold Obligations.TrapEntry
  refine fun s c => ⟨fun t ts hacts hpending hrest => ?_, fun hacts hleave hon hstall hwait => ?_, fun t hcause hcur => ⟨fun hout => ?_,
    fun hidle => ?_⟩, fun t hleave => ⟨issueCore_of_out hleave, issueCore_of_trap hleave⟩, fun t hrest => ?_⟩
  · exact (exec_trapEntry c s).trans (congrArg Host.Outcome.next (takePending_of_idle hacts hpending hrest))
  · exact (exec_watchdog c s).trans (congrArg Host.Outcome.next (fireWatchdog_of_stalled hacts hleave hon hstall hwait))
  · exact takeTrap_of_out hcause hcur hout
  · rw [takeTrap_of_idle t hidle, noteDead_of_other hcause]
  · exact ⟨fun i hcur => enterTrap_of_shelf t hcur hrest, fun hcur hready hsec => enterTrap_of_runtime t hcur hrest hready hsec,
      fun hcur => enterTrap_of_secure t hcur⟩

end Sys2Proof.Machine

/-! PROOFS. What the services of the schedulers do through a launch's address space (R408): where their accesses go, and what
a write or a counter add of theirs leaves. -/
namespace Sys2Proof.Machine
open Sys2Proof.Say

/-! ### Where a service's access goes -/

/-- What decides where an access of a bridge's engine goes is the same in both states. -/
structure SameWays (s u : State) : Prop where
  mem : u.mem = s.mem
  poison : u.poison = s.poison
  misses : u.misses = s.misses
  walkCache : u.walkCache = s.walkCache
  astBase : u.astBase = s.astBase
  secu : u.secu = s.secu
  bridge : u.atl.onBridge1 = s.atl.onBridge1
  regs : u.fab.regs = s.fab.regs
  ports : u.fab.ports = s.fab.ports
  entries : u.fab.entries = s.fab.entries
  pairs : u.fab.pairs = s.fab.pairs
  hw : ∀ c, (u.cube c).hw = (s.cube c).hw

section
variable {s u : State} (h : SameWays s u)
include h

theorem walkRead_congr (a : Nat) : walkRead u a = walkRead s a := by
  have hoff : stackOff u a = stackOff s a := by
    unfold stackOff
    split
    · rw [h.hw]
    · rfl
  rw [walkRead, walkRead, hoff, h.mem, h.poison]

theorem walkLevels_congr (va : VA) (lvl table : Nat) : walkLevels u va lvl table = walkLevels s va lvl table := by
  induction lvl generalizing table with
  | zero => rfl
  | succ lvl ih =>
    rw [walkLevels, walkLevels, walkRead_congr h]
    simp only [ih]

theorem walk_congr (asn : BitVec 12) (va : VA) : walk u asn va = walk s asn va := by
  have hcache : cachedTable u asn va = cachedTable s asn va := funext fun lvl => by rw [cachedTable, cachedTable, h.walkCache]
  unfold walk
  simp only [hcache, walkRead_congr h, walkLevels_congr h, h.astBase]

theorem svcAgent_congr (asn : BitVec 12) : svcAgent u asn = svcAgent s asn := by
  simp only [svcAgent, svcBridge, h.bridge]

theorem translated_congr (asn : BitVec 12) (va : VA) : translated u (svcAgent s asn) va = translated s (svcAgent s asn) va := by
  simp only [translated, svcAgent, delivered, h.misses]

theorem resolve_congr (asn : BitVec 12) (va : VA) : resolve u (svcAgent s asn) va = resolve s (svcAgent s asn) va := by
  unfold resolve translateVA
  simp only [translated_congr h, walk_congr h]

theorem mustWalk_congr (asn : BitVec 12) (va : VA) : mustWalk u (svcAgent u asn) va = mustWalk s (svcAgent s asn) va := by
  rw [svcAgent_congr h, mustWalk, mustWalk, translated_congr h]

theorem peerEntry_congr (p k : Nat) : peerEntry u p k = peerEntry s p k := by
  simp only [peerEntry, peerPlace, h.entries, h.poison, h.mem, h.regs] <;> rfl

theorem peerFails_congr (p : Nat) : peerFails u p = peerFails s p := by
  simp only [peerFails, peerDead, peerReachable, portsTo, peerEntry_congr h, h.regs, h.ports]

theorem inWindow_congr (key : Nat) : inWindow u key = inWindow s key := by
  have hkey : rwKey u = rwKey s := by simp only [rwKey, rwPeer, rwBase, h.regs] <;> rfl
  rw [inWindow, inWindow, hkey, h.regs]

theorem SameWays.keySpace (key : Nat) : keySpace u key = keySpace s key := keySpace_congr h.hw h.secu key

theorem regionSecure_congr (d : Nat) : regionSecure u d = regionSecure s d := by
  simp only [regionSecure, regionOf, h.secu]
end

/-- A page of a leaf has a size. -/
theorem pageSize_ne_zero (n : Nat) : pageSize n ≠ 0 := by
  unfold pageSize
  split <;> decide

/-- A service reaches only what a leaf leads to. -/
theorem leaf_of_resolve {s : State} {asn : BitVec 12} {va : VA} {t : Target} (h : resolve s (svcAgent s asn) va = .ok t) :
    t.page ≠ 0 ∧ t.isLocal = false := by
  have hmode : ((svcAgent s asn).mode == Mode.task) = true := rfl
  have hnone : ∀ o, localOffset (svcAgent s asn).part o = none := fun o => by
    have hpart : (svcAgent s asn).part = .reset := rfl
    rw [hpart]
    simp [localOffset, Partition.reset]
  unfold resolve at h
  simp only [hmode, if_true, hnone] at h
  split at h
  · split at h
    · exact absurd h nofun
    · cases h
      exact ⟨pageSize_ne_zero _, rfl⟩
  · split_ifs at h

section
variable {s u : State} (h : SameWays s u)
include h

theorem checkTarget_congr {t : Target} (hpage : t.page ≠ 0) (hloc : t.isLocal = false) (ag : Agent) (need : Need) (core : Bool) :
    checkTarget u ag need core t = checkTarget s ag need core t := by
  have hspace : t.space u = t.space s := by simp only [Target.space, hloc, Bool.false_eq_true, if_false, h.keySpace]
  unfold checkTarget
  simp only [regionSecure_congr h, hspace]
  cases hsp : t.space s with
  | shelf c i o => simp [hpage, leafReaches]
  | _ => rfl

theorem svcTarget_congr (asn : BitVec 12) (need : Need) (va : VA) : svcTarget u asn need va = svcTarget s asn need va := by
  unfold svcTarget
  simp only [svcAgent_congr h, resolve_congr h, inWindow_congr h]
  cases hr : resolve s (svcAgent s asn) va with
  | fault k => rfl
  | ok t =>
    obtain ⟨hpage, hloc⟩ := leaf_of_resolve hr
    simp only [checkTarget_congr h hpage hloc]
    cases t.peer with
    | none => rfl
    | some p => simp only [peerFails_congr h]

theorem pathCarries_congr (die sid key : Nat) : pathCarries u die sid key = pathCarries s die sid key := by
  have hdie : ∀ d, dieOf u d = dieOf s d := fun d => by
    simp only [dieOf, hostBridge, decoderOf, h.secu]
  have hlink : ∀ a b, linkCarries u a b = linkCarries s a b := fun a b => by simp only [linkCarries, h.ports]
  have hto : ∀ p, portsTo u p = portsTo s p := fun p => by simp only [portsTo, peerEntry_congr h, h.regs, h.ports]
  simp only [pathCarries, portCarries, hdie, hlink, hto, h.ports, h.pairs]

theorem svcCarried_congr (asn : BitVec 12) (va : VA) : svcCarried u asn va = svcCarried s asn va := by
  unfold svcCarried
  simp only [svcAgent_congr h, resolve_congr h, pathCarries_congr h, svcBridge, h.bridge]
  cases resolve s (svcAgent s asn) va with
  | fault k => rfl
  | ok t =>
    simp only []
    cases t.peer with
    | none => rfl
    | some p => simp only [peerFails_congr h]
end

/-! ### What the accesses of services change -/

/-- u is s after accesses of services: beside memory, edge caches, checksum records, marks on lines, notes, writes that wait at
windows, and the fabric's registers, nothing differs. -/
def Served (s u : State) : Prop :=
  ∃ m cs ow po no wq fb, u = { s with mem := m, cubes := cs, owners := ow, poison := po, notes := no, winq := wq, fab := fb } ∧
    ∀ c, ∃ e r, cs.get c = { s.cube c with edge := e, recs := r }

theorem Served.refl (s : State) : Served s s :=
  ⟨s.mem, s.cubes, s.owners, s.poison, s.notes, s.winq, s.fab, rfl, fun c => ⟨(s.cube c).edge, (s.cube c).recs, rfl⟩⟩
theorem Served.trans {s t u : State} (h : Served s t) (h' : Served t u) : Served s u := by
  obtain ⟨m, cs, ow, po, no, wq, fb, rfl, hcs⟩ := h
  obtain ⟨m', cs', ow', po', no', wq', fb', rfl, hcs'⟩ := h'
  refine ⟨m', cs', ow', po', no', wq', fb', rfl, fun c => ?_⟩
  obtain ⟨e, r, hc⟩ := hcs c
  obtain ⟨e', r', hc'⟩ := hcs' c
  exact ⟨e', r', hc'.trans (congrArg (fun k : Cube => { k with edge := e', recs := r' }) hc)⟩
theorem served_withFab (s : State) (fb : Fabric) : Served s { s with fab := fb } :=
  ⟨s.mem, s.cubes, s.owners, s.poison, s.notes, s.winq, fb, rfl, fun c => ⟨(s.cube c).edge, (s.cube c).recs, rfl⟩⟩
theorem Served.cube {s u : State} (h : Served s u) (c : CubeId) : ∃ e r, u.cube c = { s.cube c with edge := e, recs := r } := by
  obtain ⟨m, cs, ow, po, no, wq, fb, rfl, hcs⟩ := h
  exact hcs c
theorem Served.atl {s u : State} (h : Served s u) : u.atl = s.atl := by
  obtain ⟨m, cs, ow, po, no, wq, fb, rfl, -⟩ := h
  rfl
theorem Served.misses {s u : State} (h : Served s u) : u.misses = s.misses := by
  obtain ⟨m, cs, ow, po, no, wq, fb, rfl, -⟩ := h
  rfl
theorem Served.quiet {s u : State} (h : Served s u) (hq : Quiet s) : Quiet u := fun c => by
  obtain ⟨e, r, hc⟩ := h.cube c
  rw [hc]
  exact hq c
theorem Served.hw {s u : State} (h : Served s u) (c : CubeId) : (u.cube c).hw = (s.cube c).hw := by
  obtain ⟨e, r, hc⟩ := h.cube c
  rw [hc]

/-- An access that is counted changes the counters of pages alone (R102). -/
theorem countAccess_eq (s : State) (who : Requester) (a : BitVec 12 × VA × Nat) :
    ∃ mc mq, countAccess s who a = { s with fab := { s.fab with migCounts := mc, migQueue := mq } } := by
  unfold countAccess
  simp only []
  split_ifs
  · exact ⟨s.fab.migCounts, s.fab.migQueue, rfl⟩
  all_goals exact ⟨_, _, rfl⟩
theorem countAll_eq (s : State) (who : Requester) (as : List (BitVec 12 × VA × Nat)) :
    ∃ mc mq, countAll s who as = { s with fab := { s.fab with migCounts := mc, migQueue := mq } } := by
  unfold countAll
  induction as generalizing s with
  | nil => exact ⟨s.fab.migCounts, s.fab.migQueue, rfl⟩
  | cons a as ih =>
    obtain ⟨mc, mq, h⟩ := countAccess_eq s who a
    obtain ⟨mc', mq', h'⟩ := ih (countAccess s who a)
    rw [h] at h'
    rw [List.foldl_cons, h]
    exact ⟨mc', mq', h'⟩
theorem sameWays_counted (s : State) (mc mq) : SameWays s { s with fab := { s.fab with migCounts := mc, migQueue := mq } } :=
  ⟨rfl, rfl, rfl, rfl, rfl, rfl, rfl, rfl, rfl, rfl, rfl, fun _ => rfl⟩
theorem served_countAll (s : State) (who : Requester) (as : List (BitVec 12 × VA × Nat)) : Served s (countAll s who as) := by
  obtain ⟨mc, mq, h⟩ := countAll_eq s who as
  rw [h]
  exact served_withFab s _

theorem served_svcLost (s : State) (asn : BitVec 12) (va : VA) : Served s (svcLost s asn va) := by
  unfold svcLost
  split
  · split
    · split
      · exact served_withFab s _
      · exact .refl s
    · exact .refl s
  · exact .refl s

theorem served_svcTouch {s : State} (h : Quiet s) (asn : BitVec 12) (need : Need) (va : VA) (n : Nat) :
    Served s (svcTouch s asn need va n) := by
  unfold svcTouch
  generalize granules va n = gs
  induction gs generalizing s with
  | nil => exact .refl s
  | cons a gs ih =>
    rw [List.foldl_cons]
    have hstep : Served s (match svcTarget s asn need a with
        | some t =>
          let s := countAll s (.bridge (svcBridge s)) (migOf t asn a)
          let m := min (4096 - a.toNat % 4096) (n - (a.toNat - va.toNat))
          if need == .write then s else fireReads s ((List.range ((t.key % 64 + m + 63) / 64)).map fun k => lineOf t.key + k)
        | none => svcLost s asn a) := by
      split
      · next t _ =>
        have hcount := served_countAll s (.bridge (svcBridge s)) (migOf t asn a)
        simp only []
        split
        · exact hcount
        · rw [fireReads_quiet _ (hcount.quiet h)]
          exact hcount
      · exact served_svcLost s asn a
    exact hstep.trans (ih (hstep.quiet h))

theorem served_homeWrite (s : State) (m : Mode) (who : Writer) (tag : BitVec 12) (cells : List (Nat × Byte)) :
    Served s (homeWrite s m who tag cells) := by
  obtain ⟨all, cs, ow, po, no, wq, h, hcs⟩ := homeWrite_eq s m who tag cells
  exact ⟨_, cs, ow, po, no, wq, s.fab, h, fun c => ⟨(s.cube c).edge, hcs c⟩⟩
theorem served_engCoherence (s : State) (id : Nat) (cells : List (Nat × Byte)) : Served s (engCoherence s true id cells) := by
  obtain ⟨cs, h, hcs⟩ := engCoherence_glob s id cells
  exact ⟨s.mem, cs, s.owners, s.poison, s.notes, s.winq, s.fab, h, fun c => (hcs c).imp fun e he => ⟨(s.cube c).recs, he⟩⟩
theorem served_svcPut (w : Service) (s : State) (t : Target) (bs : List Byte) : Served s (svcPut w s t bs) :=
  (served_engCoherence s 0 _).trans (served_homeWrite _ _ _ _ _)

section
variable {s : State} (h : Quiet s)
include h

theorem served_svcWrite (w : Service) (asn : BitVec 12) (va : VA) (bs : List Byte) : Served s (svcWrite w s asn va bs) := by
  have htouch := served_svcTouch h asn .write va bs.length
  unfold svcWrite
  simp only []
  split
  · exact htouch.trans (served_svcPut w _ _ _)
  · exact htouch
theorem served_svcAdd (w : Service) (asn : BitVec 12) (va : VA) (amt : Word) : Served s (svcAdd w s asn va amt) := by
  have htouch := served_svcTouch h asn .both va 8
  unfold svcAdd
  simp only []
  split
  · exact .refl s
  · split
    · split
      · exact htouch
      · exact htouch.trans (served_svcPut w _ _ _)
    · exact htouch
theorem served_writeReport (l : Launch) (status first count cube handle : Nat) :
    Served s (writeReport s l status first count cube handle) := by
  unfold writeReport
  split
  · have hfirst := served_svcWrite h .atelier l.asn (l.report + 8) (bytesLE 8 (first % 2 ^ 24 + count * 2 ^ 24 + handle * 2 ^ 32))
    exact hfirst.trans (served_svcWrite (hfirst.quiet h) _ _ _ _)
  · exact .refl s
end

/-! ### A counter add (R235, R253) -/

/-- A word lies in one granule. -/
theorem granules_word {va : VA} (h : va.toNat % 8 = 0) : granules va 8 = [va] := by
  have hone : (va.toNat % 4096 + 8 - 1) / 4096 + 1 = 1 := by omega
  rw [granules, if_neg (by decide), hone]
  rfl

/-- Where a word can be reached, nothing but the count of its page changes as it is touched. -/
theorem svcTouch_word {s : State} (hq : Quiet s) {asn : BitVec 12} {need : Need} {va : VA} {t : Target} (hal : va.toNat % 8 = 0)
    (ht : svcTarget s asn need va = some t) :
    ∃ mc mq, svcTouch s asn need va 8 = { s with fab := { s.fab with migCounts := mc, migQueue := mq } } := by
  obtain ⟨mc, mq, hcount⟩ := countAll_eq s (.bridge (svcBridge s)) (migOf t asn va)
  refine ⟨mc, mq, ?_⟩
  have hquiet : Quiet { s with fab := { s.fab with migCounts := mc, migQueue := mq } } := hq
  rw [svcTouch, granules_word hal, List.foldl_cons, List.foldl_nil]
  simp only [ht, hcount, fireReads_quiet _ hquiet, ite_self]

theorem map_snd_cellsAt (a : Nat) (bs : List Byte) : (cellsAt a bs).map Prod.snd = bs := by
  induction bs generalizing a with
  | nil => rfl
  | cons b bs ih => rw [cellsAt_cons, List.map_cons, ih]
/-- A word that is written is read again. -/
theorem memWord_memWrite_bytesLE {m : List Host.Cell} (h : Memory.wf m) (a : Nat) (v : Word) :
    memWord (memWrite m (cellsAt a (bytesLE 8 v.toNat))) a = v := by
  have hlt : v.toNat < 256 ^ 8 := v.isLt
  rw [memWord, memNat_memWrite_bytesLE h, Nat.mod_eq_of_lt hlt, BitVec.ofNat_toNat, BitVec.setWidth_eq]

/-- The counter's word keeps what is written to it, and no second copy of it is kept. -/
theorem plain_word_of_countable {s : State} {l : Launch} {va : VA} {t : Target} (h : Countable s l va t) (bs : List Byte)
    (hlen : bs.length = 8) : Plain s ((cellsAt t.key bs).map Prod.fst) := by
  obtain ⟨-, -, -, -, -, -, hplain, -⟩ := h
  rwa [map_fst_cellsAt, hlen]

/-- A service's add to a counter of its launch in HBM: the counter's word is written, and nothing else of memory. -/
theorem mem_svcAdd_of_countable {s : State} {l : Launch} {va : VA} {t : Target} (hq : Quiet s) (h : Countable s l va t) (w : Service)
    (amt : Word) : (svcAdd w s l.asn va amt).mem =
      memWrite s.mem (cellsAt t.key (bytesLE 8 (counterSum (memWord s.mem t.key) amt).toNat)) := by
  have hplain := plain_word_of_countable h
  obtain ⟨hal, ht, hpeer, ⟨n, hn⟩, -, hclean, -, -⟩ := h
  obtain ⟨mc, mq, htouch⟩ := svcTouch_word hq hal ht
  have hways := sameWays_counted s mc mq
  generalize hu : ({ s with fab := { s.fab with migCounts := mc, migQueue := mq } } : State) = u at htouch hways
  have hop : counterOp u t amt = .cadd t.key amt := by
    rw [counterOp, hpeer, hways.keySpace, hn]
  have hclean' : u.poison.contains (lineOf t.key) = false := by rw [hways.poison]; exact hclean
  have hcells : (opEffect u.mem (counterOp u t amt)).1.map Prod.snd = bytesLE 8 (counterSum (memWord s.mem t.key) amt).toNat := by
    rw [hop, opEffect, hways.mem, caddValue_eq_counterSum]
    exact map_snd_cellsAt _ _
  have hword := hplain (bytesLE 8 (counterSum (memWord s.mem t.key) amt).toNat) (length_bytesLE 8 _)
  have hcoh := served_engCoherence u 0 (cellsAt t.key (bytesLE 8 (counterSum (memWord s.mem t.key) amt).toNat))
  obtain ⟨cs, hcs, -⟩ := engCoherence_glob u 0 (cellsAt t.key (bytesLE 8 (counterSum (memWord s.mem t.key) amt).toNat))
  have hput := putHome_homeWrite (s := engCoherence u true 0 (cellsAt t.key (bytesLE 8 (counterSum (memWord s.mem t.key) amt).toNat)))
    (cells := cellsAt t.key (bytesLE 8 (counterSum (memWord s.mem t.key) amt).toNat))
    ⟨fun a ha => by
        rw [keySpace_congr (s := s) (fun c => by rw [hcoh.hw, hways.hw]) (by rw [hcs]; exact hways.secu)]
        exact hword.1 a ha,
      fun c => by rw [hcoh.hw, hways.hw]; exact hword.2 c⟩ .task .outside (w.tag t)
  have hmem : (engCoherence u true 0 (cellsAt t.key (bytesLE 8 (counterSum (memWord s.mem t.key) amt).toNat))).mem = s.mem := by
    rw [hcs]
    exact hways.mem
  rw [svcAdd, if_neg (by omega)]
  simp only [htouch, svcTarget_congr hways, ht, hclean', Bool.false_eq_true, if_false, svcPut, hcells]
  rw [hput.mem, hmem]

/-- The counter holds the sum. -/
theorem memWord_svcAdd_of_countable {s : State} {l : Launch} {va : VA} {t : Target} (hq : Quiet s) (h : Countable s l va t)
    (w : Service) (amt : Word) : memWord (svcAdd w s l.asn va amt).mem t.key = counterSum (memWord s.mem t.key) amt := by
  have hmem := mem_svcAdd_of_countable hq h w amt
  obtain ⟨-, -, -, -, -, -, -, hwf⟩ := h
  rw [hmem, memWord_memWrite_bytesLE hwf]
end Sys2Proof.Machine

/-! PROOFS. Writes of registers and windows, reads that pop an entry, and a partition that closes (R75, R92, R93, R102, R120, R230,
R251, R305, R363, R375, R376). -/
namespace Sys2Proof.Machine
open Sys2Proof.Say

/-! ### Registers of the context that runs -/

theorem nonzero_eq_reseeded (n : Noise) : Noise.nonzero { n with queue := [] } = reseeded n := by
  unfold Noise.nonzero reseeded
  split <;> rfl

/-- Ones written to broken lines repair them, and their numbering begins anew. -/
theorem repairLines_eq (x : Ctx) (v : Word) : x.repairLines v = { x with
    sys := { x.sys with broken := x.sys.broken &&& ~~~(v.setWidth 8) }
    lineSeq := Vector.ofFn fun n => if v.getLsbD n.val ∧ x.sys.broken.getLsbD n.val then 0 else x.lineSeq.get n } := by
  have hbroken : x.sys.broken &&& ~~~(v.setWidth 8 &&& x.sys.broken) = x.sys.broken &&& ~~~(v.setWidth 8) := by
    ext k hk
    simp only [BitVec.getElem_and, BitVec.getElem_not]
    cases x.sys.broken[k] <;> simp
  have hseq : ∀ n : Fin 8, (v.setWidth 8 &&& x.sys.broken).getLsbD n.val = (v.getLsbD n.val && x.sys.broken.getLsbD n.val) := fun n => by
    simp
  simp only [Ctx.repairLines, hbroken, hseq, Bool.and_eq_true]

section
variable {s : State} {c : CubeId} (hcur : (s.cube c).cur ≠ .none)
include hcur

theorem modRunning_of_running (f : Ctx → Ctx) : s.modRunning c f = s.modCube c fun k => { k with core := f k.core } := by
  rw [State.modRunning, if_neg hcur]
  rfl

theorem coreBecomes_of_modRunning {i : Instr} {f g : Ctx → Ctx} (h : exec i s = .next (s.modRunning c f))
    (hfg : f (s.cube c).core = g (s.cube c).core) : CoreBecomes s i c g := by
  rw [CoreBecomes, h, modRunning_of_running hcur]
  exact congrArg Host.Outcome.next (modCube_congr (by rw [hfg]))

theorem noiseWrites (v : Word) :
    CoreBecomes s (.noiseSeedaWrite c v) c (fun x => withNoise x (reseeded { x.noise with a := v, seedA := v })) ∧
      CoreBecomes s (.noiseSeedbWrite c v) c (fun x => withNoise x (reseeded { x.noise with b := v, seedB := v })) ∧
      CoreBecomes s (.noiseModeWrite c v) c (fun x => withNoise x (reseeded { x.noise with ent := v.getLsbD 0 })) :=
  ⟨coreBecomes_of_modRunning hcur (exec_noiseSeedaWrite c v s)
      (congrArg (withNoise _) (nonzero_eq_reseeded { (s.cube c).core.noise with a := v, seedA := v })),
    coreBecomes_of_modRunning hcur (exec_noiseSeedbWrite c v s)
      (congrArg (withNoise _) (nonzero_eq_reseeded { (s.cube c).core.noise with b := v, seedB := v })),
    coreBecomes_of_modRunning hcur (exec_noiseModeWrite c v s)
      (congrArg (withNoise _) (nonzero_eq_reseeded { (s.cube c).core.noise with ent := v.getLsbD 0 }))⟩
end

/-! ### Strands on shelves -/

/-- The strand that stands on a shelf, in its live form while it runs. -/
theorem shelfCtx_eq (k : Cube) (i : ShelfId) : shelfCtx k i = (k.shelves.get i).map fun x => if k.cur = .shelf i then k.core else x := by
  have hfind : ∀ i : Fin 16, (List.finRange 16).find? (· == i) = some i := by decide
  rw [shelfCtx, Cube.strands, List.find?_filterMap]
  cases hg : k.shelves.get i with
  | none =>
    rw [List.find?_eq_none.2, Option.bind_none, Option.map_none, Option.map_none]
    intro j _
    by_cases hj : j = i
    · subst hj
      simp [hg]
    · cases k.shelves.get j <;> simp [hj]
  | some x =>
    have hp : (fun j => ((k.shelves.get j).map fun x => (j, if k.cur = .shelf j then k.core else x)).any fun y => y.1 == i) =
        fun j => j == i && (k.shelves.get j).isSome := funext fun j => by
      cases k.shelves.get j <;> simp
    have hfound : (List.finRange 16).find? (fun j => j == i && (k.shelves.get j).isSome) = some i := by
      rw [← hfind i]
      refine List.find?_congr fun j _ => ?_
      by_cases hj : j = i
      · subst hj
        simp [hg]
      · simp [hj]
    rw [hp, hfound, Option.bind_some, hg, Option.map_some, Option.map_some, Option.map_some]

theorem exec_schEndWrite_of_trapped {s : State} {c : CubeId} {v : Word} {i : ShelfId} {x : Ctx} (hv : v.toNat % 32 = 16 + i.val)
    (hcur : (s.cube c).cur ≠ .shelf i) (hget : (s.cube c).shelves.get i = some x) (hst : x.status = .trapped) :
    exec (.schEndWrite c v) s = .next (s.modCube c fun k => { k with
      shelves := k.shelves.set i.val (some { x with
        status := .ending, task := { x.task with ending := some (v.extractLsb' 8 8) } }) i.isLt }) := by
  have hi : (v.setWidth 4 : BitVec 4).toFin = i := by
    apply Fin.ext
    show (v.setWidth 4).toNat = i.val
    rw [BitVec.toNat_setWidth]
    have := i.isLt
    omega
  have hbit : v.getLsbD 4 = true := by
    rw [BitVec.getLsbD, Nat.testBit_eq_decide_div_mod_eq]
    have := i.isLt
    simp only [decide_eq_true_eq]
    omega
  rw [exec_schEndWrite, execSchEndWrite, writeSchEnd]
  simp only [hi, shelfCtx_eq, hget, Option.map_some, if_neg hcur]
  rw [if_pos ⟨hbit, hst, hcur⟩]
  exact congrArg Host.Outcome.next (modCube_congr (by rw [Cube.modShelf, hget, Option.map_some]))

theorem exec_shelfWindowWrite_of_empty {s : State} {c : CubeId} {i : ShelfId} (off n : Nat) (v : Word)
    (h : (s.cube c).shelves.get i = none) : exec (.shelfWindowWrite c i off n v) s = .next s := by
  rw [exec_shelfWindowWrite, execShelfWindowWrite, shelfWrite, h]
  rfl

theorem exec_shelfWindowWrite_of_open {s : State} {c : CubeId} {i : ShelfId} (off n : Nat) (v : Word)
    (h : (s.cube c).shelves.get i ≠ none) (hopen : (s.cube c).cur ≠ .shelf i ∨ (s.cube c).debugHalted = true) :
    exec (.shelfWindowWrite c i off n v) s = .next (s.modCube c fun k => { k with
      patches := k.patches ++ (cellsAt off (bytesLE n v.toNat)).map fun d => (i, d.1, d.2) }) := by
  rcases hopen with hcur | hhalted
  · have hrefused : shelfWriteRefused s c i.val = false := by
      unfold shelfWriteRefused
      dsimp only
      split
      · next j hj =>
        have hne : j.val ≠ i.val := fun he => hcur (hj.trans (congrArg Sel.shelf (Fin.ext he)))
        simp [hne]
      · rfl
    rw [exec_shelfWindowWrite, execShelfWindowWrite, shelfWrite, hrefused]
    simp [h]
  · exact exec_shelfWindowWrite_of_debugHalted off n v h hhalted

/-! ### Windows and reads that pop -/

theorem sysregWindowWrites (s : State) (c : CubeId) (v : Word) (m : BitVec 12) :
    exec (.sysregWindowWrite c 0x101 v false) s =
        .next (s.modCube c fun k => { k with cregs := { k.cregs with quantum := v.setWidth 32 } }) ∧
      exec (.sysregWindowWrite c 0x700 v true) s = .next { s with secu := { s.secu with world := v.setWidth 7 } } ∧
      (mayWrite .runtime m.toNat = false → exec (.sysregWindowWrite c m v false) s = .next s) := by
  have hquantum : (0x101 : BitVec 12).toNat = 0x101 := rfl
  have hworld : (0x700 : BitVec 12).toNat = 0x700 := rfl
  have hmay : mayWrite .runtime 0x101 = true ∧ mayWrite .secure 0x700 = true := by decide
  refine ⟨?_, ?_, fun h => ?_⟩ <;> rw [exec_sysregWindowWrite, execSysregWindowWrite, sysWrite]
  · simp only [hquantum, hmay, Bool.false_eq_true, Bool.not_true, if_false]
    rw [if_pos (by decide), writeSeq, modCregs]
  · simp only [hworld, hmay, if_true, Bool.false_eq_true, Bool.not_true, if_false]
    rw [if_neg (by decide), if_neg (by decide), if_neg (by decide), if_neg (by decide), if_neg (by decide), writeSec, modSecu]
  · simp [h]

theorem conInjectWrites (s : State) (c : CubeId) (v : Word) :
    ConBecomes s (.conInjaddrWrite c v) c (fun q => { q with injAddr := v.extractLsb' 6 42, injArm := false }) ∧
      ∃ arm, ConBecomes s (.conInjctlWrite c v) c (fun q => { q with
        injKind := v.extractLsb' 1 2, injFired := q.injFired && !v.getLsbD 4, injArm := arm }) ∧
        (arm = true ↔ (s.cube c).con.injArm = false ∧ v.getLsbD 0 = true ∧ v.extractLsb' 1 2 ≠ 3 ∧
          InCube c (s.cube c).con.injAddr.toNat) := by
  refine ⟨rfl, !(s.cube c).con.injArm && v.getLsbD 0 && v.extractLsb' 1 2 != 3 && injectable c (s.cube c).con.injAddr.toNat, ?_, ?_⟩
  · rw [ConBecomes, exec_conInjctlWrite, execConInjctlWrite, writeInjCtl, modCon]
    exact congrArg Host.Outcome.next (modCube_congr rfl)
  · have hin : ∀ n, injectable c n = true ↔ InCube c n := fun n => by
      rw [injectable, InCube, Bool.or_eq_true, Bool.and_eq_true, beq_iff_eq, decide_eq_true_iff, decide_eq_true_iff]
    simp only [Bool.and_eq_true, Bool.not_eq_true', bne_iff_ne, hin, and_assoc]

theorem mem_newHandshakes {s : State} {n : BitVec 4} {v : Word} {p : BitVec 10} :
    p ∈ ((List.range 64).filter fun b => v.getLsbD b && s.fab.regs.dead.getLsbD (64 * n.toNat + b)).map
        (fun b => BitVec.ofNat 10 (64 * n.toNat + b)) ↔
      p.toNat / 64 = n.toNat ∧ v.getLsbD (p.toNat % 64) = true ∧ s.fab.regs.dead.getLsbD p.toNat = true := by
  have hn : n.toNat < 16 := n.isLt
  rw [List.mem_map]
  constructor
  · rintro ⟨b, hb, rfl⟩
    obtain ⟨hlt, hon⟩ := List.mem_filter.1 hb
    rw [List.mem_range] at hlt
    rw [Bool.and_eq_true] at hon
    have hp : (BitVec.ofNat 10 (64 * n.toNat + b)).toNat = 64 * n.toNat + b := by
      rw [BitVec.toNat_ofNat]
      exact Nat.mod_eq_of_lt (by omega)
    rw [hp]
    exact ⟨by omega, by rw [show (64 * n.toNat + b) % 64 = b by omega]; exact hon.1, hon.2⟩
  · rintro ⟨hdiv, hv, hdead⟩
    have hp : 64 * n.toNat + p.toNat % 64 = p.toNat := by omega
    refine ⟨p.toNat % 64, List.mem_filter.2 ⟨List.mem_range.2 (by omega), ?_⟩, ?_⟩
    · rw [hp, hv, hdead]
      rfl
    · rw [hp, BitVec.ofNat_toNat, BitVec.setWidth_eq]

theorem fabDeadWrites (s : State) (n : BitVec 4) (v : Word) : ∃ ps : List (BitVec 10), exec (.fabDeadWrite n v) s =
      .next { s with fab := { s.fab with handshakes := s.fab.handshakes ++ ps } } ∧
    ∀ p : BitVec 10, p ∈ s.fab.handshakes ++ ps ↔ p ∈ s.fab.handshakes ∨
      (p.toNat / 64 = n.toNat ∧ v.getLsbD (p.toNat % 64) = true ∧ s.fab.regs.dead.getLsbD p.toNat = true) := by
  refine ⟨_, rfl, fun p => ?_⟩
  rw [List.mem_append, List.mem_filter, mem_newHandshakes]
  by_cases hp : p ∈ s.fab.handshakes
  · simp [hp]
  · simp [hp]

/-! ### Strands that are to migrate -/

/-- The strands that a test names are sent away from every cube that the mask leaves out. -/
def State.sendAwayFrom (s : State) (cubes : BitVec 8) (f : Ctx → Bool) : State :=
  (List.finRange 8).foldl (fun s c => if cubes.getLsbD c.val then s else s.modCube c fun k => k.sendAway f) s

theorem foldl_modCube_eq (f : CubeId → Cube → Cube) (cs : List CubeId) (s : State) :
    ∃ ks, cs.foldl (fun s c => s.modCube c (f c)) s = { s with cubes := ks } := by
  induction cs generalizing s with
  | nil => exact ⟨s.cubes, rfl⟩
  | cons c cs ih =>
    obtain ⟨ks, h⟩ := ih (s.modCube c (f c))
    exact ⟨ks, h⟩

theorem sendAwayFrom_eq (s : State) (cubes : BitVec 8) (f : Ctx → Bool) : ∃ ks, s.sendAwayFrom cubes f = { s with cubes := ks } ∧
    ∀ d : CubeId, (s.sendAwayFrom cubes f).cube d = if cubes.getLsbD d.val then s.cube d else (s.cube d).sendAway f := by
  have hfold : s.sendAwayFrom cubes f =
      ((List.finRange 8).filter fun c => !cubes.getLsbD c.val).foldl (fun s c => s.modCube c fun k => k.sendAway f) s := by
    rw [List.foldl_filter, State.sendAwayFrom]
    congr 1
    funext u c
    cases cubes.getLsbD c.val <;> rfl
  obtain ⟨ks, hks⟩ := foldl_modCube_eq (fun _ k => k.sendAway f) ((List.finRange 8).filter fun c => !cubes.getLsbD c.val) s
  refine ⟨ks, hfold.trans hks, fun d => ?_⟩
  rw [hfold, foldl_modCube (f := fun _ k => k.sendAway f) _ ((List.nodup_finRange 8).filter _)]
  have hmem : d ∈ (List.finRange 8).filter (fun c => !cubes.getLsbD c.val) ↔ ¬ cubes.getLsbD d.val = true := by
    rw [List.mem_filter]
    simp
  by_cases h : cubes.getLsbD d.val = true
  · rw [if_neg (mt hmem.1 (not_not_intro h)), if_pos h]
  · rw [if_pos (hmem.2 h), if_neg h]

theorem sendAway_nobody (k : Cube) : k.sendAway (fun _ => false) = k := by
  have hshelves : (k.sendAway fun _ => false).shelves = k.shelves := by
    ext i hi
    simp [Cube.sendAway]
  have hcore : (k.sendAway fun _ => false).core = k.core := by
    rw [Cube.sendAway]
    cases k.cur <;> simp
  calc k.sendAway (fun _ => false)
      = { k with core := (k.sendAway fun _ => false).core, shelves := (k.sendAway fun _ => false).shelves } := rfl
    _ = k := by rw [hcore, hshelves]

theorem sendAwayFrom_nobody (s : State) (cubes : BitVec 8) : s.sendAwayFrom cubes (fun _ => false) = s := by
  unfold State.sendAwayFrom
  have hstep : ∀ c, s.modCube c (fun k => k.sendAway fun _ => false) = s := fun c => by
    simp only [sendAway_nobody, modCube_id]
  induction List.finRange 8 with
  | nil => rfl
  | cons c cs ih => rw [List.foldl_cons, hstep, ite_self, ih]

/-- The strand of a shelf of a cube from which strands are sent away. -/
theorem shelves_sendAway (k : Cube) (f : Ctx → Bool) (i : ShelfId) : (k.sendAway f).shelves.get i =
    (k.shelves.get i).map fun x => if f x then { x with task := { x.task with away := true } } else x := by
  simp [Cube.sendAway, Vector.get_eq_getElem]

/-! ### Partition registers (R230) -/

theorem getD_toList_parts (v : Vector PartReg 8) (m : Fin 8) : v.toList.getD m.val default = v.get m := by
  simp [Vector.get_eq_getElem]

theorem twice_iff (s : State) (n : BitVec 3) (cubes : BitVec 8) : ((List.range 8).any fun m => m != n.toNat &&
    ((s.atl.parts.toList.getD m default).cubes &&& cubes) != 0) = true ↔ Elsewhere s n cubes := by
  rw [List.any_eq_true]
  constructor
  · rintro ⟨m, hm, hon⟩
    rw [List.mem_range] at hm
    rw [Bool.and_eq_true, bne_iff_ne, bne_iff_ne] at hon
    refine ⟨⟨m, hm⟩, fun he => hon.1 (congrArg Fin.val he), ?_⟩
    rw [← getD_toList_parts]
    exact hon.2
  · rintro ⟨m, hne, hon⟩
    refine ⟨m.val, List.mem_range.2 m.isLt, ?_⟩
    rw [Bool.and_eq_true, bne_iff_ne, bne_iff_ne, getD_toList_parts]
    exact ⟨fun he => hne (Fin.ext he), hon⟩

/-- The register of a partition holds a value, and nothing else happens yet. -/
def State.partHolds (s : State) (n : BitVec 3) (v : Word) : State :=
  { s with atl := { s.atl with parts := s.atl.parts.set n.toNat ⟨v.getLsbD 8, v.setWidth 8⟩ n.isLt } }

theorem partClosed_partHolds (s : State) (n : BitVec 3) (v : Word) :
    partClosed (s.partHolds n v) n = (!v.getLsbD 8 || v.setWidth 8 == (0 : BitVec 8)) := by
  have hreg : partReg (s.partHolds n v) n = ⟨v.getLsbD 8, v.setWidth 8⟩ := by
    simp [partReg, State.partHolds, Vector.get_eq_getElem]
  rw [partClosed, hreg]

/-- The slots of the launches of a partition. -/
def State.slotsOf (s : State) (n : BitVec 3) : List (BitVec 8) := (s.atl.board.filter fun l => l.part == n).map Launch.slot

theorem exec_schPartWrite_of_elsewhere {s : State} {n : BitVec 3} {v : Word} (h : Elsewhere s n (v.setWidth 8)) :
    exec (.schPartWrite n v) s = .next s := by
  rw [exec_schPartWrite, execSchPartWrite, writePart]
  simp only [(twice_iff s n _).2 h, if_true]

theorem exec_schPartWrite_of_nowhere {s : State} {n : BitVec 3} {v : Word} (h : ¬ Elsewhere s n (v.setWidth 8)) :
    exec (.schPartWrite n v) s = .next ((if !v.getLsbD 8 || v.setWidth 8 == (0 : BitVec 8) then
      (s.slotsOf n).foldl (fun s m => refuseRest (recallTasks s m) m 3) (s.partHolds n v) else s.partHolds n v).sendAwayFrom
        (v.setWidth 8) fun x => (s.slotsOf n).contains x.task.slot) := by
  have htwice := (twice_iff s n (v.setWidth 8)).not.2 h
  have hclosed := partClosed_partHolds s n v
  rw [exec_schPartWrite, execSchPartWrite, writePart]
  rw [State.partHolds] at hclosed
  simp only [htwice, Bool.false_eq_true, if_false, State.modAtl, hclosed] <;> rfl

/-! ### Tasks that are refused (R226, R253) -/

theorem launch_modLaunch {s : State} {slot : BitVec 8} {l : Launch} (h : s.launch slot = some l) (f : Launch → Launch)
    (hf : ∀ m, (f m).slot = m.slot) : (s.modLaunch slot f).launch slot = some (f l) := by
  have hslot : l.slot = slot := by
    have := List.find?_some h
    rwa [beq_iff_eq] at this
  have hpred : ((fun l : Launch => l.slot == slot) ∘ fun l => if l.slot = slot then f l else l) = fun l => l.slot == slot :=
    funext fun m => by by_cases hm : m.slot = slot <;> simp [hm, hf]
  have hfind : (s.atl.board.find? fun l => l.slot == slot) = some l := h
  show (s.atl.board.map fun l => if l.slot = slot then f l else l).find? _ = _
  rw [List.find?_map, hpred, hfind, Option.map_some, if_pos hslot]

/-- What decides where a service's access goes does not depend on the scoreboard. -/
theorem sameWays_modLaunch (s : State) (slot : BitVec 8) (f : Launch → Launch) : SameWays s (s.modLaunch slot f) :=
  ⟨rfl, rfl, rfl, rfl, rfl, rfl, rfl, rfl, rfl, rfl, rfl, fun _ => rfl⟩

/-- A counter of a launch is one also where nothing that decides about it differs. -/
theorem countable_congr {s u : State} (h : SameWays s u) {l m : Launch} (hasn : m.asn = l.asn) {va : VA} {t : Target}
    (hc : Countable s l va t) : Countable u m va t := by
  obtain ⟨hal, ht, hpeer, ⟨n, hn⟩, hkey, hclean, ⟨hplain, hlive⟩, hwf⟩ := hc
  exact ⟨hal, by rw [hasn, svcTarget_congr h]; exact ht, hpeer, ⟨n, by rw [h.keySpace]; exact hn⟩, hkey, by rw [h.poison]; exact hclean,
    ⟨fun a ha => by rw [h.keySpace]; exact hplain a ha, fun c => by rw [h.hw]; exact hlive c⟩, by rw [h.mem]; exact hwf⟩

theorem launch_congr {s u : State} (h : u.atl = s.atl) (slot : BitVec 8) : u.launch slot = s.launch slot := by
  rw [State.launch, State.launch, h]

theorem releaseSlot_of_short {s : State} {slot : BitVec 8} {l : Launch} (h : s.launch slot = some l)
    (hshort : l.retired + l.refused < l.ntasks) : releaseSlot s slot = s := by
  rw [releaseSlot, h]
  exact if_neg (by omega)

/-- The tasks of a launch without reports that were not handed out are refused: its counter takes one add with poison. -/
theorem refuseRest_of_countable {s : State} {l : Launch} {t : Target} {first n : Nat} (hl : s.launch l.slot = some l)
    (hreport : l.report = 0) (huntaken : l.untaken = [(first, n)]) (hn : 0 < n) (hshort : l.retired + (l.refused + n) < l.ntasks)
    (hc : Countable s l l.done t) (hq : Quiet s) (status : Nat) :
    ∃ u, Served (s.modLaunch l.slot fun l => { l with untaken := [] }) u ∧
      refuseRest s l.slot status = u.modLaunch l.slot (fun l => { l with refused := l.refused + n }) ∧
      memWord u.mem t.key = counterSum (memWord s.mem t.key) (BitVec.ofNat 64 n ||| 0x8000000000000000) ∧
      u.launch l.slot = some { l with untaken := [] } := by
  have hl' := launch_modLaunch hl (fun l => { l with untaken := [] }) fun _ => rfl
  have hc' := countable_congr (sameWays_modLaunch s l.slot fun l => { l with untaken := [] }) (m := { l with untaken := [] }) rfl hc
  have hq' : Quiet (s.modLaunch l.slot fun l => { l with untaken := [] }) := hq
  have hserved := served_svcAdd hq' .atelier l.asn l.done (BitVec.ofNat 64 n ||| poisonBit)
  have hafter : (svcAdd .atelier (s.modLaunch l.slot fun l => { l with untaken := [] }) l.asn l.done
      (BitVec.ofNat 64 n ||| poisonBit)).launch l.slot = some { l with untaken := [] } := (launch_congr hserved.atl _).trans hl'
  refine ⟨_, hserved, ?_, memWord_svcAdd_of_countable (l := { l with untaken := [] }) hq' hc' .atelier _, hafter⟩
  have hcount : untakenCount l = n := by simp [untakenCount, huntaken]
  have hreported : ∀ u : State, writeReport u { l with untaken := [] } status first 0 0 (Launch.handle { l with untaken := [] }) = u :=
    fun u => if_neg fun h => h.1 hreport
  rw [refuseRest, hl]
  simp only [huntaken, hcount, refuseTasks, hl', if_neg (Nat.pos_iff_ne_zero.1 hn), if_true, hreported]
  exact releaseSlot_of_short (launch_modLaunch hafter (fun l => { l with refused := l.refused + n }) fun _ => rfl) hshort

theorem recallTasks_of_empty {s : State} (h : ∀ d, (s.cube d).admission = []) (slot : BitVec 8) : recallTasks s slot = s := by
  unfold recallTasks
  induction List.finRange 8 with
  | nil => rfl
  | cons c cs ih => rw [List.foldl_cons, h c, List.filter_nil, List.foldl_nil, ih]

/-! ### A partition that closes (R230, R245, R253) -/

section
variable {s : State} {n : BitVec 3} {v : Word} (helse : ¬ Elsewhere s n (v.setWidth 8))
include helse

theorem schPartWrite_open (hopen : v.getLsbD 8 = true) (hcubes : v.setWidth 8 ≠ (0 : BitVec 8)) :
    ∃ u, exec (.schPartWrite n v) s = .next u ∧
      u.atl = { s.atl with parts := s.atl.parts.set n.toNat ⟨true, v.setWidth 8⟩ n.isLt } ∧ u.mem = s.mem ∧
      ∀ d : CubeId, v.getLsbD d.val = true → u.cube d = s.cube d := by
  have hclosed : (!v.getLsbD 8 || v.setWidth 8 == (0 : BitVec 8)) = false := by rw [hopen, beq_false_of_ne hcubes]; rfl
  obtain ⟨ks, hks, hcube⟩ := sendAwayFrom_eq (s.partHolds n v) (v.setWidth 8) fun x => (s.slotsOf n).contains x.task.slot
  have hexec := exec_schPartWrite_of_nowhere helse
  rw [hclosed, if_neg Bool.false_ne_true] at hexec
  refine ⟨_, hexec, ?_, ?_, fun d hd => ?_⟩
  · rw [hks, ← hopen]
    rfl
  · rw [hks]
    rfl
  · have hin : (v.setWidth 8).getLsbD d.val = true := by rw [BitVec.getLsbD_setWidth, hd, decide_eq_true d.isLt]; rfl
    rw [hcube, if_pos hin]
    rfl

variable (hclosed : v.getLsbD 8 = false ∨ v.setWidth 8 = (0 : BitVec 8))
include hclosed

theorem exec_schPartWrite_of_closed : exec (.schPartWrite n v) s = .next (((s.slotsOf n).foldl
    (fun s m => refuseRest (recallTasks s m) m 3) (s.partHolds n v)).sendAwayFrom (v.setWidth 8) fun x =>
      (s.slotsOf n).contains x.task.slot) := by
  have hshut : (!v.getLsbD 8 || v.setWidth 8 == (0 : BitVec 8)) = true := by
    rcases hclosed with h | h
    · rw [h]
      rfl
    · rw [h, BEq.rfl, Bool.or_true]
  rw [exec_schPartWrite_of_nowhere helse, if_pos hshut]

theorem schPartWrite_of_none (hnone : ∀ l ∈ s.atl.board, l.part ≠ n) : exec (.schPartWrite n v) s = .next (s.partHolds n v) := by
  have hslots : s.slotsOf n = [] := by
    rw [State.slotsOf, List.filter_eq_nil_iff.2 fun l hl => by simpa using hnone l hl]
    rfl
  rw [exec_schPartWrite_of_closed helse hclosed, hslots]
  exact congrArg Host.Outcome.next (sendAwayFrom_nobody _ _)

theorem schPartWrite_of_launch {l : Launch} {t : Target} {first k : Nat} (hboard : s.atl.board = [l]) (hpart : l.part = n)
    (hreport : l.report = 0) (hadm : ∀ d, (s.cube d).admission = []) (huntaken : l.untaken = [(first, k)]) (hk : 0 < k)
    (hshort : l.retired + l.refused + k < l.ntasks) (hc : Countable s l l.done t) (hq : Quiet s) : ∃ u,
    exec (.schPartWrite n v) s = .next u ∧ u.atl.parts = s.atl.parts.set n.toNat ⟨v.getLsbD 8, v.setWidth 8⟩ n.isLt ∧
    u.launch l.slot = some { l with untaken := [], refused := l.refused + k } ∧
    memWord u.mem t.key = counterSum (memWord s.mem t.key) (BitVec.ofNat 64 k ||| 0x8000000000000000) ∧
    ∀ (d : CubeId) (i : ShelfId) (x : Ctx), (s.cube d).shelves.get i = some x → (u.cube d).shelves.get i =
      some (if x.task.slot = l.slot ∧ v.getLsbD d.val = false then { x with task := { x.task with away := true } } else x) := by
  have hslots : s.slotsOf n = [l.slot] := by simp [State.slotsOf, hboard, hpart]
  have hways : SameWays s (s.partHolds n v) := ⟨rfl, rfl, rfl, rfl, rfl, rfl, rfl, rfl, rfl, rfl, rfl, fun _ => rfl⟩
  have hl : (s.partHolds n v).launch l.slot = some l := by
    rw [State.launch, State.partHolds]
    simp only [hboard, List.find?_cons, beq_self_eq_true]
  obtain ⟨w, hserved, hrefuse, hword, hlaunch⟩ := refuseRest_of_countable hl hreport huntaken hk (by omega)
    (countable_congr hways rfl hc) (show Quiet (s.partHolds n v) from hq) 3
  obtain ⟨ks, hks, hcube⟩ := sendAwayFrom_eq (w.modLaunch l.slot fun l => { l with refused := l.refused + k }) (v.setWidth 8)
    fun x => [l.slot].contains x.task.slot
  have hexec := exec_schPartWrite_of_closed helse hclosed
  rw [hslots, List.foldl_cons, List.foldl_nil, recallTasks_of_empty (s := s.partHolds n v) hadm, hrefuse] at hexec
  refine ⟨_, hexec, ?_, ?_, ?_, fun d i x hx => ?_⟩
  · have hparts : (w.modLaunch l.slot fun l => { l with refused := l.refused + k }).atl.parts = w.atl.parts := rfl
    rw [hks]
    exact hparts.trans (by rw [hserved.atl]; rfl)
  · rw [hks]
    exact launch_modLaunch hlaunch (fun l => { l with refused := l.refused + k }) fun _ => rfl
  · rw [hks]
    exact hword
  · obtain ⟨e, r, hw⟩ := hserved.cube d
    have hshelves : ((w.modLaunch l.slot fun l => { l with refused := l.refused + k }).cube d).shelves.get i = some x := by
      have h := congrArg (fun k : Cube => k.shelves.get i) hw
      exact h.trans hx
    have hbit : (v.setWidth 8).getLsbD d.val = v.getLsbD d.val := by
      rw [BitVec.getLsbD_setWidth, decide_eq_true d.isLt, Bool.true_and]
    rw [hcube, hbit]
    cases hin : v.getLsbD d.val with
    | true => simp [hshelves]
    | false =>
      simp only [Bool.false_eq_true, if_false, shelves_sendAway, hshelves, Option.map_some, and_true]
      simp
end

/-- Settles O45: registers of the context that runs, windows, reads that pop an entry, and a partition that opens or closes. -/
theorem registerEvents : Obligations.RegisterEvents := by
  unfold Obligations.RegisterEvents
  intro s c
  refine ⟨fun v hcur => ?_, fun v i x hv hcur hget hst => exec_schEndWrite_of_trapped hv hcur hget hst,
    fun i off n v => ⟨exec_shelfWindowWrite_of_empty off n v, exec_shelfWindowWrite_of_open off n v⟩,
    fun v m => sysregWindowWrites s c v m, ?_, ?_, ?_, fun v => conInjectWrites s c v, fun v => rfl,
    fun n v => fabDeadWrites s n v, fun n v => ⟨exec_schPartWrite_of_elsewhere, schPartWrite_open, fun helse hclosed => ?_⟩⟩
  · obtain ⟨hseeda, hseedb, hmode⟩ := noiseWrites hcur v
    refine ⟨hseeda, hseedb, hmode, coreBecomes_of_modRunning hcur (exec_seqLinesRepair c v s) (repairLines_eq _ v), ?_⟩
    have hexec : exec (.sysregWindowWrite c 0x018 v false) s =
        .next (s.modRunning c fun x => { x with sys := { x.sys with tvec := bundleVA v } }) := rfl
    exact coreBecomes_of_modRunning hcur hexec rfl
  · rw [exec_fabMigreqRead, execFabMigreqRead, popRead, List.drop_one]
  · rw [ConBecomes, exec_conCelogRead, execConCelogRead, popRead]
    simp only [List.drop_one]
  · rw [ConBecomes, exec_conUelogRead, execConUelogRead, popRead]
    simp only [List.drop_one]
  · exact ⟨schPartWrite_of_none helse hclosed, fun l t first k hboard hpart hreport hadm huntaken hk hshort hc hq =>
      schPartWrite_of_launch helse hclosed hboard hpart hreport hadm huntaken hk hshort hc hq⟩
end Sys2Proof.Machine

/-! PROOFS. Packets of peers, the header of an image, the hand-out of a batch, and the takeover by bridge 1 (R57, R226, R227, R231,
R232, R253, R366). -/
namespace Sys2Proof.Machine
open Sys2Proof.Say

/-! ### The peer's entry that the bridge dies take in -/

theorem cachePeer_eq {s : State} (h : Quiet s) (p : Nat) :
    ∃ es, cachePeer s p = { s with fab := { s.fab with entries := es } } ∧ peerEntry (cachePeer s p) p 0 = peerEntry s p 0 := by
  have hfire : ∀ ls, fireReads s ls = s := fireReads_quiet s h
  unfold cachePeer
  simp only [hfire]
  split_ifs with hcached hpoison
  · exact ⟨s.fab.entries, rfl, rfl⟩
  · exact ⟨s.fab.entries, rfl, rfl⟩
  · refine ⟨_, rfl, ?_⟩
    have hfound : peerEntry { s with fab := { s.fab with entries := (p, Vector.ofFn fun k => peerEntry s p k.val) :: s.fab.entries } } p 0 =
        (Vector.ofFn (n := 4) fun k => peerEntry s p k.val).toList.getD 0 0 := by
      rw [peerEntry]
      simp only [List.find?_cons, beq_self_eq_true]
    rw [hfound]
    rfl

theorem exec_peerLaunchPacket_of_refused {s : State} (hq : Quiet s) (bridge : Bool) (peer : BitVec 10) (p : BitVec 512)
    (h : ¬ MayLaunch s peer.toNat) : exec (.peerLaunchPacket ⟨bridge, peer⟩ p) s = .next { cachePeer s peer.toNat with
      fab := { (cachePeer s peer.toNat).fab with regs := { (cachePeer s peer.toNat).fab.regs with
        drop := if s.fab.regs.drop = BitVec.allOnes 32 then s.fab.regs.drop else s.fab.regs.drop + 1 } } } := by
  obtain ⟨es, heq, hentry⟩ := cachePeer_eq hq peer.toNat
  have hregs : (cachePeer s peer.toNat).fab.regs = s.fab.regs := by rw [heq]
  have hmay : (peerHeard (cachePeer s peer.toNat) peer.toNat && (peerEntry (cachePeer s peer.toNat) peer.toNat 0).getLsbD 55) = false := by
    rw [peerHeard, peerValid, peerDead, hentry, hregs, ← Bool.not_eq_true, Bool.and_eq_true]
    exact h
  rw [exec_peerLaunchPacket, execPeerLaunchPacket, peerLaunch, hmay, if_neg Bool.false_ne_true, dropPacket, hregs]
  rfl

theorem exec_peerLaunchPacket_of_acceptable {s : State} (hq : Quiet s) (bridge : Bool) (peer : BitVec 10) (p : BitVec 512)
    (h : MayLaunch s peer.toNat) (hstage : s.secu.stage = 4) {slot : BitVec 8}
    (hacc : Acceptable s (pktWithAsn p ((peerEntry s peer.toNat 0).extractLsb' 32 12)) slot) :
    exec (.peerLaunchPacket ⟨bridge, peer⟩ p) s =
      .next (boarded (cachePeer s peer.toNat) (pktWithAsn p ((peerEntry s peer.toNat 0).extractLsb' 32 12)) slot) := by
  obtain ⟨es, heq, hentry⟩ := cachePeer_eq hq peer.toNat
  have hregs : (cachePeer s peer.toNat).fab.regs = s.fab.regs := by rw [heq]
  have hmay : (peerHeard (cachePeer s peer.toNat) peer.toNat && (peerEntry (cachePeer s peer.toNat) peer.toNat 0).getLsbD 55) = true := by
    rw [peerHeard, peerValid, peerDead, hentry, hregs, Bool.and_eq_true]
    exact h
  have hacc' : Acceptable (cachePeer s peer.toNat) (pktWithAsn p ((peerEntry s peer.toNat 0).extractLsb' 32 12)) slot := by
    rw [heq]
    exact hacc
  have hstage' : (cachePeer s peer.toNat).secu.stage = 4 := by
    rw [heq]
    exact hstage
  rw [exec_peerLaunchPacket, execPeerLaunchPacket, peerLaunch, hmay, if_pos rfl, hentry, receivePacket, if_pos hstage',
    acceptPacket_of_acceptable hacc']

/-! ### Services with what they need at hand (R10, R104, R368) -/

theorem svcWait_of_atHand {s : State} {asn : BitVec 12} {vas : List VA} (h : AtHand s asn vas) (f : State → State) :
    svcWait s asn vas f = f s := by
  have hwalk : (vas.map fun va => (asn, va)).find? (fun n => mustWalk s (svcAgent s n.1) n.2) = none := by
    rw [List.find?_eq_none]
    intro n hn
    obtain ⟨va, hva, rfl⟩ := List.mem_map.1 hn
    rw [(h va hva).1]
    exact Bool.false_ne_true
  have hway : ((vas.map fun va => (asn, va)).all fun n => svcCarried s n.1 n.2) = true := by
    rw [List.all_eq_true]
    intro n hn
    obtain ⟨va, hva, rfl⟩ := List.mem_map.1 hn
    exact (h va hva).2
  rw [svcWait, svcWaitAll, hwalk]
  exact if_pos hway

theorem readHeader_of_accepted {s : State} {l : Launch} {h : List Byte} (hl : s.launch l.slot = some l) (hnone : l.header = none)
    (hhand : AtHand s l.asn [l.image]) (hread : svcRead (svcTouch s l.asn .read l.image 128) l.asn l.image 128 = some h)
    (hok : headerOk h = true) : readHeader s l.slot = svcDone ((svcTouch s l.asn .read l.image 128).modLaunch l.slot fun l =>
      { l with header := some (parseHeader h) }) l.asn := by
  have hhead : ¬ l.header.isSome = true := by rw [hnone]; exact Bool.false_ne_true
  rw [readHeader, hl]
  simp only [hhead, Bool.false_eq_true, if_false]
  rw [svcWait_of_atHand hhand]
  simp only [hread, hok, if_true]

theorem readHeader_of_malformed {s : State} {l : Launch} {h : List Byte} (hl : s.launch l.slot = some l) (hnone : l.header = none)
    (hhand : AtHand s l.asn [l.image]) (hread : svcRead (svcTouch s l.asn .read l.image 128) l.asn l.image 128 = some h)
    (hbad : headerOk h = false) (hanswers : AtHand s l.asn l.answers) :
    readHeader s l.slot = svcDone (refuseRest (svcTouch s l.asn .read l.image 128) l.slot 1) l.asn := by
  have hhead : ¬ l.header.isSome = true := by rw [hnone]; exact Bool.false_ne_true
  rw [readHeader, hl]
  simp only [hhead, Bool.false_eq_true, if_false]
  rw [svcWait_of_atHand hhand]
  simp only [hread, hbad, Bool.false_eq_true, if_false]
  rw [svcWait_of_atHand hanswers]

/-! ### Launches that end (R226) -/

/-- The scoreboard of a state from which a launch has gone. -/
theorem board_of_filter_map {board : List Launch} (slot : BitVec 8) (f : Launch → Launch) (hf : ∀ m, (f m).slot = m.slot) :
    ((board.map fun l => if l.slot = slot then f l else l).filter fun m => m.slot != slot) = board.filter fun m => m.slot != slot := by
  induction board with
  | nil => rfl
  | cons m ms ih =>
    rw [List.map_cons]
    by_cases hm : m.slot = slot
    · rw [if_pos hm, List.filter_cons_of_neg (by simp [hf, hm]), List.filter_cons_of_neg (by simp [hm]), ih]
    · rw [if_neg hm, List.filter_cons_of_pos (by simpa using hm), List.filter_cons_of_pos (by simpa using hm), ih]

theorem releaseSlot_of_done {s : State} {slot : BitVec 8} {l : Launch} (h : s.launch slot = some l) (hdone : l.retired + l.refused = l.ntasks) :
    releaseSlot s slot = s.modAtl fun a => { a with
      board := a.board.filter fun m => m.slot != slot, gens := a.gens.set slot.toNat (l.gen + 1) slot.isLt } := by
  rw [releaseSlot, h]
  exact if_pos hdone

/-- A launch none of whose tasks was handed out is refused as a whole, and its slot is free. -/
theorem atl_refuseRest_of_whole {s : State} {l : Launch} (hl : s.launch l.slot = some l) (hq : Quiet s) (hretired : l.retired = 0)
    (hrefused : l.refused = 0) (hsome : l.ntasks ≠ 0) (huntaken : l.untaken = [(0, l.ntasks)]) (status : Nat) :
    (refuseRest s l.slot status).atl.board = s.atl.board.filter (fun q => q.slot != l.slot) ∧
      (refuseRest s l.slot status).atl.gens.get l.slot.toFin = l.gen + 1 := by
  have hcut : ∀ m : Launch, ({ m with untaken := [] } : Launch).slot = m.slot := fun _ => rfl
  have hcount : untakenCount l = l.ntasks := by simp [untakenCount, huntaken]
  have hl' := launch_modLaunch hl (fun l => { l with untaken := [] }) hcut
  have hq' : Quiet (s.modLaunch l.slot fun l => { l with untaken := [] }) := hq
  have hreport := served_writeReport hq' { l with untaken := [] } status 0 0 0 (Launch.handle { l with untaken := [] })
  have hadd := hreport.trans (served_svcAdd (hreport.quiet hq') .atelier l.asn l.done (BitVec.ofNat 64 l.ntasks ||| poisonBit))
  generalize hu : svcAdd .atelier (writeReport (s.modLaunch l.slot fun l => { l with untaken := [] }) { l with untaken := [] } status 0 0 0
    (Launch.handle { l with untaken := [] })) l.asn l.done (BitVec.ofNat 64 l.ntasks ||| poisonBit) = u at hadd
  have hafter := launch_modLaunch ((launch_congr hadd.atl l.slot).trans hl') (fun m => { m with refused := m.refused + l.ntasks })
    fun _ => rfl
  have hall : refuseRest s l.slot status = releaseSlot (u.modLaunch l.slot fun m => { m with refused := m.refused + l.ntasks }) l.slot := by
    rw [refuseRest, hl]
    simp only [huntaken, hcount, refuseTasks, hl', if_neg hsome, if_true]
    rw [← hu]
  have hdone : l.retired + (l.refused + l.ntasks) = l.ntasks := by omega
  rw [hall, releaseSlot_of_done hafter hdone]
  refine ⟨?_, by simp [State.modAtl, Vector.get_eq_getElem]⟩
  have hboard : u.atl.board = s.atl.board.map fun m => if m.slot = l.slot then { m with untaken := [] } else m := by
    rw [hadd.atl]
    rfl
  show (u.atl.board.map fun m => if m.slot = l.slot then { m with refused := m.refused + l.ntasks } else m).filter _ = _
  rw [board_of_filter_map (f := fun m => { m with refused := m.refused + l.ntasks }) _ fun _ => rfl, hboard]
  exact board_of_filter_map _ (fun m => { m with untaken := [] }) fun _ => rfl

/-! ### Batches (R231, R232) -/

theorem mem_enqueueTask {qs : List QTask} {t q : QTask} : q ∈ enqueueTask qs t ↔ q ∈ qs ∨ q = t := by
  simp only [enqueueTask, List.mem_append, List.mem_filter, List.mem_singleton, decide_eq_true_eq]
  have := Nat.lt_or_ge q.prio.toNat t.prio.toNat
  tauto

/-- Tasks with rising indices join an admission queue. -/
theorem mem_foldl_enqueueTask {slot : BitVec 8} {prio : BitVec 2} {first : Nat} (js : List Nat) (qs : List QTask) (q : QTask) :
    q ∈ js.foldl (fun qs j => enqueueTask qs ⟨slot, BitVec.ofNat 24 (first + j), prio⟩) qs ↔
      q ∈ qs ∨ ∃ j ∈ js, q = ⟨slot, BitVec.ofNat 24 (first + j), prio⟩ := by
  induction js generalizing qs with
  | nil => simp
  | cons j js ih => rw [List.foldl_cons, ih, mem_enqueueTask, or_assoc]; simp

theorem mem_modLaunch_of_ne {s : State} {slot : BitVec 8} {f : Launch → Launch} (hf : ∀ m, (f m).slot = m.slot) {m : Launch}
    (hm : m.slot ≠ slot) : m ∈ (s.modLaunch slot f).atl.board ↔ m ∈ s.atl.board := by
  show m ∈ (s.atl.board.map fun l => if l.slot = slot then f l else l) ↔ _
  rw [List.mem_map]
  constructor
  · rintro ⟨l, hl, rfl⟩
    by_cases hs : l.slot = slot
    · rw [if_pos hs, hf] at hm
      exact absurd hs hm
    · rw [if_neg hs]
      exact hl
  · exact fun h => ⟨m, h, if_neg hm⟩

theorem mem_of_bestCube {s : State} {cs : List CubeId} {c : CubeId} (h : bestCube s cs = some c) : c ∈ cs := List.mem_of_find?_eq_some h

/-- A launch that none is served before goes to the cube that is best for it. -/
theorem placeBatch_of_best {s : State} {l : Launch} {h : Header} {c : CubeId} (hl : s.launch l.slot = some l) (hheader : l.header = some h)
    (hsome : l.untaken ≠ []) (hfirst : ∀ m ∈ s.atl.board, before m l = false) (hfits : (allocate h []).isSome = true)
    (hbest : bestCube s (cubesFor s l h) = some c) : placeBatch s l.slot c = handBatch s l c := by
  have hable : ((List.finRange 8).filter (mayRunOn s l.part h.opmask)).isEmpty = false := by
    have hplace := (List.mem_filter.1 (mem_of_bestCube hbest)).2
    rw [placeable, Bool.and_eq_true, Bool.and_eq_true] at hplace
    obtain ⟨⟨hmay, -⟩, -⟩ := hplace
    rw [List.isEmpty_eq_false_iff]
    exact List.ne_nil_of_mem (List.mem_filter.2 ⟨List.mem_finRange c, hmay⟩)
  have hnone : (allocate h []).isNone = false := by
    rw [Option.isSome_iff_exists] at hfits
    obtain ⟨p, hp⟩ := hfits
    rw [hp]
    rfl
  have hrest : l.untaken.isEmpty = false := by rw [List.isEmpty_eq_false_iff]; exact hsome
  rw [placeBatch, hl]
  simp only [hheader, hrest, hable, hnone, Bool.false_eq_true, if_false]
  rw [if_neg, if_pos hbest]
  rw [Bool.not_eq_true, List.any_eq_false]
  intro m hm
  rw [hfirst m (List.mem_of_mem_filter hm), Bool.false_and]
  exact Bool.false_ne_true

/-- n tasks of a launch, from an index on, join the cube's queue. -/
def Cube.admits (k : Cube) (l : Launch) (first n : Nat) : Cube := { k with
  admission := (List.range n).foldl (fun q j => enqueueTask q ⟨l.slot, BitVec.ofNat 24 (first + j), l.prio⟩) k.admission }
/-- n tasks from an index on have been handed to a cube. -/
def Launch.handed (l : Launch) (c : CubeId) (first n : Nat) : Launch := { l with
  untaken := takeTasks n l.untaken, batches := l.batches ++ [⟨c, first, n, (List.range n).map (first + ·)⟩] }

theorem handBatch_frame {s : State} {l : Launch} {c : CubeId} {first count : Nat} {rest : List (Nat × Nat)}
    (hl : s.launch l.slot = some l) (huntaken : l.untaken = (first, count) :: rest) :
    let n := Nat.min (Nat.min 64 (64 - (s.cube c).admission.length)) count
    (∀ q, q ∈ ((handBatch s l c).cube c).admission ↔
      q ∈ (s.cube c).admission ∨ ∃ j, j < n ∧ q = ⟨l.slot, BitVec.ofNat 24 (first + j), l.prio⟩) ∧
    (handBatch s l c).launch l.slot = some { l with
      untaken := if n < count then (first + n, count - n) :: rest else rest
      batches := l.batches ++ [⟨c, first, n, (List.range n).map (first + ·)⟩] } ∧
    (∀ m, m.slot ≠ l.slot → (m ∈ (handBatch s l c).atl.board ↔ m ∈ s.atl.board)) ∧ (handBatch s l c).mem = s.mem ∧
    ∀ d, d ≠ c → (handBatch s l c).cube d = s.cube d := by
  intro n
  have heq : handBatch s l c = (s.modCube c fun k => k.admits l first n).modLaunch l.slot fun m => m.handed c first n := by
    rw [handBatch, huntaken]
    rfl
  rw [heq]
  refine ⟨fun q => ?_, ?_, fun m hm => ?_, rfl, fun d hd => cube_modCube_ne s c d (fun k => k.admits l first n) hd⟩
  · have hadm := congrArg Cube.admission (cube_modCube_self s c fun k => k.admits l first n)
    have hmem := mem_foldl_enqueueTask (slot := l.slot) (prio := l.prio) (first := first) (List.range n) (s.cube c).admission q
    simp only [List.mem_range] at hmem
    rw [← hmem]
    exact iff_of_eq (congrArg (q ∈ ·) hadm)
  · have hlaunch := launch_modLaunch (s := s.modCube c fun k => k.admits l first n) hl (fun m => m.handed c first n) fun _ => rfl
    rw [hlaunch, Launch.handed, huntaken]
    rfl
  · exact mem_modLaunch_of_ne (s := s.modCube c fun k => k.admits l first n) (f := fun m => m.handed c first n) (fun _ => rfl) hm

/-! ### The takeover (R227) -/

theorem atelierTakeover_frame {s : State} (h : s.atl.onBridge1 = false) : ∃ u, exec .atelierTakeover s = .next u ∧
    u.atl = { s.atl with onBridge1 := true } ∧ u.mem = s.mem ∧ (u.cube 0).core = (s.cube 0).core := by
  have hexec : exec .atelierTakeover s = .next (logUe (s.modAtl fun a => { a with onBridge1 := true }) 0 (logRecord 13 0 0)) := by
    rw [exec_atelierTakeover, execAtelierTakeover, h]
    rfl
  refine ⟨_, hexec, rfl, rfl, ?_⟩
  rw [logUe, cube_modCube_self]
  rfl

/-- Settles O46: packets of peers, headers, batches, and the takeover. -/
theorem launchEvents : Obligations.LaunchEvents := by
  unfold Obligations.LaunchEvents
  intro s
  refine ⟨fun bridge peer p hq => ?_, fun l h hl hnone hhand => ?_, fun l h c first count rest hl hheader huntaken hfirst hfits hbest => ?_,
    atelierTakeover_frame⟩
  · exact ⟨exec_peerLaunchPacket_of_refused hq bridge peer p,
      fun hmay hstage slot hacc => exec_peerLaunchPacket_of_acceptable hq bridge peer p hmay hstage hacc⟩
  · intro t hread
    refine ⟨fun hok => ?_, fun hbad hq hretired hrefused hsome huntaken hanswers => ?_⟩
    · refine ⟨_, congrArg Host.Outcome.next (readHeader_of_accepted hl hnone hhand hread hok), rfl, rfl, rfl⟩
    · have hserved := served_svcTouch hq l.asn .read l.image 128
      obtain ⟨hboard, hgens⟩ := atl_refuseRest_of_whole ((launch_congr hserved.atl _).trans hl) (hserved.quiet hq) hretired hrefused hsome
        huntaken 1
      rw [hserved.atl] at hboard
      exact ⟨_, congrArg Host.Outcome.next (readHeader_of_malformed hl hnone hhand hread hbad hanswers), hboard, hgens⟩
  · have hexec : exec (.batchHandoff l.slot c) s = .next (handBatch s l c) := congrArg Host.Outcome.next
      (placeBatch_of_best hl hheader (by rw [huntaken]; exact List.cons_ne_nil _ _) hfirst hfits hbest)
    exact ⟨_, hexec, handBatch_frame hl huntaken⟩
end Sys2Proof.Machine

/-! PROOFS. The admission of a task to a shelf, and its start as its image says (R58, R74, R149, R233 to R236). -/
namespace Sys2Proof.Machine
open Sys2Proof.Say

/-! ### Shelves -/

/-- The first of sixteen shelves that is empty. -/
theorem emptyShelf_of_lowest {k : Cube} {i : ShelfId} (hi : k.shelves.get i = none) (hlow : ∀ j : ShelfId, j < i → k.shelves.get j ≠ none) :
    emptyShelf k = some i := by
  rw [emptyShelf, List.find?_eq_some_iff_getElem]
  refine ⟨by rw [hi]; rfl, i.val, by simp, by simp, fun j hj => ?_⟩
  have hfull := hlow ⟨j, by omega⟩ hj
  rw [List.getElem_finRange, Bool.not_eq_true', Option.isNone_eq_false_iff, Option.isSome_iff_ne_none]
  exact hfull

theorem shelfCtx_of_off {k : Cube} {i : ShelfId} {x : Ctx} (hget : k.shelves.get i = some x) (hcur : k.cur ≠ .shelf i) :
    shelfCtx k i = some x := by
  rw [shelfCtx_eq, hget, Option.map_some, if_neg hcur]

/-! ### Admission (R233, R234) -/

/-- A cube with one queued task that it may run returns none. -/
theorem returnUnfit_of_fit {s : State} {c : CubeId} {q : QTask} {l : Launch} {h : Header} (hadm : (s.cube c).admission = [q])
    (hl : s.launch q.slot = some l) (hheader : l.header = some h) (hmay : mayRunOn s l.part h.opmask c = true) : returnUnfit s c = s := by
  have hnone : ((s.cube c).admission.filter fun q => match s.launch q.slot with
      | some l => (match l.header with | some h => !mayRunOn s l.part h.opmask c | none => false)
      | none => false) = [] := by
    rw [hadm, List.filter_eq_nil_iff]
    intro q' hq'
    rw [List.mem_singleton.1 hq']
    simp [hl, hheader, hmay]
  unfold returnUnfit
  exact (congrArg (List.foldl (fun s q => returnTask s c q) s) hnone).trans rfl

theorem computes_of_mayRunOn {s : State} {part : BitVec 3} {opmask : BitVec 29} {c : CubeId} (h : mayRunOn s part opmask c = true) :
    (s.cube c).computes = true := by
  rw [mayRunOn, Bool.and_eq_true, Bool.and_eq_true] at h
  obtain ⟨⟨-, hlive⟩, -⟩ := h
  exact hlive

section
variable {s : State} {c : CubeId} {i : ShelfId} {l : Launch} {h : Header} {p : Partition} {q : QTask} (hl : s.launch l.slot = some l)
  (hheader : l.header = some h) (hslot : q.slot = l.slot) (hadm : (s.cube c).admission = [q]) (hmay : mayRunOn s l.part h.opmask c = true)
  (horder : orderOk l q.index.toNat = true) (hevicted : s.atl.evicted = []) (hi : (s.cube c).shelves.get i = none)
  (hlow : ∀ j : ShelfId, j < i → (s.cube c).shelves.get j ≠ none) (hroom : roomFor s c q = some p)
include hl hheader hslot hadm hmay horder hevicted hi hlow hroom

/-- The only task of a queue whose turn it is takes the lowest free shelf. -/
theorem exec_taskAdmission_of_room : exec (.taskAdmission c) s =
    .next { s.modCube c (fun k => { k with
        shelves := k.shelves.set i.val (some (startingCtx s.nextId l h q p)) i.isLt, admission := [] }) with
      nextId := s.nextId + 1 } := by
  have hlq : s.launch q.slot = some l := by rw [hslot, hl]
  have hqueued : queuedOf s q = some (l, h) := by simp only [queuedOf, hlq, hheader, Option.map_some]
  have hturn : turnOf s c q = true := by
    have hyield : yieldsTo s c q.prio = false := by rw [yieldsTo, hevicted]; rfl
    rw [turnOf, hqueued]
    simp [horder, hyield]
  have hfound : ((s.cube c).admission.find? fun q => turnOf s c q && (roomFor s c q).isSome) = some q := by
    rw [hadm, List.find?_cons, hturn, hroom]
    rfl
  rw [exec_taskAdmission, execTaskAdmission, admitTask]
  simp only [returnUnfit_of_fit hadm hlq hheader hmay, computes_of_mayRunOn hmay, Bool.not_true, Bool.false_eq_true, if_false, hfound,
    hqueued, hroom, emptyShelf_of_lowest hi hlow]
  refine congrArg Host.Outcome.next (congrArg (fun t : State => { t with nextId := s.nextId + 1 }) (modCube_congr ?_))
  simp only [hadm, List.filter_cons, bne_self_eq_false, Bool.false_eq_true, if_false, List.filter_nil]
end

theorem s_startingCtx (sid : Nat) (l : Launch) (h : Header) (q : QTask) (p : Partition) (r : SReg) : (startingCtx sid l h q p).s r = 0 := by
  unfold Ctx.s
  split
  · rfl
  · simp [startingCtx, Ctx.reset, Regs.reset, Vector.get_eq_getElem]
theorem v_startingCtx (sid : Nat) (l : Launch) (h : Header) (q : QTask) (p : Partition) (r : VReg) : (startingCtx sid l h q p).v r = 0 := by
  simp [Ctx.v, startingCtx, Ctx.reset, Regs.reset, Vector.get_eq_getElem]
theorem p_startingCtx (sid : Nat) (l : Launch) (h : Header) (q : QTask) (p : Partition) (r : PReg) :
    (startingCtx sid l h q p).p r = (r == 0) := by
  unfold Ctx.p
  split
  · next hr => rw [hr]; rfl
  · next hr => rw [beq_false_of_ne hr]; simp [startingCtx, Ctx.reset, Regs.reset, Vector.get_eq_getElem]
theorem m_startingCtx (sid : Nat) (l : Launch) (h : Header) (q : QTask) (p : Partition) (r : MReg) :
    (startingCtx sid l h q p).m r = if r = 0 then BitVec.allOnes 256 else 0 := by
  unfold Ctx.m
  split
  · rfl
  · simp [startingCtx, Ctx.reset, Regs.reset, Vector.get_eq_getElem]

/-! ### The start (R58, R74, R235, R236) -/

theorem length_queue_fillNoise (k : Nat) (n : Noise) : (fillNoise k n).queue.length = n.queue.length + k := by
  induction k generalizing n with
  | zero => rfl
  | succ k ih =>
    rw [fillNoise, ih, List.length_append, List.length_singleton]
    omega

/-- Spools that are set change a context's spools alone. -/
theorem foldl_modSpool_eq (sps : List (Nat × Spool)) (x : Ctx) :
    ∃ v, sps.foldl (fun x e => x.modSpool e.1 fun _ => e.2) x = { x with spools := v } := by
  induction sps generalizing x with
  | nil => exact ⟨x.spools, rfl⟩
  | cons e sps ih =>
    have hone : ∃ v, x.modSpool e.1 (fun _ => e.2) = { x with spools := v } := by
      unfold Ctx.modSpool
      split
      · exact ⟨_, rfl⟩
      · exact ⟨x.spools, rfl⟩
    obtain ⟨v, hv⟩ := hone
    obtain ⟨v', hv'⟩ := ih (x.modSpool e.1 fun _ => e.2)
    exact ⟨v', hv'.trans (congrArg (fun y : Ctx => { y with spools := v' }) hv)⟩

/-- What the image of a task is read and written with: services' accesses, and bytes put at their places. -/
theorem served_imageRead {s : State} (hq : Quiet s) (l : Launch) (h : Header) (x : Ctx) : Served s (imageRead s l h x) := by
  unfold imageRead
  induction imageRanges l h x generalizing s with
  | nil => exact .refl s
  | cons r rs ih =>
    have hstep := served_svcTouch hq l.asn .read r.1 r.2
    exact hstep.trans (ih (hstep.quiet hq))

theorem placeCells_eq (s : State) (tag : BitVec 12) (cells : List (Nat × Byte)) : ∃ m ow po no,
    placeCells s tag cells = { s with mem := m, owners := ow, poison := po, notes := no } := by
  unfold placeCells
  simp only [notifyWatches]
  unfold clearPoison
  split
  · exact ⟨_, _, _, _, rfl⟩
  · exact ⟨_, _, _, _, rfl⟩
theorem served_placeCells (s : State) (tag : BitVec 12) (cells : List (Nat × Byte)) : Served s (placeCells s tag cells) := by
  obtain ⟨m, ow, po, no, h⟩ := placeCells_eq s tag cells
  exact ⟨m, s.cubes, ow, po, no, s.winq, s.fab, h, fun c => ⟨(s.cube c).edge, (s.cube c).recs, rfl⟩⟩

theorem served_copyImage {s s' : State} {l : Launch} {va : VA} {n key : Nat} (h : copyImage s l va n key = some s') : Served s s' := by
  obtain ⟨bs, -, rfl⟩ := Option.map_eq_some_iff.1 h
  exact served_placeCells s _ _
theorem served_loadStores {s s' : State} {c : CubeId} {l : Launch} {h : Header} {x : Ctx} (hload : loadStores s c l h x = some s') :
    Served s s' := by
  unfold loadStores at hload
  simp only [] at hload
  split at hload
  · next t ht => exact (served_copyImage ht).trans (served_copyImage hload)
  · exact absurd hload nofun

theorem atHand_nil (s : State) (asn : BitVec 12) : AtHand s asn [] := fun _ h => absurd h List.not_mem_nil

/-- A launch without reports writes none as its batches go on. -/
theorem stepBatch_of_silent {s : State} {c : CubeId} {slot : BitVec 8} {l : Launch} (hl : s.launch slot = some l) (hno : l.reports = false)
    (i : Nat) : ∃ f : Launch → Launch, (∀ m, (f m).slot = m.slot ∧ (f m).started = m.started) ∧ stepBatch s c slot i = s.modLaunch slot f := by
  have hsilent : ∀ status first count cube handle, writeReport s l status first count cube handle = s := fun _ _ _ _ _ =>
    if_neg fun h => by rw [hno] at h; exact Bool.false_ne_true h.2
  have hsame : s = s.modLaunch slot fun m => m := by
    have hid : (fun l : Launch => if l.slot = slot then l else l) = id := funext fun m => by split <;> rfl
    rw [State.modLaunch, State.modAtl, hid, List.map_id]
  unfold stepBatch
  split
  · exact ⟨fun m => m, fun _ => ⟨rfl, rfl⟩, hsame⟩
  · next b _ =>
    rw [settleBatch, hl]
    simp only [hsilent, ite_self]
    split
    · exact ⟨fun l => { l with batches := l.batches.filter fun d => d != b }, fun _ => ⟨rfl, rfl⟩, rfl⟩
    · exact ⟨fun l => { l with batches := l.batches.map fun d => if d = b then { b with left := b.left.filter fun n => n != i } else d },
        fun _ => ⟨rfl, rfl⟩, rfl⟩

/-- The cube on a shelf of which a strand stands ready, as its image says. -/
def Cube.begun (k : Cube) (c : CubeId) (i : ShelfId) (l : Launch) (y : Ctx) (ps : List (Nat × Nat × BitVec 7)) : Cube :=
  { (if l.seen.contains c then k else edgeClear k) with
    pals := ps.foldl Palettes.put k.pals, shelves := k.shelves.set i (some y), ready := k.ready ++ [i] }
/-- The launch of a strand that has started on a cube. -/
def Launch.begun (l : Launch) (c : CubeId) : Launch :=
  { l with started := l.started + 1, seen := if l.seen.contains c then l.seen else l.seen ++ [c] }
/-- The state in which a strand stands ready, before the batch that it belongs to goes on. -/
def State.begun (s : State) (c : CubeId) (i : ShelfId) (x : Ctx) (l : Launch) (h : Header) (ps : List (Nat × Nat × BitVec 7))
    (sps : List (Nat × Spool)) : State :=
  ((s.modCube c fun k => k.begun c i l (startedCtx s x l h sps) ps).modAtl fun a =>
    { a with starts := a.starts + 1 }).modLaunch l.slot fun l => l.begun c

theorem beginStrand_eq (s : State) (c : CubeId) (i : ShelfId) (x : Ctx) (l : Launch) (h : Header) (ps : List (Nat × Nat × BitVec 7))
    (sps : List (Nat × Spool)) : beginStrand s c i x l h ps sps = stepBatch (s.begun c i x l h ps sps) c l.slot x.task.index.toNat := rfl

theorem cube_begun (s : State) (c : CubeId) (i : ShelfId) (x : Ctx) (l : Launch) (h : Header) (ps : List (Nat × Nat × BitVec 7))
    (sps : List (Nat × Spool)) : (s.begun c i x l h ps sps).cube c = (s.cube c).begun c i l (startedCtx s x l h sps) ps :=
  cube_modCube_self s c fun k => k.begun c i l (startedCtx s x l h sps) ps

section
variable {s : State} {c : CubeId} {i : ShelfId} {l : Launch} {h : Header} {x : Ctx} {ps : List (Nat × Nat × BitVec 7)}
  {sps : List (Nat × Spool)} {s' : State} (hl : s.launch l.slot = some l) (hheader : l.header = some h)
  (hget : (s.cube c).shelves.get i = some x) (hcur : (s.cube c).cur ≠ .shelf i) (hst : x.status = .starting) (hslot : x.task.slot = l.slot)
  (hno : l.reports = false) (hhand : AtHand s l.asn ((imageRanges l h x).flatMap fun r => granules r.1 r.2))
  (hps : imagePalettes (imageRead s l h x) l h x.part = some ps) (hsps : imageSpools (imageRead s l h x) l h x.part = some sps)
  (hload : loadStores (imageRead s l h x) c l h x = some s')
include hl hheader hget hcur hst hslot hno hhand hps hsps hload

theorem exec_taskStart_of_image : exec (.taskStart c i) s = .next (svcDone (beginStrand s' c i x l h ps sps) l.asn) := by
  have hstart : (x.status != .starting) = false := by rw [hst]; rfl
  have hanswers : l.answers.tail = [] := by simp [Launch.answers, hno]
  rw [exec_taskStart, execTaskStart, startTask, shelfCtx_of_off hget hcur]
  simp only [hstart, Bool.false_eq_true, if_false, hslot, hl, hheader]
  rw [svcWait_of_atHand hhand]
  simp only [imageRead] at hps hsps hload
  simp only [hps, hsps, hload, hanswers]
  rw [svcWait_of_atHand (atHand_nil s l.asn)]
end

theorem tinfo_bit (b : Bool) : (bit 0 b : Word) = if b then 1 else 0 := by cases b <;> rfl

/-- The context of a started task. -/
theorem startedCtx_frame (s : State) (x : Ctx) (l : Launch) (h : Header) (sps : List (Nat × Spool)) :
    (startedCtx s x l h sps).sid = x.sid ∧ (startedCtx s x l h sps).regs = x.regs ∧ (startedCtx s x l h sps).part = x.part := by
  obtain ⟨v, hv⟩ := foldl_modSpool_eq sps x
  unfold startedCtx
  rw [hv]
  exact ⟨rfl, rfl, rfl⟩

/-- Settles O47: an admission to the lowest free shelf, and a start as the image says. -/
theorem taskEvents : Obligations.TaskEvents := by
  unfold Obligations.TaskEvents
  intro s c i l h p hl hheader
  refine ⟨fun q hslot hadm hmay horder hevicted hi hlow hroom => ⟨_,
    exec_taskAdmission_of_room hl hheader hslot hadm hmay horder hevicted hi hlow hroom, rfl, rfl, rfl, rfl, rfl, rfl, rfl, rfl, rfl, rfl, rfl,
    s_startingCtx _ l h q p, v_startingCtx _ l h q p, p_startingCtx _ l h q p, m_startingCtx _ l h q p⟩,
    fun x ps sps s' hget hcur hst hslot hno hq hhand => ?_⟩
  intro t hps hsps hload
  have hserved := (served_imageRead hq l h x).trans (served_loadStores hload)
  have hready : (s'.cube c).ready = (s.cube c).ready := by
    obtain ⟨e, r, hc⟩ := hserved.cube c
    rw [hc]
  have hlbegun : (s'.begun c i x l h ps sps).launch l.slot = some (l.begun c) :=
    launch_modLaunch (s := (s'.modCube c fun k => k.begun c i l (startedCtx s' x l h sps) ps).modAtl fun a =>
      { a with starts := a.starts + 1 }) ((launch_congr hserved.atl l.slot).trans hl) (fun m => m.begun c) fun _ => rfl
  obtain ⟨f, hf, hstep⟩ := stepBatch_of_silent (c := c) hlbegun hno x.task.index.toNat
  have hcube : ((s'.begun c i x l h ps sps).modLaunch l.slot f).cube c = (s'.cube c).begun c i l (startedCtx s' x l h sps) ps :=
    cube_begun s' c i x l h ps sps
  obtain ⟨hsid, hregs, hpart⟩ := startedCtx_frame s' x l h sps
  have hlaunch := launch_modLaunch hlbegun f fun m => (hf m).1
  have hexec := exec_taskStart_of_image hl hheader hget hcur hst hslot hno hhand hps hsps hload
  rw [beginStrand_eq, hstep] at hexec
  refine ⟨_, startedCtx s' x l h sps, _, hexec, ?_, rfl, hsid, rfl,
    hregs, hpart, rfl, rfl, rfl, rfl, rfl, rfl, ?_, rfl, length_queue_fillNoise 64 _, ?_, hlaunch, (hf _).2, ?_⟩
  · have hshelves : (((s'.begun c i x l h ps sps).modLaunch l.slot f).cube c).shelves.get i = some (startedCtx s' x l h sps) := by
      rw [hcube, Cube.begun, vector_get_set, if_pos rfl]
    exact hshelves
  · rw [startedCtx, ← tinfo_bit]
  · have hlist : (((s'.begun c i x l h ps sps).modLaunch l.slot f).cube c).ready = (s.cube c).ready ++ [i] := by
      rw [hcube, Cube.begun, hready]
    exact hlist
  · have hstarts : s'.atl.starts + 1 = s.atl.starts + 1 := by rw [hserved.atl]
    exact hstarts
end Sys2Proof.Machine

/-! PROOFS. How strands halt, end, leave their cube and come back (R158, R241 to R245, R250 to R252). -/
namespace Sys2Proof.Machine
open Sys2Proof.Say

/-! ### A strand on its shelf, with nothing of it in flight -/

section
variable {s : State} {c : CubeId} {i : ShelfId} {x : Ctx} {st : Status} (h : OnShelf s c i x st)
include h

theorem shelfCtx_of_onShelf : shelfCtx (s.cube c) i = some x := by
  obtain ⟨hget, hcur, -⟩ := h
  exact shelfCtx_of_off hget hcur
theorem failedItems_of_onShelf : failedItems s x.sid = [] := by
  obtain ⟨-, -, -, ⟨hitems, -⟩, -⟩ := h
  rw [failedItems, List.filter_eq_nil_iff.2 fun m hm => by simp [hitems m hm]]
  rfl
theorem dropFailed_of_onShelf : dropFailed s x.sid = s := by
  obtain ⟨-, -, -, ⟨hitems, -⟩, -⟩ := h
  rw [dropFailed, List.filter_eq_self.2 fun m hm => by simp [hitems m hm]]
theorem quiet_of_onShelf : quiet s c x.sid = true := by
  obtain ⟨-, -, -, ⟨hitems, hreads⟩, hcmds, hmcast, hjoins, -⟩ := h
  have hto : mcastTo s x.sid = false := by
    rw [mcastTo, List.any_eq_false]
    intro d _
    rw [Bool.not_eq_true, List.any_eq_false]
    intro m hm
    have hnot := hmcast d m hm
    cases hk : m.kind with
    | copy o => cases o <;> simp_all
    | _ => simp
  simp only [quiet, hto, Bool.not_false, Bool.and_true, Bool.and_eq_true, Bool.not_eq_true', List.any_eq_false, beq_iff_eq]
  exact ⟨⟨⟨hcmds, hjoins⟩, hitems⟩, hreads⟩
theorem residents_of_onShelf : residents s c (i, x) = [(c, i, x)] := by
  obtain ⟨-, -, -, -, -, -, -, htrain⟩ := h
  rw [residents, htrain]
theorem mayLeaveAll_of_onShelf : mayLeaveAll s [(c, i, x)] = true := by
  obtain ⟨-, hcur, -⟩ := h
  simp [mayLeaveAll, hcur]
theorem mayEvict_of_onShelf (hevictable : x.evictable = true) (hlost : ∀ t ∈ x.pending, t.cause ≠ 0x0B) :
    (s.cube c).mayEvict (i, x) = true := by
  obtain ⟨-, hcur, -⟩ := h
  have hdebug : (s.cube c).debugHolds i = false := by simp [Cube.debugHolds, hcur]
  have hpending : (x.pending.any fun t => t.cause == causeAckTimeout) = false := by
    rw [List.any_eq_false]
    intro t ht
    rw [beq_iff_eq]
    exact hlost t ht
  simp [Cube.mayEvict, hevictable, hdebug, hpending]
end

theorem not_leaving_of_evictable {x : Ctx} (h : x.evictable = true) : leaving x = false := by
  unfold Ctx.evictable at h
  unfold leaving
  cases hst : x.status <;> simp_all

/-! ### Evictions and migrations that begin (R241, R245) -/

/-- The pool's record is reserved. -/
def State.reserved (s : State) (x : Ctx) (unit : Nat) : State :=
  { s with atl := { s.atl with saves := s.atl.saves ++ [(x.sid, unit, recordUnits x.part)] } }

theorem reserveRecords_of_fit {s : State} {x : Ctx} {unit : Nat} (h : poolFit s x.part = some unit) :
    reserveRecords s [x] = some (s.reserved x unit) := by
  rw [reserveRecords, List.foldl_cons, List.foldl_nil, Option.bind_some, h]
  rfl

/-- The cube that a strand of a shelf starts to leave. -/
def Cube.leftBy (k : Cube) (i : ShelfId) (y : Ctx) : Cube := { k with
  shelves := k.shelves.set i.val (some y) i.isLt, monitors := k.monitors.filter fun m => m.shelf != i
  ready := k.ready.filter fun j => j != i }

theorem modShelf_leftBy (k : Cube) (i : ShelfId) (y : Ctx) (f : Ctx → Ctx) : (k.leftBy i y).modShelf i f = k.leftBy i (f y) := by
  simp [Cube.modShelf, Cube.leftBy, vector_get_set]

theorem beginEviction_of_off {s : State} {c : CubeId} {i : ShelfId} {x : Ctx} (hget : (s.cube c).shelves.get i = some x)
    (hcur : (s.cube c).cur ≠ .shelf i) : beginEviction s c i =
      s.modCube c fun _ => (s.cube c).leftBy i { x with status := .evicting, wait := .none } := by
  rw [beginEviction]
  simp only [if_neg hcur, freeMonitor, modCube_modCube]
  exact modCube_congr (by simp only [Cube.modShelf, hget, Option.map_some]; rfl)

section
variable {s : State} {c : CubeId} {i : ShelfId} {x : Ctx} {st : Status} {unit : Nat} (h : OnShelf s c i x st)
  (hevictable : x.evictable = true) (hlost : ∀ t ∈ x.pending, t.cause ≠ 0x0B) (hfit : poolFit s x.part = some unit)
include h hevictable hlost hfit

theorem exec_evictionStart_of_fit (hvictim : nextVictim s c = some i) : exec (.evictionStart c i) s =
    .next ((s.reserved x unit).modCube c fun _ => (s.cube c).leftBy i { x with status := .evicting, wait := .none }) := by
  have hgroup : ((residents s c (i, x)).filter fun y => !leaving y.2.2) = [(c, i, x)] := by
    rw [residents_of_onShelf h, List.filter_cons, not_leaving_of_evictable hevictable]
    rfl
  have hleave : canLeave s c (i, x) = true := by
    rw [canLeave, mayEvict_of_onShelf h hevictable hlost, residents_of_onShelf h]
    simp [mayEvict_of_onShelf h hevictable hlost]
  have hcond : (canLeave s c (i, x) && (nextVictim s c == some i || followsTrain s x) && mayLeaveAll s [(c, i, x)]) = true := by
    simp [hleave, hvictim, mayLeaveAll_of_onShelf h]
  have hget := h.1
  have hcur := h.2.1
  rw [exec_evictionStart, execEvictionStart, evictFrom, shelfCtx_of_onShelf h]
  simp only [hgroup, hcond, if_true, List.map_cons, List.map_nil, reserveRecords_of_fit hfit, List.foldl_cons, List.foldl_nil]
  exact congrArg Host.Outcome.next (beginEviction_of_off (s := s.reserved x unit) hget hcur)

theorem exec_migration_of_fit : exec (.migration c i) s = .next ((s.reserved x unit).modCube c fun _ =>
    (s.cube c).leftBy i { x with status := .evicting, wait := .none, task := { x.task with away := true } }) := by
  have hcond : ((s.cube c).mayEvict (i, x) && mayLeaveAll s [(c, i, x)]) = true := by
    rw [mayEvict_of_onShelf h hevictable hlost, mayLeaveAll_of_onShelf h]
    rfl
  have hget := h.1
  have hcur := h.2.1
  rw [exec_migration, execMigration, migrate, shelfCtx_of_onShelf h]
  simp only [hcond, if_true, reserveRecords_of_fit hfit]
  rw [beginEviction_of_off (s := s.reserved x unit) hget hcur, modCube_modCube]
  exact congrArg Host.Outcome.next (modCube_congr (modShelf_leftBy (s.cube c) i { x with status := .evicting, wait := .none }
    fun y => { y with task := { y.task with away := true } }))
end

/-! ### An eviction that is complete (R242) -/

/-- Marks that are carried along change nothing else. -/
theorem carryPoison_eq (s : State) (src dst n : Nat) : ∃ po, carryPoison s src dst n = { s with poison := po } := by
  unfold carryPoison
  generalize (runLines src n).filter s.poison.contains = ls
  suffices h : ∀ (ls : List Nat) (u : State), ∃ po,
      ls.foldl (fun s l => poisonLine s ((dst + (max (l * 64) src - src)) / 64)) u = { u with poison := po } from h ls s
  intro ls
  induction ls with
  | nil => exact fun u => ⟨u.poison, rfl⟩
  | cons l ls ih =>
    intro u
    have hone : ∃ po, poisonLine u ((dst + (max (l * 64) src - src)) / 64) = { u with poison := po } := by
      unfold poisonLine
      split
      · exact ⟨u.poison, rfl⟩
      · exact ⟨_, rfl⟩
    obtain ⟨po, hpo⟩ := hone
    obtain ⟨po', hpo'⟩ := ih (poisonLine u ((dst + (max (l * 64) src - src)) / 64))
    rw [List.foldl_cons]
    refine ⟨po', hpo'.trans ?_⟩
    rw [hpo]

theorem served_carryPoison (s : State) (src dst n : Nat) : Served s (carryPoison s src dst n) := by
  obtain ⟨po, h⟩ := carryPoison_eq s src dst n
  exact ⟨s.mem, s.cubes, s.owners, po, s.notes, s.winq, s.fab, h, fun c => ⟨(s.cube c).edge, (s.cube c).recs, rfl⟩⟩

theorem served_foldl {α : Type} (f : State → α → State) (h : ∀ s a, Served s (f s a)) (as : List α) (s : State) :
    Served s (as.foldl f s) := by
  induction as generalizing s with
  | nil => exact .refl s
  | cons a as ih => exact (h s a).trans (ih (f s a))

theorem served_saveRecord (s : State) (c : CubeId) (x : Ctx) (unit : Nat) : Served s (saveRecord s c x unit) :=
  (served_placeCells s 0xFFF _).trans (served_foldl _ (fun s r => served_carryPoison s _ _ _) _ _)

theorem cube_freeShelf {s u : State} (h : Served s u) (c : CubeId) (i : ShelfId) :
    Freed s (u.modCube c fun k => k.freeShelf i) c i := by
  obtain ⟨e, r, hc⟩ := h.cube c
  have hcube : (u.modCube c fun k => k.freeShelf i).cube c = { s.cube c with edge := e, recs := r }.freeShelf i := by
    rw [cube_modCube_self, hc]
  rw [Freed, hcube]
  refine ⟨?_, fun j hj => ?_, rfl, rfl⟩
  · rw [Cube.freeShelf, vector_get_set, if_pos rfl]
  · rw [Cube.freeShelf, vector_get_set, if_neg hj]

theorem freed_of_cube {s u v : State} {c : CubeId} {i : ShelfId} (h : Freed s u c i) (hcube : v.cube c = u.cube c) : Freed s v c i := by
  rw [Freed, hcube]
  exact h

section
variable {s : State} {c : CubeId} {i : ShelfId} {x : Ctx} {unit n : Nat} (h : OnShelf s c i x .evicting)
  (hlost : ∀ t ∈ x.pending, t.cause ≠ 0x0B) (hq : Quiet s)
  (hsave : s.atl.saves.find? (fun r => r.1 == x.sid) = some (x.sid, unit, n)) (hpatches : (s.cube c).patches = [])
include h hlost hq hsave hpatches

theorem completeEviction_of_quiet : completeEviction s c i =
    (dropSave ((saveRecord s c x unit).modCube c fun k => k.freeShelf i) x.sid).modAtl fun a => { a with
      evicted := a.evicted ++ [⟨x, c, unit, n, x.task.away⟩] } := by
  have hst : x.status = .evicting := h.2.2.1
  have hleaving : leaving x = true := by rw [leaving, hst]; rfl
  have hgroup : leavers s c i x = [(c, i, x)] := by
    rw [leavers, residents_of_onShelf h]
    split
    · rfl
    · next haway => simp [hleaving, haway]
  have hlate : stragglers s c i x = [] := by
    rw [stragglers, residents_of_onShelf h]
    cases x.task.away <;> simp [hleaving]
  have hkept : hasLost s x = false := by
    have hpending : (x.pending.any fun t => t.cause == causeAckTimeout) = false := by
      rw [List.any_eq_false]
      intro t ht
      rw [beq_iff_eq]
      exact hlost t ht
    rw [hasLost, failedItems_of_onShelf h, hpending]
    rfl
  have hstays : (x.status != .evicting) = false := by rw [hst]; rfl
  have hnone : shelfPatches (s.cube c) i = [] := by rw [shelfPatches, hpatches]; rfl
  have hread : readForSave s c x.part = s := fireReads_quiet s hq _
  rw [completeEviction, shelfCtx_of_onShelf h]
  simp only [hstays, hgroup, hlate, hkept, List.any_cons, List.any_nil, Bool.or_false, List.map_nil, reserveRecords, List.foldl_nil,
    Option.isNone_some, Bool.false_eq_true, if_false, List.isEmpty_nil, Bool.not_true, List.all_cons, List.all_nil, Bool.and_true,
    quiet_of_onShelf h, if_true, hread, hsave, shelfCtx_of_onShelf h, hnone, patchCtx]

theorem exec_evictionComplete_of_quiet : ∃ u, exec (.evictionComplete c i) s = .next u ∧ Freed s u c i ∧
    u.atl.saves = s.atl.saves.filter (fun r => r.1 != x.sid) ∧
    u.atl.evicted = s.atl.evicted ++ [⟨x, c, unit, n, x.task.away⟩] ∧ u.mem = (saveRecord s c x unit).mem := by
  have hserved := served_saveRecord s c x unit
  have hexec : exec (.evictionComplete c i) s = .next ((dropSave ((saveRecord s c x unit).modCube c fun k => k.freeShelf i) x.sid).modAtl
      fun a => { a with evicted := a.evicted ++ [⟨x, c, unit, n, x.task.away⟩] }) := by
    rw [exec_evictionComplete, execEvictionComplete, completeEviction_of_quiet h hlost hq hsave hpatches]
  generalize saveRecord s c x unit = t at hserved hexec
  refine ⟨_, hexec, freed_of_cube (cube_freeShelf hserved c i) rfl, ?_, ?_, rfl⟩
  · have hsaves : t.atl.saves.filter (fun r => r.1 != x.sid) = s.atl.saves.filter fun r => r.1 != x.sid := by rw [hserved.atl]
    exact hsaves
  · have hevicted : t.atl.evicted ++ [⟨x, c, unit, n, x.task.away⟩] = s.atl.evicted ++ [⟨x, c, unit, n, x.task.away⟩] := by
      rw [hserved.atl]
    exact hevicted
end

/-! ### Strands that end (R158, R250 to R252) -/

theorem leaveAll_of_none {s : State} {sid : Nat} (h : trainOf s sid = none) : leaveAll s sid = s := by rw [leaveAll, h]

/-- With its last strand a launch's slot is free. -/
theorem retires_retire {s : State} {l : Launch} {sid : Nat} (hl : s.launch l.slot = some l) (htrain : trainOf s sid = none) :
    Retires (retire s sid l.slot) l := by
  have hl' := launch_modLaunch hl (fun l => { l with retired := l.retired + 1 }) fun _ => rfl
  rw [retire, leaveAll_of_none htrain, Retires]
  split
  · next hdone =>
    rw [releaseSlot_of_done hl' hdone]
    refine ⟨?_, by simp [State.modAtl, Vector.get_eq_getElem]⟩
    show (List.filter _ _).find? _ = none
    rw [List.find?_eq_none]
    intro m hm
    simpa using (List.mem_filter.1 hm).2
  · next hmore =>
    have hkept : releaseSlot (s.modLaunch l.slot fun l => { l with retired := l.retired + 1 }) l.slot =
        s.modLaunch l.slot fun l => { l with retired := l.retired + 1 } := by
      rw [releaseSlot, hl']
      exact if_neg hmore
    rw [hkept]
    exact hl'

theorem cube_retire {s : State} {sid : Nat} (htrain : trainOf s sid = none) (slot : BitVec 8) (c : CubeId) :
    (retire s sid slot).cube c = s.cube c ∧ (retire s sid slot).mem = s.mem := by
  rw [retire, leaveAll_of_none htrain]
  unfold releaseSlot
  split
  · split
    · exact ⟨rfl, rfl⟩
    · exact ⟨rfl, rfl⟩
  · exact ⟨rfl, rfl⟩

/-- The service's add for a strand that leaves its shelf, and what the launch then is. -/
theorem ended_frame {s r : State} {c : CubeId} {i : ShelfId} {l : Launch} {t : Target} {sid : Nat} (hl : s.launch l.slot = some l)
    (htrain : trainOf s sid = none) (hserved : Served s r) :
    Freed s (svcDone (retire (r.modCube c fun k => k.freeShelf i) sid l.slot) l.asn) c i ∧
      Retires (svcDone (retire (r.modCube c fun k => k.freeShelf i) sid l.slot) l.asn) l ∧
      (svcDone (retire (r.modCube c fun k => k.freeShelf i) sid l.slot) l.asn).mem = r.mem := by
  have htrain' : trainOf (r.modCube c fun k => k.freeShelf i) sid = none := by
    rw [← htrain, trainOf, trainOf, show (r.modCube c fun k => k.freeShelf i).atl = s.atl from hserved.atl]
  have hl' : (r.modCube c fun k => k.freeShelf i).launch l.slot = some l :=
    (launch_congr (show (r.modCube c fun k => k.freeShelf i).atl = s.atl from hserved.atl) l.slot).trans hl
  obtain ⟨hcube, hmem⟩ := cube_retire htrain' l.slot c
  have hcube' : (svcDone (retire (r.modCube c fun k => k.freeShelf i) sid l.slot) l.asn).cube c =
      (r.modCube c fun k => k.freeShelf i).cube c := hcube
  exact ⟨freed_of_cube (cube_freeShelf hserved c i) hcube', retires_retire hl' htrain', hmem⟩

section
variable {s : State} {c : CubeId} {i : ShelfId} {x : Ctx} {l : Launch} {t : Target} (hl : s.launch l.slot = some l)
  (hslot : x.task.slot = l.slot) (hc : Countable s l l.done t) (hq : Quiet s) (hhand : AtHand s l.asn [l.done])
include hl hslot hc hq hhand

theorem haltComplete_of_quiet (h : OnShelf s c i x .halting) (hpending : x.pending = []) : ∃ u,
    exec (.haltComplete c i) s = .next u ∧ Freed s u c i ∧ Retires u l ∧
      memWord u.mem t.key = counterSum (memWord s.mem t.key) 1 := by
  have htrain : trainOf s x.sid = none := h.2.2.2.2.2.2.2
  have hst : (x.status != .halting) = false := by rw [h.2.2.1]; rfl
  have hexec : exec (.haltComplete c i) s = .next (svcDone (retire ((svcAdd .scheduler s l.asn l.done 1).modCube c fun k =>
      k.freeShelf i) x.sid l.slot) l.asn) := by
    rw [exec_haltComplete, execHaltComplete, completeHalt, shelfCtx_of_onShelf h]
    simp only [hst, failedItems_of_onShelf h, hpending, List.isEmpty_nil, Bool.not_true, Bool.false_eq_true, if_false, quiet_of_onShelf h,
      if_true, hslot, hl]
    rw [svcWait_of_atHand hhand]
  obtain ⟨hfreed, hretires, hmem⟩ := ended_frame (c := c) (i := i) (t := t) hl htrain (served_svcAdd hq .scheduler l.asn l.done 1)
  exact ⟨_, hexec, hfreed, hretires, by rw [hmem, memWord_svcAdd_of_countable hq hc]⟩
end

theorem sameWays_modCube {s : State} {c : CubeId} {f : Cube → Cube} (h : (f (s.cube c)).hw = (s.cube c).hw) : SameWays s (s.modCube c f) :=
  ⟨rfl, rfl, rfl, rfl, rfl, rfl, rfl, rfl, rfl, rfl, rfl, fun d => by
    rw [cube_modCube]
    split
    · next hd => subst hd; exact h
    · rfl⟩
theorem SameWays.trans {s t u : State} (h : SameWays s t) (h' : SameWays t u) : SameWays s u :=
  ⟨h'.mem.trans h.mem, h'.poison.trans h.poison, h'.misses.trans h.misses, h'.walkCache.trans h.walkCache, h'.astBase.trans h.astBase,
    h'.secu.trans h.secu, h'.bridge.trans h.bridge, h'.regs.trans h.regs, h'.ports.trans h.ports, h'.entries.trans h.entries,
    h'.pairs.trans h.pairs, fun c => (h'.hw c).trans (h.hw c)⟩
theorem atHand_congr {s u : State} (h : SameWays s u) {asn : BitVec 12} {vas : List VA} (hh : AtHand s asn vas) : AtHand u asn vas :=
  fun va hva => ⟨(mustWalk_congr h asn va).trans (hh va hva).1, (svcCarried_congr h asn va).trans (hh va hva).2⟩
theorem quiet_modCube {s : State} {c : CubeId} {f : Cube → Cube} (h : (f (s.cube c)).con = (s.cube c).con) (hq : Quiet s) :
    Quiet (s.modCube c f) := fun d => by
  rw [cube_modCube]
  split
  · next hd =>
    subst hd
    rw [h]
    exact hq d
  · exact hq d

/-- The strand of a shelf that is to end, once it is off every list. -/
def State.ending (s : State) (c : CubeId) (i : ShelfId) (x : Ctx) : State :=
  s.modCube c fun k => k.leftBy i { x with status := .ending, wait := .none }

theorem cube_ending (s : State) (c : CubeId) (i : ShelfId) (x : Ctx) (d : CubeId) :
    ∃ sh mo re, (s.ending c i x).cube d = { s.cube d with shelves := sh, monitors := mo, ready := re } := by
  rw [State.ending, cube_modCube]
  split
  · exact ⟨_, _, _, rfl⟩
  · exact ⟨_, _, _, rfl⟩

theorem freed_ending (s : State) (c : CubeId) (i : ShelfId) (x : Ctx) : Freed s ((s.ending c i x).modCube c fun k => k.freeShelf i) c i := by
  rw [Freed, cube_modCube_self, State.ending, cube_modCube_self]
  refine ⟨?_, fun j hj => ?_, ?_, ?_⟩
  · rw [Cube.freeShelf, vector_get_set, if_pos rfl]
  · rw [Cube.freeShelf, vector_get_set, if_neg hj, Cube.leftBy, vector_get_set, if_neg hj]
  · simp only [Cube.freeShelf, Cube.leftBy, List.filter_filter, Bool.and_self]
  · simp only [Cube.freeShelf, Cube.leftBy, List.filter_filter, Bool.and_self]

section
variable {s : State} {c : CubeId} {i : ShelfId} {x : Ctx} {st : Status} (h : OnShelf s c i x st)
include h

theorem onShelf_ending : OnShelf (s.ending c i x) c i { x with status := .ending, wait := .none } .ending := by
  have hsame : ∀ d, ((s.ending c i x).cube d).cmds = (s.cube d).cmds ∧ ((s.ending c i x).cube d).joins = (s.cube d).joins ∧
      ((s.ending c i x).cube d).cur = (s.cube d).cur := fun d => by
    obtain ⟨sh, mo, re, hd⟩ := cube_ending s c i x d
    rw [hd]
    exact ⟨rfl, rfl, rfl⟩
  have hget : ((s.ending c i x).cube c).shelves.get i = some { x with status := .ending, wait := .none } := by
    rw [State.ending, cube_modCube_self, Cube.leftBy, vector_get_set, if_pos rfl]
  obtain ⟨-, hcur, -, hrest, hcmds, hmcast, hjoins, htrain⟩ := h
  refine ⟨hget, by rw [(hsame c).2.2]; exact hcur, rfl, hrest, ?_, fun d => ?_, ?_, htrain⟩
  · rw [(hsame c).1]
    exact hcmds
  · rw [(hsame d).1]
    exact hmcast d
  · rw [(hsame c).2.1]
    exact hjoins

theorem endStrand_of_quiet {z : BitVec 8} (hne : st ≠ .evicting) (hns : st ≠ .starting) (hz : x.task.ending = some z) (cause : BitVec 8) :
    endStrand s c i cause = svcWaitAll (s.ending c i x) (endVAs (s.ending c i x) x) fun u =>
      endDone u x (endByError (u.modCube c fun k => k.freeShelf i) c x z) := by
  have hst : (x.status == .evicting || x.status == .starting) = false := by
    rw [h.2.2.1]
    simp [hne, hns]
  have hget := h.1
  have hcur := h.2.1
  have hleft : ((freeMonitor (dropFailed s x.sid) c i).modCube c fun k =>
      { k.modShelf i fun y => { y.dropWait with status := .ending } with ready := k.ready.filter fun j => j != i }) = s.ending c i x := by
    rw [dropFailed_of_onShelf h, freeMonitor, modCube_modCube, State.ending]
    exact modCube_congr (by simp only [Cube.modShelf, hget, Option.map_some]; rfl)
  have hquiet := quiet_of_onShelf (onShelf_ending h)
  simp only [] at hquiet
  rw [endStrand, shelfCtx_of_onShelf h]
  simp only [hz, hst, Bool.false_eq_true, if_false, if_neg hcur, hleft, hquiet, if_true]
end

section
variable {s : State} {c : CubeId} {i : ShelfId} {x : Ctx} {l : Launch} {t : Target} (hl : s.launch l.slot = some l)
  (hslot : x.task.slot = l.slot) (hc : Countable s l l.done t) (hq : Quiet s) (hhand : AtHand s l.asn [l.done])
include hl hslot hc hq hhand

theorem strandEndError_of_quiet {st : Status} {z : BitVec 8} (h : OnShelf s c i x st) (hne : st ≠ .evicting) (hns : st ≠ .starting)
    (hz : x.task.ending = some z) (hrec : l.faultRec = 0) (cause : BitVec 8) : ∃ u, exec (.strandEndError c i cause) s = .next u ∧
      Freed s u c i ∧ Retires u l ∧ memWord u.mem t.key = counterSum (memWord s.mem t.key) 0x8000000000000001 := by
  have htrain : trainOf s x.sid = none := h.2.2.2.2.2.2.2
  have hways : SameWays s (s.ending c i x) := sameWays_modCube rfl
  have hways' : SameWays s ((s.ending c i x).modCube c fun k => k.freeShelf i) := hways.trans (sameWays_modCube rfl)
  have hq' : Quiet ((s.ending c i x).modCube c fun k => k.freeShelf i) :=
    quiet_modCube (s := s.ending c i x) rfl (quiet_modCube (s := s) rfl hq)
  have hneeds : endVAs (s.ending c i x) x = [(l.asn, l.done)] := by
    have hlaunch : (s.ending c i x).launch x.task.slot = some l := by rw [hslot]; exact hl
    rw [endVAs, hlaunch]
    simp only [hrec, if_true]
  have hexec : exec (.strandEndError c i cause) s = .next (svcDone (retire (svcAdd .scheduler
      ((s.ending c i x).modCube c fun k => k.freeShelf i) l.asn l.done 0x8000000000000001) x.sid l.slot) l.asn) := by
    have hlaunch : (s.ending c i x).launch l.slot = some l := hl
    have hlaunch' : ((s.ending c i x).modCube c fun k => k.freeShelf i).launch l.slot = some l := hl
    have hwait := svcWait_of_atHand (atHand_congr hways hhand) fun u => endDone u x (endByError (u.modCube c fun k => k.freeShelf i) c x z)
    rw [svcWait, List.map_cons, List.map_nil] at hwait
    rw [exec_strandEndError, execStrandEndError, endStrand_of_quiet h hne hns hz, hneeds, hwait, endDone, hslot, hlaunch]
    simp only [endByError, hslot, hlaunch', faultEntry, if_pos hrec]
    rfl
  have hserved := served_svcAdd hq' .scheduler l.asn l.done 0x8000000000000001
  have hword := memWord_svcAdd_of_countable hq' (countable_congr hways' rfl hc) .scheduler 0x8000000000000001
  generalize svcAdd .scheduler ((s.ending c i x).modCube c fun k => k.freeShelf i) l.asn l.done 0x8000000000000001 = v at hexec hserved hword
  have hatl : v.atl = s.atl := hserved.atl
  have htrain' : trainOf v x.sid = none := by rw [trainOf, hatl, ← trainOf, htrain]
  obtain ⟨hcube, hmem⟩ := cube_retire htrain' l.slot c
  have hfreed : Freed s v c i := by
    obtain ⟨e, r, hcs⟩ := hserved.cube c
    rw [Freed, hcs]
    exact freed_ending s c i x
  have hcube' : (svcDone (retire v x.sid l.slot) l.asn).cube c = v.cube c := hcube
  have hmem' : (svcDone (retire v x.sid l.slot) l.asn).mem = v.mem := hmem
  refine ⟨_, hexec, freed_of_cube hfreed hcube', ?_, ?_⟩
  · exact retires_retire ((launch_congr hatl l.slot).trans hl) htrain'
  · rw [hmem', hword, hways'.mem]
end

/-! ### Re-admission (R242, R244, R304) -/

/-- A cube with an empty shelf holds fewer than sixteen strands. -/
theorem length_partitionsBut_lt {k : Cube} {i : ShelfId} (h : k.shelves.get i = none) (out : Ctx → Bool) :
    (partitionsBut k out).length < 16 := by
  have hstrands : k.strands.length < 16 := by
    have hlt : k.strands.length < (List.finRange 16).length := by
      rw [Cube.strands, List.length_filterMap_lt_length_iff_exists]
      exact ⟨i, List.mem_finRange i, by rw [h]; rfl⟩
    simpa using hlt
  rw [partitionsBut, List.length_map]
  exact Nat.lt_of_le_of_lt (List.length_filter_le _ _) hstrands

theorem served_voidTiles (s : State) (locs : List Nat) : Served s (voidTiles s locs) := by
  obtain ⟨cs, h, hcs⟩ := voidTiles_eq s locs
  exact ⟨s.mem, cs, s.owners, s.poison, s.notes, s.winq, s.fab, h, fun c => ⟨(s.cube c).edge, hcs c⟩⟩
theorem served_restoreStores (s : State) (c : CubeId) (p : Partition) (asn : BitVec 12) (unit : Nat) :
    Served s (restoreStores s c p asn unit) :=
  ((served_placeCells s asn _).trans (served_voidTiles _ _)).trans (served_foldl _ (fun s r => served_carryPoison s _ _ _) _ _)

/-- The strand that a record gives back on a partition. -/
def Evicted.returned (e : Evicted) (s : State) (p : Partition) : Ctx :=
  let y := parseImage { e.ctx with part := p } fun o => memByte s.mem (poolKey s e.unit + o)
  { y with
    status := .ready, wait := .none, task := { e.ctx.task with away := false, owner := y.sys.asn }
    sys := { y.sys with jmask := 0, jskew := 0 } }
theorem sid_parseImage (x : Ctx) (f : Nat → Byte) : (parseImage x f).sid = x.sid := by rw [parseImage]
theorem part_parseImage (x : Ctx) (f : Nat → Byte) : (parseImage x f).part = x.part := by rw [parseImage]
theorem returned_frame (e : Evicted) (s : State) (p : Partition) : (e.returned s p).sid = e.ctx.sid ∧ (e.returned s p).status = .ready ∧
    (e.returned s p).wait = .none ∧ (e.returned s p).part = p ∧
    (e.returned s p).task = { e.ctx.task with away := false, owner := (e.returned s p).sys.asn } ∧
    (e.returned s p).sys.jmask = 0 ∧ (e.returned s p).sys.jskew = 0 := by
  have hsid := sid_parseImage { e.ctx with part := p } fun o => memByte s.mem (poolKey s e.unit + o)
  have hpart := part_parseImage { e.ctx with part := p } fun o => memByte s.mem (poolKey s e.unit + o)
  unfold Evicted.returned
  generalize parseImage { e.ctx with part := p } (fun o => memByte s.mem (poolKey s e.unit + o)) = y at hsid hpart
  exact ⟨hsid, rfl, rfl, hpart, rfl, rfl, rfl⟩

/-- The bytes of a record. -/
def Evicted.bytes (e : Evicted) (s : State) (o : Nat) : Byte := memByte s.mem (poolKey s e.unit + o)
/-- The stores of a strand that returns hold what its record and its image say. -/
def Evicted.refills (e : Evicted) (s : State) (c : CubeId) (p : Partition) : State :=
  let y := e.returned s p
  let t := restoreStores s c p y.sys.asn e.unit
  match t.launch y.task.slot with
  | some l => (copyImage (svcTouch t l.asn .read y.task.constVA p.constBytes) l y.task.constVA p.constBytes (constKey c p)).getD t
  | none => t
/-- The cube on a shelf of which a strand stands again. -/
def Cube.takesBack (k : Cube) (c : CubeId) (i : ShelfId) (e : Evicted) (y : Ctx) (f : Nat → Byte) : Cube :=
  { (if c = e.cube then k else edgeClear k) with
    pals := parsePalettes k.pals y.part f, shelves := k.shelves.set i (some y), ready := k.ready ++ [i] }
/-- The state in which an evicted strand stands on a shelf again. -/
def Evicted.back (e : Evicted) (s : State) (c : CubeId) (i : ShelfId) (p : Partition) : State :=
  ((e.refills s c p).modCube c fun k => k.takesBack c i e (e.returned s p) (e.bytes s)).modAtl fun a =>
    { a with evicted := a.evicted.filter fun g => g.ctx.sid != e.ctx.sid }

theorem served_refills {s : State} (hq : Quiet s) (e : Evicted) (c : CubeId) (p : Partition) : Served s (e.refills s c p) := by
  rw [Evicted.refills]
  generalize e.returned s p = y
  have hstores := served_restoreStores s c p y.sys.asn e.unit
  generalize restoreStores s c p y.sys.asn e.unit = t at hstores
  split
  · next l _ =>
    have htouch := served_svcTouch (hstores.quiet hq) l.asn .read y.task.constVA p.constBytes
    cases hcopy : copyImage (svcTouch t l.asn .read y.task.constVA p.constBytes) l y.task.constVA p.constBytes (constKey c p) with
    | none => exact hstores
    | some v => exact (hstores.trans htouch).trans (served_copyImage hcopy)
  · exact hstores

section
variable {s : State} {c : CubeId} {i : ShelfId} {e : Evicted} {p : Partition} (hevicted : s.atl.evicted = [e]) (hcube : e.cube = c)
  (hending : e.ctx.task.ending = none) (htrain : trainOf s e.ctx.sid = none)
  (hadm : (s.cube c).admission = []) (htake : mayTake s e c = true) (hq : Quiet s)
  (hhand : ∀ n ∈ constVAs s e, AtHand s n.1 [n.2])
  (hfit : allocate (sizesOf e.ctx.part) (partitionsBut (s.cube c) fun _ => false) = some p) (hi : (s.cube c).shelves.get i = none)
  (hlow : ∀ j : ShelfId, j < i → (s.cube c).shelves.get j ≠ none)

section
include hadm htake hfit hi hlow

theorem restoreOn_of_room : restoreOn s e c = some (e.back s c i p) := by
  have hnew : newFirst s c e = false := by rw [newFirst, hadm]; rfl
  have hbeside : fitBeside s e [] c (fun _ _ => false) = some p := by
    rw [fitBeside]
    simp only [List.filter_nil, List.map_nil, List.append_nil, htake, Bool.true_and,
      decide_eq_true (length_partitionsBut_lt hi fun _ => false), if_true]
    exact hfit
  rw [restoreOn]
  simp only [hnew, Bool.false_eq_true, if_false, hbeside, emptyShelf_of_lowest hi hlow]
  rfl
end

section
include htake

/-- A cube that may take a strand computes, so its strands have somewhere to go. -/
theorem orphaned_of_mayTake (x : Ctx) : orphaned s c x = false := by
  have hlife : ((s.cube c).hw.life == .retired) = false := by
    rw [mayTake, Bool.and_eq_true] at htake
    obtain ⟨-, hmay⟩ := htake
    split at hmay
    · have hlive : (s.cube c).hw.life == .live := computes_of_mayRunOn hmay
      rw [beq_iff_eq.1 hlive]
      rfl
    · exact absurd hmay Bool.false_ne_true
  rw [orphaned, hlife, Bool.false_and]
end

include hevicted hcube hending htrain hadm htake hq hhand hfit hi hlow

theorem exec_readmission_of_room : exec (.readmission 0 c) s = .next (endDone s e.ctx (e.back s c i p)) := by
  have hrestore := restoreOn_of_room hadm htake hfit hi hlow
  have hself : earlier (queuePlace s e.ctx) (queuePlace s e.ctx) = false := by simp [earlier]
  have hfirst : (!s.atl.evicted.any fun f => earlier (queuePlace s f.ctx) (queuePlace s e.ctx) && couldReturn s f) = true := by
    simp [hevicted, hself]
  have hhere : (c == e.cube || !(cubesWithRoom s e).contains e.cube) = true := by rw [hcube, beq_self_eq_true, Bool.true_or]
  have hmates : trainMates s e = some [] := by rw [trainMates, htrain]
  have hread : ([e].foldl (fun s m => readRecord s m.ctx.part m.unit) s) = s := fireReads_quiet s hq _
  have hnobody : (s.atl.evicted.any fun g => ([e].any fun m => m.ctx.sid == g.ctx.sid) && g.ctx.task.ending.isSome) = false := by
    simp [hevicted, hending]
  have hgroup : returnGroup s e [] c = endDone s e.ctx (e.back s c i p) := by
    rw [returnGroup]
    simp only [hread, hnobody, Bool.false_eq_true, if_false, hrestore, restoreAll, List.foldl_cons, List.foldl_nil]
  have hwait : ∀ f, svcWaitAll s ([e].flatMap (constVAs s)) f = f s := by
    intro f
    have hneeds : [e].flatMap (constVAs s) = constVAs s e := by simp
    rw [hneeds, svcWaitAll]
    have hwalk : (constVAs s e).find? (fun n => mustWalk s (svcAgent s n.1) n.2) = none := by
      rw [List.find?_eq_none]
      intro n hn
      rw [(hhand n hn n.2 (List.mem_singleton_self _)).1]
      exact Bool.false_ne_true
    have hway : ((constVAs s e).all fun n => svcCarried s n.1 n.2) = true :=
      List.all_eq_true.2 fun n hn => (hhand n hn n.2 (List.mem_singleton_self _)).2
    rw [hwalk]
    exact if_pos hway
  have horphaned : orphaned s e.cube e.ctx = false := hcube ▸ orphaned_of_mayTake htake e.ctx
  have hget : s.atl.evicted[0]? = some e := by rw [hevicted]; rfl
  rw [exec_readmission, execReadmission, readmit, hget]
  simp only [hending, horphaned, Bool.false_eq_true, if_false, hmates, hfirst, hhere, hrestore, Option.isSome_some, Bool.and_self, if_true,
    hwait, hgroup]

theorem readmission_of_room : ∃ u y, exec (.readmission 0 c) s = .next u ∧ (u.cube c).shelves.get i = some y ∧ y.sid = e.ctx.sid ∧
    y.status = .ready ∧ y.wait = .none ∧ y.part = p ∧ y.task = { e.ctx.task with away := false, owner := y.sys.asn } ∧ y.sys.jmask = 0 ∧
    y.sys.jskew = 0 ∧ (u.cube c).ready = (s.cube c).ready ++ [i] ∧ u.atl.evicted = [] := by
  have hserved := served_refills hq e c p
  have hback : (e.back s c i p).cube c = ((e.refills s c p).cube c).takesBack c i e (e.returned s p) (e.bytes s) := by
    rw [Evicted.back, cube_modAtl, cube_modCube_self]
  have hdone : (endDone s e.ctx (e.back s c i p)).cube c = (e.back s c i p).cube c ∧
      (endDone s e.ctx (e.back s c i p)).atl = (e.back s c i p).atl := by
    unfold endDone
    split
    · exact ⟨rfl, rfl⟩
    · exact ⟨rfl, rfl⟩
  have hready : ((e.refills s c p).cube c).ready = (s.cube c).ready := by
    obtain ⟨ed, r, hc⟩ := hserved.cube c
    rw [hc]
  have hempty : (e.back s c i p).atl.evicted = [] := by
    have hlist : (e.refills s c p).atl.evicted.filter (fun g => g.ctx.sid != e.ctx.sid) = [] := by
      rw [hserved.atl, hevicted]
      simp
    exact hlist
  obtain ⟨hsid, hst, hwait, hpart, htask, hmask, hskew⟩ := returned_frame e s p
  refine ⟨_, e.returned s p, exec_readmission_of_room hevicted hcube hending htrain hadm htake hq hhand hfit hi hlow, ?_, hsid, hst, hwait,
    hpart, htask, hmask, hskew, ?_, ?_⟩
  · rw [hdone.1, hback, Cube.takesBack, vector_get_set, if_pos rfl]
  · rw [hdone.1, hback, Cube.takesBack, hready]
  · rw [hdone.2, hempty]
end

/-- Settles O48: evictions and migrations begin and are complete, strands come back, halt and end. -/
theorem strandEvents : Obligations.StrandEvents := by
  unfold Obligations.StrandEvents
  intro s c i x
  refine ⟨fun st unit h hevictable hlost hfit => ?_, fun unit n h hlost hq hsave hpatches =>
    exec_evictionComplete_of_quiet h hlost hq hsave hpatches, fun e p hevicted hcube hending htrain htake hadm hq hhand hfit hi hlow =>
    readmission_of_room hevicted hcube hending htrain hadm htake hq hhand hfit hi hlow, fun l t hl hslot hc hq hhand => ?_⟩
  · exact ⟨exec_evictionStart_of_fit h hevictable hlost hfit, exec_migration_of_fit h hevictable hlost hfit⟩
  · exact ⟨haltComplete_of_quiet hl hslot hc hq hhand, fun st z h hne hns hz hrec cause =>
      strandEndError_of_quiet hl hslot hc hq hhand h hne hns hz hrec cause⟩
end Sys2Proof.Machine

/-! PROOFS. A class that a self-test fences, and the residency report of a task that then goes back to the atelier (R237, R254, R378,
R380). -/
namespace Sys2Proof.Machine
open Sys2Proof.Say

/-- What a walk has given to the atelier: the page at 0x1000 of address space 0, in HBM. -/
def reportPage : Miss :=
  ⟨.bridge 0, 0, 1, false, [(.bridge 0, 0)], some (.leaf ((0x3FF <<< 42) ||| (1 <<< 11) ||| (1 <<< 7) ||| 7) 1)⟩
/-- A launch whose reports go to that page; of a batch of two tasks on cube 0, one still waits in its queue. -/
def reportingLaunch : Launch :=
  { slot := 5, gen := 0, prio := 0, ordered := false, reports := true, ntasks := 2, image := 0, asn := 0, part := 0, launchId := 0
    done := 0, faultRec := 0, report := 0x1000, arg0 := 0, arg1 := 0, arrival := 0, header := some { (default : Header) with opmask := 2 }
    untaken := [], batches := [⟨0, 0, 2, [0]⟩], started := 1, retired := 0, refused := 0, seen := [] }
/-- Cube 0 tests its class 1, and a task that needs it waits in its queue. -/
def testedCube : State :=
  { State.reset.modCube 0 (fun k => { k with
      con := { k.con with testing := some 1 }
      admission := [⟨5, 0, 0⟩] }) with
    atl := { State.reset.atl with board := [reportingLaunch] }, misses := [reportPage] }

theorem logRoom_testedCube : LogRoom testedCube 0 := by unfold LogRoom; decide +kernel
theorem mem_endTest_testedCube : (endTest testedCube 0 1 true).mem ≠ testedCube.mem := by decide +kernel

/-- Refutes O55: when a failed test fences a class, a queued task that needs it goes back to the atelier, and its batch, of which no task
waits any more, is reported in memory (R237, R254); the statement has memory unchanged. -/
theorem not_scrubAndSelfTest : ¬ Obligations.ScrubAndSelfTest := by
  intro h
  unfold Obligations.ScrubAndSelfTest at h
  obtain ⟨_, htests⟩ := h testedCube 0 logRoom_testedCube
  obtain ⟨_, _, hresult⟩ := htests 1
  obtain ⟨_, _, u, hexec, _, hmem, _⟩ := hresult rfl
  have hu : endTest testedCube 0 1 true = u :=
    Host.Outcome.next.inj ((exec_selfTestResult 0 1 true testedCube).symm.trans hexec)
  exact mem_endTest_testedCube (by rw [hu]; exact hmem)
end Sys2Proof.Machine

/-! PROOFS. The retirement of a cube: the commands of CON_RETIRE, and the copy of a granule (R380, R381). -/
namespace Sys2Proof.Machine
open Sys2Proof.Say

/-! ### Records of the conservator (R375) -/

/-- The record of a change of a cube's state. -/
theorem logRecord_life : logRecord 14 0 0 = record 14 0 0 := by decide

theorem logAdd_of_room {ws : List Word} (h : ws.length < 256) (w : Word) : logAdd ws w = ws ++ [w] := if_pos h

/-! ### Commands (R380, R381) -/

section
variable {s : State} {c : CubeId} (hroom : (s.cube c).con.ueLog.length < 255)

theorem exec_conRetireFence_of_dead (h : (s.cube c).hw.life ≠ .live) :
    ConBecomes s (.conRetireFence c) c fun q => { q with refused := true } := by
  rw [ConBecomes, exec_conRetireFence, execConRetireFence, retireFence, if_neg h]
  rfl

theorem exec_conRetireEvacuate_of_refused (h : (s.cube c).hw.life ≠ .memoryOnly ∨ planGood s c = false) (hq : Quiet s) :
    ConBecomes s (.conRetireEvacuate c) c fun q => { q with refused := true } := by
  have hcond : ¬ ((s.cube c).hw.life = .memoryOnly ∧ planGood s c = true) := fun ⟨hlife, hgood⟩ =>
    h.elim (fun hn => hn hlife) fun hn => Bool.false_ne_true (hn.symm.trans hgood)
  rw [ConBecomes, exec_conRetireEvacuate, execConRetireEvacuate, retireEvacuate]
  simp only [fireReads_quiet s hq, ite_self, if_neg hcond]
  rfl

theorem exec_conRetireFinish_of_refused (h : (s.cube c).hw.life ≠ .evacuating ∨ (s.cube c).con.evacTodo ≠ []) :
    ConBecomes s (.conRetireFinish c) c fun q => { q with refused := true } := by
  have hcond : ¬ ((s.cube c).hw.life = .evacuating ∧ (s.cube c).con.evacTodo.isEmpty = true) := fun ⟨hlife, hnil⟩ =>
    h.elim (fun hn => hn hlife) fun hn => hn (List.isEmpty_iff.1 hnil)
  rw [ConBecomes, exec_conRetireFinish, execConRetireFinish, retireFinish, if_neg hcond]
  rfl

theorem mem_planMoves {g d : Nat} : (g, d) ∈ planMoves s c ↔
    g < 64 ∧ (planWord s c g).getLsbD 63 = true ∧ d = (planWord s c g).toNat % 2 ^ 48 / 2 ^ 30 * 2 ^ 30 := by
  have hplace : ((planWord s c g).extractLsb' 30 18).toNat * 2 ^ 30 = (planWord s c g).toNat % 2 ^ 48 / 2 ^ 30 * 2 ^ 30 := by
    rw [BitVec.extractLsb'_toNat, Nat.shiftRight_eq_div_pow]
    omega
  rw [← hplace, planMoves, List.mem_filterMap]
  constructor
  · rintro ⟨g', hg', heq⟩
    simp only [Option.ite_none_right_eq_some, Option.some.injEq, Prod.mk.injEq] at heq
    obtain ⟨hbit, rfl, rfl⟩ := heq
    exact ⟨List.mem_range.1 hg', hbit, rfl⟩
  · rintro ⟨hg, hbit, rfl⟩
    exact ⟨g, List.mem_range.2 hg, by simp only [hbit, if_true]⟩

include hroom

theorem exec_conRetireFence_of_live (h : (s.cube c).hw.life = .live) : ∃ u, exec (.conRetireFence c) s = .next u ∧ Fenced u c ∧
    (u.cube c).con.refused = false ∧ (u.cube c).con.ueLog = (s.cube c).con.ueLog ++ [record 14 0 0] ∧ u.mem = s.mem := by
  have hlive : ((acceptRetire s c).cube c).hw.life = .live := by rw [acceptRetire, modCon, cube_modCube_self]; exact h
  have hexec : exec (.conRetireFence c) s = .next (fenceCube (acceptRetire s c) c) := by
    rw [exec_conRetireFence, execConRetireFence, retireFence, if_pos h]
  refine ⟨_, hexec, ?_, ?_, ?_, ?_⟩
  all_goals rw [fenceCube, if_pos hlive, logUe, acceptRetire, modCon, modCube_modCube, modCube_modCube]
  · rw [Fenced, cube_modCube_self]
    exact ⟨rfl, rfl⟩
  · rw [cube_modCube_self]
    rfl
  · rw [cube_modCube_self, ← logRecord_life]
    exact logAdd_of_room (Nat.lt_succ_of_lt hroom) _
  · rfl

theorem exec_conRetireEvacuate_of_good (h : (s.cube c).hw.life = .memoryOnly) (hgood : planGood s c = true) (hq : Quiet s) :
    exec (.conRetireEvacuate c) s = .next (s.modCube c fun k => { k with
      hw := { k.hw with life := .evacuating }
      con := { k.con with
        evacTodo := planMoves s c, evacMap := [], refused := false, ueLog := k.con.ueLog ++ [record 14 0 0] } }) := by
  rw [exec_conRetireEvacuate, execConRetireEvacuate, retireEvacuate]
  simp only [fireReads_quiet s hq, ite_self, if_pos (And.intro h hgood)]
  rw [logUe, setLife, modCon, acceptRetire, modCon, modCube_modCube, modCube_modCube, modCube_modCube]
  refine congrArg Host.Outcome.next (modCube_congr ?_)
  rw [← logRecord_life]
  simp only [logAdd_of_room (Nat.lt_succ_of_lt hroom)]

theorem exec_conRetireFinish_of_done (h : (s.cube c).hw.life = .evacuating) (hdone : (s.cube c).con.evacTodo = []) :
    exec (.conRetireFinish c) s = .next (s.modCube c fun k => { k with
      hw := { k.hw with life := .retired }
      con := { k.con with refused := false, ueLog := k.con.ueLog ++ [record 14 0 0] } }) := by
  rw [exec_conRetireFinish, execConRetireFinish, retireFinish, if_pos ⟨h, by rw [hdone]; rfl⟩]
  rw [logUe, setLife, acceptRetire, modCon, modCube_modCube, modCube_modCube]
  refine congrArg Host.Outcome.next (modCube_congr ?_)
  rw [← logRecord_life]
  simp only [logAdd_of_room (Nat.lt_succ_of_lt hroom)]
end

/-! ### Memory of which some cells are taken, or moved -/

/-- No cell stands below the first address. -/
theorem le_of_mem_memOk {m : List Host.Cell} {lo a : Nat} {v : Byte} (h : memOk lo m = true) (ha : (a, v) ∈ m) : lo ≤ a := by
  induction m generalizing lo with
  | nil => exact absurd ha List.not_mem_nil
  | cons x t ih =>
    obtain ⟨b, w⟩ := x
    simp only [memOk, Bool.and_eq_true, decide_eq_true_eq] at h
    rcases List.mem_cons.1 ha with heq | hin
    · cases heq
      exact h.1.1
    · have := ih h.2 hin
      omega

theorem memByte_of_mem {m : List Host.Cell} {lo a : Nat} {v : Byte} (h : memOk lo m = true) (ha : (a, v) ∈ m) : memByte m a = v := by
  induction m generalizing lo with
  | nil => exact absurd ha List.not_mem_nil
  | cons x t ih =>
    obtain ⟨b, w⟩ := x
    simp only [memOk, Bool.and_eq_true, decide_eq_true_eq] at h
    rcases List.mem_cons.1 ha with heq | hin
    · cases heq
      simp [memByte]
    · have hlow := le_of_mem_memOk h.2 hin
      rw [memByte, if_neg (by omega), if_neg (by omega)]
      exact ih h.2 hin

theorem memByte_of_notMem {m : List Host.Cell} {a : Nat} (h : ∀ v, (a, v) ∉ m) : memByte m a = unlisted := by
  induction m with
  | nil => rfl
  | cons x t ih =>
    obtain ⟨b, w⟩ := x
    have hne : b ≠ a := fun hba => h w (hba ▸ List.mem_cons_self)
    rw [memByte, if_neg hne]
    split
    · rfl
    · exact ih fun v hv => h v (List.mem_cons_of_mem _ hv)

/-- Cells that a test of their addresses leaves out read as unlisted ones. -/
theorem memByte_filter {m : List Host.Cell} (h : Memory.wf m) (q : Nat → Bool) (a : Nat) :
    memByte (m.filter fun x => q x.1) a = if q a then memByte m a else unlisted := by
  by_cases hsome : ∃ v, (a, v) ∈ m
  · obtain ⟨v, hv⟩ := hsome
    rw [memByte_of_mem h hv]
    split
    · next hq => exact memByte_of_mem (wf_filter _ m h) (List.mem_filter.2 ⟨hv, hq⟩)
    · next hq => exact memByte_of_notMem fun w hw => hq (List.mem_filter.1 hw).2
  · have hnone : ∀ v, (a, v) ∉ m := fun v hv => hsome ⟨v, hv⟩
    rw [memByte_of_notMem hnone, ite_self]
    exact memByte_of_notMem fun w hw => hnone w (List.mem_filter.1 hw).1

/-- The addresses of a memory in its canonical form differ. -/
theorem nodup_addresses {m : List Host.Cell} {lo : Nat} (h : memOk lo m = true) : (m.map Prod.fst).Nodup := by
  induction m generalizing lo with
  | nil => exact List.nodup_nil
  | cons x t ih =>
    obtain ⟨b, w⟩ := x
    simp only [memOk, Bool.and_eq_true, decide_eq_true_eq] at h
    refine List.nodup_cons.2 ⟨fun hin => ?_, ih h.2⟩
    obtain ⟨⟨a, v⟩, hav, rfl⟩ := List.mem_map.1 hin
    exact Nat.not_succ_le_self _ (le_of_mem_memOk h.2 hav)

theorem memByte_memWrite_of_mem {m : List Host.Cell} (h : Memory.wf m) {cells : List (Nat × Byte)} (hnd : (cells.map Prod.fst).Nodup)
    {a : Nat} {v : Byte} (hd : (a, v) ∈ cells) : memByte (memWrite m cells) a = v := by
  obtain ⟨front, back, rfl⟩ := List.append_of_mem hd
  refine memByte_memWrite_last _ front back a v h fun x hx hxa => ?_
  rw [List.map_append, List.map_cons, List.nodup_append] at hnd
  exact (List.nodup_cons.1 hnd.2.1).1 (List.mem_map.2 ⟨x, hx, hxa⟩)

/-! ### A granule that is copied (R381) -/

/-- Nothing keeps the conservator out anywhere (R402, R403). -/
def ConFree (s : State) : Prop := ∀ a, conBarred s a = false

theorem conFree_of {s : State} (h : s.secu.world.getLsbD 5 = true ∨ ∀ a, regionSecure s a = false) : ConFree s := fun a => by
  rw [conBarred]
  rcases h with hw | hr
  · rw [hw]
    simp
  · rw [hr]
    rfl

/-- Two granules have no place in common. -/
def Apart (x y : Nat) : Prop := x + 2 ^ 30 ≤ y ∨ y + 2 ^ 30 ≤ x

theorem inGranule_iff (base a : Nat) : inGranule base a = true ↔ base ≤ a ∧ a < base + 2 ^ 30 := by
  rw [inGranule, Bool.and_eq_true, decide_eq_true_eq, decide_eq_true_eq]

section
variable {s : State} (hfree : ConFree s) (hwf : Memory.wf s.mem) (src dst : Nat)
include hfree

theorem mem_moveGranule : (moveGranule src s dst).mem = memWrite (s.mem.filter fun x => !inGranule dst x.1)
    ((s.mem.filter fun x => inGranule src x.1).map fun x => (dst + (x.1 - src), x.2)) := by
  have hbar : ∀ a, conBarred s a = false := hfree
  rw [moveGranule]
  simp only [hbar, Bool.or_self, Bool.not_false, Bool.and_true, Bool.or_false]
  rfl

include hwf

theorem wf_moveGranule : Memory.wf (moveGranule src s dst).mem := by
  rw [mem_moveGranule hfree]
  exact wf_memWrite _ _ (wf_filter _ _ hwf)

theorem memByte_moveGranule_in {j : Nat} (hj : j < 2 ^ 30) : memByte (moveGranule src s dst).mem (dst + j) = memByte s.mem (src + j) := by
  rw [mem_moveGranule hfree]
  by_cases hsome : ∃ v, (src + j, v) ∈ s.mem
  · obtain ⟨v, hv⟩ := hsome
    have hnd : (((s.mem.filter fun x => inGranule src x.1).map fun x => (dst + (x.1 - src), x.2)).map Prod.fst).Nodup := by
      have hbase := nodup_addresses (wf_filter (fun x => inGranule src x.1) s.mem hwf)
      rw [List.map_map]
      refine List.Nodup.map_on (fun x hx y hy hxy => ?_) (List.Nodup.of_map _ hbase)
      have hxs := (inGranule_iff src x.1).1 (List.mem_filter.1 hx).2
      have hys := (inGranule_iff src y.1).1 (List.mem_filter.1 hy).2
      refine List.inj_on_of_nodup_map hbase hx hy ?_
      simp only [Function.comp] at hxy
      omega
    have hin : (dst + j, v) ∈ (s.mem.filter fun x => inGranule src x.1).map fun x => (dst + (x.1 - src), x.2) :=
      List.mem_map.2 ⟨(src + j, v), List.mem_filter.2 ⟨hv, (inGranule_iff src (src + j)).2 (by omega)⟩, by
        rw [Nat.add_sub_cancel_left]⟩
    rw [memByte_memWrite_of_mem (wf_filter _ _ hwf) hnd hin, memByte_of_mem hwf hv]
  · have hnone : ∀ v, (src + j, v) ∉ s.mem := fun v hv => hsome ⟨v, hv⟩
    have hout : ∀ x ∈ (s.mem.filter fun x => inGranule src x.1).map (fun x => (dst + (x.1 - src), x.2)), x.1 ≠ dst + j := by
      intro x hx hxa
      obtain ⟨⟨b, w⟩, hb, rfl⟩ := List.mem_map.1 hx
      obtain ⟨hbm, hbs⟩ := List.mem_filter.1 hb
      have hbs' := (inGranule_iff src b).1 hbs
      have hbj : b = src + j := by simp only [] at hxa; omega
      exact hnone w (hbj ▸ hbm)
    have hgone : (!inGranule dst (dst + j)) = false := by rw [(inGranule_iff dst (dst + j)).2 (by omega)]; rfl
    rw [memByte_memWrite_ne _ _ _ (wf_filter _ _ hwf) hout, memByte_filter hwf (fun a => !inGranule dst a), hgone, memByte_of_notMem hnone]
    rfl

theorem memByte_moveGranule_out {a : Nat} (ha : a < dst ∨ dst + 2 ^ 30 ≤ a) : memByte (moveGranule src s dst).mem a = memByte s.mem a := by
  have hout : ∀ x ∈ (s.mem.filter fun x => inGranule src x.1).map (fun x => (dst + (x.1 - src), x.2)), x.1 ≠ a := by
    intro x hx hxa
    obtain ⟨⟨b, w⟩, hb, rfl⟩ := List.mem_map.1 hx
    have hbs := (inGranule_iff src b).1 (List.mem_filter.1 hb).2
    simp only [] at hxa
    omega
  have hkept : (!inGranule dst a) = true := by
    rw [Bool.not_eq_true', ← Bool.not_eq_true, inGranule_iff]
    omega
  rw [mem_moveGranule hfree, memByte_memWrite_ne _ _ _ (wf_filter _ _ hwf) hout, memByte_filter hwf (fun a => !inGranule dst a), hkept]
  rfl
end

/-- A granule that is copied changes no cube. -/
theorem cubes_foldl_moveGranule (src : Nat) (ds : List Nat) (s : State) : (ds.foldl (moveGranule src) s).cubes = s.cubes := by
  induction ds generalizing s with
  | nil => rfl
  | cons d ds ih => exact (ih (moveGranule src s d)).trans rfl

/-- What stands at the destinations, and everywhere else, once a granule has been copied to all of them. -/
theorem memByte_foldl_moveGranule {src : Nat} {ds : List Nat} {s : State} (hfree : ConFree s) (hwf : Memory.wf s.mem)
    (hsrc : ∀ x ∈ ds, Apart src x) (hds : ds.Pairwise Apart) :
    (∀ x ∈ ds, ∀ j, j < 2 ^ 30 → memByte (ds.foldl (moveGranule src) s).mem (x + j) = memByte s.mem (src + j)) ∧
      ∀ a, (∀ x ∈ ds, a < x ∨ x + 2 ^ 30 ≤ a) → memByte (ds.foldl (moveGranule src) s).mem a = memByte s.mem a := by
  induction ds generalizing s with
  | nil => exact ⟨fun x hx => absurd hx List.not_mem_nil, fun _ _ => rfl⟩
  | cons d ds ih =>
    obtain ⟨hd, hds'⟩ := List.pairwise_cons.1 hds
    obtain ⟨hin, hout⟩ := ih (s := moveGranule src s d) hfree (wf_moveGranule hfree hwf src d)
      (fun x hx => hsrc x (List.mem_cons_of_mem d hx)) hds'
    have hkept : ∀ j, j < 2 ^ 30 → memByte (moveGranule src s d).mem (src + j) = memByte s.mem (src + j) := fun j hj =>
      memByte_moveGranule_out hfree hwf src d (by have := hsrc d List.mem_cons_self; unfold Apart at this; omega)
    refine ⟨fun x hx j hj => ?_, fun a ha => ?_⟩
    · rcases List.mem_cons.1 hx with rfl | hx
      · have hapart : ∀ y ∈ ds, x + j < y ∨ y + 2 ^ 30 ≤ x + j := fun y hy => by
          have := hd y hy
          unfold Apart at this
          omega
        rw [List.foldl_cons, hout _ hapart, memByte_moveGranule_in hfree hwf src x hj]
      · rw [List.foldl_cons, hin x hx j hj, hkept j hj]
    · rw [List.foldl_cons, hout a fun x hx => ha x (List.mem_cons_of_mem d hx),
        memByte_moveGranule_out hfree hwf src d (ha d List.mem_cons_self)]

theorem fireIn_quiet {s : State} (h : Quiet s) (here : Nat → Bool) : fireIn s here = s := by
  have hnone : ((List.finRange 8).filterMap fun c =>
      if (s.cube c).con.injArm && here ((s.cube c).con.injAddr.toNat * 64) then some (s.cube c).con.injAddr.toNat else none) = [] := by
    rw [List.filterMap_eq_nil_iff]
    intro c _
    rw [h c]
    rfl
  rw [fireIn, hnone]
  rfl

theorem exec_evacGranuleCopied_of_todo {s : State} {c : CubeId} {g d : Nat} {rest : List (Nat × Nat)}
    (hlife : (s.cube c).hw.life = .evacuating) (htodo : (s.cube c).con.evacTodo = (g, d) :: rest) (hq : Quiet s) :
    exec (.evacGranuleCopied c) s = .next (modCon ((d :: chainOf 8 s d).foldl (moveGranule (c.val * 2 ^ 36 + g * 2 ^ 30)) s) c fun q =>
      { q with evacTodo := rest, evacMap := q.evacMap ++ [(g, d)] }) := by
  rw [exec_evacGranuleCopied, execEvacGranuleCopied, copyGranule]
  simp only [hlife, htodo, fireIn_quiet hq]

/-- Settles O56: the commands of CON_RETIRE, and the granule that is copied to its destination and on. -/
theorem retirement : Obligations.Retirement := by
  unfold Obligations.Retirement
  rintro s c ⟨-, hroom⟩
  refine ⟨exec_conRetireFence_of_dead, exec_conRetireFence_of_live hroom, exec_conRetireEvacuate_of_refused,
    fun hlife hgood hq => ⟨planMoves s c, exec_conRetireEvacuate_of_good hroom hlife hgood hq, fun g d => mem_planMoves⟩,
    exec_conRetireFinish_of_refused, exec_conRetireFinish_of_done hroom, fun g d rest hlife htodo hq hwf hworld => ?_⟩
  intro src apart ds hsrc hds
  obtain ⟨hin, hout⟩ := memByte_foldl_moveGranule (conFree_of hworld) hwf hsrc hds
  refine ⟨_, exec_evacGranuleCopied_of_todo hlife htodo hq, ?_, hin, hout⟩
  have hcube : (ds.foldl (moveGranule src) s).cube c = s.cube c := congrArg (Vector.get · c) (cubes_foldl_moveGranule src ds s)
  rw [modCon, cube_modCube_self, hcube]
end Sys2Proof.Machine

namespace Sys2Proof.Machine
open Sys2Proof.Say
/-! PROOFS. The layers' power states (chapter 15): what the operations of the power model do to a layer's record, and O57. -/

theorem layerPwr_eq (k : Cube) (l : Fin 8) : k.layerPwr l.val = k.pwr.layers.get l := by
  simp [Cube.layerPwr, Vector.get]

/-- Counting the changed steps leaves the layers' records. -/
@[simp] theorem layers_stepped (old new : State) (d : CubeId) :
    ((stepped old new).cube d).pwr.layers = (new.cube d).pwr.layers := by
  simp [stepped, State.cube, Vector.get] <;> rfl

@[simp] theorem mem_stepped (old new : State) : (stepped old new).mem = new.mem := rfl

theorem layer_modLayer_same (s : State) (c : CubeId) (l : Fin 8) (f : LayerPwr → LayerPwr) :
    ((modLayer s c l f).cube c).pwr.layers.get l = f ((s.cube c).pwr.layers.get l) := by
  rw [modLayer, cube_modCube_self]
  exact (vector_get_set (s.cube c).pwr.layers l l _).trans (if_pos rfl)

theorem layer_modLayer_other (s : State) (c d : CubeId) (l m : Fin 8) (f : LayerPwr → LayerPwr) (h : (d, m) ≠ (c, l)) :
    ((modLayer s c l f).cube d).pwr.layers.get m = (s.cube d).pwr.layers.get m := by
  rw [modLayer, cube_modCube]
  split
  case isFalse => rfl
  case isTrue hd =>
    subst hd
    exact (vector_get_set (s.cube d).pwr.layers l m _).trans (if_neg fun e => h (by rw [e]))

/-- An event that changes no layer's record but one. -/
theorem layerBecomes_of_layers {s u : State} {i : Instr} {c : CubeId} {l : Fin 8} {z : LayerPwr → LayerPwr} (h : exec i s = .next u)
    (hl : ∀ d, (u.cube d).pwr.layers = ((modLayer s c l z).cube d).pwr.layers) (hm : u.mem = s.mem) : LayerBecomes s i c l z := by
  refine ⟨u, h, ?_, hm, fun d m hne => ?_⟩
  · rw [hl, layer_modLayer_same]
  · rw [hl, layer_modLayer_other _ _ _ _ _ _ hne]

theorem layer_modLayers (s : State) (c : CubeId) (f : Fin 8 → LayerPwr → LayerPwr) (l : Fin 8) :
    ((modLayers s c f).cube c).pwr.layers.get l = f l ((s.cube c).pwr.layers.get l) := by
  rw [modLayers, cube_modCube_self]
  simp [Vector.get] <;> rfl

/-! ### The limiter's period and the gating of layers (R386, R387) -/

/-- The layer that a period wakes. -/
def Cube.granted (k : Cube) (es : List Nat) : Option Nat :=
  (List.range 8).find? fun l => (k.layerPwr l).gated && (k.layerPwr l).pend && mayWake k es l

theorem layer_limiterTick (s : State) (c : CubeId) (es : List Nat) (l : Fin 8) :
    ((limiterTick s c es).cube c).pwr.layers.get l =
      (let y := (s.cube c).pwr.layers.get l
       if y.gated then (if (s.cube c).granted es = some l.val then { y with gated := false, pend := false, ramp := true, idle := 0 } else y)
       else limitStep (layerBudget (s.cube c)) (awakeLayers (s.cube c)).length (es.getD l.val 0) y) := by
  rw [limiterTick, layers_stepped, layer_modLayers]
  rfl

/-- The lowest layer that waits for its wake is granted it when it fits the budget. -/
theorem granted_of_lowest (k : Cube) (es : List Nat) (l : Fin 8) (hg : (k.pwr.layers.get l).gated = true)
    (hp : (k.pwr.layers.get l).pend = true) (hw : mayWake k es l = true) (hlow : ∀ m, m < l.val → (k.layerPwr m).pend = false) :
    k.granted es = some l.val := by
  rw [Cube.granted, List.find?_range_eq_some]
  refine ⟨?_, List.mem_range.mpr l.isLt, fun m hm => ?_⟩
  · simp [layerPwr_eq, hg, hp, hw]
  · simp [hlow m hm]

/-- A layer that does not wait for its wake is not granted it. -/
theorem granted_ne_of_not_pend (k : Cube) (es : List Nat) (l : Fin 8) (hp : (k.pwr.layers.get l).pend = false) :
    k.granted es ≠ some l.val := by
  intro h
  have := List.find?_some h
  simp [layerPwr_eq, hp] at this

theorem limitStep_over {budget n e : Nat} (y : LayerPwr) (h : budget < e * 10 * n) :
    limitStep budget n e y = { y with lim := stepUp y.lim, low := 0, estimate := e } := by
  rw [limitStep, if_pos h, stepUp]

theorem limitStep_between {budget n e : Nat} (y : LayerPwr) (h : e * 10 * n ≤ budget) (h' : 3 * budget ≤ e * 40 * n) :
    limitStep budget n e y = { y with low := 0, estimate := e } := by
  rw [limitStep, if_neg (by omega), if_neg (by omega)]

theorem limitStep_under {budget n e : Nat} (y : LayerPwr) (h : e * 10 * n ≤ budget) (h' : e * 40 * n < 3 * budget) :
    limitStep budget n e y =
      if y.low < 4 then { y with low := y.low + 1, estimate := e } else { y with lim := stepDown y.lim, low := 0, estimate := e } := by
  rw [limitStep, if_neg (by omega), if_pos h', stepDown]
  by_cases hy : y.low < 4
  · rw [if_pos hy, if_neg (by omega)]
  · rw [if_neg hy, if_pos (by omega)]

theorem gateLayer_of_idle (s : State) (c : CubeId) (l : Fin 8) (ht : (s.cube c).pwr.gateIdle ≠ 0)
    (hb : (planesBusy (s.cube c)).getLsbD l.val = false) (hg : ((s.cube c).pwr.layers.get l).gated = false)
    (hi : (s.cube c).pwr.gateIdle.toNat ≤ ((s.cube c).pwr.layers.get l).idle) :
    gateLayer s c l = modLayer s c l fun y => { y with gated := true, pend := false, ramp := false, idle := 0, estimate := 0 } := by
  have hn : (s.cube c).pwr.gateIdle.toNat ≠ 0 := fun h => ht (BitVec.eq_of_toNat_eq h)
  simp [gateLayer, layerPwr_eq, layerIdle, hb, hg, hi, hn, -BitVec.getLsbD_eq_getElem]

theorem gateLayer_of_not (s : State) (c : CubeId) (l : Fin 8) (h : (s.cube c).pwr.gateIdle = 0 ∨
    (planesBusy (s.cube c)).getLsbD l.val = true ∨ ((s.cube c).pwr.layers.get l).idle < (s.cube c).pwr.gateIdle.toNat) :
    gateLayer s c l = s := by
  rw [gateLayer]
  refine if_neg fun ⟨ht, hb, _, hi⟩ => ?_
  rw [layerPwr_eq] at hi
  rcases h with h | h | h
  · exact ht (by rw [h]; rfl)
  · simp [layerIdle, h, -BitVec.getLsbD_eq_getElem] at hb
  · omega

/-! ### Temperatures (R388, R390) -/

/-- The hottest of some readings above a floor. -/
theorem foldl_hotter (ts : List (BitVec 8)) (a : BitVec 8) :
    let t := ts.foldl (fun a t => if a.toNat < t.toNat then t else a) a
    a.toNat ≤ t.toNat ∧ (∀ x ∈ ts, x.toNat ≤ t.toNat) ∧ (t = a ∨ t ∈ ts) := by
  induction ts generalizing a with
  | nil => simp
  | cons x ts ih =>
    by_cases hx : a.toNat < x.toNat
    · simp only [List.foldl_cons, if_pos hx]
      obtain ⟨hfloor, hall, hsome⟩ := ih x
      refine ⟨by omega, List.forall_mem_cons.mpr ⟨hfloor, hall⟩, .inr ?_⟩
      rcases hsome with e | e
      · exact List.mem_cons.mpr (.inl e)
      · exact List.mem_cons_of_mem _ e
    · simp only [List.foldl_cons, if_neg hx]
      obtain ⟨hfloor, hall, hsome⟩ := ih a
      exact ⟨hfloor, List.forall_mem_cons.mpr ⟨by omega, hall⟩, hsome.imp_right (List.mem_cons_of_mem _)⟩

theorem le_hottest {ts : List (BitVec 8)} {x : BitVec 8} (h : x ∈ ts) : x.toNat ≤ (hottest ts).toNat :=
  (foldl_hotter ts 0).2.1 x h

theorem hottest_mem {ts : List (BitVec 8)} (h : ts ≠ []) : hottest ts ∈ ts := by
  obtain ⟨x, hx⟩ := List.exists_mem_of_ne_nil ts h
  rcases (foldl_hotter ts 0).2.2 with e | e
  · have hle := le_hottest hx
    have h0 : (hottest ts).toNat = 0 := by rw [hottest, e]; rfl
    have : x = hottest ts := BitVec.eq_of_toNat_eq (by omega)
    exact this ▸ hx
  · exact e

theorem hottest_lt {ts : List (BitVec 8)} {n : Nat} (h0 : 0 < n) (h : ∀ x ∈ ts, x.toNat < n) : (hottest ts).toNat < n := by
  rcases (foldl_hotter ts 0).2.2 with e | e
  · rw [hottest, e]; exact h0
  · exact h _ e

/-- The base and the inactive die of a cube stand tripped after a sample. -/
def PwrRegs.dieTrips (q : PwrRegs) (ts : Temps) : Bool :=
  let extra := [hottest ts.inactive, hottest ts.base]
  if (extra.any fun t => decide (q.tTrip.toNat ≤ t.toNat)) then true
  else if (extra.all fun t => decide (t.toNat < q.tThrot.toNat)) then false else q.dieTrip

theorem layer_sampleCube (s : State) (c : CubeId) (ts : Temps) (l : Fin 8) :
    ((sampleCube s c ts).cube c).pwr.layers.get l =
      sampleLayer (s.cube c).pwr ((s.cube c).pwr.dieTrips ts) (layerIdle (s.cube c) l) (layerHeat ts l.val)
        ((s.cube c).pwr.layers.get l) := by
  rw [sampleCube, layers_stepped, layer_modLayers, cube_modCube_self]
  rfl

theorem dieTrips_of_trip (q : PwrRegs) (ts : Temps) (h : ∃ x ∈ ts.inactive ++ ts.base, q.tTrip.toNat ≤ x.toNat) :
    q.dieTrips ts = true := by
  obtain ⟨x, hx, ht⟩ := h
  have : q.tTrip.toNat ≤ (hottest ts.inactive).toNat ∨ q.tTrip.toNat ≤ (hottest ts.base).toNat := by
    rcases List.mem_append.mp hx with h | h
    · exact .inl (ht.trans (le_hottest h))
    · exact .inr (ht.trans (le_hottest h))
  simp [PwrRegs.dieTrips, this]

theorem dieTrips_of_cool (q : PwrRegs) (ts : Temps) (h0 : 0 < q.tThrot.toNat) (hle : q.tThrot.toNat ≤ q.tTrip.toNat)
    (h : ∀ x ∈ ts.inactive ++ ts.base, x.toNat < q.tThrot.toNat) : q.dieTrips ts = false := by
  have h1 := hottest_lt h0 fun x hx => h x (List.mem_append_left _ hx)
  have h2 := hottest_lt h0 fun x hx => h x (List.mem_append_right _ hx)
  have h3 : ¬ (q.tTrip.toNat ≤ (hottest ts.inactive).toNat ∨ q.tTrip.toNat ≤ (hottest ts.base).toNat) := by omega
  simp only [PwrRegs.dieTrips, List.any_cons, List.any_nil, Bool.or_false, List.all_cons, List.all_nil, Bool.and_true,
    ← Bool.decide_or, decide_eq_true_eq]
  rw [if_neg h3, if_pos (by simp [h1, h2])]

theorem held_sampleLayer_of_trip (q : PwrRegs) (die idle : Bool) (t : BitVec 8) (y : LayerPwr) (h : q.tTrip.toNat ≤ t.toNat) :
    (sampleLayer q die idle t y).held = true ∧ (sampleLayer q die idle t y).therm = 7 := by
  simp [sampleLayer, h]

theorem held_sampleLayer_of_cool (q : PwrRegs) (idle : Bool) (t : BitVec 8) (y : LayerPwr) (h : t.toNat < q.tThrot.toNat)
    (hle : q.tThrot.toNat ≤ q.tTrip.toNat) : (sampleLayer q false idle t y).held = false := by
  simp [sampleLayer, h, show ¬ q.tTrip.toNat ≤ t.toNat by omega]

end Sys2Proof.Machine

namespace Sys2Proof
open Sys2Proof.Machine Sys2Proof.Say

/-- Settles O57: each event writes one layer's record, or all by one function, and the count of changed steps leaves the records. -/
theorem layerEvents : Obligations.LayerEvents := by
  unfold Obligations.LayerEvents
  intro s c l y q
  refine ⟨fun es => ⟨limiterTick s c es, exec_limiterPeriod .., rfl, ?_⟩, fun ht hb hg hi => ?_, fun h => ?_, ?_,
    fun ts => ⟨sampleCube s c ts, exec_thermalSample .., rfl, ?_⟩, fun h => ?_, fun h => ?_, fun h => ?_, fun h => ?_,
    fun ht hh hm => ?_, fun h => ?_⟩
  · intro n e budget
    have hl := layer_limiterTick s c es l
    refine ⟨fun hg h => ?_, fun hg h h' => ?_, fun hg h h' => ?_, fun hg hp => ?_, fun hg hp hw hlow => ?_⟩
    · rw [hl]
      simp only [show ((s.cube c).pwr.layers.get l).gated = false from hg, Bool.false_eq_true, if_false]
      exact limitStep_over _ h
    · rw [hl]
      simp only [show ((s.cube c).pwr.layers.get l).gated = false from hg, Bool.false_eq_true, if_false]
      exact limitStep_between _ h h'
    · rw [hl]
      simp only [show ((s.cube c).pwr.layers.get l).gated = false from hg, Bool.false_eq_true, if_false]
      exact limitStep_under _ h h'
    · rw [hl]
      simp only [show ((s.cube c).pwr.layers.get l).gated = true from hg, if_true]
      exact if_neg (granted_ne_of_not_pend _ _ _ hp)
    · rw [hl]
      simp only [show ((s.cube c).pwr.layers.get l).gated = true from hg, if_true]
      exact if_pos (granted_of_lowest _ _ _ hg hp hw hlow)
  · exact layerBecomes_of_layers (by rw [exec_layerGate, execLayerGate, gateLayer_of_idle s c l ht hb hg hi]) (fun _ => rfl) rfl
  · rw [exec_layerGate, execLayerGate, gateLayer_of_not s c l h]
  · exact layerBecomes_of_layers (exec_layerRampDone ..) (fun _ => rfl) rfl
  · intro own rest z t
    have hz : z = sampleLayer q (q.dieTrips ts) (layerIdle (s.cube c) l) (layerHeat ts l.val) y := layer_sampleCube s c ts l
    have ht : t = hottest own := by rw [show t = z.temp from rfl, hz]; rfl
    refine ⟨fun x hx => ht ▸ le_hottest hx, fun h => ht ▸ hottest_mem h, by rw [ht, hz]; rfl, by rw [ht, hz]; rfl, fun h => ?_,
      fun h => ?_, fun h => ?_, fun hle h hrest => ?_⟩
    · rw [hz]
      exact held_sampleLayer_of_trip _ _ _ _ _ (le_of_le_of_eq h (congrArg _ ht))
    · rw [hz]
      exact if_neg (Nat.not_le.mpr (lt_of_eq_of_lt (congrArg _ ht.symm) h))
    · rw [hz, dieTrips_of_trip q ts h, sampleLayer]
      exact Bool.or_true _
    · rw [hz, dieTrips_of_cool q ts (by omega) hle hrest]
      exact held_sampleLayer_of_cool _ _ _ _ (lt_of_eq_of_lt (congrArg _ ht.symm) h) hle
  · exact layerBecomes_of_layers (by rw [exec_thermalStepRaise, execThermalStepRaise, raiseThermal, layerPwr_eq, if_pos h]; rfl)
      (layers_stepped s _) rfl
  · rw [exec_thermalStepRaise, execThermalStepRaise, raiseThermal, layerPwr_eq, if_neg (Nat.not_le.mpr h)]
  · exact layerBecomes_of_layers (by rw [exec_thermalStepLower, execThermalStepLower, lowerThermal, layerPwr_eq, if_pos h]; rfl)
      (layers_stepped s _) rfl
  · rw [exec_thermalStepLower, execThermalStepLower, lowerThermal, layerPwr_eq, if_neg (Nat.not_le.mpr h)]
  · have hn : q.migTime.toNat ≠ 0 := fun h => ht (BitVec.eq_of_toNat_eq h)
    have he : exec (.migrationRequest c l) s =
        .next (raiseIrq (modLayer s c l fun y => { y with migreq := true }) (irqMigrate c l)) := by
      rw [exec_migrationRequest, execMigrationRequest, requestMigration, layerPwr_eq]
      exact congrArg _ (if_pos ⟨hn, hh, by simpa using hm⟩)
    exact layerBecomes_of_layers he (fun _ => rfl) rfl
  · rw [exec_migrationRequest, execMigrationRequest, requestMigration, layerPwr_eq]
    refine congrArg _ (if_neg fun ⟨ht, hh, hm⟩ => ?_)
    rcases h with h | h | h
    · exact ht (congrArg BitVec.toNat h)
    · exact absurd hh (Nat.not_le.mpr h)
    · simp [show ((s.cube c).pwr.layers.get l).migreq = true from h] at hm

end Sys2Proof

namespace Sys2Proof.Machine
open Sys2Proof.Say
/-! PROOFS. Caps, the governor and the rail (chapter 15), and O58. -/

/-! ### Broadcasts (R391) -/

theorem packLE_one (x : Byte) : packLE [x] = x.toNat := by
  simp [packLE]

/-- The bytes of a broadcast are read as that broadcast. -/
theorem broadcastOf_castBytes (b : Broadcast) : broadcastOf (castBytes b) = some b := by
  have hseq : packLE (bytesLE 4 b.seq.toNat) = b.seq.toNat := by
    rw [packLE_bytesLE]
    exact Nat.mod_eq_of_lt b.seq.isLt
  have hrank : (b.rank.setWidth 8).toNat = b.rank.toNat := by
    rw [BitVec.toNat_setWidth]
    exact Nat.mod_eq_of_lt (by have := b.rank.isLt; omega)
  have hfrac : (b.frac.setWidth 8).toNat = b.frac.toNat := by
    rw [BitVec.toNat_setWidth]
    exact Nat.mod_eq_of_lt (by have := b.frac.isLt; omega)
  have h0 : packLE (((castBytes b).drop 0).take 2) = 0x0C01 := by simp [castBytes, packLE]
  have h2 : packLE (((castBytes b).drop 2).take 1) = if b.active then 1 else 0 := by
    rw [show ((castBytes b).drop 2).take 1 = [if b.active then 1 else 0] from rfl, packLE_one]
    split <;> rfl
  have h3 : packLE (((castBytes b).drop 3).take 1) = b.rank.toNat := (packLE_one _).trans hrank
  have h4 : packLE (((castBytes b).drop 4).take 1) = b.frac.toNat := (packLE_one _).trans hfrac
  have h5 : packLE (((castBytes b).drop 5).take 3) = 0 := rfl
  have h8 : packLE (((castBytes b).drop 8).take 4) = b.seq.toNat := hseq
  have h12 : packLE (((castBytes b).drop 12).take 4) = 0 := rfl
  have hform : (if b.active then 1 else 0) ≤ 1 ∧ b.rank.toNat ≤ 7 ∧ b.frac.toNat ≤ 15 := by
    have := b.rank.isLt
    have := b.frac.isLt
    split <;> omega
  simp only [broadcastOf]
  rw [h0, h2, h3, h4, h5, h8, h12, if_pos ⟨rfl, rfl, hform.1, hform.2.1, hform.2.2, rfl, rfl⟩]
  simp only [BitVec.ofNat_toNat, BitVec.setWidth_eq]
  obtain ⟨seq, active, frac, rank⟩ := b
  cases active <;> rfl

theorem broadcastOf_of_length {bs : List Byte} (h : bs.length ≠ 16) : broadcastOf bs = none :=
  if_neg fun hc => h hc.1

/-! ### The governor (R392, R393) -/

/-- The state in whose caps a period's groups are tested: a broadcast that waited is in force. -/
def State.cast (s : State) : State :=
  match s.power.next with
  | some b => { s with power := { s.power with bcast := b, next := none } }
  | none => s

theorem cast_of_none {s : State} (h : s.power.next = none) : s.cast = s := by
  rw [State.cast, h]

theorem cast_bcast (s : State) : s.cast.power.bcast = s.power.next.getD s.power.bcast ∧ s.cast.power.next = none := by
  rw [State.cast]
  cases h : s.power.next <;> simp [h]

theorem mem_cast (s : State) : s.cast.mem = s.mem := by
  rw [State.cast]
  split <;> rfl

/-- What a period leaves of a group where the package has no cap. -/
theorem group_governorTick (s : State) (ps : List Nat) (n : Fin 9) (hp : pkgLimit s.cast = none) (hh : hostLimit s.cast = none) :
    (governorTick s ps).power.groups.get n =
      (let g := s.cast.power.groups.get n
       let p := ps.getD n.val 0
       let r := ownRaise s.cast n p g
       if r.2 then r.1
       else lowerGroup s.cast n p (ps.getD 9 ((ps.take 9).foldl (· + ·) 0)) (r.1.lastCap != g.lastCap) r.1) := by
  cases h : s.power.next <;> simp only [State.cast, h] at hp hh ⊢ <;> simp [governorTick, stepped, h, hp, hh, Vector.get, minCap] <;> rfl

/-- The only cap of a group is its own. -/
structure OwnCap (s : State) (n : Fin 9) (g : Group) : Prop where
  some : ownCap g = .some (128 * g.cap.toNat)
  cast : castCap s n g = none
  last : g.lastCap = 128 * g.cap.toNat + 1

theorem ownRaise_of_above {s : State} {n : Fin 9} {p : Nat} {g : Group} (h : OwnCap s n g) (hp : g.cap.toNat < p) :
    ownRaise s n p g = ({ g with power := BitVec.ofNat 16 (min p 0xFFFF), step := stepUp g.step, byPart := true
                                 hist := [], unmet := g.step == 7 }, true) := by
  simp [ownRaise, h.some, h.cast, h.last, minCap, stepUp, hp]

theorem ownRaise_of_within {s : State} {n : Fin 9} {p : Nat} {g : Group} (h : OwnCap s n g) (hp : p ≤ g.cap.toNat) :
    ownRaise s n p g = ({ g with power := BitVec.ofNat 16 (min p 0xFFFF), unmet := false }, false) := by
  simp [ownRaise, h.some, h.cast, h.last, minCap, show ¬ g.cap.toNat < p by omega]

/-- A measurement of a group with a cap of its own only lies below 15/16 of it. -/
theorem bindsBelow_iff {s : State} {n : Fin 9} {g : Group} (h : OwnCap s n g) (hp : pkgLimit s = none) (hh : hostLimit s = none)
    (x : Nat × Nat) : bindsBelow s n g x = true ↔ 16 * x.1 < 15 * g.cap.toNat := by
  simp only [bindsBelow, h.some, h.cast, hp, hh, capsList, Option.toList, List.append_nil, List.all_cons, List.all_nil, Bool.and_true,
    Bool.or_true, decide_eq_true_eq]
  omega

/-- The measurements of a group with the newest. -/
def Group.measured (g : Group) (p pkg : Nat) : List (Nat × Nat) := (p, pkg) :: g.hist.take 9

/-- A group at step 0 has no cause of a raise. -/
def Group.calmed (g : Group) : Group :=
  if g.step = 0 then { g with byPart := false, byRank := false, byPkg := false, byHost := false } else g

theorem calmed_keeps (g : Group) : g.calmed.power = g.power ∧ g.calmed.step = g.step ∧ g.calmed.hist = g.hist := by
  rw [Group.calmed]
  split <;> exact ⟨rfl, rfl, rfl⟩

theorem lowerGroup_eq (s : State) (n : Fin 9) (p pkg : Nat) (g : Group) :
    lowerGroup s n p pkg false g =
      (if (g.measured p pkg).length = 10 ∧ (g.measured p pkg).all (bindsBelow s n g) then
        { g with step := stepDown g.step, hist := [] } else { g with hist := g.measured p pkg }).calmed := rfl

theorem lowerGroup_of_low {s : State} {n : Fin 9} {p pkg : Nat} {g : Group}
    (hl : (g.measured p pkg).length = 10 ∧ (g.measured p pkg).all (bindsBelow s n g)) :
    let z := lowerGroup s n p pkg false g
    z.power = g.power ∧ z.step = stepDown g.step ∧ z.hist = [] := by
  rw [lowerGroup_eq, if_pos hl]
  exact calmed_keeps _

theorem lowerGroup_of_not_low {s : State} {n : Fin 9} {p pkg : Nat} {g : Group}
    (hl : ¬ ((g.measured p pkg).length = 10 ∧ (g.measured p pkg).all (bindsBelow s n g))) :
    let z := lowerGroup s n p pkg false g
    z.power = g.power ∧ z.step = g.step ∧ z.hist = g.measured p pkg := by
  rw [lowerGroup_eq, if_neg hl]
  exact calmed_keeps _

/-- A group that its measurement does not raise. -/
theorem group_of_within {s : State} {ps : List Nat} {n : Fin 9} (hn : s.power.next = none) (hp : pkgLimit s = none)
    (hh : hostLimit s = none) (h : OwnCap s n (s.power.groups.get n)) (hle : ps.getD n.val 0 ≤ (s.power.groups.get n).cap.toNat) :
    (governorTick s ps).power.groups.get n =
      lowerGroup s n (ps.getD n.val 0) (ps.getD 9 ((ps.take 9).foldl (· + ·) 0)) false
        { s.power.groups.get n with power := BitVec.ofNat 16 (min (ps.getD n.val 0) 0xFFFF), unmet := false } := by
  have hc := cast_of_none hn
  rw [group_governorTick s ps n (hc.symm ▸ hp) (hc.symm ▸ hh), hc]
  simp only [ownRaise_of_within h hle, Bool.false_eq_true, if_false, bne_self_eq_false]

/-- A group that its measurement raises. -/
theorem group_of_above {s : State} {ps : List Nat} {n : Fin 9} (hn : s.power.next = none) (hp : pkgLimit s = none)
    (hh : hostLimit s = none) (h : OwnCap s n (s.power.groups.get n)) (hlt : (s.power.groups.get n).cap.toNat < ps.getD n.val 0) :
    (governorTick s ps).power.groups.get n =
      { s.power.groups.get n with power := BitVec.ofNat 16 (min (ps.getD n.val 0) 0xFFFF)
                                  step := stepUp (s.power.groups.get n).step, byPart := true, hist := []
                                  unmet := (s.power.groups.get n).step == 7 } := by
  have hc := cast_of_none hn
  rw [group_governorTick s ps n (hc.symm ▸ hp) (hc.symm ▸ hh), hc]
  simp only [ownRaise_of_above h hlt, if_true]

/-- Settles O58: the governor's period in the cases of one measurement of a group, and the other events by their conditions. -/
theorem packagePower : Obligations.PackagePower := by
  unfold Obligations.PackagePower
  intro s
  refine ⟨fun b hs hn hq => ?_, fun b h => ?_, fun bytes h => ?_, fun ps => ⟨governorTick s ps, exec_governorPeriod .., ?_, ?_, ?_, ?_⟩,
    fun mv => ⟨fun h1 h2 => ?_, fun h => ?_⟩, fun h => ?_, fun h1 h2 => ?_, fun b => ⟨fun h => ?_, fun h => ?_⟩⟩
  · rw [exec_capBroadcast, execCapBroadcast, receiveBroadcast, broadcastOf_castBytes]
    simp [hs, hn, hq]
  · rw [exec_capBroadcast, execCapBroadcast, receiveBroadcast, broadcastOf_castBytes]
    refine congrArg _ (if_neg fun hc => ?_)
    simp only [Bool.and_eq_true, decide_eq_true_eq] at hc
    rcases h with h | h
    · simp [h] at hc
    · omega
  · rw [exec_capBroadcast, execCapBroadcast, receiveBroadcast, broadcastOf_of_length h]
  · exact mem_cast s
  · exact (cast_bcast s).2
  · exact (cast_bcast s).1
  · rintro ⟨hpkg, hhost, hn, hb⟩ n g z p h low hcap hlast hpow
    have hp : pkgLimit s = none := by simp [pkgLimit, pkgCapW, hpkg]
    have hh : hostLimit s = none := by simp [hostLimit, hhost]
    have hown : OwnCap s n g := ⟨if_neg hcap, by simp [castCap, hb], hlast⟩
    have hmin : BitVec.ofNat 16 (min p 0xFFFF) = BitVec.ofNat 16 p := congrArg _ (by omega)
    have hlow : ∀ g' : Group, OwnCap s n g' → g'.cap = g.cap → g'.hist = g.hist →
        (((g'.measured p (ps.getD 9 ((ps.take 9).foldl (· + ·) 0))).length = 10 ∧
          (g'.measured p (ps.getD 9 ((ps.take 9).foldl (· + ·) 0))).all (bindsBelow s n g')) ↔ low) := by
      intro g' hg' hc hi
      rw [List.all_eq_true, Group.measured, hi]
      simp only [bindsBelow_iff hg' hp hh, hc]
      exact Iff.rfl
    by_cases hlt : g.cap.toNat < p
    · have hz := group_of_above hn hp hh hown hlt
      rw [show z = _ from hz]
      exact ⟨hmin, fun _ => ⟨rfl, rfl, rfl⟩, fun hle => absurd hle (by omega), fun hle => absurd hle (by omega)⟩
    · have hz := group_of_within hn hp hh hown (Nat.not_lt.mp hlt)
      have hiff := hlow { g with power := BitVec.ofNat 16 (min p 0xFFFF), unmet := false } ⟨hown.1, hown.2, hown.3⟩ rfl rfl
      rw [show z = _ from hz]
      by_cases hl : low
      · obtain ⟨h1, h2, h3⟩ := lowerGroup_of_low (hiff.mpr hl)
        exact ⟨h1.trans hmin, fun h => absurd h hlt, fun _ _ => ⟨h2, h3⟩, fun _ h => absurd hl h⟩
      · obtain ⟨h1, h2, h3⟩ := lowerGroup_of_not_low (fun h => hl (hiff.mp h))
        exact ⟨h1.trans hmin, fun h => absurd h hlt, fun _ h => absurd h hl, fun _ _ => ⟨h2, h3⟩⟩
  · rw [exec_railOutOfRange, execRailOutOfRange, railMoves, if_neg (by omega)]
  · rw [exec_railOutOfRange, execRailOutOfRange, railMoves, if_pos h]
    rfl
  · rw [exec_railPowerDown, execRailPowerDown, if_pos h]
    rfl
  · rw [exec_railPowerDown, execRailPowerDown, if_neg (by omega)]
  · rw [exec_bridgeTripPowerDown, execBridgeTripPowerDown, bridgeTrip, if_pos h]
    rfl
  · rw [exec_bridgeTripPowerDown, execBridgeTripPowerDown, bridgeTrip, if_neg (Nat.not_le.mpr h)]

end Sys2Proof.Machine

namespace Sys2Proof.Machine
open Sys2Proof.Say
/-! PROOFS. Boot (R13, R14, R379, R400 to R402), and O59. -/

/-! ### A package reset -/

/-- What a reset leaves before gesso is loaded. -/
def State.restarted (s : State) : State :=
  keepRows { State.reset with agenda := s.agenda, mem := outsideMemory s.mem, freeCtr := s.freeCtr } s

theorem cube_restarted (s : State) (c : CubeId) : s.restarted.cube c = { State.reset.cube c with
    con := { (State.reset.cube c).con with rowLog := (s.cube c).con.rowLog, repaired := (s.cube c).con.repaired } } := by
  rw [State.restarted, keepRows, State.cube]
  exact Vector.get_ofFn ..

theorem memByte_restarted {s : State} (h : Memory.wf s.mem) (a : Nat) :
    memByte s.restarted.mem a = if 0x300_0000_0000 ≤ a then memByte s.mem a else 0 := by
  refine (memByte_filter h (fun a => decide (0x300_0000_0000 ≤ a)) a).trans ?_
  simp only [decide_eq_true_eq]
  rfl

/-- Gesso as it is loaded from its slots, or not. -/
def gessoLoaded (f : FlashSlots) (q : Security) : Security :=
  match bootSlot f with
  | some i => { q with stage := stageGesso, svn := i.version, gesso := i.digest }
  | none => { q with stage := stageFailed, fail := 1 }

theorem resetPackage_eq (s : State) (f : FlashSlots) :
    resetPackage s f = { s.restarted with secu := gessoLoaded f s.restarted.secu } := by
  cases h : bootSlot f <;> simp only [resetPackage, gessoLoaded, h] <;> rfl

theorem gessoAccepted_iff (i : FirmwareImage) : gessoAccepted i = true ↔ Accepted i := by
  simp [gessoAccepted, Accepted, and_assoc]

/-! ### The outcome of the tests (R14, R379) -/

/-- A list without doubles has two members, or not. -/
theorem two_le_length_iff {α : Type} {l : List α} (h : l.Nodup) : 2 ≤ l.length ↔ ∃ a ∈ l, ∃ b ∈ l, a ≠ b := by
  match l with
  | [] => simp
  | [a] => simp
  | a :: b :: t =>
    have hne : a ≠ b := fun e => (List.nodup_cons.mp h).1 (e ▸ List.mem_cons_self)
    exact ⟨fun _ => ⟨a, List.mem_cons_self, b, List.mem_cons_of_mem _ List.mem_cons_self, hne⟩, fun _ => by simp⟩

theorem mem_faceFails {r : BootResult} {pos : Nat} {b : Bool} {n : Nat} :
    n ∈ faceFails r pos b ↔ ∃ x ∈ r.banks, x.pos = pos ∧ x.faceB = b ∧ x.bank = n := by
  simp [faceFails, List.mem_eraseDups, and_assoc]

theorem two_le_faceFails {r : BootResult} {pos : Nat} {b : Bool} : 2 ≤ (faceFails r pos b).length ↔
    ∃ x ∈ r.banks, ∃ y ∈ r.banks, x.pos = pos ∧ y.pos = pos ∧ x.faceB = b ∧ y.faceB = b ∧ x.bank ≠ y.bank := by
  rw [two_le_length_iff (by rw [faceFails]; exact nodup_eraseDups _)]
  simp only [mem_faceFails]
  constructor
  · rintro ⟨_, ⟨x, hx, hxp, hxb, rfl⟩, _, ⟨y, hy, hyp, hyb, rfl⟩, hne⟩
    exact ⟨x, hx, y, hy, hxp, hyp, hxb, hyb, hne⟩
  · rintro ⟨x, hx, y, hy, hxp, hyp, hxb, hyb, hne⟩
    exact ⟨_, ⟨x, hx, hxp, hxb, rfl⟩, _, ⟨y, hy, hyp, hyb, rfl⟩, hne⟩

theorem mem_failedPositions {r : BootResult} {n : Nat} : n ∈ failedPositions r ↔ 1 ≤ n ∧ n ≤ 9 ∧ DieFails r n := by
  have hrange : n ∈ (List.range 9).map (· + 1) ↔ 1 ≤ n ∧ n ≤ 9 := by
    rw [List.mem_map]
    exact ⟨fun ⟨k, hk, e⟩ => by have := List.mem_range.mp hk; omega, fun ⟨h1, h2⟩ => ⟨n - 1, List.mem_range.mpr (by omega), by omega⟩⟩
  rw [failedPositions, List.mem_filter, hrange, and_assoc]
  refine and_congr_right fun _ => and_congr_right fun _ => ?_
  simp only [Bool.or_eq_true, decide_eq_true_eq, List.contains_iff_mem, two_le_faceFails, or_assoc, DieFails]
  refine or_congr_right ⟨?_, ?_⟩
  · rintro (⟨x, hx, y, hy, hxp, hyp, hxb, hyb, hne⟩ | ⟨x, hx, y, hy, hxp, hyp, hxb, hyb, hne⟩)
    · exact ⟨x, hx, y, hy, hxp, hyp, hxb.trans hyb.symm, hne⟩
    · exact ⟨x, hx, y, hy, hxp, hyp, hxb.trans hyb.symm, hne⟩
  · rintro ⟨x, hx, y, hy, hxp, hyp, hb, hne⟩
    cases hxb : x.faceB with
    | false => exact .inl ⟨x, hx, y, hy, hxp, hyp, hxb, hb.symm.trans hxb, hne⟩
    | true => exact .inr ⟨x, hx, y, hy, hxp, hyp, hxb, hb.symm.trans hxb, hne⟩

theorem nodup_failedPositions (r : BootResult) : (failedPositions r).Nodup :=
  List.Nodup.filter _ (by decide)

theorem failedPositions_of_none {r : BootResult} (h : ∀ n, 1 ≤ n → n ≤ 9 → ¬ DieFails r n) : failedPositions r = [] :=
  List.eq_nil_iff_forall_not_mem.mpr fun n hn => by
    obtain ⟨h1, h9, hf⟩ := mem_failedPositions.mp hn
    exact h n h1 h9 hf

theorem failedPositions_of_one {r : BootResult} {f : Nat} (h1 : 1 ≤ f) (h9 : f ≤ 9) (hf : DieFails r f)
    (h : ∀ n, 1 ≤ n → n ≤ 9 → n ≠ f → ¬ DieFails r n) : failedPositions r = [f] := by
  have hmem : f ∈ failedPositions r := mem_failedPositions.mpr ⟨h1, h9, hf⟩
  have hall : ∀ n ∈ failedPositions r, n = f := fun n hn => by
    obtain ⟨hn1, hn9, hnf⟩ := mem_failedPositions.mp hn
    exact by_contra fun hne => h n hn1 hn9 hne hnf
  have hnodup := nodup_failedPositions r
  match hl : failedPositions r with
  | [] => rw [hl] at hmem; exact absurd hmem List.not_mem_nil
  | [a] => rw [hl] at hall; rw [hall a List.mem_cons_self]
  | a :: b :: t =>
    rw [hl] at hall hnodup
    have hab : a = b := (hall a List.mem_cons_self).trans (hall b (List.mem_cons_of_mem _ List.mem_cons_self)).symm
    exact absurd (hab ▸ List.mem_cons_self) (List.nodup_cons.mp hnodup).1

theorem two_le_failedPositions {r : BootResult} {n m : Nat} (h1 : 1 ≤ n) (hlt : n < m) (h9 : m ≤ 9) (hn : DieFails r n)
    (hm : DieFails r m) : 2 ≤ (failedPositions r).length :=
  (two_le_length_iff (nodup_failedPositions r)).mpr
    ⟨n, mem_failedPositions.mpr ⟨h1, by omega, hn⟩, m, mem_failedPositions.mpr ⟨by omega, h9, hm⟩, by omega⟩

/-! ### The maps, and the current limit (R13, R14, R385) -/

/-- The rating of the weakest die bounds the current. -/
theorem ampsOf_foldl (vias : List (BitVec 16)) (a : BitVec 16) :
    let w := vias.foldl (fun a v => if v.toNat < a.toNat then v else a) a
    w.toNat ≤ a.toNat ∧ (∀ v ∈ vias, w.toNat ≤ v.toNat) ∧ (w = a ∨ w ∈ vias) := by
  induction vias generalizing a with
  | nil => simp
  | cons v vias ih =>
    by_cases hv : v.toNat < a.toNat
    · simp only [List.foldl_cons, if_pos hv]
      obtain ⟨hle, hall, hsome⟩ := ih v
      exact ⟨by omega, List.forall_mem_cons.mpr ⟨hle, hall⟩, .inr (List.mem_cons.mpr hsome)⟩
    · simp only [List.foldl_cons, if_neg hv]
      obtain ⟨hle, hall, hsome⟩ := ih a
      exact ⟨hle, List.forall_mem_cons.mpr ⟨by omega, hall⟩, hsome.imp_right (List.mem_cons_of_mem _)⟩

theorem ampsOf_cubeAmpsOf (f : Nat) (vias : List (BitVec 16)) : AmpsOf (cubeAmpsOf f vias) (vias.take (Say.placeOf f 7)) :=
  ampsOf_foldl (vias.take (positionOf f 7)) 240

/-- Each field of the map with position f inactive. -/
theorem mapFields : ∀ f : Fin 10, 1 ≤ f.val → ∀ l : Fin 8,
    (BitVec.ofNat 32 ((List.range 8).foldl (fun a l => a + positionOf f.val l * 16 ^ l) 0)).toNat / 16 ^ l.val % 16 = Say.placeOf f.val l.val ∧
      (BitVec.ofNat 32 ((List.range 8).foldl (fun a l => a + (if true ∧ f.val < positionOf f.val l then 2 else 0) * 16 ^ l) 0)).toNat /
        16 ^ l.val % 16 = if f.val < Say.placeOf f.val l.val then 2 else 0 := by
  decide +kernel

/-! ### The tests of one cube touch only it -/

/-- What the tests leave of a cube: its rows are no longer noted, and a cube that computed is mapped or fenced. -/
structure Tested (r : BootResult) (k k' : Cube) : Prop where
  rows : k'.con.rowLog = []
  whole : k.hw.life = .live → Essential r → failedPositions r = [] → k'.hw.life = .live ∧ k'.hw.caps = r.classes ∧
    k'.hw.lmap = 0x87654321 ∧ k'.eng.skew = 0 ∧ AmpsOf k'.pwr.cubeAmps (r.vias.take 8)
  transit : ∀ f, k.hw.life = .live → Essential r → 1 ≤ f → f ≤ 9 → failedPositions r = [f] →
    k'.hw.life = .live ∧ k'.hw.caps = r.classes ∧ AmpsOf k'.pwr.cubeAmps (r.vias.take (Say.placeOf f 7)) ∧
      ∀ l, l < 8 → k'.hw.lmap.toNat / 16 ^ l % 16 = Say.placeOf f l ∧ k'.eng.skew.toNat / 16 ^ l % 16 = if f < Say.placeOf f l then 2 else 0
  barren : k.hw.life = .live → ¬ Essential r ∨ 2 ≤ (failedPositions r).length → k'.hw.life = .memoryOnly ∧ k'.hw.caps = 0

/-- The second state is the first but for the conservator of one cube. -/
def Recorded (c : CubeId) (s u : State) : Prop := ∃ q : ConRegs, u = s.modCube c fun k => { k with con := q }

theorem recorded_modCon (s : State) (c : CubeId) (f : ConRegs → ConRegs) : Recorded c s (modCon s c f) :=
  ⟨f (s.cube c).con, modCube_congr rfl⟩

theorem recorded_logCe (s : State) (c : CubeId) (w : Word) : Recorded c s (logCe s c w) :=
  recorded_modCon s c fun q => { q with ceLog := logAdd q.ceLog w }

theorem Recorded.refl (c : CubeId) (s : State) : Recorded c s s := ⟨(s.cube c).con, (modCube_id s c).symm⟩

theorem Recorded.trans {c : CubeId} {s u v : State} (h : Recorded c s u) (h' : Recorded c u v) : Recorded c s v := by
  obtain ⟨q, rfl⟩ := h
  obtain ⟨q', rfl⟩ := h'
  exact ⟨q', modCube_modCube ..⟩

theorem recorded_foldl {α : Type} {c : CubeId} {f : State → α → State} (h : ∀ s x, Recorded c s (f s x)) (xs : List α) (s : State) :
    Recorded c s (xs.foldl f s) := by
  induction xs generalizing s with
  | nil => exact .refl c s
  | cons x xs ih => exact (h s x).trans (ih _)

theorem recorded_repairRow (s : State) (c : CubeId) (row : Nat) : Recorded c s (repairRow s c row) := by
  rw [repairRow]
  refine Recorded.trans (u := if _ then _ else _) ?_ (recorded_logCe _ c _)
  split
  · exact recorded_modCon ..
  · exact .refl c s

/-- What the tests of a cube leave before its map: the records of its repairs. -/
def State.repairedBy (s : State) (c : CubeId) (r : BootResult) : State :=
  repairRows ((List.range (spareBanks r)).foldl (fun s _ => logCe s c (logRecord 15 0 0)) s) c

theorem repairedBy_eq (s : State) (c : CubeId) (r : BootResult) :
    ∃ q : ConRegs, q.rowLog = [] ∧ s.repairedBy c r = s.modCube c fun k => { k with con := q } := by
  have hlogs : Recorded c s ((List.range (spareBanks r)).foldl (fun s _ => logCe s c (logRecord 15 0 0)) s) :=
    recorded_foldl (fun s _ => recorded_logCe s c _) _ s
  obtain ⟨q, hq⟩ := hlogs.trans (recorded_foldl (fun s row => recorded_repairRow s c row)
    (badRows (((List.range (spareBanks r)).foldl (fun s _ => logCe s c (logRecord 15 0 0)) s).cube c).con) _)
  refine ⟨{ q with rowLog := [] }, rfl, ?_⟩
  rw [State.repairedBy, repairRows, hq, modCon, modCube_modCube]

/-- The map and the classes that the tests give a cube. -/
def Cube.mappedBy (k : Cube) (r : BootResult) : Cube :=
  let k := match failedPositions r with
    | [] => mapCube k 9 false r.vias
    | [f] => mapCube k f true r.vias
    | _ => k
  { k with hw := { k.hw with caps := r.classes } }

theorem mappedBy_keeps (k : Cube) (r : BootResult) : (k.mappedBy r).con = k.con ∧ (k.mappedBy r).hw.life = k.hw.life := by
  rw [Cube.mappedBy]
  split <;> exact ⟨rfl, rfl⟩

/-- The tests leave a cube without compute. -/
def Barren (r : BootResult) : Prop :=
  2 ≤ (failedPositions r).length ∨ !r.classes.getLsbD 0 ∨ !r.classes.getLsbD 5 ∨ !r.classes.getLsbD 24

theorem barren_iff (r : BootResult) : Barren r ↔ ¬ Essential r ∨ 2 ≤ (failedPositions r).length := by
  rw [Barren, Essential]
  cases r.classes.getLsbD 0 <;> cases r.classes.getLsbD 5 <;> cases r.classes.getLsbD 24 <;> simp

/-- The map that the tests give a cube. -/
def State.mappedAt (s : State) (c : CubeId) (r : BootResult) : State :=
  match failedPositions r with
  | [] => s.modCube c fun k => mapCube k 9 false r.vias
  | [f] => s.modCube c fun k => mapCube k f true r.vias
  | _ => s

/-- The map and the classes are one change of the cube. -/
theorem mappedAt_modCube (s : State) (c : CubeId) (r : BootResult) :
    (s.mappedAt c r).modCube c (fun k => { k with hw := { k.hw with caps := r.classes } }) = s.modCube c fun k => k.mappedBy r := by
  rcases hf : failedPositions r with _ | ⟨f, _ | ⟨g, t⟩⟩ <;> simp only [State.mappedAt, Cube.mappedBy, hf]
  · exact modCube_modCube ..
  · exact modCube_modCube ..

theorem bootCube_of_fit {s : State} {c : CubeId} {r : BootResult} (h : ¬ Barren r) :
    bootCube s c r = (s.repairedBy c r).modCube c fun k => k.mappedBy r := by
  rw [← mappedAt_modCube]
  exact if_neg h

theorem bootCube_of_barren {s : State} {c : CubeId} {r : BootResult} (h : Barren r) :
    bootCube s c r = fenceCube ((s.repairedBy c r).modCube c fun k => k.mappedBy r) c := by
  rw [← mappedAt_modCube]
  exact if_pos h

theorem fenceCube_modCube (s : State) (c : CubeId) (f : Cube → Cube) : ∃ k, fenceCube (s.modCube c f) c = s.modCube c (fun _ => k) ∧
    k.con.rowLog = (f (s.cube c)).con.rowLog ∧ ((f (s.cube c)).hw.life = .live → k.hw.life = .memoryOnly ∧ k.hw.caps = 0) := by
  rw [fenceCube, cube_modCube_self]
  split
  case isTrue h =>
    rw [logUe, modCube_modCube, modCube_modCube]
    exact ⟨_, modCube_congr rfl, rfl, fun _ => ⟨rfl, rfl⟩⟩
  case isFalse h => exact ⟨_, modCube_congr rfl, rfl, fun hl => absurd hl h⟩

theorem tested_mappedBy {k : Cube} {r : BootResult} (hr : k.con.rowLog = []) (h : ¬ Barren r) : Tested r k (k.mappedBy r) where
  rows := by rw [(mappedBy_keeps k r).1, hr]
  whole hl _ hf := by
    rw [Cube.mappedBy, hf]
    exact ⟨hl, rfl, by rfl, by rfl, ampsOf_cubeAmpsOf 9 r.vias⟩
  transit f hl _ h1 h9 hf := by
    rw [Cube.mappedBy, hf]
    exact ⟨hl, rfl, ampsOf_cubeAmpsOf f r.vias, fun l hlt => mapFields ⟨f, by omega⟩ h1 ⟨l, hlt⟩⟩
  barren _ hb := absurd ((barren_iff r).mpr hb) h

theorem bootCube_tested (s : State) (c : CubeId) (r : BootResult) :
    ∃ k, bootCube s c r = s.modCube c (fun _ => k) ∧ Tested r (s.cube c) k := by
  obtain ⟨q, hq, hrep⟩ := repairedBy_eq s c r
  by_cases h : Barren r
  · obtain ⟨k, hk, hrows, hfenced⟩ := fenceCube_modCube s c fun k => { k with con := q }.mappedBy r
    rw [bootCube_of_barren h, hrep, modCube_modCube]
    have hkeeps := mappedBy_keeps { s.cube c with con := q } r
    refine ⟨k, hk, hrows.trans ((congrArg ConRegs.rowLog hkeeps.1).trans hq), fun _ he hf => ?_, fun f _ he _ _ hf => ?_, fun hl _ => hfenced (hkeeps.2.trans hl)⟩
    · exact absurd ((barren_iff r).mp h) (by simp [he, hf])
    · exact absurd ((barren_iff r).mp h) (by simp [he, hf])
  · rw [bootCube_of_fit h, hrep, modCube_modCube]
    have ht : Tested r { s.cube c with con := q } ({ s.cube c with con := q }.mappedBy r) := tested_mappedBy hq h
    exact ⟨_, modCube_congr rfl, ht.rows, ht.whole, ht.transit, ht.barren⟩

/-! ### Each cube in turn -/

/-- What changes one cube after another leaves the rest of the state, and of each cube what its own step says. -/
theorem foldl_eachCube {f : State → CubeId → State} {P : CubeId → Cube → Cube → Prop}
    (h : ∀ s c, ∃ k, f s c = s.modCube c (fun _ => k) ∧ P c (s.cube c) k) (cs : List CubeId) (hcs : cs.Nodup) (s : State) :
    (∃ ks, cs.foldl f s = { s with cubes := ks }) ∧
      ∀ d, (d ∈ cs → P d (s.cube d) ((cs.foldl f s).cube d)) ∧ (d ∉ cs → (cs.foldl f s).cube d = s.cube d) := by
  induction cs generalizing s with
  | nil => exact ⟨⟨s.cubes, rfl⟩, fun d => ⟨fun hd => absurd hd List.not_mem_nil, fun _ => rfl⟩⟩
  | cons c cs ih =>
    obtain ⟨hnot, hnodup⟩ := List.nodup_cons.mp hcs
    obtain ⟨k, hk, hP⟩ := h s c
    obtain ⟨⟨ks, hks⟩, hcubes⟩ := ih hnodup (f s c)
    rw [List.foldl_cons]
    refine ⟨⟨ks, by rw [hks, hk]; rfl⟩, fun d => ⟨fun hd => ?_, fun hd => ?_⟩⟩
    · by_cases hdc : d = c
      · subst hdc
        rw [(hcubes d).2 hnot, hk, cube_modCube_self]
        exact hP
      · have hold : (f s c).cube d = s.cube d := by rw [hk, cube_modCube_ne s c d _ hdc]
        exact hold ▸ (hcubes d).1 ((List.mem_cons.mp hd).resolve_left hdc)
    · rw [List.mem_cons, not_or] at hd
      obtain ⟨hdc, hdcs⟩ := hd
      rw [(hcubes d).2 hdcs, hk, cube_modCube_ne s c d _ hdc]

/-- What the start of the firmware leaves of a cube. -/
structure Started (rt sec : CodeBounds) (hs : HandlerEntries) (k k' : Cube) : Prop where
  sec : Bounded k'.sec sec hs.sec
  regs : k'.sec.regs = k.sec.regs
  runs : k.hw.life = .live → k'.cur = .runtime ∧ k'.core.mode = k.rt.mode ∧ k'.core.regs = k.rt.regs ∧
    k'.core.pc = k'.core.sys.codeLo ∧ Bounded k'.core rt hs.rt

/-- An address without its low four bits. -/
theorem aligned16 (w : Word) : (w.setWidth 52 &&& ~~~(0xF : VA)) = BitVec.ofNat 52 (w.toNat / 16 * 16) := by
  have hshift : w.toNat / 16 * 16 = (w.toNat >>> 4) <<< 4 := by rw [Nat.shiftLeft_eq, Nat.shiftRight_eq_div_pow]
  have hlow : ∀ i, (0xF : VA).getLsbD i = decide (i < 4) := by
    intro i
    by_cases hi : i < 4
    · rw [decide_eq_true hi]
      exact (by decide : ∀ j < 4, (0xF : VA).getLsbD j = true) i hi
    · rw [decide_eq_false hi]
      refine Nat.testBit_lt_two_pow (lt_of_lt_of_le (by decide : (0xF : VA).toNat < 2 ^ 4) ?_)
      exact Nat.pow_le_pow_right (by decide) (Nat.not_lt.mp hi)
  refine BitVec.eq_of_getLsbD_eq fun i hi => ?_
  rw [hshift]
  simp only [BitVec.getLsbD_and, BitVec.getLsbD_not, BitVec.getLsbD_setWidth, BitVec.getLsbD_ofNat, Nat.testBit_shiftLeft,
    Nat.testBit_shiftRight, BitVec.testBit_toNat, hi, decide_true, Bool.true_and, hlow]
  by_cases h4 : i < 4
  · simp [h4]
  · simp [h4, show 4 + (i - 4) = i by omega, Nat.not_lt.mp h4]

theorem bounded_bounded (x : Ctx) (b : CodeBounds) (h : Word) : Bounded (x.bounded b h) b h :=
  ⟨aligned16 _, aligned16 _, aligned16 _⟩

theorem startFirmware_started (rt sec : CodeBounds) (hs : HandlerEntries) (s : State) (c : CubeId) :
    ∃ k, startFirmware s c rt sec hs = s.modCube c (fun _ => k) ∧ Started rt sec hs (s.cube c) k := by
  rw [startFirmware]
  simp only [cube_modCube_self]
  split
  case isTrue h =>
    rw [loadRuntime, modCube_modCube]
    exact ⟨_, modCube_congr rfl, bounded_bounded .., rfl, fun _ => ⟨rfl, rfl, rfl, rfl, bounded_bounded (s.cube c).rt rt hs.rt⟩⟩
  case isFalse h =>
    refine ⟨_, modCube_congr rfl, bounded_bounded .., rfl, fun hl => absurd ?_ h⟩
    rw [Cube.computes, beq_iff_eq]
    exact hl

theorem bootTests_of_results {s : State} {rs : List BootResult} (h : s.secu.stage = 2) (hlen : rs.length = 8) :
    bootTests s (.done rs) = modSecu ((List.finRange 8).foldl (fun s c => bootCube s c (rs.getD c.val default)) s)
      fun q => { q with stage := stageStudio } :=
  (if_neg (not_not.mpr h)).trans (if_neg (not_not.mpr hlen))

theorem startStudio_of_signed {s : State} {i : FirmwareImage} {rt sec : CodeBounds} {hs : HandlerEntries} (h : s.secu.stage = 3)
    (hr : i.rsa = true) (hl : i.slh = true) :
    startStudio s i rt sec hs = modSecu (((List.finRange 8).foldl (fun s c => startFirmware s c rt sec hs) s).modAtl
      fun a => { a with firmware := some i.digest }) fun q => { q with stage := stageReady } :=
  (if_neg (not_not.mpr h)).trans (if_pos (by rw [hr, hl]; rfl))

/-- Settles O59: a reset, then the tests and the firmware's start, which treat the cubes one after another. -/
theorem bootEvents : Obligations.BootEvents := by
  unfold Obligations.BootEvents
  intro s
  refine ⟨fun f => ⟨_, exec_packageReset f s, ?_⟩, fun h => ?_, fun h => ?_, fun rs => ⟨fun h => ?_, fun h hlen => ?_, fun h hlen => ?_⟩,
    fun i rt sec hs => ⟨fun h => ?_, fun h => ⟨fun hbad => ?_, fun hr hl => ?_⟩⟩⟩
  · rw [resetPackage_eq]
    refine ⟨fun ha => ?_, fun ha hb => ?_, fun ha hb => ?_, fun c => cube_restarted s c, rfl, rfl, rfl, rfl, rfl, rfl, rfl,
      fun hwf a => memByte_restarted hwf a⟩
    · simp only [gessoLoaded, bootSlot, (gessoAccepted_iff f.a).mpr ha, if_true]
      exact ⟨rfl, rfl, rfl⟩
    · have hna : ¬ gessoAccepted f.a = true := fun e => ha ((gessoAccepted_iff _).mp e)
      simp only [gessoLoaded, bootSlot, if_neg hna, (gessoAccepted_iff f.b).mpr hb, if_true]
      exact ⟨rfl, rfl, rfl⟩
    · have hna : ¬ gessoAccepted f.a = true := fun e => ha ((gessoAccepted_iff _).mp e)
      have hnb : ¬ gessoAccepted f.b = true := fun e => hb ((gessoAccepted_iff _).mp e)
      simp only [gessoLoaded, bootSlot, if_neg hna, if_neg hnb]
      exact ⟨rfl, trivial⟩
  · exact (exec_gessoBootTests ..).trans (congrArg _ (if_pos h))
  · exact (exec_gessoBootTests ..).trans (congrArg _ (if_neg h))
  · exact (exec_gessoBootTests ..).trans (congrArg _ (if_pos h))
  · exact (exec_gessoBootTests ..).trans (congrArg _ ((if_neg (not_not.mpr h)).trans (if_pos hlen)))
  · obtain ⟨⟨ks, hks⟩, hcubes⟩ := foldl_eachCube (P := fun c => Tested (rs.getD c.val default))
      (fun s c => bootCube_tested s c (rs.getD c.val default)) (List.finRange 8) (List.nodup_finRange 8) s
    refine ⟨_, (exec_gessoBootTests ..).trans (congrArg Host.Outcome.next (bootTests_of_results h hlen)), ?_, ?_, ?_⟩
    · rw [hks]
      rfl
    · rw [hks]
      rfl
    · intro c
      have ht := (hcubes c).1 (List.mem_finRange c)
      refine ⟨ht.rows, fun hl => ⟨fun he hn => ht.whole hl he (failedPositions_of_none hn),
        fun f he h1 h9 hf hn => ht.transit f hl he h1 h9 (failedPositions_of_one h1 h9 hf hn), fun hb => ht.barren hl (hb.imp_right ?_)⟩⟩
      rintro ⟨n, m, h1, hlt, h9, hn, hm⟩
      exact two_le_failedPositions h1 hlt h9 hn hm
  · exact (exec_studioFirmwareStart ..).trans (congrArg _ (if_pos h))
  · refine (exec_studioFirmwareStart ..).trans (congrArg _ ((if_neg (not_not.mpr h)).trans (if_neg ?_)))
    rw [Bool.and_eq_true, not_and_or, Bool.not_eq_true, Bool.not_eq_true]
    exact hbad
  · obtain ⟨⟨ks, hks⟩, hcubes⟩ := foldl_eachCube (P := fun _ => Started rt sec hs)
      (startFirmware_started rt sec hs) (List.finRange 8) (List.nodup_finRange 8) s
    refine ⟨_, (exec_studioFirmwareStart ..).trans (congrArg Host.Outcome.next (startStudio_of_signed h hr hl)), ?_⟩
    generalize (List.finRange 8).foldl (fun s c => startFirmware s c rt sec hs) s = v at hks hcubes ⊢
    refine ⟨?_, ?_, rfl, ?_⟩
    · rw [hks]
      rfl
    · rw [hks]
      rfl
    · intro c
      have ht := (hcubes c).1 (List.mem_finRange c)
      exact ⟨ht.sec, ht.regs, ht.runs⟩

end Sys2Proof.Machine

namespace Sys2Proof.Machine
open Sys2Proof.Say
/-! PROOFS. Ports and links (R363, R367 to R369, R371), and O54. -/

theorem modPort_congr {s : State} {n : Fin 71} {f g : Port → Port} (h : f (s.port n) = g (s.port n)) : modPort s n f = withPort s n g := by
  rw [modPort, withPort]
  rw [show f (s.fab.ports.get n) = g (s.fab.ports.get n) from h]

/-- Records on one cube leave everything but that cube. -/
theorem foldl_logCe (c : CubeId) (w : Word) (xs : List Nat) (s : State) :
    ∃ ks, xs.foldl (fun s _ => logCe s c w) s = { s with cubes := ks } := by
  induction xs generalizing s with
  | nil => exact ⟨s.cubes, rfl⟩
  | cons x xs ih =>
    obtain ⟨ks, h⟩ := ih (logCe s c w)
    exact ⟨ks, h⟩

/-- The record of replays (R367). -/
theorem logRecord_replay : ∀ n : Fin 71, logRecord 10 0 n.val = record 10 0 n.val := by decide +kernel

theorem retrainTries_eq (s : State) : retrainTries s = s.fab.regs.replayRetrain.toNat / 2 ^ 32 % 16 := by
  rw [retrainTries, BitVec.extractLsb'_toNat, Nat.shiftRight_eq_div_pow]

theorem widest_eq (w : Nat) (h : 1 ≤ w) : BitVec.ofNat 4 (widest w) = if 8 ≤ w then 8 else if 4 ≤ w then 4 else if 2 ≤ w then 2 else 1 := by
  simp only [widest, List.find?]
  by_cases h8 : 8 ≤ w
  · simp [h8]
  · by_cases h4 : 4 ≤ w
    · simp [h8, h4]
    · by_cases h2 : 2 ≤ w
      · simp [h8, h4, h2]
      · simp [h8, h4, h2, h]

/-! ### Retraining (R368, R369) -/

/-- A port after an attempt to retrain it, of which lanes have failed. -/
def Port.retrained (p : Port) (tries lanes : Nat) (ok : Bool) : Port :=
  let spared := min lanes p.spares.toNat
  let left := p.working - (lanes - spared)
  let good := ok && decide (1 ≤ left)
  let last := !good && decide (tries ≤ p.tries + 1)
  { p with
    retrains := satAdd16 p.retrains
    spares := p.spares - BitVec.ofNat 4 spared
    working := left
    width := if good then BitVec.ofNat 4 (widest left) else p.width
    training := !good && !last
    up := !last
    tries := if good then 0 else p.tries + 1 }

theorem retrainPort_eq {s : State} {n : Fin 71} (hup : (s.port n).up = true) (lanes : Nat) (ok : Bool) :
    ∃ ks, retrainPort s n lanes ok = { withPort s n fun p => p.retrained (retrainTries s) lanes ok with cubes := ks } := by
  obtain ⟨ks, h⟩ := foldl_logCe 0 (logRecord 15 0 n.val) (List.range (min lanes (s.port n).spares.toNat))
    (withPort s n fun p => p.retrained (retrainTries s) lanes ok)
  refine ⟨ks, h ▸ ?_⟩
  rw [retrainPort, if_neg (by simp [hup])]
  refine congrArg (List.foldl _ · _) ?_
  exact modPort_congr rfl

/-- An attempt that leaves a lane at work. -/
theorem exec_portRetrain_of_lanes {s : State} {n : Fin 71} {lanes : Nat} {ok : Bool} {f : Port → Port} (hup : (s.port n).up = true)
    (h : (s.port n).retrained (retrainTries s) lanes ok = f (s.port n)) :
    ∃ u, exec (.portRetrain n lanes ok) s = .next u ∧ u.mem = s.mem ∧ u.irqs = s.irqs ∧ u.fab = (withPort s n f).fab := by
  obtain ⟨ks, hks⟩ := retrainPort_eq hup lanes ok
  refine ⟨_, exec_portRetrain .., ?_⟩
  rw [hks]
  refine ⟨rfl, rfl, ?_⟩
  rw [withPort, withPort, show (s.fab.ports.get n).retrained (retrainTries s) lanes ok = f (s.fab.ports.get n) from h]

/-! ### The reset handshake (R363, R371) -/

/-- The state of a pair that nothing is held for. -/
theorem discardPair_of_none {s : State} {p : Nat} (h : ∀ m ∈ s.items, m.status = .held → peerOf m.op.addr ≠ some p) :
    discardPair s p = { s with fab := { s.fab with
      performed := s.fab.performed.filter fun q => q.1.1.toNat != p
      lines := s.fab.lines.filter fun e => e.1.1.toNat != p
      held := s.fab.held.filter fun r => r.peer.toNat != p } } := by
  have hnone : (s.items.filter fun i => i.status == .held && peerOf i.op.addr == some p) = [] :=
    List.filter_eq_nil_iff.mpr fun m hm hc => by
      rw [Bool.and_eq_true, beq_iff_eq, beq_iff_eq] at hc
      exact h m hm hc.1 hc.2
  rw [discardPair]
  simp only [hnone, List.foldl_nil]

/-! ### Replays (R367) -/

/-- A port that has replayed a flit, in a window that has just begun or goes on. -/
def Port.replayed (p : Port) (s : State) (fresh : Bool) : Port :=
  let r : BitVec 32 := if fresh then 1 else satAdd32 p.replays
  { p with replays := r, since := if fresh then s.cycle else p.since, warned := p.warned && !fresh
           training := p.training || r == s.fab.regs.replayRetrain.setWidth 32 }

theorem exec_flitReplay_of_up {s : State} {n : Fin 71} {f : Port → Port} {fresh : Bool} (hup : (s.port n).up = true)
    (hw : windowOver s (s.port n) = fresh) (h : (s.port n).replayed s fresh = f (s.port n)) :
    exec (.flitReplay n) s = .next (withPort s n f) := by
  have hcount : countReplay s n = modPort s n fun p => p.replayed s fresh := by
    rw [countReplay, if_neg (by rw [hup]; decide), hw]
    rfl
  rw [exec_flitReplay, execFlitReplay, hcount]
  exact congrArg Host.Outcome.next (modPort_congr h)

theorem exec_replayWarning_of_many {s : State} {n : Fin 71} (hwarn : (s.port n).warned = false) (hw : windowOver s (s.port n) = false)
    (hc : s.fab.regs.replayWarn.toNat % 2 ^ 32 ≤ (s.port n).replays.toNat) : exec (.replayWarning n) s =
      .next (raiseIrq (logCe (withPort s n fun p => { p with warned := true }) 0 (logRecord 10 0 n.val)) (irqReplay n.val)) := by
  have hcond : (!(s.port n).warned && !windowOver s (s.port n) &&
      decide ((s.fab.regs.replayWarn.setWidth 32).toNat ≤ (s.port n).replays.toNat)) = true := by
    rw [hwarn, hw, BitVec.toNat_setWidth, decide_eq_true hc]
    rfl
  rw [exec_replayWarning, execReplayWarning, warnReplays]
  exact congrArg Host.Outcome.next (if_pos hcond)

theorem cube_raiseIrq (s : State) (n : Nat) (c : CubeId) : (raiseIrq s n).cube c = s.cube c := rfl

/-- Settles O54: each event changes one port, or drops the state of one pair. -/
theorem portEvents : Obligations.PortEvents := by
  unfold Obligations.PortEvents
  intro s
  refine ⟨fun n => ?_, fun peer => ⟨fun hp hi => ?_, rfl, fun hi => ?_⟩⟩
  · intro p
    have hp : s.port n = p := rfl
    refine ⟨fun hup hw => ?_, fun hup hw => ?_, fun hwarn hw hc => ?_, fun lanes hup hpos hlt => ?_, fun hup ht => ?_, fun hup => ?_⟩
    · refine exec_flitReplay_of_up hup hw ?_
      rw [hp]
      simp [Port.replayed, satAdd32]
    · refine exec_flitReplay_of_up hup hw ?_
      rw [hp]
      simp [Port.replayed]
    · refine ⟨_, exec_replayWarning_of_many hwarn hw hc, rfl, fun hroom => ?_, rfl, rfl⟩
      rw [← logRecord_replay]
      rw [cube_raiseIrq, logCe, cube_modCube_self]
      exact logAdd_of_room (Nat.lt_succ_of_lt hroom.1) _
    · intro spared left tries Becomes
      have htries : retrainTries s = tries := retrainTries_eq s
      have hleft : 1 ≤ left := by
        have hspared : spared = min lanes p.spares.toNat := rfl
        have hdef : left = p.working - (lanes - spared) := rfl
        omega
      have hlive : decide (1 ≤ left) = true := decide_eq_true hleft
      refine ⟨exec_portRetrain_of_lanes hup ?_, fun ht => exec_portRetrain_of_lanes hup ?_, fun ht => exec_portRetrain_of_lanes hup ?_⟩
      all_goals
        rw [htries, hp, Port.retrained]
        simp only [show p.working - (lanes - min lanes p.spares.toNat) = left from rfl, hlive, Bool.and_true]
      · rw [if_pos trivial, if_pos trivial, widest_eq left hleft]
        simp [satAdd16, spared, left, show p.up = true from hup]
      · rw [decide_eq_false (by omega)]
        simp [satAdd16, spared, left, show p.up = true from hup]
      · rw [decide_eq_true ht]
        simp [satAdd16, spared, left]
    · have hcond : ((s.port n).up && decide (retrainTries s ≤ (s.port n).tries)) = true := by
        rw [hp, hup, retrainTries_eq, decide_eq_true ht]
        rfl
      exact (exec_portDown ..).trans (congrArg Host.Outcome.next ((if_pos hcond).trans (modPort_congr rfl)))
    · refine (exec_portTrained ..).trans (congrArg Host.Outcome.next ((if_pos rfl).trans (modPort_congr ?_)))
      exact if_neg (by rw [hp, hup]; decide)
  · rw [exec_resetHandshakeReply, execResetHandshakeReply, handshakeDone, if_pos (List.contains_iff_mem.mpr hp), discardPair_of_none hi]
  · rw [exec_resetMessageReceived, execResetMessageReceived, discardPair_of_none hi]
    rfl

end Sys2Proof.Machine

namespace Sys2Proof.Machine
open Sys2Proof.Say
/-! PROOFS. Reads, writes and atomics of a peer at their homes (R357 to R361). -/

/-! ### Reads, writes and atomics at a home for an agent outside -/

/-- n bytes of this package that keep what is written to them: no window, no armed fault, no poisoned line, no second copy. -/
structure Sound (s : State) (d n : Nat) : Prop where
  quiet : Quiet s
  plain : Plain s ((List.range n).map (d + ·))
  words : ∀ k, k < n → (keySpace s ((d + k) / 8 * 8)).isWindow = false
  clean : Clean s d n

theorem Sound.clean_locs {s : State} {d n : Nat} (h : Sound s d n) : ∀ a ∈ (List.range n).map (d + ·),
  s.poison.contains (a / 64) = false := by
  intro a ha
  obtain ⟨k, hk, rfl⟩ := List.mem_map.mp ha
  exact h.clean k (List.mem_range.mp hk)

/-- A read of no register has no side effect. -/
theorem popReads_of_words {s : State} (d n : Nat) (h : ∀ k, k < n → (keySpace s ((d + k) / 8 * 8)).isWindow = false) :
    popReads s ((List.range n).map (d + ·)) = s := by
  have hall : ∀ w ∈ (((List.range n).map (d + ·)).map fun a => a / 8).eraseDups, (keySpace s (w * 8)).isWindow = false := by
    intro w hw
    rw [List.mem_eraseDups, List.map_map, List.mem_map] at hw
    obtain ⟨k, hk, rfl⟩ := hw
    exact h k (List.mem_range.mp hk)
  rw [popReads]
  generalize (((List.range n).map (d + ·)).map fun a => a / 8).eraseDups = ws at hall ⊢
  induction ws with
  | nil => rfl
  | cons w ws ih =>
    obtain ⟨hw, hws⟩ := List.forall_mem_cons.mp hall
    rw [List.foldl_cons]
    cases hk : keySpace s (w * 8) <;> simp_all [Space.isWindow]

theorem placeByte_of_plain {s : State} {a : Nat} (h : (keySpace s a).isWindow = false) : placeByte s a = memByte s.mem a := by
  rw [placeByte]
  cases hk : keySpace s a <;> simp_all [Space.isWindow]

theorem outsideRead_of_sound {s : State} {d n : Nat} (h : Sound s d n) : outsideRead s d n = (s, some (memRead s.mem d n)) := by
  have hbytes : ((List.range n).map (d + ·)).map (placeByte s) = memRead s.mem d n := by
    rw [memRead, List.map_map]
    refine List.map_congr_left fun k hk => ?_
    exact placeByte_of_plain (h.plain.1 _ (List.mem_map_of_mem hk))
  rw [outsideRead]
  simp only [fireReads_quiet s h.quiet, any_poison_of_clean h.clean_locs, Bool.false_eq_true, if_false, popReads_of_words d n h.words, hbytes]

/-- The words of some bytes of memory, the last one as far as they reach. -/
theorem wordsOf_memRead (m : List Host.Cell) (k d n : Nat) :
    wordsOf k (memRead m d n) = (List.range k).map fun j => BitVec.ofNat 64 (memNat m (d + 8 * j) (Nat.min 8 (n - 8 * j))) := by
  have htake : ∀ d n, (memRead m d n).take 8 = memRead m d (min 8 n) := fun d n => by
    rw [memRead, memRead, ← List.map_take, List.take_range]
  have hdrop : ∀ d n, (memRead m d n).drop 8 = memRead m (d + 8) (n - 8) := fun d n => by
    refine List.ext_getElem (by simp [memRead]) fun i h1 h2 => ?_
    simp [memRead, Nat.add_assoc]
  induction k generalizing d n with
  | zero => rfl
  | succ k ih =>
    rw [wordsOf, htake, hdrop, ih, List.range_succ_eq_map, List.map_cons, List.map_map]
    refine congrArg₂ List.cons rfl (List.map_congr_left fun j _ => ?_)
    simp only [Function.comp, Nat.succ_eq_add_one]
    rw [show d + 8 + 8 * j = d + 8 * (j + 1) by omega, show n - 8 - 8 * j = n - 8 * (j + 1) by omega]

/-- What is told to the edge caches before a write changes no more than they, or sets out messages to them. -/
theorem engCoherence_eq (s : State) (glob : Bool) (id : Nat) (cells : List (Nat × Byte)) :
    ∃ cs ms, engCoherence s glob id cells = { s with cubes := cs, msgs := ms } ∧ ∀ c : CubeId, ∃ e, cs.get c = { s.cube c with edge := e } := by
  cases glob with
  | false => exact ⟨s.cubes, _, rfl, fun c => ⟨(s.cube c).edge, rfl⟩⟩
  | true =>
    refine ⟨_, s.msgs, rfl, fun c => ?_⟩
    obtain ⟨e, he⟩ := edgeDrop_fold (linesOf (cells.map Prod.fst)) (s.cube c)
    exact ⟨e, (Vector.getElem_map _ c.isLt).trans he⟩

theorem putHome_outsideWrite {s : State} {cells : List (Nat × Byte)} (h : Plain s (cells.map Prod.fst)) (m : Mode) (glob : Bool) :
    PutHome s (outsideWrite s m glob cells) cells := by
  obtain ⟨cs, ms, heq, hcs⟩ := engCoherence_eq s glob 0 cells
  have hcube : ∀ c, ∃ e, (engCoherence s glob 0 cells).cube c = { s.cube c with edge := e } := fun c => by
    rw [heq]
    exact hcs c
  have hplain : Plain (engCoherence s glob 0 cells) (cells.map Prod.fst) :=
    plain_congr (fun c => by obtain ⟨e, he⟩ := hcube c; rw [he]) (by rw [heq]) h
  obtain ⟨cs', ow, po, no, ms', hput, hcs'⟩ := putHome_homeWrite hplain m .outside 0xFFF
  refine ⟨cs', ow, po, no, ms', ?_, fun c => ?_⟩
  · rw [outsideWrite, hput, heq]
  · obtain ⟨r, e, hr⟩ := hcs' c
    obtain ⟨e', he'⟩ := hcube c
    exact ⟨r, e, hr.trans (by rw [he'])⟩

/-- The first place of what an operation reaches. -/
theorem opEffect_of_plain {s : State} {o : ItemOp} (h : ∀ a ∈ o.locs, (keySpace s a).isWindow = false) :
    opEffect (atomMem s o.addr) o = opEffect s.mem o := by
  by_cases hstore : ∃ cells, o = .store cells
  · obtain ⟨cells, rfl⟩ := hstore
    rfl
  · rw [atomMem_of_plain (h _ (addr_mem_locs o fun cells ho => hstore ⟨cells, ho⟩))]

theorem outsideAtomic_of_sound {s : State} {d n : Nat} (h : Sound s d n) {o : ItemOp} (hlocs : o.locs = (List.range n).map (d + ·)) (m : Mode) :
    ∃ u, outsideAtomic s m o = (u, some (opEffect s.mem o).2) ∧ PutHome s u (opEffect s.mem o).1 := by
  have hplain : Plain s o.locs := hlocs ▸ h.plain
  refine ⟨outsideWrite s m true (opEffect s.mem o).1, ?_, putHome_outsideWrite (by rw [opEffect_locs]; exact hplain) m true⟩
  rw [outsideAtomic]
  simp only [fireReads_quiet s h.quiet, any_poison_of_clean (hlocs ▸ h.clean_locs),
    Bool.false_eq_true, if_false, opEffect_of_plain hplain.1]

theorem PutHome.fab {s u : State} {cells : List (Nat × Byte)} (h : PutHome s u cells) : u.fab = s.fab := by
  obtain ⟨cs, ow, po, no, ms, rfl, _⟩ := h
  rfl
theorem PutHome.replies {s u : State} {cells : List (Nat × Byte)} (h : PutHome s u cells) : u.replies = s.replies := by
  obtain ⟨cs, ow, po, no, ms, rfl, _⟩ := h
  rfl
theorem PutHome.refl (s : State) : PutHome s s [] :=
  ⟨s.cubes, s.owners, s.poison, s.notes, s.msgs, rfl, fun c => ⟨(s.cube c).recs, (s.cube c).edge, rfl⟩⟩

end Sys2Proof.Machine

namespace Sys2Proof.Machine
open Sys2Proof.Say
/-! PROOFS. Requests and reduction packets of peers (R117, R118, R190, R357 to R361, R364, R365), and O53. -/

/-! ### The entry of the peer in the bridge dies' cache (R357) -/

/-- The cache keeps what is read of a peer. -/
theorem peerEntry_cachePeer {s : State} (h : Quiet s) (p k : Nat) (hk : k < 4) : peerEntry (cachePeer s p) p k = peerEntry s p k := by
  have hfire : ∀ ls, fireReads s ls = s := fireReads_quiet s h
  unfold cachePeer
  simp only [hfire]
  split_ifs with hcached hpoison
  · rfl
  · rfl
  · have hfound : peerEntry { s with fab := { s.fab with entries := (p, Vector.ofFn fun k => peerEntry s p k.val) :: s.fab.entries } } p k =
        (Vector.ofFn (n := 4) fun k => peerEntry s p k.val).toList.getD k 0 := by
      rw [peerEntry]
      simp only [List.find?_cons, beq_self_eq_true]
    rw [hfound]
    simp [hk]

/-- The state in which a peer's request is looked at. -/
structure Looked (s t : State) (p : Nat) : Prop where
  state : ∃ es, t = { s with fab := { s.fab with entries := es } }
  entry : ∀ k, k < 4 → peerEntry t p k = peerEntry s p k

theorem looked_cachePeer {s : State} (h : Quiet s) (p : Nat) : Looked s (cachePeer s p) p :=
  ⟨(cachePeer_eq h p).imp fun _ he => he.1, fun k hk => peerEntry_cachePeer h p k hk⟩

theorem Looked.heard {s t : State} {p : Nat} (h : Looked s t p) : peerHeard t p = peerHeard s p := by
  obtain ⟨⟨es, rfl⟩, hentry⟩ := h
  rw [peerHeard, peerValid, hentry 0 (by decide)]
  rfl

theorem Looked.inLine {s t : State} {r : PeerReq} (h : Looked s t r.peer.toNat) : r.inLine t = r.inLine s := by
  rw [PeerReq.inLine, PeerReq.inLine, peerIrsere, peerEthernet, h.entry 0 (by decide)]
  rfl

theorem Looked.reach {s t : State} {p : Nat} (h : Looked s t p) (d n : Nat) (need : Need) :
    peerMayReach t p d n need = peerMayReach s p d n need := by
  obtain ⟨⟨es, rfl⟩, hentry⟩ := h
  rw [peerMayReach, hentry 2 (by decide), hentry 3 (by decide)]
  rfl

theorem Looked.next {s t : State} {r : PeerReq} {p : Nat} (h : Looked s t p) : lineNext t r = lineNext s r := by
  obtain ⟨⟨es, rfl⟩, _⟩ := h
  rfl

/-- A peer that is heard stands in the cache. -/
theorem cached_of_heard {s : State} (hq : Quiet s) {p : Nat} (h : peerHeard s p = true) :
    ∃ e, (cachePeer s p).fab.entries.find? (fun e => e.1 == p) = some e := by
  have hfire : ∀ ls, fireReads s ls = s := fireReads_quiet s hq
  rw [cachePeer]
  simp only [hfire]
  split_ifs with hcached hpoison
  · exact Option.isSome_iff_exists.mp (List.find?_isSome.mpr (List.any_eq_true.mp hcached))
  · have hentry : peerEntry s p 0 = 0 := by
      have hnone : s.fab.entries.find? (fun e => e.1 == p) = none :=
        List.find?_eq_none.mpr fun e he hp => hcached (List.any_eq_true.mpr ⟨e, he, hp⟩)
      rw [peerEntry, hnone]
      exact if_pos hpoison
    rw [peerHeard, peerValid, hentry] at h
    simp at h
  · exact ⟨_, List.find?_cons_of_pos (by simp)⟩

/-- What is read of a peer in the cache depends on nothing else. -/
theorem inLine_of_cached {s u : State} {r : PeerReq} {e : Nat × Vector Word 4}
    (h : s.fab.entries.find? (fun e => e.1 == r.peer.toNat) = some e) (hu : u.fab.entries = s.fab.entries) : r.inLine u = r.inLine s := by
  have hentry : peerEntry u r.peer.toNat 0 = peerEntry s r.peer.toNat 0 := by
    rw [peerEntry, peerEntry, hu, h]
  rw [PeerReq.inLine, PeerReq.inLine, peerIrsere, peerIrsere, peerEthernet, peerEthernet, hentry]

/-! ### What is performed (R359) -/

theorem sound_of_open {s : State} {p d n : Nat} {need : Need} (h : Open s p d n need) : Sound s d n := by
  obtain ⟨_, hq, _, hplain, hwords, hclean⟩ := h
  exact ⟨hq, hplain, hwords, hclean⟩

theorem Sound.looked {s t : State} {p d n : Nat} (h : Sound s d n) (hl : Looked s t p) : Sound t d n := by
  obtain ⟨⟨es, rfl⟩, _⟩ := hl
  exact ⟨h.quiet, h.plain, h.words, h.clean⟩

theorem pos_of_reach {s : State} {p d n : Nat} {need : Need} (h : peerMayReach s p d n need = true) : 0 < n := by
  rw [peerMayReach, Bool.and_eq_true, Bool.and_eq_true, decide_eq_true_eq] at h
  exact h.1.1

/-- A request is performed: what it leaves, and what goes back. -/
def Performed (t : State) (r : PeerReq) (cells : List (Nat × Byte)) (ws : List Word) : Prop :=
  ∃ u, peerPerform t r.peer.toNat r.kind r.dpa r.data = (u, some ws) ∧ PutHome t u cells

theorem performed_read {t : State} {r : PeerReq} (hk : r.kind = 0) (h : Sound t r.dpa r.data.length) :
    Performed t r [] ((List.range ((r.data.length + 7) / 8)).map fun j =>
      BitVec.ofNat 64 (memNat t.mem (r.dpa + 8 * j) (Nat.min 8 (r.data.length - 8 * j)))) := by
  refine ⟨t, ?_, .refl t⟩
  rw [hk, peerPerform, outsideRead_of_sound h, ← wordsOf_memRead]

theorem performed_write {t : State} {r : PeerReq} (hk : r.kind = 1 ∨ r.kind = 2) (h : Sound t r.dpa r.data.length)
    (hpos : 0 < r.data.length) : Performed t r (cellsAt r.dpa r.data) [0] := by
  have hput : PutHome t (outsideWrite t .task (r.kind == 2) (cellsAt r.dpa r.data)) (cellsAt r.dpa r.data) :=
    putHome_outsideWrite (by rw [map_fst_cellsAt]; exact h.plain) _ _
  have hwin : (keySpace t r.dpa).isWindow = false :=
    h.plain.1 _ (List.mem_map.mpr ⟨0, List.mem_range.mpr hpos, rfl⟩)
  refine ⟨_, ?_, hput⟩
  rcases hk with hk | hk <;> rw [hk, peerPerform] <;> cases hs : keySpace t r.dpa <;> simp_all [Space.isWindow]

theorem performed_op {t : State} {r : PeerReq} {n : Nat} {o : ItemOp} (hk : 3 ≤ r.kind) (h : Sound t r.dpa n)
    (hop : peerOp t r.kind r.dpa r.data = some o) (hlocs : o.locs = (List.range n).map (r.dpa + ·)) :
    Performed t r (opEffect t.mem o).1 [(opEffect t.mem o).2] := by
  obtain ⟨u, hu, hput⟩ := outsideAtomic_of_sound h hlocs .task
  refine ⟨u, ?_, hput⟩
  rw [peerPerform]
  · rw [hop]
    simp only [hu]
  all_goals intro hc; omega

/-- The atomics of the requests, by their numbers. -/
def peerAtomics : List (Nat × AmoOp) :=
  [(5, .add), (6, .and), (7, .or), (8, .xor), (9, .min), (10, .max), (11, .minn), (12, .maxn), (13, .swap), (17, .fadd), (18, .fmax)]

theorem opEffect_amo (m : List Host.Cell) (o : AmoOp) {n : Nat} (hn : n = 4 ∨ n = 8) (d : Nat) (b b1 : Word) :
    opEffect m (.amo o (n == 8) d b b1) = (cellsAt d (bytesLE n (combined o (8 * n) (memNat m d n) (b.toNat % 2 ^ (8 * n)) (b1.toNat % 2 ^ (8 * n)))),
      BitVec.ofNat 64 (memNat m d n)) := by
  rcases hn with rfl | rfl <;> rw [opEffect] <;> simp [amoValue_eq_combined]

theorem locs_amo (o : AmoOp) {n : Nat} (hn : n = 4 ∨ n = 8) (d : Nat) (b b1 : Word) :
    (ItemOp.amo o (n == 8) d b b1).locs = (List.range n).map (d + ·) := by
  rcases hn with rfl | rfl <;> rfl

/-- The bytes of an operand, as a word. -/
theorem toNat_operand {bs : List Byte} {n : Nat} (hn : n = 4 ∨ n = 8) (hlen : bs.length ≤ n) :
    (BitVec.ofNat 64 (packLE bs)).toNat % 2 ^ (8 * n) = packLE bs := by
  have hlt : packLE bs < 2 ^ (8 * n) :=
    lt_of_lt_of_le (packLE_lt bs) (Nat.pow_le_pow_right (by decide) (by omega))
  have h64 : 2 ^ (8 * n) ≤ 2 ^ 64 := Nat.pow_le_pow_right (by decide) (by omega)
  rw [BitVec.toNat_ofNat, Nat.mod_eq_of_lt (lt_of_lt_of_le hlt h64), Nat.mod_eq_of_lt hlt]

theorem performed_amo {t : State} {r : PeerReq} {x : Nat × AmoOp} (hx : x ∈ peerAtomics) (hk : r.kind = x.1)
    (hn : r.data.length = 4 ∨ r.data.length = 8 ∧ x.1 ≤ 13) (hd : r.dpa % r.data.length = 0) (h : Sound t r.dpa r.data.length) :
    Performed t r (atomCells t x.2 r.data.length r.dpa (packLE r.data) 0) [BitVec.ofNat 64 (memNat t.mem r.dpa r.data.length)] := by
  have hwide : r.data.length = 4 ∨ r.data.length = 8 := hn.imp_right And.left
  have hop : peerOp t r.kind r.dpa r.data =
      some (.amo x.2 (r.data.length == 8) r.dpa (BitVec.ofNat 64 (packLE r.data)) (BitVec.ofNat 64 (packLE []))) := by
    have htake : r.data.take r.data.length = r.data := List.take_length
    have hdrop : r.data.drop r.data.length = [] := List.drop_length
    rw [hk]
    rcases hn with hn | ⟨hn, hx13⟩
    · rw [hn] at hd htake hdrop
      fin_cases hx <;> simp [peerOp, peerAmo, hn, hd, htake, hdrop]
    · rw [hn] at hd htake hdrop
      fin_cases hx <;> simp [peerOp, peerAmo, hn, hd, htake, hdrop] at hx13 ⊢
  have hlt : 3 ≤ r.kind := by
    rw [hk]
    fin_cases hx <;> decide
  have hperf := performed_op hlt h hop (locs_amo _ hwide _ _ _)
  rw [opEffect_amo _ _ hwide, toNat_operand hwide le_rfl, toNat_operand hwide (Nat.zero_le _)] at hperf
  exact hperf

theorem performed_cas {t : State} {r : PeerReq} (hk : r.kind = 14) (hn : r.data.length = 8 ∨ r.data.length = 16)
    (hd : r.dpa % (r.data.length / 2) = 0) (h : Sound t r.dpa (r.data.length / 2)) :
    Performed t r (atomCells t .cas (r.data.length / 2) r.dpa (packLE (r.data.take (r.data.length / 2)))
      (packLE (r.data.drop (r.data.length / 2)))) [BitVec.ofNat 64 (memNat t.mem r.dpa (r.data.length / 2))] := by
  have hwide : r.data.length / 2 = 4 ∨ r.data.length / 2 = 8 := by omega
  have hop : peerOp t r.kind r.dpa r.data = some (.amo .cas (r.data.length / 2 == 8) r.dpa
      (BitVec.ofNat 64 (packLE (r.data.take (r.data.length / 2)))) (BitVec.ofNat 64 (packLE (r.data.drop (r.data.length / 2))))) := by
    rw [hk]
    simp [peerOp, peerAmo, hd, hwide]
  have hperf := performed_op (by omega) h hop (locs_amo _ hwide _ _ _)
  rw [opEffect_amo _ _ hwide, toNat_operand hwide (by rw [List.length_take]; omega),
    toNat_operand hwide (by rw [List.length_drop]; omega)] at hperf
  exact hperf

end Sys2Proof.Machine

namespace Sys2Proof.Machine
open Sys2Proof.Say
/-! PROOFS. How a request of a peer is taken, and O53. -/

/-! ### Answers (R117, R360) -/

theorem exec_asks (s : State) (r : PeerReq) : exec (asks r) s = .next (incomingRequest s r) := rfl

/-- A request that was performed is answered, and known as performed. -/
def State.answered (u : State) (r : PeerReq) (ws : List Word) : State :=
  replyAll { u with fab := { u.fab with performed := ((r.peer, r.tag), ws) :: u.fab.performed } } ws

theorem answerRequest_of_performed {t u : State} {r : PeerReq} {ws : List Word} (hreach : peerMayReach t r.peer.toNat r.dpa r.size r.need = true)
    (h : peerPerform t r.peer.toNat r.kind r.dpa r.data = (u, some ws)) :
    answerRequest t r = if r.inLine (u.answered r ws) then advanceLine (u.answered r ws) r else u.answered r ws := by
  rw [answerRequest, if_pos hreach, h]
  rfl

theorem answerRequest_of_unreached {t : State} {r : PeerReq} (hreach : peerMayReach t r.peer.toNat r.dpa r.size r.need = false) :
    answerRequest t r = reply t nackWord := by
  rw [answerRequest, if_neg (by rw [hreach]; decide)]

theorem lineNext_advanceLine (s : State) (r : PeerReq) : lineNext (advanceLine s r) r = r.from_.seq + 1 := by
  rw [lineNext, advanceLine]
  simp only [List.find?_cons, beq_self_eq_true]

/-- A request whose turn it is, while no other is held, is answered. -/
theorem takeRequest_of_turn {t : State} {r : PeerReq} (hnew : (t.fab.performed.find? fun e => e.1 == (r.peer, r.tag)) = none)
    (hturn : r.inLine t = true → r.from_.seq ≤ lineNext t r) (hheld : (answerRequest t r).fab.held = []) :
    takeRequest t r = answerRequest t r := by
  have hnot : ¬ (r.inLine t && decide (lineNext t r < r.from_.seq)) = true := by
    rw [Bool.and_eq_true, decide_eq_true_eq]
    exact fun ⟨hin, hlt⟩ => absurd (hturn hin) (Nat.not_le.mpr hlt)
  simp only [takeRequest, hnew, if_neg hnot, hheld, List.length_nil, releaseLine]

/-- A request of a peer that is heard is taken. -/
theorem incomingRequest_of_heard {s : State} {r : PeerReq} (hq : Quiet s) (h : peerHeard s r.peer.toNat = true) (h15 : r.kind ≠ 15)
    (h16 : r.kind ≠ 16) : incomingRequest s r = takeRequest (cachePeer s r.peer.toNat) r := by
  rw [incomingRequest]
  simp only [if_neg h16, if_neg h15, (looked_cachePeer hq r.peer.toNat).heard, h, Bool.not_true, Bool.false_eq_true, if_false]

/-! ### A request whose turn it is (R357 to R361) -/

section
variable {s : State} {r : PeerReq} (hq : Quiet s) (ht : Taken s r) (h15 : r.kind ≠ 15) (h16 : r.kind ≠ 16)
include hq ht h15 h16

theorem exec_asks_of_taken (hheld : (answerRequest (cachePeer s r.peer.toNat) r).fab.held = []) :
    exec (asks r) s = .next (answerRequest (cachePeer s r.peer.toNat) r) := by
  obtain ⟨hheard, hnew, hturn, _⟩ := ht
  have hl := looked_cachePeer hq r.peer.toNat
  rw [exec_asks, incomingRequest_of_heard hq hheard h15 h16, takeRequest_of_turn _ _ hheld]
  · obtain ⟨es, heq⟩ := hl.state
    rw [heq]
    exact hnew
  · rw [hl.inLine, hl.next]
    exact hturn

theorem exec_asks_of_unreached (hreach : peerMayReach s r.peer.toNat r.dpa r.size r.need = false) :
    exec (asks r) s = .next { cachePeer s r.peer.toNat with replies := s.replies ++ [BitVec.allOnes 64] } := by
  have hl := looked_cachePeer hq r.peer.toNat
  have hans := answerRequest_of_unreached (t := cachePeer s r.peer.toNat) ((hl.reach ..).trans hreach)
  have hheld : (answerRequest (cachePeer s r.peer.toNat) r).fab.held = [] := by
    rw [hans]
    obtain ⟨es, heq⟩ := hl.state
    rw [heq]
    exact ht.2.2.2
  rw [exec_asks_of_taken hq ht h15 h16 hheld, hans]
  obtain ⟨es, heq⟩ := hl.state
  rw [heq]
  rfl

theorem serves_of_performed {cells : List (Nat × Byte)} {ws : List Word} (hreach : peerMayReach s r.peer.toNat r.dpa r.size r.need = true)
    (h : Performed (cachePeer s r.peer.toNat) r cells ws) : Serves s r cells ws := by
  have hl := looked_cachePeer hq r.peer.toNat
  obtain ⟨e, he⟩ := cached_of_heard hq ht.1
  obtain ⟨u, hu, hput⟩ := h
  have hline : r.inLine (u.answered r ws) = r.inLine s :=
    (inLine_of_cached he (by rw [State.answered, replyAll, hput.fab])).trans hl.inLine
  have hans := answerRequest_of_performed ((hl.reach ..).trans hreach) hu
  obtain ⟨es, heq⟩ := hl.state
  rw [hline] at hans
  have hfab : (u.answered r ws).fab = { s.fab with entries := es, performed := ((r.peer, r.tag), ws) :: s.fab.performed } := by
    rw [State.answered, replyAll, hput.fab, heq]
  have hheld : (answerRequest (cachePeer s r.peer.toNat) r).fab.held = [] := by
    rw [hans]
    split
    · rw [advanceLine, hfab]
      exact ht.2.2.2
    · rw [hfab]
      exact ht.2.2.2
  have hmem : (u.answered r ws).mem = memWrite s.mem cells := hput.mem.trans (by rw [heq])
  have hreplies : (u.answered r ws).replies = s.replies ++ ws := by
    rw [State.answered, replyAll, hput.replies, heq]
  have hitems : (u.answered r ws).items = s.items := hput.items.trans (by rw [heq])
  have hreads : (u.answered r ws).reads = s.reads := hput.reads.trans (by rw [heq])
  refine ⟨_, exec_asks_of_taken hq ht h15 h16 hheld, ?_⟩
  rw [hans]
  split
  case isTrue hin =>
    exact ⟨stored_of_mem hmem, hreplies, hitems, hreads, by rw [advanceLine, hfab], fun _ => lineNext_advanceLine _ _⟩
  case isFalse hin =>
    exact ⟨stored_of_mem hmem, hreplies, hitems, hreads, by rw [hfab], fun h => absurd h hin⟩
end

/-- What is performed of a request in the state in which it is looked at reads the same memory. -/
theorem mem_cachePeer {s : State} (hq : Quiet s) (p : Nat) : (cachePeer s p).mem = s.mem := by
  obtain ⟨es, heq⟩ := (looked_cachePeer hq p).state
  rw [heq]

/-! ### Negative completions (R358) -/

theorem addPending_of_empty {x : Ctx} (h : x.pending = []) (t : Trap) (pos : Nat) : (x.addPending t pos).pending = [t] := by
  rw [Ctx.addPending, h]
  rfl

/-- A read that a peer refuses is lost. -/
theorem refusedByPeer_read {t : State} {p d : Nat} {q : ReadReq} (hitem : t.item d = none) (hread : t.read d = some q)
    (hst : q.status = .sent) (hcells : ∃ x ∈ q.cells, peerOf x.1 = some p) :
    refusedByPeer t p d = loseRead t q ⟨causeUncorrectable, 0, 0, q.acc, 0, q.va⟩ := by
  have hcond : (q.status == .sent && q.cells.any fun x => peerOf x.1 == some p) = true := by
    obtain ⟨x, hx, hp⟩ := hcells
    rw [hst, Bool.and_eq_true]
    exact ⟨rfl, List.any_eq_true.mpr ⟨x, hx, beq_iff_eq.mpr hp⟩⟩
  rw [refusedByPeer]
  simp only [hitem, hread, if_pos hcond]

theorem loseRead_of_result (t : State) {q : ReadReq} (h : q.dest ≠ .wait) (tr : Trap) : loseRead t q tr =
    (t.dropRead q.id).modSid q.sid fun x =>
      { x.addPending tr (placeOfId q.id) with acqs := x.acqs.filter fun a => a.read != q.id } := by
  rw [loseRead]
  split
  case h_1 hw => exact absurd hw h
  case h_2 => rfl

theorem cmd_modCmd {k : Cube} {d : Nat} {m : Cmd} (hm : k.cmd d = some m) {f : Cmd → Cmd} (hf : ∀ q, (f q).id = q.id) :
    (k.modCmd d f).cmd d = some (f m) := by
  have hid : m.id = d := by simpa using List.find?_some (p := fun q : Cmd => q.id == d) hm
  have hcomp : ((fun q : Cmd => q.id == d) ∘ fun q => if q.id = d then f q else q) = fun q => q.id == d := by
    funext q
    simp only [Function.comp]
    split <;> simp_all
  rw [Cube.cmd, Cube.modCmd, List.find?_map, hcomp, show k.cmds.find? (fun q => q.id == d) = some m from hm, Option.map_some, if_pos hid]

theorem cmd_loseCmd {t : State} {c : CubeId} {d home : Nat} {m : Cmd} {err : BitVec 8} (hm : (t.cube c).cmd d = some m)
    (hst : m.status = .started) : ((loseCmd t d err home).cube c).cmd d = some { m with lost := some (err, home) } := by
  have hcube : (loseCmd t d err home).cube c = (t.cube c).modCmd d fun m =>
      if m.status == .started || (m.status == .queued && m.queue == .blkq) then { m with lost := some (err, home) } else m :=
    Vector.getElem_map _ c.isLt
  rw [hcube, cmd_modCmd hm fun q => by split <;> rfl, hst]
  rfl

/-! ### Reduction packets (R364, R365) -/

theorem reducePacket_of_new {t : State} {peer : BitVec 10} {pid v : Word} {d op n : Nat} {o : ItemOp}
    (hheard : peerHeard t peer.toNat = true) (hnew : ∀ e ∈ t.fab.performed, e.1 ≠ (peer, pid))
    (hop : packetOp op d v (memNat t.mem d 2) = some (o, n)) (hreach : peerMayReach t peer.toNat d n .both = true)
    (hlo : inWindow t d = true) (hhi : inWindow t (d + n - 1) = true) (hd : d % n = 0) (hs : Sound t d n)
    (hlocs : o.locs = (List.range n).map (d + ·)) :
    ∃ u, reducePacket t peer pid d op v = reply { u with fab := { u.fab with performed := ((peer, pid), [pid]) :: u.fab.performed } } pid ∧
      PutHome t u (opEffect t.mem o).1 := by
  obtain ⟨u, hu, hput⟩ := outsideAtomic_of_sound hs hlocs .task
  refine ⟨u, ?_, hput⟩
  have hany : (t.fab.performed.any fun e => e.1 == (peer, pid)) = false := by
    rw [List.any_eq_false]
    exact fun e he hc => hnew e he (beq_iff_eq.mp hc)
  rw [reducePacket]
  simp only [hheard, hany, hop, hreach, hlo, hhi, hd, hu, Bool.not_true, Bool.false_eq_true, if_false, Bool.and_self, beq_self_eq_true,
    if_true]

/-! ### Requests that are not performed -/

theorem exec_asks_of_unheard {s : State} {r : PeerReq} (hq : Quiet s) (h : peerHeard s r.peer.toNat = false) (h16 : r.kind ≠ 16) :
    exec (asks r) s = .next { cachePeer s r.peer.toNat with fab := { (cachePeer s r.peer.toNat).fab with
      regs := { s.fab.regs with drop := if s.fab.regs.drop = BitVec.allOnes 32 then s.fab.regs.drop else s.fab.regs.drop + 1 } } } := by
  have hl := looked_cachePeer hq r.peer.toNat
  have hcond : (!peerHeard (cachePeer s r.peer.toNat) r.peer.toNat) = true := by rw [hl.heard, h]; rfl
  rw [exec_asks, incomingRequest]
  simp only [if_neg h16, if_pos hcond]
  obtain ⟨es, heq⟩ := hl.state
  rw [heq]
  rfl

theorem exec_asks_of_performed {s : State} {r : PeerReq} {ws : List Word} (hq : Quiet s) (h : peerHeard s r.peer.toNat = true)
    (h15 : r.kind ≠ 15) (h16 : r.kind ≠ 16) (hold : (s.fab.performed.find? fun e => e.1 == (r.peer, r.tag)) = some ((r.peer, r.tag), ws)) :
    exec (asks r) s = .next { cachePeer s r.peer.toNat with replies := s.replies ++ ws } := by
  obtain ⟨es, heq⟩ := (looked_cachePeer hq r.peer.toNat).state
  rw [exec_asks, incomingRequest_of_heard hq h h15 h16, heq, takeRequest]
  simp only [hold]
  rfl

theorem exec_asks_of_early {s : State} {r : PeerReq} (hq : Quiet s) (h : peerHeard s r.peer.toNat = true) (h15 : r.kind ≠ 15)
    (h16 : r.kind ≠ 16) (hnew : (s.fab.performed.find? fun e => e.1 == (r.peer, r.tag)) = none) (hin : r.inLine s = true)
    (hlt : lineNext s r < r.from_.seq) (hnot : r ∉ s.fab.held) :
    exec (asks r) s = .next { cachePeer s r.peer.toNat with
      fab := { (cachePeer s r.peer.toNat).fab with held := s.fab.held ++ [r] } } := by
  have hl := looked_cachePeer hq r.peer.toNat
  have hcond : (r.inLine (cachePeer s r.peer.toNat) && decide (lineNext (cachePeer s r.peer.toNat) r < r.from_.seq)) = true := by
    rw [hl.inLine, hl.next, hin, decide_eq_true hlt]
    rfl
  obtain ⟨es, heq⟩ := hl.state
  rw [exec_asks, incomingRequest_of_heard hq h h15 h16]
  rw [heq] at hcond ⊢
  have hheld : s.fab.held.contains r = false := by
    rw [Bool.eq_false_iff]
    exact fun hc => hnot (List.contains_iff_mem.mp hc)
  simp only [takeRequest, hnew, if_pos hcond, hheld, Bool.false_eq_true, if_false]

/-! ### What a peer writes itself (R190), and negative completions (R358) -/

theorem mem_placeCells (s : State) (tag : BitVec 12) (cells : List (Nat × Byte)) :
    (placeCells s tag cells).mem = memWrite s.mem (cells ++ mirrorCells s cells) := by
  unfold placeCells
  simp only [notifyWatches]
  unfold clearPoison
  split <;> rfl

theorem exec_asks_of_own {s : State} {r : PeerReq} (hq : Quiet s) (hk : r.kind = 16) (hle : r.dpa + r.data.length ≤ dpaSpan)
    (hev : ∀ c, (s.cube c).hw.life ≠ .evacuating) :
    ∃ u, exec (asks r) s = .next u ∧ u.mem = memWrite s.mem (cellsAt ((r.peer.toNat + 1) * dpaSpan + r.dpa) r.data) ∧ u.replies = s.replies := by
  obtain ⟨es, heq⟩ := (looked_cachePeer hq r.peer.toNat).state
  refine ⟨_, rfl, ?_⟩
  rw [incomingRequest]
  simp only [if_pos hk, peerWrites, if_pos hle]
  rw [heq]
  split
  · have hnone := mirrorCells_none (cachePeer s r.peer.toNat) (by rw [heq]; exact hev)
      (cellsAt ((r.peer.toNat + 1) * dpaSpan + r.dpa) r.data)
    rw [heq] at hnone
    have hmem := mem_placeCells { s with fab := { s.fab with entries := es } } 0xFFF (cellsAt ((r.peer.toNat + 1) * dpaSpan + r.dpa) r.data)
    rw [hnone, List.append_nil] at hmem
    refine ⟨hmem, ?_⟩
    obtain ⟨m, ow, po, no, hplace⟩ := placeCells_eq { s with fab := { s.fab with entries := es } } 0xFFF
      (cellsAt ((r.peer.toNat + 1) * dpaSpan + r.dpa) r.data)
    rw [hplace]
  · exact ⟨rfl, rfl⟩

theorem exec_asks_of_negative {s : State} {r : PeerReq} (hq : Quiet s) (hk : r.kind = 15) (h : peerHeard s r.peer.toNat = true) :
    exec (asks r) s = .next (refusedByPeer (cachePeer s r.peer.toNat) r.peer.toNat r.dpa) := by
  rw [exec_asks, incomingRequest]
  simp only [hk, (looked_cachePeer hq r.peer.toNat).heard, h, Bool.not_true, Bool.false_eq_true, if_false, Nat.reduceEqDiff, if_true]

/-! ### Operations -/

theorem reach_of_open {s : State} {r : PeerReq} {n : Nat} (hk : 3 ≤ r.kind) (hn : r.size = n) (ho : Open s r.peer.toNat r.dpa n .both) :
    peerMayReach s r.peer.toNat r.dpa r.size r.need = true := by
  rw [hn, PeerReq.need, if_neg (by omega), if_neg (by omega)]
  exact ho.1

/-- A counter operation of a peer. -/
theorem serves_counter {s : State} {r : PeerReq} (hq : Quiet s) (ht : Taken s r) (hk : r.kind = 3 ∨ r.kind = 4) (hn : r.data.length = 8)
    (ho : Open s r.peer.toNat r.dpa 8 .both) {o : ItemOp} (hop : peerOp (cachePeer s r.peer.toNat) r.kind r.dpa r.data = some o)
    (hlocs : o.locs = (List.range 8).map (r.dpa + ·)) : Serves s r (opEffect s.mem o).1 [(opEffect s.mem o).2] := by
  have hperf := performed_op (by omega) ((sound_of_open ho).looked (looked_cachePeer hq r.peer.toNat)) hop hlocs
  rw [mem_cachePeer hq] at hperf
  exact serves_of_performed hq ht (by omega) (by omega)
    (reach_of_open (by omega) (by rw [PeerReq.size, if_neg (by omega), hn]) ho) hperf

/-- A reduction packet of a peer that is heard. -/
theorem exec_reductionPacketArrival_of_new {s : State} (hq : Quiet s) {peer : BitVec 10} {pid a : Word} {d n count : Nat} {op : BitVec 4}
    {o : ItemOp} {cells : List (Nat × Byte)} (hheard : peerHeard s peer.toNat = true) (hnew : ∀ e ∈ s.fab.performed, e.1 ≠ (peer, pid))
    (hlo : inWindow s d = true) (ho : Open s peer.toNat d n .both) (hhi : inWindow s (d + n - 1) = true) (hd : d % n = 0)
    (hop : packetOp op.toNat d a (memNat s.mem d 2) = some (o, n)) (hlocs : o.locs = (List.range n).map (d + ·))
    (hcells : (opEffect s.mem o).1 = cells) :
    ∃ u, exec (.reductionPacketArrival peer pid d op count a) s = .next u ∧ Stored s u cells ∧ u.replies = s.replies ++ [pid] ∧
      u.fab.performed = ((peer, pid), [pid]) :: s.fab.performed := by
  have hl := looked_cachePeer hq peer.toNat
  obtain ⟨es, heq⟩ := hl.state
  have hnew' : ∀ e ∈ (cachePeer s peer.toNat).fab.performed, e.1 ≠ (peer, pid) := by rw [heq]; exact hnew
  have hlo' : inWindow (cachePeer s peer.toNat) d = true := by rw [heq]; exact hlo
  have hhi' : inWindow (cachePeer s peer.toNat) (d + n - 1) = true := by rw [heq]; exact hhi
  have hop' : packetOp op.toNat d a (memNat (cachePeer s peer.toNat).mem d 2) = some (o, n) := by rw [heq]; exact hop
  obtain ⟨u, hu, hput⟩ := reducePacket_of_new (hl.heard.trans hheard) hnew' hop' ((hl.reach ..).trans ho.1) hlo' hhi' hd
    ((sound_of_open ho).looked hl) hlocs
  rw [mem_cachePeer hq, hcells] at hput
  refine ⟨_, congrArg Host.Outcome.next hu, stored_of_mem (hput.mem.trans (by rw [mem_cachePeer hq])), ?_, ?_⟩
  · rw [reply, hput.replies, heq]
  · rw [reply, hput.fab, heq]

/-- Settles O53: the entry of the peer is cached, and then the request is discarded, answered again, held, refused or performed. -/
theorem peerRequests : Obligations.PeerRequests := by
  unfold Obligations.PeerRequests
  intro s r hq p d n w s0 v
  have hl : Looked s s0 p := looked_cachePeer hq p
  have hmem : s0.mem = s.mem := mem_cachePeer hq p
  refine ⟨fun hdeaf h16 => ?_, fun hheard h15 h16 ws hold => ?_, fun hheard h15 h16 hnew hin hlt hnot => ?_,
    fun ht => ⟨fun h15 h16 hreach => exec_asks_of_unreached hq ht h15 h16 hreach, fun hk ho => ?_, fun hk ho => ?_,
      fun ho => ⟨fun hn hd => ⟨fun hk => ?_, fun hk => ?_⟩, fun hd x hx hk hn => ?_, fun hk hn hd => ?_⟩, fun hk hn hd ho => ?_⟩,
    fun hk hle hwf hev => ?_, fun hk hheard hitem => ⟨fun c q hread hid hst hdest hcells hcur hsid hpend => ?_,
      fun c m hread hm hst => ?_⟩, fun pid a count hheard => ⟨fun hold op => ?_, fun hnew hlo => ?_⟩⟩
  · exact exec_asks_of_unheard hq hdeaf h16
  · exact exec_asks_of_performed hq hheard h15 h16 hold
  · exact exec_asks_of_early hq hheard h15 h16 hnew hin hlt hnot
  · exact serves_of_performed hq ht (by omega) (by omega) (by rw [PeerReq.size, PeerReq.need, if_neg (by omega), if_pos hk]; exact ho.1)
      (hmem ▸ performed_read hk ((sound_of_open ho).looked hl))
  · exact serves_of_performed hq ht (by omega) (by omega)
      (by rw [PeerReq.size, PeerReq.need, if_neg (by omega), if_neg (by omega), if_pos (by omega)]; exact ho.1)
      (performed_write hk ((sound_of_open ho).looked hl) (pos_of_reach ho.1))
  · have hserve := serves_counter hq ht (.inl hk) hn (hn ▸ ho) (o := .cadd d w) (by rw [hk]; exact if_pos hd) rfl
    rw [opEffect, caddValue_eq_counterSum] at hserve
    exact hserve
  · have hserve := serves_counter hq ht (.inr hk) hn (hn ▸ ho) (o := .cmax d w) (by rw [hk]; exact if_pos hd) rfl
    rw [opEffect, cmaxValue_eq_counterMax] at hserve
    exact hserve
  · have hrange : 5 ≤ x.1 ∧ x.1 ≤ 18 ∧ x.1 ≠ 14 ∧ x.1 ≠ 15 ∧ x.1 ≠ 16 := by
      fin_cases hx <;> decide
    have hperf := performed_amo hx hk hn hd ((sound_of_open ho).looked hl)
    rw [atomCells, hmem] at hperf
    exact serves_of_performed hq ht (by omega) (by omega) (reach_of_open (by omega) (if_neg (by omega)) ho) hperf
  · have hop : peerOp s0 r.kind r.dpa r.data =
        some (.store (cellsAt r.dpa (bytesLE 2 (credValue .addBf16 (memNat s0.mem r.dpa 2) (packLE r.data))))) := by
      rw [hk]
      exact if_pos ⟨hn, hd⟩
    have hperf := performed_op (by omega) ((sound_of_open ho).looked hl) hop
      (by rw [ItemOp.locs, map_fst_cellsAt, length_bytesLE, show n = 2 from hn])
    rw [hmem] at hperf
    exact serves_of_performed hq ht (by omega) (by omega) (reach_of_open (by omega) (if_neg (by omega)) ho) hperf
  · have hperf := performed_cas hk hn hd ((sound_of_open ho).looked hl)
    rw [atomCells, hmem] at hperf
    exact serves_of_performed hq ht (by omega) (by omega) (reach_of_open (by omega) (if_pos hk) ho) hperf
  · obtain ⟨u, hu, hum, hur⟩ := exec_asks_of_own hq hk hle hev
    exact ⟨u, hu, stored_of_mem hum, hur⟩
  · obtain ⟨es, heq⟩ := hl.state
    have hread0 : s0.read d = some q := by rw [heq]; exact hread
    have hitem0 : s0.item d = none := by rw [heq]; exact hitem
    refine ⟨_, exec_asks_of_negative hq hk hheard, ?_⟩
    rw [refusedByPeer_read hitem0 hread0 hst hcells, loseRead_of_result _ hdest]
    refine ⟨by rw [State.modSid, State.dropRead, heq], ?_, by rw [State.modSid, State.dropRead, heq]⟩
    have hcube : (s0.dropRead q.id).cube c = s.cube c := by rw [heq]; rfl
    rw [cube_modSid, hcube, modSid_of_running _ hcur hsid]
    exact addPending_of_empty hpend _ _
  · obtain ⟨es, heq⟩ := hl.state
    have hread0 : s0.read d = none := by rw [heq]; exact hread
    have hitem0 : s0.item d = none := by rw [heq]; exact hitem
    have hm0 : (s0.cube c).cmd d = some m := by rw [heq]; exact hm
    refine ⟨_, exec_asks_of_negative hq hk hheard, ?_⟩
    have hlose : refusedByPeer (cachePeer s r.peer.toNat) r.peer.toNat r.dpa = loseCmd s0 d 2 p := by
      rw [refusedByPeer]
      simp only [show (cachePeer s r.peer.toNat).item r.dpa = none from hitem0, show (cachePeer s r.peer.toNat).read r.dpa = none from hread0]
      rfl
    rw [hlose]
    exact ⟨cmd_loseCmd hm0 hst, by rw [loseCmd, heq]⟩
  · obtain ⟨e, he, hkey⟩ := hold
    have hany : (s0.fab.performed.any fun e => e.1 == (r.peer, pid)) = true := by
      obtain ⟨es, heq⟩ := hl.state
      rw [heq]
      exact List.any_eq_true.mpr ⟨e, he, beq_iff_eq.mpr hkey⟩
    have hheard0 : ¬ (!peerHeard s0 r.peer.toNat) = true := by rw [hl.heard, hheard]; decide
    refine (exec_reductionPacketArrival ..).trans (congrArg Host.Outcome.next ((if_neg hheard0).trans ((if_pos hany).trans ?_)))
    obtain ⟨es, heq⟩ := hl.state
    rw [reply, show cachePeer s r.peer.toNat = s0 from rfl, heq]
  · intro Applied
    refine ⟨fun x hx => ?_, ?_⟩
    · have hn : x.2.2 = 4 ∨ x.2.2 = 8 := by fin_cases hx <;> decide
      intro ho hhi hd
      refine exec_reductionPacketArrival_of_new hq hheard hnew hlo ho hhi hd (o := .amo x.2.1 (x.2.2 == 8) d a 0) ?_ (locs_amo _ hn _ _ _) ?_
      · fin_cases hx <;> rfl
      · rw [opEffect_amo _ _ hn]
        simp [atomCells]
    · intro ho hhi hd
      refine exec_reductionPacketArrival_of_new hq hheard hnew hlo ho hhi hd
        (o := .store (cellsAt d (bytesLE 2 (credValue .addBf16 (memNat s.mem d 2) (a.toNat % 2 ^ 16))))) rfl ?_ rfl
      rw [ItemOp.locs, map_fst_cellsAt, length_bytesLE]

end Sys2Proof.Machine

namespace Sys2Proof.Machine
open Sys2Proof.Say
/-! PROOFS. One step (R133, R142, R143, log entries 3 and 4), and O9. -/

/-! ### Events of the agenda (R225, R383) -/

theorem nextEvent_of_first {i : Instr} {rest : List Instr} (h : packetBridge i ≠ some true ∨ ∀ j ∈ rest, packetBridge j ≠ some false) :
    nextEvent (i :: rest) = some (i, rest) := by
  rw [nextEvent]
  by_cases hi : packetBridge i = some true
  · have hnone : (rest.find? fun j => packetBridge j == some false) = none :=
      List.find?_eq_none.mpr fun j hj hc => h.resolve_left (not_not.mpr hi) j hj (beq_iff_eq.mp hc)
    rw [if_pos hi, hnone]
  · rw [if_neg hi]

theorem wakes_iff (i : Instr) : wakes i = true ↔ ∃ f, i = .packageReset f := by
  constructor
  · intro h
    unfold wakes at h
    split at h
    · exact ⟨_, rfl⟩
    · cases h
  · rintro ⟨f, rfl⟩
    rfl

/-- A launch packet is an event, and no reset. -/
theorem packet_event {j : Instr} {b : Bool} (h : packetBridge j = some b) : j.isSlot = false ∧ wakes j = false := by
  unfold packetBridge at h
  split at h
  · exact ⟨rfl, rfl⟩
  · exact ⟨rfl, rfl⟩
  · exact ⟨rfl, rfl⟩
  · cases h

theorem step_of_next {s : State} {i : Instr} {rest : List Instr} (h : nextEvent s.agenda = some (i, rest)) :
    step s = if i.isSlot || !(s.secu.powered || wakes i) then .next { s with agenda := rest } else exec i { s with agenda := rest } := by
  rw [step, h]

theorem step_of_turn {s : State} (ha : s.agenda = []) (hp : s.secu.powered = true) (hw : s.winq = []) : step s = .next (takeTurn s) := by
  rw [step, ha, nextEvent]
  simp only [hp, hw, List.isEmpty_nil, if_true]

theorem step_of_off {s : State} (ha : s.agenda = []) (hp : s.secu.powered = false) : step s = .fault .packageOff := by
  rw [step, ha, nextEvent]
  simp only [hp, Bool.false_eq_true, if_false]

/-! ### A core that issues (R44, R133) -/

/-- With no result out, nothing lands. -/
theorem landDue_of_none {x : Ctx} (h : x.results = []) : landDue x = x := by
  have hx : ({ x with results := [] } : Ctx) = x := by rw [← h]
  rw [landDue, h]
  exact hx

theorem settleFences_of_none {s : State} {c : CubeId} (h : (s.cube c).core.fences = []) : settleFences s c = s := by
  rw [settleFences, h]
  rfl

theorem settleQfences_of_none {s : State} {c : CubeId} (h : (s.cube c).core.qfences = []) : settleQfences s c = s := by
  have hx : ∀ x : Ctx, x.qfences = [] → ({ x with qfences := x.qfences.filter fun f => !qfencePast s c f } : Ctx) = x := by
    intro x hx
    have hq : x.qfences.filter (fun f => !qfencePast s c f) = x.qfences := by rw [hx]; rfl
    rw [hq]
  rw [settleQfences]
  refine (modCube_congr ?_).trans (modCube_id s c)
  rw [Cube.modCore, hx _ h]

theorem running_of_issues {s : State} {c : CubeId} {b : Bundle} (h : Issues s c b) : (s.cube c).running = true := by
  obtain ⟨_, _, _, _, _, _, _, _, hcur, hstop, hdebug, _⟩ := h
  simp [Cube.running, hcur, hstop, hdebug]

theorem issueCore_of_issues {s : State} {c : CubeId} {b : Bundle} (h : Issues s c b) : issueCore s c = issueBundle s c b := by
  have hrun := running_of_issues h
  obtain ⟨_, _, _, _, hleave, hlife, htest, hdue, hcur, hstop, hdebug, hhalt, hend, hpend, hwait, hpre, hfence, hqf, hres, hlo, hhi, hfetch⟩ := h
  have hmay : mayIssue (s.cube c) = true := by
    rw [mayIssue, hrun, Cube.computes, hlife, htest]
    cases hc : (s.cube c).cur <;> simp [hend, hdue]
  have hnone : awaitsValue s (s.cube c).core = false := by rw [awaitsValue, hres]; rfl
  have hland : s.modCube c (fun k => k.modCore landDue) = s :=
    (modCube_congr (by rw [Cube.modCore, landDue_of_none hres])).trans (modCube_id s c)
  have hfree : (s.cube c).core.waiting = false := by rw [Ctx.waiting, hwait]
  have hstops : debugStops (s.cube c) = false := by rw [debugStops, hhalt]; rfl
  rw [issueCore]
  simp only [hleave, hmay, hnone, hland, hstops, hpre, hpend, hfree, settleFences_of_none hfence, settleQfences_of_none hqf,
    bne_self_eq_false, Bool.not_true, Bool.false_eq_true, if_false, List.isEmpty_nil]
  rw [fetchAndIssue]
  simp only [hfetch]
  exact if_neg (by omega)

theorem step_of_issues {s : State} {c : CubeId} {b : Bundle} (h : Issues s c b) :
    step s = .next { issueBundle s c b with turn := s.turn + 1 } := by
  have hissue := issueCore_of_issues h
  obtain ⟨ha, hp, hw, hturn, _⟩ := h
  have hlt : s.turn.val < 8 := hturn ▸ c.isLt
  have hc : (⟨s.turn.val, hlt⟩ : CubeId) = c := Fin.ext hturn
  rw [step_of_turn ha hp hw, takeTurn, dif_pos hlt, hc, hissue]

theorem me_of_issues {s : State} {c : CubeId} {b : Bundle} (h : Issues s c b) : s.me = c := by
  obtain ⟨_, _, _, hturn, _⟩ := h
  have hlt : s.turn.val < 8 := hturn ▸ c.isLt
  rw [State.me, dif_pos hlt]
  exact Fin.ext hturn

/-! ### A bundle of one instruction (log entry 4) -/

/-- The slots of a bundle with one instruction and three `nop`s. -/
def aloneSlots (b : Bundle) (i : Instr) : List Slot :=
  [⟨0, bundleWord b 0, some i⟩, ⟨1, 1, some .nop⟩, ⟨2, 1, some .nop⟩, ⟨3, 1, some .nop⟩]

theorem slotsOf_of_alone {b : Bundle} {i : Instr} (h : Alone b i) : slotsOf b = aloneSlots b i := by
  obtain ⟨hhead, hdec, hnop⟩ := h
  have hext : ∀ n, bundleExt b n = 0 := fun n => by rw [bundleExt, hhead]; rfl
  rw [slotsOf, slotNumbers, hhead]
  simp only [Bool.false_eq_true, if_false, List.map_cons, List.map_nil, hext, hdec, hnop 1 le_rfl (by decide),
    hnop 2 (by decide) (by decide), hnop 3 (by decide) le_rfl, decodeSlot_one, if_true]
  rfl

/-- The second state is the first but for where the bundle of a core stands. -/
def Placed (c : CubeId) (t u : State) : Prop :=
  ∃ n v cls chk port, u = t.modCube c fun k => { k with bundle := { k.bundle with slot := n, vstUnit := v, cls := cls, chk := chk, port := port } }

theorem placed_atSlot {c : CubeId} {t : State} (h : t.me = c) (ss : List Slot) (sl : Slot) : Placed c t (atSlot t ss sl) := by
  subst h
  exact ⟨_, _, _, _, _, rfl⟩

theorem Placed.trans {c : CubeId} {t u w : State} (h : Placed c t u) (h' : Placed c u w) : Placed c t w := by
  obtain ⟨n, v, cls, chk, port, rfl⟩ := h
  obtain ⟨n', v', cls', chk', port', rfl⟩ := h'
  exact ⟨n', v', cls', chk', port', modCube_modCube ..⟩

/-- The core goes on with the same context. -/
structure GoesOn (c : CubeId) (sid : Nat) (t : State) : Prop where
  me : t.me = c
  runs : (t.cube c).running = true
  same : (t.cube c).core.sid = sid

theorem GoesOn.placed {c : CubeId} {sid : Nat} {t u : State} (h : GoesOn c sid t) (hp : Placed c t u) : GoesOn c sid u := by
  obtain ⟨n, v, cls, chk, port, rfl⟩ := hp
  exact ⟨h.me, by rw [cube_modCube_self]; exact h.runs, by rw [cube_modCube_self]; exact h.same⟩

theorem GoesOn.cond {c : CubeId} {sid : Nat} {t : State} (h : GoesOn c sid t) :
    ((t.cube c).running && (t.cube c).core.sid == sid) = true := by
  rw [h.runs, h.same, beq_self_eq_true]
  rfl

/-- A `nop` does nothing beside. -/
theorem placed_execSlot_nop {c : CubeId} {sid : Nat} {t : State} (h : GoesOn c sid t) (ss : List Slot) {sl : Slot} (hins : sl.ins = some .nop) :
    Placed c t (execSlot ss c sid t sl) := by
  have hdrop : dropsInside (t.cube c).core ss sl = false := by
    rw [dropsInside, hins]
    simp
  rw [execSlot]
  simp only [hins, h.cond, hdrop, if_true, Bool.false_eq_true, if_false]
  exact placed_atSlot h.me ss sl

theorem placed_foldl_nops {c : CubeId} {sid : Nat} (ss : List Slot) (sls : List Slot) (hins : ∀ sl ∈ sls, sl.ins = some .nop) {t : State}
    (h : GoesOn c sid t) : sls = [] ∨ Placed c t (sls.foldl (execSlot ss c sid) t) := by
  induction sls generalizing t with
  | nil => exact .inl rfl
  | cons sl sls ih =>
    obtain ⟨hsl, hsls⟩ := List.forall_mem_cons.mp hins
    have hone := placed_execSlot_nop h ss hsl
    rw [List.foldl_cons]
    rcases ih hsls (h.placed hone) with rfl | hrest
    · exact .inr hone
    · exact .inr (hone.trans hrest)

/-- The state in which the first slot of a bundle begins. -/
noncomputable def State.begins (s : State) (c : CubeId) (ss : List Slot) : State :=
  let on := ss.filter (Slot.executes (s.cube c).core)
  let s := on.foldl (fillSlot c ss) s
  s.modCube c fun k => k.modBundle fun _ =>
    { BundleState.reset with noiseW := sharedWord k.core (on.filterMap Slot.ins), first := some s.nextId }

/-- Translations that come into a port's TLB leave the rest of a cube. -/
theorem fillSlot_eq (c : CubeId) (ss : List Slot) (s : State) (sl : Slot) :
    ∃ ts, fillSlot c ss s sl = s.modCube c fun k => { k with small := ts } := by
  have hfold : ∀ (as : List (VA × Nat)) (port : Fin 6) (asn : BitVec 12) (s : State),
      ∃ ts, as.foldl (fun s p => fillPort c port asn s p.1) s = s.modCube c fun k => { k with small := ts } := by
    intro as port asn
    induction as with
    | nil => exact fun s => ⟨(s.cube c).small, (modCube_id s c).symm⟩
    | cons a as ih =>
      intro s
      obtain ⟨ts, hts⟩ := fillPort_eq c port asn s a.1
      obtain ⟨ts', hts'⟩ := ih (s.modCube c fun k => { k with small := ts })
      exact ⟨ts', by rw [List.foldl_cons, hts, hts', modCube_modCube]⟩
  rw [fillSlot]
  split
  · exact hfold ..
  · exact ⟨(s.cube c).small, (modCube_id s c).symm⟩

theorem foldl_fillSlot_eq (c : CubeId) (ss : List Slot) (on : List Slot) (s : State) :
    ∃ ts, on.foldl (fillSlot c ss) s = s.modCube c fun k => { k with small := ts } := by
  induction on generalizing s with
  | nil => exact ⟨(s.cube c).small, (modCube_id s c).symm⟩
  | cons sl on ih =>
    obtain ⟨ts, hts⟩ := fillSlot_eq c ss s sl
    obtain ⟨ts', hts'⟩ := ih (s.modCube c fun k => { k with small := ts })
    exact ⟨ts', by rw [List.foldl_cons, hts, hts', modCube_modCube]⟩

/-- The translations and the beginning of the bundle leave its context. -/
theorem begins_eq (s : State) (c : CubeId) (ss : List Slot) :
    ∃ ts bu, s.begins c ss = s.modCube c fun k => { k with small := ts, bundle := bu } := by
  obtain ⟨ts, hts⟩ := foldl_fillSlot_eq c ss (ss.filter (Slot.executes (s.cube c).core)) s
  rw [State.begins]
  simp only [hts]
  rw [modCube_modCube]
  exact ⟨ts, _, modCube_congr rfl⟩

theorem commit_eq (s : State) (c : CubeId) (ss : List Slot) :
    commit s c ss =
      (let u := ss.foldl (execSlot ss c (s.cube c).core.sid) (s.begins c ss)
       if (u.cube c).running && (u.cube c).core.sid == (s.cube c).core.sid then endBundle u c else u) := by
  obtain ⟨ts, hts⟩ := foldl_fillSlot_eq c ss (ss.filter (Slot.executes (s.cube c).core)) s
  have hcore : ((s.modCube c fun k => { k with small := ts }).cube c).core = (s.cube c).core := by rw [cube_modCube_self]
  rw [commit, State.begins]
  simp only [hts, hcore]
  have hbegin : ((s.modCube c fun k => { k with small := ts }).modCube c fun k => k.modBundle fun _ =>
      { BundleState.reset with noiseW := sharedWord (s.cube c).core ((ss.filter (Slot.executes (s.cube c).core)).filterMap Slot.ins)
                               first := some (s.modCube c fun k => { k with small := ts }).nextId }) =
      (s.modCube c fun k => { k with small := ts }).modCube c fun k => k.modBundle fun _ =>
      { BundleState.reset with noiseW := sharedWord k.core ((ss.filter (Slot.executes (s.cube c).core)).filterMap Slot.ins)
                               first := some (s.modCube c fun k => { k with small := ts }).nextId } :=
    modCube_congr (by rw [hcore])
  rw [hbegin]

theorem opened_of_alone {s : State} {c : CubeId} {b : Bundle} {i : Instr} (h : Alone b i) :
    opened s c b = atSlot (s.begins c (aloneSlots b i)) (aloneSlots b i) ⟨0, bundleWord b 0, some i⟩ := by
  rw [opened, slotsOf_of_alone h]
  rfl

theorem goBundle_of_alone {s : State} {c : CubeId} {b : Bundle} {i : Instr} (hwait : (s.cube c).core.wait = .none) (h : ¬ isCwait i) :
    goBundle s c (aloneSlots b i) = commit s c (aloneSlots b i) := by
  have hnone : waitingSlot (s.cube c).core (aloneSlots b i) = none := by
    rw [waitingSlot, hwait]
    simp only [aloneSlots, List.find?_eq_none]
    intro sl hsl
    rw [Bool.and_eq_true]
    rintro ⟨_, hc⟩
    split at hc
    case h_1 hins =>
      simp only [List.mem_cons, List.not_mem_nil, or_false] at hsl
      rcases hsl with rfl | rfl | rfl | rfl
      · cases hins
        exact h trivial
      all_goals cases hins
    case h_2 => cases hc
  rw [goBundle, hnone]

/-- Nothing of the bundle behind the instruction drops copies of the edge cache. -/
theorem dropsInside_aloneSlots (x : Ctx) (b : Bundle) (i : Instr) :
    dropsInside x (aloneSlots b i) ⟨0, bundleWord b 0, some i⟩ = false := by
  rw [dropsInside, Bool.and_eq_false_iff]
  exact .inr rfl

/-- The slots of a bundle with one instruction. -/
theorem foldl_aloneSlots {s t : State} {c : CubeId} {b : Bundle} {i : Instr} (h : Issues s c b) (hi : Alone b i)
    (hexec : exec i (opened s c b) = .next t) (ht : GoesOn c (s.cube c).core.sid t) :
    Placed c t ((aloneSlots b i).foldl (execSlot (aloneSlots b i) c (s.cube c).core.sid) (s.begins c (aloneSlots b i))) := by
  obtain ⟨ts, bu, hbegin⟩ := begins_eq s c (aloneSlots b i)
  have hgoes : GoesOn c (s.cube c).core.sid (s.begins c (aloneSlots b i)) := by
    rw [hbegin]
    exact ⟨(me_modCube ..).trans (me_of_issues h), by rw [cube_modCube_self]; exact running_of_issues h, by rw [cube_modCube_self]⟩
  have hfirst : execSlot (aloneSlots b i) c (s.cube c).core.sid (s.begins c (aloneSlots b i)) ⟨0, bundleWord b 0, some i⟩ = t := by
    rw [execSlot]
    simp only [hgoes.cond, dropsInside_aloneSlots, if_true, Bool.false_eq_true, if_false]
    rw [← opened_of_alone hi, hexec]
    rfl
  have hnops : ∀ sl ∈ (aloneSlots b i).tail, sl.ins = some .nop := by
    intro sl hsl
    simp only [aloneSlots, List.tail_cons, List.mem_cons, List.not_mem_nil, or_false] at hsl
    rcases hsl with rfl | rfl | rfl <;> rfl
  have hrest := (placed_foldl_nops (aloneSlots b i) (aloneSlots b i).tail hnops ht).resolve_left (List.cons_ne_nil _ _)
  have hfold : ∀ (f : State → Slot → State) (x : State),
      (aloneSlots b i).foldl f x = (aloneSlots b i).tail.foldl f (f x ⟨0, bundleWord b 0, some i⟩) := fun f x => rfl
  rw [hfold, hfirst]
  exact hrest

/-- Settles O9: an event is taken from the agenda, or the bundle issues; of one with a single instruction the `nop`s only move on. -/
theorem stepRunsBundle : Obligations.StepRunsBundle := by
  unfold Obligations.StepRunsBundle
  intro s
  refine ⟨fun i rest ha hfirst => ⟨fun hslot hwake => ?_, fun hpass => ?_⟩, fun i rest j ha hi hj => ?_, step_of_off,
    fun c b h => ⟨step_of_issues h, fun i hi _ hwait hgo t hexec hcur hstop hdebug hsid hturn => ?_⟩⟩
  · have hon : (s.secu.powered || wakes i) = true := by
      rw [Bool.or_eq_true, wakes_iff]
      exact hwake
    rw [step_of_next (ha ▸ nextEvent_of_first hfirst), hslot, hon]
    rfl
  · have hskip : (i.isSlot || !(s.secu.powered || wakes i)) = true := by
      rcases hpass with hslot | ⟨hoff, hno⟩
      · rw [hslot]
        rfl
      · have hw : wakes i = false := Bool.eq_false_iff.mpr fun hw => by
          obtain ⟨f, hf⟩ := (wakes_iff i).mp hw
          exact hno f hf
        rw [hoff, hw]
        exact Bool.or_true _
    rw [step_of_next (ha ▸ nextEvent_of_first hfirst), if_pos hskip]
  · have hnext : nextEvent s.agenda = some (j, i :: rest.erase j) := by
      rw [ha, nextEvent, if_pos hi, hj]
    obtain ⟨hslot, hwakes⟩ := packet_event (j := j) (b := false) (by simpa using List.find?_some hj)
    rw [step_of_next hnext, hslot, hwakes, Bool.false_or, Bool.or_false]
    cases s.secu.powered <;> rfl
  · have hme : t.me = c := (congrArg (fun n : Fin 9 => if h : n.val < 8 then (⟨n.val, h⟩ : CubeId) else 0) hturn).trans (me_of_issues h)
    have hrun := running_of_issues h
    have ht : GoesOn c (s.cube c).core.sid t := by
      refine ⟨hme, ?_, hsid⟩
      rw [Cube.running, Bool.and_eq_true, Bool.and_eq_true] at hrun
      rw [Cube.running, hcur, hstop, hdebug, hrun.1.1]
      rfl
    have hplaced := foldl_aloneSlots h hi hexec ht
    have hwaits : (s.cube c).core.wait = .none := by
      obtain ⟨_, _, _, _, _, _, _, _, _, _, _, _, _, _, hw, _⟩ := h
      exact hw
    have hend := (ht.placed hplaced).cond
    obtain ⟨n, v, cls, chk, port, hfold⟩ := hplaced
    refine ⟨n, v, cls, chk, port, ?_⟩
    rw [slotsOf_of_alone hi] at hgo
    rw [step_of_issues h, issueBundle, slotsOf_of_alone hi]
    simp only [hgo]
    rw [goBundle_of_alone hwaits hwait, commit_eq]
    simp only [hend, if_true]
    rw [hfold]

end Sys2Proof.Machine

/-! PROOFS. An entry that is reserved under a number beyond the 32 bits of its index (R23, R286). -/
namespace Sys2Proof.Machine
open Sys2Proof.Say

/-- A copy of the runtime strand of cube 0 whose last entry is to land, in spool 0; its number is 2^32. -/
def landingCopy : Cmd :=
  { id := 4, sid := 0, queue := .cq0, kind := .copy .lin, tag := 0, mode := .runtime, asn := 0, part := .whole, grp := [], ctr := 0
    amt := 1, pals := .reset, recipe := 0, planes := 0, after := [], joins := [], items := [], status := .finished, err := none
    res := [(0, 2 ^ 32, 1)], took := [], ents := [], out := [], wrote := [], acqs := [], homes := [], seq := 0, dead := false, seed := 0
    lost := none, addDead := false }
/-- A spool that expects that entry at its front. -/
def farSpool : Spool := { Spool.reset with queueP := [(2 ^ 32, false)] }
/-- That strand runs on cube 0, and its spool 0 expects the entry at the front. -/
def farEntry : State :=
  State.reset.modCube 0 fun k => { k with
    cmds := [landingCopy]
    cur := .runtime
    core := { k.core with sid := 0 }.modSpool 0 fun _ => farSpool }

theorem cube_farEntry : farEntry.cube 0 = { State.reset.cube 0 with
    cmds := [landingCopy]
    cur := .runtime
    core := { (State.reset.cube 0).core with sid := 0 }.modSpool 0 fun _ => farSpool } :=
  cube_modCube_self _ _ _

theorem get_modSpool (x : Ctx) (n : Fin 32) (f : Spool → Spool) : (x.modSpool n.val f).spools.get n = f (x.spools.get n) := by
  rw [modSpool_ctx, withSpool, Vector.get_eq_getElem, Vector.getElem_set_self]

theorem core_settleCmd (s : State) (c : CubeId) (id : Nat) (d : CubeId) : ((settleCmd s c id).cube d).core = (s.cube d).core := by
  unfold settleCmd
  split
  · split
    · rw [dropCmd, cube_modCube]
      split <;> rfl
    · rfl
  · rfl

/-- What a landing entry leaves of the spools of a strand that runs. -/
theorem core_entryLanded {s : State} {c d : CubeId} {m : Cmd} {n first k : Nat} {rest : List (Nat × Nat × Nat)}
    (hcmd : (s.cube c).cmd m.id = some m) (hstatus : m.status = .finished) (hres : m.res = (n, first, k) :: rest)
    (hcur : (s.cube d).cur ≠ .none) (hsid : (s.cube d).core.sid = m.sid) :
    ((entryLanded s c m.id).cube d).core = (s.cube d).core.modSpool n fun sp => (settleSpool s sp).land first 1 := by
  obtain ⟨hcore, hrun⟩ := settleWindow_core s m.sid n d
  have hspool : ((modSpool s m.sid n fun sp => sp.land first 1).cube d).core =
      (s.cube d).core.modSpool n fun sp => (settleSpool s sp).land first 1 := by
    rw [modSpool, cube_modSid, modSid_of_running _ (by rwa [hrun]) (by rwa [hcore]), hcore]
  rw [entryLanded, hcmd]
  simp only [hstatus, bne_self_eq_false, Bool.false_eq_true, if_false, hres, core_settleCmd]
  rw [cube_modCube]
  split
  · exact hspool
  · exact hspool

/-- An entry numbered beyond 32 bits is passed over by the landing of its number modulo 2^32. -/
theorem land_far (sp : Spool) (hheld : sp.held = []) (hqueue : sp.queueP = [(2 ^ 32, false)]) (s : State) :
    ((settleSpool s sp).land (2 ^ 32) 1).queueP = [(2 ^ 32, false)] := by
  have hsettle : settleSpool s sp = sp := by rw [settleSpool, hheld]; rfl
  rw [hsettle, Spool.land, hqueue]
  rfl

/-- Refutes O49: entries are numbered modulo 2^32 where they land (R23), so an entry that stands under the number 2^32 is not the one
that lands, and stays in its spool's queue; the statement has it taken out for every number. -/
theorem not_copyCommands : ¬ Obligations.CopyCommands := by
  intro h
  unfold Obligations.CopyCommands CopyEvents at h
  obtain ⟨hcopies, _⟩ := h
  obtain ⟨_, _, hlanded⟩ := hcopies farEntry 0 landingCopy .lin rfl
  have hcmd : (farEntry.cube 0).cmd landingCopy.id = some landingCopy := by rw [cube_farEntry]; rfl
  have hcur : (farEntry.cube 0).cur ≠ .none := by rw [cube_farEntry]; exact nofun
  have hsid : (farEntry.cube 0).core.sid = landingCopy.sid := by rw [cube_farEntry]; rfl
  have hcore : (farEntry.cube 0).core = { (State.reset.cube 0).core with sid := 0 }.modSpool 0 fun _ => farSpool := by
    rw [cube_farEntry]
  obtain ⟨u, hexec, _, _, hspool⟩ := hlanded 0 (2 ^ 32) 1 [] hcmd rfl rfl (by decide)
  have hu : entryLanded farEntry 0 4 = u := Host.Outcome.next.inj ((exec_spoolEntryLanded 0 4 farEntry).symm.trans hexec)
  have hfar : (farEntry.cube 0).core.spools.get 0 = farSpool := by rw [hcore]; exact get_modSpool _ 0 _
  have hland := hspool 0 (by decide) farSpool hcur hsid hfar rfl [] rfl nofun
  have hget : (u.cube 0).core.spools.get 0 = (settleSpool farEntry farSpool).land (2 ^ 32) 1 := by
    rw [← hu, show (4 : Nat) = landingCopy.id from rfl, core_entryLanded hcmd rfl rfl hcur hsid]
    exact (get_modSpool _ 0 _).trans (by rw [hfar])
  have hqueue := congrArg Spool.queueP (hget.symm.trans hland)
  rw [land_far farSpool rfl rfl] at hqueue
  cases hqueue
end Sys2Proof.Machine

namespace Sys2Proof.Machine
open Sys2Proof.Say
/-! PROOFS. What the events of commands change (R104, R271, R272): the rules that every engine shares. -/

/-! ### Events that ask for no walk (R104) -/

/-- An event that meets no address to be walked first does what its command does; the walks it waited for are all that goes beside. -/
theorem engEvent_of_noWalk {s : State} {c : CubeId} {m : Cmd} {id : Nat} {f : State → State} (hcmd : (s.cube c).cmd id = some m)
    (hqueue : queueWalks s c m = false) (hmiss : (f s).misses = s.misses) :
    ∃ ms, engEvent c id f s = { f s with misses := ms } := by
  have hheld : heldUp s (f s) = false := by
    rw [heldUp, hmiss]
    cases s.misses.contains holdMark <;> rfl
  have hevent : engEvent c id f s = afterWalks s (f s) (.cube c) id ((((f s).cube c).cmd id).map Cmd.status != some m.status) := by
    unfold engEvent
    rw [hcmd]
    simp [hqueue, hheld]
  rw [hevent, afterWalks, if_neg (not_not.mpr hmiss)]
  split
  · exact ⟨_, rfl⟩
  · exact ⟨(f s).misses, rfl⟩

/-! ### Spools (R23, R286) -/

/-- u is s after changes of spools: beside the contexts of strands, and the window writes that are taken in with them, nothing
differs. -/
def Turned (s u : State) : Prop :=
  ∃ cs, u = { s with cubes := cs } ∧
    ∀ c, ∃ x sh rt se pa, cs.get c = { s.cube c with core := x, shelves := sh, rt := rt, sec := se, patches := pa }

theorem Turned.refl (s : State) : Turned s s := ⟨s.cubes, rfl, fun c => ⟨_, _, _, _, _, rfl⟩⟩
theorem Turned.trans {s t u : State} (h : Turned s t) (h' : Turned t u) : Turned s u := by
  obtain ⟨cs, rfl, hcs⟩ := h
  obtain ⟨cs', rfl, hcs'⟩ := h'
  refine ⟨cs', rfl, fun c => ?_⟩
  obtain ⟨_, _, _, _, _, hc⟩ := hcs c
  obtain ⟨x, sh, rt, se, pa, hc'⟩ := hcs' c
  exact ⟨x, sh, rt, se, pa, hc'.trans (congrArg (fun k : Cube => { k with core := x, shelves := sh, rt := rt, sec := se, patches := pa }) hc)⟩
theorem Turned.cube {s u : State} (h : Turned s u) (c : CubeId) :
    ∃ x sh rt se pa, u.cube c = { s.cube c with core := x, shelves := sh, rt := rt, sec := se, patches := pa } := by
  obtain ⟨cs, rfl, hcs⟩ := h
  exact hcs c
theorem Turned.cmds {s u : State} (h : Turned s u) (c : CubeId) : (u.cube c).cmds = (s.cube c).cmds := by
  obtain ⟨_, _, _, _, _, hc⟩ := h.cube c
  rw [hc]
theorem Turned.eng {s u : State} (h : Turned s u) (c : CubeId) : (u.cube c).eng = (s.cube c).eng := by
  obtain ⟨_, _, _, _, _, hc⟩ := h.cube c
  rw [hc]

theorem turned_settleWindow (s : State) (sid n : Nat) : Turned s (settleWindow s sid n) := by
  refine ⟨_, rfl, fun c => ?_⟩
  simp only [Vector.get_eq_getElem, Vector.getElem_map]
  split
  · exact ⟨_, _, _, _, _, rfl⟩
  · split <;> exact ⟨_, _, _, _, _, rfl⟩
theorem turned_modSid (s : State) (sid : Nat) (f : Ctx → Ctx) : Turned s (s.modSid sid f) := by
  refine ⟨_, rfl, fun c => ?_⟩
  simp only [Vector.get_eq_getElem, Vector.getElem_map, Cube.modSid]
  split <;> exact ⟨_, _, _, _, _, rfl⟩
theorem turned_modSpool (s : State) (sid n : Nat) (f : Spool → Spool) : Turned s (modSpool s sid n f) :=
  (turned_settleWindow s sid n).trans (turned_modSid _ _ _)
theorem turned_foldl {α : Type} (f : State → α → State) (h : ∀ s a, Turned s (f s a)) (as : List α) (s : State) :
    Turned s (as.foldl f s) := by
  induction as generalizing s with
  | nil => exact .refl s
  | cons a as ih => exact (h s a).trans (ih (f s a))

/-! ### Commands that start and end -/

/-- u is s after work on commands: beside spools and the entries of command queues, nothing differs. -/
def Worked (s u : State) : Prop :=
  ∃ cs, u = { s with cubes := cs } ∧
    ∀ c, ∃ x sh rt se pa ms, cs.get c = { s.cube c with core := x, shelves := sh, rt := rt, sec := se, patches := pa, cmds := ms }

theorem Turned.worked {s u : State} (h : Turned s u) : Worked s u := by
  obtain ⟨cs, rfl, hcs⟩ := h
  refine ⟨cs, rfl, fun c => ?_⟩
  obtain ⟨x, sh, rt, se, pa, hc⟩ := hcs c
  exact ⟨x, sh, rt, se, pa, _, hc⟩
theorem Worked.refl (s : State) : Worked s s := (Turned.refl s).worked
theorem Worked.trans {s t u : State} (h : Worked s t) (h' : Worked t u) : Worked s u := by
  obtain ⟨cs, rfl, hcs⟩ := h
  obtain ⟨cs', rfl, hcs'⟩ := h'
  refine ⟨cs', rfl, fun c => ?_⟩
  obtain ⟨_, _, _, _, _, _, hc⟩ := hcs c
  obtain ⟨x, sh, rt, se, pa, ms, hc'⟩ := hcs' c
  exact ⟨x, sh, rt, se, pa, ms,
    hc'.trans (congrArg (fun k : Cube => { k with core := x, shelves := sh, rt := rt, sec := se, patches := pa, cmds := ms }) hc)⟩
theorem worked_cmds (s : State) (c : CubeId) (f : Cube → List Cmd) : Worked s (s.modCube c fun k => { k with cmds := f k }) := by
  refine ⟨_, rfl, fun d => ?_⟩
  have hcube := cube_modCube s c d fun k => { k with cmds := f k }
  split at hcube
  · exact ⟨_, _, _, _, _, _, hcube⟩
  · exact ⟨_, _, _, _, _, _, hcube⟩
theorem worked_modCmd (s : State) (c : CubeId) (id : Nat) (f : Cmd → Cmd) : Worked s (s.modCube c fun k => k.modCmd id f) :=
  worked_cmds s c fun k => (k.modCmd id f).cmds

section
variable {s u : State} (h : Worked s u)
include h

theorem Worked.mem : u.mem = s.mem := by
  obtain ⟨cs, rfl, -⟩ := h
  rfl
theorem Worked.items : u.items = s.items := by
  obtain ⟨cs, rfl, -⟩ := h
  rfl
theorem Worked.misses : u.misses = s.misses := by
  obtain ⟨cs, rfl, -⟩ := h
  rfl
theorem Worked.winq : u.winq = s.winq := by
  obtain ⟨cs, rfl, -⟩ := h
  rfl
theorem Worked.cube (c : CubeId) :
    ∃ x sh rt se pa ms, u.cube c = { s.cube c with core := x, shelves := sh, rt := rt, sec := se, patches := pa, cmds := ms } := by
  obtain ⟨cs, rfl, hcs⟩ := h
  exact hcs c
theorem Worked.eng (c : CubeId) : (u.cube c).eng = (s.cube c).eng := by
  obtain ⟨_, _, _, _, _, _, hc⟩ := h.cube c
  rw [hc]
theorem Worked.recs (c : CubeId) : (u.cube c).recs = (s.cube c).recs := by
  obtain ⟨_, _, _, _, _, _, hc⟩ := h.cube c
  rw [hc]
theorem Worked.awaitsWindow (id : Nat) : Machine.awaitsWindow u id = Machine.awaitsWindow s id := by
  unfold Machine.awaitsWindow
  rw [h.winq]
end

theorem cmd_congr {k k' : Cube} (h : k'.cmds = k.cmds) (id : Nat) : k'.cmd id = k.cmd id := by
  rw [Cube.cmd, h, Cube.cmd]

/-- A command that starts, in its queue (R272, R277). -/
theorem startCmd_of_cmd {s : State} {c : CubeId} {m q : Cmd} (hcmd : (s.cube c).cmd m.id = some q) (res took : List (Nat × Nat × Nat)) :
    Worked s (startCmd s c m res took) ∧ ((startCmd s c m res took).cube c).cmd m.id = some { q with
      status := .started, res := res, took := took, seed := (s.cube c).eng.cpySeed } := by
  unfold startCmd
  have hturned : Turned s (took.foldl (fun s r => modSpool s m.sid r.1 fun sp => sp.take r.2.2)
      (res.foldl (fun s r => modSpool s m.sid r.1 fun sp => sp.reserve r.2.2) s)) :=
    (turned_foldl _ (fun s r => turned_modSpool s _ _ _) res s).trans (turned_foldl _ (fun s r => turned_modSpool s _ _ _) took _)
  simp only []
  generalize took.foldl _ _ = t at hturned ⊢
  refine ⟨hturned.worked.trans (worked_cmds t c _), ?_⟩
  rw [cube_modCube_self, hturned.eng c]
  exact cmd_modCmd ((cmd_congr (hturned.cmds c) m.id).trans hcmd) fun _ => rfl

/-- A command that is done and waits for nothing leaves its queue. -/
theorem settleCmd_of_finished {s : State} {c : CubeId} {id : Nat} {q : Cmd} (hcmd : (s.cube c).cmd id = some q)
    (hstatus : q.status = .finished) (hwin : awaitsWindow s id = false) :
    Worked s (settleCmd s c id) ∧ ((settleCmd s c id).cube c).cmd id = if q.res = [] ∧ q.amt = 0 then none else some q := by
  have hid : (q.res.isEmpty && !wantsAdd q) = decide (q.res = [] ∧ q.amt = 0) := by
    rw [wantsAdd, Bool.decide_and]
    cases q.res
    · simp [bne, beq_eq_decide]
    · simp
  unfold settleCmd
  rw [hcmd]
  simp only [hstatus, hwin, beq_self_eq_true, Bool.true_and, Bool.not_false, Bool.and_true, hid, decide_eq_true_eq]
  split
  · refine ⟨worked_cmds s c _, ?_⟩
    rw [dropCmd, cube_modCube_self, Cube.cmd, List.find?_eq_none]
    intro x hx
    simpa using (List.mem_filter.mp hx).2
  · exact ⟨.refl s, hcmd⟩

/-- A command as it stands when its work is done without an error. -/
def Cmd.doneWith (wrote homes : List Nat) (dead : Bool) (q : Cmd) : Cmd :=
  { q with status := .finished, err := none, wrote := wrote, took := [], homes := homes, lost := none, addDead := dead }

theorem settleCmd_doneWith {t : State} {c : CubeId} {id : Nat} {q : Cmd} (hcmd : (t.cube c).cmd id = some q)
    (hwin : awaitsWindow t id = false) (wrote homes : List Nat) (dead : Bool) :
    Worked t (settleCmd (t.modCube c fun k => k.modCmd id (Cmd.doneWith wrote homes dead)) c id) ∧
      ((settleCmd (t.modCube c fun k => k.modCmd id (Cmd.doneWith wrote homes dead)) c id).cube c).cmd id =
        if q.res = [] ∧ q.amt = 0 then none else some (q.doneWith wrote homes dead) := by
  have hworked := worked_modCmd t c id (Cmd.doneWith wrote homes dead)
  have hsettled := settleCmd_of_finished (s := t.modCube c fun k => k.modCmd id (Cmd.doneWith wrote homes dead)) (c := c) (id := id)
    (by rw [cube_modCube_self]; exact cmd_modCmd hcmd fun _ => rfl) rfl ((hworked.awaitsWindow id).trans hwin)
  exact ⟨hworked.trans hsettled.1, hsettled.2⟩

/-- A command whose work is done without an error (R271). -/
theorem finishCmd_of_done {s : State} {c : CubeId} {m q : Cmd} (hcmd : (s.cube c).cmd m.id = some q)
    (hwin : awaitsWindow s m.id = false) (plane : Nat) (wrote : List Nat) :
    Worked s (finishCmd s c m plane none wrote) ∧ Ended (finishCmd s c m plane none wrote) c q wrote := by
  have hid : q.id = m.id := by simpa using List.find?_some (p := fun q : Cmd => q.id == m.id) hcmd
  have hturned : Turned s (m.took.foldl (fun s r => modSpool s m.sid r.1 fun sp => sp.release r.2.1 r.2.2) s) :=
    turned_foldl _ (fun s r => turned_modSpool s _ _ _) _ s
  unfold finishCmd
  simp only []
  generalize m.took.foldl _ _ = t at hturned ⊢
  obtain ⟨hworked, hfound⟩ := settleCmd_doneWith ((cmd_congr (hturned.cmds c) m.id).trans hcmd)
    ((hturned.worked.awaitsWindow m.id).trans hwin) wrote (if wantsAdd m then spanHomes t (cmdAgent t c m) (m.ctr.setWidth 52) 1 else [])
    (addPeerFails t c m)
  exact ⟨hturned.worked.trans hworked, _, _, (congrArg _ hid).trans hfound⟩
end Sys2Proof.Machine

namespace Sys2Proof.Machine
open Sys2Proof.Say
/-! PROOFS. The bytes of a command at their homes (R271), and the drains: O51. -/

/-! ### Bytes that stand at their homes -/

section
variable {s u : State} {cells : List (Nat × Byte)} (h : PutHome s u cells)
include h

theorem PutHome.misses : u.misses = s.misses := by
  obtain ⟨cs, ow, po, no, ms, rfl, _⟩ := h
  rfl
theorem PutHome.winq : u.winq = s.winq := by
  obtain ⟨cs, ow, po, no, ms, rfl, _⟩ := h
  rfl
theorem PutHome.awaitsWindow (id : Nat) : Machine.awaitsWindow u id = Machine.awaitsWindow s id := by
  unfold Machine.awaitsWindow
  rw [h.winq]
theorem PutHome.cmds (c : CubeId) : (u.cube c).cmds = (s.cube c).cmds := by
  obtain ⟨r, e, hc⟩ := h.cube c
  rw [hc]
theorem PutHome.eng (c : CubeId) : (u.cube c).eng = (s.cube c).eng := by
  obtain ⟨r, e, hc⟩ := h.cube c
  rw [hc]
theorem PutHome.plain {locs : List Nat} (hplain : Plain s locs) : Plain u locs := by
  refine plain_congr (fun c => ?_) ?_ hplain
  · obtain ⟨r, e, hc⟩ := h.cube c
    rw [hc]
  · obtain ⟨cs, ow, po, no, ms, rfl, _⟩ := h
    rfl
end

theorem memWrite_append (m : List Host.Cell) (a b : List (Nat × Byte)) : memWrite m (a ++ b) = memWrite (memWrite m a) b :=
  List.foldl_append

theorem PutHome.trans {s t u : State} {a b : List (Nat × Byte)} (h : PutHome s t a) (h' : PutHome t u b) : PutHome s u (a ++ b) := by
  have hcube := h.cube
  obtain ⟨cs, ow, po, no, ms, rfl, -⟩ := h
  obtain ⟨cs', ow', po', no', ms', rfl, hcs'⟩ := h'
  refine ⟨cs', ow', po', no', ms', by rw [memWrite_append], fun c => ?_⟩
  obtain ⟨r, e, hc⟩ := hcube c
  obtain ⟨r', e', hc'⟩ := hcs' c
  exact ⟨r', e', hc'.trans (by rw [hc])⟩

/-- Edge caches that learn of bytes before these stand at their homes. -/
theorem putHome_heard {s : State} {cells : List (Nat × Byte)} (h : Plain s (cells.map Prod.fst)) (glob : Bool) (id : Nat) (m : Mode)
    (who : Writer) (tag : BitVec 12) : PutHome s (homeWrite (engCoherence s glob id cells) m who tag cells) cells := by
  obtain ⟨cs, ms, heq, hcs⟩ := engCoherence_eq s glob id cells
  have hheard : PutHome s (engCoherence s glob id cells) [] := by
    rw [heq]
    exact ((PutHome.refl s).withEdges hcs).withMsgs ms
  exact hheard.trans (putHome_homeWrite (hheard.plain h) m who tag)

theorem flatten_runsBy {α : Type} (f : α → Nat) (l : List α) : (runsBy f l).flatten = l := by
  induction l with
  | nil => rfl
  | cons a t ih =>
    rw [runsBy]
    split
    · next hnil => rw [← ih, hnil]; rfl
    · next g gs hcons =>
      rw [hcons, List.flatten_cons] at ih
      split
      · rw [List.flatten_cons, List.singleton_append, ← ih, List.nil_append]
      · split <;> simp [← ih]

theorem putHome_engWrite {s : State} {m : Cmd} {os : List OutByte} (h : Plain s (os.map Prod.fst)) (glob : Bool) :
    PutHome s (engWrite s m glob os) (cellsOf os) := by
  rw [engWrite]
  rw [← flatten_runsBy (fun o => o.1 / 64) os] at h
  conv => rhs; rw [← flatten_runsBy (fun o => o.1 / 64) os]
  generalize runsBy (fun o : OutByte => o.1 / 64) os = gs at h ⊢
  induction gs generalizing s with
  | nil => exact .refl s
  | cons g gs ih =>
    rw [List.flatten_cons, List.map_append] at h
    rw [List.foldl_cons, List.flatten_cons, cellsOf, List.map_append]
    have hg : Plain s ((g.map fun o => (o.1, o.2.2)).map Prod.fst) := by
      rw [List.map_map]
      exact ⟨fun a ha => h.1 a (List.mem_append_left _ ha), h.2⟩
    have hput := putHome_heard hg glob m.id (cmdMode s m)
      (.command m.id (BitVec.ofNat 52 (0xE_0000_0000_0000 + ((g.map fun o => (o.1, o.2.2)).headD (0, 0)).1)))
      (match g with | [] => 0xFFF | o :: _ => o.2.1)
    exact hput.trans (ih (hput.plain ⟨fun a ha => h.1 a (List.mem_append_right _ ha), h.2⟩))

/-! ### Events of commands that stand in their queues -/

section
variable {s : State} {c : CubeId} {m : Cmd} (h : Stands s c m)
include h

theorem next_of_event {i : Instr} {f : State → State} (hexec : exec i s = .next (engEvent c m.id f s)) (hmiss : (f s).misses = s.misses) :
    ∃ ms, exec i s = .next { f s with misses := ms } := by
  obtain ⟨hcmd, hqueue, -⟩ := h
  obtain ⟨ms, heq⟩ := engEvent_of_noWalk hcmd hqueue hmiss
  exact ⟨ms, by rw [hexec, heq]⟩

/-- A command that has put its bytes at their homes is done. -/
theorem finishCmd_of_put {t : State} {cells : List (Nat × Byte)} (hput : PutHome s t cells) (plane : Nat) (wrote : List Nat) :
    Stored s (finishCmd t c m plane none wrote) cells ∧ Ended (finishCmd t c m plane none wrote) c m wrote ∧
      (finishCmd t c m plane none wrote).misses = s.misses := by
  obtain ⟨hcmd, -, hwin⟩ := h
  obtain ⟨hworked, hended⟩ := finishCmd_of_done ((cmd_congr (hput.cmds c) m.id).trans hcmd) ((hput.awaitsWindow m.id).trans hwin) plane wrote
  exact ⟨stored_of_mem (hworked.mem.trans hput.mem), hended, hworked.misses.trans hput.misses⟩

theorem startCmd_of_stands (res took : List (Nat × Nat × Nat)) :
    Worked s (startCmd s c m res took) ∧ ((startCmd s c m res took).cube c).cmd m.id = some { m with
      status := .started, res := res, took := took, seed := (s.cube c).eng.cpySeed } :=
  startCmd_of_cmd h.1 res took
end

theorem none_earlier {k : Cube} {m : Cmd} {st : CmdStatus} (h : ∀ q ∈ earlierOf k m, q.status ≠ st) :
    ((earlierOf k m).any fun q => q.status == st) = false :=
  List.any_eq_false.mpr fun q hq => by simpa using h q hq
end Sys2Proof.Machine

namespace Sys2Proof.Machine
open Sys2Proof.Say
/-! PROOFS. Drains start and are performed (R314, R317, R327 to R330): O51. -/

/-- The record of a drain's tile, where the comparison is on (R296, R327). -/
def drainRecord (s : State) (c : CubeId) (m : Cmd) : Option ChkRec :=
  (s.cube c).recs.find? fun r => r.tile == recNumber m.part (drainTile m) && r.i32 == drainI32 m && (s.cube c).eng.abft

theorem drainRecord_of_absent {s : State} {c : CubeId} {m : Cmd} (h : ∀ r ∈ (s.cube c).recs, r.tile ≠ recNumber m.part (drainTile m)) :
    drainRecord s c m = none :=
  List.find?_eq_none.mpr fun r hr => by simp [h r hr]
theorem drainRecord_of_only {s : State} {c : CubeId} {m : Cmd} {r : ChkRec} (hrecs : (s.cube c).recs = [r])
    (htile : r.tile = recNumber m.part (drainTile m)) (hi32 : r.i32 = drainI32 m) (habft : (s.cube c).eng.abft = true) :
    drainRecord s c m = some r := by
  simp [drainRecord, hrecs, htile, hi32, habft]

section
variable {s : State} {c : CubeId} {m : Cmd} {p : Bool} {l : Layout} (hkind : m.kind = .drain p) (hwait : Waiting s c m)
  (hstores : storesDone s m = true) (hfirst : ∀ q ∈ earlierOf (s.cube c) m, q.status ≠ .queued) (hroom : drainRoom s m = true)
  (htest : testHolds (s.cube c) = false) (hlay : drainLayout s c m none = .ok l) (hquiet : Quiet s) (hpoison : s.poison = [])
include hkind hwait hstores hfirst hroom htest hlay hquiet hpoison

theorem drainStart_of_noRecord (h : drainRecord s c m = none) :
    drainStart s c m.id = drainGo (countSkip s c) c m l (tileWordAt s (tileKey c m.part (drainTile m))) := by
  obtain ⟨⟨hcmd, -, -⟩, hstatus, hunfenced⟩ := hwait
  have hfire : fireKeys s (drainReads s c m l) = s := by
    rw [fireKeys, fireReads_quiet s hquiet, ite_self]
  have hclean : poisoned s (drainReads s c m l) = none := by simp [poisoned, hpoison]
  have hrec : _ = none := h
  rw [drainRecord] at hrec
  simp [drainStart, hcmd, hkind, hstatus, hunfenced, hstores, none_earlier hfirst, hroom, htest, hlay, hfire, hclean, hrec]

theorem drainStart_of_clean {r : ChkRec} (h : drainRecord s c m = some r)
    (hclean : compareTile r (s.cube c).eng.drnTol.toNat (tileWordAt s (tileKey c m.part (drainTile m))) = .clean) :
    drainStart s c m.id = drainGo s c m l (tileWordAt s (tileKey c m.part (drainTile m))) := by
  obtain ⟨⟨hcmd, -, -⟩, hstatus, hunfenced⟩ := hwait
  have hfire : fireKeys s (drainReads s c m l) = s := by
    rw [fireKeys, fireReads_quiet s hquiet, ite_self]
  have hnone : poisoned s (drainReads s c m l) = none := by simp [poisoned, hpoison]
  have hrec : _ = some r := h
  rw [drainRecord] at hrec
  simp [drainStart, hcmd, hkind, hstatus, hunfenced, hstores, none_earlier hfirst, hroom, htest, hlay, hfire, hnone, hrec, hclean]
end

/-- A drain that starts holds the bytes that it will write (R329). -/
theorem drainGo_of_cmd {s : State} {c : CubeId} {m : Cmd} (hcmd : (s.cube c).cmd m.id = some m) (l : Layout) (t : Tile) :
    Worked s (drainGo s c m l t) ∧ ((drainGo s c m l t).cube c).cmd m.id = some { m with
      status := .started, res := drainEntry s m, took := [], out := drainCells s c m l (drainIn s c m l t)
      seed := (s.cube c).eng.cpySeed } := by
  obtain ⟨hworked, hstarted⟩ := startCmd_of_cmd hcmd (drainEntry s m) []
  refine ⟨hworked.trans (worked_modCmd _ c m.id _), ?_⟩
  rw [drainGo, cube_modCube_self]
  exact cmd_modCmd hstarted fun _ => rfl

theorem misses_countSkip (s : State) (c : CubeId) : (countSkip s c).misses = s.misses := rfl

theorem drainComplete_of_turn {s : State} {c : CubeId} {m : Cmd} {p : Bool} (hkind : m.kind = .drain p) (hcmd : (s.cube c).cmd m.id = some m)
    (hstatus : m.status = .started) (hfirst : ∀ q ∈ earlierOf (s.cube c) m, q.status ≠ .started) :
    drainComplete s c m.id = finishCmd (engWrite s m false (m.out.map fun o => (o.1, 0xFFF, o.2))) c m 0 none [8 + c.val] := by
  simp [drainComplete, hcmd, hkind, hstatus, none_earlier hfirst]

/-- Settles O51: a drain that starts reserves its entry and notes what it will write, its record compared or skipped; one that is
performed puts those bytes at their homes. -/
theorem drainEvents : Obligations.DrainEvents := by
  unfold Obligations.DrainEvents
  intro s c m p hkind
  refine ⟨fun l hwait hstores hfirst hroom htest hlay hquiet hpoison => ⟨fun habsent => ?_, fun r hrecs htile hi32 habft hclean => ?_⟩,
    fun hstands hstatus hfirst hplain => ?_⟩
  · have hstart := drainStart_of_noRecord hkind hwait hstores hfirst hroom htest hlay hquiet hpoison (drainRecord_of_absent habsent)
    have hskipped : ((countSkip s c).cube c) = { s.cube c with eng := { (s.cube c).eng with drnSkip := satAdd32 (s.cube c).eng.drnSkip } } :=
      cube_modCube_self s c _
    obtain ⟨hworked, hcmd⟩ := drainGo_of_cmd (s := countSkip s c) (m := m) (c := c) (by rw [hskipped]; exact hwait.1.1) l
      (tileWordAt s (tileKey c m.part (drainTile m)))
    obtain ⟨ms, hnext⟩ := next_of_event hwait.1 (i := .drainStart c m.id) (f := fun s => drainStart s c m.id) rfl
      (by simp only [hstart]; exact hworked.misses)
    rw [hstart] at hnext
    rw [hskipped] at hcmd
    generalize drainGo (countSkip s c) c m l _ = u at hworked hcmd hnext
    refine ⟨_, ⟨hnext, hworked.mem, hcmd⟩, ?_⟩
    exact congrArg EngRegs.drnSkip ((hworked.eng c).trans (congrArg Cube.eng hskipped))
  · have hstart := drainStart_of_clean hkind hwait hstores hfirst hroom htest hlay hquiet hpoison
      (drainRecord_of_only hrecs htile hi32 habft) hclean
    obtain ⟨hworked, hcmd⟩ := drainGo_of_cmd hwait.1.1 l (tileWordAt s (tileKey c m.part (drainTile m)))
    obtain ⟨ms, hnext⟩ := next_of_event hwait.1 (i := .drainStart c m.id) (f := fun s => drainStart s c m.id) rfl
      (by simp only [hstart]; exact hworked.misses)
    rw [hstart] at hnext
    generalize drainGo s c m l _ = u at hworked hcmd hnext
    exact ⟨_, ⟨hnext, hworked.mem, hcmd⟩, hworked.eng c⟩
  · have hdone := drainComplete_of_turn hkind hstands.1 hstatus hfirst
    have hput := putHome_engWrite (m := m) (os := m.out.map fun o => (o.1, 0xFFF, o.2))
      (by rw [List.map_map]; exact hplain) false
    have hcells : cellsOf (m.out.map fun o => (o.1, (0xFFF : BitVec 12), o.2)) = m.out := by
      rw [cellsOf, List.map_map]
      exact List.map_id m.out
    rw [hcells] at hput
    obtain ⟨hstored, hended, hmiss⟩ := finishCmd_of_put hstands hput 0 [8 + c.val]
    obtain ⟨ms, hnext⟩ := next_of_event hstands (i := .drainComplete c m.id) (f := fun s => drainComplete s c m.id) rfl
      (by simp only [hdone]; exact hmiss)
    rw [hdone] at hnext
    exact ⟨_, hnext, hstored, hended⟩
end Sys2Proof.Machine

namespace Sys2Proof.Machine
open Sys2Proof.Say
/-! PROOFS. The block store's table (R339, R342). -/

/-! ### Parts of a block of bytes -/

theorem memRead_memWrite_within {m : List Host.Cell} (h : Memory.wf m) (a : Nat) {o n : Nat} {bs : List Byte} (hn : o + n ≤ bs.length) :
    memRead (memWrite m (cellsAt a bs)) (a + o) n = (bs.drop o).take n := by
  refine List.ext_getElem (by simp [memRead]; omega) fun k hk _ => ?_
  have hkn : k < n := by simpa [memRead] using hk
  rw [List.getElem_take, List.getElem_drop]
  simp only [memRead, List.getElem_map, List.getElem_range]
  rw [memByte_memWrite_cellsAt h, if_pos (by omega), show a + o + k - a = o + k by omega, List.getD_eq_getElem]

theorem drop_flatMap_of_length {α β : Type} {f : α → List β} {n : Nat} (hf : ∀ a, (f a).length = n) (l : List α) (i : Nat) :
    (l.flatMap f).drop (n * i) = (l.drop i).flatMap f := by
  induction i generalizing l with
  | zero => rfl
  | succ i ih =>
    cases l with
    | nil => simp
    | cons a l =>
      rw [List.flatMap_cons, List.drop_succ_cons, ← ih, Nat.mul_succ, Nat.add_comm, ← List.drop_drop, List.drop_left' (hf a)]

theorem length_flatMap_of_length {α β : Type} {f : α → List β} {n : Nat} (hf : ∀ a, (f a).length = n) (l : List α) :
    (l.flatMap f).length = l.length * n := by
  induction l with
  | nil => simp
  | cons a l ih => rw [List.flatMap_cons, List.length_append, ih, hf, List.length_cons, Nat.succ_mul, Nat.add_comm]

theorem packLE_zeros (n : Nat) : packLE (List.replicate n (0 : Byte)) = 0 := by
  induction n with
  | zero => rfl
  | succ n ih =>
    rw [List.replicate_succ, packLE, List.foldr_cons]
    exact (congrArg (fun a => (0 : Byte).toNat + 256 * a) ih).trans rfl

/-! ### The built table (R341, R342) -/

/-- The NEXT of block i in the free list of a new table of n blocks. -/
def freeNext (n i : Nat) : Nat := if i + 1 = n then 0xFFFFFFFF else i + 1
/-- The bytes of a new table of n blocks. -/
def tableBytes (n : Nat) : List Byte :=
  List.replicate (32 * n) 0 ++ (List.range n).flatMap fun i => bytesLE 8 (freeNext n i * 2 ^ 32)

theorem builtCells_eq (b : Blk) : builtCells b = cellsAt b.base (tableBytes b.nb) := rfl

theorem length_tableBytes (n : Nat) : (tableBytes n).length = 40 * n := by
  rw [tableBytes, List.length_append, List.length_replicate,
    length_flatMap_of_length (fun i => length_bytesLE 8 (freeNext n i * 2 ^ 32)), List.length_range]
  omega

theorem tableBytes_entry {n h : Nat} (hh : h < 2 * n) : ((tableBytes n).drop (16 * h)).take 16 = List.replicate 16 0 := by
  rw [tableBytes, List.drop_append_of_le_length (by simp; omega), List.take_append_of_le_length (by simp; omega), List.drop_replicate,
    List.take_replicate]
  congr 1
  omega

theorem tableBytes_record {n i : Nat} (hi : i < n) :
    ((tableBytes n).drop (32 * n + 8 * i)).take 8 = bytesLE 8 (freeNext n i * 2 ^ 32) := by
  have hlen := fun i => length_bytesLE 8 (freeNext n i * 2 ^ 32)
  have hdrop : (List.range n).drop i = i :: (List.range n).drop (i + 1) := by
    rw [List.drop_eq_getElem_cons (by simpa using hi), List.getElem_range]
  rw [tableBytes, ← List.drop_drop, List.drop_left' (by simp), drop_flatMap_of_length hlen, hdrop, List.flatMap_cons,
    List.take_left' (hlen i)]

theorem nb_le (e : EngRegs) : e.nb ≤ 2 ^ 24 := by
  rw [EngRegs.nb, blkCount]
  split
  · next x hx =>
    have hmem := List.mem_of_find?_eq_some hx
    exact Nat.pow_le_pow_right (by decide) (by simp at hmem; omega)
  · exact Nat.zero_le _

theorem freeNext_lt {n i : Nat} (hn : n ≤ 2 ^ 24) (hi : i < n) : freeNext n i * 2 ^ 32 < 256 ^ 8 := by
  rw [freeNext]
  split <;> omega

section
variable {m : List Host.Cell} (h : Memory.wf m) (base n : Nat)
include h

theorem memNat_entry_table {k : Nat} (hk : k < 2 * n) : memNat (memWrite m (cellsAt base (tableBytes n))) (base + 16 * k) 16 = 0 := by
  rw [memNat, memRead_memWrite_within h base (by rw [length_tableBytes]; omega), tableBytes_entry hk, packLE_zeros]

theorem memNat_record_table (hn : n ≤ 2 ^ 24) {i : Nat} (hi : i < n) :
    memNat (memWrite m (cellsAt base (tableBytes n))) (base + 32 * n + 8 * i) 8 = freeNext n i * 2 ^ 32 := by
  rw [memNat, Nat.add_assoc, memRead_memWrite_within h base (by rw [length_tableBytes]; omega), tableBytes_record hi, packLE_bytesLE,
    Nat.mod_eq_of_lt (freeNext_lt hn hi)]
end

/-- What a store that has built its table leaves. -/
theorem blkBuilt_of_building {s : State} {c : CubeId} (hbuild : (s.cube c).eng.blkBuilding = true) (hev : ∀ d, (s.cube d).hw.life ≠ .evacuating)
    (hsecure : s.secu.world.getLsbD 4 = true ∨ ∀ d ∈ builtCells (blkOf s c), regionSecure s d.1 = false) :
    (blkBuilt s c).mem = memWrite s.mem (cellsAt (blkOf s c).base (tableBytes (s.cube c).eng.nb)) ∧
      ((blkBuilt s c).cube c).eng = { (s.cube c).eng with
        blkBuilding := false, blkReady := true, blkHead := 0, blkFree := (s.cube c).eng.nb, blkKeys := 0 } := by
  have hall : (builtCells (blkOf s c)).filter (fun d => s.secu.world.getLsbD (worldBit .blkq) || !regionSecure s d.1) =
      builtCells (blkOf s c) := by
    refine List.filter_eq_self.mpr fun d hd => ?_
    rcases hsecure with hworld | hout
    · exact Bool.or_eq_true_iff.mpr (.inl hworld)
    · rw [hout d hd]
      exact Bool.or_true _
  have hbuilt : blkBuilt s c = modEng (placeCells s 0xFFF (builtCells (blkOf s c))) c fun e => { e with
      blkBuilding := false, blkReady := true, blkHead := 0, blkFree := (s.cube c).eng.nb, blkKeys := 0 } := by
    rw [blkBuilt, if_pos hbuild]
    simp only [hall]
    rfl
  obtain ⟨e, r, hc⟩ := (served_placeCells s 0xFFF (builtCells (blkOf s c))).cube c
  rw [hbuilt, modEng]
  constructor
  · rw [mem_modCube, mem_placeCells, mirrorCells_none s hev, List.append_nil]
    rfl
  · rw [cube_modCube_self, hc]
end Sys2Proof.Machine

namespace Sys2Proof.Machine
open Sys2Proof.Say
/-! PROOFS. The block store is enabled, built and disabled, and performs its commands (R339, R342, R345, R346): O52. -/

/-! ### Enabling and disabling -/

theorem enBit : BitVec.twoPow 64 63 = (0x8000000000000000 : Word) := by decide

theorem blkEnable_of_unfit {s : State} {c : CubeId} (h : blkFits (s.cube c).eng c (s.cube c).eng.blkCtl = false) : blkEnable s c = s := by
  rw [blkEnable, h, Bool.not_false, Bool.or_true, if_pos rfl]
theorem blkEnable_of_fits {s : State} {c : CubeId} (hoff : (s.cube c).eng.blkCtl.getLsbD 63 = false)
    (h : blkFits (s.cube c).eng c (s.cube c).eng.blkCtl = true) : blkEnable s c = modEng s c fun e => { e with
      blkCtl := e.blkCtl ||| 0x8000000000000000, blkBuilding := true, blkReady := false } := by
  rw [blkEnable, h, hoff, Bool.not_true, Bool.or_false, if_neg Bool.false_ne_true, enBit]
theorem blkDisable_eq (s : State) (c : CubeId) : blkDisable s c = modEng s c fun e => { e with
    blkCtl := e.blkCtl &&& 0x7FFFFFFFFFFFFFFF, blkBuilding := false, blkReady := false } := by
  rw [blkDisable, show ~~~(BitVec.twoPow 64 63) = (0x7FFFFFFFFFFFFFFF : Word) by decide]

/-! ### A command at its store (R345, R346) -/

/-- The bytes that a performed command writes, with their tags. -/
def blkOut (r : BlkRun) (rp : Option (Nat × BitVec 12)) : List OutByte :=
  r.b.out.map (fun d => (d.1, 0xFFF, d.2)) ++ r.dest ++ match rp, r.record with
    | some (a, t), some (w0, w1) => (cellsAt a (bytesLE 8 w0 ++ bytesLE 8 w1)).map fun d => (d.1, t, d.2)
    | _, _ => []

theorem cellsOf_tagged (cells : List (Nat × Byte)) (t : BitVec 12) : cellsOf (cells.map fun d => (d.1, t, d.2)) = cells := by
  rw [cellsOf, List.map_map]
  exact List.map_id cells
theorem cellsOf_append (a b : List OutByte) : cellsOf (a ++ b) = cellsOf a ++ cellsOf b := List.map_append
theorem cellsOf_blkOut (r : BlkRun) (rp : Option (Nat × BitVec 12)) : cellsOf (blkOut r rp) = blkCells r rp := by
  unfold blkOut blkCells
  rw [cellsOf_append, cellsOf_append, cellsOf_tagged]
  rcases rp with - | ⟨a, t⟩
  · rfl
  · rcases r.record with - | ⟨w0, w1⟩
    · rfl
    · exact congrArg _ (cellsOf_tagged _ t)

theorem blkCommit_of_done (s : State) (c : CubeId) (m : Cmd) {r : BlkRun} (rp : Option (Nat × BitVec 12)) (herr : r.err = none) :
    ∃ wrote, blkCommit s c m r rp =
      finishCmd (reserveAll (keepStore (engWrite s m (cmdGlob m) (blkOut r rp)) m.bstack r.b) c m r.res) c { m with res := r.res } 0 none
        wrote := by
  refine ⟨(m.bstack.val :: homesOf (blkOut r rp)).eraseDups, ?_⟩
  rcases rp with - | ⟨a, t⟩
  · simp only [blkCommit, herr, blkOut, Option.map_none]
  · rcases hrec : r.record with - | ⟨w0, w1⟩
    · simp only [blkCommit, herr, blkOut, hrec, Option.map_none]
    · simp only [blkCommit, herr, blkOut, hrec, Option.map_none]

/-- The entries that a performed command fills are reserved for it. -/
theorem reserveAll_of_cmd {t : State} {c : CubeId} {m : Cmd} (hcmd : (t.cube c).cmd m.id = some m) (hres : m.res = [])
    (r : List (Nat × Nat × Nat)) : ∃ q sd, Worked t (reserveAll t c m r) ∧ ((reserveAll t c m r).cube c).cmd m.id = some q ∧
      ∀ u w, Ended u c q w → Ended u c { m with res := r, seed := sd } w := by
  cases r with
  | nil =>
    have hm : { m with res := [], seed := m.seed } = m := by rw [← hres]
    exact ⟨m, m.seed, .refl t, hcmd, fun u w h => by rwa [hm]⟩
  | cons a r =>
    obtain ⟨hworked, hstarted⟩ := startCmd_of_cmd hcmd (a :: r) []
    exact ⟨_, _, hworked, hstarted, fun u w h => h⟩

theorem cube_keepStore (t : State) (k c : CubeId) (b : Blk) : ∃ e, (keepStore t k b).cube c = { t.cube c with eng := e } := by
  rw [keepStore, cube_modCube]
  split
  · exact ⟨_, rfl⟩
  · exact ⟨_, rfl⟩

section
variable {s : State} {c : CubeId} {m : Cmd} {op : BlkOp} {rp : Option (Nat × BitVec 12)} (hkind : m.kind = .block op) (hwait : Waiting s c m)
  (hstores : storesDone s m = true) (hfirst : earlierOf (s.cube c) m = []) (hline : lineHeld s c m = false) (hgroup : blkGroupBad m = false)
  (hlive : m.dead = false) (hstore : storeState s m = 1) (hplace : resultPlace s c m = .ok rp)
  (hroom : op = .fetch → fetchWaits s c m (blkOf s m.bstack) = false) (hquiet : Quiet s) (hpoison : s.poison = [])
  (hway : pathCarries s c.val m.sid (blkOf s m.bstack).base = true)
  (hsecure : (blkRun s c m (blkOf s m.bstack)).b.secureHit s m = false) (herr : (blkRun s c m (blkOf s m.bstack)).err = none)
include hkind hwait hstores hfirst hline hgroup hlive hstore hplace hroom hquiet hpoison hway hsecure herr

/-- A command that every check lets through is performed. -/
theorem blkPerform_of_passed : blkPerform s c m.id = blkCommit s c m (blkRun s c m (blkOf s m.bstack)) rp := by
  obtain ⟨⟨hcmd, -, -⟩, hstatus, hunfenced⟩ := hwait
  have hbehind : blkBehind s c m = false := by rw [blkBehind, hfirst]; rfl
  have hfetch : ¬ (op = .fetch ∧ fetchWaits s c m (blkOf s m.bstack) = true) := fun h => absurd (hroom h.1) (by simp [h.2])
  have hclean : ∀ b, blkPoison s b = none := fun b => by simp [blkPoison, hpoison]
  simp only [blkPerform, hcmd, hkind, hstatus, hunfenced, hstores, hbehind, hline, hway, hgroup, hlive, hstore, hplace,
    fireReads_quiet s hquiet, hclean, herr, hsecure, bne_self_eq_false, Bool.not_true, Bool.or_false, Bool.false_eq_true, if_false,
    if_neg hfetch, OfNat.one_ne_ofNat, one_ne_zero, Option.isNone_none, Bool.and_false]

/-- What it leaves: its bytes at their homes, its reservation, and the store's head and counts. -/
theorem blkPerform_leaves (hres : m.res = []) (hplain : Plain s ((blkCells (blkRun s c m (blkOf s m.bstack)) rp).map Prod.fst)) :
    ∃ w sd, (blkPerform s c m.id).mem = memWrite s.mem (blkCells (blkRun s c m (blkOf s m.bstack)) rp) ∧
      (blkPerform s c m.id).misses = s.misses ∧
      Ended (blkPerform s c m.id) c { m with res := (blkRun s c m (blkOf s m.bstack)).res, seed := sd } w ∧
      ((blkPerform s c m.id).cube m.bstack).eng.blkHead = BitVec.ofNat 32 (blkRun s c m (blkOf s m.bstack)).b.head ∧
      ((blkPerform s c m.id).cube m.bstack).eng.blkFree = (blkRun s c m (blkOf s m.bstack)).b.free ∧
      ((blkPerform s c m.id).cube m.bstack).eng.blkKeys = (blkRun s c m (blkOf s m.bstack)).b.keys := by
  obtain ⟨⟨hcmd, -, hwin⟩, -, -⟩ := id hwait
  have hperform := blkPerform_of_passed hkind hwait hstores hfirst hline hgroup hlive hstore hplace hroom hquiet hpoison hway hsecure herr
  obtain ⟨w, hcommit⟩ := blkCommit_of_done s c m rp herr
  rw [hperform, hcommit]
  generalize blkRun s c m (blkOf s m.bstack) = r at hplain ⊢
  have hput := putHome_engWrite (m := m) (os := blkOut r rp) (by rwa [← cellsOf_blkOut, cellsOf, List.map_map] at hplain) (cmdGlob m)
  rw [cellsOf_blkOut] at hput
  generalize engWrite s m (cmdGlob m) (blkOut r rp) = t at hput ⊢
  obtain ⟨e, hkept⟩ := cube_keepStore t m.bstack c r.b
  obtain ⟨q, sd, hreserved, hq, hended⟩ := reserveAll_of_cmd (t := keepStore t m.bstack r.b)
    (by rw [hkept]; exact (cmd_congr (hput.cmds c) m.id).trans hcmd) hres r.res
  have hstore : ((keepStore t m.bstack r.b).cube m.bstack).eng = { (t.cube m.bstack).eng with
      blkHead := BitVec.ofNat 32 r.b.head, blkFree := r.b.free, blkKeys := r.b.keys } :=
    congrArg Cube.eng (cube_modCube_self t m.bstack _)
  have hwin' : awaitsWindow (keepStore t m.bstack r.b) m.id = false := (hput.awaitsWindow m.id).trans hwin
  obtain ⟨hworked, hdone⟩ := finishCmd_of_done (m := { m with res := r.res }) hq ((hreserved.awaitsWindow m.id).trans hwin') 0 w
  have hall := hreserved.trans hworked
  have heng := (hall.eng m.bstack).trans hstore
  exact ⟨w, sd, hall.mem.trans hput.mem, hall.misses.trans hput.misses, hended _ _ hdone, by rw [heng], by rw [heng], by rw [heng]⟩
end

/-- Settles O52: a store is enabled, built and disabled by its registers, and a command that every check lets through writes its bytes
there in one step. -/
theorem blockEvents : Obligations.BlockEvents := by
  unfold Obligations.BlockEvents
  intro s c
  refine ⟨fun hoff => ⟨fun hunfit => ?_, fun hfits => ?_⟩, ?_, fun hbuild hev hwf hsecure => ?_, ?_⟩
  · rw [exec_blkEnable, execBlkEnable, blkEnable_of_unfit hunfit]
  · rw [EngBecomes, exec_blkEnable, execBlkEnable, blkEnable_of_fits hoff hfits, modEng]
  · rw [EngBecomes, exec_blkDisable, execBlkDisable, blkDisable_eq, modEng]
  · obtain ⟨hmem, heng⟩ := blkBuilt_of_building hbuild hev hsecure
    refine ⟨_, exec_blkReady c s, heng, fun h hh => ?_, fun i hi => ?_, fun a ha => ?_⟩
    · rw [hmem]
      exact memNat_entry_table hwf _ _ hh
    · rw [hmem]
      exact memNat_record_table hwf _ _ (nb_le _) hi
    · rw [hmem]
      exact memByte_memWrite_cellsAt_of_out hwf (by rwa [length_tableBytes])
  · intro m op rp hkind hwait hstores hfirst hline hgroup hlive hstore hplace hroom hquiet hpoison hres hway _ hsecure herr hplain
    obtain ⟨w, sd, hmem, hmiss, hended, hhead, hfree, hkeys⟩ :=
      blkPerform_leaves hkind hwait hstores hfirst hline hgroup hlive hstore hplace hroom hquiet hpoison hway hsecure herr hres hplain
    obtain ⟨ms, hnext⟩ := next_of_event hwait.1 (i := .blkCmdPerform c m.id) (f := fun s => blkPerform s c m.id) rfl hmiss
    generalize blkPerform s c m.id = u at hmem hended hhead hfree hkeys hnext
    exact ⟨_, w, sd, hnext, fun a => congrArg (memByte · a) hmem, hended, hhead, hfree, hkeys⟩
end Sys2Proof.Machine

namespace Sys2Proof.Machine
open Sys2Proof.Say
/-! PROOFS. Cube commands start and are performed (R281, R285, R287, R291, R292, R297, R298, R387). -/

/-! ### Starts -/

theorem starts_of_worked {s : State} {c : CubeId} {m : Cmd} {i : Instr} {f : State → State} {res took : List (Nat × Nat × Nat)}
    (h : Stands s c m) (hexec : exec i s = .next (engEvent c m.id f s)) (hworked : Worked s (f s)) {es : List Nat}
    (hcmd : ((f s).cube c).cmd m.id = some { m with
      status := .started, res := res, took := took, ents := es, seed := (s.cube c).eng.cpySeed }) : Starts s i c m res took := by
  obtain ⟨ms, hnext⟩ := next_of_event h hexec hworked.misses
  exact ⟨_, hnext, hworked.mem, hworked.items, es, m.out, m.homes, hcmd⟩

theorem starts_of_startCmd {s : State} {c : CubeId} {m : Cmd} {i : Instr} {f : State → State} {res took : List (Nat × Nat × Nat)}
    (h : Stands s c m) (hexec : exec i s = .next (engEvent c m.id f s)) (hf : f s = startCmd s c m res took) :
    Starts s i c m res took := by
  obtain ⟨hworked, hcmd⟩ := startCmd_of_stands h res took
  rw [← hf] at hworked hcmd
  exact starts_of_worked h hexec hworked hcmd

theorem fireKeys_quiet {s : State} (h : Quiet s) (rs : List (Nat × VA)) : fireKeys s rs = s := by
  rw [fireKeys, fireReads_quiet s h, ite_self]
theorem fireProbe_quiet {s : State} (h : Quiet s) (probe : State → Option (BitVec 8 × VA)) : fireProbe s probe = s := by
  rw [fireProbe]
  induction List.finRange 8 with
  | nil => rfl
  | cons c cs ih => rw [List.foldl_cons, if_neg (by simp [h c]), ih]

/-! ### A command whose turn has come in its planes (R292) -/

section
variable {s : State} {c : CubeId} {m : Cmd} (hwait : Waiting s c m)
include hwait

section
variable (hfree : PlanesFree s c m)
include hfree

theorem free_start : (m.status != .queued || testHolds (s.cube c) || !unfenced s c m || skewHolds (s.cube c) m ||
    !planeReady (s.cube c) m) = false ∧ (fireLayers m).any (layerAsleep (s.cube c)) = false := by
  obtain ⟨-, hstatus, hunfenced⟩ := hwait
  obtain ⟨htest, hskew, hready, hawake⟩ := hfree
  exact ⟨by simp [hstatus, htest, hunfenced, hskew, hready], List.any_eq_false.mpr fun l hl => by simp [hawake l hl]⟩

theorem cubeStart_mma {z ha hb k : Bool} (hkind : m.kind = .cube (.mma z ha hb k)) :
    cubeStart s c m.id = if mmYields s c m then s else mmStart s c m z ha hb := by
  obtain ⟨hturn, hlayers⟩ := free_start hwait hfree
  simp only [cubeStart, hwait.1.1, hkind, hturn, hlayers, Bool.false_eq_true, if_false]
theorem cubeStart_rot {h : Bool} (hkind : m.kind = .cube (.rot h)) : cubeStart s c m.id = rotStart s c m := by
  obtain ⟨hturn, hlayers⟩ := free_start hwait hfree
  simp only [cubeStart, hwait.1.1, hkind, hturn, hlayers, Bool.false_eq_true, if_false]
theorem cubeStart_acc {op : CubeOp} (hkind : m.kind = .cube op) (hop : op = .zero ∨ op = .ld ∨ op = .st ∨ op = .move) :
    cubeStart s c m.id = accStart s c m op := by
  obtain ⟨hturn, hlayers⟩ := free_start hwait hfree
  rcases hop with rfl | rfl | rfl | rfl <;>
    simp only [cubeStart, hwait.1.1, hkind, hturn, hlayers, Bool.false_eq_true, if_false]
end

/-- A gated layer that a command needs is asked to wake (R387). -/
theorem cubeStart_of_gated {op : CubeOp} (hkind : m.kind = .cube op) (htest : testHolds (s.cube c) = false) (hskew : skewHolds (s.cube c) m = false)
    (hready : planeReady (s.cube c) m = true) {l : Fin 8} (hl : l.val ∈ fireLayers m) (hgated : ((s.cube c).pwr.layers.get l).gated = true) :
    cubeStart s c m.id = requestLayers s c (fireLayers m) := by
  obtain ⟨⟨hcmd, -, -⟩, hstatus, hunfenced⟩ := hwait
  have hasleep : (fireLayers m).any (layerAsleep (s.cube c)) = true :=
    List.any_eq_true.mpr ⟨l.val, hl, by simp [layerAsleep, layerPwr_eq, hgated]⟩
  simp only [cubeStart, hcmd, hkind, hstatus, hunfenced, htest, hskew, hready, hasleep, bne_self_eq_false, Bool.not_true, Bool.or_false,
    Bool.false_eq_true, if_false, if_true]
end

theorem cmd_requestLayers (s : State) (c : CubeId) (ls : List Nat) (id : Nat) :
    ((requestLayers s c ls).cube c).cmd id = (s.cube c).cmd id := by
  rw [requestLayers, cube_modCube_self]
  rfl
theorem requestLayers_of_gated {s : State} {c : CubeId} {ls : List Nat} {l : Fin 8} (hl : l.val ∈ ls)
    (hgated : ((s.cube c).pwr.layers.get l).gated = true) : ((requestLayers s c ls).cube c).pwr.layers.get l =
      { (s.cube c).pwr.layers.get l with pend := true } := by
  rw [requestLayers, cube_modCube_self]
  simp only [Vector.get_eq_getElem] at hgated ⊢
  rw [Vector.getElem_ofFn, if_pos (by simp [hgated, hl])]

theorem accStart_of_good {s : State} {c : CubeId} {m : Cmd} {op : CubeOp} (htile : tileOk m.part false (m.dw 0) = true)
    (hmove : op = .move → tileOk m.part false (m.dw 1) = true)
    (hmem : op = .ld ∨ op = .st → (m.dw 1).toNat % 4 = 0 ∧ accStride m % 4 = 0) : accStart s c m op = startCmd s c m [] [] := by
  have hmem' : (accMem op && ((m.dw 1).toNat % 4 != 0 || accStride m % 4 != 0)) = false := by
    by_cases h : op = .ld ∨ op = .st
    · simp [hmem h]
    · simp only [not_or] at h
      simp [accMem, h.1, h.2]
  have hmove' : (op == .move && !tileOk m.part false (m.dw 1)) = false := by
    by_cases h : op = .move
    · simp [hmove h]
    · simp [h]
  simp [accStart, htile, hmove', hmem']

theorem rotStart_of_good {s : State} {c : CubeId} {m : Cmd} (htile : tileOk m.part true (m.dw 0) = true) (hquiet : Quiet s)
    (hclean : poisoned s (tileReads c m.part (tileWord (m.dw 0)) (List.range 64) (List.range 64)) = none) :
    rotStart s c m = startCmd s c m [] [] := by
  simp [rotStart, htile, fireKeys_quiet hquiet, allIdx, hclean]

/-! ### The start of a CMMA (R285, R287, R291) -/

/-- The operand entries that a CMMA is to take, layer by layer. -/
def nextOpnds (s : State) (c : CubeId) (m : Cmd) (b : Bool) (n : Nat) : List Opnd :=
  m.mmLayers.map (mmOpnd c m b ((strandSpool s m.sid n).entryOff (strandSpool s m.sid n).nextC))
/-- The entries that a CMMA takes, but for those that it holds (R287). -/
def mmTook (s : State) (m : Cmd) (ha hb : Bool) : List (Nat × Nat × Nat) :=
  (if ha then [] else [(m.spoolA, (strandSpool s m.sid m.spoolA).nextC, 1)]) ++
    if hb then [] else [(m.spoolB, (strandSpool s m.sid m.spoolB).nextC, 1)]

section
variable {s : State} {c : CubeId} {m : Cmd} (hshape : mmShapeBad m = false) (hspools : mmSpoolsBad s m = false) (hquiet : Quiet s)
  (hpoison : s.poison = []) (ha0 : (strandSpool s m.sid m.spoolA).unreserved ≠ 0) (hb0 : (strandSpool s m.sid m.spoolB).unreserved ≠ 0)
  (hea : mmEntryBad (s.cube c) m (strandSpool s m.sid m.spoolA) false (nextOpnds s c m false m.spoolA) = false)
  (heb : mmEntryBad (s.cube c) m (strandSpool s m.sid m.spoolB) true (nextOpnds s c m true m.spoolB) = false)
  (hformat : mmFormatBad m (nextOpnds s c m false m.spoolA) (nextOpnds s c m true m.spoolB) = false)
  (hcaps : ∀ x ∈ (mmWidth (nextOpnds s c m false m.spoolA) (nextOpnds s c m true m.spoolB)).2, (s.cube c).hw.caps.getLsbD x = true)
include hshape hspools hquiet hpoison ha0 hb0 hea heb hformat hcaps

theorem mmStart_of_good (z ha hb : Bool) : mmStart s c m z ha hb = (startCmd s c m [] (mmTook s m ha hb)).modCube c fun k =>
    k.modCmd m.id fun q => { q with
      ents := [(strandSpool s m.sid m.spoolA).nextC, (strandSpool s m.sid m.spoolB).nextC] } := by
  have hclass : ((mmWidth (nextOpnds s c m false m.spoolA) (nextOpnds s c m true m.spoolB)).2.any fun x => !(s.cube c).hw.caps.getLsbD x) = false :=
    List.any_eq_false.mpr fun x hx => by rw [hcaps x hx]; decide
  have hclean : ∀ rs, poisoned s rs = none := fun rs => by simp [poisoned, hpoison]
  rw [nextOpnds] at hea heb
  rw [nextOpnds, nextOpnds] at hformat hclass
  simp only [mmStart, hshape, hspools, ha0, hb0, hea, heb, hformat, hclass, fireKeys_quiet hquiet, hclean, Bool.or_self,
    Bool.false_eq_true, if_false, or_self, mmTook]

theorem starts_mma {z ha hb k : Bool} (hkind : m.kind = .cube (.mma z ha hb k)) (hwait : Waiting s c m)
    (hfree : PlanesFree s c m) (hyields : mmYields s c m = false) : Starts s (.cubeCmdStart c m.id) c m [] (mmTook s m ha hb) := by
  obtain ⟨hworked, hcmd⟩ := startCmd_of_stands hwait.1 [] (mmTook s m ha hb)
  have hstart := cubeStart_mma hwait hfree hkind
  rw [hyields, if_neg Bool.false_ne_true, mmStart_of_good hshape hspools hquiet hpoison ha0 hb0 hea heb hformat hcaps z ha hb] at hstart
  refine starts_of_worked (f := fun s => cubeStart s c m.id) hwait.1 rfl ?_
    (es := [(strandSpool s m.sid m.spoolA).nextC, (strandSpool s m.sid m.spoolB).nextC]) ?_
  · simp only [hstart]
    exact hworked.trans (worked_modCmd _ c m.id _)
  · simp only [hstart]
    rw [cube_modCube_self]
    exact cmd_modCmd hcmd fun _ => rfl
end
end Sys2Proof.Machine

namespace Sys2Proof.Machine
open Sys2Proof.Say
/-! PROOFS. Cube commands complete, join points, and the skew register (R297, R298, R303, R305). -/

/-! ### Completions (R292, R298) -/

section
variable {s : State} {c : CubeId} {m : Cmd} (hgo : Going s c m) (hfirst : planeEarlier (s.cube c) m = [])
  (hheld : ∀ l ∈ fireLayers m, ((s.cube c).layerPwr l).held = false)
include hgo hfirst hheld

theorem turn_complete : (m.status != .started || !(planeEarlier (s.cube c) m).isEmpty || !storesDone s m ||
    (fireLayers m).any fun l => ((s.cube c).layerPwr l).held) = false := by
  obtain ⟨-, hstatus, hstores, -⟩ := hgo
  have hlayers : ((fireLayers m).any fun l => ((s.cube c).layerPwr l).held) = false :=
    List.any_eq_false.mpr fun l hl => by simp [hheld l hl]
  simp [hstatus, hfirst, hstores, hlayers]

theorem cubeComplete_mma {z ha hb k : Bool} (hkind : m.kind = .cube (.mma z ha hb k)) :
    cubeComplete s c m.id = cubeFinish (mmDo s c m z) c m none [] := by
  simp only [cubeComplete, hgo.1.1, hkind, turn_complete hgo hfirst hheld, Bool.false_eq_true, if_false]
theorem cubeComplete_rot {h : Bool} (hkind : m.kind = .cube (.rot h)) :
    cubeComplete s c m.id = cubeFinish (rotDo s c m (if h then 64 else 32)) c m none [] := by
  simp only [cubeComplete, hgo.1.1, hkind, turn_complete hgo hfirst hheld, Bool.false_eq_true, if_false]
theorem cubeComplete_acc {op : CubeOp} (hkind : m.kind = .cube op) (hop : op = .zero ∨ op = .ld ∨ op = .st ∨ op = .move) :
    cubeComplete s c m.id = accDo s c m op := by
  have hturn := turn_complete hgo hfirst hheld
  rcases hop with rfl | rfl | rfl | rfl <;>
    simp only [cubeComplete, hgo.1.1, hkind, hturn, Bool.false_eq_true, if_false]
end

theorem cubeFinish_of_done (t : State) (c : CubeId) (m : Cmd) (wrote : List Nat) :
    cubeFinish t c m none wrote = finishCmd t c m ((layersOf m.planes).headD 0) none wrote := rfl

/-- u is s with bytes at their places and with checksum records and engine registers of cube c, as a CMMA or a CROT leaves it. -/
def Tiled (s u : State) (c : CubeId) : Prop :=
  ∃ m ow po no r e, u = { s with mem := m, owners := ow, poison := po, notes := no }.modCube c fun k => { k with recs := r, eng := e }

theorem tiled_mmDo (s : State) (c : CubeId) (m : Cmd) (z : Bool) : Tiled s (mmDo s c m z) c := by
  unfold mmDo
  simp only []
  generalize (List.flatMap _ (idxOf m.mmRows) : List (Nat × Nat × Part)) = els
  generalize (List.flatMap _ els : List (Nat × Byte)) = cells
  obtain ⟨me, ow, po, no, hplace⟩ := placeCells_eq s m.asn cells
  rw [hplace]
  generalize (els.any fun e => e.2.2.wrapped) = wraps
  cases wraps with
  | false => exact ⟨me, ow, po, no, _, _, modCube_congr rfl⟩
  | true => exact ⟨me, ow, po, no, _, _, modCube_congr rfl⟩
theorem tiled_rotDo (s : State) (c : CubeId) (m : Cmd) (n : Nat) : Tiled s (rotDo s c m n) c := by
  unfold rotDo
  simp only []
  generalize (List.flatten _ : List (Nat × Byte)) = cells
  obtain ⟨me, ow, po, no, hplace⟩ := placeCells_eq s m.asn cells
  rw [hplace]
  exact ⟨me, ow, po, no, _, _, modCube_congr rfl⟩

theorem Tiled.keeps {s u : State} {c : CubeId} (h : Tiled s u c) :
    (u.cube c).cmds = (s.cube c).cmds ∧ u.winq = s.winq ∧ u.misses = s.misses := by
  obtain ⟨me, ow, po, no, r, e, rfl⟩ := h
  exact ⟨by rw [cube_modCube_self]; rfl, rfl, rfl⟩

/-- A cube command whose tile stands is done. -/
theorem cubeFinish_of_tiled {s u : State} {c : CubeId} {m : Cmd} (h : Stands s c m) (htiled : Tiled s u c) :
    Worked u (cubeFinish u c m none []) ∧ Ended (cubeFinish u c m none []) c m [] ∧ (cubeFinish u c m none []).misses = s.misses := by
  obtain ⟨hcmd, -, hwin⟩ := h
  obtain ⟨hcmds, hwinq, hmiss⟩ := htiled.keeps
  rw [cubeFinish_of_done]
  obtain ⟨hworked, hended⟩ := finishCmd_of_done ((cmd_congr hcmds m.id).trans hcmd) (by rwa [awaitsWindow, hwinq])
    ((layersOf m.planes).headD 0) []
  exact ⟨hworked, hended, hworked.misses.trans hmiss⟩

theorem PutHome.modRecs {s u : State} {cells : List (Nat × Byte)} (h : PutHome s u cells) (c : CubeId) (f : Cube → List ChkRec) :
    PutHome s (u.modCube c fun k => { k with recs := f k }) cells := by
  have hcube := cube_modCube u c
  obtain ⟨cs, ow, po, no, ms, rfl, hcs⟩ := h
  refine ⟨_, ow, po, no, ms, rfl, fun d => ?_⟩
  obtain ⟨r, e, hd⟩ := hcs d
  have hmod := hcube d fun k => { k with recs := f k }
  split at hmod
  · exact ⟨_, e, hmod.trans (congrArg (fun k : Cube => { k with recs := f k }) hd)⟩
  · exact ⟨r, e, hmod.trans hd⟩

/-- A CACC puts its bytes at their homes and is done (R298). -/
theorem accDo_of_done {s : State} {c : CubeId} {m : Cmd} {op : CubeOp} {os : List OutByte} (h : Stands s c m) (hquiet : Quiet s)
    (hwork : accWork s c m op = (os, none)) (hplain : Plain s (os.map Prod.fst)) :
    Stored s (accDo s c m op) (cellsOf os) ∧ Ended (accDo s c m op) c m (homesOf os) ∧ (accDo s c m op).misses = s.misses := by
  have hput := putHome_engWrite (m := m) hplain false
  rw [accDo, fireProbe_quiet hquiet, hwork]
  simp only [cubeFinish_of_done]
  cases accTile m op with
  | none => exact finishCmd_of_put h hput _ _
  | some t => exact finishCmd_of_put h (hput.modRecs c fun k => (setRec k (recNumber m.part t) none).recs) _ _
end Sys2Proof.Machine

namespace Sys2Proof.Machine
open Sys2Proof.Say
/-! PROOFS. Join points and the skew register (R303, R305), and O50. -/

/-! ### Join points (R303) -/

/-- The walks that one no longer waits for are gone, and no mark of a held access is among what is left. -/
theorem heldUp_takeWalks {s u : State} {req : Requester} {id : Nat} (hmiss : u.misses = s.misses) (hwalk : walkOut s req id = false) :
    heldUp s (takeWalks u req id) = false := by
  rw [heldUp, Bool.and_eq_false_iff]
  by_cases hmark : holdMark ∈ s.misses
  · exact .inr (by simp [hmark])
  · refine .inl ?_
    rw [List.contains_eq_mem, decide_eq_false_iff_not]
    intro hmem
    simp only [takeWalks, hmiss, List.mem_filter, List.mem_map] at hmem
    obtain ⟨⟨m, hm, heq⟩, -⟩ := hmem
    have hres : m.res = none := (congrArg Miss.res heq :)
    have hwaiters : m.waiters.filter (fun n => n != (req, id)) = [] := (congrArg Miss.waiters heq :)
    have hout := List.any_eq_false.mp hwalk m hm
    have hnot : (req, id) ∉ m.waiters := by simpa [hres] using hout
    have hkeep : m.waiters.filter (fun n => n != (req, id)) = m.waiters :=
      List.filter_eq_self.mpr fun n hn => by
        have : n ≠ (req, id) := fun h => hnot (h ▸ hn)
        simpa using this
    rw [hkeep] at heq
    exact hmark (heq ▸ hm)

/-- A join point as it stands when its last layer reaches it. -/
def Join.reached (j : Join) (now : Word) : Join := { j with last := some now }

theorem allReached_of_waits {j : Join} {k : Cube} (h : ∀ w ∈ j.waits, k.cmd w.2 = none) : j.allReached k = true :=
  List.all_eq_true.mpr fun _ _ => List.all_eq_true.mpr fun w hw => by simp [h w hw]

/-- Layers that pass are noted at the joins alone. -/
theorem noteJoins_eq (s : State) (c : CubeId) : ∃ f : Cube → List Join, noteJoins s c = s.modCube c fun k => { k with joins := f k } := by
  rw [noteJoins]
  split
  · exact ⟨Cube.joins, (modCube_id s c).symm⟩
  · exact ⟨_, rfl⟩

/-- The skew that a join leaves between the cycles in which its first and its last layer reached it. -/
def joinSkew (a b : Word) : BitVec 16 := BitVec.ofNat 16 (min (b - a).toNat 65535)
/-- The registers of a strand whose join is complete. -/
def Join.toCtx (j : Join) (skew : BitVec 16) (x : Ctx) : Ctx := { x with sys := { x.sys with jmask := j.layers, jskew := skew } }
/-- What the end of a join without an add leaves, beside its walks. -/
def Join.ended (j : Join) (s : State) (c : CubeId) (skew : BitVec 16) : State :=
  ((noteJoins s c).modCube c fun k => { k with joins := k.joins.filter fun q => q.id != j.id }).modSid j.sid (j.toCtx skew)

section
variable {s : State} {c : CubeId} {j : Join} (hfind : ((s.cube c).joins.find? fun q => q.id == j.id) = some j) (hlast : j.last = none)
  (hwaits : ∀ w ∈ j.waits, (s.cube c).cmd w.2 = none) {a : Word} (hfirst : j.first = some a)
include hfind hlast hwaits hfirst

theorem find_noteJoins : (((noteJoins s c).cube c).joins.find? fun q => q.id == j.id) = some (j.reached s.cycle) := by
  have hne : (s.cube c).joins.isEmpty = false := by
    cases hjs : (s.cube c).joins with
    | nil => rw [hjs] at hfind; cases hfind
    | cons => rfl
  rw [noteJoins, hne, if_neg Bool.false_ne_true, cube_modCube_self, List.find?_map]
  simp only [Function.comp_def]
  rw [hfind, Option.map_some]
  simp [Join.reached, hlast, hfirst, allReached_of_waits hwaits]

theorem joinComplete_of_reached (hamt : j.amt = 0) (hwalk : walkOut s (.cube c) j.id = false) :
    joinComplete s c j.id = takeWalks (j.ended s c (joinSkew a s.cycle)) (.cube c) j.id := by
  have hnoted := find_noteJoins hfind hlast hwaits hfirst
  obtain ⟨f, hnote⟩ := noteJoins_eq s c
  have hreached : (j.reached s.cycle).allReached ((noteJoins s c).cube c) = true :=
    allReached_of_waits fun w hw => by rw [hnote, cube_modCube_self]; exact hwaits w hw
  have hout : walkOut (noteJoins s c) (.cube c) j.id = false := by
    rw [hnote]
    exact hwalk
  have hheld : heldUp (noteJoins s c) (takeWalks (j.ended s c (joinSkew a s.cycle)) (.cube c) j.id) = false :=
    heldUp_takeWalks rfl hout
  have hreq : (cmdAgent (noteJoins s c) c (joinCmd (j.reached s.cycle))).req = .cube c := rfl
  have hadd : ∀ t : State, joinAdd t c (j.reached s.cycle) = t := fun t => if_pos hamt
  unfold joinComplete
  simp only [hnoted, hreached, hreq, hout, hadd, Bool.not_true, Bool.false_or, Bool.false_eq_true, if_false]
  rw [if_neg (by simp [Join.reached, hamt])]
  have hends : (j.reached s.cycle).first = some a := hfirst
  have hlasts : (j.reached s.cycle).last = some s.cycle := rfl
  simp only [hends, hlasts]
  exact if_neg (by rw [Bool.not_eq_true]; exact hheld)
end

theorem core_modSid_of_running {k : Cube} {x : Ctx} {sid : Nat} {f : Ctx → Ctx} (hcore : k.core = x) (hcur : k.cur ≠ .none)
    (hsid : x.sid = sid) : (k.modSid sid f).core = f x := by
  rw [modSid_of_running f hcur (by rw [hcore, hsid]), hcore]

theorem Join.ended_keeps (j : Join) (s : State) (c : CubeId) (skew : BitVec 16) : (j.ended s c skew).mem = s.mem ∧
    (j.ended s c skew).items = s.items ∧ (∀ q ∈ ((j.ended s c skew).cube c).joins, q.id ≠ j.id) ∧
    ∀ d : CubeId, (s.cube d).cur ≠ .none → (s.cube d).core.sid = j.sid →
      ((j.ended s c skew).cube d).core = j.toCtx skew (s.cube d).core := by
  obtain ⟨f, hnote⟩ := noteJoins_eq s c
  rw [Join.ended, hnote, modCube_modCube]
  refine ⟨rfl, rfl, fun q hq => ?_, fun d hcur hsid => ?_⟩
  · rw [cube_modSid, cube_modCube_self, Cube.modSid] at hq
    split at hq
    · simpa using (List.mem_filter.mp hq).2
    · simpa using (List.mem_filter.mp hq).2
  · rw [cube_modSid, cube_modCube]
    split
    · exact core_modSid_of_running rfl hcur hsid
    · exact core_modSid_of_running rfl hcur hsid

/-! ### The skew register (R305) -/

/-- Fields of four bits put together, the lowest first. -/
def fields4 (d : Nat → Nat) (n : Nat) : Nat := (List.range n).foldl (fun a l => a + d l * 2 ^ (4 * l)) 0

theorem fields4_succ (d : Nat → Nat) (n : Nat) : fields4 d (n + 1) = fields4 d n + d n * 2 ^ (4 * n) := by
  rw [fields4, List.range_succ, List.foldl_append]
  rfl
theorem fields4_lt {d : Nat → Nat} (h : ∀ l, d l < 16) (n : Nat) : fields4 d n < 2 ^ (4 * n) := by
  induction n with
  | zero => exact Nat.one_pos
  | succ n ih =>
    have hd : d n * 2 ^ (4 * n) ≤ 15 * 2 ^ (4 * n) := Nat.mul_le_mul_right _ (by have := h n; omega)
    rw [fields4_succ, Nat.mul_succ, Nat.pow_add]
    omega
theorem fields4_field {d : Nat → Nat} (h : ∀ l, d l < 16) {n l : Nat} (hl : l < n) : fields4 d n / 2 ^ (4 * l) % 16 = d l := by
  induction n with
  | zero => cases hl
  | succ n ih =>
    rw [fields4_succ]
    rcases Nat.lt_succ_iff_lt_or_eq.mp hl with hlt | rfl
    · obtain ⟨k, rfl⟩ : ∃ k, n = l + 1 + k := ⟨n - (l + 1), by omega⟩
      have hpow : d (l + 1 + k) * 2 ^ (4 * (l + 1 + k)) = 2 ^ (4 * l) * (16 * (d (l + 1 + k) * 2 ^ (4 * k))) := by
        rw [show 4 * (l + 1 + k) = 4 * l + (4 + 4 * k) by ring, pow_add, pow_add]
        ring
      rw [hpow, Nat.add_mul_div_left _ _ (Nat.two_pow_pos _), Nat.add_mul_mod_self_left, ih hlt]
    · rw [Nat.add_mul_div_right _ _ (Nat.two_pow_pos _), Nat.div_eq_of_lt (fields4_lt h l), Nat.zero_add, Nat.mod_eq_of_lt (h l)]

/-- The field of layer l in a skew that takes effect. -/
def raisedField (k : Cube) (v : BitVec 32) (l : Nat) : Nat :=
  max ((k.hw.layers.toList.getD l 0).extractLsb' 4 3).toNat (v.toNat / 2 ^ (4 * l) % 16)

theorem raisedField_lt (k : Cube) (v : BitVec 32) (l : Nat) : raisedField k v l < 16 :=
  max_lt (lt_of_lt_of_le (BitVec.isLt _) (by decide)) (Nat.mod_lt _ (by decide))
theorem raiseSkew_field (k : Cube) (v : BitVec 32) {l : Nat} (hl : l < 8) :
    (raiseSkew k v).toNat / 2 ^ (4 * l) % 16 = raisedField k v l := by
  have hraise : raiseSkew k v = BitVec.ofNat 32 (fields4 (raisedField k v) 8) := rfl
  rw [hraise, BitVec.toNat_ofNat, Nat.mod_eq_of_lt (fields4_lt (raisedField_lt k v) 8), fields4_field (raisedField_lt k v) hl]

theorem applySkew_of_first {s : State} {c : CubeId} {id : Nat} {v : BitVec 32} {rest : List (Nat × BitVec 32)}
    (hnext : (s.cube c).eng.skewNext = (id, v) :: rest) (hbefore : ∀ m ∈ (s.cube c).cmds, m.queue = .cubeq → id ≤ m.id) :
    applySkew s c = s.modCube c fun k => { k with eng := { k.eng with skew := raiseSkew (s.cube c) v, skewNext := rest } } := by
  have hnone : (s.cube c).cmds.any (fun m => m.queue == .cubeq && decide (m.id < id)) = false :=
    List.any_eq_false.mpr fun m hm => by
      simp only [Bool.and_eq_true, beq_iff_eq, decide_eq_true_eq, not_and, not_lt]
      exact hbefore m hm
  rw [applySkew, hnext]
  simp only [hnone, Bool.false_eq_true, if_false]
  exact modCube_congr rfl
end Sys2Proof.Machine

namespace Sys2Proof
open Sys2Proof.Machine Sys2Proof.Say
/-! PROOFS. O50. -/

/-- The start of a cube command, clause by clause. -/
theorem cubeCommandsStart (s : State) (c : CubeId) (m : Cmd) (op : CubeOp) (hkind : m.kind = .cube op) (hwait : Waiting s c m) :
    (PlanesFree s c m →
        ((op = .zero ∨ op = .ld ∨ op = .st ∨ op = .move) → tileOk m.part false (m.dw 0) = true →
          (op = .move → tileOk m.part false (m.dw 1) = true) →
          (op = .ld ∨ op = .st → (m.dw 1).toNat % 4 = 0 ∧ accStride m % 4 = 0) → Starts s (.cubeCmdStart c m.id) c m [] []) ∧
        (∀ h, op = .rot h → tileOk m.part true (m.dw 0) = true → Quiet s →
          poisoned s (tileReads c m.part (tileWord (m.dw 0)) (List.range 64) (List.range 64)) = none →
          Starts s (.cubeCmdStart c m.id) c m [] [])) ∧
      (testHolds (s.cube c) = false → skewHolds (s.cube c) m = false → planeReady (s.cube c) m = true →
        ∀ l : Fin 8, l.val ∈ fireLayers m → ((s.cube c).pwr.layers.get l).gated = true → ∃ u, exec (.cubeCmdStart c m.id) s = .next u ∧
          (u.cube c).pwr.layers.get l = { (s.cube c).pwr.layers.get l with pend := true } ∧ (u.cube c).cmd m.id = some m) := by
  refine ⟨fun hfree => ⟨fun hop htile hmove hmem => ?_, fun h hop htile hquiet hclean => ?_⟩, fun htest hskew hready l hl hgated => ?_⟩
  · exact starts_of_startCmd (f := fun s => cubeStart s c m.id) hwait.1 rfl
      ((cubeStart_acc hwait hfree hkind hop).trans (accStart_of_good htile hmove hmem))
  · subst hop
    exact starts_of_startCmd (f := fun s => cubeStart s c m.id) hwait.1 rfl
      ((cubeStart_rot hwait hfree hkind).trans (rotStart_of_good htile hquiet hclean))
  · have hstart := cubeStart_of_gated hwait hkind htest hskew hready hl hgated
    obtain ⟨ms, hnext⟩ := next_of_event hwait.1 (i := .cubeCmdStart c m.id) (f := fun s => cubeStart s c m.id) rfl
      (by simp only [hstart] <;> rfl)
    rw [hstart] at hnext
    exact ⟨_, hnext, requestLayers_of_gated hl hgated, (cmd_requestLayers s c _ m.id).trans hwait.1.1⟩

/-- Settles O50: cube commands start, wake their layers, and are performed; join points complete; a skew write takes effect. -/
theorem cubeEvents : Obligations.CubeEvents := by
  unfold Obligations.CubeEvents
  intro s c
  refine ⟨fun m op hkind hwait => ?_, fun m op hkind hgo hfirst hheld => ⟨fun z ha hb k hop => ?_, fun h hop => ?_, fun hop os hwork hplain => ?_⟩,
    fun j hfind hamt hlast hwalk hwaits a hfirst => ?_, fun id v rest hnext hbefore => ?_⟩
  · obtain ⟨hstart, hgated⟩ := cubeCommandsStart s c m op hkind hwait
    refine ⟨fun hfree => ⟨(hstart hfree).1, (hstart hfree).2, ?_⟩, hgated⟩
    intro z ha hb k hop hshape hspools hquiet hpoison a b as bs ha0 hb0 hea heb hformat hyields hcaps
    subst hop
    exact starts_mma hshape hspools hquiet hpoison ha0 hb0 hea heb hformat hcaps hkind hwait hfree hyields
  · subst hop
    obtain ⟨hworked, hended, hmiss⟩ := cubeFinish_of_tiled hgo.1 (tiled_mmDo s c m z)
    have hdone := cubeComplete_mma hgo hfirst hheld hkind
    rw [← hdone] at hworked hended hmiss
    obtain ⟨ms, hnext⟩ := next_of_event hgo.1 (i := .cubeCmdComplete c m.id) (f := fun s => cubeComplete s c m.id) rfl hmiss
    generalize cubeComplete s c m.id = u at hworked hended hnext
    exact ⟨_, hnext, hworked.mem, hworked.recs c, hended⟩
  · subst hop
    obtain ⟨hworked, hended, hmiss⟩ := cubeFinish_of_tiled hgo.1 (tiled_rotDo s c m (if h then 64 else 32))
    have hdone := cubeComplete_rot hgo hfirst hheld hkind
    rw [← hdone] at hworked hended hmiss
    obtain ⟨ms, hnext⟩ := next_of_event hgo.1 (i := .cubeCmdComplete c m.id) (f := fun s => cubeComplete s c m.id) rfl hmiss
    generalize cubeComplete s c m.id = u at hworked hended hnext
    exact ⟨_, hnext, hworked.mem, hended⟩
  · obtain ⟨hstored, hended, hmiss⟩ := accDo_of_done hgo.1 hgo.2.2.2 hwork hplain
    have hdone := cubeComplete_acc hgo hfirst hheld hkind hop
    rw [← hdone] at hstored hended hmiss
    obtain ⟨ms, hnext⟩ := next_of_event hgo.1 (i := .cubeCmdComplete c m.id) (f := fun s => cubeComplete s c m.id) rfl hmiss
    generalize cubeComplete s c m.id = u at hstored hended hnext
    exact ⟨_, hnext, hstored, hended⟩
  · obtain ⟨hmem, hitems, hgone, hcore⟩ := j.ended_keeps s c (joinSkew a s.cycle)
    have hdone := joinComplete_of_reached hfind hlast hwaits hfirst hamt hwalk
    refine ⟨takeWalks (j.ended s c (joinSkew a s.cycle)) (.cube c) j.id, ?_, hgone, hmem, hitems, fun d hcur hsid => ?_⟩
    · rw [exec_joinPointComplete, execJoinPointComplete, hdone]
    · rw [cube_takeWalks, hcore d hcur hsid]
      exact ⟨rfl, rfl⟩
  · refine ⟨raiseSkew (s.cube c) v, ?_, fun l hl => raiseSkew_field (s.cube c) v hl⟩
    rw [exec_cubSkewApply, execCubSkewApply, applySkew_of_first hnext hbefore]
end Sys2Proof

namespace Sys2Proof.Machine
open Sys2Proof.Say
/-! PROOFS. O11, first part: what each function of the state does to memory. Most leave it as it is (`memory_f`); those through which bytes are
written, all of them by `memWrite` or by leaving entries out, keep its canonical form (`wf_f`). -/

/-! ### Rules -/

@[simp] theorem memory_foldl {α : Type} {f : State → α → State} (h : ∀ s a, (f s a).mem = s.mem) (l : List α) (s : State) :
    (l.foldl f s).mem = s.mem := by
  induction l generalizing s with
  | nil => rfl
  | cons a l ih => exact (ih (f s a)).trans (h s a)
theorem wf_foldl {α : Type} {f : State → α → State} (hf : ∀ s a, Memory.wf s.mem → Memory.wf (f s a).mem) (l : List α) {s : State}
    (h : Memory.wf s.mem) : Memory.wf (l.foldl f s).mem := by
  induction l generalizing s with
  | nil => exact h
  | cons a l ih => exact ih (hf s a h)
theorem wf_of_memory {s u : State} (h : u.mem = s.mem) (hs : Memory.wf s.mem) : Memory.wf u.mem := h ▸ hs
theorem wf_of_fst {α : Type} {p : State × α} {u : State} {a : α} (h : p = (u, a)) (hp : Memory.wf p.1.mem) : Memory.wf u.mem := by
  subst h; exact hp
theorem wf_ite {p : Prop} [Decidable p] {s u : State} (hs : Memory.wf s.mem) (hu : Memory.wf u.mem) :
    Memory.wf (if p then s else u).mem := by
  split
  · exact hs
  · exact hu
@[simp] theorem wf_placeCells (s : State) (tag : BitVec 12) (cells : List (Nat × Byte)) (hm : Memory.wf s.mem) :
    Memory.wf (placeCells s tag cells).mem := by
  rw [mem_placeCells]
  exact wf_memWrite _ _ hm

/-! ### The functions of Machine/Translate.lean -/

@[simp] theorem memory_requestWalk (s : State) (ag : Agent) (va : VA) : (requestWalk s ag va).mem = s.mem := by rfl
@[simp] theorem memory_takeWalks (s : State) (req : Requester) (w : Nat) : (takeWalks s req w).mem = s.mem := by rfl
theorem wf_afterWalks {s u : State} (req : Requester) (w : Nat) (ends : Bool) (hs : Memory.wf s.mem) (hu : Memory.wf u.mem) :
    Memory.wf (afterWalks s u req w ends).mem := by
  unfold afterWalks
  split
  · exact hs
  · split <;> simp [Memory.wf, hu]
@[simp] theorem memory_fillPort (c : CubeId) (port : Fin 6) (asn : BitVec 12) (s : State) (va : VA) : (fillPort c port asn s va).mem = s.mem := by rfl
@[simp] theorem memory_markDead (s : State) (p : Nat) : (markDead s p).mem = s.mem := by rfl

/-! ### The functions of Machine/Regs.lean -/

@[simp] theorem memory_popRead (s : State) (c : CubeId) (n : Nat) : (popRead s c n).mem = s.mem := by
  unfold popRead
  split <;> rfl

/-! ### The functions of Machine/WindowRead.lean -/

@[simp] theorem memory_popReads (s : State) (keys : List Nat) : (popReads s keys).mem = s.mem := by
  unfold popReads
  refine memory_foldl (fun _ _ => ?_) _ _
  split <;> simp

/-! ### The functions of Machine/Contain.lean -/

@[simp] theorem memory_logCe (s : State) (c : CubeId) (w : Word) : (logCe s c w).mem = s.mem := by rfl
@[simp] theorem memory_logUe (s : State) (c : CubeId) (w : Word) : (logUe s c w).mem = s.mem := by rfl
@[simp] theorem memory_endSpace (s : State) (asn : BitVec 12) (cause : BitVec 8) : (endSpace s asn cause).mem = s.mem := by rfl
@[simp] theorem memory_fenceCube (s : State) (c : CubeId) : (fenceCube s c).mem = s.mem := by
  unfold fenceCube
  split <;> rfl
@[simp] theorem memory_poisonLine (s : State) (line : Nat) : (poisonLine s line).mem = s.mem := by
  unfold poisonLine
  split <;> rfl
@[simp] theorem memory_noteRow (s : State) (c : CubeId) (line : Nat) (bad : Bool) : (noteRow s c line bad).mem = s.mem := by rfl
@[simp] theorem memory_uncorrectable (s : State) (line : Nat) : (uncorrectable s line).mem = s.mem := by
  unfold uncorrectable
  simp only []
  (repeat' split) <;> simp
@[simp] theorem memory_correctable (s : State) (line : Nat) : (correctable s line).mem = s.mem := by
  unfold correctable
  (repeat' split) <;> rfl
@[simp] theorem memory_fireLine (s : State) (line : Nat) : (fireLine s line).mem = s.mem := by
  unfold fireLine
  refine memory_foldl (fun _ _ => ?_) _ _
  simp only []
  (repeat' split) <;> simp
@[simp] theorem memory_fireReads (s : State) (lines : List Nat) : (fireReads s lines).mem = s.mem := by
  unfold fireReads
  split <;> simp
@[simp] theorem memory_cachePeer (s : State) (p : Nat) : (cachePeer s p).mem = s.mem := by
  unfold cachePeer
  simp only []
  (repeat' split) <;> simp
@[simp] theorem memory_carryPoison (s : State) (src dst n : Nat) : (carryPoison s src dst n).mem = s.mem := by
  unfold carryPoison
  simp
@[simp] theorem memory_fireProbe (s : State) (probe : State → Option (BitVec 8 × VA)) : (fireProbe s probe).mem = s.mem := by
  unfold fireProbe
  refine memory_foldl (fun _ _ => ?_) _ _
  simp only []
  split <;> simp

/-! ### The functions of Machine/Coherence.lean -/

@[simp] theorem memory_modSid (s : State) (sid : Nat) (f : Ctx → Ctx) : (s.modSid sid f).mem = s.mem := by rfl
@[simp] theorem memory_modItem (s : State) (id : Nat) (f : Item → Item) : (s.modItem id f).mem = s.mem := by rfl
@[simp] theorem memory_dropItem (s : State) (id : Nat) : (s.dropItem id).mem = s.mem := by rfl
@[simp] theorem memory_edgeFill (s : State) (c : CubeId) (l : Nat) : (edgeFill s c l).mem = s.mem := by rfl
@[simp] theorem memory_edgeOvertake (s : State) (c : CubeId) (older : List DirMsg → List DirMsg × List DirMsg) (cells : List (Nat × Byte)) :
    (edgeOvertake s c older cells).mem = s.mem := by rfl
@[simp] theorem memory_notifyWatches (s : State) (locs : List Nat) : (notifyWatches s locs).mem = s.mem := by rfl
@[simp] theorem memory_tagLines (s : State) (locs : List Nat) (tag : BitVec 12) : (tagLines s locs tag).mem = s.mem := by rfl
@[simp] theorem memory_voidTiles (s : State) (locs : List Nat) : (voidTiles s locs).mem = s.mem := by
  unfold voidTiles
  refine memory_foldl (fun _ _ => ?_) _ _
  rfl
@[simp] theorem wf_homeWrite (s : State) (mode : Mode) (who : Writer) (tag : BitVec 12) (cells : List (Nat × Byte)) (hm : Memory.wf s.mem) :
    Memory.wf (homeWrite s mode who tag cells).mem := by
  unfold homeWrite
  simp only []
  split <;> simp [Memory.wf, hm]
@[simp] theorem memory_countAccess (s : State) (who : Requester) (a : BitVec 12 × VA × Nat) : (countAccess s who a).mem = s.mem := by
  unfold countAccess
  simp only []
  (repeat' split) <;> simp
@[simp] theorem memory_countAll (s : State) (who : Requester) (as : List (BitVec 12 × VA × Nat)) : (countAll s who as).mem = s.mem := by
  unfold countAll
  simp
@[simp] theorem memory_performPoisoned (s : State) (i : Item) : (performPoisoned s i).mem = s.mem := by
  unfold performPoisoned
  split <;> rfl
@[simp] theorem wf_performItem (s : State) (i : Item) (hm : Memory.wf s.mem) : Memory.wf (performItem s i).mem := by
  unfold performItem
  simp only []
  (repeat' split) <;> simp [Memory.wf, hm]
@[simp] theorem memory_sendInvalidates (s : State) (i : Item) : (sendInvalidates s i).mem = s.mem := by rfl
@[simp] theorem wf_arriveItem (s : State) (i : Item) (hm : Memory.wf s.mem) : Memory.wf (arriveItem s i).mem := by
  unfold arriveItem
  simp only []
  (repeat' split) <;> simp [Memory.wf, hm]
@[simp] theorem memory_departItem (s : State) (i : Item) : (departItem s i).mem = s.mem := by
  unfold departItem
  (repeat' split) <;> rfl
@[simp] theorem wf_issueItem (s : State) (i : Item) (hm : Memory.wf s.mem) : Memory.wf (issueItem s i).mem := by
  unfold issueItem
  simp only []
  (repeat' split) <;> simp [Memory.wf, hm]
@[simp] theorem memory_catchUp (s : State) (c : CubeId) (ls : List Nat) : (catchUp s c ls).mem = s.mem := by
  unfold catchUp
  refine memory_foldl (fun _ _ => ?_) _ _
  split <;> simp
@[simp] theorem memory_fillLines (s : State) (c : CubeId) (sid : Nat) (ls : List Nat) : (fillLines s c sid ls).mem = s.mem := by
  unfold fillLines
  refine memory_foldl (fun _ _ => ?_) _ _
  split <;> simp

/-! ### The functions of Machine/Ops.lean -/

@[simp] theorem memory_pushResult (s : State) (r : Result) : (s.pushResult r).mem = s.mem := by rfl
@[simp] theorem memory_writeS (s : State) (l : Nat) (latch : BitVec 3) (m : Mods) (d : SReg) (v : Word) : (s.writeS l latch m d v).mem = s.mem :=
    by rfl
@[simp] theorem memory_writeS0 (s : State) (l : Nat) (d : SReg) (v : Word) : (s.writeS0 l d v).mem = s.mem := by rfl
@[simp] theorem memory_writeP (s : State) (l : Nat) (tv : Bool) (d : PReg) (c : Comb) (v : Bool) : (s.writeP l tv d c v).mem = s.mem := by rfl
@[simp] theorem memory_writeV (s : State) (l : Nat) (u : Bool) (m : Mods) (d : VReg) (v : VWord) (en : MWord) : (s.writeV l u m d v en).mem =
    s.mem := by
  unfold State.writeV
  split <;> rfl
@[simp] theorem memory_writeM (s : State) (l : Nat) (tv : Bool) (d : MReg) (c : Comb) (v en : MWord) : (s.writeM l tv d c v en).mem = s.mem := by
  unfold State.writeM
  split <;> rfl
@[simp] theorem memory_acquireRegion (s : State) (c : CubeId) (ag : Agent) (region : VA × Nat) : (acquireRegion s c ag region).mem = s.mem := by
  unfold acquireRegion
  simp only []
  split
  · simp
  · refine memory_foldl (fun _ _ => ?_) _ _
    (repeat' split) <;> simp
@[simp] theorem memory_acquire (s : State) (c : CubeId) (cx : Ctx) (regions : List (VA × Nat)) : (acquire s c cx regions).mem = s.mem := by
  unfold acquire
  simp
@[simp] theorem memory_serveRead (s : State) (r : ReadReq) : (serveRead s r).mem = s.mem := by
  unfold serveRead
  simp only []
  (repeat' split) <;> simp
@[simp] theorem memory_arriveRead (s : State) (r : ReadReq) : (arriveRead s r).mem = s.mem := by
  unfold arriveRead
  (repeat' split) <;> simp
@[simp] theorem memory_ackItem (s : State) (i : Item) : (ackItem s i).mem = s.mem := by
  unfold ackItem
  simp only []
  split
  · simp only [memory_dropItem]
    refine memory_foldl (fun _ _ => ?_) _ _
    split <;> simp
  · simp only [memory_dropItem]
    refine memory_foldl (fun _ _ => ?_) _ _
    split <;> simp
@[simp] theorem memory_dropWaitRead (s : State) (sid : Nat) : (dropWaitRead s sid).mem = s.mem := by
  unfold dropWaitRead
  split <;> rfl
@[simp] theorem memory_saveCore (s : State) (c : CubeId) (st : Status) : (saveCore s c st).mem = s.mem := by
  unfold saveCore
  simp only []
  split <;> simp
@[simp] theorem memory_loadShelf (s : State) (c : CubeId) (i : ShelfId) : (loadShelf s c i).mem = s.mem := by rfl
@[simp] theorem memory_loadRuntime (s : State) (c : CubeId) : (loadRuntime s c).mem = s.mem := by rfl
@[simp] theorem memory_loadSecure (s : State) (c : CubeId) : (loadSecure s c).mem = s.mem := by rfl
@[simp] theorem memory_dispatchNext (s : State) (c : CubeId) : (dispatchNext s c).mem = s.mem := by
  unfold dispatchNext
  (repeat' split) <;> rfl
@[simp] theorem memory_freeMonitor (s : State) (c : CubeId) (i : ShelfId) : (freeMonitor s c i).mem = s.mem := by rfl
@[simp] theorem memory_trapTask (s : State) (c : CubeId) (i : ShelfId) (t : Trap) : (trapTask s c i t).mem = s.mem := by
  unfold trapTask
  simp
@[simp] theorem memory_gessoResponds (s : State) (c : CubeId) : (gessoResponds s c).mem = s.mem := by
  unfold gessoResponds
  simp
@[simp] theorem memory_trapRuntime (s : State) (c : CubeId) (t : Trap) : (trapRuntime s c t).mem = s.mem := by
  unfold trapRuntime
  simp
@[simp] theorem memory_trapSecure (s : State) (c : CubeId) : (trapSecure s c).mem = s.mem := by rfl
@[simp] theorem memory_noteDead (s : State) (c : CubeId) (t : Trap) : (noteDead s c t).mem = s.mem := by
  unfold noteDead
  simp only []
  (repeat' split) <;> simp
@[simp] theorem memory_enterTrap (s : State) (c : CubeId) (t : Trap) : (enterTrap s c t).mem = s.mem := by
  unfold enterTrap
  split <;> simp
@[simp] theorem memory_takeTrap (s : State) (c : CubeId) (t : Trap) : (takeTrap s c t).mem = s.mem := by
  unfold takeTrap
  simp only []
  split <;> simp

/-! ### The functions of Machine/Engine.lean -/

@[simp] theorem memory_modSpool (s : State) (sid n : Nat) (f : Spool → Spool) : (modSpool s sid n f).mem = s.mem := by rfl
@[simp] theorem memory_dropCmd (s : State) (c : CubeId) (id : Nat) : (dropCmd s c id).mem = s.mem := by rfl
@[simp] theorem memory_enqueueOn (claim : State → CubeId → Cmd → List Nat) (s : State) (q : Queue) (kind : CmdKind) (grp : List Word)
    (ctr amt : Word) (recipe : BitVec 128) (planes : BitVec 8) : (enqueueOn claim s q kind grp ctr amt recipe planes).mem = s.mem := by
  unfold enqueueOn
  simp only []
  split <;> simp
@[simp] theorem memory_enqueue (s : State) (q : Queue) (kind : CmdKind) (grp : List Word) (ctr amt : Word) (recipe : BitVec 128) (planes : BitVec
    8) : (enqueue s q kind grp ctr amt recipe planes).mem = s.mem := by
  unfold enqueue
  simp
@[simp] theorem memory_engCoherence (s : State) (glob : Bool) (id : Nat) (cells : List (Nat × Byte)) : (engCoherence s glob id cells).mem = s.mem
    := by
  unfold engCoherence
  split <;> rfl
@[simp] theorem wf_engWrite (s : State) (m : Cmd) (glob : Bool) (os : List OutByte) (hm : Memory.wf s.mem) : Memory.wf (engWrite s m glob os).mem
    := by
  unfold engWrite
  refine wf_foldl (fun _ _ hs => ?_) _ hm
  simp [Memory.wf, hs]
@[simp] theorem wf_faultRecord (s : State) (c : CubeId) (m : Cmd) (plane : Nat) (e : EngErr) (hm : Memory.wf s.mem) : Memory.wf (faultRecord s c m
    plane e).mem := by
  unfold faultRecord
  simp only []
  (repeat' split) <;> simp [Memory.wf, hm]
@[simp] theorem wf_failAgain (s : State) (c : CubeId) (m : Cmd) (e : EngErr) (hm : Memory.wf s.mem) : Memory.wf (failAgain s c m e).mem := by
  unfold failAgain
  simp [Memory.wf, hm]
@[simp] theorem wf_breakLine (s : State) (sid : Nat) (line : BitVec 3) (pos : Nat) (hm : Memory.wf s.mem) :
    Memory.wf (breakLine s sid line pos).mem := by
  unfold breakLine
  split
  · exact hm
  · refine wf_foldl (fun _ _ hs => ?_) _ (by simpa using hm)
    (repeat' split) <;> simp [Memory.wf, hs]
@[simp] theorem memory_settleCmd (s : State) (c : CubeId) (id : Nat) : (settleCmd s c id).mem = s.mem := by
  unfold settleCmd
  (repeat' split) <;> rfl
@[simp] theorem memory_noteLost (s : State) (c : CubeId) (m : Cmd) (e : EngErr) : (noteLost s c m e).mem = s.mem := by
  unfold noteLost
  (repeat' split) <;> rfl
@[simp] theorem wf_finishCmd (s : State) (c : CubeId) (m : Cmd) (plane : Nat) (err : Option EngErr) (wrote : List Nat) (hm : Memory.wf s.mem) :
    Memory.wf (finishCmd s c m plane err wrote).mem := by
  unfold finishCmd
  split <;> simp [Memory.wf, hm]
@[simp] theorem wf_addItem (s : State) (c : CubeId) (m : Cmd) (t : Target) (hm : Memory.wf s.mem) : Memory.wf (addItem s c m t).mem := by
  unfold addItem
  simp [Memory.wf, hm]
@[simp] theorem wf_sendAdd (s : State) (c : CubeId) (id : Nat) (hm : Memory.wf s.mem) : Memory.wf (sendAdd s c id).mem := by
  unfold sendAdd
  (repeat' split) <;> simp [Memory.wf, hm]
theorem wf_engEvent {s : State} (c : CubeId) (id : Nat) (f : State → State) (hs : Memory.wf s.mem) (hf : Memory.wf (f s).mem) :
    Memory.wf (engEvent c id f s).mem := by
  unfold engEvent
  split
  · exact hs
  · simp only []
    split
    · exact hs
    · exact wf_afterWalks _ _ _ hs hf

/-! ### The functions of Machine/Flags.lean -/

@[simp] theorem memory_writePreds (l : Nat) (tv : Bool) (c : Comb) (p q : PReg) (r : Bool) (s : State) : (writePreds l tv c p q r s).mem = s.mem
    := by rfl

/-! ### The functions of Machine/Control.lean -/

@[simp] theorem memory_takeBranch (s : State) (t : VA) : (s.takeBranch t).mem = s.mem := by rfl
@[simp] theorem memory_link (s : State) (x : Ctx) : (s.link x).mem = s.mem := by rfl
@[simp] theorem memory_loopInsn (x : Ctx) (count : Nat) (disp : Nat) (s : State) : (loopInsn x count disp s).mem = s.mem := by
  unfold loopInsn
  split <;> rfl

/-! ### The functions of Machine/Copy.lean -/

@[simp] theorem memory_startCmd (s : State) (c : CubeId) (m : Cmd) (res took : List (Nat × Nat × Nat)) : (startCmd s c m res took).mem = s.mem := by
  unfold startCmd
  simp
theorem wf_credElem {s : State} (c : CubeId) (m : Cmd) (op : CopyOp) (win : Option Bool) (src dst : VA) (hs : Memory.wf s.mem) :
    Memory.wf (credElem s c m op win src dst).1.mem := by
  unfold credElem
  simp only []
  (repeat' split) <;> simp [Memory.wf, hs]
theorem wf_credRun (c : CubeId) (m : Cmd) (op : CopyOp) (win : Option Bool) (l : List (VA × VA)) {s : State} (hs : List Nat)
    (hm : Memory.wf s.mem) : Memory.wf (credRun c m op win l s hs).1.mem := by
  induction l generalizing s hs with
  | nil => exact hm
  | cons p t ih =>
    obtain ⟨a, b⟩ := p
    have he := wf_credElem c m op win a b hm
    unfold credRun
    split
    · next h => rw [h] at he; exact he
    · next h => rw [h] at he; exact ih _ he
@[simp] theorem wf_prefetch (s : State) (c : CubeId) (m : Cmd) (a : VA) (hm : Memory.wf s.mem) : Memory.wf (prefetch s c m a).mem := by
  unfold prefetch
  refine wf_foldl (fun _ _ hs => ?_) _ hm
  simp only []
  (repeat' split) <;> simp [Memory.wf, hs]
@[simp] theorem memory_countCopy (s : State) (c : CubeId) (m : Cmd) (vas : List VA) : (countCopy s c m vas).mem = s.mem := by
  unfold countCopy
  refine memory_foldl (fun _ _ => ?_) _ _
  split <;> simp
@[simp] theorem memory_claimLine (s : State) (c : CubeId) (m : Cmd) : (claimLine s c m).mem = s.mem := by
  unfold claimLine
  split <;> rfl
@[simp] theorem wf_copyStart (s : State) (c : CubeId) (id : Nat) (hm : Memory.wf s.mem) : Memory.wf (copyStart s c id).mem := by
  have hfail (m : Cmd) (e : EngErr) : Memory.wf (finishCmd s c m 0 (some e) []).mem := wf_finishCmd _ _ _ _ _ _ hm
  have hstart (m : Cmd) (r t : List (Nat × Nat × Nat)) : Memory.wf (startCmd (claimLine s c m) c m r t).mem := by simpa using hm
  unfold copyStart
  split
  · exact hm
  · split
    · extract_lets s'
      refine wf_ite hm (wf_ite ?_ (wf_ite (hfail _ _) (wf_ite (hfail _ _) (wf_ite (hstart _ _ _) (wf_ite ?_ ?_)))))
      · simp [Memory.wf, hm]
      · split
        · exact hfail _ _
        · extract_lets rows
          generalize reserveSpools s _ _ _ _ _ = w
          cases w <;> simp [Memory.wf, hm, s']
      · (repeat' split) <;> simp [Memory.wf, hm, s']
    · exact hm
@[simp] theorem memory_popVAs (s : State) (c : CubeId) (m : Cmd) (vas : List VA) : (popVAs s c m vas).mem = s.mem := by
  unfold popVAs
  simp
theorem memory_runReads (c : CubeId) (m : Cmd) (write : State → List (VA × Byte) → Except EngErr (List OutByte)) (es : List Elem)
    (s : State) (acc : List OutByte) : (runReads c m write es s acc).1.mem = s.mem := by
  induction es generalizing s acc with
  | nil => rfl
  | cons u us ih =>
    unfold runReads
    split
    · rfl
    · simp only []
      split
      · simp
      · rw [ih]; simp
theorem memory_copyRun (s : State) (c : CubeId) (m : Cmd) (op : CopyOp) : (copyRun s c m op).1.mem = s.mem := by
  unfold copyRun
  split
  · split <;> rfl
  · split
    · rfl
    · split
      · split
        all_goals
          next h => exact (congrArg (fun r => r.1.mem) h).symm.trans (memory_runReads _ _ _ _ _ _)
      · split
        next h => exact (congrArg (fun r => r.1.mem) h).symm.trans (memory_runReads _ _ _ _ _ _)
@[simp] theorem memory_giveBack (s : State) (m : Cmd) (t : Nat × Nat × Nat) (n : Nat) : (giveBack s m t n).mem = s.mem := by rfl
@[simp] theorem wf_copyFail (s : State) (c : CubeId) (m : Cmd) (wrote : List VA) (unread : Option (List VA)) (e : EngErr) (homes : List Nat) (hm :
    Memory.wf s.mem) : Memory.wf (copyFail s c m wrote unread e homes).mem := by
  unfold copyFail
  simp [Memory.wf, hm]
@[simp] theorem wf_copyComplete (s : State) (c : CubeId) (id : Nat) (hm : Memory.wf s.mem) : Memory.wf (copyComplete s c id).mem := by
  have hfin (u : State) (m : Cmd) (e : Option EngErr) (w : List Nat) (hu : Memory.wf u.mem) :
    Memory.wf (finishCmd u c m 0 e w).mem := wf_finishCmd _ _ _ _ _ _ hu
  unfold copyComplete
  split
  · exact hm
  · next m _ =>
    split
    · next op _ =>
      refine wf_ite hm (wf_ite ?_ (wf_ite hm (wf_ite ?_ (wf_ite ?_ ?_))))
      · simp [Memory.wf, hm]
      · exact hfin _ _ _ _ (wf_prefetch _ _ _ _ hm)
      · extract_lets w a b off pairs s1 s2
        refine wf_ite (hfin _ _ _ _ hm) ?_
        refine hfin _ _ _ _ (wf_credRun _ _ _ _ _ _ ?_)
        simpa [s1, s2] using hm
      · extract_lets s1
        have ht : Memory.wf (copyRun s1 c m op).1.mem := wf_of_memory (memory_copyRun _ _ _ _) (by simpa [s1] using hm)
        generalize copyRun s1 c m op = r at ht ⊢
        obtain ⟨t, os, err⟩ := r
        simp only []
        split <;> simp [Memory.wf, ht]
    · exact hm
@[simp] theorem memory_entryLanded (s : State) (c : CubeId) (id : Nat) : (entryLanded s c id).mem = s.mem := by
  unfold entryLanded
  (repeat' split) <;> simp
@[simp] theorem memory_enqueueCopy (s : State) (g : Guard) (op : CopyOp) (a b c : SReg) (q : Bool) (n : Nat) : (enqueueCopy s g op a b c q n).mem
    = s.mem := by
  unfold enqueueCopy
  simp only []
  split <;> simp

/-! ### The functions of Machine/LoadStore.lean -/

theorem wf_checked {α : Type} {s : State} (r : Except Trap α) {f : α → State} (hs : Memory.wf s.mem)
    (hf : ∀ a, Memory.wf (f a).mem) : Memory.wf (s.checked r f).mem := by
  cases r with
  | error t => exact wf_of_memory (memory_takeTrap _ _ _) hs
  | ok a => exact hf a
@[simp] theorem wf_sendItem (s : State) (i : Item) (hm : Memory.wf s.mem) : Memory.wf (sendItem s i).mem := by
  unfold sendItem
  simp [Memory.wf, hm]
@[simp] theorem memory_sendRead (s : State) (r : ReadReq) : (sendRead s r).mem = s.mem := by rfl

/-! ### The functions of Machine/CubeEng.lean -/

@[simp] theorem memory_requestLayers (s : State) (c : CubeId) (ls : List Nat) : (requestLayers s c ls).mem = s.mem := by rfl
@[simp] theorem memory_busyLayers (s : State) (c : CubeId) (planes : BitVec 8) : (busyLayers s c planes).mem = s.mem := by rfl
@[simp] theorem wf_cubeFinish (s : State) (c : CubeId) (m : Cmd) (err : Option EngErr) (wrote : List Nat) (hm : Memory.wf s.mem) : Memory.wf
    (cubeFinish s c m err wrote).mem := by
  unfold cubeFinish
  split <;> simp [Memory.wf, hm]
@[simp] theorem wf_cubeFail (s : State) (c : CubeId) (m : Cmd) (e : EngErr) (hm : Memory.wf s.mem) : Memory.wf (cubeFail s c m e).mem := by
  unfold cubeFail
  simp [Memory.wf, hm]
@[simp] theorem memory_fireKeys (s : State) (rs : List (Nat × VA)) : (fireKeys s rs).mem = s.mem := by
  unfold fireKeys
  split <;> simp
@[simp] theorem wf_mmStart (s : State) (c : CubeId) (m : Cmd) (z ha hb : Bool) (hm : Memory.wf s.mem) : Memory.wf (mmStart s c m z ha hb).mem := by
  unfold mmStart
  simp only []
  (repeat' split) <;> simp [Memory.wf, hm]
@[simp] theorem wf_mmDo (s : State) (c : CubeId) (m : Cmd) (z : Bool) (hm : Memory.wf s.mem) : Memory.wf (mmDo s c m z).mem := by
  unfold mmDo
  simp [Memory.wf, hm]
@[simp] theorem wf_rotDo (s : State) (c : CubeId) (m : Cmd) (n : Nat) (hm : Memory.wf s.mem) : Memory.wf (rotDo s c m n).mem := by
  unfold rotDo
  simp [Memory.wf, hm]
@[simp] theorem wf_rotStart (s : State) (c : CubeId) (m : Cmd) (hm : Memory.wf s.mem) : Memory.wf (rotStart s c m).mem := by
  unfold rotStart
  simp only []
  (repeat' split) <;> simp [Memory.wf, hm]
@[simp] theorem wf_accStart (s : State) (c : CubeId) (m : Cmd) (op : CubeOp) (hm : Memory.wf s.mem) : Memory.wf (accStart s c m op).mem := by
  unfold accStart
  simp only []
  split <;> simp [Memory.wf, hm]
@[simp] theorem wf_accDo (s : State) (c : CubeId) (m : Cmd) (op : CubeOp) (hm : Memory.wf s.mem) : Memory.wf (accDo s c m op).mem := by
  unfold accDo
  split <;> simp [Memory.wf, hm]
@[simp] theorem wf_cubeStart (s : State) (c : CubeId) (id : Nat) (hm : Memory.wf s.mem) : Memory.wf (cubeStart s c id).mem := by
  unfold cubeStart
  simp only []
  (repeat' split) <;> simp [Memory.wf, hm]
@[simp] theorem wf_cubeComplete (s : State) (c : CubeId) (id : Nat) (hm : Memory.wf s.mem) : Memory.wf (cubeComplete s c id).mem := by
  unfold cubeComplete
  simp only []
  (repeat' split) <;> simp [Memory.wf, hm]
@[simp] theorem memory_noteJoins (s : State) (c : CubeId) : (noteJoins s c).mem = s.mem := by
  unfold noteJoins
  split <;> rfl
@[simp] theorem wf_joinAdd (s : State) (c : CubeId) (j : Join) (hm : Memory.wf s.mem) : Memory.wf (joinAdd s c j).mem := by
  unfold joinAdd
  (repeat' split) <;> simp [Memory.wf, hm]
@[simp] theorem wf_joinComplete (s : State) (c : CubeId) (id : Nat) (hm : Memory.wf s.mem) : Memory.wf (joinComplete s c id).mem := by
  unfold joinComplete
  simp only []
  (repeat' split) <;> simp [Memory.wf, hm]
@[simp] theorem wf_placeJoin (s : State) (x : Ctx) (layers : BitVec 8) (ctr amt : Word) (hm : Memory.wf s.mem) : Memory.wf (placeJoin s x layers
    ctr amt).mem := by
  unfold placeJoin
  (repeat' split) <;> simp [Memory.wf, hm]

/-! ### The functions of Machine/Counter.lean -/

@[simp] theorem memory_sendWait (s : State) (c : CubeId) (w : WaitInfo) : (sendWait s c w).mem = s.mem := by rfl

/-! ### The functions of Machine/Sync.lean -/

@[simp] theorem memory_settleFences (s : State) (c : CubeId) : (settleFences s c).mem = s.mem := by
  unfold settleFences
  simp only []
  (repeat' split) <;> simp
@[simp] theorem memory_fenceBundle (s : State) (f : FenceHold) (cmds : List Nat) : (fenceBundle s f cmds).mem = s.mem := by rfl
@[simp] theorem memory_settleQfences (s : State) (c : CubeId) : (settleQfences s c).mem = s.mem := by rfl

/-! ### The functions of Machine/Sys.lean -/

@[simp] theorem memory_control (s : State) (c : Control) : (s.control c).mem = s.mem := by rfl
@[simp] theorem memory_postTrap (s : State) (cause : BitVec 8) (code : BitVec 6) : (s.postTrap cause code).mem = s.mem := by rfl

/-! ### The functions of Machine/Cube.lean -/

@[simp] theorem memory_enqueueCube (s : State) (op : CubeOp) (grp : List Word) (ctr amt : Word) (planes : BitVec 8) : (enqueueCube s op grp ctr
    amt planes).mem = s.mem := by
  unfold enqueueCube
  simp only []
  (repeat' split) <;> simp
theorem wf_orTrap {s f : State} (t : Option Trap) (hs : Memory.wf s.mem) (hf : Memory.wf f.mem) : Memory.wf (s.orTrap t f).mem := by
  cases t with
  | none => exact hf
  | some t => exact wf_of_memory (memory_takeTrap _ _ _) hs
@[simp] theorem memory_setSpool (s : State) (n : Nat) (f : Spool → Spool) : (s.setSpool n f).mem = s.mem := by rfl
@[simp] theorem memory_writeSkew (s : State) (c : CubeId) (v : BitVec 32) : (writeSkew s c v).mem = s.mem := by rfl
@[simp] theorem memory_applySkew (s : State) (c : CubeId) : (applySkew s c).mem = s.mem := by
  unfold applySkew
  (repeat' split) <;> rfl

end Sys2Proof.Machine

namespace Sys2Proof.Machine
open Sys2Proof.Say
/-! PROOFS. O11, second part: the functions of the engines, the scheduler and the fabric. -/

/-! ### The functions of Machine/Failure.lean -/

@[simp] theorem memory_noteFailure (s : State) (c : CubeId) (cls : Nat) : (noteFailure s c cls).mem = s.mem := by rfl
@[simp] theorem memory_noteFailures (s : State) (c : CubeId) (b : BitVec 29) : (noteFailures s c b).mem = s.mem := by
  unfold noteFailures
  simp
@[simp] theorem memory_drainFailure (s : State) (c : CubeId) (corrected : Bool) (classes : BitVec 29) (shelf : Nat) : (drainFailure s c corrected
    classes shelf).mem = s.mem := by
  unfold drainFailure
  split <;> simp

/-! ### The functions of Machine/Drain.lean -/

@[simp] theorem wf_drainFail (s : State) (c : CubeId) (m : Cmd) (e : EngErr) (hm : Memory.wf s.mem) : Memory.wf (drainFail s c m e).mem := by
  unfold drainFail
  simp [Memory.wf, hm]
@[simp] theorem wf_drainFailLate (s : State) (c : CubeId) (m : Cmd) (e : EngErr) (hm : Memory.wf s.mem) : Memory.wf (drainFailLate s c m e).mem := by
  unfold drainFailLate
  simp [Memory.wf, hm]
@[simp] theorem memory_countSkip (s : State) (c : CubeId) : (countSkip s c).mem = s.mem := by rfl
@[simp] theorem memory_countCor (s : State) (c : CubeId) : (countCor s c).mem = s.mem := by rfl
@[simp] theorem memory_drainGo (s : State) (c : CubeId) (m : Cmd) (l : Layout) (t : Tile) : (drainGo s c m l t).mem = s.mem := by
  unfold drainGo
  simp
@[simp] theorem wf_drainStart (s : State) (c : CubeId) (id : Nat) (hm : Memory.wf s.mem) : Memory.wf (drainStart s c id).mem := by
  unfold drainStart
  simp only []
  (repeat' split) <;> simp [Memory.wf, hm]
@[simp] theorem wf_drainComplete (s : State) (c : CubeId) (id : Nat) (hm : Memory.wf s.mem) : Memory.wf (drainComplete s c id).mem := by
  unfold drainComplete
  (repeat' split) <;> simp [Memory.wf, hm]

/-! ### The functions of Machine/Block.lean -/

@[simp] theorem memory_reserveAll (s : State) (c : CubeId) (m : Cmd) (res : List (Nat × Nat × Nat)) : (reserveAll s c m res).mem = s.mem := by
  unfold reserveAll
  split <;> simp
@[simp] theorem memory_keepStore (s : State) (k : CubeId) (b : Blk) : (keepStore s k b).mem = s.mem := by rfl
@[simp] theorem wf_blkCommit (s : State) (c : CubeId) (m : Cmd) (r : BlkRun) (rp : Option (Nat × BitVec 12)) (hm : Memory.wf s.mem) : Memory.wf
    (blkCommit s c m r rp).mem := by
  unfold blkCommit
  simp only []
  split <;> simp [Memory.wf, hm]
@[simp] theorem wf_blkPerform (s : State) (c : CubeId) (id : Nat) (hm : Memory.wf s.mem) : Memory.wf (blkPerform s c id).mem := by
  unfold blkPerform
  simp only []
  (repeat' split) <;> simp [Memory.wf, hm]
@[simp] theorem wf_blkComplete (s : State) (c : CubeId) (id : Nat) (hm : Memory.wf s.mem) : Memory.wf (blkComplete s c id).mem := by
  unfold blkComplete
  (repeat' split) <;> simp [Memory.wf, hm]
@[simp] theorem memory_modEng (s : State) (c : CubeId) (f : EngRegs → EngRegs) : (modEng s c f).mem = s.mem := by rfl
@[simp] theorem memory_blkEnable (s : State) (c : CubeId) : (blkEnable s c).mem = s.mem := by
  unfold blkEnable
  simp only []
  split <;> rfl
@[simp] theorem memory_blkDisable (s : State) (c : CubeId) : (blkDisable s c).mem = s.mem := by rfl
@[simp] theorem wf_blkBuilt (s : State) (c : CubeId) (hm : Memory.wf s.mem) : Memory.wf (blkBuilt s c).mem := by
  unfold blkBuilt
  simp only []
  split <;> simp [Memory.wf, hm]

/-! ### The functions of Machine/Seq.lean -/

@[simp] theorem memory_issueEmpty (s : State) (c : CubeId) : (issueEmpty s c).mem = s.mem := by
  unfold issueEmpty
  split <;> rfl
@[simp] theorem memory_logVote (s : State) (c : CubeId) (cls : Nat) (o : VoteResult) : (logVote s c cls o).mem = s.mem := by
  unfold logVote
  split <;> rfl
@[simp] theorem memory_landOne (s : State) (c : CubeId) (k : Nat) (vote : BitVec 2) : (landOne s c k vote).mem = s.mem := by
  unfold landOne
  simp only []
  (repeat' split) <;> simp
@[simp] theorem memory_interlockArrives (s : State) (id : Nat) (vote : BitVec 2) : (interlockArrives s id vote).mem = s.mem := by
  unfold interlockArrives
  (repeat' split) <;> simp
@[simp] theorem memory_icacheFill (s : State) (c : CubeId) : (icacheFill s c).mem = s.mem := by
  unfold icacheFill
  simp only []
  (repeat' split) <;> simp
@[simp] theorem memory_appendNoise (s : State) (c : CubeId) : (appendNoise s c).mem = s.mem := by
  unfold appendNoise
  simp only []
  (repeat' split) <;> simp
@[simp] theorem memory_modRunning (s : State) (c : CubeId) (f : Ctx → Ctx) : (s.modRunning c f).mem = s.mem := by
  unfold State.modRunning
  split <;> rfl
@[simp] theorem memory_takePending (s : State) (c : CubeId) : (takePending s c).mem = s.mem := by
  unfold takePending
  simp only []
  (repeat' split) <;> simp
@[simp] theorem memory_fireWatchdog (s : State) (c : CubeId) : (fireWatchdog s c).mem = s.mem := by
  unfold fireWatchdog
  simp only []
  split <;> simp
@[simp] theorem memory_stopForDebug (s : State) (c : CubeId) : (stopForDebug s c).mem = s.mem := by
  unfold stopForDebug
  split <;> simp
@[simp] theorem memory_switchOut (s : State) (c : CubeId) (head : Bool) : (switchOut s c head).mem = s.mem := by
  unfold switchOut
  (repeat' split) <;> simp
@[simp] theorem memory_preempt (s : State) (c : CubeId) : (preempt s c).mem = s.mem := by
  unfold preempt
  (repeat' split) <;> simp
@[simp] theorem memory_switchIn (s : State) (c : CubeId) : (switchIn s c).mem = s.mem := by
  unfold switchIn
  simp only []
  (repeat' split) <;> simp
@[simp] theorem memory_expireQuantum (s : State) (c : CubeId) : (expireQuantum s c).mem = s.mem := by
  unfold expireQuantum
  simp only []
  (repeat' split) <;> simp

/-! ### The functions of Machine/Traffic.lean -/

theorem wf_onItem {s : State} (id : Nat) {f : Item → State} (hs : Memory.wf s.mem) (hf : ∀ i, Memory.wf (f i).mem) :
    Memory.wf (onItem s id f).mem := by
  unfold onItem
  split
  · exact hf _
  · exact hs
@[simp] theorem wf_arriveIf (s : State) (id : Nat) (p : ItemOp → Bool) (hm : Memory.wf s.mem) : Memory.wf (arriveIf s id p).mem := by
  unfold arriveIf
  refine wf_onItem _ hm fun i => ?_
  split <;> simp [Memory.wf, hm]
@[simp] theorem wf_commitItem (s : State) (id : Nat) (hm : Memory.wf s.mem) : Memory.wf (commitItem s id).mem := by
  unfold commitItem
  refine wf_onItem _ hm fun i => ?_
  (repeat' split) <;> simp [Memory.wf, hm]
@[simp] theorem memory_applyMsg (s : State) (k : Nat) (m : DirMsg) : (applyMsg s k m).mem = s.mem := by rfl
@[simp] theorem memory_pendTrap (s : State) (sid : Nat) (t : Trap) (id : Nat) : (s.pendTrap sid t id).mem = s.mem := by rfl
@[simp] theorem memory_losePeer (s : State) (key : Nat) : (losePeer s key).mem = s.mem := by
  unfold losePeer
  split <;> rfl
@[simp] theorem wf_loseItem (s : State) (i : Item) (err : Nat) (hm : Memory.wf s.mem) : Memory.wf (loseItem s i err).mem := by
  unfold loseItem
  simp only []
  (repeat' split) <;> simp [Memory.wf, hm]
@[simp] theorem memory_loseRead (s : State) (r : ReadReq) (t : Trap) : (loseRead s r t).mem = s.mem := by
  unfold loseRead
  split <;> rfl
@[simp] theorem memory_loseCmd (s : State) (id : Nat) (err : BitVec 8) (home : Nat) : (loseCmd s id err home).mem = s.mem := by rfl
@[simp] theorem wf_expireAck (s : State) (a : LostAccess) (hm : Memory.wf s.mem) : Memory.wf (expireAck s a).mem := by
  unfold expireAck
  (repeat' split) <;> simp [Memory.wf, hm]
@[simp] theorem memory_raiseFailed (s : State) (sid : Nat) (ids : List Nat) : (raiseFailed s sid ids).mem = s.mem := by
  unfold raiseFailed
  split
  · rfl
  · rw [memory_foldl (fun _ _ => memory_dropItem _ _)]; simp
@[simp] theorem wf_sendRelease (s : State) (id : Nat) (hm : Memory.wf s.mem) : Memory.wf (sendRelease s id).mem := by
  unfold sendRelease
  refine wf_onItem _ hm fun i => ?_
  simp only []
  split
  · exact hm
  · split
    · simp [Memory.wf, hm]
    · split
      · exact hm
      · split
        · split <;> simp [Memory.wf, hm]
        · simp [Memory.wf, hm]
@[simp] theorem memory_homeRead (s : State) (q : ReadReq) (room : Bool) : (homeRead s q room).mem = s.mem := by
  unfold homeRead
  simp only []
  (repeat' split) <;> simp
@[simp] theorem memory_startWalk (s : State) (k : Nat) : (startWalk s k).mem = s.mem := by
  unfold startWalk
  (repeat' split) <;> rfl
@[simp] theorem memory_fillTlbs (s : State) (m : Miss) (va : VA) (p : Word) (lvl : Nat) (ptrs : List (Nat × Nat)) : (fillTlbs s m va p lvl
    ptrs).mem = s.mem := by
  unfold fillTlbs
  refine memory_foldl (fun _ _ => ?_) _ _
  rfl
@[simp] theorem memory_endWalk (s : State) (k : Nat) (bad : Bool) : (endWalk s k bad).mem = s.mem := by
  unfold endWalk
  simp only []
  (repeat' split) <;> simp
@[simp] theorem memory_endTlbi (s : State) (id : Nat) : (endTlbi s id).mem = s.mem := by
  unfold endTlbi
  (repeat' split) <;> rfl
@[simp] theorem memory_wakeShelf (s : State) (c : CubeId) (i : ShelfId) : (wakeShelf s c i).mem = s.mem := by rfl
@[simp] theorem memory_wakeDeadPeers (s : State) (c : CubeId) : (wakeDeadPeers s c).mem = s.mem := by
  unfold wakeDeadPeers
  simp
@[simp] theorem memory_parkStrand (s : State) (c : CubeId) (i : ShelfId) (w : WaitInfo) : (parkStrand s c i w).mem = s.mem := by
  unfold parkStrand
  simp only []
  (repeat' split) <;> simp
@[simp] theorem memory_countFull (s : State) (c : CubeId) (w : WaitInfo) : (countFull s c w).mem = s.mem := by
  unfold countFull
  split <;> rfl
@[simp] theorem memory_waitReturns (s : State) (c : CubeId) : (waitReturns s c).mem = s.mem := by
  unfold waitReturns
  simp only []
  (repeat' split) <;> simp
@[simp] theorem memory_notifyMonitors (s : State) (c : CubeId) (addr : Nat) : (notifyMonitors s c addr).mem = s.mem := by
  unfold notifyMonitors
  simp only []
  (repeat' split) <;> simp
@[simp] theorem memory_pollMonitor (s : State) (c : CubeId) (i : ShelfId) : (pollMonitor s c i).mem = s.mem := by
  unfold pollMonitor
  simp only []
  (repeat' split) <;> simp

/-! ### The functions of Machine/Launch.lean -/

theorem wf_svcWaitAll {s : State} (needs : List (BitVec 12 × VA)) {f : State → State} (hs : Memory.wf s.mem) (hf : Memory.wf (f s).mem) :
    Memory.wf (svcWaitAll s needs f).mem := by
  unfold svcWaitAll
  split
  · simpa using hs
  · split
    · exact hf
    · exact hs
theorem wf_svcWait {s : State} (asn : BitVec 12) (vas : List VA) {f : State → State} (hs : Memory.wf s.mem) (hf : Memory.wf (f s).mem) :
    Memory.wf (svcWait s asn vas f).mem := wf_svcWaitAll _ hs hf
@[simp] theorem memory_svcDone (s : State) (asn : BitVec 12) : (svcDone s asn).mem = s.mem := by rfl
@[simp] theorem memory_svcLost (s : State) (asn : BitVec 12) (va : VA) : (svcLost s asn va).mem = s.mem := by
  unfold svcLost
  (repeat' split) <;> rfl
@[simp] theorem memory_svcTouch (s : State) (asn : BitVec 12) (need : Need) (va : VA) (n : Nat) : (svcTouch s asn need va n).mem = s.mem := by
  unfold svcTouch
  refine memory_foldl (fun _ _ => ?_) _ _
  simp only []
  (repeat' split) <;> simp
@[simp] theorem wf_svcPut (w : Service) (s : State) (t : Target) (bs : List Byte) (hm : Memory.wf s.mem) : Memory.wf (svcPut w s t bs).mem := by
  unfold svcPut
  simp [Memory.wf, hm]
@[simp] theorem wf_svcWrite (w : Service) (s : State) (asn : BitVec 12) (va : VA) (bs : List Byte) (hm : Memory.wf s.mem) : Memory.wf (svcWrite w
    s asn va bs).mem := by
  unfold svcWrite
  simp only []
  split <;> simp [Memory.wf, hm]
@[simp] theorem wf_svcAdd (w : Service) (s : State) (asn : BitVec 12) (va : VA) (amt : Word) (hm : Memory.wf s.mem) : Memory.wf (svcAdd w s asn va
    amt).mem := by
  unfold svcAdd
  simp only []
  (repeat' split) <;> simp [Memory.wf, hm]
@[simp] theorem memory_svcWalk (s : State) (asn : BitVec 12) (va : VA) : (svcWalk s asn va).mem = s.mem := by
  unfold svcWalk
  split <;> simp
@[simp] theorem wf_writeReport (s : State) (l : Launch) (status first count cube handle : Nat) (hm : Memory.wf s.mem) : Memory.wf (writeReport s l
    status first count cube handle).mem := by
  unfold writeReport
  split <;> simp [Memory.wf, hm]
@[simp] theorem memory_modLaunch (s : State) (slot : BitVec 8) (f : Launch → Launch) : (s.modLaunch slot f).mem = s.mem := by rfl
@[simp] theorem memory_releaseSlot (s : State) (slot : BitVec 8) : (releaseSlot s slot).mem = s.mem := by
  unfold releaseSlot
  (repeat' split) <;> rfl
@[simp] theorem wf_refuseTasks (s : State) (slot : BitVec 8) (status first n : Nat) (handle : Bool) (hm : Memory.wf s.mem) : Memory.wf
    (refuseTasks s slot status first n handle).mem := by
  unfold refuseTasks
  (repeat' split) <;> simp [Memory.wf, hm]
@[simp] theorem wf_refuseRest (s : State) (slot : BitVec 8) (status : Nat) (hm : Memory.wf s.mem) : Memory.wf (refuseRest s slot status).mem := by
  unfold refuseRest
  split <;> simp [Memory.wf, hm]
theorem wf_acceptPacket {s : State} (p : BitVec 512) (hs : Memory.wf s.mem) : Memory.wf (acceptPacket s p).1.mem := by
  unfold acceptPacket
  simp only []
  (repeat' split) <;> simp [Memory.wf, hs]
@[simp] theorem wf_receivePacket (s : State) (p : BitVec 512) (hm : Memory.wf s.mem) : Memory.wf (receivePacket s p).mem := by
  unfold receivePacket
  split
  · exact wf_acceptPacket _ hm
  · exact hm
@[simp] theorem wf_readHeader (s : State) (slot : BitVec 8) (hm : Memory.wf s.mem) : Memory.wf (readHeader s slot).mem := by
  unfold readHeader
  split
  · exact hm
  · split
    · exact hm
    · refine wf_svcWait _ _ hm ?_
      simp only []
      split
      · split
        · simp [Memory.wf, hm]
        · exact wf_svcWait _ _ hm (by simp [Memory.wf, hm])
      · exact wf_svcWait _ _ hm (by simp [Memory.wf, hm])
@[simp] theorem memory_handBatch (s : State) (l : Launch) (c : CubeId) : (handBatch s l c).mem = s.mem := by
  unfold handBatch
  split <;> rfl
@[simp] theorem wf_placeBatch (s : State) (slot : BitVec 8) (c : CubeId) (hm : Memory.wf s.mem) : Memory.wf (placeBatch s slot c).mem := by
  have hrefuse (l : Launch) (n : Nat) : Memory.wf (svcWait s l.asn l.answers fun s => svcDone (refuseRest s slot n) l.asn).mem :=
    wf_svcWait _ _ hm (by simp [Memory.wf, hm])
  unfold placeBatch
  split
  · exact hm
  · split
    · exact hm
    · simp only []
      split
      · exact hm
      · split
        · exact hrefuse _ _
        · split
          · exact hrefuse _ _
          · (repeat' split) <;> simp [Memory.wf, hm]
@[simp] theorem wf_settleBatch (s : State) (slot : BitVec 8) (old new : Batch) (hm : Memory.wf s.mem) : Memory.wf (settleBatch s slot old new).mem
    := by
  unfold settleBatch
  (repeat' split) <;> simp [Memory.wf, hm]
@[simp] theorem wf_stepBatch (s : State) (c : CubeId) (slot : BitVec 8) (i : Nat) (hm : Memory.wf s.mem) : Memory.wf (stepBatch s c slot i).mem := by
  unfold stepBatch
  split <;> simp [Memory.wf, hm]
@[simp] theorem wf_returnTask (s : State) (c : CubeId) (q : QTask) (hm : Memory.wf s.mem) : Memory.wf (returnTask s c q).mem := by
  unfold returnTask
  simp only []
  split <;> simp [Memory.wf, hm]
@[simp] theorem wf_returnUnfit (s : State) (c : CubeId) (hm : Memory.wf s.mem) : Memory.wf (returnUnfit s c).mem := by
  unfold returnUnfit
  refine wf_foldl (fun _ _ hs => ?_) _ hm
  simp [Memory.wf, hs]
@[simp] theorem wf_recallTasks (s : State) (slot : BitVec 8) (hm : Memory.wf s.mem) : Memory.wf (recallTasks s slot).mem :=
  wf_foldl (fun _ _ hs => wf_foldl (fun _ _ hu => wf_returnTask _ _ _ hu) _ hs) _ hm
@[simp] theorem wf_writePart (s : State) (part : BitVec 3) (v : Word) (hm : Memory.wf s.mem) : Memory.wf (writePart s part v).mem := by
  unfold writePart
  simp only []
  split
  · exact hm
  · refine wf_foldl (fun _ _ hs => ?_) _ ?_
    · split
      · exact hs
      · simpa using hs
    · split
      · exact wf_foldl (fun _ _ hs => wf_refuseRest _ _ _ (wf_recallTasks _ _ hs)) _ (by simpa using hm)
      · simpa using hm

/-! ### The functions of Machine/Train.lean -/

@[simp] theorem memory_answer (s : State) (d : SReg) (v : Word) : (answer s d v).mem = s.mem := by rfl
@[simp] theorem wf_putRecord (s : State) (key : Nat) (bs : List Byte) (hm : Memory.wf s.mem) : Memory.wf (putRecord s key bs).mem := by
  unfold putRecord
  simp [Memory.wf, hm]
@[simp] theorem wf_setRecord (s : State) (key count entry : Nat) (hm : Memory.wf s.mem) : Memory.wf (setRecord s key count entry).mem := by
  unfold setRecord
  simp [Memory.wf, hm]
@[simp] theorem wf_leaveTrain (s : State) (t : Train) (sid : Nat) (hm : Memory.wf s.mem) : Memory.wf (leaveTrain s t sid).mem := by
  unfold leaveTrain
  simp only []
  split <;> simp [Memory.wf, hm]
@[simp] theorem wf_leaveAll (s : State) (sid : Nat) (hm : Memory.wf s.mem) : Memory.wf (leaveAll s sid).mem := by
  unfold leaveAll
  split <;> simp [Memory.wf, hm]
theorem wf_addMember {s : State} (key sid : Nat) (hs : Memory.wf s.mem) : Memory.wf (addMember s key sid).1.mem := by
  unfold addMember
  simp only []
  split <;> simp [Memory.wf, hs]
theorem wf_joinTrain {s : State} (key sid : Nat) (hs : Memory.wf s.mem) : Memory.wf (joinTrain s key sid).1.mem := by
  unfold joinTrain
  split
  · exact hs
  · split
    · exact wf_addMember _ _ hs
    · split
      · exact hs
      · simp only []
        refine wf_addMember _ _ ?_
        simp [Memory.wf, hs]
theorem wf_leaveOf {s : State} (key sid : Nat) (hs : Memory.wf s.mem) : Memory.wf (leaveOf s key sid).1.mem := by
  unfold leaveOf
  (repeat' split) <;> simp [Memory.wf, hs]
theorem wf_onRecord {s : State} (a : Src) (t : Target) {f : State → State} (hs : Memory.wf s.mem)
    (hf : ∀ u, Memory.wf u.mem → Memory.wf (f u).mem) : Memory.wf (onRecord s a t f).mem := by
  unfold onRecord
  simp only []
  split
  · simpa using hs
  · exact hf _ (by simpa using hs)
@[simp] theorem wf_sendPacket (s : State) (x : Ctx) (d : SReg) (b : Word) (p : BitVec 512) (hm : Memory.wf s.mem) :
    Memory.wf (sendPacket s x d b p).mem := by
  have ha := wf_acceptPacket p hm
  unfold sendPacket
  split
  · simpa using ha
  · simp [Memory.wf, hm]
@[simp] theorem memory_markLostPeer (s : State) (b : Word) : (markLostPeer s b).mem = s.mem := by
  unfold markLostPeer
  (repeat' split) <;> rfl

/-! ### The functions of Machine/Sched.lean -/

@[simp] theorem memory_dropFailed (s : State) (sid : Nat) : (dropFailed s sid).mem = s.mem := by rfl
@[simp] theorem wf_admitTask (s : State) (c : CubeId) (hm : Memory.wf s.mem) : Memory.wf (admitTask s c).mem := by
  unfold admitTask
  simp only []
  (repeat' split) <;> simp [Memory.wf, hm]
theorem wf_copyImage {s t : State} {l : Launch} {va : VA} {n key : Nat} (ht : copyImage s l va n key = some t) (hm : Memory.wf s.mem) :
    Memory.wf t.mem := by
  unfold copyImage at ht
  obtain ⟨bs, -, rfl⟩ := Option.map_eq_some_iff.mp ht
  exact wf_placeCells _ _ _ hm
theorem wf_loadStores {s t : State} {c : CubeId} {l : Launch} {h : Header} {x : Ctx} (ht : loadStores s c l h x = some t)
    (hm : Memory.wf s.mem) : Memory.wf t.mem := by
  unfold loadStores at ht
  simp only [] at ht
  split at ht
  · next hu => exact wf_copyImage ht (wf_copyImage hu hm)
  · cases ht
@[simp] theorem wf_refuseStart (s : State) (c : CubeId) (i : ShelfId) (x : Ctx) (hm : Memory.wf s.mem) : Memory.wf (refuseStart s c i x).mem := by
  unfold refuseStart
  simp [Memory.wf, hm]
@[simp] theorem wf_beginStrand (s : State) (c : CubeId) (i : ShelfId) (x : Ctx) (l : Launch) (h : Header) (ps : List (Nat × Nat × BitVec 7)) (sps
    : List (Nat × Spool)) (hm : Memory.wf s.mem) : Memory.wf (beginStrand s c i x l h ps sps).mem := by
  unfold beginStrand
  simp [Memory.wf, hm]
@[simp] theorem wf_startTask (s : State) (c : CubeId) (i : ShelfId) (hm : Memory.wf s.mem) : Memory.wf (startTask s c i).mem := by
  have htouch (rs : List (VA × Nat)) (l : Launch) : Memory.wf (rs.foldl (fun s r => svcTouch s l.asn .read r.1 r.2) s).mem := by
    simpa using hm
  unfold startTask
  split
  · exact hm
  · split
    · exact hm
    · split
      · exact hm
      · split
        · exact hm
        · refine wf_svcWait _ _ hm ?_
          simp only []
          split
          · next ht => exact wf_svcWait _ _ hm (by simp [Memory.wf, wf_loadStores ht (htouch _ _)])
          · exact wf_svcWait _ _ hm (by simpa [Memory.wf] using wf_refuseStart _ _ _ _ (htouch _ _))
@[simp] theorem wf_retire (s : State) (sid : Nat) (slot : BitVec 8) (hm : Memory.wf s.mem) : Memory.wf (retire s sid slot).mem := by
  unfold retire
  simp [Memory.wf, hm]
@[simp] theorem wf_completeHalt (s : State) (c : CubeId) (i : ShelfId) (hm : Memory.wf s.mem) : Memory.wf (completeHalt s c i).mem := by
  unfold completeHalt
  split
  · exact hm
  · split
    · exact hm
    · split
      · simpa using hm
      · split
        · simpa using hm
        · split
          · split
            · exact wf_svcWait _ _ hm (by simp [Memory.wf, hm])
            · simpa using hm
          · exact hm
@[simp] theorem wf_faultEntry (s : State) (l : Launch) (x : Ctx) (c : CubeId) (cause : BitVec 8) (hm : Memory.wf s.mem) :
    Memory.wf (faultEntry s l x c cause).mem := by
  unfold faultEntry
  split
  · exact hm
  · extract_lets r put claim s1 s2
    have h1 : Memory.wf s1.mem := by simpa [s1] using hm
    refine wf_svcAdd _ _ _ _ _ ?_
    simp only [s2]
    split
    · split
      · have hput (u : State) (k : Nat) (w : Word) (hu : Memory.wf u.mem) : Memory.wf (put u k w).mem := wf_svcWrite _ _ _ _ _ hu
        exact hput _ _ _ (hput _ _ _ (hput _ _ _ (hput _ _ _ (hput _ _ _ h1))))
      · exact h1
    · exact h1
@[simp] theorem wf_endByError (s : State) (c : CubeId) (x : Ctx) (cause : BitVec 8) (hm : Memory.wf s.mem) :
    Memory.wf (endByError s c x cause).mem := by
  unfold endByError
  split
  · exact wf_retire _ _ _ (wf_svcAdd _ _ _ _ _ (wf_faultEntry _ _ _ _ _ hm))
  · exact hm
@[simp] theorem memory_endDone (s : State) (x : Ctx) (t : State) : (endDone s x t).mem = t.mem := by
  unfold endDone
  split <;> simp
@[simp] theorem wf_endStrand (s : State) (c : CubeId) (i : ShelfId) (cause : BitVec 8) (hm : Memory.wf s.mem) :
    Memory.wf (endStrand s c i cause).mem := by
  unfold endStrand
  split
  · exact hm
  · simp only []
    split
    · exact hm
    · refine wf_ite hm (wf_ite (wf_ite ?_ hm) (wf_ite (wf_svcWaitAll _ ?_ ?_) ?_))
      all_goals simp [Memory.wf, hm]
@[simp] theorem memory_writeSchEnd (s : State) (c : CubeId) (v : Word) : (writeSchEnd s c v).mem = s.mem := by
  unfold writeSchEnd
  simp only []
  (repeat' split) <;> simp
theorem memory_reserveRecords {s t : State} {xs : List Ctx} (h : reserveRecords s xs = some t) : t.mem = s.mem := by
  unfold reserveRecords at h
  have ho : ∀ u, some s = some u → u.mem = s.mem := by rintro u ⟨⟩; rfl
  generalize some s = o at h ho
  induction xs generalizing o with
  | nil => exact ho _ h
  | cons x xs ih =>
    refine ih _ h fun u hu => ?_
    obtain ⟨v, hv, hw⟩ := Option.bind_eq_some_iff.mp hu
    obtain ⟨w, -, rfl⟩ := Option.map_eq_some_iff.mp hw
    exact ho v hv
@[simp] theorem memory_dropSave (s : State) (sid : Nat) : (dropSave s sid).mem = s.mem := by rfl
@[simp] theorem memory_readForSave (s : State) (c : CubeId) (p : Partition) : (readForSave s c p).mem = s.mem := by
  unfold readForSave
  simp
@[simp] theorem wf_saveRecord (s : State) (c : CubeId) (x : Ctx) (unit : Nat) (hm : Memory.wf s.mem) : Memory.wf (saveRecord s c x unit).mem := by
  unfold saveRecord
  simp [Memory.wf, hm]
@[simp] theorem memory_readRecord (s : State) (p : Partition) (unit : Nat) : (readRecord s p unit).mem = s.mem := by
  unfold readRecord
  simp
@[simp] theorem wf_restoreStores (s : State) (c : CubeId) (p : Partition) (asn : BitVec 12) (unit : Nat) (hm : Memory.wf s.mem) : Memory.wf
    (restoreStores s c p asn unit).mem := by
  unfold restoreStores
  simp [Memory.wf, hm]
@[simp] theorem memory_beginEviction (s : State) (c : CubeId) (i : ShelfId) : (beginEviction s c i).mem = s.mem := by
  unfold beginEviction
  split <;> simp
@[simp] theorem memory_evictFrom (s : State) (c : CubeId) (i : ShelfId) : (evictFrom s c i).mem = s.mem := by
  unfold evictFrom
  split
  · rfl
  · extract_lets group
    split
    · split
      · next h => rw [memory_foldl (fun _ _ => memory_beginEviction _ _ _), memory_reserveRecords h]
      · rfl
    · rfl
@[simp] theorem memory_migrate (s : State) (c : CubeId) (i : ShelfId) : (migrate s c i).mem = s.mem := by
  unfold migrate
  split
  · rfl
  · split
    · split
      · next h => simp [memory_reserveRecords h]
      · rfl
    · rfl
@[simp] theorem memory_callOff (s : State) (y : CubeId × ShelfId × Ctx) : (callOff s y).mem = s.mem := by
  unfold callOff
  simp
@[simp] theorem wf_completeEviction (s : State) (c : CubeId) (i : ShelfId) (hm : Memory.wf s.mem) : Memory.wf (completeEviction s c i).mem := by
  unfold completeEviction
  simp only []
  (repeat' split) <;> simp [Memory.wf, hm]
theorem wf_getD_copyImage {s u : State} {l : Launch} {va : VA} {n key : Nat} (hs : Memory.wf s.mem) (hu : Memory.wf u.mem) :
    Memory.wf ((copyImage u l va n key).getD s).mem := by
  cases hc : copyImage u l va n key with
  | none => exact hs
  | some t => exact wf_copyImage hc hu
theorem wf_restoreOn {s t : State} {e : Evicted} {c : CubeId} (h : restoreOn s e c = some t) (hm : Memory.wf s.mem) :
    Memory.wf t.mem := by
  have hr (p : Partition) (a : BitVec 12) : Memory.wf (restoreStores s c p a e.unit).mem := wf_restoreStores _ _ _ _ _ hm
  unfold restoreOn at h
  extract_lets k at h
  split at h
  · cases h
  · split at h
    · simp only [Option.some.injEq] at h
      obtain rfl := h
      simp only [mem_modAtl, mem_modCube]
      split
      · exact wf_getD_copyImage (hr _ _) (by simpa using hr _ _)
      · exact hr _ _
    · cases h
theorem wf_restoreAll {es : List Evicted} {s t : State} (h : restoreAll es s = some t) (hm : Memory.wf s.mem) : Memory.wf t.mem := by
  induction es generalizing s with
  | nil => obtain rfl := Option.some.inj h; exact hm
  | cons e es ih =>
    unfold restoreAll at h
    split at h
    · next hf =>
      obtain ⟨c, -, hc⟩ := List.exists_of_findSome?_eq_some hf
      exact ih h (wf_restoreOn hc hm)
    · cases h
@[simp] theorem wf_endEvicted (s : State) (e : Evicted) (cause : BitVec 8) (hm : Memory.wf s.mem) :
    Memory.wf (endEvicted s e cause).mem :=
  wf_svcWaitAll _ hm (by simp [Memory.wf, hm])
@[simp] theorem wf_returnGroup (s : State) (e : Evicted) (ms : List Evicted) (c : CubeId) (hm : Memory.wf s.mem) :
    Memory.wf (returnGroup s e ms c).mem := by
  unfold returnGroup
  extract_lets t
  have ht : Memory.wf t.mem := by simpa [t] using hm
  refine wf_ite ht ?_
  split
  · next h =>
    split
    · next h' =>
      rw [Memory.wf, memory_foldl (fun _ _ => memory_endDone _ _ _)]
      exact wf_restoreAll h' (wf_restoreOn h ht)
    · exact hm
  · exact hm
@[simp] theorem wf_readmit (s : State) (k : Nat) (c : CubeId) (hm : Memory.wf s.mem) : Memory.wf (readmit s k c).mem := by
  unfold readmit
  split
  · exact hm
  · split
    · exact wf_endEvicted _ _ _ hm
    · refine wf_ite (wf_endEvicted _ _ _ hm) ?_
      extract_lets first here
      split
      · exact wf_ite (wf_svcWaitAll _ hm (wf_returnGroup _ _ _ _ hm)) hm
      · exact hm

end Sys2Proof.Machine

namespace Sys2Proof.Machine
open Sys2Proof.Say
/-! PROOFS. O11, third part: the functions of the conservator, of power, of the boot and of the units. -/

/-! ### The functions of Machine/Conservator.lean -/

@[simp] theorem memory_modCon (s : State) (c : CubeId) (f : ConRegs → ConRegs) : (modCon s c f).mem = s.mem := by rfl
@[simp] theorem memory_edgeError (s : State) (c : CubeId) (key : Nat) (bad : Bool) : (edgeError s c key bad).mem = s.mem := by
  unfold edgeError
  simp only []
  (repeat' split) <;> simp
@[simp] theorem memory_scrub (s : State) (c : CubeId) (store : BitVec 3) (outcome : BitVec 2) : (scrub s c store outcome).mem = s.mem := by
  unfold scrub
  extract_lets q
  split
  · extract_lets st n s1
    have h1 : s1.mem = s.mem := by simp [s1]
    split
    · rfl
    · split
      · exact h1
      · split
        · exact h1
        · split
          · split <;> simp [h1]
          · split <;> simp [h1]
          · exact h1
  · rfl
@[simp] theorem memory_writeInjCtl (s : State) (c : CubeId) (v : Word) : (writeInjCtl s c v).mem = s.mem := by rfl
@[simp] theorem memory_writeInjAddr (s : State) (c : CubeId) (v : Word) : (writeInjAddr s c v).mem = s.mem := by rfl
@[simp] theorem memory_startTest (s : State) (c : CubeId) (cls : Nat) : (startTest s c cls).mem = s.mem := by
  unfold startTest
  split <;> simp
@[simp] theorem wf_fenceClass (s : State) (c : CubeId) (cls : Nat) (hm : Memory.wf s.mem) : Memory.wf (fenceClass s c cls).mem := by
  unfold fenceClass
  split <;> simp [Memory.wf, hm]
@[simp] theorem wf_endTest (s : State) (c : CubeId) (cls : Nat) (bad : Bool) (hm : Memory.wf s.mem) : Memory.wf (endTest s c cls bad).mem := by
  unfold endTest
  simp only []
  (repeat' split) <;> simp [Memory.wf, hm]
@[simp] theorem memory_refuseRetire (s : State) (c : CubeId) : (refuseRetire s c).mem = s.mem := by rfl
@[simp] theorem memory_acceptRetire (s : State) (c : CubeId) : (acceptRetire s c).mem = s.mem := by rfl
@[simp] theorem memory_setLife (s : State) (c : CubeId) (l : CubeLife) : (setLife s c l).mem = s.mem := by rfl
@[simp] theorem memory_retireFence (s : State) (c : CubeId) : (retireFence s c).mem = s.mem := by
  unfold retireFence
  split <;> simp
@[simp] theorem memory_retireEvacuate (s : State) (c : CubeId) : (retireEvacuate s c).mem = s.mem := by
  unfold retireEvacuate
  simp only []
  (repeat' split) <;> simp
@[simp] theorem memory_fireIn (s : State) (here : Nat → Bool) : (fireIn s here).mem = s.mem := by
  unfold fireIn
  simp
theorem wf_replaced (p : Host.Cell → Bool) (cells : List (Nat × Byte)) {s : State} (hm : Memory.wf s.mem) :
    Memory.wf (memWrite (s.mem.filter p) cells) := wf_memWrite _ _ (wf_filter _ _ hm)
@[simp] theorem wf_moveGranule_of_wf (src : Nat) (s : State) (dst : Nat) (hm : Memory.wf s.mem) : Memory.wf (moveGranule src s dst).mem := by
  unfold moveGranule
  simp only [memory_notifyWatches]
  exact wf_replaced _ _ hm
@[simp] theorem wf_copyGranule (s : State) (c : CubeId) (hm : Memory.wf s.mem) : Memory.wf (copyGranule s c).mem := by
  unfold copyGranule
  split
  · simp only [memory_modCon]
    exact wf_foldl (fun _ _ hs => wf_moveGranule_of_wf _ _ _ hs) _ (by simpa using hm)
  · exact hm
@[simp] theorem memory_retireFinish (s : State) (c : CubeId) : (retireFinish s c).mem = s.mem := by
  unfold retireFinish
  split <;> rfl

/-! ### The functions of Machine/Power.lean -/

@[simp] theorem memory_modLayer (s : State) (c : CubeId) (l : Fin 8) (f : LayerPwr → LayerPwr) : (modLayer s c l f).mem = s.mem := by rfl
@[simp] theorem memory_modLayers (s : State) (c : CubeId) (f : Fin 8 → LayerPwr → LayerPwr) : (modLayers s c f).mem = s.mem := by rfl
@[simp] theorem memory_limiterTick (s : State) (c : CubeId) (es : List Nat) : (limiterTick s c es).mem = s.mem := by rfl
@[simp] theorem memory_gateLayer (s : State) (c : CubeId) (l : Fin 8) : (gateLayer s c l).mem = s.mem := by
  unfold gateLayer
  simp only []
  split <;> rfl
@[simp] theorem memory_sampleCube (s : State) (c : CubeId) (ts : Temps) : (sampleCube s c ts).mem = s.mem := by rfl
@[simp] theorem memory_raiseThermal (s : State) (c : CubeId) (l : Fin 8) : (raiseThermal s c l).mem = s.mem := by
  unfold raiseThermal
  split <;> rfl
@[simp] theorem memory_lowerThermal (s : State) (c : CubeId) (l : Fin 8) : (lowerThermal s c l).mem = s.mem := by
  unfold lowerThermal
  split <;> rfl
@[simp] theorem memory_requestMigration (s : State) (c : CubeId) (l : Fin 8) : (requestMigration s c l).mem = s.mem := by
  unfold requestMigration
  simp only []
  split <;> rfl
@[simp] theorem memory_receiveBroadcast (s : State) (bs : List Byte) : (receiveBroadcast s bs).mem = s.mem := by
  unfold receiveBroadcast
  simp only []
  (repeat' split) <;> simp
@[simp] theorem memory_governorTick (s : State) (ps : List Nat) : (governorTick s ps).mem = s.mem := by
  unfold governorTick
  split <;> rfl
@[simp] theorem memory_railMoves (s : State) (mv : Nat) : (railMoves s mv).mem = s.mem := by
  unfold railMoves
  split <;> rfl
@[simp] theorem memory_gessoPowerDown (s : State) : (gessoPowerDown s).mem = s.mem := by rfl

/-! ### The functions of Machine/Fabric.lean -/

@[simp] theorem memory_dropPacket (s : State) : (dropPacket s).mem = s.mem := by rfl
@[simp] theorem memory_replyAll (s : State) (vs : List Word) : (replyAll s vs).mem = s.mem := by rfl
@[simp] theorem memory_reply (s : State) (v : Word) : (reply s v).mem = s.mem := by rfl
theorem memory_outsideRead (s : State) (d n : Nat) : (outsideRead s d n).1.mem = s.mem := by
  unfold outsideRead
  simp only []
  split <;> simp
@[simp] theorem wf_outsideWrite (s : State) (mode : Mode) (glob : Bool) (cells : List (Nat × Byte)) (hm : Memory.wf s.mem) : Memory.wf
    (outsideWrite s mode glob cells).mem := by
  unfold outsideWrite
  simp [Memory.wf, hm]
theorem wf_outsideAtomic {s : State} (mode : Mode) (op : ItemOp) (hs : Memory.wf s.mem) : Memory.wf (outsideAtomic s mode op).1.mem := by
  unfold outsideAtomic
  simp only []
  split <;> simp [Memory.wf, hs]
@[simp] theorem wf_peerLaunch (s : State) (p : Nat) (pkt : BitVec 512) (hm : Memory.wf s.mem) : Memory.wf (peerLaunch s p pkt).mem := by
  unfold peerLaunch
  split <;> simp [Memory.wf, hm]
theorem wf_peerPerform {s : State} (p kind d : Nat) (data : List Byte) (hs : Memory.wf s.mem) :
    Memory.wf (peerPerform s p kind d data).1.mem := by
  have hread : Memory.wf (outsideRead s d data.length).1.mem := wf_of_memory (memory_outsideRead _ _ _) hs
  have hatom (op : ItemOp) := wf_outsideAtomic .task op hs
  unfold peerPerform
  split
  · split
    all_goals
      next h => exact wf_of_fst h hread
  · split
    · simp only []
      split <;> simp [Memory.wf, hs]
    · simp [Memory.wf, hs]
  · split
    · simp only []
      split <;> simp [Memory.wf, hs]
    · simp [Memory.wf, hs]
  · split
    · next op _ =>
      split
      all_goals
        next h => exact wf_of_fst h (hatom op)
    · exact hs
@[simp] theorem wf_refusedByPeer (s : State) (p id : Nat) (hm : Memory.wf s.mem) : Memory.wf (refusedByPeer s p id).mem := by
  unfold refusedByPeer
  (repeat' split) <;> simp [Memory.wf, hm]
@[simp] theorem memory_advanceLine (s : State) (r : PeerReq) : (advanceLine s r).mem = s.mem := by rfl
@[simp] theorem wf_answerRequest (s : State) (r : PeerReq) (hm : Memory.wf s.mem) : Memory.wf (answerRequest s r).mem := by
  have hp := wf_peerPerform r.peer.toNat r.kind r.dpa r.data hm
  unfold answerRequest
  split
  · split
    · next h => exact wf_ite (by simpa using wf_of_fst h hp) (by simpa using wf_of_fst h hp)
    · next h => simpa using wf_of_fst h hp
  · simpa using hm
@[simp] theorem wf_releaseLine (n : Nat) (s : State) (r : PeerReq) (hm : Memory.wf s.mem) : Memory.wf (releaseLine n s r).mem := by
  induction n generalizing s with
  | zero => exact hm
  | succ n ih =>
    unfold releaseLine
    split
    · exact ih _ (wf_answerRequest _ _ hm)
    · exact hm
@[simp] theorem wf_takeRequest (s : State) (r : PeerReq) (hm : Memory.wf s.mem) : Memory.wf (takeRequest s r).mem := by
  unfold takeRequest
  split
  · simpa using hm
  · split
    · exact wf_ite hm hm
    · exact wf_releaseLine _ _ _ (wf_answerRequest _ _ hm)
@[simp] theorem wf_peerWrites (s : State) (p d : Nat) (data : List Byte) (hm : Memory.wf s.mem) : Memory.wf (peerWrites s p d data).mem := by
  unfold peerWrites
  (repeat' split) <;> simp [Memory.wf, hm, wf_memWrite]
@[simp] theorem wf_incomingRequest (s : State) (r : PeerReq) (hm : Memory.wf s.mem) : Memory.wf (incomingRequest s r).mem := by
  unfold incomingRequest
  simp only []
  (repeat' split) <;> simp [Memory.wf, hm]
@[simp] theorem wf_reducePacket (s : State) (peer : BitVec 10) (pid : Word) (addr op : Nat) (v : Word) (hm : Memory.wf s.mem) :
    Memory.wf (reducePacket s peer pid addr op v).mem := by
  have ha (o : ItemOp) := wf_outsideAtomic .task o hm
  unfold reducePacket
  refine wf_ite (by simpa using hm) (wf_ite (by simpa using hm) ?_)
  split
  · simpa using hm
  · refine wf_ite ?_ (by simpa using hm)
    split
    all_goals
      next h => simpa using wf_of_fst h (ha _)
@[simp] theorem memory_writeDead (s : State) (k : BitVec 4) (v : Word) : (writeDead s k v).mem = s.mem := by rfl
@[simp] theorem wf_discardPair (s : State) (p : Nat) (hm : Memory.wf s.mem) : Memory.wf (discardPair s p).mem := by
  unfold discardPair
  refine wf_foldl (fun _ _ hs => ?_) _ hm
  simp [Memory.wf, hs]
@[simp] theorem wf_handshakeDone (s : State) (peer : BitVec 10) (hm : Memory.wf s.mem) : Memory.wf (handshakeDone s peer).mem := by
  unfold handshakeDone
  split <;> simp [Memory.wf, hm]
@[simp] theorem memory_modPort (s : State) (n : Fin 71) (f : Port → Port) : (modPort s n f).mem = s.mem := by rfl
@[simp] theorem memory_routePair (s : State) (sid p : Nat) : (routePair s sid p).mem = s.mem := by
  unfold routePair
  split <;> rfl
@[simp] theorem memory_countReplay (s : State) (n : Fin 71) : (countReplay s n).mem = s.mem := by
  unfold countReplay
  split <;> rfl
@[simp] theorem memory_warnReplays (s : State) (n : Fin 71) : (warnReplays s n).mem = s.mem := by
  unfold warnReplays
  simp only []
  split <;> rfl
@[simp] theorem memory_retrainPort (s : State) (n : Fin 71) (lanes : Nat) (ok : Bool) : (retrainPort s n lanes ok).mem = s.mem := by
  unfold retrainPort
  simp only []
  split <;> simp

/-! ### The functions of Machine/Boot.lean -/

@[simp] theorem memory_modSecu (s : State) (f : Security → Security) : (modSecu s f).mem = s.mem := by rfl
@[simp] theorem memory_bootFails (s : State) (code : BitVec 8) : (bootFails s code).mem = s.mem := by rfl
@[simp] theorem memory_keepRows (s old : State) : (keepRows s old).mem = s.mem := by rfl
@[simp] theorem wf_resetPackage (s : State) (f : FlashSlots) (hm : Memory.wf s.mem) : Memory.wf (resetPackage s f).mem := by
  have ho : Memory.wf (outsideMemory s.mem) := wf_filter _ _ hm
  unfold resetPackage
  simp only []
  split <;> simpa using ho
@[simp] theorem memory_repairRow (s : State) (c : CubeId) (row : Nat) : (repairRow s c row).mem = s.mem := by
  unfold repairRow
  simp only []
  split <;> rfl
@[simp] theorem memory_repairRows (s : State) (c : CubeId) : (repairRows s c).mem = s.mem := by
  unfold repairRows
  simp
@[simp] theorem memory_bootCube (s : State) (c : CubeId) (r : BootResult) : (bootCube s c r).mem = s.mem := by
  unfold bootCube
  simp only []
  split
  all_goals
    split <;> simp
@[simp] theorem memory_bootTests (s : State) (b : BootStep) : (bootTests s b).mem = s.mem := by
  unfold bootTests
  split
  · split <;> simp
  · split
    · rfl
    · split <;> simp
@[simp] theorem memory_startFirmware (s : State) (c : CubeId) (rt sec : CodeBounds) (h : HandlerEntries) : (startFirmware s c rt sec h).mem =
    s.mem := by
  unfold startFirmware
  simp only []
  split <;> rfl
@[simp] theorem memory_startStudio (s : State) (i : FirmwareImage) (rt sec : CodeBounds) (h : HandlerEntries) :
    (startStudio s i rt sec h).mem = s.mem := by
  unfold startStudio
  split
  · rfl
  · split <;> simp
@[simp] theorem memory_hostAbort (s : State) : (hostAbort s).mem = s.mem := by rfl
@[simp] theorem wf_hostCounter (s : State) (off size : Nat) (op : ItemOp) (hm : Memory.wf s.mem) :
    Memory.wf (hostCounter s off size op).mem := by
  have ha := wf_outsideAtomic .runtime op hm
  unfold hostCounter
  refine wf_ite ?_ (by simpa using hm)
  split
  all_goals
    next h => simpa using wf_of_fst h ha
@[simp] theorem memory_bar0Read (s : State) (off size : Nat) : (bar0Read s off size).mem = s.mem := by
  unfold bar0Read
  (repeat' split) <;> rfl
@[simp] theorem wf_hostAccess (s : State) (op : HostOp) (off size : Nat) (v : Word) (hm : Memory.wf s.mem) :
    Memory.wf (hostAccess s op off size v).mem := by
  have hr : Memory.wf (outsideRead s off size).1.mem := wf_of_memory (memory_outsideRead _ _ _) hm
  unfold hostAccess
  split
  · refine wf_ite ?_ (by simpa using hm)
    split
    all_goals
      next h => simpa using wf_of_fst h hr
  · exact wf_ite (wf_outsideWrite _ _ _ _ hm) (by simpa using hm)
  · exact wf_hostCounter _ _ _ _ hm
  · exact wf_hostCounter _ _ _ _ hm
  · simpa using hm
@[simp] theorem wf_settleDecoder (s : State) (p : DecoderPlace) (hm : Memory.wf s.mem) : Memory.wf (settleDecoder s p).mem := by
  unfold settleDecoder
  simp only []
  (repeat' split) <;> simp [Memory.wf, hm, wf_memWrite]
@[simp] theorem wf_componentWrite (s : State) (b off : Nat) (bytes : List Byte) (hm : Memory.wf s.mem) :
    Memory.wf (componentWrite s b off bytes).mem :=
  wf_foldl (fun _ _ hs => wf_settleDecoder _ _ hs) _ (wf_placeCells _ _ _ hm)
@[simp] theorem wf_commitDecoder (s : State) (p : DecoderPlace) (base len : Nat) (il : Interleave) (hm : Memory.wf s.mem) :
    Memory.wf (commitDecoder s p base len il).mem := wf_componentWrite _ _ _ _ hm
@[simp] theorem memory_attest (s : State) (nonce : Word) : (attest s nonce).mem = s.mem := by rfl
@[simp] theorem memory_debugHalt (s : State) (c : CubeId) : (debugHalt s c).mem = s.mem := by
  unfold debugHalt
  (repeat' split) <;> simp
@[simp] theorem memory_debugResume (s : State) (c : CubeId) : (debugResume s c).mem = s.mem := by
  unfold debugResume
  split <;> rfl
@[simp] theorem memory_modFab (s : State) (f : FabRegs → FabRegs) : (modFab s f).mem = s.mem := by rfl
@[simp] theorem memory_writeCkptCtl (s : State) (v : Word) : (writeCkptCtl s v).mem = s.mem := by
  unfold writeCkptCtl
  simp only []
  split <;> rfl
@[simp] theorem wf_copyStack (s : State) (k dst : Nat) (hm : Memory.wf s.mem) : Memory.wf (copyStack s k dst).mem := wf_replaced _ _ hm
@[simp] theorem wf_spoilStack (s : State) (k dst : Nat) (hm : Memory.wf s.mem) : Memory.wf (spoilStack s k dst).mem :=
  wf_memWrite _ _ hm
@[simp] theorem wf_endCkpt (s : State) (ok : Bool) (hm : Memory.wf s.mem) : Memory.wf (endCkpt s ok).mem := by
  unfold endCkpt
  split
  · exact hm
  · simp only [memory_modFab]
    refine wf_foldl (fun _ _ hs => ?_) _ (by simpa using hm)
    exact wf_ite (wf_copyStack _ _ _ hs) (wf_spoilStack _ _ _ hs)

/-! ### The functions of Machine/SysWrite.lean -/

@[simp] theorem memory_modCregs (s : State) (c : CubeId) (f : CoreRegs → CoreRegs) : (modCregs s c f).mem = s.mem := by rfl
@[simp] theorem wf_writeSeq (s : State) (c : CubeId) (n : Nat) (v : Word) (hm : Memory.wf s.mem) : Memory.wf (writeSeq s c n v).mem := by
  unfold writeSeq
  (repeat' split) <;> simp [Memory.wf, hm]
@[simp] theorem memory_writeBlkCtl (s : State) (c : CubeId) (v : Word) : (writeBlkCtl s c v).mem = s.mem := by
  unfold writeBlkCtl
  simp only []
  (repeat' split) <;> simp
@[simp] theorem memory_modRegion (s : State) (c : CubeId) (f : EngRegs → EngRegs) : (modRegion s c f).mem = s.mem := by
  unfold modRegion
  split <;> rfl
@[simp] theorem memory_writeEng (s : State) (c : CubeId) (n : Nat) (v : Word) : (writeEng s c n v).mem = s.mem := by
  unfold writeEng
  (repeat' split) <;> simp
@[simp] theorem memory_modWindow (s : State) (f : FabRegs → FabRegs) : (modWindow s f).mem = s.mem := by
  unfold modWindow
  split <;> rfl
@[simp] theorem memory_writeFab (s : State) (n : Nat) (v : Word) : (writeFab s n v).mem = s.mem := by
  unfold writeFab
  (repeat' split) <;> simp
@[simp] theorem memory_writeRetire (s : State) (c : CubeId) (v : Word) : (writeRetire s c v).mem = s.mem := by
  unfold writeRetire
  (repeat' split) <;> simp
@[simp] theorem memory_writeCon (s : State) (c : CubeId) (n : Nat) (v : Word) : (writeCon s c n v).mem = s.mem := by
  unfold writeCon
  split <;> simp
@[simp] theorem memory_modPwr (s : State) (c : CubeId) (f : PwrRegs → PwrRegs) : (modPwr s c f).mem = s.mem := by rfl
@[simp] theorem memory_writeThreshold (s : State) (c : CubeId) (f : PwrRegs → PwrRegs) : (writeThreshold s c f).mem = s.mem := by
  unfold writeThreshold
  split <;> rfl
@[simp] theorem memory_modPower (s : State) (f : PkgPower → PkgPower) : (modPower s f).mem = s.mem := by rfl
@[simp] theorem memory_writePwr (s : State) (c : CubeId) (n : Nat) (v : Word) : (writePwr s c n v).mem = s.mem := by
  unfold writePwr
  (repeat' split) <;> simp
@[simp] theorem memory_writeSec (s : State) (c : CubeId) (n : Nat) (v : Word) : (writeSec s c n v).mem = s.mem := by
  unfold writeSec
  (repeat' split) <;> simp
@[simp] theorem wf_sysWrite (s : State) (c : CubeId) (m : Mode) (n : Nat) (v : Word) (hm : Memory.wf s.mem) : Memory.wf (sysWrite s c m n v).mem := by
  unfold sysWrite
  (repeat' split) <;> simp [Memory.wf, hm]
@[simp] theorem wf_refuseWrite (s : State) (who : Writer) (hm : Memory.wf s.mem) : Memory.wf (refuseWrite s who).mem := by
  unfold refuseWrite
  split
  · exact hm
  · simpa using hm
  · refine wf_foldl (fun _ _ hs => ?_) _ hm
    split
    · refine wf_ite hs ?_
      simp only [mem_modCube]
      exact wf_breakLine _ _ _ _ (wf_faultRecord _ _ _ _ _ hs)
    · exact hs
@[simp] theorem wf_shelfWrite (s : State) (c : CubeId) (i : ShelfId) (off : Nat) (bytes : List Byte) (who : Writer) (hm : Memory.wf s.mem) :
    Memory.wf (shelfWrite s c i off bytes who).mem := by
  unfold shelfWrite
  (repeat' split) <;> simp [Memory.wf, hm]
@[simp] theorem wf_windowOp (s : State) (w : WindowOp) (hm : Memory.wf s.mem) : Memory.wf (windowOp s w).mem := by
  cases w with
  | shelf c i off bytes who => exact wf_shelfWrite _ _ _ _ _ _ hm
  | sysreg c n v m => exact wf_sysWrite _ _ _ _ _ hm
  | aperture b bytes => exact wf_ite (wf_receivePacket _ _ hm) hm
  | component b off bytes => exact wf_componentWrite _ _ _ _ hm
@[simp] theorem wf_stepWindow (s : State) (hm : Memory.wf s.mem) : Memory.wf (stepWindow s).mem := by
  unfold stepWindow
  split
  · exact hm
  · exact wf_windowOp _ _ hm

/-! ### The functions of Machine/VInt.lean -/

@[simp] theorem memory_vout (s : State) (l : Nat) (u : Bool) (m : Mods) (d : VReg) (bytes : Nat) (k : MReg) (es : List Nat) : (s.vout l u m d
    bytes k es).mem = s.mem := by
  unfold State.vout
  simp
@[simp] theorem memory_voutFull (s : State) (l : Nat) (u : Bool) (m : Mods) (d : VReg) (v : VWord) : (s.voutFull l u m d v).mem = s.mem := by rfl

/-! ### The functions of Machine/VMask.lean -/

@[simp] theorem memory_writeMasks (tv : Bool) (n : MReg) (c : BitVec 2) (v en : MWord) (s : State) : (writeMasks tv n c v en s).mem = s.mem := by
  unfold writeMasks
  split <;> simp
@[simp] theorem memory_maskOut (s : State) (tv : Bool) (d : MReg) (v : MWord) : (s.maskOut tv d v).mem = s.mem := by rfl

/-! ### The functions of Machine/VPerm.lean -/

@[simp] theorem memory_voutSome (s : State) (l : Nat) (u : Bool) (m : Mods) (d : VReg) (bytes : Nat) (k : MReg) (es : List Nat) (w : Nat → Bool) :
    (s.voutSome l u m d bytes k es w).mem = s.mem := by
  unfold State.voutSome
  simp only []
  split <;> rfl

/-! ### The functions of Machine/VCvt.lean -/

@[simp] theorem memory_convert (r : RMode) (nz : Nat → Nat) (k : MReg) (u : Bool) (m : Mods) (d : VReg) (a : VSrc) (p : BitVec 2) (t e : ElemT) (s
    : State) : (convert r nz k u m d a p t e s).mem = s.mem := by
  unfold convert
  split <;> simp
@[simp] theorem memory_quantise (f : MxFmt) (r : RMode) (nz : Nat → Nat) (k : MReg) (u : Bool) (m : Mods) (d : VReg) (a : VSrc) (b : BitVec 5) (s
    : State) : (quantise f r nz k u m d a b s).mem = s.mem := by rfl
@[simp] theorem memory_quantiseSr (f : MxFmt) (k : MReg) (u : Bool) (m : Mods) (d : VReg) (a : VSrc) (b : BitVec 5) (s : State) : (quantiseSr f k
    u m d a b s).mem = s.mem := by
  unfold quantiseSr
  split <;> rfl
@[simp] theorem memory_dequantise (f : MxFmt) (k : MReg) (u : Bool) (m : Mods) (d : VReg) (a b : VSrc) (s : State) : (dequantise f k u m d a b
    s).mem = s.mem := by
  unfold dequantise
  simp

/-! ### The functions of Machine/VMem.lean -/

@[simp] theorem memory_vload (s : State) (k : MReg) (u : Bool) (d : VReg) (b : Src) (md : VMode) : (vload s k u d b md).mem = s.mem := by
  unfold vload
  simp only []
  (repeat' split) <;> simp
@[simp] theorem wf_vstItem (s : State) (x : Ctx) (glob : Bool) (line : BitVec 3) (bytes : Nat) (v : VWord) (low : VA) (h : Nat) (ts : List (Nat ×
    VA × Target)) (hm : Memory.wf s.mem) : Memory.wf (vstItem s x glob line bytes v low h ts).mem := by
  unfold vstItem
  split <;> simp [Memory.wf, hm]

end Sys2Proof.Machine

namespace Sys2Proof.Machine
open Sys2Proof.Say
/-! PROOFS. O11, fourth part: the outcome of every instruction and event. -/

/-! ### Rules for outcomes -/

/-- Where an outcome goes on, memory has its canonical form. -/
def OutWf (o : Out) : Prop := ∀ t, o = .next t → Memory.wf t.mem
section
variable {s : State} (hs : Memory.wf s.mem)
include hs
theorem outWf_next : OutWf (.next s) := by
  rintro t ⟨⟩
  exact hs
theorem outWf_of_memory {u : State} (h : u.mem = s.mem) : OutWf (.next u) := outWf_next (wf_of_memory h hs)
theorem outWf_guarded (g : Guard) (f : Ctx → State → State) (hf : ∀ x, Memory.wf (f x s).mem) : OutWf (s.guarded g f) :=
  outWf_next (wf_ite (hf _) hs)
theorem outWf_guarded_of_memory (g : Guard) (f : Ctx → State → State) (hf : ∀ x, (f x s).mem = s.mem) : OutWf (s.guarded g f) :=
  outWf_guarded hs g f fun x => wf_of_memory (hf x) hs
theorem outWf_privileged (g : Guard) (f : Ctx → State → State) (hf : ∀ x, (f x s).mem = s.mem) : OutWf (s.privileged g f) :=
  outWf_guarded hs g _ fun x => wf_ite (wf_of_memory (memory_takeTrap _ _ _) hs) (wf_of_memory (hf x) hs)
theorem outWf_alu (l : Nat) (lt : BitVec 3) (f : Word → Word → Word) (g : Guard) (m : Mods) (d : SReg) (a b : Src) :
    OutWf (alu l lt f g m d a b s) := outWf_guarded_of_memory hs _ _ fun _ => memory_writeS ..
theorem outWf_alu1 (l : Nat) (lt : BitVec 3) (f : Word → Word) (g : Guard) (m : Mods) (d : SReg) (a : Src) :
    OutWf (alu1 l lt f g m d a s) := outWf_guarded_of_memory hs _ _ fun _ => memory_writeS ..
theorem outWf_alu3 (l : Nat) (lt : BitVec 3) (f : Word → Word → Word → Word) (g : Guard) (m : Mods) (d : SReg) (a b : Src) :
    OutWf (alu3 l lt f g m d a b s) := outWf_guarded_of_memory hs _ _ fun _ => memory_writeS ..
theorem outWf_aluI (l : Nat) (lt : BitVec 3) (f : Word → Word → Word) (g : Guard) (m : Mods) (d : SReg) (a : Src) (imm : BitVec 14) :
    OutWf (aluI l lt f g m d a imm s) := outWf_guarded_of_memory hs _ _ fun _ => memory_writeS ..
theorem outWf_divide (f : Word → Word → Word) (g : Guard) (m : Mods) (d : SReg) (a b : Src) : OutWf (divide f g m d a b s) :=
  outWf_guarded_of_memory hs _ _ fun _ => rfl
theorem outWf_fpu1 (l : Nat) (f : RMode → Word → Word) (g : Guard) (m : Mods) (d : SReg) (a : Src) :
    OutWf (fpu1 l f g m d a s) := outWf_guarded_of_memory hs _ _ fun _ => memory_writeS ..
theorem outWf_fpu2 (f : RMode → FVal → FVal → FVal) (g : Guard) (m : Mods) (d : SReg) (a b : Src) :
    OutWf (fpu2 f g m d a b s) := outWf_guarded_of_memory hs _ _ fun _ => memory_writeS ..
theorem outWf_compare (l : Nat) (f : Word → Word → Bool) (g : Guard) (tv : Bool) (c : Comb) (p q : PReg) (a b : Src) :
    OutWf (compare l f g tv c p q a b s) := outWf_guarded_of_memory hs _ _ fun _ => memory_writePreds ..
theorem outWf_compareI (sx : Bool) (f : Word → Word → Bool) (g : Guard) (tv : Bool) (c : Comb) (p q : PReg) (a : Src)
    (imm : BitVec 13) : OutWf (compareI sx f g tv c p q a imm s) := outWf_guarded_of_memory hs _ _ fun _ => memory_writePreds ..
theorem outWf_predOp (f : Bool → Bool → Bool) (g : Guard) (d a b : PReg) : OutWf (predOp f g d a b s) :=
  outWf_guarded_of_memory hs _ _ fun _ => memory_writeP ..
theorem outWf_atomic (op : AmoOp) (wide : Bool) (g : Guard) (d : SReg) (a b : Src) : OutWf (atomic op wide g d a b s) :=
  outWf_guarded hs _ _ fun _ => wf_checked _ hs fun _ => wf_sendItem _ _ hs
theorem outWf_reduction (op : AmoOp) (g : Guard) (ord wide : Bool) (a b : Src) : OutWf (reduction op g ord wide a b s) :=
  outWf_guarded hs _ _ fun _ => wf_checked _ hs fun _ => wf_sendItem _ _ hs
theorem outWf_counterItem (op : Target → Word → ItemOp) (isMax : Bool) (g : Guard) (line : BitVec 3) (glob : Bool) (a b : Src)
    (scope : Scope) (rel : Bool) : OutWf (counterItem op isMax g line glob a b scope rel s) :=
  outWf_guarded hs _ _ fun _ => wf_checked _ hs fun _ => wf_sendItem _ _ hs
theorem outWf_cmmaAny (g : Guard) (a b : SReg) (extra : Ctx → List Word) (op : CubeOp) : OutWf (cmmaAny g a b extra op s) :=
  outWf_guarded_of_memory hs _ _ fun _ => memory_enqueueCube ..
theorem outWf_crotAny (h64 : Bool) (g : Guard) (a : SReg) : OutWf (crotAny h64 g a s) :=
  outWf_guarded_of_memory hs _ _ fun _ => memory_enqueueCube ..
theorem outWf_caccAny (op : CubeOp) (g : Guard) (a : SReg) (b : Ctx → Word) (c : SReg) : OutWf (caccAny op g a b c s) :=
  outWf_guarded_of_memory hs _ _ fun _ => memory_enqueueCube ..
theorem outWf_cdrainAny (p : Bool) (g : Guard) (a b c : SReg) : OutWf (cdrainAny p g a b c s) :=
  outWf_guarded_of_memory hs _ _ fun _ => memory_enqueue ..
theorem outWf_blkAny (op : BlkOp) (g : Guard) (a b c : SReg) : OutWf (blkAny op g a b c s) :=
  outWf_guarded_of_memory hs _ _ fun _ => memory_enqueueOn ..
theorem outWf_vmap1 (l : Nat) (f : Nat → Nat) (k : MReg) (u : Bool) (m : Mods) (d : VReg) (a : VSrc) (t : ElemT) :
    OutWf (vmap1 l f k u m d a t s) := outWf_of_memory hs (memory_vout ..)
theorem outWf_vmap2 (l : Nat) (f : Nat → Nat → Nat) (k : MReg) (u : Bool) (m : Mods) (d : VReg) (a b : VSrc) (t : ElemT) :
    OutWf (vmap2 l f k u m d a b t s) := outWf_of_memory hs (memory_vout ..)
theorem outWf_vmap3 (l : Nat) (f : Nat → Nat → Nat → Nat) (k : MReg) (u : Bool) (m : Mods) (d : VReg) (a b : VSrc) (t : ElemT) :
    OutWf (vmap3 l f k u m d a b t s) := outWf_of_memory hs (memory_vout ..)
theorem outWf_vfmap2 (f : RMode → FVal → FVal → FVal) (k : MReg) (u : Bool) (m : Mods) (d : VReg) (a b : VSrc) (t : ElemT) :
    OutWf (vfmap2 f k u m d a b t s) := by
  unfold vfmap2
  exact outWf_vmap2 hs _ _ _ _ _ _ _ _ _
theorem outWf_vdot (bytes : Nat) (f : Nat → List (Nat × Nat) → Nat) (k : MReg) (u : Bool) (m : Mods) (d : VReg) (a b : VSrc) :
    OutWf (vdot bytes f k u m d a b s) := outWf_of_memory hs (memory_vout ..)
theorem outWf_vpick (f : List Nat → Nat → Nat) (k : MReg) (u : Bool) (m : Mods) (d : VReg) (a : VSrc) (t : ElemT) :
    OutWf (vpick f k u m d a t s) := outWf_of_memory hs (memory_vout ..)
theorem outWf_vpick2 (f : List Nat → List Nat → Nat → Nat) (k : MReg) (u : Bool) (m : Mods) (d : VReg) (a b : VSrc) (t : ElemT) :
    OutWf (vpick2 f k u m d a b t s) := by
  unfold vpick2
  exact outWf_vpick hs _ _ _ _ _ _ _
theorem outWf_vsfu (f : NFmt → Nat → FVal → Nat) (k : MReg) (u : Bool) (m : Mods) (d : VReg) (a : VSrc) (t : ElemT) :
    OutWf (vsfu f k u m d a t s) := outWf_next (wf_ite hs hs)
theorem outWf_vcompare (f : Nat → Nat → Bool) (k : MReg) (u tv : Bool) (n : MReg) (c : BitVec 2) (a b : VSrc) (t : ElemT) :
    OutWf (vcompare f k u tv n c a b t s) := outWf_of_memory hs (memory_writeMasks ..)
theorem outWf_vreduce (f : Nat → Nat → Nat) (one : Nat) (k : MReg) (u : Bool) (m : Mods) (d : VReg) (a : VSrc) (t : ElemT) :
    OutWf (vreduce f one k u m d a t s) := outWf_of_memory hs (memory_voutFull ..)
theorem outWf_vfcompare (f : FVal → FVal → Bool) (k : MReg) (u tv : Bool) (n : MReg) (c : BitVec 2) (a b : VSrc) (t : ElemT) :
    OutWf (vfcompare f k u tv n c a b t s) := by
  unfold vfcompare
  exact outWf_vcompare hs _ _ _ _ _ _ _ _ _
theorem outWf_vfreduce (f : FVal → FVal → FVal) (one : FVal) (k : MReg) (u : Bool) (m : Mods) (d : VReg) (a : VSrc) (t : ElemT) :
    OutWf (vfreduce f one k u m d a t s) := by
  unfold vfreduce
  exact outWf_vreduce hs _ _ _ _ _ _ _ _
theorem outWf_vldAny (k : MReg) (u : Bool) (d : VReg) (b : Src) (md : VMode) : OutWf (vldAny k u d b md s) := by
  refine outWf_next ?_
  split
  · exact wf_of_memory (memory_takeTrap ..) hs
  · exact wf_of_memory (memory_vload ..) hs
theorem outWf_vstAny (k : MReg) (glob : Bool) (d : VReg) (b : Src) (line : BitVec 3) (md : VMode) :
    OutWf (vstAny k glob d b line md s) := by
  refine outWf_next ?_
  split
  · exact wf_of_memory (memory_takeTrap ..) hs
  · exact wf_foldl (fun _ _ hu => wf_vstItem _ _ _ _ _ _ _ _ _ hu) _ hs
theorem outWf_enqueueCopy (g : Guard) (op : CopyOp) (a b c : SReg) (q : Bool) (n : Nat) : OutWf (.next (enqueueCopy s g op a b c q n)) :=
  outWf_of_memory hs (memory_enqueueCopy ..)
end

/-! ### Every arm of `exec` -/

section
variable {s : State} (hs : Memory.wf s.mem)
include hs
theorem outWf_execLd (g : Guard) (nw : Bool) (d : SReg) (base : Src) (z : Size) (x : Bool) (off : BitVec 11) :
    OutWf (execLd g nw d base z x off s) := by
  refine outWf_guarded hs _ _ fun c => wf_checked _ hs fun t => wf_of_memory ?_ hs
  extract_lets ea u
  split
  · split <;> simp [u]
  · simp
theorem outWf_execSt (g : Guard) (data : SReg) (base : Src) (z : Size) (glob : Bool) (line : BitVec 3) (off : BitVec 11) :
    OutWf (execSt g data base z glob line off s) :=
  outWf_guarded hs _ _ fun _ => wf_checked _ hs fun _ => wf_sendItem _ _ hs
theorem outWf_execCwait (g : Guard) (d : SReg) (a b : Src) (scope : Scope) (acq np : Bool) :
    OutWf (execCwait g d a b scope acq np s) := by
  refine outWf_guarded hs _ _ fun x => ?_
  split
  · exact wf_checked _ hs fun _ => hs
  · refine wf_of_memory ?_ hs
    simp only []
    split <;> simp
  all_goals exact hs
theorem outWf_execCrd (g : Guard) (d : SReg) (a : Src) (scope : Scope) (acq : Bool) : OutWf (execCrd g d a scope acq s) := by
  refine outWf_guarded hs _ _ fun x => wf_checked _ hs fun t => wf_of_memory ?_ hs
  simp only []
  split <;> simp
theorem outWf_execJoin (g : Guard) (d : SReg) (a : Src) : OutWf (execJoin g d a s) :=
  outWf_guarded hs _ _ fun _ => wf_checked _ hs fun _ => wf_ite (wf_onRecord _ _ hs fun _ hu => wf_of_memory (memory_answer ..) (wf_joinTrain _ _ hu))
    (wf_of_memory (memory_answer ..) hs)
theorem outWf_execLeave (g : Guard) (d : SReg) (a : Src) : OutWf (execLeave g d a s) :=
  outWf_guarded hs _ _ fun _ => wf_checked _ hs fun _ => wf_onRecord _ _ hs fun _ hu => wf_of_memory (memory_answer ..) (wf_leaveOf _ _ hu)
theorem outWf_execTrninfo (g : Guard) (d : SReg) (a : Src) : OutWf (execTrninfo g d a s) :=
  outWf_guarded hs _ _ fun _ => wf_checked _ hs fun _ => wf_onRecord _ _ hs fun _ hu => wf_of_memory (memory_answer ..) hu
theorem outWf_execLaunch (g : Guard) (d : SReg) (a b : Src) : OutWf (execLaunch g d a b s) := by
  refine outWf_guarded hs _ _ fun x => ?_
  split
  · refine wf_of_memory ?_ hs
    split <;> simp
  · exact wf_of_memory (memory_answer ..) hs
  · extract_lets ls u
    have hu : Memory.wf u.mem := wf_of_memory (memory_fireReads ..) hs
    exact wf_ite hu (wf_ite (wf_of_memory (memory_answer ..) hu) (wf_sendPacket _ _ _ _ _ hu))
theorem outWf_engEvent (c : CubeId) (id : Nat) (f : State → State) (hf : Memory.wf (f s).mem) : OutWf (.next (engEvent c id f s)) :=
  outWf_next (wf_engEvent _ _ _ hs hf)
/-- One arm of `exec` after another, grouped by the operation that they share. -/
theorem outWf_exec (i : Instr) : OutWf (exec i s) := by
  cases i <;> dsimp only [exec]
  case add | sub | and | or | xor | andn | orn | shl | shr | sar | rol | min | max | minn | maxn | ror | mul | mulh | mulhn | sext | zext |
      bfxs | bfxn =>
    exact outWf_alu hs _ _ _ _ _ _ _ _
  case popc | clz | ctz | brev | bswap | abs => exact outWf_alu1 hs _ _ _ _ _ _ _
  case bfi | fshl | fshr => exact outWf_alu3 hs _ _ _ _ _ _ _ _
  case addi | andi | ori | xori | shli | shri | sari | muli => exact outWf_aluI hs _ _ _ _ _ _ _ _
  case div | divn | rem | remn => exact outWf_divide hs _ _ _ _ _ _
  case fabs | fneg | fcvtif | fcvtnf | fcvtfi | fcvtfn | fsqrt => exact outWf_fpu1 hs _ _ _ _ _ _
  case fadd | fsub | fmul | fmin | fmax => exact outWf_fpu2 hs _ _ _ _ _ _
  case cmpeq | cmpne | cmplt | cmple | cmpltn | cmplen | fcmpeq | fcmplt | fcmple | fcmpun => exact outWf_compare hs _ _ _ _ _ _ _ _ _
  case cmpeqImm | cmpneImm | cmpltImm | cmpleImm | cmpltnImm | cmplenImm => exact outWf_compareI hs _ _ _ _ _ _ _ _ _
  case pand | por | pxor | pandn => exact outWf_predOp hs _ _ _ _ _
  case amoAdd | amoAnd | amoOr | amoXor | amoMin | amoMax | amoMinn | amoMaxn | amoSwap | amoCas | amowAdd | amowAnd | amowOr | amowXor |
      amowMin | amowMax | amowMinn | amowMaxn | amowSwap | amowCas | amowFadd | amowFmax =>
    exact outWf_atomic hs _ _ _ _ _ _
  case redAdd | redAnd | redOr | redXor | redMin | redMax | redMinn | redMaxn | redFadd | redFmax => exact outWf_reduction hs _ _ _ _ _ _
  case cadd | cmax => exact outWf_counterItem hs _ _ _ _ _ _ _ _ _
  case cmma | cmmaMsk => exact outWf_cmmaAny hs _ _ _ _ _
  case crotH32 | crotH64 => exact outWf_crotAny hs _ _ _
  case caccZero | caccLd | caccSt | caccMove => exact outWf_caccAny hs _ _ _ _ _
  case cdrain | cdrainP => exact outWf_cdrainAny hs _ _ _ _ _
  case blkAlloc | blkFree | blkShare | blkXlate | blkFetch | blkAppend | blkStat => exact outWf_blkAny hs _ _ _ _ _
  case cpyLin | cpyTwod | cpyThreed | cpyFill | cpyLsplit | cpyLgath | cpyMcast | cpyPfetch | cgthGather | cgthScatter | cgthGatheradd |
      credAddf32 | credAddbf16 | credMaxf32 | credAddi32 =>
    exact outWf_enqueueCopy hs _ _ _ _ _ _ _
  case vld | vldStrided | vldGather | vldStrided16 => exact outWf_vldAny hs _ _ _ _ _
  case vst | vstStrided | vstScatter | vstStrided16 => exact outWf_vstAny hs _ _ _ _ _ _
  case vabs | vneg | vnot | vpopc | vclz | vfabs | vfneg | vmov => exact outWf_vmap1 hs _ _ _ _ _ _ _ _
  case vadd | vsub | vadds | vsubs | vaddsn | vsubsn | vmul | vmulh | vmulhn | vmin | vmax | vminn | vmaxn | vavgn | vand | vor |
      vxor | vandn | vshl | vshr | vsar | vrol | vbfxs | vbfxn | vfcpsgn =>
    exact outWf_vmap2 hs _ _ _ _ _ _ _ _ _
  case vbfi => exact outWf_vmap3 hs _ _ _ _ _ _ _ _ _
  case vffma =>
    unfold execVffma
    exact outWf_vmap3 hs _ _ _ _ _ _ _ _ _
  case vfadd | vfsub | vfmul | vfmin | vfmax | vfmaxabs => exact outWf_vfmap2 hs _ _ _ _ _ _ _ _
  case vdot4 | vdot4n | vdot2 | vdot2h => exact outWf_vdot hs _ _ _ _ _ _ _ _
  case vbcast | vslidedn | vrev => exact outWf_vpick hs _ _ _ _ _ _ _
  case vexpand =>
    unfold execVexpand
    exact outWf_vpick hs _ _ _ _ _ _ _
  case vperm | vzipl | vziph | vunzipe | vunzipo => exact outWf_vpick2 hs _ _ _ _ _ _ _ _
  case viota | vsplati => exact outWf_of_memory hs (memory_vout ..)
  case vexp2 | vlog2 | vrcp | vrsq | vsqrt | vtanh | vsigm => exact outWf_vsfu hs _ _ _ _ _ _ _
  case vcmpeq | vcmpne | vcmplt | vcmple | vcmpltn | vcmplen => exact outWf_vcompare hs _ _ _ _ _ _ _ _ _
  case vfcmpeq | vfcmplt | vfcmple | vfcmpun => exact outWf_vfcompare hs _ _ _ _ _ _ _ _ _
  case vredadd | vredmin | vredmax | vredminn | vredmaxn => exact outWf_vreduce hs _ _ _ _ _ _ _ _
  case vfredadd | vfredmin | vfredmax => exact outWf_vfreduce hs _ _ _ _ _ _ _ _
  case mand | mor | mxor | mandn | mnot | mfroms | mlanes => exact outWf_of_memory hs (memory_maskOut ..)
  case mpop | mfirst | vext => exact outWf_of_memory hs (memory_writeS ..)
  case vnoise => exact outWf_of_memory hs (memory_vout ..)
  case noiseSeedaWrite | noiseSeedbWrite | noiseModeWrite | seqLinesRepair => exact outWf_of_memory hs (memory_modRunning ..)
  case vcvt | vcvtsr => exact outWf_of_memory hs (memory_convert ..)
  case vqmx8 | vqmx6 | vqmx4 => exact outWf_of_memory hs (memory_quantise ..)
  case vdqmx8 | vdqmx6 | vdqmx4 => exact outWf_of_memory hs (memory_dequantise ..)
  case vqmx8sr | vqmx6sr | vqmx4sr => exact outWf_of_memory hs (memory_quantiseSr ..)
  case emptyBundle => exact outWf_of_memory hs (memory_issueEmpty ..)
  case exposedResultLands => exact outWf_of_memory hs (memory_landOne ..)
  case interlockedResultArrives => exact outWf_of_memory hs (memory_interlockArrives ..)
  case icacheMissFill => exact outWf_of_memory hs (memory_icacheFill ..)
  case noiseWordAppend => exact outWf_of_memory hs (memory_appendNoise ..)
  case trapEntry => exact outWf_of_memory hs (memory_takePending ..)
  case watchdog => exact outWf_of_memory hs (memory_fireWatchdog ..)
  case preemption => exact outWf_of_memory hs (memory_preempt ..)
  case switchIn => exact outWf_of_memory hs (memory_switchIn ..)
  case quantumExpiry => exact outWf_of_memory hs (memory_expireQuantum ..)
  case schEndWrite => exact outWf_of_memory hs (memory_writeSchEnd ..)
  case shelfWindowWrite => exact outWf_next (wf_shelfWrite (hm := hs) ..)
  case sysregWindowWrite => exact outWf_next (wf_sysWrite (hm := hs) ..)
  case fabMigreqRead | conCelogRead | conUelogRead => exact outWf_of_memory hs (memory_popRead ..)
  case homeWriteArrives | homeAtomic | homeCounterOp => exact outWf_next (wf_arriveIf (hm := hs) ..)
  case lineItemCommit => exact outWf_next (wf_commitItem (hm := hs) ..)
  case releaseSend => exact outWf_next (wf_sendRelease (hm := hs) ..)
  case ackTimeoutExpiry => exact outWf_next (wf_expireAck (hm := hs) ..)
  case cwaitReadReturn => exact outWf_of_memory hs (memory_waitReturns ..)
  case monitorNotify => exact outWf_of_memory hs (memory_notifyMonitors ..)
  case monitorPoll => exact outWf_of_memory hs (memory_pollMonitor ..)
  case walkStart => exact outWf_of_memory hs (memory_startWalk ..)
  case walkComplete => exact outWf_of_memory hs (memory_endWalk ..)
  case tlbiComplete => exact outWf_of_memory hs (memory_endTlbi ..)
  case launchPacketArrival => exact outWf_next (wf_receivePacket (hm := hs) ..)
  case peerLaunchPacket => exact outWf_next (wf_peerLaunch (hm := wf_of_memory (memory_cachePeer ..) hs) ..)
  case imageHeaderRead => exact outWf_next (wf_readHeader (hm := hs) ..)
  case batchHandoff => exact outWf_next (wf_placeBatch (hm := hs) ..)
  case schPartWrite => exact outWf_next (wf_writePart (hm := hs) ..)
  case taskAdmission => exact outWf_next (wf_admitTask (hm := hs) ..)
  case taskStart => exact outWf_next (wf_startTask (hm := hs) ..)
  case evictionStart => exact outWf_of_memory hs (memory_evictFrom ..)
  case evictionComplete => exact outWf_next (wf_completeEviction (hm := hs) ..)
  case readmission => exact outWf_next (wf_readmit (hm := hs) ..)
  case migration => exact outWf_of_memory hs (memory_migrate ..)
  case haltComplete => exact outWf_next (wf_completeHalt (hm := hs) ..)
  case strandEndError => exact outWf_next (wf_endStrand (hm := hs) ..)
  case spoolEntryLanded => exact outWf_of_memory hs (memory_entryLanded ..)
  case joinPointComplete => exact outWf_next (wf_joinComplete (hm := hs) ..)
  case cubSkewWrite => exact outWf_of_memory hs (memory_writeSkew ..)
  case cubSkewApply => exact outWf_of_memory hs (memory_applySkew ..)
  case blkEnable => exact outWf_of_memory hs (memory_blkEnable ..)
  case blkDisable => exact outWf_of_memory hs (memory_blkDisable ..)
  case blkReady => exact outWf_next (wf_blkBuilt (hm := hs) ..)
  case incomingPeerRequest => exact outWf_next (wf_incomingRequest (hm := hs) ..)
  case reductionPacketArrival => exact outWf_next (wf_reducePacket (hm := wf_of_memory (memory_cachePeer ..) hs) ..)
  case flitReplay => exact outWf_of_memory hs (memory_countReplay ..)
  case replayWarning => exact outWf_of_memory hs (memory_warnReplays ..)
  case portRetrain => exact outWf_of_memory hs (memory_retrainPort ..)
  case fabDeadWrite => exact outWf_of_memory hs (memory_writeDead ..)
  case resetHandshakeReply => exact outWf_next (wf_handshakeDone (hm := hs) ..)
  case scrubLine => exact outWf_of_memory hs (memory_scrub ..)
  case conInjctlWrite => exact outWf_of_memory hs (memory_writeInjCtl ..)
  case conInjaddrWrite => exact outWf_of_memory hs (memory_writeInjAddr ..)
  case selfTestStart => exact outWf_of_memory hs (memory_startTest ..)
  case selfTestResult => exact outWf_next (wf_endTest (hm := hs) ..)
  case conRetireFence => exact outWf_of_memory hs (memory_retireFence ..)
  case conRetireEvacuate => exact outWf_of_memory hs (memory_retireEvacuate ..)
  case evacGranuleCopied => exact outWf_next (wf_copyGranule (hm := hs) ..)
  case conRetireFinish => exact outWf_of_memory hs (memory_retireFinish ..)
  case limiterPeriod => exact outWf_of_memory hs (memory_limiterTick ..)
  case layerGate => exact outWf_of_memory hs (memory_gateLayer ..)
  case layerRampDone => exact outWf_of_memory hs (memory_modLayer ..)
  case thermalSample => exact outWf_of_memory hs (memory_sampleCube ..)
  case thermalStepRaise => exact outWf_of_memory hs (memory_raiseThermal ..)
  case thermalStepLower => exact outWf_of_memory hs (memory_lowerThermal ..)
  case migrationRequest => exact outWf_of_memory hs (memory_requestMigration ..)
  case capBroadcast => exact outWf_of_memory hs (memory_receiveBroadcast ..)
  case governorPeriod => exact outWf_of_memory hs (memory_governorTick ..)
  case railOutOfRange => exact outWf_of_memory hs (memory_railMoves ..)
  case packageReset => exact outWf_next (wf_resetPackage (hm := hs) ..)
  case gessoBootTests => exact outWf_of_memory hs (memory_bootTests ..)
  case studioFirmwareStart => exact outWf_of_memory hs (memory_startStudio ..)
  case hostBar2Access => exact outWf_next (wf_hostAccess (hm := hs) ..)
  case hdmDecoderCommit => exact outWf_next (wf_commitDecoder (hm := hs) ..)
  case attestationRequest => exact outWf_of_memory hs (memory_attest ..)
  case secDbgHalt => exact outWf_of_memory hs (memory_debugHalt ..)
  case secDbgResume => exact outWf_of_memory hs (memory_debugResume ..)
  case ckptGo => exact outWf_of_memory hs (memory_writeCkptCtl ..)
  case ckptComplete => exact outWf_next (wf_endCkpt (hm := hs) ..)
  case hostLinkDown | jireskoSessionSetup => exact outWf_of_memory hs (memory_modSecu ..)
  case resetMessageReceived => exact outWf_next (wf_of_memory (memory_reply ..) (wf_discardPair (hm := hs) ..))
  case nop => exact outWf_next hs
  case halt | yield | iflush => exact outWf_guarded_of_memory hs _ _ fun _ => memory_control ..
  case cyc | self | pmovp | csyncStat => exact outWf_guarded_of_memory hs _ _ fun _ => memory_writeS0 ..
  case ffma | movi | movhi => exact outWf_guarded_of_memory hs _ _ fun _ => memory_writeS ..
  case trap | br | brl | lpop | fence | unbind => exact outWf_guarded_of_memory hs _ _ fun _ => by simp
  case pmovs => exact outWf_guarded_of_memory hs _ _ fun _ => memory_foldl (fun _ _ => memory_writeP ..) _ _
  case csyncJoin => exact outWf_guarded hs _ _ fun _ => wf_placeJoin (hm := hs) ..
  case noise | brk | sysrd | syswr | jr | jrl | loop | loopi =>
    refine outWf_guarded_of_memory hs _ _ fun _ => ?_
    split <;> simp
  case qfence | bind =>
    refine outWf_guarded_of_memory hs _ _ fun _ => ?_
    simp only []
    (repeat' split) <;> simp
  case eret | tlbi | csyncSkew => exact outWf_privileged hs _ _ fun _ => by simp
  case csplDef | csplRdp | csplReset | cpalSet | cpalGet | crcpDef | crcpGet =>
    refine outWf_guarded hs _ _ fun _ => wf_orTrap _ hs (wf_of_memory ?_ hs)
    simp
  case csplAdvp | csplAdvc =>
    refine outWf_guarded hs _ _ fun _ => wf_orTrap _ hs (wf_of_memory ?_ hs)
    simp only []
    split <;> simp
  case ld => exact outWf_execLd hs _ _ _ _ _ _ _
  case st => exact outWf_execSt hs _ _ _ _ _ _ _
  case cwait => exact outWf_execCwait hs _ _ _ _ _ _ _
  case crd => exact outWf_execCrd hs _ _ _ _ _
  case join => exact outWf_execJoin hs _ _ _
  case leave => exact outWf_execLeave hs _ _ _
  case trninfo => exact outWf_execTrninfo hs _ _ _
  case launch => exact outWf_execLaunch hs _ _ _ _
  case vins | vslideup => exact outWf_of_memory hs (memory_voutSome ..)
  case vcompress => exact outWf_of_memory hs (memory_pushResult ..)
  case vsel => exact outWf_of_memory hs (memory_voutFull ..)
  case homeRead =>
    refine outWf_of_memory hs ?_
    split <;> simp
  case sharerUpdate | sharerInvalidate =>
    refine outWf_of_memory hs ?_
    (repeat' split) <;> simp
  case cwaitSpinReread =>
    refine outWf_of_memory hs ?_
    (repeat' split) <;> simp
  case writeAckArrives => exact outWf_next (wf_onItem _ hs fun _ => wf_ite (wf_of_memory (memory_ackItem ..) hs) hs)
  case atelierTakeover => exact outWf_next (wf_ite hs (wf_of_memory (by simp) hs))
  case portDown | portTrained | railPowerDown | bridgeTripPowerDown => exact outWf_next (wf_ite (wf_of_memory (by simp) hs) hs)
  case copyCmdStart => exact outWf_engEvent hs _ _ _ (wf_copyStart (hm := hs) ..)
  case copyCmdComplete => exact outWf_engEvent hs _ _ _ (wf_copyComplete (hm := hs) ..)
  case completionAddSend => exact outWf_engEvent hs _ _ _ (wf_sendAdd (hm := hs) ..)
  case cubeCmdStart => exact outWf_engEvent hs _ _ _ (wf_cubeStart (hm := hs) ..)
  case cubeCmdComplete => exact outWf_engEvent hs _ _ _ (wf_cubeComplete (hm := hs) ..)
  case drainStart => exact outWf_engEvent hs _ _ _ (wf_drainStart (hm := hs) ..)
  case drainComplete => exact outWf_engEvent hs _ _ _ (wf_drainComplete (hm := hs) ..)
  case blkCmdPerform => exact outWf_engEvent hs _ _ _ (wf_blkPerform (hm := hs) ..)
  case blkCmdComplete => exact outWf_engEvent hs _ _ _ (wf_blkComplete (hm := hs) ..)
  case resetHandshakeTimeout => exact outWf_of_memory hs rfl
end

end Sys2Proof.Machine

namespace Sys2Proof.Machine
open Sys2Proof.Say
/-! PROOFS. O11, last part: bundles, turns and steps. -/

/-! ### The functions of Machine/Issue.lean -/

@[simp] theorem memory_atSlot (s : State) (ss : List Slot) (sl : Slot) : (atSlot s ss sl).mem = s.mem := by rfl
@[simp] theorem memory_yieldStrand (s : State) (c : CubeId) : (yieldStrand s c).mem = s.mem := by
  unfold yieldStrand
  simp only []
  (repeat' split) <;> simp
@[simp] theorem memory_resumeStrand (s : State) (c : CubeId) (i : ShelfId) (pc : VA) : (resumeStrand s c i pc).mem = s.mem := by
  unfold resumeStrand
  simp only []
  (repeat' split) <;> simp
@[simp] theorem memory_eret (s : State) (c : CubeId) : (eret s c).mem = s.mem := by
  unfold eret
  simp only []
  (repeat' split) <;> simp
@[simp] theorem memory_haltContext (s : State) (c : CubeId) (pc : VA) : (haltContext s c pc).mem = s.mem := by
  unfold haltContext
  split <;> simp
@[simp] theorem memory_flushCode (s : State) (c : CubeId) : (flushCode s c).mem = s.mem := by rfl
@[simp] theorem memory_doControl (s : State) (c : CubeId) (pc : VA) (ctl : Control) : (doControl s c pc ctl).mem = s.mem := by
  unfold doControl
  split <;> simp
@[simp] theorem memory_applyControl (s : State) (c : CubeId) (pc : VA) (ctl : Control) : (applyControl s c pc ctl).mem = s.mem := by
  unfold applyControl
  split <;> simp
@[simp] theorem wf_endBundle (s : State) (c : CubeId) (hm : Memory.wf s.mem) : Memory.wf (endBundle s c).mem := by
  unfold endBundle
  simp only []
  (repeat' split) <;> simp [Memory.wf, hm]
theorem wf_outState {s : State} {o : Out} (hs : Memory.wf s.mem) (ho : ∀ t, o = .next t → Memory.wf t.mem) :
    Memory.wf (outState s o).mem := by
  cases o with
  | next t => exact ho t rfl
  | fault _ => exact hs
  | refused _ => exact hs
@[simp] theorem wf_execSlot (ss : List Slot) (c : CubeId) (sid : Nat) (s : State) (sl : Slot) (hm : Memory.wf s.mem) :
    Memory.wf (execSlot ss c sid s sl).mem := by
  have hout (i : Instr) : Memory.wf (outState s (exec i (atSlot s ss sl))).mem :=
    wf_outState hm (outWf_exec (s := atSlot s ss sl) (by simpa using hm) i)
  unfold execSlot
  split
  · next i _ =>
    refine wf_ite ?_ hm
    simp only []
    split
    · rw [mem_modCube]
      exact hout i
    · exact hout i
  · exact hm
@[simp] theorem memory_fillSlot (c : CubeId) (ss : List Slot) (s : State) (sl : Slot) : (fillSlot c ss s sl).mem = s.mem := by
  unfold fillSlot
  split <;> simp
@[simp] theorem wf_commit (s : State) (c : CubeId) (ss : List Slot) (hm : Memory.wf s.mem) : Memory.wf (commit s c ss).mem := by
  have hrun (u : State) (sid : Nat) (hu : Memory.wf u.mem) : Memory.wf (ss.foldl (execSlot ss c sid) u).mem :=
    wf_foldl (fun _ _ hv => wf_execSlot _ _ _ _ _ hv) _ hu
  unfold commit
  refine wf_ite (wf_endBundle _ _ (hrun _ _ ?_)) (hrun _ _ ?_)
  all_goals simpa using hm
@[simp] theorem memory_stalled (s : State) (c : CubeId) : (stalled s c).mem = s.mem := by rfl
@[simp] theorem wf_goBundle (s : State) (c : CubeId) (ss : List Slot) (hm : Memory.wf s.mem) : Memory.wf (goBundle s c ss).mem := by
  unfold goBundle
  simp only []
  split
  · exact wf_execSlot _ _ _ _ _ hm
  · exact wf_commit _ _ _ hm
@[simp] theorem wf_issueBundle (s : State) (c : CubeId) (b : Bundle) (hm : Memory.wf s.mem) : Memory.wf (issueBundle s c b).mem := by
  unfold issueBundle
  simp only []
  (repeat' split) <;> simp [Memory.wf, hm]
@[simp] theorem wf_fetchAndIssue (s : State) (c : CubeId) (hm : Memory.wf s.mem) : Memory.wf (fetchAndIssue s c).mem := by
  unfold fetchAndIssue
  simp only []
  (repeat' split) <;> simp [Memory.wf, hm]
@[simp] theorem memory_leaveNow (s : State) (c : CubeId) : (leaveNow s c).mem = s.mem := by
  unfold leaveNow
  simp only []
  (repeat' split) <;> simp
@[simp] theorem wf_issueCore (s : State) (c : CubeId) (hm : Memory.wf s.mem) : Memory.wf (issueCore s c).mem := by
  unfold issueCore
  simp only []
  (repeat' split) <;> simp [Memory.wf, hm]

/-! ### The functions of Machine/Turn.lean -/

@[simp] theorem memory_routeTraffic (s : State) : (routeTraffic s).mem = s.mem := by
  unfold routeTraffic
  simp
@[simp] theorem wf_tick (s : State) (hm : Memory.wf s.mem) : Memory.wf (tick s).mem := by
  unfold tick
  refine wf_foldl (fun u c hu => wf_returnUnfit _ _ ?_) _ (by simpa using hm)
  simpa using hu
@[simp] theorem wf_internalTurn (s : State) (hm : Memory.wf s.mem) : Memory.wf (internalTurn s).mem := by
  unfold internalTurn
  refine wf_tick _ ?_
  split
  · exact wf_outState hm (outWf_exec hm _)
  · exact hm
@[simp] theorem wf_takeTurn (s : State) (hm : Memory.wf s.mem) : Memory.wf (takeTurn s).mem := by
  unfold takeTurn
  split <;> simp [Memory.wf, hm]

/-! ### One step -/

/-- A step is an event of the agenda, a write at a register window, or a turn. -/
theorem outWf_step {s : State} (hs : Memory.wf s.mem) : OutWf (step s) := by
  unfold step
  split
  · split
    · exact outWf_next hs
    · refine outWf_exec ?_ _
      exact hs
  · split
    · split
      · exact outWf_next (wf_takeTurn _ hs)
      · exact outWf_next (wf_stepWindow _ hs)
    · rintro t ⟨⟩
/-- Settles O11: every function through which a step goes leaves memory as it is, or changes it by `memWrite` or by leaving entries out,
and both keep the canonical form. -/
theorem memoryStaysCanonical : Obligations.MemoryStaysCanonical := by
  unfold Obligations.MemoryStaysCanonical
  intro s t hs ht
  exact outWf_step hs t ht

end Sys2Proof.Machine

namespace Sys2Proof.Machine
open Sys2Proof.Say
/-! PROOFS. Accesses of the host, decoders and checkpoints (R398, R399, R403, R406, R409). -/

/-! ### Accesses of the host (R399, R403) -/

theorem hostMay_iff (s : State) (off n : Nat) (need : Need) : hostMay s off n need = true ↔ HostMay s off n need := by
  simp only [hostMay, HostMay, Bool.and_eq_true, decide_eq_true_eq, beq_iff_eq, List.all_eq_true, List.mem_range, Bool.not_eq_true',
    Option.isNone_iff_eq_none, and_assoc]
  rfl

theorem PutHome.puts {s u : State} {i : Instr} {cells : List (Nat × Byte)} (h : PutHome s u cells) (hu : exec i s = .next u) :
    Puts s i cells :=
  ⟨u, hu, stored_of_mem h.mem, h.replies, h.items, h.reads⟩

section
variable {s : State} (off n : Nat) (v : Word)

theorem aborts_read (h : ¬ HostMay s off n .read) : Aborts s (.hostBar2Access .read off n v) := by
  rw [Aborts, Returns, exec_hostBar2Access, execHostBar2Access, hostAccess, if_neg (mt (hostMay_iff ..).1 h)]
  rfl
theorem aborts_write (bs : List Byte) (h : ¬ HostMay s off bs.length .write) : Aborts s (.hostBar2Access (.write bs) off n v) := by
  rw [Aborts, Returns, exec_hostBar2Access, execHostBar2Access, hostAccess, if_neg (mt (hostMay_iff ..).1 h)]
  rfl
theorem hostCounter_of_refused (op : ItemOp) (h : n ≠ 8 ∨ off % 8 ≠ 0 ∨ ¬ HostMay s off n .both) :
    hostCounter s off n op = hostAbort s := by
  rw [hostCounter, if_neg]
  rintro ⟨hn, hoff, hmay⟩
  rcases h with h | h | h
  · exact h hn
  · exact h hoff
  · exact h ((hostMay_iff ..).1 hmay)
theorem aborts_counter (h : n ≠ 8 ∨ off % 8 ≠ 0 ∨ ¬ HostMay s off n .both) :
    Aborts s (.hostBar2Access .add off n v) ∧ Aborts s (.hostBar2Access .max off n v) := by
  refine ⟨?_, ?_⟩
  all_goals
    rw [Aborts, Returns, exec_hostBar2Access, execHostBar2Access, hostAccess, hostCounter_of_refused off n _ h]
    rfl
theorem returns_read (hs : Sound s off n) (h : HostMay s off n .read) : Returns s (.hostBar2Access .read off n v)
    ((List.range ((n + 7) / 8)).map fun j => BitVec.ofNat 64 (memNat s.mem (off + 8 * j) (Nat.min 8 (n - 8 * j)))) := by
  rw [Returns, exec_hostBar2Access, execHostBar2Access, hostAccess, if_pos ((hostMay_iff ..).2 h), outsideRead_of_sound hs]
  simp only [wordsOf_memRead]
  rfl
theorem puts_write (bs : List Byte) (hs : Sound s off bs.length) (h : HostMay s off bs.length .write) :
    Puts s (.hostBar2Access (.write bs) off n v) (cellsAt off bs) := by
  have hplain : Plain s ((cellsAt off bs).map Prod.fst) := by
    rw [map_fst_cellsAt]
    exact hs.plain
  refine (putHome_outsideWrite hplain .runtime true).puts ?_
  rw [exec_hostBar2Access, execHostBar2Access, hostAccess, if_pos ((hostMay_iff ..).2 h)]
theorem hostCounter_of_sound (hs : Sound s off 8) (hoff : off % 8 = 0) (h : HostMay s off 8 .both) {op : ItemOp}
    (hlocs : op.locs = (List.range 8).map (off + ·)) : PutHome s (hostCounter s off 8 op) (opEffect s.mem op).1 := by
  obtain ⟨u, hu, hput⟩ := outsideAtomic_of_sound hs hlocs .runtime
  rw [hostCounter, if_pos ⟨rfl, hoff, (hostMay_iff ..).2 h⟩, hu]
  exact hput
theorem puts_counter (hs : Sound s off 8) (hoff : off % 8 = 0) (h : HostMay s off 8 .both) :
    Puts s (.hostBar2Access .add off 8 v) (cellsAt off (bytesLE 8 (counterSum (memWord s.mem off) v).toNat)) ∧
      Puts s (.hostBar2Access .max off 8 v) (cellsAt off (bytesLE 8 (counterMax (memWord s.mem off) v).toNat)) := by
  rw [← caddValue_eq_counterSum, ← cmaxValue_eq_counterMax]
  exact ⟨(hostCounter_of_sound off hs hoff h (op := .cadd off v) rfl).puts rfl,
    (hostCounter_of_sound off hs hoff h (op := .cmax off v) rfl).puts rfl⟩

/-! ### BAR0 (R399, R400) -/

theorem returns_bar0 {w : Word} (hw : bar0Word s off = some w) (hoff : off % 8 = 0) : Returns s (.hostBar2Access .bar0 off 8 v) [w] := by
  rw [Returns, exec_hostBar2Access, execHostBar2Access, hostAccess, bar0Read, hw]
  simp only [hoff]
  rw [if_pos (by omega), reply]
  refine congrArg (fun x => Host.Outcome.next { s with replies := s.replies ++ [x] }) ?_
  apply BitVec.eq_of_toNat_eq
  have := w.isLt
  simp
  omega
theorem bar0Word_boot : bar0Word s 0x1000 =
    some (BitVec.ofNat 64 (s.secu.svn.toNat * 2 ^ 16 + s.secu.fail.toNat * 2 ^ 8 + s.secu.stage.toNat)) := by
  refine congrArg some (?_ : (s.secu.svn.setWidth 64 <<< 16 ||| s.secu.fail.setWidth 64 <<< 8 ||| s.secu.stage.setWidth 64 : Word) = _)
  have h1 := s.secu.svn.isLt
  have h2 := s.secu.fail.isLt
  have h3 := s.secu.stage.isLt
  apply BitVec.eq_of_toNat_eq
  rw [BitVec.toNat_or, BitVec.toNat_or]
  simp only [BitVec.toNat_shiftLeft, BitVec.toNat_setWidth, BitVec.toNat_ofNat, Nat.shiftLeft_eq]
  rw [Nat.mod_eq_of_lt (a := s.secu.svn.toNat) (by omega), Nat.mod_eq_of_lt (a := s.secu.fail.toNat) (by omega),
    Nat.mod_eq_of_lt (a := s.secu.stage.toNat) (by omega), Nat.mod_eq_of_lt (a := _ * 2 ^ 16) (by omega),
    Nat.mod_eq_of_lt (a := _ * 2 ^ 8) (by omega), Nat.mod_eq_of_lt (by omega), Nat.or_assoc, ← Nat.shiftLeft_eq, ← Nat.shiftLeft_eq,
    ← Nat.shiftLeft_add_eq_or_of_lt (show s.secu.stage.toNat < 2 ^ 8 by omega),
    ← Nat.shiftLeft_add_eq_or_of_lt (show s.secu.fail.toNat <<< 8 + s.secu.stage.toNat < 2 ^ 16 by rw [Nat.shiftLeft_eq]; omega),
    Nat.add_assoc]
theorem bar0Word_debug (c : CubeId) : bar0Word s (0x2000 + 8 * c.val) = some (if (s.cube c).debugHalted then 0x100 else 0) := by
  have hc := c.isLt
  have hreg : regSec s (s.cube c) 0x702 = if (s.cube c).debugHalted then 0x100 else 0 := by
    cases h : (s.cube c).debugHalted
    · simp [regSec, bit, h]
    · simp only [regSec, bit, h, if_true]
      decide
  have hcube : (⟨(0x2000 + 8 * c.val) / 8 - 0x400, by omega⟩ : CubeId) = c := Fin.ext (by simp only []; omega)
  rw [bar0Word, if_neg (by omega), dif_pos (by omega), hcube, hreg]
theorem aborts_bar0 (h : off < 0x1000 ∨ 0x1008 ≤ off ∧ off < 0x2000 ∨ 0x2040 ≤ off) : Aborts s (.hostBar2Access .bar0 off n v) := by
  have hnone : bar0Word s off = none := by
    rw [bar0Word, if_neg (by omega), dif_neg (by omega)]
  rw [Aborts, Returns, exec_hostBar2Access, execHostBar2Access, hostAccess, bar0Read, hnone]
  rfl
end
end Sys2Proof.Machine

namespace Sys2Proof.Machine
open Sys2Proof.Say
/-! ### Decoders (R409) -/

theorem decoderCount_le : decoderCount ≤ 44 := by
  have h := (Config.hdmCapability.extractLsb' 0 4).isLt
  unfold decoderCount
  simp only []
  split
  · omega
  · split <;> omega

/-- The offset of a decoder's registers among the component registers of its bridge die. -/
def decoderOff (p : DecoderPlace) : Nat := p.port.val * 0x1_0000 + (Config.hdmOffset.val + 0x10 + 0x20 * p.index)

theorem decoderKey_eq (p : DecoderPlace) : decoderKey p = bridgeBase p.bridge.val + 0x10_0000 + decoderOff p := by
  rw [decoderKey, decoderOff]
  omega

section
variable {p : DecoderPlace} (hp : InPort p)
include hp

theorem decoderOff_mod {k : Nat} (hk : k < 32) : (decoderOff p + k) % 0x1_0000 = Config.hdmOffset.val + 0x10 + 0x20 * p.index + k := by
  have h1 := Config.hdmOffset.isLt
  have h2 : p.index < decoderCount := hp
  have h3 := decoderCount_le
  rw [decoderOff]
  omega

theorem decoderByte_of_inPort {k : Nat} (hk : k < 32) : decoderByte p.bridge.val (decoderOff p + k) = some (p, k) := by
  have h1 := Config.hdmOffset.isLt
  have h2 : p.index < decoderCount := hp
  have h3 := decoderCount_le
  have hmod := decoderOff_mod hp hk
  have hindex : (Config.hdmOffset.val + 0x10 + 0x20 * p.index + k - (Config.hdmOffset.val + 0x10)) / 0x20 = p.index := by omega
  have hplace : (Config.hdmOffset.val + 0x10 + 0x20 * p.index + k - (Config.hdmOffset.val + 0x10)) % 0x20 = k := by omega
  have hport : (decoderOff p + k) / 0x1_0000 = p.port.val := by rw [decoderOff]; omega
  rw [decoderByte]
  simp only [hmod, hindex, hplace, hport]
  rw [if_pos ⟨by omega, h2⟩]
  simp

theorem componentLocked_of_inPort (s : State) {k : Nat} (hk : k < 32) :
    componentLocked s p.bridge.val (decoderOff p + k) = (!(decide (0x10 ≤ k) && decide (k < 0x14)) && decoderCommitted s p) := by
  rw [componentLocked]
  simp only [decoderByte_of_inPort hp hk, decoderOff_mod hp hk]
  rw [decide_eq_false (p := _ < Config.hdmOffset.val + 4) (by omega), Bool.and_false, Bool.false_or]

section
variable (s : State) {bs : List Byte} (hbs : bs.length = 32)
include hbs

/-- Of what is written at a decoder's registers, its number and the bytes that are not locked are all that counts. -/
theorem componentWrite_of_inPort (hctl : ∀ x ∈ cellsAt (decoderOff p) bs, componentLocked s p.bridge.val x.1 = true →
      ¬ (decoderOff p + 0x10 ≤ x.1 ∧ x.1 < decoderOff p + 0x14)) :
    componentWrite s p.bridge.val (decoderOff p) bs = settleDecoder (placeCells s 0xFFF
      (((cellsAt (decoderOff p) bs).filter fun x => !componentLocked s p.bridge.val x.1).map fun x =>
        (bridgeBase p.bridge.val + 0x10_0000 + x.1, x.2))) p := by
  have hone (l : List DecoderPlace) (hall : ∀ x ∈ l, x = p) (hne : p ∈ l) : l.eraseDups = [p] := by
    have hnd := nodup_eraseDups l
    have hmem : ∀ x, x ∈ l.eraseDups ↔ x ∈ l := fun x => List.mem_eraseDups
    rw [← List.perm_singleton, List.perm_ext_iff_of_nodup hnd (List.nodup_singleton p)]
    intro x
    rw [hmem, List.mem_singleton]
    exact ⟨hall x, fun h => h ▸ hne⟩
  rw [componentWrite, hone]
  · rfl
  · intro x hx
    obtain ⟨⟨q, k⟩, hq, rfl⟩ := List.mem_map.1 hx
    obtain ⟨y, hy, hyq⟩ := List.mem_filterMap.1 (List.mem_filter.1 hq).1
    obtain ⟨hlo, hhi⟩ := mem_cellsAt (List.mem_filter.1 hy).1
    have hbyte := decoderByte_of_inPort hp (k := y.1 - decoderOff p) (by omega)
    rw [Nat.add_sub_cancel' hlo, hyq] at hbyte
    exact congrArg Prod.fst (Option.some.inj hbyte)
  · have hcell : (decoderOff p + 0x10, bs[0x10]) ∈ cellsAt (decoderOff p) bs := by
      rw [cellsAt, List.mem_mapIdx]
      exact ⟨0x10, by omega, rfl⟩
    have hopen : componentLocked s p.bridge.val (decoderOff p + 0x10) = false := by
      rw [Bool.eq_false_iff]
      exact fun h => hctl _ hcell h ⟨Nat.le_refl _, by simp⟩
    refine List.mem_map.2 ⟨(p, 0x10), List.mem_filter.2 ⟨List.mem_filterMap.2 ⟨_, List.mem_filter.2 ⟨hcell, ?_⟩, ?_⟩, by simp⟩, rfl⟩
    · rw [hopen]
      rfl
    · exact decoderByte_of_inPort hp (by omega)
end
end

/-- Nothing of the registers of a bridge die has a second place. -/
theorem mem_placeCells_bridge (s : State) (tag : BitVec 12) (b off : Nat) (cells : List (Nat × Byte)) :
    (placeCells s tag (cells.map fun x => (bridgeBase b + off + x.1, x.2))).mem =
      memWrite s.mem (cells.map fun x => (bridgeBase b + off + x.1, x.2)) := by
  have hstep : mirrorStep s (cells.map fun x => (bridgeBase b + off + x.1, x.2)) = [] := by
    rw [mirrorStep, List.flatMap_eq_nil_iff]
    intro d hd
    obtain ⟨x, -, rfl⟩ := List.mem_map.1 hd
    rw [dif_neg]
    rw [bridgeBase]
    simp only []
    omega
  rw [mem_placeCells, mirrorCells, mirrorFrom, hstep]
  simp
theorem secu_placeCells (s : State) (tag : BitVec 12) (cells : List (Nat × Byte)) : (placeCells s tag cells).secu = s.secu := by
  obtain ⟨m, ow, po, no, h⟩ := placeCells_eq s tag cells
  rw [h]

/-- The decoders after one has been settled, by what its registers say. -/
theorem secu_settleDecoder (s : State) (p : DecoderPlace) (h : (memByte s.mem (decoderKey p + 0x11)).getLsbD 1 = true) :
    (settleDecoder s p).secu = if decoderCommitted s p then s.secu else
      { s.secu with hdm := s.secu.hdm ++ if interleaveOk (readDecoder s p).il then [readDecoder s p] else [] } := by
  unfold settleDecoder
  simp only [h, Bool.not_true, Bool.false_eq_true, if_false]
  by_cases hc : decoderCommitted s p = true
  · simp only [hc, if_true]
  · have hrest : s.secu.hdm.filter (fun x => x.place != p) = s.secu.hdm := by
      rw [List.filter_eq_self]
      intro x hx
      rw [bne_iff_ne]
      exact fun hxp => hc (List.any_eq_true.2 ⟨x, hx, beq_iff_eq.2 hxp⟩)
    rw [Bool.not_eq_true] at hc
    simp only [hc, Bool.false_eq_true, if_false, hrest]
    cases hi : interleaveOk (readDecoder s p).il
    · simp only [Bool.false_eq_true, if_false, List.append_nil]
    · simp only [if_true, modSecu]
end Sys2Proof.Machine

namespace Sys2Proof.Machine
open Sys2Proof.Say
/-! ### A decoder that the firmware commits (R409) -/

/-- What a field reads of bytes laid at consecutive addresses. -/
theorem memNat_memWrite_field {m : List Host.Cell} (h : Memory.wf m) (a : Nat) (front back : List Byte) (n v : Nat) :
    memNat (memWrite m (cellsAt a (front ++ (bytesLE n v ++ back)))) (a + front.length) n = v % 256 ^ n := by
  rw [memNat, memRead_memWrite_within h a (by simp [length_bytesLE]), List.drop_left, List.take_left' (length_bytesLE n v), packLE_bytesLE]

theorem cellsAt_add (b a : Nat) (bs : List Byte) : (cellsAt a bs).map (fun x => (b + x.1, x.2)) = cellsAt (b + a) bs := by
  apply List.ext_getElem <;> simp [cellsAt, Nat.add_assoc]

/-- The control register with which the firmware commits a decoder. -/
def ctlOf (il : Interleave) : Nat := il.granularity.toNat + 16 * il.ways.toNat + 512
/-- The registers of a decoder as the firmware writes them. -/
def decoderBytes (base len : Nat) (il : Interleave) : List Byte :=
  bytesLE 8 base ++ bytesLE 8 len ++ bytesLE 4 (ctlOf il) ++ bytesLE 4 0 ++ bytesLE 8 il.targets.toNat
theorem length_decoderBytes (base len : Nat) (il : Interleave) : (decoderBytes base len il).length = 32 := by
  simp only [decoderBytes, List.length_append, length_bytesLE]

theorem commitDecoder_eq (s : State) (p : DecoderPlace) (base len : Nat) (il : Interleave) :
    commitDecoder s p base len il = componentWrite s p.bridge.val (decoderOff p) (decoderBytes base len il) := by
  rw [commitDecoder, decoderKey_eq, Nat.add_sub_cancel_left]
  rfl

section
variable {m : List Host.Cell} (h : Memory.wf m) (K base len : Nat) (il : Interleave)
include h

theorem memNat_decoderBytes : memNat (memWrite m (cellsAt K (decoderBytes base len il))) K 8 = base % 2 ^ 64 ∧
    memNat (memWrite m (cellsAt K (decoderBytes base len il))) (K + 8) 8 = len % 2 ^ 64 ∧
    memNat (memWrite m (cellsAt K (decoderBytes base len il))) (K + 0x10) 4 = ctlOf il ∧
    memNat (memWrite m (cellsAt K (decoderBytes base len il))) (K + 0x18) 8 = il.targets.toNat := by
  have hctl : ctlOf il < 2 ^ 32 := by
    have := il.granularity.isLt
    have := il.ways.isLt
    rw [ctlOf]
    omega
  have h1 := memNat_memWrite_field h K [] (bytesLE 8 len ++ bytesLE 4 (ctlOf il) ++ bytesLE 4 0 ++ bytesLE 8 il.targets.toNat) 8 base
  have h2 := memNat_memWrite_field h K (bytesLE 8 base) (bytesLE 4 (ctlOf il) ++ bytesLE 4 0 ++ bytesLE 8 il.targets.toNat) 8 len
  have h3 := memNat_memWrite_field h K (bytesLE 8 base ++ bytesLE 8 len) (bytesLE 4 0 ++ bytesLE 8 il.targets.toNat) 4 (ctlOf il)
  have h4 := memNat_memWrite_field h K (bytesLE 8 base ++ bytesLE 8 len ++ bytesLE 4 (ctlOf il) ++ bytesLE 4 0) [] 8 il.targets.toNat
  simp only [List.length_append, length_bytesLE, List.nil_append, List.append_nil, List.length_nil, Nat.add_zero, List.append_assoc] at h1 h2 h3 h4
  simp only [decoderBytes, List.append_assoc]
  refine ⟨h1, h2, h3.trans (Nat.mod_eq_of_lt hctl), h4.trans (Nat.mod_eq_of_lt il.targets.isLt)⟩
end

theorem extractLsb'_ctlOf (il : Interleave) : (BitVec.ofNat 32 (ctlOf il)).extractLsb' 4 4 = il.ways ∧
    (BitVec.ofNat 32 (ctlOf il)).extractLsb' 0 4 = il.granularity := by
  have hg := il.granularity.isLt
  have hw := il.ways.isLt
  refine ⟨BitVec.eq_of_toNat_eq ?_, BitVec.eq_of_toNat_eq ?_⟩
  all_goals
    simp only [BitVec.extractLsb'_toNat, BitVec.toNat_ofNat, Nat.shiftRight_eq_div_pow, ctlOf]
    omega

/-- Bit 9 of the control register, with which the firmware commits a decoder. -/
theorem decoderBytes_commit (base len : Nat) (il : Interleave) :
    ((decoderBytes base len il)[0x11]'(by rw [length_decoderBytes]; omega)).getLsbD 1 = true := by
  have hg := il.granularity.isLt
  have hw := il.ways.isLt
  have hdiv : ctlOf il / 256 = 2 := by
    rw [ctlOf]
    omega
  have hbyte : (decoderBytes base len il)[0x11]'(by rw [length_decoderBytes]; omega) = BitVec.ofNat 8 (ctlOf il / 256) := by
    simp [decoderBytes, bytesLE]
  rw [hbyte, hdiv]
  rfl

section
variable {s : State} {p : DecoderPlace} (hp : InPort p) (hm : Memory.wf s.mem) (base len : Nat) (il : Interleave)
include hp hm

/-- The state in which the decoder is settled: its registers stand as written, but for the bytes that are locked. -/
def placedDecoder (s : State) (p : DecoderPlace) (bs : List Byte) : State :=
  placeCells s 0xFFF (((cellsAt (decoderOff p) bs).filter fun x => !componentLocked s p.bridge.val x.1).map fun x =>
    (bridgeBase p.bridge.val + 0x10_0000 + x.1, x.2))

omit hm in
theorem commitDecoder_placed : commitDecoder s p base len il = settleDecoder (placedDecoder s p (decoderBytes base len il)) p := by
  rw [commitDecoder_eq, componentWrite_of_inPort hp s (length_decoderBytes base len il)]
  · rfl
  · rintro ⟨a, v⟩ hx hlock ⟨hlo, hhi⟩
    obtain ⟨k, rfl⟩ := Nat.exists_eq_add_of_le (show decoderOff p ≤ a by simp only [] at hlo; omega)
    simp only [] at hlo hhi hlock
    rw [componentLocked_of_inPort hp s (by omega), decide_eq_true (by omega), decide_eq_true (by omega)] at hlock
    exact Bool.false_ne_true hlock

omit hp in
theorem memByte_placed {bs : List Byte} {k : Nat} (hk : k < bs.length) (hopen : componentLocked s p.bridge.val (decoderOff p + k) = false) :
    memByte (placedDecoder s p bs).mem (decoderKey p + k) = bs[k] := by
  have hcell : (decoderOff p + k, bs[k]) ∈ (cellsAt (decoderOff p) bs).filter fun x => !componentLocked s p.bridge.val x.1 := by
    refine List.mem_filter.2 ⟨?_, by rw [hopen, Bool.not_false]⟩
    rw [cellsAt, List.mem_mapIdx]
    exact ⟨k, hk, rfl⟩
  have hnd : (((cellsAt (decoderOff p) bs).filter fun x => !componentLocked s p.bridge.val x.1).map
      ((bridgeBase p.bridge.val + 0x10_0000 + ·) ∘ Prod.fst)).Nodup := by
    have hall : ((cellsAt (decoderOff p) bs).map Prod.fst).Nodup := by
      rw [map_fst_cellsAt]
      exact List.Nodup.map (fun x y h => Nat.add_left_cancel h) List.nodup_range
    rw [← List.map_map]
    exact (hall.sublist (List.filter_sublist.map Prod.fst)).map fun x y h => Nat.add_left_cancel h
  rw [placedDecoder, mem_placeCells_bridge, decoderKey_eq, Nat.add_assoc _ (decoderOff p)]
  refine memByte_memWrite_of_mem hm ?_ (List.mem_map_of_mem (f := fun x => (bridgeBase p.bridge.val + 0x10_0000 + x.1, x.2)) hcell)
  rw [List.map_map]
  exact hnd

/-- A decoder that was not committed is then as the firmware described it. -/
theorem readDecoder_placedDecoder (hc : decoderCommitted s p = false) (hb : base < 2 ^ 64) (hl : len < 2 ^ 64) :
    readDecoder (placedDecoder s p (decoderBytes base len il)) p =
      ⟨p, 0x400_0000_0000 + base / 2 ^ 28 * 2 ^ 28,
        if 0x400_0000_0000 + base / 2 ^ 28 * 2 ^ 28 + len / 2 ^ 28 * 2 ^ 28 ≤ 0x800_0000_0000 then len / 2 ^ 28 * 2 ^ 28 else 0, il⟩ := by
  have hall : ((cellsAt (decoderOff p) (decoderBytes base len il)).filter fun x => !componentLocked s p.bridge.val x.1) =
      cellsAt (decoderOff p) (decoderBytes base len il) := by
    refine List.filter_eq_self.2 fun x hx => ?_
    obtain ⟨hlo, hhi⟩ := mem_cellsAt hx
    rw [length_decoderBytes] at hhi
    have hlock := componentLocked_of_inPort hp s (k := x.1 - decoderOff p) (by omega)
    rw [Nat.add_sub_cancel' hlo, hc, Bool.and_false] at hlock
    rw [hlock]
    rfl
  have hmem : (placedDecoder s p (decoderBytes base len il)).mem = memWrite s.mem (cellsAt (decoderKey p) (decoderBytes base len il)) := by
    rw [placedDecoder, mem_placeCells_bridge, hall, cellsAt_add, decoderKey_eq]
  obtain ⟨h1, h2, h3, h4⟩ := memNat_decoderBytes hm (decoderKey p) base len il
  obtain ⟨h5, h6⟩ := extractLsb'_ctlOf il
  rw [readDecoder, hmem, h1, h2, h3, h4, h5, h6, Nat.mod_eq_of_lt hb, Nat.mod_eq_of_lt hl, BitVec.ofNat_toNat, BitVec.setWidth_eq]

theorem secu_commitDecoder (hb : base < 2 ^ 64) (hl : len < 2 ^ 64) :
    let b := 0x400_0000_0000 + base / 2 ^ 28 * 2 ^ 28
    let n := len / 2 ^ 28 * 2 ^ 28
    (commitDecoder s p base len il).secu = { s.secu with hdm := s.secu.hdm ++
      (if (∀ h ∈ s.secu.hdm, h.place ≠ p) ∧ interleaveOk il = true then [⟨p, b, if b + n ≤ 0x800_0000_0000 then n else 0, il⟩] else []) } := by
  intro b n
  have hsecu : (placedDecoder s p (decoderBytes base len il)).secu = s.secu := secu_placeCells _ _ _
  have hcommitted : decoderCommitted (placedDecoder s p (decoderBytes base len il)) p = decoderCommitted s p := by
    rw [decoderCommitted, hsecu, decoderCommitted]
  have hbit : (memByte (placedDecoder s p (decoderBytes base len il)).mem (decoderKey p + 0x11)).getLsbD 1 = true := by
    rw [memByte_placed hm (by rw [length_decoderBytes]; omega) (by rw [componentLocked_of_inPort hp s (by omega)]; simp)]
    exact decoderBytes_commit base len il
  rw [commitDecoder_placed hp, secu_settleDecoder _ _ hbit, hcommitted, hsecu]
  by_cases hc : decoderCommitted s p = true
  · obtain ⟨h, hmem, hplace⟩ := List.any_eq_true.1 hc
    rw [if_pos hc, if_neg fun hno => hno.1 h hmem (beq_iff_eq.1 hplace), List.append_nil]
  · have hno : ∀ h ∈ s.secu.hdm, h.place ≠ p := fun h hmem hplace => hc (List.any_eq_true.2 ⟨h, hmem, beq_iff_eq.2 hplace⟩)
    rw [if_neg hc, readDecoder_placedDecoder hp hm base len il (Bool.eq_false_iff.2 hc) hb hl]
    by_cases hi : interleaveOk il = true
    · rw [if_pos hi, if_pos (c := _ ∧ _) ⟨hno, hi⟩]
    · rw [if_neg hi, if_neg (c := _ ∧ _) fun h => hi h.2]
end
end Sys2Proof.Machine

namespace Sys2Proof.Machine
open Sys2Proof.Say
/-! ### Faults that a checkpoint's reads fire (R376) leave the fabric's registers -/

theorem fab_foldl {α : Type} {f : State → α → State} (h : ∀ s a, (f s a).fab = s.fab) (l : List α) (s : State) :
    (l.foldl f s).fab = s.fab := by
  induction l generalizing s with
  | nil => rfl
  | cons a l ih => exact (ih (f s a)).trans (h s a)
theorem fab_fenceCube (s : State) (c : CubeId) : (fenceCube s c).fab = s.fab := by
  unfold fenceCube
  split <;> rfl
theorem fab_poisonLine (s : State) (line : Nat) : (poisonLine s line).fab = s.fab := by
  unfold poisonLine
  split <;> rfl
theorem fab_uncorrectable (s : State) (line : Nat) : (uncorrectable s line).fab = s.fab := by
  unfold uncorrectable
  simp only []
  split
  · exact fab_poisonLine s line
  · next c hbm _ =>
    have hlog (w : Word) : (logUe (poisonLine s line) c w).fab = s.fab := fab_poisonLine s line
    have hrow (w : Word) : (if hbm = true then noteRow (logUe (poisonLine s line) c w) c line true
        else logUe (poisonLine s line) c w).fab = s.fab := by
      split
      · exact hlog w
      · exact hlog w
    split
    · exact (fab_fenceCube _ _).trans (hrow _)
    · exact hrow _
theorem fab_correctable (s : State) (line : Nat) : (correctable s line).fab = s.fab := by
  unfold correctable
  split
  · simp only []
    split <;> rfl
  · rfl
theorem fab_fireLine (s : State) (line : Nat) : (fireLine s line).fab = s.fab := by
  unfold fireLine
  refine fab_foldl (fun s c => ?_) _ _
  simp only []
  split
  · split
    · exact fab_correctable _ _
    · exact fab_uncorrectable _ _
  · rfl
theorem fab_fireIn (s : State) (here : Nat → Bool) : (fireIn s here).fab = s.fab := by
  unfold fireIn
  exact fab_foldl fab_fireLine _ _

/-! ### A checkpoint's start (R406) -/

section
variable {s : State} (v : Word)

/-- FAB_CKPTCTL after GO: STACKS as written, ERR and DONE unless they are written to be cleared, and the copy in progress. -/
theorem ckptCtl_go {c : Word} (h : c.getLsbD 1 = false) :
    ((v ||| 1) &&& 0xFF0000) ||| (c &&& 0xE &&& ~~~((v ||| 1) &&& 0xC)) ||| 2 = (v &&& 0xFF0000) ||| (c &&& 0xC &&& ~~~v) ||| 2 := by
  have hstacks : (v ||| 1) &&& 0xFF0000 = v &&& 0xFF0000 := by
    rw [BitVec.and_comm, BitVec.and_or_distrib_left, show (0xFF0000 : Word) &&& 1 = 0#64 by decide, BitVec.or_zero, BitVec.and_comm]
  have hclear : (v ||| 1) &&& 0xC = v &&& 0xC := by
    rw [BitVec.and_comm, BitVec.and_or_distrib_left, show (0xC : Word) &&& 1 = 0#64 by decide, BitVec.or_zero, BitVec.and_comm]
  have hbusy : c &&& 2 = 0#64 := by
    rw [show (2 : Word) = BitVec.twoPow 64 1 by decide, BitVec.and_twoPow, h]
    rfl
  have hkeep : c &&& 0xE = c &&& 0xC := by
    rw [show (0xE : Word) = 0xC ||| 2 by decide, BitVec.and_or_distrib_left, hbusy, BitVec.or_zero]
  rw [hstacks, hclear, hkeep, BitVec.not_and, BitVec.and_or_distrib_left, BitVec.and_assoc c 0xC (~~~0xC),
    show (0xC : Word) &&& ~~~0xC = 0#64 by decide, BitVec.and_zero, BitVec.or_zero]
theorem ckptGo_idle (h : s.fab.regs.ckptCtl.getLsbD 1 = false) : ∃ u, exec (.ckptGo v) s = .next u ∧
    u.fab.ckpt = some (v.extractLsb' 16 8, s.fab.regs.ckptDst.toNat % 2 ^ 48 / 2 ^ 36 * 2 ^ 36) ∧
    u.fab.regs.ckptCtl = (v &&& 0xFF0000) ||| (s.fab.regs.ckptCtl &&& 0xC &&& ~~~v) ||| 2 ∧ u.mem = s.mem := by
  refine ⟨writeCkptCtl s (v ||| 1), exec_ckptGo v s, ?_⟩
  have hgo : ((v ||| 1).getLsbD 0 && !s.fab.regs.ckptCtl.getLsbD 1) = true := by
    rw [h, BitVec.getLsbD_or]
    simp
  unfold writeCkptCtl
  simp only [hgo, if_true]
  refine ⟨congrArg some (Prod.ext ?_ ?_), ckptCtl_go v h, rfl⟩
  · rw [BitVec.extractLsb'_or, show BitVec.extractLsb' 16 8 (1 : Word) = 0#8 by decide, BitVec.or_zero]
  · simp only [modFab, BitVec.extractLsb'_toNat, Nat.shiftRight_eq_div_pow]
    omega

theorem ckptGo_busy (h : s.fab.regs.ckptCtl.getLsbD 1 = true) : ∃ u, exec (.ckptGo v) s = .next u ∧ u.fab.ckpt = s.fab.ckpt ∧
    u.fab.regs.ckptCtl.getLsbD 1 = true ∧ u.mem = s.mem := by
  refine ⟨writeCkptCtl s (v ||| 1), exec_ckptGo v s, ?_⟩
  have hgo : ((v ||| 1).getLsbD 0 && !s.fab.regs.ckptCtl.getLsbD 1) = false := by
    rw [h, Bool.not_true, Bool.and_false]
  unfold writeCkptCtl
  simp only [hgo, Bool.false_eq_true, if_false]
  refine ⟨rfl, ?_, rfl⟩
  simp [modFab, h]
end

/-! ### What the decoders claim (R409) -/

section
variable {s : State}

theorem decoderOf_some {a : Nat} {h : HdmDecoder} (hd : decoderOf s a = some h) : h ∈ s.secu.hdm ∧ h.base ≤ a ∧ a < h.base + h.len := by
  rw [decoderOf] at hd
  obtain hc := List.find?_some hd
  rw [Bool.and_eq_true, decide_eq_true_eq, decide_eq_true_eq] at hc
  exact ⟨List.mem_of_find?_eq_some hd, hc⟩

theorem claimed_of_lt_claimedTo (n : Nat) {a x : Nat} (ha : a ≤ x) (hx : x < claimedTo n s a) :
    ∃ h ∈ s.secu.hdm, h.base ≤ x ∧ x < h.base + h.len := by
  induction n generalizing a with
  | zero => exact absurd hx (Nat.not_lt.2 ha)
  | succ n ih =>
    rw [claimedTo] at hx
    split at hx
    · next h hd =>
      obtain ⟨hmem, hlo, -⟩ := decoderOf_some hd
      by_cases hend : x < h.base + h.len
      · exact ⟨h, hmem, by omega, hend⟩
      · exact ih (by omega) hx
    · exact absurd hx (Nat.not_lt.2 ha)

theorem le_claimedTo (n a : Nat) : a ≤ claimedTo n s a := by
  induction n generalizing a with
  | zero => exact Nat.le_refl a
  | succ n ih =>
    rw [claimedTo]
    split
    · next h hd =>
      have := (decoderOf_some hd).2.2
      have := ih (h.base + h.len)
      omega
    · exact Nat.le_refl a

/-- The decoders that end behind a place are passed one after the other. -/
theorem claimedTo_ge {n a e : Nat} (hall : ∀ x, a ≤ x → x < e → ∃ h ∈ s.secu.hdm, h.base ≤ x ∧ x < h.base + h.len)
    (hn : (s.secu.hdm.filter fun h => decide (a < h.base + h.len)).length ≤ n) : e ≤ claimedTo n s a := by
  induction n generalizing a with
  | zero =>
    rw [claimedTo]
    by_contra hlt
    obtain ⟨h, hmem, -, hend⟩ := hall a (Nat.le_refl a) (by omega)
    have hin : h ∈ s.secu.hdm.filter fun h => decide (a < h.base + h.len) := List.mem_filter.2 ⟨hmem, decide_eq_true hend⟩
    rw [List.length_eq_zero_iff.1 (Nat.le_zero.1 hn)] at hin
    exact List.not_mem_nil hin
  | succ n ih =>
    by_cases hae : e ≤ a
    · exact Nat.le_trans hae (le_claimedTo _ a)
    obtain ⟨q, hq, hqb, hqe⟩ := hall a (Nat.le_refl a) (by omega)
    have hsome : (decoderOf s a).isSome := List.find?_isSome.2 ⟨q, hq, by simp [hqb, hqe]⟩
    obtain ⟨h, hd⟩ := Option.isSome_iff_exists.1 hsome
    obtain ⟨hmem, hlo, hend⟩ := decoderOf_some hd
    rw [claimedTo, hd]
    refine ih (fun x hx => hall x (by omega)) ?_
    have hsub : (s.secu.hdm.filter fun q => decide (h.base + h.len < q.base + q.len)) =
        (s.secu.hdm.filter fun q => decide (a < q.base + q.len)).filter fun q => decide (h.base + h.len < q.base + q.len) := by
      rw [List.filter_filter]
      refine List.filter_congr fun q _ => ?_
      rw [← Bool.decide_and]
      exact decide_eq_decide.2 ⟨fun hq => ⟨hq, by omega⟩, fun hq => hq.1⟩
    have hlt : ((s.secu.hdm.filter fun q => decide (a < q.base + q.len)).filter fun q => decide (h.base + h.len < q.base + q.len)).length <
        (s.secu.hdm.filter fun q => decide (a < q.base + q.len)).length :=
      List.length_filter_lt_length_iff_exists.2 ⟨h, List.mem_filter.2 ⟨hmem, decide_eq_true hend⟩, by simp⟩
    rw [hsub]
    omega

theorem stackClaimed_iff (dst : Nat) : stackClaimed s dst = true ↔
    ∀ a, dst ≤ a → a < dst + 2 ^ 36 → ∃ h ∈ s.secu.hdm, h.base ≤ a ∧ a < h.base + h.len := by
  rw [stackClaimed, decide_eq_true_eq]
  exact ⟨fun h a hlo hhi => claimed_of_lt_claimedTo s.secu.hdm.length hlo (by omega), fun h => claimedTo_ge h (List.length_filter_le _ _)⟩
end
end Sys2Proof.Machine

namespace Sys2Proof.Machine
open Sys2Proof.Say
/-! ### A checkpoint's end (R402, R403, R406) -/

theorem inStack_iff (base a : Nat) : inStack base a = true ↔ base ≤ a ∧ a < base + 2 ^ 36 := by
  rw [inStack, Bool.and_eq_true, decide_eq_true_eq, decide_eq_true_eq]
theorem not_inStack {base a : Nat} (h : a < base ∨ base + 2 ^ 36 ≤ a) : inStack base a = false := by
  rw [Bool.eq_false_iff, ne_eq, inStack_iff]
  omega

/-- Cells that are moved as a whole have different addresses. -/
theorem nodup_shifted {m : List Host.Cell} (h : Memory.wf m) {q : Nat → Bool} {src : Nat} (dst : Nat) (hq : ∀ a, q a = true → src ≤ a) :
    ((m.filter fun x => q x.1).map (Prod.fst ∘ fun x => (dst + (x.1 - src), x.2))).Nodup := by
  have hbase := nodup_addresses (wf_filter (fun x => q x.1) m h)
  refine List.Nodup.map_on (fun x hx y hy hxy => ?_) (List.Nodup.of_map _ hbase)
  have hxs := hq x.1 (List.mem_filter.1 hx).2
  have hys := hq y.1 (List.mem_filter.1 hy).2
  refine List.inj_on_of_nodup_map hbase hx hy ?_
  simp only [Function.comp] at hxy
  omega

section
variable {s : State} (hwf : Memory.wf s.mem) (k dst : Nat)
include hwf

/-- The cells of a stack at its destination. -/
def stackCells (s : State) (k dst : Nat) : List (Nat × Byte) :=
  (s.mem.filter fun x => inStack (k * 2 ^ 36) x.1).map fun x => (dst + (x.1 - k * 2 ^ 36), x.2)
omit hwf in
theorem mem_copyStack : (copyStack s k dst).mem = memWrite (s.mem.filter fun x => !inStack dst x.1) (stackCells s k dst) := rfl
omit hwf in
theorem mem_stackCells {x : Nat × Byte} (h : x ∈ stackCells s k dst) : ∃ j, j < 2 ^ 36 ∧ x.1 = dst + j ∧ (k * 2 ^ 36 + j, x.2) ∈ s.mem := by
  obtain ⟨⟨a, v⟩, hy, rfl⟩ := List.mem_map.1 h
  obtain ⟨hmem, hin⟩ := List.mem_filter.1 hy
  obtain ⟨hlo, hhi⟩ := (inStack_iff _ _).1 hin
  obtain ⟨j, rfl⟩ := Nat.exists_eq_add_of_le hlo
  refine ⟨j, Nat.lt_of_add_lt_add_left hhi, ?_, hmem⟩
  simp only [Nat.add_sub_cancel_left]
theorem nodup_stackCells : ((stackCells s k dst).map Prod.fst).Nodup := by
  rw [stackCells, List.map_map]
  refine nodup_shifted hwf dst fun a ha => ((inStack_iff _ _).1 ha).1

theorem memByte_copyStack_in {j : Nat} (hj : j < 2 ^ 36) :
    memByte (copyStack s k dst).mem (dst + j) = memByte s.mem (k * 2 ^ 36 + j) := by
  rw [mem_copyStack]
  by_cases hsome : ∃ v, (k * 2 ^ 36 + j, v) ∈ s.mem
  · obtain ⟨v, hv⟩ := hsome
    have hin : (dst + j, v) ∈ stackCells s k dst :=
      List.mem_map.2 ⟨(k * 2 ^ 36 + j, v), List.mem_filter.2 ⟨hv, (inStack_iff _ _).2 (by simp only []; omega)⟩, by
        rw [Nat.add_sub_cancel_left]⟩
    rw [memByte_memWrite_of_mem (wf_filter _ _ hwf) (nodup_stackCells hwf k dst) hin, memByte_of_mem hwf hv]
  · have hnone : ∀ v, (k * 2 ^ 36 + j, v) ∉ s.mem := fun v hv => hsome ⟨v, hv⟩
    have hout : ∀ x ∈ stackCells s k dst, x.1 ≠ dst + j := by
      intro x hx hxj
      obtain ⟨i, -, hi, hmem⟩ := mem_stackCells k dst hx
      have hij : i = j := by omega
      exact hnone x.2 (hij ▸ hmem)
    have hgone : (!inStack dst (dst + j)) = false := by
      rw [(inStack_iff dst (dst + j)).2 (by omega)]
      rfl
    rw [memByte_memWrite_ne _ _ _ (wf_filter _ _ hwf) hout, memByte_filter hwf (fun a => !inStack dst a), hgone,
      memByte_of_notMem hnone]
    rfl

theorem memByte_copyStack_out {a : Nat} (ha : a < dst ∨ dst + 2 ^ 36 ≤ a) : memByte (copyStack s k dst).mem a = memByte s.mem a := by
  have hout : ∀ x ∈ stackCells s k dst, x.1 ≠ a := by
    intro x hx hxa
    obtain ⟨j, hj, hxj, -⟩ := mem_stackCells k dst hx
    omega
  rw [mem_copyStack, memByte_memWrite_ne _ _ _ (wf_filter _ _ hwf) hout, memByte_filter hwf (fun a => !inStack dst a), not_inStack ha]
  rfl

theorem memByte_spoilStack {a : Nat} (ha : a < dst ∨ dst + 2 ^ 36 ≤ a) : memByte (spoilStack s k dst).mem a = memByte s.mem a := by
  rw [spoilStack]
  refine memByte_memWrite_ne _ _ _ hwf fun x hx hxa => ?_
  obtain ⟨n, hn, rfl⟩ := List.mem_mapIdx.1 hx
  subst hxa
  rcases List.mem_append.1 (List.mem_filter.1 (List.getElem_mem hn)).1 with hcell | hcell
  · obtain ⟨y, hy, hya⟩ := List.mem_map.1 hcell
    obtain ⟨hlo, hhi⟩ := (inStack_iff _ _).1 (List.mem_filter.1 hy).2
    omega
  · obtain ⟨y, hy, hya⟩ := List.mem_map.1 hcell
    obtain ⟨hlo, hhi⟩ := (inStack_iff _ _).1 (List.mem_filter.1 hy).2
    omega
end

section
variable {s : State} (k : Fin 8) {dst : Nat}

/-- The stack is copied, or its destination is spoiled, once the faults that its reads fire are done. -/
def endedStack (s : State) (k dst : Nat) (good : Bool) : State :=
  let t := fireIn s (inStack (k * 2 ^ 36))
  let t := if good then copyStack t k (dst + k * 2 ^ 36) else spoilStack t k (dst + k * 2 ^ 36)
  let t := modFab t fun r => { r with ckptCtl := (r.ckptCtl &&& ~~~(2 : Word)) ||| if good then 4 else 8 }
  { t with fab := { t.fab with ckpt := none } }

theorem stacks_twoPow (k : Fin 8) : ((List.range 8).filter fun j => (BitVec.twoPow 8 k.val).getLsbD j) = [k.val] := by
  revert k
  decide

theorem endCkpt_one (h : s.fab.ckpt = some (BitVec.twoPow 8 k.val, dst)) (ok : Bool) :
    endCkpt s ok = endedStack s k.val dst (ok && stackCopies s k.val (dst + k.val * 2 ^ 36)) := by
  rw [endCkpt, h]
  simp only [stacks_twoPow, List.foldl_cons, List.foldl_nil, List.all_cons, List.all_nil, Bool.and_true]
  rfl

theorem fab_endedStack (good : Bool) : (endedStack s k.val dst good).fab.ckpt = none ∧
    (endedStack s k.val dst good).fab.regs.ckptCtl = (s.fab.regs.ckptCtl &&& ~~~2) ||| if good then 4 else 8 := by
  have hfab : (if good then copyStack (fireIn s (inStack (k.val * 2 ^ 36))) k.val (dst + k.val * 2 ^ 36)
      else spoilStack (fireIn s (inStack (k.val * 2 ^ 36))) k.val (dst + k.val * 2 ^ 36)).fab = s.fab := by
    cases good
    · exact fab_fireIn s _
    · exact fab_fireIn s _
  refine ⟨rfl, ?_⟩
  simp only [endedStack, modFab]
  rw [hfab]

theorem memByte_endedStack_out (hwf : Memory.wf s.mem) (good : Bool) {a : Nat}
    (ha : a < dst + k.val * 2 ^ 36 ∨ dst + k.val * 2 ^ 36 + 2 ^ 36 ≤ a) :
    memByte (endedStack s k.val dst good).mem a = memByte s.mem a := by
  have hfire : (fireIn s (inStack (k.val * 2 ^ 36))).mem = s.mem := memory_fireIn s _
  cases good
  · exact (memByte_spoilStack (hfire ▸ hwf) k.val (dst + k.val * 2 ^ 36) ha).trans (congrArg (memByte · a) hfire)
  · exact (memByte_copyStack_out (hfire ▸ hwf) k.val (dst + k.val * 2 ^ 36) ha).trans (congrArg (memByte · a) hfire)

theorem memByte_endedStack_in (hwf : Memory.wf s.mem) {j : Nat} (hj : j < 2 ^ 36) :
    memByte (endedStack s k.val dst true).mem (dst + k.val * 2 ^ 36 + j) = memByte s.mem (k.val * 2 ^ 36 + j) := by
  have hfire : (fireIn s (inStack (k.val * 2 ^ 36))).mem = s.mem := memory_fireIn s _
  exact (memByte_copyStack_in (hfire ▸ hwf) k.val (dst + k.val * 2 ^ 36) hj).trans (congrArg (memByte · _) hfire)

/-- A stack answers unless its cube is retired (R381). -/
theorem dpaSpace_stack : dpaSpace s (k.val * 2 ^ 36) = if (s.cube k).hw.life == .retired then .none else .hbm k.val := by
  have hk := k.isLt
  have hdiv : k.val * 2 ^ 36 / 0x10_0000_0000 = k.val := by omega
  rw [dpaSpace, if_pos (by rw [hbmTop]; omega)]
  simp only [hdiv]
  rw [dif_pos hk]

theorem stackCopies_eq (at_ : Nat) : stackCopies s k.val at_ =
    ((s.cube k).hw.life != .retired && stackClaimed s at_ && !stackBarred s (k.val * 2 ^ 36) && !stackBarred s at_) := by
  rw [stackCopies, dpaSpace_stack, bne]
  cases (s.cube k).hw.life == .retired <;> rfl

theorem stackBarred_iff (base : Nat) : stackBarred s base = true ↔
    s.secu.world.getLsbD 6 = false ∧ ∃ n, n < 2 ^ 15 ∧ regionSecure s (base + n * 2 ^ 21) = true := by
  rw [stackBarred, Bool.and_eq_true, Bool.not_eq_true', List.any_eq_true]
  simp only [List.mem_range]

/-- When a stack can be copied, as the statement of the checkpoints has it. -/
theorem stackCopies_iff (at_ : Nat) : stackCopies s k.val at_ = true ↔
    (∀ a, at_ ≤ a → a < at_ + 2 ^ 36 → ∃ h ∈ s.secu.hdm, h.base ≤ a ∧ a < h.base + h.len) ∧ (s.cube k).hw.life ≠ .retired ∧
      ¬ (s.secu.world.getLsbD 6 = false ∧ ∃ n, n < 2 ^ 15 ∧
        (regionSecure s (k.val * 2 ^ 36 + n * 2 ^ 21) = true ∨ regionSecure s (at_ + n * 2 ^ 21) = true)) := by
  have hbarred : (s.secu.world.getLsbD 6 = false ∧ ∃ n, n < 2 ^ 15 ∧
        (regionSecure s (k.val * 2 ^ 36 + n * 2 ^ 21) = true ∨ regionSecure s (at_ + n * 2 ^ 21) = true)) ↔
      stackBarred s (k.val * 2 ^ 36) = true ∨ stackBarred s at_ = true := by
    rw [stackBarred_iff, stackBarred_iff, ← and_or_left, ← exists_or]
    simp only [and_or_left]
  rw [stackCopies_eq, Bool.and_eq_true, Bool.and_eq_true, Bool.and_eq_true, bne_iff_ne, stackClaimed_iff, hbarred, Bool.not_eq_true',
    Bool.not_eq_true', ← Bool.not_eq_true, ← Bool.not_eq_true]
  exact ⟨fun ⟨⟨⟨hlife, hclaim⟩, hsrc⟩, hdst⟩ => ⟨hclaim, hlife, fun hb => hb.elim hsrc hdst⟩,
    fun ⟨hclaim, hlife, hb⟩ => ⟨⟨⟨hlife, hclaim⟩, fun h => hb (.inl h)⟩, fun h => hb (.inr h)⟩⟩
end

/-- Every clause about checkpoints holds. -/
theorem checkpoints : Checkpoints := by
  intro s
  refine ⟨fun v h => ckptGo_idle v h, fun v h => ckptGo_busy v h, fun h ok => ?_, fun k dst h hwf _ => ⟨fun hc => ?_, fun ok hbad => ?_⟩⟩
  · rw [exec_ckptComplete, execCkptComplete, endCkpt, h]
  · refine ⟨endedStack s k.val dst true, ?_, (fab_endedStack k true).1, (fab_endedStack k true).2,
      fun a ha => memByte_endedStack_out k hwf true ha, fun j hj => memByte_endedStack_in k hwf hj⟩
    rw [exec_ckptComplete, execCkptComplete, endCkpt_one k h, (stackCopies_iff k _).2 hc]
    rfl
  · refine ⟨endedStack s k.val dst false, ?_, (fab_endedStack k false).1, (fab_endedStack k false).2,
      fun a ha => memByte_endedStack_out k hwf false ha⟩
    have hgood : (ok && stackCopies s k.val (dst + k.val * 2 ^ 36)) = false := by
      rcases hbad with rfl | hno
      · rfl
      · rw [Bool.eq_false_iff.2 (mt (stackCopies_iff k _).1 hno), Bool.and_false]
    rw [exec_ckptComplete, execCkptComplete, endCkpt_one k h, hgood]
end Sys2Proof.Machine

namespace Sys2Proof.Machine
open Sys2Proof.Say
/-! ### Debug halts (R404), and what `HostAndCheckpoints` comes to

The statement turns on `Config.debugEnable`, an opaque constant of the model, of which the kernel knows neither value. Without debugging
every clause holds. With it the clause about a halted strand fails: `dropWaitRead` gives up one read of a `cwait`, the clause says that
none is left, and it assumes nothing that keeps a state from having two. -/

theorem secDbg_of_disabled (h : Config.debugEnable = false) (s : State) (c : CubeId) :
    exec (.secDbgHalt c) s = .next s ∧ exec (.secDbgResume c) s = .next s := by
  constructor
  · rw [exec_secDbgHalt, execSecDbgHalt, debugHalt, h]
    rfl
  · rw [exec_secDbgResume, execSecDbgResume, debugResume, h]
    rfl

/-- Without debugging every clause about the host holds. -/
theorem hostEvents_of_disabled (h : Config.debugEnable = false) : HostEvents := by
  intro s
  refine ⟨fun off n v bs => ?_, fun p base len il hp hm hb hl => ?_, fun up => rfl, fun nonce => rfl, fun ok => rfl, fun c => ?_⟩
  · refine ⟨aborts_read off n v, aborts_write off n v bs, aborts_counter off n v, fun m hq hc hw hp => ?_, ?_, ?_, aborts_bar0 off n v⟩
    · have hs : Sound s off m := ⟨hq, hp, hw, hc⟩
      refine ⟨?_, ?_, ?_⟩
      · rintro rfl hmay
        exact returns_read off m v hs hmay
      · rintro rfl hmay
        exact puts_write off n v bs hs hmay
      · rintro rfl rfl hoff hmay
        exact puts_counter off v hs hoff hmay
    · rintro rfl rfl
      exact returns_bar0 0x1000 v bar0Word_boot (by decide)
    · rintro c rfl rfl
      exact returns_bar0 _ v (bar0Word_debug c) (by omega)
  · exact ⟨commitDecoder s p base len il, exec_hdmDecoderCommit p base len il s, secu_commitDecoder hp hm base len il hb hl⟩
  · exact ⟨fun _ => secDbg_of_disabled h s c, fun hon => absurd (h.symm.trans hon) Bool.false_ne_true⟩

/-- A read of the `cwait` of strand 20. -/
def waitRead (id : Nat) : ReadReq := ⟨id, 20, 0, 0, 0, [], [], .wait, none, none, .served, 0, 0, false, [], .none, ([], [])⟩
/-- Strand 20 runs on cube 0, with two reads of a `cwait`. -/
def twoWaits : State :=
  { State.reset.modCube 0 fun k => { k with cur := .shelf 0, core := Ctx.reset 20 .task } with reads := [waitRead 1, waitRead 2] }

/-- With debugging `twoWaits` fails the clause about a halted strand: one of its two reads stays. -/
theorem not_hostEvents_of_enabled (h : Config.debugEnable = true) : ¬ HostEvents := by
  intro hall
  obtain ⟨-, -, -, -, -, hdebug⟩ := hall twoWaits
  obtain ⟨hhalt, -⟩ := (hdebug 0).2 h
  obtain ⟨u, hu, -, -, -, -, -, -, -, -, hreads⟩ := hhalt 0 (by decide) (by decide) (by decide)
  have hstop : debugHalt twoWaits 0 = stopForDebug twoWaits 0 := by
    have hcur : (twoWaits.cube 0).cur = .shelf 0 := by decide
    rw [debugHalt, if_pos h, hcur]
    exact if_pos (by decide)
  rw [exec_secDbgHalt, execSecDbgHalt, hstop] at hu
  have hut : u = stopForDebug twoWaits 0 := by
    injection hu with hu
    exact hu.symm
  rw [hut] at hreads
  have hleft : (stopForDebug twoWaits 0).reads = [waitRead 2] := rfl
  exact hreads (waitRead 2) (hleft ▸ List.mem_singleton_self _) rfl rfl

/-- `HostAndCheckpoints` holds just where the package does not let a debugger halt a core. This settles nothing: the model leaves open
whether it does. -/
theorem hostAndCheckpoints_iff_disabled : Obligations.HostAndCheckpoints ↔ Config.debugEnable = false := by
  constructor
  · rintro ⟨hhost, -⟩
    exact Bool.eq_false_iff.2 fun h => not_hostEvents_of_enabled h hhost
  · exact fun h => ⟨hostEvents_of_disabled h, checkpoints⟩
end Sys2Proof.Machine
